-- ==== Sys2Proof/Word.lean ====
section
/-! DEFINITION. The word types of the model (R8, R9) and their plainest arithmetic. -/

namespace Sys2Proof

/-- A byte of memory, of a message or of a dictionary value. -/
abbrev Byte := BitVec 8

/-- A byte string, first byte first. -/
abbrev Bytes := List Byte

/-- A 32-bit register element or message word. -/
abbrev W32 := BitVec 32

/-- A 64-bit value. -/
abbrev W64 := BitVec 64

/-- A pan entry (R96). -/
abbrev W48 := BitVec 48

end Sys2Proof
end

