-- ==== Sys2Proof/Syntax.lean ====
section
/-! DEFINITION. The commands of the block: one constructor of `Instr` per row of spec/opcode_table.json, with the
row's operands. The card has no clock in this model: an expiring timer is a command of its own, and what is
measured outside (a temperature, the cycles a unit waited, a peer's message) comes in as an operand. -/

namespace Sys2Proof

/-- The three dictionary routes (R52 to R54); code 1 CAN, 2 mailbox, 3 towpath lane (R64, 0x2012:06). -/
inductive Route where
  | can | mailbox | towpath
  deriving DecidableEq, Repr

/-- The source of a dictionary access (R44): the route at which the request first entered the Molam, the card
it entered at, and on CAN the client's node-ID. -/
structure Source where
  route : Route
  card  : BitVec 14
  node  : BitVec 7
  deriving DecidableEq, Repr

/-- One dictionary access: its source, and the route by which it physically reaches the serving keeper. -/
structure Access where
  path : Route
  src  : Source
  deriving DecidableEq, Repr

/-- Where a bundle operation issues: the logical unit (R12), and whether it is the last operation of its bundle. -/
structure Issue where
  unit : Fin 64
  last : Bool
  deriving DecidableEq, Repr

/-- Measurements of one unit over a step: cycle counts, which depend on timing alone (R20), and the single-bit errors that
its codes corrected in pans, vector engine, lock and sequencer memories (R84, R141, R157, R185). -/
structure UnitTiming where
  cycles    : Nat   -- from the first bundle to STEPEND
  gateWait  : Nat
  notReady  : Nat
  bankWait  : Nat
  mailbox   : Nat
  bubbles   : Nat
  frontWait : Nat
  lateWake  : Nat
  spaceWait : Nat
  panFixed  : Nat
  vecFixed  : Nat
  lockFixed : Nat
  seqFixed  : Nat
  deriving DecidableEq, Repr

/-- What the code of R248 finds on an access: nothing, an error it corrects, or one it cannot correct, at the
device address of the block. -/
inductive Ecc where
  | clean
  | corrected (addr : BitVec 42)
  | uncorrectable (addr : BitVec 42)
  deriving DecidableEq, Repr

/-- Who waits for a late reservoir read (R245). -/
inductive Requester where
  | stream (unit : Fin 64) (ctx : Fin 512)
  | engine (layer : Nat)
  | loss
  | lookahead (entry : Nat)
  | window
  | copy (barge : Nat)
  | shadow (layer : Nat)
  deriving DecidableEq, Repr

/-- One kind of fault met inside a unit (R22, R84, R141, R157, R161, R165, R185). -/
inductive UnitFaultKind where
  | selfCheck
  | panEcc
  | vectorEcc
  | lockEcc
  | sequencerEcc
  | portEnd
  deriving DecidableEq, Repr

/-- A flit as it arrives: header bits [223:0], payload bytes 28 to 251, stored CRC, and whether the FEC decoded it
(R303, R304). -/
structure Flit where
  hdr     : BitVec 224
  payload : Bytes
  crc     : BitVec 32
  fecOk   : Bool
  deriving DecidableEq, Repr

/-- What a link-control exchange tells of the peer (R301). -/
structure PeerInfo where
  card : BitVec 14
  x : BitVec 8
  y : BitVec 8
  z : BitVec 8
  port : Fin 20
  g4   : Bool
  deriving DecidableEq, Repr

/-- The fields of PAIR (R344, R349). `yourMeas` is the sender's PLMEAS: what it expects of this card. Of the sender's pair state
(R349) what R345 asks about: whether it has accepted this card's PAIR, and whether its ledger is NOJOB (1), between an abort and
its reopening (2), or neither (0). -/
structure PairMsg where
  serial    : BitVec 32
  lcid      : BitVec 16
  partner   : BitVec 15
  sysid     : BitVec 128
  meas      : BitVec 256
  yourMeas  : BitVec 256
  state     : BitVec 8     -- the sender's pair state (0x2A01:01)
  committed : BitVec 64
  accepted  : Bool
  ledger    : Fin 3
  deriving DecidableEq, Repr

/-- The measurement block of STEPM (R350). -/
structure MeasBlock where
  held     : List (BitVec 8 × Bool)             -- SEEN and OVF of every held-scale entry
  late     : Bool
  detached : List (BitVec 12 × BitVec 14)       -- tree, child
  stackT   : List (BitVec 8)
  logic    : List (BitVec 8)
  record   : BitVec 512
  deriving DecidableEq, Repr

/-- One dictionary value in the per-entry form of R471: index, sub-index, value bytes. -/
structure EntryVal where
  idx : BitVec 16
  sub : BitVec 8
  val : Bytes
  deriving DecidableEq, Repr

/-- What PULL asks for (R349): a layer, with its state record when a repair asks for it, the layer's gradient, or
a byte range. -/
inductive PullWhat where
  | layer (n : Nat) (withRecord : Bool)
  | grad (n : Nat)
  | range (addr : BitVec 42) (len : Nat)
  deriving DecidableEq, Repr

/-- A message of a segmented or block transfer (R52, R55): the initiate of a write or of a read of one entry or, without a
sub-index, of a whole object (complete access); or the next message of an open session. -/
inductive SegMsg where
  | write (idx : BitVec 16) (sub : Option (BitVec 8))
  | read (idx : BitVec 16) (sub : Option (BitVec 8))
  | more
  deriving DecidableEq, Repr

/-- A USDO message on the towpath lane (R54): a read or write request of one entry or of a whole object (complete access, R41,
R52), a message of a segmented or block transfer, a response, or an abort code as the response. -/
inductive UsdoMsg where
  | read (idx : BitVec 16) (sub : BitVec 8)
  | readAll (idx : BitVec 16)
  | write (idx : BitVec 16) (sub : BitVec 8) (data : Bytes)
  | writeAll (idx : BitVec 16) (data : Bytes)
  | segment (sid : Nat) (m : SegMsg) (data : Bytes) (last : Bool)
  | response (body : Bytes)
  | abort (code : BitVec 32)
  deriving DecidableEq, Repr

/-- What a gate message names (R218, R334): a system-scope gate by HOME, NUM and CARDS, or the gate that opens a job's first
step; an arrival there brings SYSID, CARDS, the committed step (R375) and the lowest child of an unconfirmed tree edge, if there
is one (R321), a release the first card that differs, if one does. -/
inductive GateMsg where
  | gate (home : BitVec 14) (num : BitVec 8) (cards : BitVec 15)
  | start (sysid : BitVec 128) (cards : BitVec 16) (committed : BitVec 64) (bad : Option (BitVec 14))
  | startOpen (differs : Option (BitVec 16))
  deriving DecidableEq, Repr

/-- A USDO request as it stands in MBXREQ (R53), its decoding left to the USDO layer of CiA 1301. -/
inductive MbxMsg where
  | read (idx : BitVec 16) (sub : BitVec 8)
  | readAll (idx : BitVec 16)
  | write (idx : BitVec 16) (sub : BitVec 8) (data : Bytes)
  | writeAll (idx : BitVec 16) (data : Bytes)
  | segment (sid : Nat) (m : SegMsg) (data : Bytes) (last : Bool)
  | invalid
  deriving DecidableEq, Repr

/-- The field an SREARM replaces (R199). -/
inductive RearmField where
  | saddr | daddr | count | tap | cblk | ostart
  deriving DecidableEq, Repr

/-- Where an SREARM takes its value: a record's W0 and W1, or a base register (R199). -/
inductive RearmSrc where
  | record (rix : BitVec 11)
  | base (h : Fin 8)
  deriving DecidableEq, Repr

/-- The register named by SRECV and SSEND: L0 to L15, I0 to I7 or H0 to H7 (R200). -/
inductive CtlReg where
  | l (n : Fin 16)
  | i (n : Fin 8)
  | h (n : Fin 8)
  deriving DecidableEq, Repr

/-- The conditions of BCOND (R201). -/
inductive Cond where
  | always
  | lZero (n : Fin 16)
  | iZero (n : Fin 8)
  | saturated
  | nonFinite
  | underflow
  | chEnd (ch : Fin 64)
  | chFault (ch : Fin 64)
  deriving DecidableEq, Repr

/-- One keeper sample of every sensor (R415): 16 logic junctions (four per die), 8 stacks, the 32 LPDDR5X packages, and the rest; and
what the keeper has counted since the last one: crossing overruns (R411), wakes of its core and µs awake (R406, R407). -/
structure Readings where
  logic     : List (BitVec 8)
  stackT    : List (BitVec 8)
  iodie     : BitVec 8
  inlet     : BitVec 8
  outlet    : BitVec 8
  regulator : BitVec 8
  volts     : BitVec 16          -- 48 V input, 0.1 V
  mr4       : List (BitVec 8)
  overruns  : Nat
  wakes     : Nat
  awake     : Nat
  deriving DecidableEq, Repr

/-- A sensor with a limit in R419. -/
inductive Sensor where
  | logic (n : Fin 16)
  | stack (n : Fin 8)
  | iodie
  deriving DecidableEq, Repr

/-- What the hardware reports of a boot phase (R428): the flash found, training and self-test failures, the time since the
start of boot, and the frames whose rows phase 5 repaired (R443): reservoir or not, frame, WHERE of each row. -/
structure BootReport where
  flashOk      : Bool
  badStacks    : List (Fin 8)
  badGroups    : List (Fin 8)
  badUnits     : List (Fin 72)
  passedRetest : List (Fin 72)
  rowsFixed    : List (Bool × Nat × List (BitVec 32))
  ms           : Nat
  loadBad      : Bool := false   -- a component loaded in the phase measures otherwise than its entry says (R438)
  badCopies    : List (Fin 3 × Fin 2) := [] -- copies that fail their check (R434): header, repair map or stored dictionary; copy
  deriving DecidableEq, Repr

/-- The outcome of a flash or memory operation that staging waits for (R440). -/
inductive StageOutcome where
  | written (back : Bytes)                              -- programmed; what the slot reads back
  | flashError (erase : Bool) (offset : BitVec 32)      -- an erase or a program failed
  deriving DecidableEq, Repr

/-- The frame a patrol scrub reads (R249): basin or reservoir frame number, and the row within it. -/
structure ScrubAt where
  reservoir : Bool
  frame     : Nat
  row       : Nat
  deriving DecidableEq, Repr

/-- The result of a scrub read. -/
inductive ScrubFound where
  | clean | corrected | uncorrectable (block : Nat)
  deriving DecidableEq, Repr

/-- A host access of 4 B or 8 B, or of another size, to a register of BAR0 (R381). -/
structure RegWrite where
  off  : BitVec 16
  size : Nat
  data : Bytes
  deriving DecidableEq, Repr

/-- What the host sets in the function's configuration space and the card acts on (R379, R391, R403): Enable Relaxed Ordering,
and of MSI-X the Enable and Function Mask bits. PCIe gives their values after reset (PRESUMED, log entry 54). -/
structure PciCtl where
  relaxed  : Bool := true
  msixEn   : Bool := false
  msixMask : Bool := false
  deriving DecidableEq, Repr

/-- The header of a towpath message that arrives (R330, R332): the port, byte 0 of the payload, SRC and MSGID. -/
structure TpHdr where
  port  : Fin 20
  kind  : BitVec 8
  src   : BitVec 14
  msgid : BitVec 16
  deriving DecidableEq, Repr

/-- The commands of the block. The comment before a group names the chapter of the spec that gives it. -/
inductive Instr where
  -- the object dictionary and the towpath
  | entryWrite (a : Access) (idx : BitVec 16) (sub : BitVec 8) (data : Bytes)
  | usdoSegment (a : Access) (sid : Nat) (m : SegMsg) (data : Bytes) (last : Bool)
  | invalidUsdoMessage (a : Access) (carried : Option (BitVec 16 × BitVec 8)) (sid : Option Nat)
  | usdoSessionTimeout (path : Route) (sid : Nat)
  | forwardTimeout
  | commit (a : Access) (gen : BitVec 32)
  | commitAtStep (a : Access) (gen : BitVec 32) (step : BitVec 64)
  | discard (a : Access) (gen : BitVec 32)
  | pendingOwnerTimeout
  | errorFieldClear (a : Access) (v : BitVec 8)
  | store (a : Access) (cls : Fin 3) (sig : BitVec 32)
  | storeDone
  | restoreDefaults (a : Access) (cls : Fin 3) (sig : BitVec 32)
  | startRemoteNode
  | stopRemoteNode
  | enterPreOperational
  | resetNode
  | resetCommunication
  | producerHeartbeatTimer
  | tpdoEventTimer (n : Fin 8)
  -- matrix arrays
  | ald (i : Issue) (rix : BitVec 11) (isel : Fin 8)
  | abc (i : Issue) (rix : BitVec 11) (isel : Fin 8)
  | aps (i : Issue) (rix : BitVec 11) (isel : Fin 8)
  | adr (i : Issue) (rix : BitVec 11) (isel : Fin 8)
  | afl (i : Issue) (rix : BitVec 11) (isel : Fin 8)
  | anop (i : Issue)
  | batchRowArrival (unit : Fin 64) (row : Bytes) (tag : BitVec 32)
  | batchWaitExpiry (unit : Fin 64)
  -- vector engine
  | fadd (i : Issue) (rix : BitVec 11) (isel : Fin 8)
  | fsub (i : Issue) (rix : BitVec 11) (isel : Fin 8)
  | fmul (i : Issue) (rix : BitVec 11) (isel : Fin 8)
  | fma (i : Issue) (rix : BitVec 11) (isel : Fin 8)
  | fneg (i : Issue) (rix : BitVec 11) (isel : Fin 8)
  | fabs (i : Issue) (rix : BitVec 11) (isel : Fin 8)
  | fcps (i : Issue) (rix : BitVec 11) (isel : Fin 8)
  | fmax (i : Issue) (rix : BitVec 11) (isel : Fin 8)
  | fmin (i : Issue) (rix : BitVec 11) (isel : Fin 8)
  | fcmp (i : Issue) (rix : BitVec 11) (isel : Fin 8)
  | sel (i : Issue) (rix : BitVec 11) (isel : Fin 8)
  | mov (i : Issue) (rix : BitVec 11) (isel : Fin 8)
  | iadd (i : Issue) (rix : BitVec 11) (isel : Fin 8)
  | isub (i : Issue) (rix : BitVec 11) (isel : Fin 8)
  | imul (i : Issue) (rix : BitVec 11) (isel : Fin 8)
  | shl (i : Issue) (rix : BitVec 11) (isel : Fin 8)
  | shr (i : Issue) (rix : BitVec 11) (isel : Fin 8)
  | sar (i : Issue) (rix : BitVec 11) (isel : Fin 8)
  | and (i : Issue) (rix : BitVec 11) (isel : Fin 8)
  | or (i : Issue) (rix : BitVec 11) (isel : Fin 8)
  | xor (i : Issue) (rix : BitVec 11) (isel : Fin 8)
  | imax (i : Issue) (rix : BitVec 11) (isel : Fin 8)
  | imin (i : Issue) (rix : BitVec 11) (isel : Fin 8)
  | icmp (i : Issue) (rix : BitVec 11) (isel : Fin 8)
  | cvt (i : Issue) (rix : BitVec 11) (isel : Fin 8)
  | exp2 (i : Issue) (rix : BitVec 11) (isel : Fin 8)
  | log2 (i : Issue) (rix : BitVec 11) (isel : Fin 8)
  | rcp (i : Issue) (rix : BitVec 11) (isel : Fin 8)
  | rsqrt (i : Issue) (rix : BitVec 11) (isel : Fin 8)
  | div (i : Issue) (rix : BitVec 11) (isel : Fin 8)
  | sqrt (i : Issue) (rix : BitVec 11) (isel : Fin 8)
  | kand (i : Issue) (rix : BitVec 11) (isel : Fin 8)
  | kor (i : Issue) (rix : BitVec 11) (isel : Fin 8)
  | kxor (i : Issue) (rix : BitVec 11) (isel : Fin 8)
  | knot (i : Issue) (rix : BitVec 11) (isel : Fin 8)
  | kset (i : Issue) (rix : BitVec 11) (isel : Fin 8)
  | kidx (i : Issue) (rix : BitVec 11) (isel : Fin 8)
  | vtag (i : Issue) (rix : BitVec 11) (isel : Fin 8)
  -- reduction unit
  | rsum (i : Issue) (rix : BitVec 11) (isel : Fin 8)
  | rssum (i : Issue) (rix : BitVec 11) (isel : Fin 8)
  | rmax (i : Issue) (rix : BitVec 11) (isel : Fin 8)
  | rmin (i : Issue) (rix : BitVec 11) (isel : Fin 8)
  | rarg (i : Issue) (rix : BitVec 11) (isel : Fin 8)
  | rsmax (i : Issue) (rix : BitVec 11) (isel : Fin 8)
  | rsmin (i : Issue) (rix : BitVec 11) (isel : Fin 8)
  | rsarg (i : Issue) (rix : BitVec 11) (isel : Fin 8)
  | raddraw (i : Issue) (rix : BitVec 11) (isel : Fin 8)
  | rrd (i : Issue) (rix : BitVec 11) (isel : Fin 8)
  | rclr (i : Issue) (rix : BitVec 11) (isel : Fin 8)
  | rtag (i : Issue) (rix : BitVec 11) (isel : Fin 8)
  -- scalar cores
  | scalarInstruction (unit : Fin 64) (core : Fin 4)
  | mbxoutWrite (unit : Fin 64) (core : Fin 4) (v : W64)
  | mbxinRead (unit : Fin 64) (core : Fin 4) (rd : Fin 32)
  | chmarkWrite (unit : Fin 64) (core : Fin 4) (v : W64)
  -- streams
  | sarm (i : Issue) (ctx : Fin 512) (desc : BitVec 12)
  | srearm (i : Issue) (ctx : Fin 512) (field : RearmField) (src : RearmSrc) (hold : Bool)
  | sstop (i : Issue) (ctx : Fin 512)
  | swait (i : Issue) (ctx : Fin 512)
  | cmark (i : Issue) (ch : Fin 64) (isel : Fin 8)
  | crel (i : Issue) (ch : Fin 64) (isel : Fin 8)
  | streamBurst (unit : Fin 64) (ctx : Fin 512)
  | memoryRequestComplete (unit : Fin 64) (ctx : Fin 512) (ecc : Ecc)
  | lockBreak (unit : Fin 64) (pool : Fin 64)
  -- sequencer: gates, registers, branches, mailboxes, naps
  | garr (i : Issue) (g : Fin 1024)
  | gwait (i : Issue) (g : Fin 1024)
  | gsync (i : Issue) (g : Fin 1024)
  | lset (i : Issue) (l : Fin 16) (v : W32)
  | ladd (i : Issue) (l : Fin 16) (v : W32)
  | iset (i : Issue) (r : Fin 8) (v : W32)
  | iaddi (i : Issue) (r : Fin 8) (v : W32)
  | ixor (i : Issue) (r : Fin 8) (v : W32)
  | ilen (i : Issue) (r : Fin 8) (ch : Fin 64)
  | hset (i : Issue) (h : Fin 8) (rix : BitVec 11)
  | br (i : Issue) (target : BitVec 12)
  | bcnz (i : Issue) (l : Fin 16) (target : BitVec 12)
  | bcond (i : Issue) (c : Cond) (target : BitVec 12) (invert : Bool)
  | srecv (i : Issue) (core : Fin 4) (r : CtlReg)
  | ssend (i : Issue) (core : Fin 4) (r : CtlReg)
  | bwait (i : Issue)
  | nap (i : Issue) (array vec : Bool) (window : W32)
  | wake (i : Issue) (array vec : Bool)
  | quiet (i : Issue)
  | stepend (i : Issue) (t : UnitTiming)
  | sequencerWatchdog (unit : Fin 64)
  | gateLimitExpiry (unit : Fin 64)
  | unitFault (p : Fin 72) (kind : UnitFaultKind)
  -- the plan image
  | activate (a : Access) (area : BitVec 8)
  | activationDone
  | release (a : Access) (v : BitVec 8)
  -- basin, reservoir and barges
  | promote (barge : Nat) (lookahead : Bool)
  | evict (barge : Nat)
  | copyDone (barge : Nat)
  | copyFailed (barge : Nat) (ecc : Ecc)
  | lateRequest (r : Requester) (again : Nat)
  | reservoirGroupFailure (g : Fin 8)
  | patrolScrubRead (w : ScrubAt) (f : ScrubFound)
  -- the update engine and the step ledger
  | layerCheckDone (layer : Nat) (ecc : Ecc)
  | updateStageStart (layer : Nat)
  | updatePieceDone (layer tensor piece : Nat) (ecc : Ecc)
  | refreshPass
  | cardReady
  | readyMessage (h : TpHdr) (card : BitVec 14) (step : BitVec 64) (attempt : Nat)
  | commitMessage (h : TpHdr) (step : BitVec 64) (attempt : Nat)
  | stepOpen
  | abortReport (h : TpHdr) (step : BitVec 64) (attempt : Nat) (cause : BitVec 8) (card layer : BitVec 16) (lost : Bool)
  | abortMessage (h : TpHdr) (step : BitVec 64) (attempt : Nat) (cause : BitVec 8) (card layer : BitVec 16) (action : BitVec 8)
  | enginesStopped
  | normMessage (h : TpHdr) (card : BitVec 14) (step : BitVec 64) (attempt : Nat) (sumA : BitVec 640) (l : BitVec 8) (hold : Bool)
  | applyMessage (h : TpHdr) (step : BitVec 64) (attempt : Nat) (cs : W32)
  | startJob (a : Access) (v : BitVec 8)
  | stopJob (a : Access) (v : BitVec 8)
  -- fabric, collectives and the towpath lane
  | portTrained (p : Fin 20) (lanes : BitVec 4) (peer : PeerInfo)
  | lossOfLock (p : Fin 20)
  | retrainDone (p : Fin 20)
  | retrainTimeout (p : Fin 20)
  | nullFlit (p : Fin 20) (f : Flit)
  | writeFlit (p : Fin 20) (f : Flit)
  | readRequest (p : Fin 20) (f : Flit) (ecc : Ecc)
  | readResponse (p : Fin 20) (f : Flit)
  | writeAcknowledge (p : Fin 20) (f : Flit)
  | linkControl (p : Fin 20) (f : Flit) (peer : PeerInfo)
  | multicastData (p : Fin 20) (f : Flit)
  | detachMessage (p : Fin 20) (tree : BitVec 12) (root : BitVec 14) (src : BitVec 42) (len landed : Nat)
  | remoteRequestTimeout (txn : BitVec 16)
  | towpathUsdo (h : TpHdr) (who : Source) (m : UsdoMsg)
  | gateArrival (h : TpHdr) (g : GateMsg)
  | gateRelease (h : TpHdr) (g : GateMsg)
  | treeEdgeConfirmation (h : TpHdr) (tree : BitVec 12) (parent child : BitVec 14) (confirmed : Bool)
  | heartbeatMessage (h : TpHdr)
  | fabricHeartbeatTimer
  | suspicionTimeout (card : BitVec 14)
  | suspect (h : TpHdr) (card : BitVec 14)
  | probe (h : TpHdr)
  | probeAnswer (h : TpHdr)
  | probeTimeout (card : BitVec 14)
  | halt (a : Access) (v : BitVec 8)
  | haltMessage (h : TpHdr) (serial : BitVec 32) (origin : BitVec 14)
  | resume (a : Access) (v : BitVec 8)
  | resumeMessage (h : TpHdr) (serial : BitVec 32) (origin : BitVec 14)
  -- twins, spares, replay and harvest
  | pairTimer
  | pair (m : PairMsg)
  | seed (addr : BitVec 42) (data : Bytes)
  | seedEnd (committed : BitVec 64) (digests : List (BitVec 128)) (boundary : BitVec 128) (block : Bytes)
  | seedOk
  | image (off : Nat) (data : Bytes) (last : Bool)
  | input (step : BitVec 64) (off : Nat) (data : Bytes)
  | grad (step : BitVec 64) (layer off : Nat) (data : Bytes)
  | gend (step : BitVec 64) (layer : Nat) (n cs : W32) (dg ds : BitVec 128)
  | gack (step : BitVec 64) (layer : Nat) (ok : Bool)
  | stepm (step : BitVec 64) (m : MeasBlock)
  | sack (step : BitVec 64)
  | part (gen : BitVec 32) (target : Option (BitVec 64)) (entries : List EntryVal)
  | pack (gen : BitVec 32)
  | shadowLayerDone (layer : Nat) (ecc : Ecc)
  | sdone (step : BitVec 64) (escalated : Bool)
  | discardMessage (step : BitVec 64)
  | pull (w : PullWhat)
  | data (w : PullWhat) (bytes : Bytes) (reference : BitVec 128)
  | digreq (layer : Nat)
  | digrsp (layer : Nat) (stored : BitVec 128) (gradDig : Option (BitVec 128))
  | hb (p : Fin 20)
  | twinHbTimer
  | twinLinkLost (fabricAlive : Bool)
  | unpair
  | sidebandTimeout
  | cardLevelFault
  | recruit (a : Access) (f : BitVec 16)
  | replaceCard (a : Access) (f : BitVec 16)
  | plannedHandover
  | harvestStep (a : Access) (t : BitVec 64)
  | harvestComplete
  | harvestCancel (a : Access) (v : BitVec 8)
  | harvestLoad (a : Access) (v : BitVec 8) (buffer : Bytes)
  -- the host link
  | mbxctlDoorbell (v : W32) (m : MbxMsg)
  | mailboxResponse (card : BitVec 16) (body : Bytes)
  | registerWrite (w : RegWrite)
  | winbaseWrite (w : RegWrite)
  | windowOpenSnapshot
  | windowCloseSnapshot
  | windowRead (off : BitVec 29) (n : Nat) (ecc : Ecc)
  | windowWrite (off : BitVec 29) (data : Bytes)
  | windowReadTimeout (n : Nat)
  | cqtailWrite (v : W32)
  | noOpCommand (entry : BitVec 512)
  | hostToDevice (entry : BitVec 512) (data : Bytes) (hostError : Bool)
  | deviceToHost (entry : BitVec 512) (ecc : Ecc)
  | fence (entry : BitVec 512)
  | flagOnly (entry : BitVec 512)
  | commandComplete
  | ringputWrite (v : W32)
  | hostseqWrite (v : W64)
  | outboundWrite
  | evpopRead (off : Fin 32) (n : Nat)
  | dataLinkDown
  | perst
  | hotReset
  | flr
  | linkReturn (speed : Fin 4) (width : BitVec 5) (flitMode : Bool) (cfg : PciCtl)
  | pciPowerStateChange (d3hot : Bool) (cfg : PciCtl)
  -- keeper, clocks and power
  | sensorSample (r : Readings)
  | thermalTrip (x : Sensor) (reading : BitVec 8)
  | powerAverage (watts : BitVec 16)
  | idleEvaluation
  | sleepRequest (a : Access) (v : BitVec 8)
  | wakeRequest (a : Access) (v : BitVec 8)
  | autoSleepTimer
  | wakeIn
  | memoryWakeHoldExpiry
  | v48Loss (volts : BitVec 16)
  | v48Return (volts : BitVec 16)
  | presentOpen
  | presentClose
  -- boot, flash and trust
  | bootPhaseDone (phase : Fin 9) (r : BootReport)
  | bootWatchdog
  | reboot (a : Access) (v : BitVec 8)
  | stageImage (a : Access) (addr : BitVec 64)
  | stagingDone (o : StageOutcome)
  | nextSlot (a : Access) (v : BitVec 8)
  | confirm (a : Access) (v : BitVec 8)
  | attestationReport (a : Access)
  | testDraw (a : Access)
  -- the card
  | identify (a : Access) (v : BitVec 16)
  | identifyExpiry
  | vauxReturn
  | vauxLoss
  | cablePresenceChange (n : Fin 5) (present : Bool)
  | hbRxEdge
  | limitCrossing (x : Sensor) (reading : BitVec 8)
  | awaitingPartsRead (a : Access)
  deriving DecidableEq, Repr

end Sys2Proof
end

