-- ==== Sys2Proof/Config.lean ====
section
/-! DEFINITION. What a variant fixes (R3, R5, R7), and the free values: constants without a body for what the spec
leaves open. -/

namespace Sys2Proof

/-- The four variants of R3. -/
inductive Variant where
  | m4162 | m4161 | m2162 | m2041
  deriving DecidableEq, Repr

/-- Arrays per unit (R3, R66). -/
def Variant.arrays : Variant → Nat
  | .m4162 => 4 | .m4161 => 4 | .m2162 => 2 | .m2041 => 2

/-- Fabric ports (R3). -/
def Variant.ports : Variant → Nat
  | .m4162 => 16 | .m4161 => 16 | .m2162 => 16 | .m2041 => 4

/-- Reservoir in TiB (R3). -/
def Variant.reservoirTiB : Variant → Nat
  | .m4162 => 2 | .m4161 => 1 | .m2162 => 2 | .m2041 => 1

/-- Maximum board power in W (R3). -/
def Variant.maxPower : Variant → Nat
  | .m4162 => 1100 | .m4161 => 1060 | .m2162 => 820 | .m2041 => 760

/-- PCIe Device ID (R379). -/
def Variant.deviceId : Variant → Nat
  | .m4162 => 0x4162 | .m4161 => 0x4161 | .m2162 => 0x2162 | .m2041 => 0x2041

/-- Product code (R61, 0x1018:02). -/
def Variant.productCode : Variant → Nat
  | .m4162 => 0x04160002 | .m4161 => 0x04160001 | .m2162 => 0x02160002 | .m2041 => 0x02040001

/-- Barges of the device range (R222). -/
def Variant.barges (v : Variant) : Nat := if v.reservoirTiB = 2 then 0x180000 else 0x100000

/-- Reservoir frames per group (R222). -/
def Variant.groupFrames (v : Variant) : Nat := if v.reservoirTiB = 2 then 0x20000 else 0x10000

/-- FREE VALUE: what a byte holds whose contents the spec calls unknown (R395), for the n-th draw. -/
opaque Config.unknownByte : Nat → Byte

/-- FREE VALUE: the value of a raw read whose result the spec does not state, for the n-th draw. -/
opaque Config.freeWord : Nat → W64

/-- FREE VALUE: the request tag of a row that a stream brings to the batcher, by the stream's descriptor and the row's
number in the stream (R91 says that rows carry tags, no rule says where in the stream). -/
opaque Config.rowTag : Nat → Nat → BitVec 32

/-- FREE VALUE: ORD of a pool burst of a stream that is not indexed, by its descriptor and the burst's position in the
stream. -/
opaque Config.burstOrd : Nat → Nat → BitVec 32

/-- FREE VALUE: where a drain of a batch pass puts the request tags of its rows (R93), by the words of its record, which name no
place for them (R196): a lock offset, or nowhere. -/
opaque Config.drainTags : List Nat → Option Nat

/-- FREE VALUE: how many chunks of a running barge copy have been copied when a write to the barge arrives (R230), for the
n-th draw. -/
opaque Config.chunksCopied : Nat → Nat

/-- FREE VALUE: how many bytes of a value one response of a segmented or block read carries on a route: 0 CAN, 1 mailbox,
2 towpath lane. -/
opaque Config.uploadBytes : Nat → Nat

/-- FREE VALUE: the payload of a towpath message by its kind, and of a twin message without bulk data (kind 0), in units of
16 bytes. -/
opaque Config.msgUnits : Nat → Nat

/-- FREE VALUE: the result of SHL, SHR or SAR (0, 1, 2) by an amount of 32 or more, which the spec does not state. -/
opaque Config.shiftBeyond : Nat → W32 → W32 → W32

/-- FREE VALUE: the hart ID of a scalar core (mhartid), which the spec does not give; the argument is 4 × logical unit + core, so that a
spare unit in its place gives the same (R1). -/
opaque Config.hartId : Nat → W64

/-- FREE VALUE: a statistic that only a clock inside the card can measure, by entry, sampling periods since boot and committed
steps. -/
opaque Config.clockCount : Nat → Nat → Nat → W64

/-- FREE VALUE: the severity of an event of a type, with its detail, for which the spec states none (R399, R425). -/
opaque Config.eventSev : Nat → Nat → Fin 3

end Sys2Proof
end

