-- ==== Sys2Proof/Machine/Sparse.lean ====
section
/-! DEFINITION. Sparse maps: lists of (key, value) pairs with keys strictly rising and no entry equal to
what an unlisted key reads as. Memories, register files and counters of the state are held in this one
canonical form, so that equal contents are equal data. -/

namespace Sys2Proof.Machine

/-- The raw list of a sparse map over values `α`. -/
abbrev Sparse (α : Type) := List (Nat × α)

/-- Read: an unlisted key reads as `d`. -/
def Sparse.get {α : Type} (d : α) : Sparse α → Nat → α
  | [], _ => d
  | (k, v) :: m, a => if k = a then v else Sparse.get d m a

/-- Insert in key order, replacing an entry of the same key. -/
def Sparse.ins {α : Type} (a : Nat) (x : α) : Sparse α → Sparse α
  | [] => [(a, x)]
  | (k, v) :: m =>
    if a < k then (a, x) :: (k, v) :: m
    else if a = k then (a, x) :: m
    else (k, v) :: Sparse.ins a x m

/-- Remove the entry of a key. -/
def Sparse.del {α : Type} (a : Nat) (m : Sparse α) : Sparse α := m.filter fun kv => decide (kv.1 ≠ a)

/-- Write: writing the value an unlisted key reads as removes the entry. -/
def Sparse.set {α : Type} [DecidableEq α] (d : α) (m : Sparse α) (a : Nat) (x : α) : Sparse α :=
  if x = d then Sparse.del a m else Sparse.ins a x m

/-- Change the value of one key by a function. -/
def Sparse.modify {α : Type} [DecidableEq α] (d : α) (m : Sparse α) (a : Nat) (f : α → α) : Sparse α :=
  Sparse.set d m a (f (Sparse.get d m a))

/-- Drop every entry whose key is in `[lo, lo + n)`: the range reads as `d`. -/
def Sparse.clearRange {α : Type} (m : Sparse α) (lo n : Nat) : Sparse α :=
  m.filter fun kv => decide (kv.1 < lo) || decide (lo + n ≤ kv.1)

/-- The entries with keys in `[lo, lo + n)`, keys counted from `lo`. -/
def Sparse.slice {α : Type} (m : Sparse α) (lo n : Nat) : Sparse α :=
  (m.filter fun kv => decide (lo ≤ kv.1) && decide (kv.1 < lo + n)).map fun kv => (kv.1 - lo, kv.2)

/-- Write every listed entry of `src`, its keys counted from `dst`. -/
def Sparse.blit {α : Type} [DecidableEq α] (d : α) (m : Sparse α) (dst : Nat) (src : Sparse α) : Sparse α :=
  src.foldl (fun acc kv => Sparse.set d acc (dst + kv.1) kv.2) m

/-- Copy the range `[src, src + n)` onto `[dst, dst + n)`; the listed part of `dst` is replaced whole. -/
def Sparse.copyRange {α : Type} [DecidableEq α] (d : α) (m : Sparse α) (src dst n : Nat) : Sparse α :=
  Sparse.blit d (Sparse.clearRange m dst n) dst (Sparse.slice m src n)

/-- Write consecutive values from key `a` on. -/
def Sparse.setMany {α : Type} [DecidableEq α] (d : α) (m : Sparse α) (a : Nat) : List α → Sparse α
  | [] => m
  | x :: xs => Sparse.setMany d (Sparse.set d m a x) (a + 1) xs

/-- Read `n` consecutive values from key `a` on. -/
def Sparse.getMany {α : Type} (d : α) (m : Sparse α) (a : Nat) : Nat → List α
  | 0 => []
  | n + 1 => Sparse.get d m a :: Sparse.getMany d m (a + 1) n

/-- The keys lie above `b` and rise strictly. -/
def Sparse.risesFrom {α : Type} : Option Nat → Sparse α → Bool
  | _, [] => true
  | b, (k, _) :: m => (match b with | none => true | some b => decide (b < k)) && Sparse.risesFrom (some k) m

/-- The canonical form: keys strictly rising, no entry equal to `d`. -/
def Sparse.wf {α : Type} [DecidableEq α] (d : α) (m : Sparse α) : Bool :=
  Sparse.risesFrom none m && m.all fun kv => decide (kv.2 ≠ d)

end Sys2Proof.Machine
end

