-- ==== Sys2Proof/Machine/State.lean ====
section
/-! DEFINITION. The state of one Molam card as plain data, and the state after reset (the card unpowered, before
the first rise of 48 V). Other cards, the host and the clock stand outside: what they send or measure comes in as
operands of commands, and what the card sends goes into `out`. -/

namespace Sys2Proof.Machine

/-- Faults. No command of the table stops the block with a fault: every event the spec names has an effect.
`badState` is raised by no meaning; it stands for a state the constructors of this file cannot express.
Safe: it is never answered. -/
inductive Fault where
  | badState
  deriving DecidableEq, Repr

/-- Refusals. `notModelled` is answered only by an arm of `exec` whose command has no meaning yet (safe: the
run stops). -/
inductive Refusal where
  | notModelled (mnemonic : String)
  deriving DecidableEq, Repr

/-! ### The card's fixed identity -/

/-- What is fused, strapped or read once at manufacture (R3, R61, R379, R432, R445). No command changes it. -/
structure Strap where
  variant   : Variant    := .m4162
  revision  : BitVec 32  := 0
  serial    : BitVec 32  := 0
  hwVersion : Bytes      := []
  vendorId  : BitVec 16  := 0
  rootHash  : Bytes      := []      -- fused hash of the root public key (R438)
  idSeed    : Bytes      := []      -- identity private key, sealed in the security engine (R445)
  idPub     : Bytes      := []      -- identity public key
  idCert    : Bytes      := []
  jedecId   : BitVec 32  := 0
  flashSize : Nat        := 134217728
  flashMode : BitVec 8   := 1
  deriving DecidableEq, Repr

/-! ### What the card sends -/

/-- Towpath messages this card originates (R330), other than forwarded ones. -/
inductive TpMsg where
  | usdo (s : Source) (m : UsdoMsg)
  | ready (step attempt : Nat)
  | commit (step attempt : Nat)
  | abortRep (step attempt cause card layer : Nat) (lost : Bool)
  | abort (step attempt cause card layer action : Nat)
  | norm (step attempt : Nat) (sumA : Nat) (l : Int) (hold : Bool)
  | apply (step attempt : Nat) (cs : W32)
  | halt (serial origin : Nat)
  | resume (serial origin : Nat)
  | heartbeat
  | suspect (card : Nat)
  | probe (avoid : Nat)                        -- by a route that avoids this card (R331)
  | probeAnswer
  | gateArrival (home num cards : Nat)
  | gateRelease (home num : Nat)
  | startArrival (sysid cards committed : Nat) (bad : Option Nat) -- arrival at the gate that opens a job's first step (R218, R321)
  | startRelease (differs : Option Nat)
  | edge (tree parent child : Nat) (confirmed : Bool)
  | unpair (cause : Nat)                       -- UNPAIR over the towpath lane (R347)
  deriving DecidableEq, Repr

/-- Twin messages this card sends (R349). -/
inductive TwMsg where
  | pair (m : PairMsg)
  | seed (layer : Nat) (data : Bytes)
  | seedEnd (committed : Nat) (digests : List (BitVec 128)) (boundary : BitVec 128) (block : Bytes)
  | seedOk
  | image (data : Bytes)
  | input (step : Nat) (slot : Nat)
  | grad (step layer : Nat) (data : Bytes)
  | gend (step layer : Nat) (n cs : W32) (dg ds : BitVec 128)
  | gack (step layer : Nat) (ok : Bool)
  | stepm (step : Nat) (m : MeasBlock)
  | sack (step : Nat)
  | part (gen : Nat) (target : Option Nat) (entries : List EntryVal)
  | pack (gen : Nat)
  | sdone (step : Nat) (escalated : Bool)
  | discard (step : Nat)
  | pull (w : PullWhat)
  | data (w : PullWhat) (bytes : Bytes) (reference : BitVec 128)
  | digreq (layer : Nat)
  | digrsp (layer : Nat) (stored : BitVec 128) (gradDig : Option (BitVec 128))
  | hb
  | unpair (cause : Nat)
  deriving DecidableEq, Repr

/-- The kind of a towpath message, byte 0 of its payload (R330). R330 gives UNPAIR none (DESIGN CHOICE, log entry 176). -/
def TpMsg.kind : TpMsg → Nat
  | .usdo .. => 0x01 | .gateArrival .. => 0x02 | .startArrival .. => 0x02 | .gateRelease .. => 0x03 | .startRelease .. => 0x03
  | .ready .. => 0x04 | .commit .. => 0x04 | .abortRep .. => 0x05 | .abort .. => 0x05 | .norm .. => 0x06 | .apply .. => 0x06
  | .halt .. => 0x07 | .resume .. => 0x07 | .heartbeat => 0x08 | .suspect .. => 0x09 | .probe .. => 0x09 | .probeAnswer => 0x09
  | .edge .. => 0x0A | .unpair .. => 0x00

/-- The header of a lane-0 flit of TYPE 7 (R330, R332): the ports on which it goes, DST, SRC and MSGID. Without a DST it goes to
the card at the other end of each port. -/
structure Lane0 where
  ports : List Nat
  dst   : Option Nat
  src   : Nat
  msgid : Nat
  deriving DecidableEq, Repr

/-- One thing the card has put on one of its links, oldest first in `State.out`. -/
inductive Out where
  | usdo (a : Access) (body : Bytes)                -- a USDO response on the route it came by
  | usdoAbort (a : Access) (idx sub code : Nat)     -- an abort code (R51)
  | heartbeat (byte : Nat)                          -- CAN heartbeat or boot-up (R58)
  | nmtStop                                         -- CAN NMT broadcast of a halt (R335)
  | tpdo (n : Nat) (cob : Nat) (data : Bytes)
  | towpath (h : Lane0) (m : TpMsg)
  | twin (m : TwMsg)
  | flit (port : Nat) (bytes : Bytes)               -- the 256 bytes of a flit (R303)
  | hostWrite (addr : Nat) (data : Bytes) (relaxed : Bool) -- with its Relaxed Ordering attribute (R391)
  | msix (vector : Nat)
  | windowData (data : Bytes)
  | event (data : Bytes)                            -- the bytes an EVPOP read returns
  | flashWrite (what : Nat)                         -- 0 header, 1 repair map, 2 stored dictionary
  deriving DecidableEq, Repr

/-! ### The dictionary -/

/-- Application points (R37). -/
inductive Point where
  | now | idle | step | plan
  deriving DecidableEq, Repr

/-- An awaiting part of a committed generation (R47, R49). -/
structure Part where
  gen     : BitVec 32
  point   : Point
  target  : Option Nat
  entries : List EntryVal
  deriving DecidableEq, Repr

/-- An open USDO session (R55) on an entry or a whole object: of a write, the bytes that have come; of a read, those still to be
sent. -/
structure Session where
  path : Route
  sid  : Nat
  acc  : Access
  idx  : BitVec 16
  sub  : Option (BitVec 8)      -- none: the whole object
  data : Bytes
  read : Bool
  deriving DecidableEq, Repr

/-- The dictionary: values in force that differ from their defaults, the stored values of the flash, the staged
pending set and what awaits application (R34 to R50, R61 to R65). Values are keyed by index × 256 + sub-index. -/
structure DictSt where
  vals      : Sparse (Option Bytes) := []      -- rw and rwst values in force; none: the default
  stored    : Sparse (Option Bytes) := []      -- values in flash (R63)
  pset      : List EntryVal := []              -- pending set, in the order first written
  owner     : Option Source := none
  gen       : BitVec 32 := 1
  genForce  : BitVec 32 := 1
  awaiting  : List Part := []
  lastRes   : BitVec 32 := 0
  lastGen   : BitVec 32 := 0
  failing   : BitVec 32 := 0
  conflict  : BitVec 32 := 0
  discarded : Bool := false                    -- 0x2012:05 bit 8 of 0x2011:05
  sessions  : List Session := []
  storing   : List (Access × Sparse (Option Bytes)) := []  -- stores being written to flash, oldest first (R63)
  packWait  : List (BitVec 32 × Access) := []  -- commits answered only after PACK, by generation (R350)
  errReg    : BitVec 8 := 0                    -- 0x1001
  errField  : List (BitVec 32) := []           -- 0x1003, newest first
  deriving DecidableEq, Repr

/-! ### Units -/

/-- A weight tile as the array holds it: its format code (R194) and its bytes row by row of the tile. -/
structure Tile where
  fmt  : Nat
  data : Bytes
  deriving DecidableEq, Repr

/-- A matrix array: active and shadow weights; `fresh` while the shadow holds a tile no pass has taken (R74);
`port` names the weight port that a fresh tile is still to be taken from; `bcast` is a broadcast tile that no pass has
taken (R78), `later` whether the fresh tile was loaded before it (R79). -/
structure ArraySt where
  active : Option Tile := none
  shadow : Option Tile := none
  fresh  : Bool := false
  port   : Option Nat := none
  bcast  : Option Tile := none
  later  : Bool := false
  deriving DecidableEq, Repr

/-- A stream-fed or drain-fed port: its bytes in order and its end mark (R165); at the pan input port, the array whose drain
brought each stretch of them, and its length. -/
structure Port where
  data   : Bytes := []
  ended  : Bool := false
  owners : List (Nat × Nat) := []
  deriving DecidableEq, Repr

/-- An accumulator of the reduction unit (R142). -/
structure Acc where
  sum   : BitVec 320 := 0
  nan   : Bool := false
  pinf  : Bool := false
  ninf  : Bool := false
  count : BitVec 42 := 0
  neg0  : Bool := true
  deriving DecidableEq, Repr

/-- An extremum register (R144): `cleared` until the first operation after a clear, which makes it −∞ or +∞. -/
structure Ext where
  v        : W32 := 0
  x        : W32 := 0
  firstNan : Bool := false
  cleared  : Bool := false
  deriving DecidableEq, Repr

/-- What the slots of a bundle read and write together (R133, R187): vector registers (key register × 512 + lane),
mask registers (key k × 16384 + bit, default 1), lock bytes, accumulators and extremum registers. -/
structure Eng where
  v    : Sparse W32 := []
  k    : Sparse Bool := []
  lock : Sparse Byte := []
  acc  : Sparse Acc := []
  ext  : Sparse Ext := []
  deriving DecidableEq, Repr

/-- One burst held in a pool chamber, or still being claimed (R163). -/
structure PoolBurst where
  ctx     : Nat
  rows    : Nat
  ord     : Nat
  index   : Nat
  claimed : Nat
  done    : Bool
  data    : Bytes
  deriving DecidableEq, Repr

/-- The marks of a chamber (R161), the bytes filled so far, and the queues of rings and pools (R162, R163). -/
structure Chamber where
  full     : Bool := false
  isEnd    : Bool := false
  fault    : Bool := false
  len      : Nat := 0
  releases : Nat := 0
  filled   : Nat := 0
  rd       : Nat := 0            -- ring: rows read
  wr       : Nat := 0            -- ring: rows written
  part     : Nat := 0            -- ring: bytes in the row being filled
  endAt    : List Nat := []      -- ring: row counts at which end entries stand, oldest first
  bursts   : List PoolBurst := []
  deriving DecidableEq, Repr

/-- Stream context states (R166). -/
inductive CtxState where
  | idle | run | space | data | parked | fault
  deriving DecidableEq, Repr

/-- A burst in flight: its stream position and length in bytes, the index it stands for, whether its class took
credits and how many, the bytes that left the lock (write streams), the transaction tags of its remote requests, and
how often a late request was issued again. -/
structure Flight where
  pos     : Nat
  len     : Nat
  index   : Nat
  hole    : Bool
  credits : Nat
  data    : Bytes
  txns    : List Nat
  retries : Nat
  deriving DecidableEq, Repr

/-- A stream context (R166, R173, R180). -/
structure Ctx where
  st     : CtxState := .idle
  desc   : BitVec 512 := 0
  dnum   : Nat := 0
  pos    : Nat := 0               -- bytes (or indices × ROWLEN) moved so far in stream order
  idx    : Nat := 0               -- indices taken
  dmem   : Bool := false          -- which member of a destination pair is being filled
  smem   : Bool := false          -- which member of a source pair is being read
  srcPos : Nat := 0               -- bytes read of the source chamber
  iPos   : Nat := 0               -- bytes read of the index chamber
  iMem   : Bool := false          -- which member of an index pair is being read
  cur    : Option Nat := none     -- the index whose table row is being moved
  stop   : Bool := false
  ends   : List Nat := []         -- writers whose end header has been read from a pool source (R177)
  rowPart : Bytes := []           -- bytes of a batch row that has not come whole (R91)
  lastSent : Bool := false        -- multicast: the flit with LAST has been sent
  flight : Option Flight := none
  deriving DecidableEq, Repr

/-- A scalar core (R146 to R150): program counter, integer and floating-point registers, fcsr, private memories,
the LR/SC reservation, retired count, mailbox entries posted, and its two mailboxes. -/
structure CoreSt where
  pc      : W64 := 0
  entry   : W64 := 0
  x       : Sparse W64 := []
  f       : Sparse W64 := []
  fcsr    : BitVec 8 := 0
  imem    : Sparse Byte := []
  dmem    : Sparse Byte := []
  dinit   : Sparse Byte := []
  resv    : Option Nat := none
  retired : Nat := 0
  posted  : Nat := 0
  outbox  : List W64 := []
  inbox   : List W64 := []
  stopped : Bool := false
  csrs    : Sparse W64 := []        -- machine-mode CSRs of RV64 the spec does not redefine
  deriving DecidableEq, Repr

/-- One buffer of the batcher (R91): rows with their request tags, and whether it is closed. -/
structure BatchBuf where
  rows   : List (Bytes × BitVec 32) := []
  closed : Bool := false
  deriving DecidableEq, Repr

/-- Why a unit's next bundle is held (R202); `sync`: a GSYNC whose arrival is counted; `port`: data not ready at VP0, of which the
bundle takes so many bytes. -/
inductive Hold where
  | gate (g : Nat) | sync (g : Nat) | notReady | batch | port (bytes : Nat)
  deriving DecidableEq, Repr

/-- The result stream of the vector operation of the bundle being issued, for TAP (R145): per element its bits
as fp32 or INT32 and whether it takes part. -/
structure Tap where
  fmt    : Nat
  elems  : List (W32 × Bool)
  cycles : Nat
  deriving DecidableEq, Repr

/-- One physical unit. -/
structure UnitSt where
  prog     : Sparse (BitVec 256) := []
  recs     : Sparse (BitVec 512) := []
  gateTab  : Sparse (BitVec 128) := []
  descs    : Sparse (BitVec 512) := []
  chMap    : Sparse (BitVec 64) := []
  bundle   : Nat := 0
  slots    : List Instr := []       -- operations of the bundle at `bundle`, given and not yet issued (R186)
  branch   : Option Nat := none     -- branch target taken by the bundle's control operation
  ended    : Bool := false          -- STEPEND has completed
  stopped  : Bool := false          -- stopped by a fault or an abort
  hold     : Option Hold := none
  l        : Sparse W32 := []
  i        : Sparse W32 := []
  h        : Sparse W64 := []
  napArr   : Bool := false
  napVec   : Bool := false
  old      : Eng := {}              -- as of the start of the bundle (R133)
  cur      : Eng := {}
  arrays   : Sparse ArraySt := []
  pans     : Sparse W48 := []       -- key (array × 256 + row) × 64 + column
  marks    : Sparse Bool := []      -- produced markers, key array × 256 + row (R121)
  rowTags  : Sparse Nat := []       -- request tag + 1 of a pan row written from the batch chamber (R111)
  bscale   : Sparse Byte := []      -- the two broadcast scale entries, key slot × 512 + byte (R76)
  chs      : Sparse Chamber := []
  wptr     : Sparse Bool := []
  rptr     : Sparse Bool := []
  ctxs     : Sparse Ctx := []
  rdCred   : Nat := 0               -- credits taken, per class (R172)
  wrCred   : Nat := 0
  rmCred   : Nat := 0
  vp0      : Port := {}
  vp1      : Port := {}
  vp1New   : Nat := 0               -- bytes that the bundle being issued has brought to VP1, which its other slots do not see (R133)
  vout     : Port := {}
  dout     : Port := {}
  rowPort  : Sparse Port := []
  wtPort   : Sparse Port := []
  batch    : Sparse BatchBuf := []
  bopen    : Nat := 0
  vtag     : BitVec 16 := 0xFFFF
  rtag     : BitVec 16 := 0xFFFF
  fSat     : Bool := false
  fNonfin  : Bool := false
  fUnder   : Bool := false
  tap      : Option Tap := none
  cores    : Sparse CoreSt := []
  deriving DecidableEq, Repr

/-- The units of the card, the repair map and the conditions of 0x5000 and 0x5001 (R11 to R15, R31). -/
structure UnitsSt where
  phys    : Sparse UnitSt := []           -- by physical number
  map     : Sparse Nat := (List.range 72).map fun p => (p, if p % 9 = 8 then 0xFE else 8 * (p / 9) + p % 9)
                                          -- logical unit of physical unit P, by default as R12 assigns; unlisted: 0xFF, retired
  cond    : Sparse Nat := (List.range 8).map fun g => (9 * g + 8, 1)  -- condition of physical unit P; unlisted: 0
  owed    : List (Nat × Nat) := []        -- retirements that wait for a boundary: physical unit, condition
  slipRun : Sparse Nat := []              -- steps above threshold of unit P (0x5050)
  deriving DecidableEq, Repr

/-- One gate (R205, R206): phase, who has arrived in this phase, each member's own arrival count, and for a system gate
the cards whose arrivals have come and whether this card's arrival has been sent. -/
structure GateSt where
  phase   : Nat := 0
  arrived : BitVec 64 := 0
  counts  : Sparse Nat := []
  cards   : List Nat := []
  want    : Nat := 0         -- CARDS, as arrivals from other cards name it
  sent    : Bool := false
  deriving DecidableEq, Repr

/-! ### The plan in force -/

/-- A placement entry (R234). -/
structure PlaceEnt where
  first : Nat
  count : Nat
  home  : Nat
  tier  : Bool
  pin   : Bool
  keep  : Bool
  adopt : Bool
  snap  : Bool
  deriving DecidableEq, Repr

/-- A prefetch schedule entry (R238). -/
structure SchedEnt where
  kind   : Nat
  slot   : Nat
  span   : Nat
  first  : Nat
  count  : Nat
  vaddr  : Nat
  nexp   : Nat
  stride : Nat
  deriving DecidableEq, Repr

/-- A multicast tree record (R318). -/
structure TreeRec where
  tree   : Nat
  role   : Nat
  detach : Bool
  parent : Nat
  lunit  : Nat
  lch    : Nat
  child  : List Nat
  deriving DecidableEq, Repr

/-- A collective ring record (R319). -/
structure RingRec where
  ring   : Nat
  dim    : Nat
  member : List Nat
  deriving DecidableEq, Repr

/-- A layer entry (R266); fp32 fields as bits. -/
structure LayerEnt where
  firstt   : Nat
  nt       : Nat
  opt      : Nat
  lean     : Bool
  surgeAct : Bool
  msr      : Bool
  gate     : Nat
  lrmul    : W32
  b1       : W32
  b2       : W32
  eps      : W32
  wd       : W32
  clip     : W32
  surge    : W32
  bs       : W32
  warm     : Nat
  kinit    : Int
  deriving DecidableEq, Repr

/-- A tensor entry (R267). -/
structure TensorEnt where
  tag    : Nat
  fact   : Bool
  rows   : Nat
  cols   : Nat
  grad   : Nat
  master : Nat
  m      : Nat
  sm     : Nat
  work   : Nat
  deriving DecidableEq, Repr

/-- A layer table (R264 to R267). -/
structure LayerTab where
  mode      : Bool := false
  lossGate  : Nat := 0
  lossChk   : Bool := false
  lossAddr  : Nat := 0
  stepConst : Nat := 0
  lstate    : Nat := 0
  clipg     : W32 := 0
  points    : List (Nat × W32) := []
  layers    : List LayerEnt := []
  tensors   : List TensorEnt := []
  deriving DecidableEq, Repr

/-- A held-scale declaration (R214). -/
structure HeldDecl where
  tag    : Nat
  blocks : Nat
  table  : Nat
  init   : Nat
  adopt  : Bool
  deriving DecidableEq, Repr

/-- The twin map (R340). -/
structure TwinMap where
  partner : Nat := 0x7FFF
  custody : Bool := false
  pgBytes : Nat := 0
  mblock  : Nat := 0
  mscales : Nat := 0
  msBytes : Nat := 0
  custAddr : Nat := 0
  ringBytes : Nat := 0
  plMeas  : Nat := 0
  ptab    : LayerTab := {}
  deriving DecidableEq, Repr

/-- The card-wide contents of the active (or last active) plan (R211 to R215). -/
structure PlanSt where
  card     : Nat := 0
  cards    : Nat := 1
  sysid    : Nat := 0
  toolver  : Nat := 0
  meas     : Bytes := []
  ltMeas   : Nat := 0                 -- MEAS of this card's layer table section (R344)
  pondGiB  : Nat := 64
  lapool   : Nat := 0
  lateb    : Nat := 100
  place    : List PlaceEnt := []
  sps      : Nat := 0
  slotGate : Nat := 0
  lead0    : Nat := 0
  leadMin  : Nat := 0
  leadMax  : Nat := 0
  sched    : List SchedEnt := []
  redlo    : Nat := 0xFFFF
  redhi    : Nat := 0
  trees    : List TreeRec := []
  rings    : List RingRec := []
  lt       : LayerTab := {}
  tw       : TwinMap := {}
  held     : List HeldDecl := []
  tags     : List Nat := []
  split    : Nat := 0x0844
  fill     : Nat := 64
  bwait    : Nat := 20
  ringBase : Nat := 0
  ringSlot : Nat := 0
  ringSlots : Nat := 0
  ndescs   : Nat := 0
  deriving DecidableEq, Repr

/-- Plan areas and activation (R210, R216, R217). Area states: 0 EMPTY, 1 LOADED, 2 CHECKING, 3 ACTIVE. -/
structure PlanCtl where
  area0   : Nat := 0
  area1   : Nat := 0
  active  : Option Nat := none
  plan    : PlanSt := {}              -- of the active, or last active, plan
  result  : Nat := 0
  resArea : Nat := 0xFF
  resUnit : Nat := 0xFF
  resItem : Nat := 0
  resDet  : Nat := 0
  checking : Option Nat := none
  recruitAs : Option Nat := none      -- logical card given by RECRUIT (R361)
  deriving DecidableEq, Repr

/-! ### Memory -/

/-- A barge-table entry (R227). -/
structure BargeEnt where
  state  : Nat := 0          -- 0 UNBACKED, 1 BASIN, 2 RESERVOIR, 3 PROMOTING, 4 EVICTING, 5 PINNED
  tier   : Bool := false
  zero   : Bool := false
  dirty  : Bool := false
  keep   : Bool := false
  la     : Bool := false
  home   : Nat := 0
  snap   : Bool := false
  pend   : Bool := false
  users  : Nat := 0
  bframe : Nat := 0
  bfv    : Bool := false
  rframe : Nat := 0
  rfv    : Bool := false
  epoch  : Nat := 0xFFFFFFFF
  deriving DecidableEq, Repr

/-- A request to a barge's owner (R229). -/
structure MigReq where
  barge : Nat
  promote : Bool
  la    : Bool
  deriving DecidableEq, Repr

/-- A barge copy that runs (R229); `took`: this eviction took its reservoir frame (R231); `chunks` of 64 KiB have been
copied (R230). -/
structure MigCopy where
  barge : Nat
  took  : Bool
  region : Nat
  chunks : Nat := 0
  deriving DecidableEq, Repr

/-- A snapshot (R254): state 0 closed, 1 opening, 2 open, 3 broken; opener 1 host window, 2 harvest; `order` is
its age among the open ones; `read` the byte ranges a single-pass snapshot has returned. -/
structure Snap where
  state  : Nat := 0
  single : Bool := false
  opener : Nat := 0
  step   : Nat := 0
  order  : Nat := 0
  read   : List (Nat × Nat) := []
  deriving DecidableEq, Repr

/-- A copy-on-write page (R255): page number (device address / 64 KiB), its bytes, the snapshots that hold it, and its place
in the copy-on-write area, in pages. -/
structure CowPage where
  page : Nat
  held : List Nat
  data : Sparse Byte
  slot : Nat := 0
  bad  : List Nat := []      -- first bytes of the blocks that could not be copied
  deriving DecidableEq, Repr

/-- A registered use of a barge (R240). -/
structure Use where
  barge : Nat
  ends  : Nat
  deriving DecidableEq, Repr

/-- Device memory and what manages it. `cells` are the bytes of the frames: the key is frame address,
basin frame f byte o at f × 2^21 + o, reservoir frame f at 2^40 + f × 2^21 + o. -/
structure MemSt where
  cells    : List Host.Cell := []
  barges   : Sparse BargeEnt := []
  queue    : List MigReq := []       -- requests that the engines have queued, in order of arrival
  raised   : List MigReq := []       -- requests that wait where they were raised: the engine's queue is full (R229)
  copies   : List MigCopy := []
  rot      : Nat := 7                -- group of the last reservoir frame taken (R233)
  badBlk   : List Nat := []          -- frame addresses / 64 of uncorrectable blocks (R248)
  rowErr   : Sparse Nat := []        -- corrected errors per frame row in the scrub period (R251)
  retB     : List Nat := []
  retR     : List Nat := []
  group    : Sparse Nat := []        -- condition of reservoir group g (0x3014)
  stackBad : List Nat := []
  moveOff  : List Nat := []          -- barges to move off retired frames at the next boundary (R251)
  slot     : Nat := 0
  epoch    : Nat := 0
  issued   : List (Nat × Nat) := []  -- promote entries issued: entry, step served (R239)
  uses     : List Use := []
  lateEnt  : List Nat := []          -- promote entries of the running step found late (R242)
  lookLate : List Nat := []          -- lookahead entries whose next count vector stays late beyond the limit (R241)
  refresh  : BitVec 8 := 0           -- doubled stacks in force (R252)
  snaps    : Sparse Snap := []
  snapSeq  : Nat := 0
  cow      : List CowPage := []
  cowCap   : Nat := 0                -- bytes of the copy-on-write area (R253)
  retained : List (Nat × Sparse Byte) := []  -- retained inputs: step, slot bytes (R253)
  pend     : Sparse Byte := []       -- pending-gradient area (R253, R341)
  dmgStep  : Nat := 0                -- 0x3018
  dmgBarge : Nat := 0xFFFFFFFF
  dmgTier  : Nat := 0
  dmgAddr  : Nat := 0
  dmgCause : Nat := 0
  dmgRun   : List Nat := []          -- barges found damaged since the last commit or reopening (R359)
  memAwake : Bool := false           -- memory path of a sleeping card is awake (R423)
  deriving DecidableEq, Repr

/-! ### The ledger and the update engines -/

/-- Ledger states (R287). -/
inductive LState where
  | nojob | opened | updating | ready | aborting | restoring | lost
  deriving DecidableEq, Repr

/-- A step record (R290). -/
structure StepRec where
  step     : Nat := 0
  gen      : BitVec 32 := 1
  lead     : Nat := 0
  refresh  : BitVec 8 := 0
  clocks   : BitVec 12 := 0
  l        : Int := 0
  ring     : Nat := 0
  repair   : Nat := 0
  attempts : Nat := 0
  lr       : W32 := 0
  quiet    : Nat := 0
  lrun     : Nat := 0
  deriving DecidableEq, Repr

/-- A layer's progress in the running step: its check's results and its update's. -/
structure LayerRun where
  checking : Bool := false
  checked  : Bool := false
  started  : Bool := false
  done     : List (Nat × Nat) := []     -- pieces updated: tensor, piece
  updated  : Bool := false
  sumA     : Nat := 0                    -- A of R272
  n        : W32 := 0
  cs       : W32 := 0
  csUse    : W32 := 0                    -- the factor the update uses
  lim      : W32 := 0
  surged   : Bool := false
  clipped  : Bool := false
  amax     : W32 := 0                    -- lean: largest |mq| (R278)
  gacks    : Nat := 0
  gok      : Bool := false
  ds       : BitVec 128 := 0             -- state digest DS formed by the update (R355)
  lrec     : Bytes := []                 -- the layer state record as the update stage read it
  deriving DecidableEq, Repr

/-- The step ledger (R286 to R296) and the coordinator's part (R26 to R28, R282, R291). -/
structure LedgerSt where
  st        : LState := .nojob
  committed : Nat := 0
  running   : Nat := 0
  touched   : List Nat := []
  stopPend  : Bool := false
  waiting   : Bool := false              -- at a boundary, the next step not yet open (R30)
  waitSaid  : Nat := 0                   -- step number for which the wait for a batch was last reported (R30); 0 none
  engStop   : List Nat := []             -- engines that have stopped at a piece boundary since a halt or an abort (R285): the
                                         -- region engines 0 to 7 and the far engines 8 and 9
  reopen    : Bool := false              -- the boundary reopens the running step after an abort
  slotHeld  : Bool := false              -- the running step has taken its ring slot (R389)
  takeover  : Bool := false              -- a new coordinator asks every card for its committed step (R28)
  takeAns   : List (Nat × Nat) := []     -- and the answers so far: logical card, committed step
  early     : List (Nat × Nat × Nat × Nat × Nat × Bool) := []  -- at the coordinator: abort reports for the attempt after the
                                         -- one it runs: step, attempt, cause, card, layer, LOST (R27)
  startGate : Bool := false              -- waiting at the gate that opens a job's first step (R24)
  startArr  : List (Nat × Nat × Nat × Nat) := []  -- at the coordinator: arrivals there: card, SYSID, CARDS, committed step
  startSent : Bool := false              -- this card has arrived there
  abCause   : Nat := 0
  abStep    : Nat := 0
  abCard    : Nat := 0
  abLayer   : Nat := 0xFFFF
  abAction  : Nat := 0
  abJob     : Nat := 0
  consec    : Nat := 0
  run       : StepRec := {}              -- the running step's record; between steps the next step's decisions
  openRec   : StepRec := {}              -- `run` as it stood when the attempt opened (R350)
  last      : StepRec := { gen := 0 }   -- zeros: no step committed
  layers    : Sparse LayerRun := []
  stale     : List (Nat × Nat × Nat) := []
  refreshed : Bool := false
  normSent  : Bool := false
  applyCs   : Option W32 := none
  shadowOf  : Nat := 0                   -- latest step whose SDONE this card holds (R29)
  readies   : List (Nat × Nat × Nat) := []           -- card, step, attempt
  norms     : List (Nat × Nat × Int × Bool) := []    -- card, A, L, hold
  decided   : Option (Nat × Nat) := none  -- step, attempt for which the coordinator sent commit or abort
  decCommit : Bool := false                -- it was commit
  losts     : List Nat := []
  lossRead  : Bool := false
  solocs    : Bool := false
  order     : List Nat := []              -- layers in the order their update stages began (R371)
  chkOrder  : List Nat := []              -- layers in the order their checks completed (R281)
  commitsN  : Nat := 0
  deriving DecidableEq, Repr

/-! ### Fabric -/

/-- A port (R299 to R306): condition, peer, link sequence numbers, replay buffer and lane credits. -/
structure PortSt where
  cond    : Nat := 1
  peer    : Option (Nat × Nat) := none    -- peer card ID, peer port
  retrain : Bool := false
  rxSeq   : Nat := 4095                   -- last SEQ received in order
  nakSent : Bool := false
  txSeq   : Nat := 0                      -- SEQ of the next flit
  retries : Nat := 0                      -- consecutive retries without progress
  replay  : List (Nat × Nat × Bytes) := []  -- unacknowledged flits: SEQ, header, payload
  queue   : List (Nat × Bytes × Option Nat) := [] -- flits that wait: header, payload, and the port a transit flit came by
  turn    : Nat := 0                      -- the lanes' round robin of 13 turns (R306): the next turn
  used    : Sparse (List Nat) := []       -- by lane, the classes of flits whose credits have not come back, oldest first (R305)
  owe     : Sparse Nat := []              -- credits to return to the peer, by lane
  cable   : Bool := false
  deriving DecidableEq, Repr

/-- A remote request (R307): outstanding, or done and not yet taken by its context. -/
structure Remote where
  txn   : Nat
  unit  : Nat                             -- physical unit
  ctx   : Nat
  port  : Nat
  dst   : Nat
  write : Bool
  tree  : Option Nat := none              -- a multicast, or a replay read of a detached branch (R327)
  addr  : Nat := 0
  len   : Nat := 0
  got   : Bytes := []
  done  : Bool := false
  deriving DecidableEq, Repr

/-- The router's state of one multicast tree on this card (R325 to R327). -/
structure TreeRun where
  landed   : Nat := 0
  acked    : List Nat := []               -- children whose attached branch has landed its last byte
  detached : List Nat := []
  ended    : Bool := false
  own      : Bool := false                -- this card was detached and replays for its subtree
  root     : Nat := 0
  src      : Nat := 0
  len      : Nat := 0
  dst      : Nat := 0                     -- DADDR: where the stream lands
  txn      : Nat := 0                     -- the root's transaction tag
  unit     : Nat := 0                     -- UNIT of the root's stream: its route (R314)
  vl       : Nat := 2                     -- its lane (R309)
  up       : Option Nat := none           -- card that sends to this node
  held     : List (Nat × Nat × Bytes) := [] -- flits not yet accepted (R326): port, header, payload
  deriving DecidableEq, Repr

/-- A branch's detachment history (R328): run of steps detached, steps as standing. -/
structure Branch where
  tree  : Nat
  child : Nat
  run   : Nat
  held  : Nat                             -- 0: not standing; else steps as standing, plus 1
  deriving DecidableEq, Repr

/-- A gate message received while the card is halted (R336): an arrival with its sender, or a release. -/
inductive GateEv where
  | arrival (src : BitVec 14) (g : GateMsg)
  | release (g : GateMsg)
  deriving DecidableEq, Repr

/-- The fabric and the towpath lane (R299 to R338). -/
structure FabricSt where
  ports    : Sparse PortSt := []
  remotes  : List Remote := []
  nextTxn  : Nat := 0
  routeUp  : List Nat := []               -- ports in service when the attempt opened (R314)
  msgid    : Nat := 0
  seen     : List (Nat × Nat) := []       -- SRC and MSGID received since the last heartbeat timer (R332)
  seenOld  : List (Nat × Nat) := []       -- and in the period before
  trees    : Sparse TreeRun := []
  detRun   : List (Nat × Nat) := []       -- branches detached in the running step: tree, child (R328)
  detUp    : List Nat := []               -- trees on which this card was told to detach in the running step (R329)
  ups      : List Branch := []            -- the histories of the branches to this card (R328, R329)
  branches : List Branch := []
  slowHist : List Bool := []              -- last 64 committed steps: a branch to this card detached or standing
  slow     : Bool := false
  mapVer   : Nat := 0                     -- applied changes of 0x2810 or 0x2811
  haltSer  : Nat := 0
  haltOrg  : Nat := 0
  seenSer  : Nat := 0                     -- greatest serial seen
  acted    : List (Nat × Nat) := []       -- halts acted on: serial, origin (R335)
  recorded : List GateEv := []            -- gate messages that wait for the resume (R336)
  resSer   : Nat := 0                     -- latest resume acted on
  resOrg   : Nat := 0
  alive    : List Nat := []               -- ports whose heartbeat has arrived since the last suspicion check
  probing  : List Nat := []
  edges    : List (Nat × Nat × Nat) := [] -- tree edges that the cards at their other ends name: tree, parent, child (R321)
  badEdges : List (Nat × Nat × Nat) := [] -- edges that another card has denied
  badEdge  : Option Nat := none           -- lowest child of an edge that is not confirmed
  badWr    : List (Nat × Nat) := []       -- writes under way that have failed here: source card ID, tag
  declared : List Nat := []               -- card IDs declared failed and not yet in the failed-card set
  recState : Nat := 0                     -- 0x2C11
  recF     : Nat := 0xFFFF
  recSpare : Nat := 0xFFFF
  recCause : Nat := 0
  recStep  : Nat := 0
  recTime  : Nat := 0                     -- sampling periods at the declaration
  recTried : List Nat := []               -- spares asked already
  recTwins : List Nat := []               -- the partners that the cards name
  recAsk   : List (Nat × Nat) := []       -- requests of the recovery without an answer: card ID, what was asked
  recFs    : List Nat := []               -- logical cards being replaced
  recPairs : List (Nat × Nat) := []       -- and the spares recruited for them: logical card, card ID
  joining  : Bool := false                -- this card has been recruited and is being loaded (R361, R362)
  handover : Option Nat := none           -- planned handover requested (R366)
  handTold : Bool := false                -- and every card has been told of it
  recSince : Nat := 0                     -- sampling periods at the last RECRUIT
  deriving DecidableEq, Repr

/-! ### Twin and harvest -/

/-- Pair states (R343). -/
inductive PairState where
  | none | waiting | seeding | inStep | solo | mirrorService
  deriving DecidableEq, Repr

/-- What the twin holds of one partner layer in the running step (R349, R352). -/
structure MirrorRun where
  n      : W32 := 0
  cs     : W32 := 0
  dg     : BitVec 128 := 0
  ds     : BitVec 128 := 0
  gended : Bool := false
  done   : Bool := false
  dc     : BitVec 128 := 0
  rounds : Nat := 0
  pulls  : Nat := 0
  fix    : Nat := 0        -- the step of R356 that last repaired something
  bad    : Bool := false   -- being resolved
  overw  : Bool := false   -- overwritten from the primary by R352
  refetch : Bool := false  -- its held gradient is fetched again by R352
  fetched : Bool := false  -- and has been
  esc    : Bool := false   -- escalated by step 6 of R356
  deriving DecidableEq, Repr

/-- The pair, the shadow update, restores and harvests (R340 to R376). -/
structure TwinSt where
  pair      : PairState := .none
  cause     : Nat := 0
  pcard     : Nat := 0xFFFF
  link      : Nat := 0
  sideband  : Bool := false
  sawPair   : Bool := false                -- partner's PAIR accepted
  pAccepts  : Bool := false                -- the partner has accepted this card's PAIR
  pLedger   : Fin 3 := 0                   -- the partner's ledger: NOJOB (1), between an abort and its reopening (2)
  pairSent  : Bool := false
  sentOk    : Bool := false
  gotOk     : Bool := false
  seeded    : Bool := false                -- the partner's seed has begun to come
  mirror    : Nat := 0
  custody   : Nat := 0
  seedTries : Sparse Nat := []
  seedLeft  : List Nat := []               -- mirrored layers (0xFFFF the boundary) that do not yet agree with the SEEDEND
  seedRefs  : Sparse (BitVec 128) := []    -- the digests of that SEEDEND
  seedStep  : Nat := 0                     -- and its committed step
  pbranches : List Branch := []            -- the partner's detachment history
  pgen      : BitVec 32 := 1               -- the partner's generation in force
  digFix    : Sparse Nat := []             -- as primary: the step of R356 that last repaired a layer
  hbSeen    : Bool := false                -- an HB has arrived since the last look
  refs      : Sparse (BitVec 128) := []    -- reference digests of own layers
  mrefs     : Sparse (BitVec 128) := []    -- reference digests of mirrored layers
  mruns     : Sparse MirrorRun := []
  meas      : Option MeasBlock := none     -- STEPM of the partner
  measStep  : Nat := 0
  inputStep : Nat := 0
  shadowN   : Nat := 0                     -- step whose shadow update runs; 0 none
  applyCs   : Option W32 := none
  sacked    : Nat := 0                     -- latest step for which SACK is held
  stepmSent : Bool := false
  compare   : Bool := false                -- a full-state comparison runs (R357)
  cmpLeft   : List Nat := []
  restore   : List Nat := []               -- layers still to be restored
  pullTry   : Sparse Nat := []
  loading   : Option Nat := none           -- this card loads a spare for its partner: the spare's card ID (R362)
  suspects  : Bool := false                -- suspect flag of the TWIN LED (R356)
  resStep   : Nat := 0                     -- 0x2A05
  resLayer  : Nat := 0xFFFF
  resOut    : Nat := 0
  resRole   : Nat := 0
  dmgLayers : List Nat := []               -- mirror layers marked damaged (R359)
  shadowB   : Nat := 0
  shadowT   : Option Nat := none           -- the draw that stands for the time of the last completed shadow update (0x2A04:02)
  psettings : List EntryVal := []          -- mirrored settings block (R341)
  shadowSet : List EntryVal := []          -- the mirrored settings of the step whose shadow update runs (R352)
  pparts    : List Part := []              -- partner's awaiting step parts (R350)
  precord   : StepRec := {}                -- mirrored decision record
  plast     : StepRec := {}
  deriving DecidableEq, Repr

/-- A write of another card's harvest that arrives at this gateway: its source card ID and tag, its offset in the image, and the
bytes so far. -/
structure GwIn where
  src  : Nat
  txn  : Nat
  off  : Nat
  data : Bytes
  deriving DecidableEq, Repr

/-- Harvest (R370 to R375). -/
structure HarvestSt where
  state   : Nat := 0
  step    : Nat := 0
  written : Nat := 0
  bytes   : Nat := 0
  cause   : Nat := 0
  lastOk  : Nat := 0
  snap    : Option Nat := none
  load    : Nat := 0
  loaded  : Nat := 0
  order   : List Nat := []               -- layers in the order in which their update stages began in the last committed step
  left    : List Nat := []               -- sections not yet read from the snapshot, in reading order
  head    : Bytes := []                  -- the header to write last, and the directory
  block   : Bytes := []                  -- boundary block of step T
  holdT   : Option Nat := none           -- the draw that stands for the time for which it held the next step (0x2A12:07)
  gwIn    : List GwIn := []              -- as a gateway: sections of other cards' harvests that are arriving (R373, R396)
  gwDirs  : Sparse (List Nat) := []      -- and the section offsets that their directories name, by card ID
  deriving DecidableEq, Repr

/-! ### Host link -/

/-- A command of the queue that has started (R386). -/
structure Cmd where
  count  : Nat
  op     : Nat
  flag   : Bool
  intr   : Bool
  tag    : Nat
  status : Nat
  faddr  : Nat
  haddr  : Nat
  daddr  : Nat
  len    : Nat
  deriving DecidableEq, Repr

/-- A host write that waits for or has taken a sequence number (R396). -/
structure HostWr where
  kind : Nat
  addr : Nat
  data : Bytes
  ref  : Nat
  vec  : Option Nat := none
  mine : Bool := false     -- a part of this card's own harvest
  deriving DecidableEq, Repr

/-- An entry of the outbound ledger (R396). -/
structure OlEnt where
  seq  : Nat
  addr : Nat
  len  : Nat
  kind : Nat
  ref  : Nat
  deriving DecidableEq, Repr

/-- An event entry (R398). -/
structure Event where
  typ    : Nat
  sev    : Nat
  source : Nat
  eseq   : Nat
  step   : Nat
  detail : Nat
  deriving DecidableEq, Repr

/-- The host-interface domain (R379 to R403). -/
structure HostSt where
  up        : Bool := false           -- the PCIe link is up
  d3        : Bool := false
  cfg       : PciCtl := {}            -- what the host has set in configuration space (R379, R391, R403)
  resets    : Nat := 0
  cause     : Nat := 0
  speed     : Nat := 0
  width     : Nat := 0
  flitMode  : Bool := false
  mbxreq    : Bytes := []
  mbxrsp    : Bytes := []
  busy      : Bool := false
  respRdy   : Bool := false
  overrun   : Bool := false
  respLen   : Nat := 0
  respCard  : Nat := 0
  fwd       : Option Nat := none      -- a forwarded request outstanding: destination
  winbase   : Nat := 0
  winmode   : Bool := false
  winst     : Nat := 0
  winref    : Nat := 0                -- last refused write
  winsnap   : Option Nat := none
  winstep   : Nat := 0
  winerr    : Nat := 0
  cqbase    : Nat := 0
  cqsize    : Nat := 64
  cqtail    : Nat := 0
  cqdone    : Nat := 0
  cqnext    : Nat := 0                -- count of the next command to start
  cmds      : List Cmd := []
  ringput   : Nat := 0
  ringtake  : Nat := 0
  ringget   : Nat := 0
  ringflag  : Nat := 0
  commitflag : Nat := 0
  hostseq   : Nat := 0
  olseq     : Nat := 0
  ol        : Sparse (Option OlEnt) := []
  waitWr    : List HostWr := []
  events    : List Event := []
  lost      : Nat := 0                -- events dropped since the last gap marker
  evlevel   : Nat := 0
  msixTab   : Sparse Byte := []         -- held with each entry's mask bit inverted
  pba       : Nat := 0                  -- pending bits
  down      : Bool := true            -- the domain is in reset
  lostRst   : Nat := 0                -- events dropped while in reset
  deriving DecidableEq, Repr

/-! ### Keeper, boot, card -/

/-- Device states (0x2000:01, R297). -/
inductive Dev where
  | boot | asleep | idle | planLoaded | running | halted
  deriving DecidableEq, Repr

/-- Keeper, clocks, temperatures and power (R405 to R427). -/
structure KeeperSt where
  dev      : Dev := .boot
  sleptFrom : Dev := .idle
  v48      : Bool := false
  vaux     : Bool := false
  present  : Bool := false
  volts    : Nat := 0
  watts    : Nat := 0
  tripped  : Bool := false
  samples  : Nat := 0                  -- sampling periods since boot (R415)
  logicNow : List Nat := []            -- latest samples
  stackNow : List Nat := []
  logicMax : Sparse Nat := []          -- highest sample of logic sensor n over the running step, plus 1
  stackMax : Sparse Nat := []          -- highest sample of stack s over the running step, plus 1
  iodie    : Nat := 0
  mr4      : List Nat := []            -- MR4 readout of each LPDDR5X package (R250, R415)
  inlet    : Nat := 0
  outlet   : Nat := 0
  regs     : Nat := 0
  codes    : List Nat := [0, 0, 0, 0]  -- clock codes decided (R416)
  inForce  : List Nat := [0, 0, 0, 0]
  forced   : List Nat := []            -- dies force-dropped
  logicRd  : List Nat := [0, 0, 0, 0]  -- logic readings of the last committed step
  coolSaid : Nat := 0                  -- sample count at the last coolant event
  identEnd : Nat := 0                  -- sampling periods at which identify ends; 0 off
  tpdoSent : Sparse Nat := []          -- sample count at which TPDO n was last sent, plus 1
  peakW    : Nat := 0
  mirror   : Bool := false             -- in MIRROR SERVICE or its stopped form (R360)
  deriving DecidableEq, Repr

/-- A separately switched power domain (R17). -/
inductive Domain where
  | array (p : Fin 72) | vector (p : Fin 72) | lock (p : Fin 72)
  | clusterSwitch (c : Fin 16)
  | engine (r : Fin 8) | basin (r : Fin 8)
  | die (d : Fin 4)
  | pcie | port (k : Fin 20) | group (g : Fin 8) | farEngine (e : Fin 2) | security | hostDma
  deriving DecidableEq, Repr

/-- A clock of the card (R408). -/
inductive Clock where
  | crystal | keeper | pcieRef | pcieCore | fabricRef | ioCore
  | port (k : Fin 20) | die (d : Fin 4) | stack (k : Fin 8) | group (g : Fin 8)
  deriving DecidableEq, Repr

/-- A firmware slot (R439): 0 EMPTY, 1 WRITING, 2 STAGED, 3 TRIAL, 4 CONFIRMED, 5 FAILED. -/
structure SlotSt where
  state : Nat := 0
  image : Bytes := []
  deriving DecidableEq, Repr

/-- A repair-map record (R442). -/
structure Repair where
  typ   : Nat
  cause : Nat
  pos   : Nat
  step  : Nat
  deriving DecidableEq, Repr

/-- One copy of the flash header (R435). GEN 0: never written. -/
structure HeadCopy where
  gen      : Nat := 0
  stA      : Nat := 4
  stB      : Nat := 0
  next     : Bool := false
  autoconf : Bool := true
  retest   : Bool := false
  boots    : Nat := 0
  deriving DecidableEq, Repr

/-- One copy of the repair map (R442). -/
structure MapCopy where
  gen  : Nat := 0
  recs : List Repair := []
  deriving DecidableEq, Repr

/-- One copy of the stored dictionary (R38). -/
structure DictCopy where
  gen  : Nat := 0
  vals : Sparse (Option Bytes) := []
  deriving DecidableEq, Repr

/-- What stands in flash in two copies each, copy 0 and copy 1 (R433, R434). -/
structure FlashSt where
  heads : HeadCopy × HeadCopy := ({ gen := 1 }, {})
  maps  : MapCopy × MapCopy := ({}, {})
  dicts : DictCopy × DictCopy := ({}, {})
  deriving DecidableEq, Repr

/-- A log record (R444). -/
structure LogRec where
  boots : Nat
  ms    : Nat
  seq   : Nat
  ev    : Event
  deriving DecidableEq, Repr

/-- Boot, flash, fuses and trust (R428 to R449). -/
structure BootSt where
  phases   : List Nat := []            -- phases complete in this boot
  booting  : Bool := false
  fw       : Bool := false             -- the keeper firmware runs and serves CAN (R58)
  recovery : Bool := false
  bootMs   : Nat := 0
  fallbacks : Nat := 0
  slotRun  : Option Nat := none
  slotA    : SlotSt := { state := 4 }
  slotB    : SlotSt := {}
  next     : Bool := false
  autoconf : Bool := true
  retest   : Bool := false
  boots    : Nat := 0
  trips    : Nat := 0                  -- thermal trips since the flash log began (0x2110:04)
  headGen  : Nat := 1
  flash    : FlashSt := {}
  svn      : Nat := 0
  revoke   : BitVec 32 := 0
  repair   : List Repair := []
  repGen   : Nat := 0
  stage    : Nat := 0                  -- 0x2210:02
  staging  : Option Nat := none           -- the slot being written
  log      : List LogRec := []
  logSeq   : Nat := 0
  pendMap  : Bool := false
  fwMeas   : Bytes := []
  fwVer    : Nat := 0
  deriving DecidableEq, Repr

/-- Statistics, all keyed by index × 256 + sub-index; tallies keyed by tag × 4 + kind (0 saturated, 1 non-finite,
2 underflow) (R41, R120). -/
structure StatSt where
  boot    : Sparse Nat := []           -- counts since boot
  run     : Sparse Nat := []           -- of the running step
  latch   : Sparse Nat := []           -- of the last committed step
  job     : Sparse Nat := []           -- over the job's committed steps
  tRun    : Sparse Nat := []
  tLatch  : Sparse Nat := []
  tJob    : Sparse Nat := []
  tTags   : Option (List Nat) := none  -- the tags that 0x3C22 lists, of the last committed step
  strict  : Option Nat := none         -- the draw that stands for 0x3C38:02 of the last committed step
  eseq    : Nat := 0                   -- events raised since boot
  faultStep : Nat := 0                 -- 0x3892
  faultUnit : Nat := 0xFF
  faultAddr : Nat := 0
  faultCause : Nat := 0
  sfStep  : Nat := 0                   -- 0x3418
  sfUnit  : Nat := 0xFF
  sfCtx   : Nat := 0
  sfDesc  : Nat := 0
  sfTag   : Nat := 0
  sfCause : Nat := 0
  sfAddr  : Nat := 0
  deriving DecidableEq, Repr

/-- The whole card, and the commands that wait, first in, first out. -/
structure State where
  pending : List Instr := []
  out     : List Out := []
  strap   : Strap := {}
  dict    : DictSt := {}
  stat    : StatSt := {}
  units   : UnitsSt := {}
  gates   : Sparse GateSt := []
  plan    : PlanCtl := {}
  mem     : MemSt := {}
  led     : LedgerSt := {}
  fab     : FabricSt := {}
  twin    : TwinSt := {}
  harv    : HarvestSt := {}
  host    : HostSt := {}
  keep    : KeeperSt := {}
  boot    : BootSt := {}
  free    : Nat := 0                   -- the model's own: how many free values have been drawn
  deriving DecidableEq, Repr

/-- The card before it is powered: device state boot, no supply, every register at its default. -/
def State.reset : State := {}

end Sys2Proof.Machine
end

