-- ==== Sys2Proof/Machine/DictTable.lean ====
section
/-! DEFINITION. The entries of the object dictionary (R32 to R37) as the chapters' tables give them: index, sub-index
range, type, access, persistence, application point, whether mappable to a TPDO (R62), and a fixed default.
A default that depends on the card or the variant is given in `Dict.lean`. -/

namespace Sys2Proof.Machine

/-- CiA data types (R34); `u n`: unsigned of n bytes; `oct n`: OCTET_STRING of fixed length n. -/
inductive Ty where
  | bool | i8 | u (n : Nat) | r32 | vis | oct (n : Nat) | dom
  deriving DecidableEq, Repr

/-- Access codes (R35). -/
inductive Acs where
  | const | ro | wo | rw | rwst
  deriving DecidableEq, Repr

/-- One row of an object table: sub-indices `lo` to `hi` of one index. -/
structure ObjDef where
  idx   : Nat
  lo    : Nat
  hi    : Nat
  ty    : Ty
  acc   : Acs
  pers  : Bool
  point : Point
  map   : Bool
  dflt  : Nat
  deriving DecidableEq, Repr

def objsSixlevels : List ObjDef := [
  ⟨0x5000, 0, 0, .u 1, .const, false, .now, false, 72⟩,
  ⟨0x5000, 1, 72, .u 1, .ro, false, .step, false, 0⟩,
  ⟨0x5001, 0, 0, .u 1, .const, false, .now, false, 72⟩,
  ⟨0x5001, 1, 72, .u 1, .ro, false, .step, false, 0⟩]

def objsDictionaryA : List ObjDef := [
  ⟨0x1000, 0, 0, .u 4, .const, false, .now, false, 0x20000⟩,
  ⟨0x1001, 0, 0, .u 1, .ro, false, .now, false, 0⟩,
  ⟨0x1003, 0, 0, .u 1, .rw, false, .now, false, 0⟩,
  ⟨0x1003, 1, 16, .u 4, .ro, false, .now, false, 0⟩,
  ⟨0x1008, 0, 0, .vis, .const, false, .now, false, 0⟩,
  ⟨0x1009, 0, 0, .vis, .const, false, .now, false, 0⟩,
  ⟨0x100A, 0, 0, .vis, .ro, false, .now, false, 0⟩,
  ⟨0x1010, 0, 0, .u 1, .const, false, .now, false, 3⟩,
  ⟨0x1010, 1, 3, .u 4, .rw, false, .now, false, 1⟩,
  ⟨0x1011, 0, 0, .u 1, .const, false, .now, false, 3⟩,
  ⟨0x1011, 1, 3, .u 4, .rw, false, .now, false, 1⟩,
  ⟨0x1017, 0, 0, .u 2, .rw, true, .now, false, 1000⟩,
  ⟨0x1018, 0, 0, .u 1, .const, false, .now, false, 4⟩,
  ⟨0x1018, 1, 1, .u 4, .const, false, .now, false, 2715⟩,
  ⟨0x1018, 2, 2, .u 4, .const, false, .now, false, 0⟩,
  ⟨0x1018, 3, 3, .u 4, .const, false, .now, false, 0⟩,
  ⟨0x1018, 4, 4, .u 4, .const, false, .now, false, 0⟩,
  ⟨0x1800, 1, 1, .u 4, .rwst, true, .now, false, 0⟩,
  ⟨0x1800, 2, 2, .u 1, .rwst, true, .now, false, 254⟩,
  ⟨0x1800, 3, 3, .u 2, .rwst, true, .now, false, 0⟩,
  ⟨0x1800, 5, 5, .u 2, .rwst, true, .now, false, 0⟩,
  ⟨0x1801, 1, 1, .u 4, .rwst, true, .now, false, 0⟩,
  ⟨0x1801, 2, 2, .u 1, .rwst, true, .now, false, 254⟩,
  ⟨0x1801, 3, 3, .u 2, .rwst, true, .now, false, 0⟩,
  ⟨0x1801, 5, 5, .u 2, .rwst, true, .now, false, 0⟩,
  ⟨0x1802, 1, 1, .u 4, .rwst, true, .now, false, 0⟩,
  ⟨0x1802, 2, 2, .u 1, .rwst, true, .now, false, 254⟩,
  ⟨0x1802, 3, 3, .u 2, .rwst, true, .now, false, 0⟩,
  ⟨0x1802, 5, 5, .u 2, .rwst, true, .now, false, 0⟩,
  ⟨0x1803, 1, 1, .u 4, .rwst, true, .now, false, 0⟩,
  ⟨0x1803, 2, 2, .u 1, .rwst, true, .now, false, 254⟩,
  ⟨0x1803, 3, 3, .u 2, .rwst, true, .now, false, 0⟩,
  ⟨0x1803, 5, 5, .u 2, .rwst, true, .now, false, 0⟩,
  ⟨0x1804, 1, 1, .u 4, .rwst, true, .now, false, 0⟩,
  ⟨0x1804, 2, 2, .u 1, .rwst, true, .now, false, 254⟩,
  ⟨0x1804, 3, 3, .u 2, .rwst, true, .now, false, 0⟩,
  ⟨0x1804, 5, 5, .u 2, .rwst, true, .now, false, 0⟩,
  ⟨0x1805, 1, 1, .u 4, .rwst, true, .now, false, 0⟩,
  ⟨0x1805, 2, 2, .u 1, .rwst, true, .now, false, 254⟩,
  ⟨0x1805, 3, 3, .u 2, .rwst, true, .now, false, 0⟩]

def objsDictionaryB : List ObjDef := [
  ⟨0x1805, 5, 5, .u 2, .rwst, true, .now, false, 0⟩,
  ⟨0x1806, 1, 1, .u 4, .rwst, true, .now, false, 0⟩,
  ⟨0x1806, 2, 2, .u 1, .rwst, true, .now, false, 254⟩,
  ⟨0x1806, 3, 3, .u 2, .rwst, true, .now, false, 0⟩,
  ⟨0x1806, 5, 5, .u 2, .rwst, true, .now, false, 0⟩,
  ⟨0x1807, 1, 1, .u 4, .rwst, true, .now, false, 0⟩,
  ⟨0x1807, 2, 2, .u 1, .rwst, true, .now, false, 254⟩,
  ⟨0x1807, 3, 3, .u 2, .rwst, true, .now, false, 0⟩,
  ⟨0x1807, 5, 5, .u 2, .rwst, true, .now, false, 0⟩,
  ⟨0x1A00, 0, 0, .u 1, .rwst, true, .now, false, 0⟩,
  ⟨0x1A00, 1, 16, .u 4, .rwst, true, .now, false, 0⟩,
  ⟨0x1A01, 0, 0, .u 1, .rwst, true, .now, false, 0⟩,
  ⟨0x1A01, 1, 16, .u 4, .rwst, true, .now, false, 0⟩,
  ⟨0x1A02, 0, 0, .u 1, .rwst, true, .now, false, 0⟩,
  ⟨0x1A02, 1, 16, .u 4, .rwst, true, .now, false, 0⟩,
  ⟨0x1A03, 0, 0, .u 1, .rwst, true, .now, false, 0⟩,
  ⟨0x1A03, 1, 16, .u 4, .rwst, true, .now, false, 0⟩,
  ⟨0x1A04, 0, 0, .u 1, .rwst, true, .now, false, 0⟩,
  ⟨0x1A04, 1, 16, .u 4, .rwst, true, .now, false, 0⟩,
  ⟨0x1A05, 0, 0, .u 1, .rwst, true, .now, false, 0⟩,
  ⟨0x1A05, 1, 16, .u 4, .rwst, true, .now, false, 0⟩,
  ⟨0x1A06, 0, 0, .u 1, .rwst, true, .now, false, 0⟩,
  ⟨0x1A06, 1, 16, .u 4, .rwst, true, .now, false, 0⟩,
  ⟨0x1A07, 0, 0, .u 1, .rwst, true, .now, false, 0⟩,
  ⟨0x1A07, 1, 16, .u 4, .rwst, true, .now, false, 0⟩,
  ⟨0x2010, 0, 0, .u 1, .const, false, .now, false, 2⟩,
  ⟨0x2010, 1, 1, .u 4, .wo, false, .now, false, 0⟩,
  ⟨0x2010, 2, 2, .oct 12, .wo, false, .now, false, 0⟩,
  ⟨0x2011, 0, 0, .u 1, .const, false, .now, false, 6⟩,
  ⟨0x2011, 1, 1, .u 4, .ro, false, .now, false, 0⟩,
  ⟨0x2011, 2, 2, .u 4, .ro, false, .now, false, 0⟩,
  ⟨0x2011, 3, 3, .u 4, .ro, false, .now, false, 0⟩,
  ⟨0x2011, 4, 4, .u 4, .ro, false, .now, false, 0⟩,
  ⟨0x2011, 5, 5, .u 4, .ro, false, .now, false, 0⟩,
  ⟨0x2011, 6, 6, .u 8, .ro, false, .now, false, 0⟩,
  ⟨0x2012, 0, 0, .u 1, .const, false, .now, false, 7⟩,
  ⟨0x2012, 1, 1, .u 4, .ro, false, .now, false, 1⟩,
  ⟨0x2012, 2, 2, .u 2, .ro, false, .now, false, 0⟩,
  ⟨0x2012, 3, 3, .dom, .ro, false, .now, false, 0⟩,
  ⟨0x2012, 4, 4, .u 4, .wo, false, .now, false, 0⟩]

def objsDictionaryC : List ObjDef := [
  ⟨0x2012, 5, 5, .u 1, .ro, false, .now, false, 0⟩,
  ⟨0x2012, 6, 6, .u 4, .ro, false, .now, false, 0⟩,
  ⟨0x2012, 7, 7, .u 4, .ro, false, .now, false, 1⟩,
  ⟨0x2020, 1, 1, .u 1, .rwst, true, .now, false, 127⟩,
  ⟨0x2021, 1, 1, .u 2, .rwst, true, .now, false, 500⟩,
  ⟨0x2021, 2, 2, .u 2, .rwst, true, .now, false, 5000⟩,
  ⟨0x2022, 1, 1, .bool, .rwst, true, .now, false, 1⟩,
  ⟨0x2022, 2, 2, .bool, .rwst, true, .now, false, 1⟩,
  ⟨0x2022, 3, 3, .bool, .rwst, true, .now, false, 1⟩,
  ⟨0x2026, 1, 1, .u 2, .rw, true, .now, false, 1000⟩,
  ⟨0x2027, 1, 1, .u 4, .rw, true, .now, false, 10000⟩,
  ⟨0x2028, 0, 0, .u 1, .const, false, .now, false, 6⟩,
  ⟨0x2028, 1, 3, .u 4, .ro, false, .now, false, 0⟩,
  ⟨0x2028, 4, 6, .u 4, .ro, false, .now, false, 0⟩]

def objsArrays : List ObjDef := [
  ⟨0x3800, 0, 0, .u 1, .const, false, .now, false, 5⟩,
  ⟨0x3800, 1, 1, .u 1, .const, false, .now, false, 0⟩,
  ⟨0x3800, 2, 2, .u 1, .const, false, .now, false, 64⟩,
  ⟨0x3800, 3, 3, .u 2, .const, false, .now, false, 256⟩,
  ⟨0x3800, 4, 4, .u 1, .const, false, .now, false, 70⟩,
  ⟨0x3800, 5, 5, .u 1, .const, false, .now, false, 2⟩,
  ⟨0x3808, 0, 0, .u 1, .const, false, .now, false, 2⟩,
  ⟨0x3808, 1, 1, .u 2, .rwst, false, .step, false, 0⟩,
  ⟨0x3808, 2, 2, .u 1, .rwst, false, .step, false, 0⟩,
  ⟨0x3810, 0, 0, .u 1, .const, false, .now, false, 8⟩,
  ⟨0x3810, 1, 1, .u 8, .ro, false, .step, true, 0⟩,
  ⟨0x3810, 2, 2, .u 8, .ro, false, .step, true, 0⟩,
  ⟨0x3810, 3, 3, .u 8, .ro, false, .step, true, 0⟩,
  ⟨0x3810, 4, 4, .u 8, .ro, false, .step, true, 0⟩,
  ⟨0x3810, 5, 5, .u 8, .ro, false, .step, true, 0⟩,
  ⟨0x3810, 6, 6, .u 8, .ro, false, .step, true, 0⟩,
  ⟨0x3810, 7, 7, .u 8, .ro, false, .step, true, 0⟩,
  ⟨0x3810, 8, 8, .u 8, .ro, false, .step, true, 0⟩,
  ⟨0x3811, 0, 0, .u 1, .const, false, .now, false, 1⟩,
  ⟨0x3811, 1, 1, .u 2, .ro, false, .step, true, 0⟩,
  ⟨0x5010, 0, 0, .u 1, .const, false, .now, false, 72⟩,
  ⟨0x5010, 1, 72, .u 4, .ro, false, .step, true, 0⟩,
  ⟨0x5011, 0, 0, .u 1, .const, false, .now, false, 72⟩,
  ⟨0x5011, 1, 72, .u 4, .ro, false, .step, true, 0⟩,
  ⟨0x5012, 0, 0, .u 1, .const, false, .now, false, 72⟩,
  ⟨0x5012, 1, 72, .u 4, .ro, false, .now, false, 0⟩]

def objsNumbers : List ObjDef := [
  ⟨0x3C00, 0, 0, .u 1, .const, false, .now, false, 4⟩,
  ⟨0x3C00, 1, 1, .u 1, .const, false, .now, false, 37⟩,
  ⟨0x3C00, 2, 2, .u 1, .const, false, .now, false, 40⟩,
  ⟨0x3C00, 3, 3, .u 1, .const, false, .now, false, 25⟩,
  ⟨0x3C00, 4, 4, .u 1, .const, false, .now, false, 32⟩,
  ⟨0x3C10, 0, 0, .u 1, .const, false, .now, false, 1⟩,
  ⟨0x3C10, 1, 1, .u 8, .rwst, false, .step, false, 0⟩,
  ⟨0x3C11, 0, 0, .u 1, .const, false, .now, false, 5⟩,
  ⟨0x3C11, 1, 1, .u 8, .rw, false, .now, false, 0⟩,
  ⟨0x3C11, 2, 2, .u 8, .rw, false, .now, false, 0⟩,
  ⟨0x3C11, 3, 3, .u 2, .rw, false, .now, false, 0⟩,
  ⟨0x3C11, 4, 4, .u 8, .rw, false, .now, false, 0⟩,
  ⟨0x3C11, 5, 5, .u 8, .ro, false, .now, false, 0⟩,
  ⟨0x3C12, 0, 0, .u 1, .const, false, .now, false, 1⟩,
  ⟨0x3C12, 1, 1, .u 1, .rwst, false, .step, false, 0⟩,
  ⟨0x3C20, 0, 0, .u 1, .const, false, .now, false, 6⟩,
  ⟨0x3C20, 1, 1, .u 8, .ro, false, .step, true, 0⟩,
  ⟨0x3C20, 2, 2, .u 8, .ro, false, .step, true, 0⟩,
  ⟨0x3C20, 3, 3, .u 8, .ro, false, .step, true, 0⟩,
  ⟨0x3C20, 4, 6, .u 8, .ro, false, .step, false, 0⟩,
  ⟨0x3C21, 0, 0, .u 1, .const, false, .now, false, 7⟩,
  ⟨0x3C21, 1, 1, .u 2, .rw, false, .now, false, 65535⟩,
  ⟨0x3C21, 2, 4, .u 8, .ro, false, .step, true, 0⟩,
  ⟨0x3C21, 5, 7, .u 8, .ro, false, .step, false, 0⟩,
  ⟨0x3C22, 0, 0, .dom, .ro, false, .step, false, 0⟩,
  ⟨0x3C23, 0, 0, .u 2, .ro, false, .plan, false, 0⟩,
  ⟨0x3C28, 0, 0, .u 1, .const, false, .now, false, 1⟩,
  ⟨0x3C28, 1, 1, .u 8, .rwst, true, .step, false, 0⟩,
  ⟨0x3C30, 0, 0, .u 1, .const, false, .now, false, 3⟩,
  ⟨0x3C30, 1, 1, .u 2, .ro, false, .plan, false, 0⟩,
  ⟨0x3C30, 2, 2, .u 8, .ro, false, .step, true, 0⟩,
  ⟨0x3C30, 3, 3, .u 8, .ro, false, .step, true, 0⟩,
  ⟨0x3C38, 0, 0, .u 1, .const, false, .now, false, 2⟩,
  ⟨0x3C38, 1, 1, .u 8, .ro, false, .step, true, 0⟩,
  ⟨0x3C38, 2, 2, .u 8, .ro, false, .step, true, 0⟩]

def objsEngines : List ObjDef := [
  ⟨0x5020, 0, 0, .u 1, .const, false, .now, false, 72⟩,
  ⟨0x5020, 1, 72, .u 8, .ro, false, .step, true, 0⟩,
  ⟨0x5021, 0, 0, .u 1, .const, false, .now, false, 72⟩,
  ⟨0x5021, 1, 72, .u 8, .ro, false, .step, true, 0⟩,
  ⟨0x5022, 0, 0, .u 1, .const, false, .now, false, 72⟩,
  ⟨0x5022, 1, 72, .u 8, .ro, false, .step, true, 0⟩,
  ⟨0x5023, 0, 0, .u 1, .const, false, .now, false, 72⟩,
  ⟨0x5023, 1, 72, .u 4, .ro, false, .now, false, 0⟩,
  ⟨0x5024, 0, 0, .u 1, .const, false, .now, false, 72⟩,
  ⟨0x5024, 1, 72, .u 4, .ro, false, .now, false, 0xffffffff⟩]

def objsStreamsA : List ObjDef := [
  ⟨0x3400, 0, 0, .u 1, .const, false, .now, false, 6⟩,
  ⟨0x3400, 1, 1, .u 4, .const, false, .now, false, 0x40000⟩,
  ⟨0x3400, 2, 2, .u 1, .const, false, .now, false, 32⟩,
  ⟨0x3400, 3, 3, .u 1, .const, false, .now, false, 128⟩,
  ⟨0x3400, 4, 4, .u 2, .const, false, .now, false, 512⟩,
  ⟨0x3400, 5, 5, .u 1, .const, false, .now, false, 64⟩,
  ⟨0x3400, 6, 6, .u 2, .const, false, .now, false, 4096⟩,
  ⟨0x3401, 0, 0, .u 1, .const, false, .now, false, 3⟩,
  ⟨0x3401, 1, 1, .u 2, .const, false, .now, false, 4096⟩,
  ⟨0x3401, 2, 2, .u 2, .const, false, .now, false, 1024⟩,
  ⟨0x3401, 3, 3, .u 2, .const, false, .now, false, 2048⟩,
  ⟨0x3402, 0, 0, .u 1, .const, false, .now, false, 2⟩,
  ⟨0x3402, 1, 1, .u 2, .ro, false, .plan, false, 2116⟩,
  ⟨0x3402, 2, 2, .u 4, .ro, false, .plan, false, 0⟩,
  ⟨0x3408, 0, 0, .u 1, .const, false, .now, false, 1⟩,
  ⟨0x3408, 1, 1, .u 1, .rwst, true, .step, false, 3⟩,
  ⟨0x3410, 0, 0, .u 1, .const, false, .now, false, 9⟩,
  ⟨0x3410, 1, 3, .u 8, .ro, false, .step, true, 0⟩,
  ⟨0x3410, 4, 4, .u 8, .ro, false, .step, true, 0⟩,
  ⟨0x3410, 5, 5, .u 8, .ro, false, .step, true, 0⟩,
  ⟨0x3410, 6, 6, .u 8, .ro, false, .step, true, 0⟩,
  ⟨0x3410, 7, 7, .u 8, .ro, false, .step, true, 0⟩,
  ⟨0x3410, 8, 8, .u 8, .ro, false, .step, true, 0⟩,
  ⟨0x3410, 9, 9, .u 8, .ro, false, .now, false, 0⟩,
  ⟨0x3411, 0, 0, .u 1, .const, false, .now, false, 2⟩,
  ⟨0x3411, 1, 1, .u 8, .ro, false, .step, false, 0⟩,
  ⟨0x3411, 2, 2, .u 8, .ro, false, .step, false, 0⟩,
  ⟨0x3418, 0, 0, .u 1, .const, false, .now, false, 7⟩,
  ⟨0x3418, 1, 1, .u 8, .ro, false, .now, false, 0⟩,
  ⟨0x3418, 2, 2, .u 1, .ro, false, .now, false, 255⟩,
  ⟨0x3418, 3, 3, .u 2, .ro, false, .now, false, 0⟩,
  ⟨0x3418, 4, 4, .u 2, .ro, false, .now, false, 0⟩,
  ⟨0x3418, 5, 5, .u 2, .ro, false, .now, false, 0⟩,
  ⟨0x3418, 6, 6, .u 1, .ro, false, .now, false, 0⟩,
  ⟨0x3418, 7, 7, .u 8, .ro, false, .now, false, 0⟩,
  ⟨0x5030, 0, 0, .u 1, .const, false, .now, false, 72⟩,
  ⟨0x5030, 1, 72, .u 4, .ro, false, .step, true, 0⟩,
  ⟨0x5031, 0, 0, .u 1, .const, false, .now, false, 72⟩,
  ⟨0x5031, 1, 72, .u 4, .ro, false, .step, true, 0⟩,
  ⟨0x5032, 0, 0, .u 1, .const, false, .now, false, 72⟩]

def objsStreamsB : List ObjDef := [
  ⟨0x5032, 1, 72, .u 8, .ro, false, .step, true, 0⟩,
  ⟨0x5033, 0, 0, .u 1, .const, false, .now, false, 72⟩,
  ⟨0x5033, 1, 72, .u 4, .ro, false, .now, false, 0⟩]

def objsProgramsA : List ObjDef := [
  ⟨0x3880, 0, 0, .u 1, .const, false, .now, false, 2⟩,
  ⟨0x3880, 1, 1, .u 1, .wo, false, .now, false, 0⟩,
  ⟨0x3880, 2, 2, .u 1, .wo, false, .now, false, 0⟩,
  ⟨0x3881, 0, 0, .u 1, .const, false, .now, false, 6⟩,
  ⟨0x3881, 1, 2, .u 8, .ro, false, .now, false, 0⟩,
  ⟨0x3881, 3, 3, .u 8, .const, false, .now, false, 0x100000000⟩,
  ⟨0x3881, 4, 5, .u 1, .ro, false, .now, false, 0⟩,
  ⟨0x3881, 6, 6, .u 1, .ro, false, .now, false, 255⟩,
  ⟨0x3882, 0, 0, .u 1, .const, false, .now, false, 5⟩,
  ⟨0x3882, 1, 1, .u 1, .ro, false, .now, false, 0⟩,
  ⟨0x3882, 2, 2, .u 1, .ro, false, .now, false, 255⟩,
  ⟨0x3882, 3, 3, .u 1, .ro, false, .now, false, 255⟩,
  ⟨0x3882, 4, 4, .u 4, .ro, false, .now, false, 0⟩,
  ⟨0x3882, 5, 5, .u 4, .ro, false, .now, false, 0⟩,
  ⟨0x3883, 0, 0, .u 1, .const, false, .now, false, 6⟩,
  ⟨0x3883, 1, 1, .oct 64, .ro, false, .plan, false, 0⟩,
  ⟨0x3883, 2, 2, .oct 16, .ro, false, .plan, false, 0⟩,
  ⟨0x3883, 3, 3, .u 2, .ro, false, .plan, false, 0⟩,
  ⟨0x3883, 4, 4, .u 2, .ro, false, .plan, false, 0⟩,
  ⟨0x3883, 5, 5, .u 4, .ro, false, .plan, false, 0⟩,
  ⟨0x3883, 6, 6, .u 4, .ro, false, .now, false, 0⟩,
  ⟨0x3884, 1, 1, .u 4, .ro, false, .now, false, 0⟩,
  ⟨0x3888, 0, 0, .u 1, .const, false, .now, false, 2⟩,
  ⟨0x3888, 1, 1, .u 4, .rwst, true, .step, false, 0x186a0⟩,
  ⟨0x3888, 2, 2, .u 4, .rwst, true, .step, false, 0⟩,
  ⟨0x3890, 0, 0, .u 1, .const, false, .now, false, 4⟩,
  ⟨0x3890, 1, 1, .u 8, .ro, false, .step, true, 0⟩,
  ⟨0x3890, 2, 2, .u 1, .ro, false, .step, true, 255⟩,
  ⟨0x3890, 3, 3, .u 8, .ro, false, .step, true, 0⟩,
  ⟨0x3890, 4, 4, .u 8, .ro, false, .step, true, 0⟩,
  ⟨0x3891, 0, 0, .u 1, .const, false, .now, false, 2⟩,
  ⟨0x3891, 1, 1, .u 8, .ro, false, .step, true, 0⟩,
  ⟨0x3891, 2, 2, .u 8, .ro, false, .step, true, 0⟩,
  ⟨0x3892, 0, 0, .u 1, .const, false, .now, false, 4⟩,
  ⟨0x3892, 1, 1, .u 8, .ro, false, .now, false, 0⟩,
  ⟨0x3892, 2, 2, .u 1, .ro, false, .now, false, 255⟩,
  ⟨0x3892, 3, 3, .u 2, .ro, false, .now, false, 0⟩,
  ⟨0x3892, 4, 4, .u 1, .ro, false, .now, false, 0⟩,
  ⟨0x5040, 0, 0, .u 1, .const, false, .now, false, 72⟩,
  ⟨0x5040, 1, 72, .u 8, .ro, false, .step, true, 0⟩]

def objsProgramsB : List ObjDef := [
  ⟨0x5041, 0, 0, .u 1, .const, false, .now, false, 72⟩,
  ⟨0x5041, 1, 72, .u 8, .ro, false, .step, true, 0⟩,
  ⟨0x5042, 0, 0, .u 1, .const, false, .now, false, 72⟩,
  ⟨0x5042, 1, 72, .u 8, .ro, false, .step, true, 0⟩,
  ⟨0x5043, 0, 0, .u 1, .const, false, .now, false, 72⟩,
  ⟨0x5043, 1, 72, .u 4, .ro, false, .now, false, 0⟩]

def objsMemoryA : List ObjDef := [
  ⟨0x3000, 0, 0, .u 1, .const, false, .now, false, 6⟩,
  ⟨0x3000, 1, 1, .u 8, .const, false, .now, false, 0⟩,
  ⟨0x3000, 2, 2, .u 4, .const, false, .now, false, 0x200000⟩,
  ⟨0x3000, 3, 3, .u 4, .const, false, .now, false, 0x80000⟩,
  ⟨0x3000, 4, 4, .u 4, .const, false, .now, false, 0⟩,
  ⟨0x3000, 5, 5, .u 4, .const, false, .now, false, 0x10000⟩,
  ⟨0x3000, 6, 6, .u 4, .const, false, .now, false, 0x10000⟩,
  ⟨0x3002, 0, 0, .u 1, .const, false, .now, false, 5⟩,
  ⟨0x3002, 1, 1, .u 4, .ro, false, .plan, false, 4096⟩,
  ⟨0x3002, 2, 2, .u 2, .ro, false, .plan, false, 0⟩,
  ⟨0x3002, 3, 3, .u 2, .ro, false, .plan, false, 100⟩,
  ⟨0x3002, 4, 4, .u 2, .ro, false, .plan, false, 0⟩,
  ⟨0x3002, 5, 5, .u 4, .ro, false, .plan, false, 0⟩,
  ⟨0x3008, 0, 0, .u 1, .const, false, .now, false, 2⟩,
  ⟨0x3008, 1, 1, .u 4, .rw, false, .now, false, 0⟩,
  ⟨0x3008, 2, 2, .oct 16, .ro, false, .now, false, 0⟩,
  ⟨0x3010, 0, 0, .u 1, .const, false, .now, false, 10⟩,
  ⟨0x3010, 1, 1, .u 8, .ro, false, .step, true, 0⟩,
  ⟨0x3010, 2, 2, .u 8, .ro, false, .step, true, 0⟩,
  ⟨0x3010, 3, 3, .u 8, .ro, false, .step, true, 0⟩,
  ⟨0x3010, 4, 4, .u 8, .ro, false, .step, true, 0⟩,
  ⟨0x3010, 5, 5, .u 8, .ro, false, .step, true, 0⟩,
  ⟨0x3010, 6, 6, .u 8, .ro, false, .step, true, 0⟩,
  ⟨0x3010, 7, 7, .u 8, .ro, false, .step, true, 0⟩,
  ⟨0x3010, 8, 8, .u 8, .ro, false, .step, true, 0⟩,
  ⟨0x3010, 9, 9, .u 8, .ro, false, .step, true, 0⟩,
  ⟨0x3010, 10, 10, .u 8, .ro, false, .step, true, 0⟩,
  ⟨0x3011, 0, 0, .u 1, .const, false, .now, false, 2⟩,
  ⟨0x3011, 1, 1, .u 2, .ro, false, .step, true, 0⟩,
  ⟨0x3011, 2, 2, .u 2, .rwst, true, .step, false, 0⟩,
  ⟨0x3012, 0, 0, .u 1, .const, false, .now, false, 4⟩,
  ⟨0x3012, 1, 1, .u 8, .ro, false, .step, true, 0⟩,
  ⟨0x3012, 2, 2, .u 8, .ro, false, .step, true, 0⟩,
  ⟨0x3012, 3, 3, .u 8, .ro, false, .step, true, 0⟩,
  ⟨0x3012, 4, 4, .u 8, .ro, false, .step, true, 0⟩,
  ⟨0x3014, 0, 0, .u 1, .const, false, .now, false, 8⟩,
  ⟨0x3014, 1, 8, .u 1, .ro, false, .now, false, 0⟩,
  ⟨0x3018, 0, 0, .u 1, .const, false, .now, false, 6⟩,
  ⟨0x3018, 1, 1, .u 4, .ro, false, .now, false, 0⟩,
  ⟨0x3018, 2, 2, .u 8, .ro, false, .now, false, 0⟩]

def objsMemoryB : List ObjDef := [
  ⟨0x3018, 3, 3, .u 4, .ro, false, .now, false, 0xffffffff⟩,
  ⟨0x3018, 4, 4, .u 1, .ro, false, .now, false, 0⟩,
  ⟨0x3018, 5, 5, .u 8, .ro, false, .now, false, 0⟩,
  ⟨0x3018, 6, 6, .u 1, .ro, false, .now, false, 0⟩,
  ⟨0x3020, 0, 0, .u 1, .const, false, .now, false, 4⟩,
  ⟨0x3020, 1, 4, .u 8, .ro, false, .now, false, 0⟩,
  ⟨0x3021, 0, 0, .u 1, .const, false, .now, false, 2⟩,
  ⟨0x3021, 1, 1, .u 2, .rw, true, .now, false, 24⟩,
  ⟨0x3021, 2, 2, .u 2, .rw, true, .now, false, 24⟩,
  ⟨0x3022, 0, 0, .u 1, .const, false, .now, false, 2⟩,
  ⟨0x3022, 1, 2, .u 4, .ro, false, .now, false, 0⟩,
  ⟨0x3024, 0, 0, .u 1, .const, false, .now, false, 4⟩,
  ⟨0x3024, 1, 1, .u 1, .rwst, true, .step, false, 80⟩,
  ⟨0x3024, 2, 2, .u 1, .rwst, true, .step, false, 77⟩,
  ⟨0x3024, 3, 3, .u 1, .ro, false, .step, true, 0⟩,
  ⟨0x3024, 4, 4, .u 4, .ro, false, .now, false, 0⟩,
  ⟨0x3028, 0, 0, .u 1, .const, false, .now, false, 5⟩,
  ⟨0x3028, 1, 1, .u 8, .ro, false, .plan, false, 0x1000000000⟩,
  ⟨0x3028, 2, 2, .u 8, .ro, false, .plan, false, 0⟩,
  ⟨0x3028, 3, 3, .u 8, .ro, false, .plan, false, 0⟩,
  ⟨0x3028, 4, 4, .u 8, .ro, false, .plan, false, 0⟩,
  ⟨0x3028, 5, 5, .u 8, .ro, false, .now, false, 0⟩,
  ⟨0x3029, 0, 0, .u 1, .const, false, .now, false, 4⟩,
  ⟨0x3029, 1, 4, .oct 16, .ro, false, .now, false, 0⟩,
  ⟨0x302A, 0, 0, .u 1, .const, false, .now, false, 3⟩,
  ⟨0x302A, 1, 1, .u 8, .ro, false, .step, true, 0⟩,
  ⟨0x302A, 2, 2, .u 8, .ro, false, .step, true, 0⟩,
  ⟨0x302A, 3, 3, .u 4, .ro, false, .now, false, 0⟩,
  ⟨0x3030, 0, 0, .u 1, .const, false, .now, false, 8⟩,
  ⟨0x3030, 1, 8, .u 1, .ro, false, .step, true, 0⟩,
  ⟨0x3031, 0, 0, .u 1, .const, false, .now, false, 8⟩,
  ⟨0x3031, 1, 8, .u 4, .ro, false, .now, false, 0⟩,
  ⟨0x3032, 0, 0, .u 1, .const, false, .now, false, 8⟩,
  ⟨0x3032, 1, 8, .u 4, .ro, false, .step, true, 0⟩]

def objsLedgerA : List ObjDef := [
  ⟨0x2000, 0, 0, .u 1, .const, false, .now, false, 2⟩,
  ⟨0x2000, 1, 1, .u 1, .ro, false, .now, true, 0⟩,
  ⟨0x2000, 2, 2, .u 1, .ro, false, .now, true, 0⟩,
  ⟨0x2001, 0, 0, .u 1, .const, false, .now, false, 2⟩,
  ⟨0x2001, 1, 1, .u 1, .wo, false, .now, false, 0⟩,
  ⟨0x2001, 2, 2, .u 1, .wo, false, .now, false, 0⟩,
  ⟨0x2002, 0, 0, .u 1, .const, false, .now, false, 11⟩,
  ⟨0x2002, 1, 1, .u 8, .ro, false, .now, true, 0⟩,
  ⟨0x2002, 2, 2, .u 8, .ro, false, .now, false, 0⟩,
  ⟨0x2002, 3, 3, .u 2, .ro, false, .now, false, 0⟩,
  ⟨0x2002, 4, 4, .dom, .ro, false, .now, false, 0⟩,
  ⟨0x2002, 5, 5, .u 1, .ro, false, .now, false, 0⟩,
  ⟨0x2002, 6, 6, .u 8, .ro, false, .now, false, 0⟩,
  ⟨0x2002, 7, 7, .u 2, .ro, false, .now, false, 0⟩,
  ⟨0x2002, 8, 8, .u 2, .ro, false, .now, false, 65535⟩,
  ⟨0x2002, 9, 9, .u 4, .ro, false, .now, true, 0⟩,
  ⟨0x2002, 10, 10, .u 1, .ro, false, .now, false, 0⟩,
  ⟨0x2002, 11, 11, .u 1, .ro, false, .now, false, 0⟩,
  ⟨0x2003, 0, 0, .u 1, .const, false, .now, false, 1⟩,
  ⟨0x2003, 1, 1, .oct 64, .ro, false, .step, false, 0⟩,
  ⟨0x2008, 0, 0, .u 1, .const, false, .now, false, 3⟩,
  ⟨0x2008, 1, 1, .u 1, .rwst, true, .step, false, 0⟩,
  ⟨0x2008, 2, 2, .u 1, .rwst, true, .step, false, 0⟩,
  ⟨0x2008, 3, 3, .u 1, .rwst, true, .step, false, 3⟩,
  ⟨0x4000, 0, 0, .u 1, .const, false, .now, false, 6⟩,
  ⟨0x4000, 1, 1, .u 1, .const, false, .now, false, 8⟩,
  ⟨0x4000, 2, 2, .u 1, .const, false, .now, false, 2⟩,
  ⟨0x4000, 3, 3, .u 1, .const, false, .now, false, 64⟩,
  ⟨0x4000, 4, 4, .u 1, .const, false, .now, false, 32⟩,
  ⟨0x4000, 5, 5, .u 4, .const, false, .now, false, 0x80000⟩,
  ⟨0x4000, 6, 6, .u 4, .const, false, .now, false, 0x10000⟩,
  ⟨0x4001, 0, 0, .u 1, .const, false, .now, false, 4⟩,
  ⟨0x4001, 1, 1, .u 2, .ro, false, .plan, false, 0⟩,
  ⟨0x4001, 2, 2, .u 2, .ro, false, .plan, false, 0⟩,
  ⟨0x4001, 3, 3, .u 1, .ro, false, .plan, false, 0⟩,
  ⟨0x4001, 4, 4, .u 8, .ro, false, .plan, false, 0⟩,
  ⟨0x4004, 0, 0, .u 1, .const, false, .now, false, 2⟩,
  ⟨0x4004, 1, 1, .r32, .rwst, true, .step, false, 0x3f800000⟩,
  ⟨0x4004, 2, 2, .r32, .ro, false, .step, true, 0⟩,
  ⟨0x4006, 0, 0, .u 1, .const, false, .now, false, 6⟩]

def objsLedgerB : List ObjDef := [
  ⟨0x4006, 1, 1, .bool, .rwst, true, .step, false, 0⟩,
  ⟨0x4006, 2, 2, .i8, .rwst, true, .step, false, 0⟩,
  ⟨0x4006, 3, 3, .u 4, .rwst, true, .step, false, 2000⟩,
  ⟨0x4006, 4, 4, .i8, .rwst, true, .step, false, 232⟩,
  ⟨0x4006, 5, 5, .i8, .rwst, true, .step, false, 24⟩,
  ⟨0x4006, 6, 6, .i8, .ro, false, .step, true, 0⟩,
  ⟨0x4008, 0, 0, .u 1, .const, false, .now, false, 1⟩,
  ⟨0x4008, 1, 1, .r32, .rwst, true, .step, false, 0⟩,
  ⟨0x4010, 0, 0, .u 1, .const, false, .now, false, 9⟩,
  ⟨0x4010, 1, 1, .u 8, .ro, false, .step, true, 0⟩,
  ⟨0x4010, 2, 2, .u 8, .ro, false, .step, true, 0⟩,
  ⟨0x4010, 3, 3, .u 8, .ro, false, .step, true, 0⟩,
  ⟨0x4010, 4, 4, .u 4, .ro, false, .step, true, 0⟩,
  ⟨0x4010, 5, 5, .u 4, .ro, false, .step, true, 0⟩,
  ⟨0x4010, 6, 6, .r32, .ro, false, .step, true, 0⟩,
  ⟨0x4010, 7, 7, .r32, .ro, false, .step, true, 0⟩,
  ⟨0x4010, 8, 8, .u 8, .ro, false, .now, false, 0⟩,
  ⟨0x4010, 9, 9, .u 8, .ro, false, .now, false, 0⟩,
  ⟨0x4018, 0, 0, .u 1, .const, false, .now, false, 2⟩,
  ⟨0x4018, 1, 1, .u 2, .rw, false, .now, false, 0⟩,
  ⟨0x4018, 2, 2, .oct 32, .ro, false, .step, false, 0⟩]

def objsFabricA : List ObjDef := [
  ⟨0x2800, 0, 0, .u 1, .const, false, .now, false, 9⟩,
  ⟨0x2800, 1, 3, .u 1, .rwst, true, .idle, false, 1⟩,
  ⟨0x2800, 4, 6, .u 1, .rwst, true, .idle, false, 0⟩,
  ⟨0x2800, 7, 7, .u 1, .rwst, true, .idle, false, 0⟩,
  ⟨0x2800, 8, 8, .u 2, .ro, false, .idle, false, 0⟩,
  ⟨0x2800, 9, 9, .u 2, .ro, false, .idle, false, 1⟩,
  ⟨0x2801, 0, 0, .u 1, .const, false, .now, false, 4⟩,
  ⟨0x2801, 1, 1, .u 1, .ro, false, .now, true, 0⟩,
  ⟨0x2801, 2, 2, .u 1, .ro, false, .now, false, 0⟩,
  ⟨0x2801, 3, 3, .u 1, .ro, false, .now, false, 0⟩,
  ⟨0x2801, 4, 4, .u 4, .ro, false, .now, false, 0⟩,
  ⟨0x2804, 0, 0, .u 1, .const, false, .now, false, 4⟩,
  ⟨0x2804, 1, 1, .u 1, .wo, false, .now, false, 0⟩,
  ⟨0x2804, 2, 2, .u 1, .wo, false, .now, false, 0⟩,
  ⟨0x2804, 3, 3, .u 4, .ro, false, .now, false, 0⟩,
  ⟨0x2804, 4, 4, .u 2, .ro, false, .now, false, 0⟩,
  ⟨0x2808, 0, 0, .u 1, .const, false, .now, false, 3⟩,
  ⟨0x2808, 1, 1, .u 2, .rwst, true, .step, false, 10⟩,
  ⟨0x2808, 2, 2, .u 4, .rwst, true, .step, false, 1000⟩,
  ⟨0x2808, 3, 3, .u 2, .const, false, .now, false, 25⟩,
  ⟨0x2810, 0, 0, .dom, .rwst, false, .step, false, 0⟩,
  ⟨0x2811, 0, 0, .dom, .rwst, false, .step, false, 0⟩,
  ⟨0x2812, 0, 0, .u 1, .const, false, .now, false, 3⟩,
  ⟨0x2812, 1, 1, .u 2, .ro, false, .step, false, 0⟩,
  ⟨0x2812, 2, 2, .u 2, .ro, false, .step, false, 0⟩,
  ⟨0x2812, 3, 3, .u 4, .ro, false, .step, false, 0⟩,
  ⟨0x2818, 0, 0, .u 1, .const, false, .now, false, 3⟩,
  ⟨0x2818, 1, 1, .u 1, .rwst, true, .step, false, 4⟩,
  ⟨0x2818, 2, 2, .u 2, .rwst, true, .step, false, 64⟩,
  ⟨0x2818, 3, 3, .u 1, .rwst, true, .step, false, 8⟩,
  ⟨0x2819, 0, 0, .dom, .ro, false, .step, false, 0⟩,
  ⟨0x2820, 0, 0, .u 1, .const, false, .now, false, 12⟩,
  ⟨0x2820, 1, 6, .u 8, .ro, false, .step, true, 0⟩,
  ⟨0x2820, 7, 7, .u 8, .ro, false, .step, true, 0⟩,
  ⟨0x2820, 8, 8, .u 4, .ro, false, .step, true, 0⟩,
  ⟨0x2820, 9, 9, .u 8, .ro, false, .step, true, 0⟩,
  ⟨0x2820, 10, 10, .u 4, .ro, false, .now, false, 0⟩,
  ⟨0x2820, 11, 11, .u 4, .ro, false, .now, false, 0⟩,
  ⟨0x2820, 12, 12, .u 8, .ro, false, .now, false, 0⟩,
  ⟨0x5080, 0, 0, .u 1, .const, false, .now, false, 20⟩]

def objsFabricB : List ObjDef := [
  ⟨0x5080, 1, 20, .u 1, .ro, false, .now, true, 1⟩,
  ⟨0x5081, 0, 0, .u 1, .const, false, .now, false, 20⟩,
  ⟨0x5081, 1, 20, .u 4, .ro, false, .now, false, 0xffffffff⟩,
  ⟨0x5082, 0, 0, .u 1, .const, false, .now, false, 20⟩,
  ⟨0x5082, 1, 20, .u 4, .ro, false, .now, false, 0⟩,
  ⟨0x5083, 0, 0, .u 1, .const, false, .now, false, 20⟩,
  ⟨0x5083, 1, 20, .u 4, .ro, false, .now, false, 0⟩,
  ⟨0x5084, 0, 0, .u 1, .const, false, .now, false, 20⟩,
  ⟨0x5084, 1, 20, .u 8, .ro, false, .step, true, 0⟩]

def objsTwinA : List ObjDef := [
  ⟨0x2A00, 0, 0, .u 1, .const, false, .now, false, 4⟩,
  ⟨0x2A00, 1, 1, .u 4, .rwst, true, .idle, false, 0⟩,
  ⟨0x2A00, 2, 2, .u 1, .rwst, true, .step, false, 0⟩,
  ⟨0x2A00, 3, 3, .u 1, .rwst, true, .step, false, 0⟩,
  ⟨0x2A00, 4, 4, .u 4, .rwst, true, .step, false, 1000⟩,
  ⟨0x2A01, 0, 0, .u 1, .const, false, .now, false, 9⟩,
  ⟨0x2A01, 1, 1, .u 1, .ro, false, .now, true, 0⟩,
  ⟨0x2A01, 2, 2, .u 2, .ro, false, .plan, false, 32767⟩,
  ⟨0x2A01, 3, 3, .u 2, .ro, false, .now, false, 65535⟩,
  ⟨0x2A01, 4, 4, .u 1, .ro, false, .now, false, 0⟩,
  ⟨0x2A01, 5, 5, .u 1, .ro, false, .now, false, 0⟩,
  ⟨0x2A01, 6, 6, .u 1, .ro, false, .now, false, 0⟩,
  ⟨0x2A01, 7, 7, .u 8, .ro, false, .now, true, 0⟩,
  ⟨0x2A01, 8, 8, .u 1, .ro, false, .now, false, 0⟩,
  ⟨0x2A01, 9, 9, .u 1, .ro, false, .now, false, 0⟩,
  ⟨0x2A02, 0, 0, .u 1, .const, false, .now, false, 3⟩,
  ⟨0x2A02, 1, 2, .u 8, .ro, false, .now, false, 0⟩,
  ⟨0x2A02, 3, 3, .u 4, .ro, false, .now, false, 0⟩,
  ⟨0x2A04, 0, 0, .u 1, .const, false, .now, false, 9⟩,
  ⟨0x2A04, 1, 1, .u 8, .ro, false, .now, true, 0⟩,
  ⟨0x2A04, 2, 2, .u 4, .ro, false, .now, true, 0⟩,
  ⟨0x2A04, 3, 3, .u 4, .ro, false, .now, false, 0⟩,
  ⟨0x2A04, 4, 8, .u 4, .ro, false, .now, false, 0⟩,
  ⟨0x2A04, 9, 9, .u 4, .ro, false, .now, false, 0⟩,
  ⟨0x2A05, 0, 0, .u 1, .const, false, .now, false, 4⟩,
  ⟨0x2A05, 1, 1, .u 8, .ro, false, .now, false, 0⟩,
  ⟨0x2A05, 2, 2, .u 2, .ro, false, .now, false, 65535⟩,
  ⟨0x2A05, 3, 3, .u 1, .ro, false, .now, false, 0⟩,
  ⟨0x2A05, 4, 4, .u 1, .ro, false, .now, false, 0⟩,
  ⟨0x2A08, 0, 0, .u 1, .const, false, .now, false, 2⟩,
  ⟨0x2A08, 1, 2, .u 8, .ro, false, .now, false, 0⟩,
  ⟨0x2A10, 0, 0, .u 1, .const, false, .now, false, 6⟩,
  ⟨0x2A10, 1, 1, .u 8, .wo, false, .now, false, 0⟩,
  ⟨0x2A10, 2, 2, .u 4, .rwst, true, .step, false, 0⟩,
  ⟨0x2A10, 3, 3, .u 1, .rwst, true, .step, false, 0⟩,
  ⟨0x2A10, 4, 4, .u 2, .rwst, true, .step, false, 0⟩,
  ⟨0x2A10, 5, 5, .u 1, .rwst, true, .step, false, 1⟩,
  ⟨0x2A10, 6, 6, .u 1, .wo, false, .now, false, 0⟩,
  ⟨0x2A11, 0, 0, .u 1, .const, false, .now, false, 2⟩,
  ⟨0x2A11, 1, 1, .u 8, .rw, false, .now, false, 0⟩]

def objsTwinB : List ObjDef := [
  ⟨0x2A11, 2, 2, .u 8, .rw, false, .now, false, 0⟩,
  ⟨0x2A12, 0, 0, .u 1, .const, false, .now, false, 7⟩,
  ⟨0x2A12, 1, 1, .u 1, .ro, false, .now, true, 0⟩,
  ⟨0x2A12, 2, 2, .u 8, .ro, false, .now, false, 0⟩,
  ⟨0x2A12, 3, 4, .u 8, .ro, false, .now, false, 0⟩,
  ⟨0x2A12, 5, 5, .u 1, .ro, false, .now, false, 0⟩,
  ⟨0x2A12, 6, 6, .u 8, .ro, false, .now, false, 0⟩,
  ⟨0x2A12, 7, 7, .u 4, .ro, false, .now, false, 0⟩,
  ⟨0x2A18, 0, 0, .dom, .rw, false, .now, false, 0⟩,
  ⟨0x2A1C, 0, 0, .u 1, .const, false, .now, false, 3⟩,
  ⟨0x2A1C, 1, 1, .u 1, .wo, false, .now, false, 0⟩,
  ⟨0x2A1C, 2, 2, .u 1, .ro, false, .now, false, 0⟩,
  ⟨0x2A1C, 3, 3, .u 8, .ro, false, .now, false, 0⟩,
  ⟨0x2C00, 0, 0, .u 1, .const, false, .now, false, 3⟩,
  ⟨0x2C00, 1, 1, .u 2, .rwst, true, .step, false, 20⟩,
  ⟨0x2C00, 2, 2, .u 2, .rwst, true, .step, false, 64⟩,
  ⟨0x2C00, 3, 3, .bool, .rwst, true, .step, false, 1⟩,
  ⟨0x2C01, 0, 0, .u 1, .const, false, .now, false, 3⟩,
  ⟨0x2C01, 1, 1, .u 4, .ro, false, .now, false, 0⟩,
  ⟨0x2C01, 2, 2, .u 8, .ro, false, .now, false, 0⟩,
  ⟨0x2C01, 3, 3, .u 4, .ro, false, .now, false, 0⟩,
  ⟨0x2C08, 0, 0, .u 1, .const, false, .now, false, 3⟩,
  ⟨0x2C08, 1, 1, .u 4, .ro, false, .now, false, 0⟩,
  ⟨0x2C08, 2, 2, .u 8, .ro, false, .now, false, 0⟩,
  ⟨0x2C08, 3, 3, .u 1, .ro, false, .now, false, 0⟩,
  ⟨0x2C10, 0, 0, .dom, .rwst, true, .step, false, 0⟩,
  ⟨0x2C11, 0, 0, .u 1, .const, false, .now, false, 7⟩,
  ⟨0x2C11, 1, 1, .u 1, .ro, false, .now, true, 0⟩,
  ⟨0x2C11, 2, 2, .u 2, .ro, false, .now, false, 65535⟩,
  ⟨0x2C11, 3, 3, .u 2, .ro, false, .now, false, 65535⟩,
  ⟨0x2C11, 4, 4, .u 4, .ro, false, .now, false, 0⟩,
  ⟨0x2C11, 5, 5, .u 4, .ro, false, .now, false, 0⟩,
  ⟨0x2C11, 6, 6, .u 1, .ro, false, .now, false, 0⟩,
  ⟨0x2C11, 7, 7, .u 8, .ro, false, .now, false, 0⟩,
  ⟨0x2C18, 0, 0, .u 1, .const, false, .now, false, 1⟩,
  ⟨0x2C18, 1, 1, .bool, .ro, false, .now, false, 0⟩,
  ⟨0x2C20, 1, 1, .u 2, .wo, false, .now, false, 0⟩,
  ⟨0x2C24, 1, 1, .u 2, .wo, false, .now, false, 0⟩,
  ⟨0x2C28, 0, 0, .u 1, .const, false, .now, false, 2⟩,
  ⟨0x2C28, 1, 1, .bool, .ro, false, .step, true, 0⟩]

def objsTwinC : List ObjDef := [
  ⟨0x2C28, 2, 2, .u 4, .ro, false, .now, false, 0⟩,
  ⟨0x5050, 0, 0, .u 1, .const, false, .now, false, 72⟩,
  ⟨0x5050, 1, 72, .u 2, .ro, false, .step, true, 0⟩]

def objsHostLink : List ObjDef := [
  ⟨0x2400, 0, 0, .u 1, .const, false, .now, false, 2⟩,
  ⟨0x2400, 1, 1, .u 2, .const, false, .now, false, 0⟩,
  ⟨0x2400, 2, 2, .u 2, .const, false, .now, false, 0⟩,
  ⟨0x2401, 0, 0, .u 1, .const, false, .now, false, 5⟩,
  ⟨0x2401, 1, 1, .u 1, .ro, false, .now, true, 0⟩,
  ⟨0x2401, 2, 2, .u 1, .ro, false, .now, false, 0⟩,
  ⟨0x2401, 3, 3, .bool, .ro, false, .now, false, 0⟩,
  ⟨0x2401, 4, 4, .u 4, .ro, false, .now, false, 0⟩,
  ⟨0x2401, 5, 5, .u 1, .ro, false, .now, false, 0⟩,
  ⟨0x2404, 0, 0, .u 1, .const, false, .now, false, 3⟩,
  ⟨0x2404, 1, 1, .u 8, .ro, false, .now, false, 0⟩,
  ⟨0x2404, 2, 2, .u 8, .ro, false, .now, false, 0⟩,
  ⟨0x2404, 3, 3, .u 2, .ro, false, .now, true, 0⟩,
  ⟨0x2408, 0, 0, .u 1, .const, false, .now, false, 2⟩,
  ⟨0x2408, 1, 1, .u 8, .ro, false, .now, false, 0⟩,
  ⟨0x2408, 2, 2, .u 8, .ro, false, .now, false, 0⟩,
  ⟨0x240C, 0, 0, .u 1, .const, false, .now, false, 5⟩,
  ⟨0x240C, 1, 2, .u 8, .ro, false, .now, true, 0⟩,
  ⟨0x240C, 3, 3, .u 8, .ro, false, .now, false, 0⟩,
  ⟨0x240C, 4, 4, .u 8, .ro, false, .now, false, 0⟩,
  ⟨0x240C, 5, 5, .u 4, .ro, false, .now, false, 0⟩,
  ⟨0x2410, 0, 0, .u 1, .const, false, .now, false, 4⟩,
  ⟨0x2410, 1, 1, .u 8, .ro, false, .now, false, 0⟩,
  ⟨0x2410, 2, 2, .u 8, .ro, false, .now, false, 0⟩,
  ⟨0x2410, 3, 3, .u 4, .ro, false, .now, false, 0⟩,
  ⟨0x2410, 4, 4, .u 8, .ro, false, .now, false, 0⟩,
  ⟨0x2414, 0, 0, .u 1, .const, false, .now, false, 4⟩,
  ⟨0x2414, 1, 3, .u 4, .ro, false, .now, true, 0⟩,
  ⟨0x2414, 4, 4, .u 4, .ro, false, .now, false, 0⟩]

def objsKeeper : List ObjDef := [
  ⟨0x2100, 0, 0, .u 1, .const, false, .now, false, 3⟩,
  ⟨0x2100, 1, 1, .u 1, .wo, false, .now, false, 0⟩,
  ⟨0x2100, 2, 2, .u 4, .rw, true, .now, false, 0⟩,
  ⟨0x2100, 3, 3, .u 2, .rw, true, .now, false, 100⟩,
  ⟨0x2101, 0, 0, .u 1, .const, false, .now, false, 5⟩,
  ⟨0x2101, 1, 1, .u 2, .ro, false, .now, true, 0⟩,
  ⟨0x2101, 2, 2, .u 2, .ro, false, .now, true, 0⟩,
  ⟨0x2101, 3, 3, .u 2, .ro, false, .step, true, 0⟩,
  ⟨0x2101, 4, 4, .u 8, .ro, false, .step, false, 0⟩,
  ⟨0x2101, 5, 5, .bool, .ro, false, .now, false, 0⟩,
  ⟨0x2104, 1, 1, .u 2, .rwst, true, .now, false, 0⟩,
  ⟨0x2108, 0, 0, .u 1, .const, false, .now, false, 6⟩,
  ⟨0x2108, 1, 1, .u 1, .rwst, true, .step, false, 100⟩,
  ⟨0x2108, 2, 2, .u 1, .rwst, true, .step, false, 92⟩,
  ⟨0x2108, 3, 3, .u 1, .rwst, true, .step, false, 84⟩,
  ⟨0x2108, 4, 4, .u 1, .rwst, true, .step, false, 78⟩,
  ⟨0x2108, 5, 5, .u 1, .rwst, true, .step, false, 0⟩,
  ⟨0x2108, 6, 6, .u 1, .rwst, true, .step, false, 4⟩,
  ⟨0x2110, 0, 0, .u 1, .const, false, .now, false, 4⟩,
  ⟨0x2110, 1, 1, .u 2, .ro, false, .step, true, 0⟩,
  ⟨0x2110, 2, 2, .u 4, .ro, false, .step, true, 0⟩,
  ⟨0x2110, 3, 3, .u 4, .ro, false, .now, false, 0⟩,
  ⟨0x2110, 4, 4, .u 4, .ro, false, .now, false, 0⟩,
  ⟨0x2118, 0, 0, .u 1, .const, false, .now, false, 2⟩,
  ⟨0x2118, 1, 1, .u 4, .ro, false, .step, true, 0⟩,
  ⟨0x2118, 2, 2, .u 8, .ro, false, .now, false, 0⟩,
  ⟨0x2120, 0, 0, .u 1, .const, false, .now, false, 3⟩,
  ⟨0x2120, 1, 1, .u 8, .ro, false, .now, false, 0⟩,
  ⟨0x2120, 2, 2, .u 8, .ro, false, .now, false, 0⟩,
  ⟨0x2120, 3, 3, .u 4, .ro, false, .now, false, 0⟩,
  ⟨0x2130, 0, 0, .u 1, .const, false, .now, false, 4⟩,
  ⟨0x2130, 1, 4, .u 1, .ro, false, .step, true, 0⟩,
  ⟨0x2131, 0, 0, .u 1, .const, false, .now, false, 4⟩,
  ⟨0x2131, 1, 4, .u 1, .ro, false, .step, true, 0⟩,
  ⟨0x2132, 0, 0, .u 1, .const, false, .now, false, 4⟩,
  ⟨0x2132, 1, 4, .u 4, .ro, false, .now, false, 0⟩,
  ⟨0x2138, 0, 0, .u 1, .const, false, .now, false, 4⟩,
  ⟨0x2138, 1, 2, .u 1, .ro, false, .now, true, 0⟩,
  ⟨0x2138, 3, 3, .u 1, .ro, false, .now, true, 0⟩,
  ⟨0x2138, 4, 4, .u 1, .ro, false, .now, false, 0⟩]

def objsBootA : List ObjDef := [
  ⟨0x2200, 0, 0, .u 1, .const, false, .now, false, 6⟩,
  ⟨0x2200, 1, 1, .u 4, .ro, false, .now, false, 0⟩,
  ⟨0x2200, 2, 2, .u 1, .ro, false, .now, false, 0⟩,
  ⟨0x2200, 3, 3, .u 4, .ro, false, .now, false, 0⟩,
  ⟨0x2200, 4, 4, .u 1, .ro, false, .now, false, 0⟩,
  ⟨0x2200, 5, 5, .u 1, .ro, false, .now, false, 0⟩,
  ⟨0x2200, 6, 6, .u 1, .wo, false, .now, false, 0⟩,
  ⟨0x2201, 0, 0, .u 1, .const, false, .now, false, 7⟩,
  ⟨0x2201, 1, 2, .u 1, .ro, false, .now, false, 0⟩,
  ⟨0x2201, 3, 4, .u 4, .ro, false, .now, false, 0⟩,
  ⟨0x2201, 5, 6, .u 1, .ro, false, .now, false, 0⟩,
  ⟨0x2201, 7, 7, .oct 64, .ro, false, .now, false, 0⟩,
  ⟨0x2204, 0, 0, .u 1, .const, false, .now, false, 4⟩,
  ⟨0x2204, 1, 1, .u 4, .ro, false, .now, false, 0⟩,
  ⟨0x2204, 2, 2, .u 8, .ro, false, .now, false, 0⟩,
  ⟨0x2204, 3, 3, .u 1, .ro, false, .now, false, 0⟩,
  ⟨0x2204, 4, 4, .u 4, .ro, false, .now, false, 0⟩,
  ⟨0x2208, 0, 0, .u 1, .const, false, .now, false, 6⟩,
  ⟨0x2208, 1, 1, .bool, .rw, true, .now, false, 0⟩,
  ⟨0x2208, 2, 2, .u 4, .ro, false, .now, false, 0⟩,
  ⟨0x2208, 3, 3, .u 1, .ro, false, .now, false, 0⟩,
  ⟨0x2208, 4, 4, .u 4, .ro, false, .now, false, 0⟩,
  ⟨0x2208, 5, 5, .u 4, .ro, false, .now, false, 0⟩,
  ⟨0x2208, 6, 6, .u 1, .ro, false, .now, false, 0⟩,
  ⟨0x2210, 0, 0, .u 1, .const, false, .now, false, 5⟩,
  ⟨0x2210, 1, 1, .u 8, .wo, false, .now, false, 0⟩,
  ⟨0x2210, 2, 2, .u 1, .ro, false, .now, false, 0⟩,
  ⟨0x2210, 3, 3, .u 1, .rw, false, .now, false, 0⟩,
  ⟨0x2210, 4, 4, .u 1, .wo, false, .now, false, 0⟩,
  ⟨0x2210, 5, 5, .bool, .rw, true, .now, false, 1⟩,
  ⟨0x2218, 0, 0, .u 1, .const, false, .now, false, 3⟩,
  ⟨0x2218, 1, 1, .oct 64, .const, false, .now, false, 0⟩,
  ⟨0x2218, 2, 2, .u 1, .ro, false, .now, false, 0⟩,
  ⟨0x2218, 3, 3, .u 4, .ro, false, .now, false, 0⟩,
  ⟨0x2220, 0, 0, .u 1, .const, false, .now, false, 3⟩,
  ⟨0x2220, 1, 1, .oct 57, .const, false, .now, false, 0⟩,
  ⟨0x2220, 2, 2, .dom, .const, false, .now, false, 0⟩,
  ⟨0x2220, 3, 3, .u 4, .const, false, .now, false, 0⟩,
  ⟨0x2224, 0, 0, .u 1, .const, false, .now, false, 2⟩,
  ⟨0x2224, 1, 1, .oct 32, .rw, false, .now, false, 0⟩]

def objsBootB : List ObjDef := [
  ⟨0x2224, 2, 2, .oct 352, .ro, false, .now, false, 0⟩,
  ⟨0x2230, 0, 0, .u 1, .const, false, .now, false, 4⟩,
  ⟨0x2230, 1, 1, .u 4, .ro, false, .now, false, 0⟩,
  ⟨0x2230, 2, 2, .u 4, .ro, false, .now, false, 0⟩,
  ⟨0x2230, 3, 3, .u 4, .rw, false, .now, false, 0⟩,
  ⟨0x2230, 4, 4, .dom, .ro, false, .now, false, 0⟩]

def objsCard : List ObjDef := [
  ⟨0x2140, 0, 0, .u 1, .const, false, .now, false, 5⟩,
  ⟨0x2140, 1, 1, .bool, .rw, true, .now, false, 0⟩,
  ⟨0x2140, 2, 2, .u 2, .rw, false, .now, false, 0⟩,
  ⟨0x2140, 3, 3, .u 2, .ro, false, .now, false, 0⟩,
  ⟨0x2140, 4, 4, .u 1, .ro, false, .now, true, 0⟩,
  ⟨0x2140, 5, 5, .bool, .ro, false, .now, false, 0⟩]

/-- Every entry of the dictionary. -/
def objects : List ObjDef :=
  objsSixlevels ++
  objsDictionaryA ++
  objsDictionaryB ++
  objsDictionaryC ++
  objsArrays ++
  objsNumbers ++
  objsEngines ++
  objsStreamsA ++
  objsStreamsB ++
  objsProgramsA ++
  objsProgramsB ++
  objsMemoryA ++
  objsMemoryB ++
  objsLedgerA ++
  objsLedgerB ++
  objsFabricA ++
  objsFabricB ++
  objsTwinA ++
  objsTwinB ++
  objsTwinC ++
  objsHostLink ++
  objsKeeper ++
  objsBootA ++
  objsBootB ++
  objsCard

/-- Whether an index exists (R33). -/
def indexDefined (idx : Nat) : Bool := objects.any fun o => o.idx == idx

/-- The row of an entry. -/
def findObj (idx sub : Nat) : Option ObjDef :=
  objects.find? fun o => o.idx == idx && decide (o.lo ≤ sub) && decide (sub ≤ o.hi)

/-- Key of an entry in the state's maps. -/
def ekey (idx sub : Nat) : Nat := idx * 256 + sub

/-- Size of a fixed-length type in bytes (R34). -/
def Ty.size : Ty → Option Nat
  | .bool => some 1 | .i8 => some 1 | .u n => some n | .r32 => some 4 | .oct n => some n
  | .vis => none | .dom => none

end Sys2Proof.Machine
end

