-- ==== Sys2Proof/Machine/Ops.lean ====
section
/-! DEFINITION. The operations that every family shares: dictionary values in force, card identity, counters, events
and their log, interrupts, messages the card sends, and reports of abort causes. -/

namespace Sys2Proof.Machine

/-- What a meaning answers. -/
abbrev Res := Host.Outcome State Fault Refusal

/-! ### Dictionary values in force -/

/-- Base of the default COB-ID of TPDO n (R62); 0 for TPDOs 5 to 8. -/
def cobBase (n : Nat) : Nat := if n < 4 then 0x180 + 0x100 * n else 0

/-- The CAN node-ID in force (0x2020:01). -/
def nodeId (s : State) : Nat :=
  match Sparse.get none s.dict.vals (ekey 0x2020 1) with
  | some bs => leNat bs
  | none => 127

/-- The default of a writable entry as a number (the chapters' tables). -/
def dfltNum (s : State) (o : ObjDef) : Nat :=
  if o.idx = 0x2104 then s.strap.variant.maxPower
  else if o.idx = 0x2800 ∧ o.lo = 7 then (if s.strap.variant = .m2041 then 1 else 0)
  else if 0x1800 ≤ o.idx ∧ o.idx ≤ 0x1807 ∧ o.lo = 1 then
    (if o.idx < 0x1804 then cobBase (o.idx - 0x1800) + nodeId s else 0x80000000)
  else o.dflt

/-- The default of a writable entry as bytes. -/
def dfltBytes (s : State) (o : ObjDef) : Bytes :=
  match o.ty.size with
  | some n => leBytes n (dfltNum s o)
  | none => []

/-- The value in force of a writable entry. -/
def valBytes (s : State) (idx sub : Nat) : Bytes :=
  match Sparse.get none s.dict.vals (ekey idx sub) with
  | some bs => bs
  | none => match findObj idx sub with
    | some o => dfltBytes s o
    | none => []

/-- The value in force as a number. -/
def num (s : State) (idx sub : Nat) : Nat := leNat (valBytes s idx sub)

/-- A DOMAIN of 2-byte numbers. -/
def u16s (bs : Bytes) : List Nat := (chunks 2 bs.length bs).map leNat

/-- Put a value in force; the default value leaves no entry. -/
def putVal (idx sub : Nat) (bs : Bytes) (s : State) : State :=
  { s with dict := { s.dict with vals := Sparse.set none s.dict.vals (ekey idx sub) (some bs) } }

/-! ### The step and the device state -/

/-- Whether a job runs (R287, R288). -/
def jobRuns (s : State) : Bool :=
  match s.led.st with
  | .nojob => false
  | .lost => false
  | _ => true

/-- The running step, or the committed step when no step runs (R398). -/
def stepNow (s : State) : Nat := if jobRuns s then s.led.running else s.led.committed

/-- The attempt of the running step (R26). -/
def attempt (s : State) : Nat := s.led.run.attempts + 1

/-! ### Counters -/

/-- Add to a count since boot. -/
def countBoot (idx sub n : Nat) (s : State) : State :=
  { s with stat := { s.stat with boot := Sparse.modify 0 s.stat.boot (ekey idx sub) (· + n) } }

/-- Add to a statistic of the running step (R41). -/
def countRun (idx sub n : Nat) (s : State) : State :=
  { s with stat := { s.stat with run := Sparse.modify 0 s.stat.run (ekey idx sub) (· + n) } }

/-- Raise a statistic of the running step to at least `n`. -/
def maxRun (idx sub n : Nat) (s : State) : State :=
  { s with stat := { s.stat with run := Sparse.modify 0 s.stat.run (ekey idx sub) (fun v => max v n) } }

/-! ### What the card sends -/

/-- Put something on a link. -/
def send (o : Out) (s : State) : State := { s with out := s.out ++ [o] }

/-- The byte of the MSI-X table at offset `k`: the mask bits (bit 0 of byte 12 of an entry) are 1 after reset, as
PCIe defines; the table is held with that bit inverted. -/
def msixByte (s : State) (k : Nat) : Byte :=
  Sparse.get 0 s.host.msixTab k ^^^ (if k % 16 = 12 then 1 else 0)

/-- Whether vector `v` is masked: by itself, by Function Mask, or with MSI-X not enabled (R403; log entry 54). -/
def vecMasked (s : State) (v : Nat) : Bool :=
  bit (msixByte s (16 * v + 12)).toNat 0 || s.host.cfg.msixMask || !s.host.cfg.msixEn

/-- Raise MSI-X vector `v` (R403): sent, or pending while the vector is masked or the function is in D3hot (R379). -/
def raiseVec (v : Nat) (s : State) : State :=
  if s.host.down then s
  else if vecMasked s v || s.host.d3 then { s with host := { s.host with pba := setBit s.host.pba v true } }
  else send (.msix v) s

/-- Send the pending vectors that may be sent now. -/
def flushVecs (s : State) : State :=
  (List.range 64).foldl (fun s v =>
    if bit s.host.pba v && !vecMasked s v && !s.host.d3 then
      send (.msix v) { s with host := { s.host with pba := setBit s.host.pba v false } }
    else s) s

/-! ### Events (R398 to R402) and the log (R444) -/

/-- Milliseconds since the start of boot, from the sampling periods of R415. -/
def msNow (s : State) : Nat := s.keep.samples * 1000 / 1024

/-- Whether the log keeps an event (R444): by its severity, by its type, and the types that the spec says are logged (R38, R44,
R59, R419). -/
def logged (typ sev : Nat) : Bool :=
  decide (1 ≤ sev) || [0x20, 0x25, 0x26, 0x27, 0x30, 0x38, 0x06, 0x07, 0x08, 0x22].contains typ

/-- Append a log record; a full log loses its oldest sector of 64 records. -/
def logEvent (e : Event) (s : State) : State :=
  let old := if s.boot.log.length < 1458176 then s.boot.log else s.boot.log.drop 64
  { s with boot := { s.boot with
      log := old ++ [{ boots := s.boot.boots, ms := msNow s, seq := s.boot.logSeq, ev := e }],
      logSeq := s.boot.logSeq + 1 } }

/-- The end of the event queue. -/
def pushEvent (e : Event) (s : State) : State := { s with host := { s.host with events := s.host.events ++ [e] } }

/-- Enter an event into the queue: vector 0 when the fill rises to EVLEVEL (R401). -/
def enqueue (e : Event) (s : State) : State :=
  if s.host.evlevel = s.host.events.length + 1 then raiseVec 0 (pushEvent e s) else pushEvent e s

/-- Count an event, and log it where the log keeps it. -/
def noteEvent (e : Event) (s : State) : State :=
  if logged e.typ e.sev then logEvent e { s with stat := { s.stat with eseq := s.stat.eseq + 1 } }
  else { s with stat := { s.stat with eseq := s.stat.eseq + 1 } }

/-- Queue an event: it is dropped and counted while the host-interface domain is in reset and where the queue is full (R401,
R402). -/
def postEvent (e : Event) (s : State) : State :=
  if s.host.down then countBoot 0x2404 2 1 { s with host := { s.host with lostRst := s.host.lostRst + 1 } }
  else if 4095 ≤ s.host.events.length then countBoot 0x2404 2 1 { s with host := { s.host with lost := s.host.lost + 1 } }
  else enqueue e s

/-- Raise an event (R398, R401, R402). -/
def raise (typ sev source detail : Nat) (s : State) : State :=
  let e : Event := { typ := typ, sev := sev, source := source, eseq := (s.stat.eseq + 1) % 2 ^ 32, step := stepNow s,
                     detail := detail % 2 ^ 128 }
  postEvent e (noteEvent e s)

/-- The severity of an event whose type states none: 0 to 2, free (R398, R399, R425). -/
def openSev (typ detail : Nat) : Nat := (Config.eventSev typ detail).val

/-- Raise an event whose type states no severity. -/
def raiseOpen (typ source detail : Nat) (s : State) : State := raise typ (openSev typ detail) source detail s

/-- Source of an event that names none. -/
def noSource : Nat := 0xFFFF

/-- Enter an error into 0x1001 and 0x1003 (R38, R61): bits of the error register, code and detail. -/
def enterError (bits code detail : Nat) (s : State) : State :=
  { s with dict := { s.dict with
      errReg := s.dict.errReg ||| BitVec.ofNat 8 (bits ||| 1),
      errField := (BitVec.ofNat 32 (code + 65536 * detail) :: s.dict.errField).take 16 } }

/-! ### Card identity (R310 to R313) -/

/-- The card ID. -/
def cardId (s : State) : Nat :=
  num s 0x2800 4 + num s 0x2800 1 * (num s 0x2800 5 + num s 0x2800 2 * num s 0x2800 6)

/-- Cards that have failed (0x2811), as card IDs. -/
def failedCards (s : State) : List Nat := u16s (valBytes s 0x2811 0)

/-- The logical card ID that a card carries. -/
def logicalOf (s : State) (card : Nat) : Option Nat :=
  match u16s (valBytes s 0x2810 0) with
  | [] =>
    if s.plan.active.isSome then (if card < s.plan.plan.cards then some card else none)
    else if (u16s (valBytes s 0x2C10 0)).contains card then none else some card
  | m => m.findIdx? (· = card)

/-- The card ID that carries a logical card ID. -/
def cardOf (s : State) (l : Nat) : Option Nat :=
  match u16s (valBytes s 0x2810 0) with
  | [] =>
    if s.plan.active.isSome then (if l < s.plan.plan.cards then some l else none)
    else if (u16s (valBytes s 0x2C10 0)).contains l then none else some l
  | m => m[l]?

/-- This card's logical card ID; none for a spare card. -/
def myLogical (s : State) : Option Nat := logicalOf s (cardId s)

/-- How many logical cards there are: CARDS of the active plan, or with none active, as the logical map or the torus gives
them (R311). -/
def logicalCards (s : State) : Nat :=
  let maps := (u16s (valBytes s 0x2810 0)).length
  if s.plan.active.isSome then s.plan.plan.cards
  else if maps = 0 then num s 0x2800 1 * num s 0x2800 2 * num s 0x2800 3 else maps

/-- The logical card IDs that a working card carries, in order. -/
def liveCards (s : State) : List Nat :=
  (List.range (logicalCards s)).filter fun l =>
    match cardOf s l with
    | some c => !(failedCards s).contains c
    | none => false

/-- The coordinator, as a logical card ID (R313); 0xFFFF with no card. A card declared failed is passed over. -/
def coordinator (s : State) : Nat :=
  ((liveCards s).filter fun l => match cardOf s l with
    | some c => !s.fab.declared.contains c
    | none => false).headD 0xFFFF

/-- Whether this card is the coordinator. -/
def amCoordinator (s : State) : Bool := decide (myLogical s = some (coordinator s))

/-! ### Ports -/

def getPort (s : State) (p : Nat) : PortSt := Sparse.get {} s.fab.ports p

def setPort (p : Nat) (x : PortSt) (s : State) : State :=
  { s with fab := { s.fab with ports := Sparse.set {} s.fab.ports p x } }

/-- Whether the variant fits a port: fabric ports 0 to 15 (0 to 3 on MLM-204-1T) and the twin ports (R299). -/
def portFitted (s : State) (p : Nat) : Bool := decide (p < s.strap.variant.ports) || (decide (16 ≤ p) && decide (p < 20))

/-- The condition of 0x5080. -/
def portCond (s : State) (p : Nat) : Nat := if portFitted s p then (getPort s p).cond else 0

/-- Whether a port is in service: four lanes or two (R301, R302). -/
def portUp (s : State) (p : Nat) : Bool := decide (portCond s p = 2) || decide (portCond s p = 3)

def fabricPorts (s : State) : List Nat := (List.range 16).filter (portUp s)

/-! ### The torus (R299, R310, R314 to R316) -/

/-- Sizes and coordinates: x, y, z as (size, mine). -/
def torus (s : State) (d : Nat) : Nat × Nat := (num s 0x2800 (1 + d), num s 0x2800 (4 + d))

def fourPort (s : State) : Bool := decide (num s 0x2800 7 = 1)

/-- The coordinate of a card ID in a dimension. -/
def coordOf (s : State) (card d : Nat) : Nat :=
  let x := num s 0x2800 1
  let y := num s 0x2800 2
  if d = 0 then card % x else if d = 1 then card / x % y else card / (x * y)

def cardAt (s : State) (x y z : Nat) : Nat := x + num s 0x2800 1 * (y + num s 0x2800 2 * z)

/-- The card `k` hops from this one in dimension `d`, in the + or − direction. -/
def neighbour (s : State) (d : Nat) (plus : Bool) (k : Nat) : Nat :=
  let c (e : Nat) : Nat :=
    let t := torus s e
    if e = d ∧ 0 < t.1 then (if plus then (t.2 + k) % t.1 else (t.2 + t.1 * k - k) % t.1) else t.2
  cardAt s (c 0) (c 1) (c 2)

/-- Ports of a direction (R299). -/
def dirPorts (s : State) (d : Nat) (plus : Bool) : List Nat :=
  let b := 2 * d + (if plus then 0 else 1)
  if fourPort s then (if d < 2 then [b] else []) else [b, b + 6]

/-- The bypass port of a direction. -/
def bypassPort (s : State) (d : Nat) (plus : Bool) : Option Nat :=
  if fourPort s ∨ 2 ≤ d then none else some (12 + 2 * d + (if plus then 0 else 1))

/-- Dimension and direction of a port: its hop length 2 for a bypass port. -/
def portDir (p : Nat) : Nat × Bool × Nat :=
  if 12 ≤ p then ((p - 12) / 2, decide (p % 2 = 0), 2) else (p % 6 / 2, decide (p % 2 = 0), 1)

/-- The direction of R314 for a remaining distance. -/
def goesPlus (size d : Nat) : Bool := decide (2 * d ≤ size)

/-! ### Sending on lane 0 (R330, R332) -/

/-- The card that follows `c` on its route to `dst` (R314, R315), by card IDs. -/
def hopOf (s : State) (c dst : Nat) : Option Nat :=
  let size (d : Nat) : Nat := (torus s d).1
  let co (d : Nat) : Nat := coordOf s c d
  let step (d : Nat) (plus : Bool) (k : Nat) : Nat :=
    let x (e : Nat) : Nat := if e = d ∧ 0 < size e then (if plus then (co e + k) % size e else (co e + size e * k - k) % size e) else co e
    cardAt s (x 0) (x 1) (x 2)
  let rem (d : Nat) : Nat := (coordOf s dst d + size d - co d) % size d
  match (List.range 3).find? fun d => decide (rem d ≠ 0) with
  | none => none
  | some d =>
    let plus := goesPlus (size d) (rem d)
    let n := step d plus 1
    some (if (failedCards s).contains n then (if d < 2 then step d plus 2 else step 1 true 1) else n)

/-- The card before `me` on the route from `c` to `home`. -/
def routeBefore (s : State) (me home : Nat) : Nat → Nat → Option Nat
  | 0, _ => none
  | n + 1, c => match hopOf s c home with
    | none => none
    | some x => if x = me then some c else routeBefore s me home n x

/-- Whether the route from card `c` to `dst` passes neither a card to avoid nor this card again. -/
def routeClear (s : State) (dst avoid : Nat) : Nat → Nat → Bool
  | 0, _ => false
  | n + 1, c =>
    if c = dst then true
    else if c = avoid ∨ c = cardId s then false
    else match hopOf s c dst with
      | none => false
      | some x => routeClear s dst avoid n x

/-- The dimension and direction of the first hop to a card: that of the route (R314), or where the route passes a card to avoid,
the first of the six directions by whose neighbour it does not (R331). -/
def firstHop (s : State) (dst : Nat) (avoid : Option Nat) : Option (Nat × Bool) :=
  let rem (d : Nat) : Nat := (coordOf s dst d + (torus s d).1 - (torus s d).2) % (torus s d).1
  match (List.range 3).find? fun d => decide (rem d ≠ 0) with
  | none => none
  | some d =>
    let own := (d, goesPlus (torus s d).1 (rem d))
    match avoid with
    | none => some own
    | some a =>
      let clear (w : Nat × Bool) : Bool :=
        decide (1 < (torus s w.1).1) && routeClear s dst a ((torus s 0).1 + (torus s 1).1 + (torus s 2).1) (neighbour s w.1 w.2 1)
      some (([own, (0, true), (0, false), (1, true), (1, false), (2, true), (2, false)].find? clear).getD own)

/-- The ports in service of the hop from this card towards another (R314, R315, R331). Towpath messages go over bypass ports too
(R333). -/
def hopPorts (s : State) (dst : Nat) (avoid : Option Nat) : List Nat :=
  let ports := match firstHop s dst avoid with
    | none => []
    | some (d, plus) =>
      if (failedCards s).contains (neighbour s d plus 1) then
        (if d < 2 then (bypassPort s d plus).toList else dirPorts s 1 true)
      else dirPorts s d plus
  ports.filter (portUp s)

/-- Payload bytes of a lane that a port sends (0x2820, 0x5084). -/
def countPort (lane n p : Nat) (s : State) : State := countRun 0x5084 (p + 1) n (countRun 0x2820 (lane + 1) n s)

/-- Send one lane-0 flit on each of some ports. -/
def lane0 (ports : List Nat) (dst : Option Nat) (m : TpMsg) (s : State) : State :=
  let n := 16 * min 14 (Config.msgUnits m.kind)
  let h : Lane0 := { ports := ports, dst := dst, src := cardId s, msgid := s.fab.msgid }
  let s := ports.foldl (fun s p => countPort 0 n p s) s
  send (.towpath h m) { s with fab := { s.fab with msgid := (s.fab.msgid + 1) % 65536 } }

/-- A towpath message to a card ID (this card included). -/
def toCardId (c : Nat) (m : TpMsg) (s : State) : State :=
  lane0 (hopPorts s c (match m with | .probe a => some a | _ => none)) (some c) m s

/-- A towpath message to a logical card. -/
def toCard (l : Nat) (m : TpMsg) (s : State) : State :=
  match cardOf s l with
  | none => s
  | some c => toCardId c m s

/-- A towpath message to each of a list of cards. -/
def toCards (ls : List Nat) (m : TpMsg) (s : State) : State := ls.foldl (fun s l => toCard l m s) s

/-- A towpath message to the card at the other end of every port in service. -/
def flood (m : TpMsg) (s : State) : State := lane0 ((List.range 20).filter (portUp s)) none m s

/-- Remember the SRC and MSGID of a message received (R332). -/
def noteSeen (src msgid : Nat) (s : State) : State := { s with fab := { s.fab with seen := s.fab.seen ++ [(src, msgid)] } }

/-- Whether a lane-0 message is one of its kind (R330) that has not been received lately (R332). -/
def isNew (h : TpHdr) (kind : Nat) (s : State) : Bool :=
  decide (h.kind.toNat = kind) && !(s.fab.seen ++ s.fab.seenOld).contains (h.src.toNat, h.msgid.toNat)

/-- Hear a lane-0 message. One of a reserved kind is dropped (R330), and so is one whose SRC and MSGID came lately (R332). -/
def hear (h : TpHdr) (kind : Nat) (f : State → State) (s : State) : State :=
  if isNew h kind s then f (noteSeen h.src.toNat h.msgid.toNat s) else s

/-- The bytes of what a twin message carries, where R349 gives it data of some length; 0 for the short ones. -/
def TwMsg.bulk : TwMsg → Nat
  | .seed _ d => d.length | .seedEnd _ ds _ b => 8 + 16 * (ds.length + 1) + b.length | .image d => d.length
  | .grad _ _ d => d.length | .data _ d _ => d.length + 16
  | .stepm _ m => 2 * m.held.length + 4 * m.detached.length + m.stackT.length + m.logic.length + 65
  | .part _ _ es => 12 + (es.map fun e => e.val.length + 8).sum
  | _ => 0

/-- Whether a twin message goes on each port of the pair (R347, R349). -/
def TwMsg.everyPort : TwMsg → Bool
  | .hb => true
  | .unpair _ => true
  | _ => false

/-- The lane and the ports of twin messages (R347): lane 4 on the twin ports in service, and for a remote pair lane 3 on both
ports of the hop. -/
def twinPorts (s : State) : Nat × List Nat :=
  if s.twin.link = 2 then (3, hopPorts s s.twin.pcard none) else (4, ((List.range 4).map (· + 16)).filter (portUp s))

/-- The bytes of `n` that the `i`-th of `k` ports carries: flits of 224 B in turn. -/
def portShare (n k i : Nat) : Nat :=
  ((List.range (cdiv n 224)).map fun j => if j % k = i then 16 * cdiv (min 224 (n - 224 * j)) 16 else 0).sum

/-- A message of a twin to its partner (R349). The flits of a long one take the ports of the pair in turn; the payload of a short
one is a free value (DESIGN CHOICE, log entry 176). -/
def toTwin (m : TwMsg) (s : State) : State :=
  let bulk := match m with | .input _ _ => s.plan.plan.ringSlot | m => m.bulk
  let x := twinPorts s
  let short := 16 * min 14 (Config.msgUnits 0)
  send (.twin m) (if m.everyPort then x.2.foldl (fun s p => countPort x.1 short p s) s
    else if bulk = 0 then (x.2.take 1).foldl (fun s p => countPort x.1 short p s) s
    else x.2.zipIdx.foldl (fun s p => countPort x.1 (portShare bulk x.2.length p.2) p.1 s) s)

/-- The source that a card gives its own requests (R44). -/
def ownSource (s : State) : Source := { route := .towpath, card := BitVec.ofNat 14 (cardId s), node := 0 }

/-- Put a request to another card, and note what was asked: 0 recruit, 1 generation, 2 nothing to wait for, 3 committed step,
4 plan area 0 (R362), 5 the gateway's table (R373), 6 the partner that a card names, 7 its custody (R365), 8 its mirror step
(R366). -/
def askCard (c what : Nat) (m : UsdoMsg) (s : State) : State :=
  let s : State := if what = 2 then s else { s with fab := { s.fab with recAsk := s.fab.recAsk ++ [(c, what)] } }
  toCardId c (.usdo (ownSource s) m) s

/-- The card that judges a suspect: the coordinator, or the card that would follow it (R331). -/
def judgeOf (s : State) (card : Nat) : Nat :=
  ((liveCards s).filter fun l => match cardOf s l with
    | some c => !s.fab.declared.contains c && decide (c ≠ card)
    | none => false).headD 0xFFFF

/-- Report an abort cause of the running step to the coordinator (R288, R291). With no step running nothing is
sent. -/
def reportAbort (cause layer : Nat) (s : State) : State :=
  match s.led.st with
  | .opened | .updating | .ready =>
    toCard (coordinator s)
      (.abortRep s.led.running (attempt s) cause ((myLogical s).getD 0xFFFF) layer false) s
  | _ => s

/-- Report LOST to the coordinator (R288). -/
def reportLost (s : State) : State :=
  toCard (coordinator s)
    (.abortRep s.led.running (attempt s) s.led.abCause ((myLogical s).getD 0xFFFF) s.led.abLayer true)
    { s with led := { s.led with st := .lost } }

/-! ### Outbound host writes (R391, R396) -/

/-- A host write that waits for its sequence number. While the host-interface domain is in reset none is made. -/
def hostWrite (kind addr ref : Nat) (data : Bytes) (vec : Option Nat) (s : State) : State :=
  if s.host.down then s
  else { s with host := { s.host with
    waitWr := s.host.waitWr ++ [{ kind := kind, addr := addr, data := data, ref := ref, vec := vec }] } }

/-- Write the commit flag, if it is on (R391). -/
def commitFlag (s : State) : State :=
  if s.host.commitflag = 0 then s
  else hostWrite 4 s.host.commitflag 0 (leBytes 8 s.led.committed) (some 4) s

/-- Release one ring slot: RINGGET advances, the ring flag is written, vector 3 raised (R389). -/
def ringRelease (s : State) : State :=
  let s := { s with host := { s.host with ringget := (s.host.ringget + 1) % 2 ^ 32 } }
  if s.host.ringflag = 0 then raiseVec 3 s
  else hostWrite 3 s.host.ringflag 0 (leBytes 8 s.host.ringget) (some 3) s

/-! ### Units (R11 to R15) -/

/-- The logical unit of a physical unit: 0xFE a standing spare, 0xFF retired (0x5000). -/
def logicalUnit (s : State) (p : Nat) : Nat := Sparse.get 0xFF s.units.map p

/-- The physical unit that carries a logical unit. -/
def physUnit (s : State) (l : Nat) : Option Nat := (s.units.map.find? fun kv => decide (kv.2 = l)).map (·.1)

def getUnit (s : State) (p : Nat) : UnitSt := Sparse.get {} s.units.phys p

def setUnit (p : Nat) (u : UnitSt) (s : State) : State :=
  { s with units := { s.units with phys := Sparse.set {} s.units.phys p u } }

def modUnit (p : Nat) (f : UnitSt → UnitSt) (s : State) : State := setUnit p (f (getUnit s p)) s

/-- Condition of a physical unit (0x5001), unlisted 0. -/
def unitCond (s : State) (p : Nat) : Nat := Sparse.get 0 s.units.cond p

/-- Region of a physical unit (R11). -/
def regionOf (p : Nat) : Nat := p / 9

/-- The physical units of a region. -/
def regionUnits (g : Nat) : List Nat := (List.range 9).map (9 * g + ·)

/-- Whether a region has fewer than 8 healthy units (R15): fewer than 8 carry a logical unit. The region of a stack that
failed training is reported so too (R428). -/
def regionShort (s : State) (g : Nat) : Bool :=
  s.mem.stackBad.contains g || decide (((regionUnits g).filter fun p => decide (logicalUnit s p < 64)).length < 8)

/-- The event of a physical or logical unit fault (R22, R204, R368): the unit stops, its retirement is owed to the
next boundary, 0x3892 records a sequencer fault (`cause` 1 to 4; any fault when no step runs), and the running step
aborts with cause 5. -/
def unitFaultAt (p cause : Nat) (s : State) : State :=
  let u := getUnit s p
  let s := modUnit p (fun u => { u with stopped := true, hold := none }) s
  let s := if cause = 0 && jobRuns s then s
    else { s with stat := { s.stat with faultStep := stepNow s, faultUnit := p, faultAddr := u.bundle, faultCause := cause } }
  let s := if (s.units.owed.any fun x => decide (x.1 = p)) then s
    else { s with units := { s.units with owed := s.units.owed ++ [(p, 4)] } }
  reportAbort 5 0xFFFF s

end Sys2Proof.Machine
end

