-- ==== Sys2Proof/Machine/Memory.lean ====
section
/-! DEFINITION. Device memory: which frame serves an address, reads and writes by device address, ECC outcomes,
frame retirement, snapshots and copy-on-write (R222 to R233, R246 to R257). -/

namespace Sys2Proof.Machine

/-- Bytes of a barge. -/
def bargeBytes : Nat := 2097152

/-- What an unlisted byte of a frame reads as (DESIGN CHOICE, log entry 3). -/
def memDefault : Byte := 0

/-- The canonical form of device memory. -/
def Memory.wf (m : List Host.Cell) : Bool := Sparse.wf memDefault m

/-- Key of byte `o` of basin frame `f`. -/
def basinKey (f o : Nat) : Nat := f * bargeBytes + o

/-- Key of byte `o` of reservoir frame `f`. -/
def resvKey (f o : Nat) : Nat := 2 ^ 40 + f * bargeBytes + o

/-- First barge of plan area 0; area 1 follows after 2,048 barges (R223). -/
def planBarge (v : Variant) : Nat := v.barges - 4096

/-- The reservoir groups whose frames are in use: those that have trained (R247), and in recovery mode group 0 alone (R431).
A group that fails in service keeps its frames. -/
def upGroups (s : State) : List Nat :=
  if s.boot.recovery then [0] else (List.range 8).filter fun g => decide (Sparse.get 0 s.mem.group g ≠ 1)

/-- The frame that is the `r`-th from the top of the `j`-th of the groups in use, in rotation. -/
def topFrame (s : State) (j r : Nat) : Nat :=
  let ups := upGroups s
  ups.getD (j % ups.length) 0 * 131072 + (s.strap.variant.groupFrames - 1 - r)

/-- The reservoir frame of the j-th plan-area barge: from the top of each group down, groups in rotation
(DESIGN CHOICE, log entry 4). -/
def planFrame (s : State) (j : Nat) : Nat := topFrame s j (j / (upGroups s).length)

/-- The plan area that a device address lies in (R223). -/
def planArea (v : Variant) (addr : Nat) : Option Nat :=
  let b := addr / bargeBytes
  if planBarge v ≤ b ∧ b < v.barges then some ((b - planBarge v) / 2048) else none

/-- Device address of a plan area. -/
def planBase (v : Variant) (area : Nat) : Nat := (planBarge v + 2048 * area) * bargeBytes

/-- The entry of a plan-area barge as boot sets it: pinned in its own reservoir frame (R223, R227). -/
def planEntry (s : State) (b : Nat) : BargeEnt :=
  { state := 5, tier := true, rframe := planFrame s (b - planBarge s.strap.variant), rfv := true, home := b % 8 }

/-- The barge-table entry of a barge. A plan-area barge keeps its first entry until it is moved off a retired frame (R251). -/
def barge (s : State) (b : Nat) : BargeEnt :=
  let v := s.strap.variant
  let e := Sparse.get {} s.mem.barges b
  if planBarge v ≤ b ∧ b < v.barges ∧ e.rfv = false then planEntry s b else e

def setBarge (b : Nat) (e : BargeEnt) (s : State) : State :=
  { s with mem := { s.mem with barges := Sparse.set {} s.mem.barges b e } }

def modBarge (b : Nat) (f : BargeEnt → BargeEnt) (s : State) : State := setBarge b (f (barge s b)) s

/-- The 16-byte form of a barge-table entry (R227). -/
def BargeEnt.toNat (e : BargeEnt) : Nat :=
  let b (x : Bool) := if x then 1 else 0
  pack [(3, e.state), (1, b e.tier), (1, b e.zero), (1, b e.dirty), (1, b e.keep), (1, b e.la), (4, e.home),
    (1, b e.snap), (1, b e.pend), (2, 0), (16, e.users), (19, e.bframe), (1, b e.bfv), (20, e.rframe),
    (1, b e.rfv), (7, 0), (32, e.epoch), (16, 0)]

/-- Whether a barge is backed: its entry names a frame (R224). -/
def backed (s : State) (b : Nat) : Bool :=
  decide (b < s.strap.variant.barges) && ((barge s b).bfv || (barge s b).rfv)

/-- Where a byte lies: key in `cells`, whether in the reservoir, and the frame (R225, R226). -/
structure Place where
  key   : Nat
  resv  : Bool
  frame : Nat
  deriving DecidableEq, Repr

/-- The place of a byte of a backed barge in the frame in force. -/
def place (s : State) (addr : Nat) : Place :=
  let b := addr / bargeBytes
  let o := addr % bargeBytes
  let e := barge s b
  if e.home = 8 then
    let b0 := b / 8 * 8
    let c := (b - b0) * bargeBytes + o
    let f := (barge s (b0 + c / 4096 % 8)).bframe
    { key := basinKey f (c / 4096 / 8 * 4096 + c % 4096), resv := false, frame := f }
  else if e.tier then { key := resvKey e.rframe o, resv := true, frame := e.rframe }
  else { key := basinKey e.bframe o, resv := false, frame := e.bframe }

/-- How far from the top a reservoir frame stands, counted over the groups in use in rotation; none for a frame of a group
that is not in use. -/
def fromTop (s : State) (f : Nat) : Option Nat :=
  let ups := upGroups s
  let n := s.strap.variant.groupFrames
  if f % 131072 < n ∧ ups.contains (f / 131072) = true then
    some ((n - 1 - f % 131072) * ups.length + ups.idxOf (f / 131072)) else none

/-- The plan-area barge whose first frame is reservoir frame `f`. -/
def planBargeAt (s : State) (f : Nat) : Option Nat :=
  (fromTop s f).bind fun j => if j < 4096 then some (planBarge s.strap.variant + j) else none

/-- The barges that hold a frame: one, or none. -/
def bargesOnFrame (s : State) (resv : Bool) (f : Nat) : List Nat :=
  (s.mem.barges.filter fun b => if resv then b.2.rfv && decide (b.2.rframe = f) else b.2.bfv && decide (b.2.bframe = f)).map (·.1) ++
    (if resv then ((planBargeAt s f).toList.filter fun b => decide (barge s b = planEntry s b)) else [])

/-- The device address of byte `o` of a frame (R225); none where no barge holds the frame. -/
def frameAddr (s : State) (resv : Bool) (f o : Nat) : Option Nat :=
  (bargesOnFrame s resv f).head?.map fun b =>
    if (barge s b).home = 8 then b / 8 * 8 * bargeBytes + (o / 4096 * 8 + b % 8) * 4096 + o % 4096 else b * bargeBytes + o

/-- One byte as every reader sees it: zero where the barge's ZERO is set (R232). -/
def devByte (s : State) (addr : Nat) : Byte :=
  if (barge s (addr / bargeBytes)).zero then 0 else Sparse.get memDefault s.mem.cells (place s addr).key

/-- Consecutive bytes without any check. -/
def devBytes (s : State) (addr n : Nat) : Bytes := (List.range n).map fun i => devByte s (addr + i)

/-- The 64 B blocks that a range touches. -/
def blocksOf (addr n : Nat) : List Nat := (List.range ((addr + n + 63) / 64 - addr / 64)).map fun i => (addr / 64 + i) * 64

/-- Whether every byte of a range is backed. -/
def rangeBacked (s : State) (addr n : Nat) : Bool :=
  (List.range ((addr + n + (bargeBytes - 1)) / bargeBytes - addr / bargeBytes)).all fun i =>
    backed s (addr / bargeBytes + i)

/-- The reservoir group of a frame. -/
def groupOf (frame : Nat) : Nat := frame / 131072

/-- Whether a reservoir group is out of service: it failed training, or in service (R247). -/
def groupDown (s : State) (g : Nat) : Bool := decide (Sparse.get 0 s.mem.group g ≠ 0)

/-- Whether a range touches a group that is out of service (R247). -/
def rangeGroupBad (s : State) (addr n : Nat) : Option Nat :=
  (blocksOf addr n).find? fun a => let p := place s a; p.resv && groupDown s (groupOf p.frame)

/-- Whether the block at an address holds an uncorrectable error (R248); a barge that reads as zero has none. -/
def blockBad (s : State) (a : Nat) : Bool :=
  !(barge s (a / bargeBytes)).zero && s.mem.badBlk.contains ((place s a).key / 64)

/-! ### Records of damage and retirement -/

/-- Record a damaged barge in 0x3018 and log event 0x0C (R246). Cause 1 request, 2 copy, 3 scrub, 4 group. -/
def recordDamage (addr : Nat) (resv : Bool) (cause : Nat) (pond : Bool) (s : State) : State :=
  let b := if pond then 0xFFFFFFFF else addr / bargeBytes
  let t := if resv then 1 else 0
  let s := countBoot 0x3018 1 1 { s with mem := { s.mem with
    dmgStep := stepNow s, dmgBarge := b, dmgTier := t, dmgAddr := addr, dmgCause := cause,
    dmgRun := if pond || s.mem.dmgRun.contains b then s.mem.dmgRun else s.mem.dmgRun ++ [b] } }
  raiseOpen 0x0C noSource (pack [(32, b), (8, t), (64, addr), (8, cause)]) s

/-- Whether copy 0 of a pair with these GENs is the newer; 0 is a copy never written or invalid (R434). -/
def newer0 (g0 g1 : Nat) : Bool := decide (g0 ≠ 0) && (decide (g1 = 0) || decide (g0 = nextGen g1))

/-- A writer replaces the copy that is not in force (R434). -/
def putCopy {α : Type} (gen : α → Nat) (new : α) (c : α × α) : α × α :=
  if newer0 (gen c.1) (gen c.2) then (c.1, new) else (new, c.2)

/-- The copy in force. -/
def newest {α : Type} (gen : α → Nat) (c : α × α) : α := if newer0 (gen c.1) (gen c.2) then c.1 else c.2

/-- Write the repair map to flash, if a change waits (R442, R443): its version advances and event 0x35 is raised. -/
def writeMap (s : State) : State :=
  if s.boot.pendMap then
    let s : State := { s with boot := { s.boot with
      pendMap := false, repGen := nextGen s.boot.repGen,
      flash := { s.boot.flash with maps := putCopy (·.gen) { gen := nextGen s.boot.repGen, recs := s.boot.repair } s.boot.flash.maps } } }
    raise 0x35 0 noSource s.boot.repGen (send (.flashWrite 1) s)
  else s

/-- Add a record to the repair map (R442, R443): it is written at once where no step runs, else at the next boundary. -/
def addRepair (r : Repair) (s : State) : State :=
  let s : State := { s with boot := { s.boot with repair := s.boot.repair ++ [r], pendMap := true } }
  if jobRuns s || s.boot.booting then s else writeMap s

/-- Retire a frame (R251): never chosen again, its barge to be moved off at the next boundary, and the repair map
to be written (R443). -/
def retireFrame (resv : Bool) (frame : Nat) (s : State) : State :=
  let known := if resv then s.mem.retR.contains frame else s.mem.retB.contains frame
  if known then s
  else
    let s : State := { s with mem := { s.mem with
      retB := if resv then s.mem.retB else s.mem.retB ++ [frame],
      retR := if resv then s.mem.retR ++ [frame] else s.mem.retR,
      moveOff := s.mem.moveOff ++ (bargesOnFrame s resv frame).filter (fun b => !s.mem.moveOff.contains b) } }
    addRepair { typ := if resv then 6 else 5, cause := 0, pos := frame, step := s.led.committed } s

/-- Count a corrected error at a place: totals, the stack's count, and the row's count towards retirement, which
comes at 16 in one scrub period (R248, R251). A row is 2 KiB of a frame (DESIGN CHOICE, log entry 5). -/
def corrected (resv : Bool) (frame key : Nat) (s : State) : State :=
  let s := countBoot 0x3020 (if resv then 2 else 1) 1 s
  let s := if resv then s else countBoot 0x3031 (frame / 65536 + 1) 1 s
  let row := key / 2048
  let s := { s with mem := { s.mem with rowErr := Sparse.modify 0 s.mem.rowErr row (· + 1) } }
  if 16 ≤ Sparse.get 0 s.mem.rowErr row then retireFrame resv frame s else s

/-- Mark a block uncorrectable and retire its frame (R248, R251). -/
def uncorrectable (resv : Bool) (frame key : Nat) (s : State) : State :=
  let s := countBoot 0x3020 (if resv then 4 else 3) 1 s
  let s := { s with mem := { s.mem with
    badBlk := if s.mem.badBlk.contains (key / 64) then s.mem.badBlk else s.mem.badBlk ++ [key / 64] } }
  retireFrame resv frame s

/-- Apply what the ECC found on an access by device address. -/
def applyEcc (ecc : Ecc) (s : State) : State :=
  match ecc with
  | .clean => s
  | .corrected a =>
    let p := place s a.toNat
    corrected p.resv p.frame p.key s
  | .uncorrectable a =>
    let p := place s a.toNat
    uncorrectable p.resv p.frame p.key s

/-! ### Reads -/

/-- The outcome of a memory request (R224, R246). -/
inductive MemOut where
  | ok (s : State) (bs : Bytes)
  | notBacked (s : State)
  | failed (s : State)

/-- The state that a memory request leaves, whatever its outcome. -/
def MemOut.state : MemOut → State
  | .ok s _ => s
  | .notBacked s => s
  | .failed s => s

/-- A failed request: counted, the barge recorded (R246, R247). -/
def failRequest (a cause : Nat) (s : State) : State :=
  recordDamage (a / 64 * 64) (place s a).resv cause false (countRun 0x3012 3 1 s)

/-- Bytes of a range that a read takes from reservoir frames (0x3012:01); a barge that reads as zero has its frame left
unread (R232). -/
def directBytes (s : State) (addr n : Nat) : Nat :=
  ((List.range ((addr + n + 4095) / 4096 - addr / 4096)).map fun i =>
    let lo := max addr ((addr / 4096 + i) * 4096)
    let hi := min (addr + n) ((addr / 4096 + i + 1) * 4096)
    if (place s lo).resv && !(barge s (lo / bargeBytes)).zero then hi - lo else 0).sum

/-- A read of `n` bytes by device address (R226). -/
def readDev (addr n : Nat) (ecc : Ecc) (s : State) : MemOut :=
  if !rangeBacked s addr n then .notBacked (countRun 0x3012 4 1 s)
  else match rangeGroupBad s addr n with
    | some a => .failed (failRequest a 4 s)
    | none =>
      let s := applyEcc ecc s
      match (blocksOf addr n).find? (blockBad s) with
      | some a => .failed (failRequest a 1 s)
      | none =>
        let direct := directBytes s addr n
        .ok (if direct = 0 then s else countRun 0x3012 1 direct s) (devBytes s addr n)

/-- Read ranges one after another; none where a read fails or is not backed. What the ECC found applies to the first. -/
def readRanges : List (Nat × Nat) → Ecc → State → State × Option Bytes
  | [], _, s => (s, some [])
  | r :: rs, ecc, s =>
    match readDev r.1 r.2 ecc s with
    | .ok s bs => match readRanges rs .clean s with
      | (s, some more) => (s, some (bs ++ more))
      | (s, none) => (s, none)
    | .notBacked s => (s, none)
    | .failed s => (s, none)

/-- The bytes of ranges as a digest or a copy for the twin takes them: nothing where one cannot be read (R247, R248; DESIGN
CHOICE, log entry 175). -/
def fetchRanges (rs : List (Nat × Nat)) (s : State) : State × Bytes :=
  match readRanges rs .clean s with
  | (s, some bs) => (s, bs)
  | (s, none) => (s, [])

/-! ### The side pond (R223, R253) -/

/-- 2 MiB pieces of the side pond. -/
def pondPieces (s : State) : Nat := s.plan.plan.pondGiB * 512

/-- First byte of the pond that a step's slot has in the retained-input area, of the pending-gradient area, and of a page of the
copy-on-write area (DESIGN CHOICE, log entry 4: the areas follow each other as R253 lists them). -/
def pondRetained (s : State) (n : Nat) : Nat := n % 2 * s.plan.plan.ringSlot
def pondPend (s : State) (o : Nat) : Nat := 2 * s.plan.plan.ringSlot + o
def pondCow (s : State) (slot o : Nat) : Nat := 2 * s.plan.plan.ringSlot + s.plan.plan.tw.pgBytes + slot * 65536 + o

/-- The byte of the pond that stands at a key of the reservoir: its pieces lie below the plan frames, over the groups in use in
rotation (R223; DESIGN CHOICE, log entry 4). -/
def pondAt (s : State) (key : Nat) : Option Nat :=
  if key < 2 ^ 40 then none
  else (fromTop s ((key - 2 ^ 40) / bargeBytes)).bind fun j =>
    let ups := (upGroups s).length
    let i := (j / ups - cdiv 4096 ups) * ups + j % ups
    if cdiv 4096 ups ≤ j / ups ∧ i < pondPieces s then some (i * bargeBytes + (key - 2 ^ 40) % bargeBytes) else none

/-- The uncorrectable blocks among bytes of the pond, by their first byte (R248). -/
def pondBlocks (s : State) (off n : Nat) : List Nat :=
  (s.mem.badBlk.filterMap fun k => pondAt s (k * 64)).filter fun o => decide (off < o + 64) && decide (o < off + n)

/-- Whether bytes of the pond lie in a group that is out of service (R247). -/
def pondDown (s : State) (off n : Nat) : Bool :=
  let ups := upGroups s
  (List.range (min ups.length ((off + n + (bargeBytes - 1)) / bargeBytes - off / bargeBytes))).any fun i =>
    groupDown s (ups.getD ((off / bargeBytes + i) % ups.length) 0)

/-- What keeps bytes of the pond from being read, as the cause of 0x3018: 4 their group, 1 an uncorrectable block. -/
def pondBad (s : State) (off n : Nat) : Option Nat :=
  if pondDown s off n then some 4 else if (pondBlocks s off n).isEmpty then none else some 1

/-- A failed request to the pond: counted, and recorded as a side pond frame (R246), which has no device address (DESIGN
CHOICE, log entry 4: its address reads 0). -/
def failPond (cause : Nat) (s : State) : State := recordDamage 0 true cause true (countRun 0x3012 3 1 s)

/-- A write to bytes of the pond, done by `put`: it fails where a group is out of service, or where it covers only part of an
uncorrectable block; blocks that it covers are whole again (R247, R248). -/
def pondWrite (off n : Nat) (put : State → State) (s : State) : State :=
  let bad := pondBlocks s off n
  if pondDown s off n then failPond 4 s
  else if bad.isEmpty then put s
  else if bad.all fun o => decide (off ≤ o) && decide (o + 64 ≤ off + n) then
    put { s with mem := { s.mem with badBlk := s.mem.badBlk.filter fun k => (match pondAt s (k * 64) with
      | some o => !bad.contains o
      | none => true) } }
  else failPond 1 s

/-! ### Snapshots (R254 to R257) -/

def getSnap (s : State) (k : Nat) : Snap := Sparse.get {} s.mem.snaps k

def setSnap (k : Nat) (x : Snap) (s : State) : State :=
  { s with mem := { s.mem with snaps := Sparse.set {} s.mem.snaps k x } }

/-- Whether a byte lies in one of a list of ranges. -/
def inRanges (rs : List (Nat × Nat)) (a : Nat) : Bool := rs.any fun r => decide (r.1 ≤ a) && decide (a < r.1 + r.2)

/-- Whether a single-pass snapshot has read every byte of a 64 KiB page (R254). -/
def pageRead (x : Snap) (page : Nat) : Bool :=
  x.single && (List.range 65536).all fun o => inRanges x.read (page * 65536 + o)

/-- Whether a snapshot holds a copy of a page. -/
def snapHolds (s : State) (k page : Nat) : Bool := s.mem.cow.any fun c => decide (c.page = page) && c.held.contains k

/-- The open snapshots that need a copy of a page before it is written (R255). -/
def snapsNeeding (s : State) (page : Nat) : List Nat :=
  (List.range 4).filter fun k =>
    let x := getSnap s k
    decide (x.state = 2) && !snapHolds s k page && !pageRead x page

/-- A page's bytes in the frame in force, as a sparse map; gathered by 4 KiB pieces (R225). -/
def pageData (s : State) (page : Nat) : Sparse Byte :=
  if (barge s (page / 32)).zero then []
  else (List.range 16).flatMap fun i =>
    (Sparse.slice s.mem.cells (place s (page * 65536 + i * 4096)).key 4096).map fun kv => (i * 4096 + kv.1, kv.2)

/-- Free the copies that a snapshot alone holds, and take it off the others (R256, R257). -/
def dropSnapCopies (k : Nat) (s : State) : State :=
  { s with mem := { s.mem with
    cow := (s.mem.cow.map fun c => { c with held := c.held.filter (· ≠ k) }).filter fun c => !c.held.isEmpty } }

/-- The uncorrectable blocks of a page in the frame in force. -/
def pageBad (s : State) (page : Nat) : List Nat := (blocksOf (page * 65536) 65536).filter (blockBad s)

/-- The lowest page of the copy-on-write area that no copy uses. -/
def freeSlot (s : State) : Nat :=
  ((List.range (s.mem.cow.length + 1)).find? fun k => !s.mem.cow.any fun c => decide (c.slot = k)).getD 0

/-- Bytes of the copy-on-write area in use. -/
def cowUsed (s : State) : Nat := s.mem.cow.length * 65536

/-- The oldest open snapshot. -/
def oldestSnap (s : State) : Option Nat :=
  ((List.range 4).filter fun k => decide ((getSnap s k).state = 2)).foldl (fun acc k =>
    match acc with
    | none => some k
    | some j => if (getSnap s k).order < (getSnap s j).order then some k else some j) none

/-- Break a snapshot (R257). -/
def breakSnap (k : Nat) (s : State) : State :=
  let s := dropSnapCopies k (setSnap k { getSnap s k with state := 3 } s)
  let s := if (getSnap s k).opener = 1 then { s with host := { s.host with winst := 3 } } else s
  raiseOpen 0x0D noSource k (countBoot 0x302A 3 1 s)

/-- Break the oldest open snapshots until a copy fits. -/
def makeRoom : Nat → State → State
  | 0, s => s
  | n + 1, s =>
    if cowUsed s + 65536 ≤ s.mem.cowCap then s
    else match oldestSnap s with
      | some k => makeRoom n (breakSnap k s)
      | none => s

/-- The copy of a page in its place of the copy-on-write area. A block of the page that is uncorrectable cannot be copied: it is
recorded, and in the copy it stays uncorrectable (DESIGN CHOICE, log entry 199). -/
def placeCopy (page slot : Nat) (ks : List Nat) (s : State) : State :=
  let bad := pageBad s page
  let s' := pondWrite (pondCow s slot 0) 65536 id s
  let s' := match bad with
    | [] => s'
    | a :: _ => recordDamage a (place s a).resv 2 false s'
  { s' with mem := { s'.mem with
    cow := s.mem.cow ++ [{ page := page, held := ks, data := pageData s page, slot := slot, bad := bad.map (· % 65536) }] } }

/-- Copy a page for the snapshots that need it (R255, R257). A snapshot broken for room takes no copy. -/
def cowPage (s : State) (page : Nat) : State :=
  if (barge s (page / 32)).snap = false then s
  else if (snapsNeeding s page).isEmpty then s
  else
    let s := makeRoom 4 s
    let ks := snapsNeeding s page
    if ks.isEmpty then s
    else
      placeCopy page (freeSlot s) ks (countRun 0x302A 1 1 s)

/-- A read of part of one page through snapshot `k` (R256): its copy, or the frame in force. -/
def snapPart (k addr n : Nat) (ecc : Ecc) (s : State) : MemOut :=
  match s.mem.cow.find? fun c => decide (c.page = addr / 65536) && c.held.contains k with
  | some c =>
    let o := addr % 65536
    match pondBad s (pondCow s c.slot o) n with
    | some cause => .failed (failPond cause s)
    | none =>
      if c.bad.any fun b => decide (b < o + n) && decide (o < b + 64) then .failed (failPond 1 s)
      else .ok s ((List.range n).map fun i => Sparse.get 0 c.data (addr % 65536 + i))
  | none => readDev addr n ecc s

/-- A read through snapshot `k`, page by page; it stops at the first part that fails. -/
def snapParts (k : Nat) : Nat → Nat → Nat → Ecc → State → MemOut
  | 0, addr, n, ecc, s => snapPart k addr n ecc s
  | fuel + 1, addr, n, ecc, s =>
    let m := min n (65536 - addr % 65536)
    match snapPart k addr m ecc s with
    | .ok s bs =>
      if n ≤ m then .ok s bs
      else match snapParts k fuel (addr + m) (n - m) .clean s with
        | .ok s more => .ok s (bs ++ more)
        | r => r
    | r => r

/-- A snapshot read (R254, R256). -/
def snapRead (k addr n : Nat) (ecc : Ecc) (s : State) : MemOut :=
  let x := getSnap s k
  if x.state ≠ 2 then .failed s
  else if x.single && (List.range n).any (fun i => inRanges x.read (addr + i) &&
      (barge s ((addr + i) / bargeBytes)).snap) then .failed s
  else match snapParts k (n / 65536 + 1) addr n ecc s with
    | .ok s bs => .ok (if x.single then setSnap k { x with read := x.read ++ [(addr, n)] } s else s) bs
    | r => r

/-! ### Writes -/

/-- Clear ZERO before a first write: the barge's own 2 MiB are filled with zeros in the frame in force (R232); whole blocks
are written, so none of them stays uncorrectable (R248). -/
def zeroFill (s : State) (b : Nat) : State :=
  let e := barge s b
  if e.zero then
    let keys := (List.range 512).map fun i => (place s (b * bargeBytes + i * 4096)).key
    let s : State := { s with mem := { s.mem with
      cells := keys.foldl (fun m k => Sparse.clearRange m k 4096) s.mem.cells
      badBlk := s.mem.badBlk.filter fun x => !keys.contains (x * 64 / 4096 * 4096) } }
    setBarge b { e with zero := false } s
  else s

/-! ### Copies under way (R230) -/

/-- Bytes of a chunk of a copy (R229). -/
def chunkBytes : Nat := 65536

/-- Copy bytes from one place of the frames to another, with the blocks among them that are uncorrectable (R248). -/
def moveBytes (src dst n : Nat) (s : State) : State :=
  { s with mem := { s.mem with
    cells := Sparse.copyRange memDefault s.mem.cells src dst n,
    badBlk := (s.mem.badBlk.filter fun k => decide (k < dst / 64) || decide ((dst + n) / 64 ≤ k)) ++
      (s.mem.badBlk.filter fun k => decide (src / 64 ≤ k) && decide (k < (src + n) / 64)).map fun k => k - src / 64 + dst / 64 } }

/-- The first uncorrectable block of a place. -/
def badIn (s : State) (key n : Nat) : Option Nat := s.mem.badBlk.find? fun k => decide (key / 64 ≤ k) && decide (k < (key + n) / 64)

/-- The copy of a barge that runs. -/
def copyOf (s : State) (b : Nat) : Option MigCopy := s.mem.copies.find? fun c => decide (c.barge = b)

/-- First byte of a copying barge's source frame and of its target frame. -/
def copySrc (e : BargeEnt) : Nat := if e.state = 3 then resvKey e.rframe 0 else basinKey e.bframe 0
def copyDst (e : BargeEnt) : Nat := if e.state = 3 then basinKey e.bframe 0 else resvKey e.rframe 0

/-- Copy up to `n` chunks from chunk `k` on: how many are copied then. A chunk with an uncorrectable block stops the copy. -/
def copyChunks (src dst : Nat) : Nat → Nat → State → Nat × State
  | 0, k, s => (k, s)
  | n + 1, k, s =>
    if (badIn s (src + k * chunkBytes) chunkBytes).isSome then (k, s)
    else copyChunks src dst n (k + 1) (countRun 0x3010 9 chunkBytes (moveBytes (src + k * chunkBytes) (dst + k * chunkBytes) chunkBytes s))

/-- The copy of a barge goes on until `k` chunks are copied. -/
def copyTo (b k : Nat) (s : State) : State :=
  match copyOf s b with
  | none => s
  | some c =>
    let e := barge s b
    let x := copyChunks (copySrc e) (copyDst e) (k - c.chunks) c.chunks s
    { x.2 with mem := { x.2.mem with copies := x.2.mem.copies.map fun d => if d.barge = b then { d with chunks := x.1 } else d } }

/-- A write to bytes of a barge meets its copy: how far the copy has come is a FREE VALUE; a chunk that is being copied is
copied before the write goes on (R230). -/
def meetCopy (addr n b : Nat) (s : State) : State :=
  match copyOf s b with
  | none => s
  | some c =>
    let k := max c.chunks (min 32 (Config.chunksCopied s.free))
    let lo := (max addr (b * bargeBytes) - b * bargeBytes) / chunkBytes
    let hi := (min (addr + n) ((b + 1) * bargeBytes) - b * bargeBytes + (chunkBytes - 1)) / chunkBytes
    copyTo b (if lo ≤ k ∧ k < hi then k + 1 else k) { s with free := s.free + 1 }

/-- Where a write to a byte also goes: the target of the barge's copy, once the byte's chunk has been copied (R230). -/
def copyKey (s : State) (addr : Nat) : Option Nat :=
  match copyOf s (addr / bargeBytes) with
  | none => none
  | some c => if addr % bargeBytes / chunkBytes < c.chunks then some (copyDst (barge s (addr / bargeBytes)) + addr % bargeBytes) else none

/-- Whether a write of `[addr, addr + n)` reaches the basin frame of a barge: the frame in force, or the target of a
promotion where a chunk of the range has been copied (R230). -/
def basinWritten (s : State) (addr n b : Nat) : Bool :=
  let e := barge s b
  let lo := (max addr (b * bargeBytes) - b * bargeBytes) / chunkBytes
  !e.tier || (decide (e.state = 3) && (copyOf s b).any fun c => decide (lo < c.chunks) && decide (0 < n))

/-- Mark a barge's basin frame as written (R227, R231). -/
def touchDirty (addr n : Nat) (s : State) (b : Nat) : State :=
  let e := barge s b
  if e.rfv && basinWritten s addr n b && !e.dirty then setBarge b { e with dirty := true } s else s

/-- The barges, pages and fully covered blocks of a range. -/
def bargesOf (addr n : Nat) : List Nat :=
  (List.range ((addr + n + (bargeBytes - 1)) / bargeBytes - addr / bargeBytes)).map (addr / bargeBytes + ·)

def pagesOf (addr n : Nat) : List Nat :=
  (List.range ((addr + n + 65535) / 65536 - addr / 65536)).map (addr / 65536 + ·)

/-- Store one byte in the frame in force, and in the target of the barge's copy where R230 says so. -/
def storeByte (s : State) (addr : Nat) (b : Byte) : State :=
  let m := Sparse.set memDefault s.mem.cells (place s addr).key b
  { s with mem := { s.mem with cells := match copyKey s addr with
      | some k => Sparse.set memDefault m k b
      | none => m } }

/-- Store bytes in the frames in force. -/
def storeBytes : Nat → Bytes → State → State
  | _, [], s => s
  | a, b :: bs, s => storeBytes (a + 1) bs (storeByte s a b)

/-- The state of a plan area (R210): 0 EMPTY, 1 LOADED, 2 CHECKING, 3 ACTIVE. -/
def areaState (s : State) (area : Nat) : Nat := if area = 0 then s.plan.area0 else s.plan.area1

def setArea (area st : Nat) (s : State) : State :=
  { s with plan := if area = 0 then { s.plan with area0 := st } else { s.plan with area1 := st } }

/-- Store into barges: pages that snapshots need are copied (R255), barges that read as zero are filled (R232), running copies
are met (R230), the blocks written are whole again (R248), and the barges are marked (R227). -/
def storePart (addr : Nat) (bs : Bytes) (s : State) : State :=
  let n := bs.length
  let s := (pagesOf addr n).foldl cowPage s
  let s := (bargesOf addr n).foldl zeroFill s
  let s := (bargesOf addr n).foldl (fun s b => meetCopy addr n b s) s
  let whole := (blocksOf addr n).map fun a => (place s a).key / 64
  let s := { s with mem := { s.mem with badBlk := s.mem.badBlk.filter fun k => !whole.contains k } }
  (bargesOf addr n).foldl (touchDirty addr n) (storeBytes addr bs s)

/-- A write into the frames in force: it fails where a group has failed (R247), or where it covers only part of an
uncorrectable block (R248). -/
def writeFrames (addr : Nat) (bs : Bytes) (s : State) : MemOut :=
  let n := bs.length
  match rangeGroupBad s addr n with
  | some a => .failed (failRequest a 4 s)
  | none =>
    match (blocksOf addr n).find? (fun a => blockBad s a && !(decide (addr ≤ a) && decide (a + 64 ≤ addr + n))) with
    | some a => .failed (failRequest a 1 s)
    | none => .ok (storePart addr bs s) bs

/-- A write that lies in one plan area, or in none (R226, R230 to R232, R248, R255). A write into a plan area that
is CHECKING or ACTIVE is dropped and counted; one into another area leaves it LOADED (R210). -/
def writePart (addr : Nat) (bs : Bytes) (s : State) : MemOut :=
  let n := bs.length
  if n = 0 then .ok s []
  else if !rangeBacked s addr n then .notBacked (countRun 0x3012 4 1 s)
  else match planArea s.strap.variant addr with
    | some area =>
      if 2 ≤ areaState s area then .ok (raiseOpen 0x14 noSource 1 (countBoot 0x3884 1 1 s)) []
      else match writeFrames addr bs s with
        | .ok s bs => .ok (setArea area 1 s) bs
        | r => r
    | none => writeFrames addr bs s

/-- A write cut at the first bytes of the plan areas; it stops at the first part that fails. -/
def writeCuts : List Nat → Nat → Bytes → State → MemOut
  | [], a, bs, s => writePart a bs s
  | c :: cs, a, bs, s =>
    if a < c ∧ c < a + bs.length then
      match writePart a (bs.take (c - a)) s with
      | .ok s _ => writeCuts cs c (bs.drop (c - a)) s
      | r => r
    else writeCuts cs a bs s

/-- A write by device address, from any requester. -/
def writeDev (addr : Nat) (bs : Bytes) (s : State) : MemOut :=
  writeCuts [planBase s.strap.variant 0, planBase s.strap.variant 1] addr bs s

/-- Read for an engine or the ledger, without ECC outcome: bytes or none. -/
def peekDev (s : State) (addr n : Nat) : Option Bytes :=
  if rangeBacked s addr n && (rangeGroupBad s addr n).isNone && !((blocksOf addr n).any (blockBad s)) then
    some (devBytes s addr n) else none

/-- Store for an engine or the ledger into its own placed memory; nothing where it is not backed. -/
def pokeDev (addr : Nat) (bs : Bytes) (s : State) : State := (writeDev addr bs s).state

end Sys2Proof.Machine
end

