-- ==== Sys2Proof/Machine/Num.lean ====
section
/-! DEFINITION. Exact values and the floating-point encodings (R96 to R101). A finite value is a signed dyadic
number, so sums and products are exact until a conversion rounds them. -/

namespace Sys2Proof.Machine

/-- An exact value: `fin s m e` is (-1)^s × m × 2^e; `m = 0` is a zero of sign `s`. -/
inductive Num where
  | nan
  | inf (s : Bool)
  | fin (s : Bool) (m : Nat) (e : Int)
  deriving DecidableEq, Repr

/-- Which codes of a format are not finite (R96): none, IEEE infinities and NaNs, or E4M3's single NaN. -/
inductive Specials where
  | none | ieee | e4m3
  deriving DecidableEq, Repr

/-- A floating-point format: exponent bits, fraction bits, bias, special codes. -/
structure Fmt where
  ew : Nat
  mw : Nat
  bias : Nat
  sp : Specials
  deriving DecidableEq, Repr

def fp32 : Fmt := { ew := 8, mw := 23, bias := 127, sp := .ieee }
def bf16 : Fmt := { ew := 8, mw := 7, bias := 127, sp := .ieee }
def fp16 : Fmt := { ew := 5, mw := 10, bias := 15, sp := .ieee }
def e4m3 : Fmt := { ew := 4, mw := 3, bias := 7, sp := .e4m3 }
def e5m2 : Fmt := { ew := 5, mw := 2, bias := 15, sp := .ieee }
def e3m2 : Fmt := { ew := 3, mw := 2, bias := 3, sp := .none }
def e2m3 : Fmt := { ew := 2, mw := 3, bias := 1, sp := .none }
def e2m1 : Fmt := { ew := 2, mw := 1, bias := 1, sp := .none }
def w48 : Fmt := { ew := 10, mw := 37, bias := 511, sp := .ieee }
/-- binary64, for the scalar cores' D extension (R146). -/
def fp64 : Fmt := { ew := 11, mw := 52, bias := 1023, sp := .ieee }

/-- Width of a code in bits. -/
def Fmt.width (f : Fmt) : Nat := 1 + f.ew + f.mw

/-- Exponent of the smallest normal. -/
def Fmt.emin (f : Fmt) : Int := 1 - (f.bias : Int)

/-- Magnitude code of the largest finite value. -/
def Fmt.maxCode (f : Fmt) : Nat :=
  match f.sp with
  | .none => 2 ^ (f.ew + f.mw) - 1
  | .ieee => (2 ^ f.ew - 1) * 2 ^ f.mw - 1
  | .e4m3 => 2 ^ (f.ew + f.mw) - 2

/-- Code of the canonical NaN (R96); 0 for a format without one. -/
def Fmt.nanCode (f : Fmt) : Nat :=
  match f.sp with
  | .none => 0
  | .ieee => (2 ^ f.ew - 1) * 2 ^ f.mw + 2 ^ (f.mw - 1)
  | .e4m3 => 2 ^ (f.ew + f.mw) - 1

/-- A sign put on a magnitude code. -/
def Fmt.signed (f : Fmt) (s : Bool) (mag : Nat) : Nat := if s then mag + 2 ^ (f.ew + f.mw) else mag

/-- The value of a code (R96, R97). -/
def Fmt.decode (f : Fmt) (code : Nat) : Num :=
  let s := code.testBit (f.ew + f.mw)
  let b := bits code (f.ew + f.mw - 1) f.mw
  let fr := code % 2 ^ f.mw
  if f.sp = .ieee ∧ b = 2 ^ f.ew - 1 then (if fr = 0 then .inf s else .nan)
  else if f.sp = .e4m3 ∧ b = 2 ^ f.ew - 1 ∧ fr = 2 ^ f.mw - 1 then .nan
  else if b = 0 then .fin s fr (1 - (f.bias : Int) - f.mw)
  else .fin s (2 ^ f.mw + fr) ((b : Int) - f.bias - f.mw)

/-- floor(log2 (m × 2^e)) for `m ≠ 0`. -/
def flog2 (m : Nat) (e : Int) : Int := (Nat.log2 m : Int) + e

/-- m × 2^e as (numerator scaled to exponent `k`), exact when `k ≤ e`, else rounded toward zero. -/
def atExp (m : Nat) (e k : Int) : Nat :=
  if k ≤ e then m * 2 ^ (e - k).toNat else m / 2 ^ (k - e).toNat

/-- m1 × 2^e1 ≤ m2 × 2^e2. -/
def magLe (m1 : Nat) (e1 : Int) (m2 : Nat) (e2 : Int) : Bool :=
  decide (atExp m1 e1 (min e1 e2) ≤ atExp m2 e2 (min e1 e2))

/-- The code of n × 2^k, for a value that the format represents. -/
def Fmt.encodeMag (f : Fmt) (n : Nat) (k : Int) : Nat :=
  if n = 0 then 0
  else if flog2 n k < f.emin then atExp n k (f.emin - f.mw)
  else (flog2 n k + f.bias).toNat * 2 ^ f.mw + (atExp n k (flog2 n k - f.mw) - 2 ^ f.mw)

def Num.isNan : Num → Bool | .nan => true | _ => false
def Num.isFin : Num → Bool | .fin _ _ _ => true | _ => false
def Num.isZero : Num → Bool | .fin _ m _ => decide (m = 0) | _ => false
def Num.sign : Num → Bool | .nan => false | .inf s => s | .fin s _ _ => s

/-- The integer m × 2^(e-k), signed. -/
def sgn (s : Bool) (m : Nat) : Int := if s then -(m : Int) else m

/-- Negation; a NaN stays a NaN. -/
def Num.neg : Num → Num
  | .nan => .nan
  | .inf s => .inf (!s)
  | .fin s m e => .fin (!s) m e

/-- Magnitude. -/
def Num.abs : Num → Num
  | .nan => .nan
  | .inf _ => .inf false
  | .fin _ m e => .fin false m e

/-- Exact sum. Opposite infinities give NaN; an exact zero is −0 only when both operands are −0 (R100). -/
def Num.add (a b : Num) : Num :=
  match a, b with
  | .nan, _ => .nan
  | _, .nan => .nan
  | .inf s, .inf t => if s = t then .inf s else .nan
  | .inf s, .fin _ _ _ => .inf s
  | .fin _ _ _, .inf t => .inf t
  | .fin s m e, .fin t n g =>
    if m = 0 ∧ n = 0 then .fin (s && t) 0 0
    else
      let k := min e g
      let x := sgn s (atExp m e k) + sgn t (atExp n g k)
      .fin (decide (x < 0)) x.natAbs k

/-- Exact product (R103). -/
def Num.mul (a b : Num) : Num :=
  match a, b with
  | .nan, _ => .nan
  | _, .nan => .nan
  | .inf s, .inf t => .inf (s != t)
  | .inf s, .fin t m _ => if m = 0 then .nan else .inf (s != t)
  | .fin s m _, .inf t => if m = 0 then .nan else .inf (s != t)
  | .fin s m e, .fin t n g => .fin (s != t) (m * n) (e + g)

/-- x × 2^k, exactly (R82). -/
def Num.scale (k : Int) : Num → Num
  | .fin s m e => .fin s m (e + k)
  | x => x

/-- Comparison of two values that are not NaN: the sign of a − b with +0 = −0. -/
def Num.cmp (a b : Num) : Int :=
  match a, b with
  | .inf s, .inf t => if s = t then 0 else if s then -1 else 1
  | .inf s, _ => if s then -1 else 1
  | _, .inf t => if t then 1 else -1
  | .fin s m e, .fin t n g =>
    let k := min e g
    let x := sgn s (atExp m e k) - sgn t (atExp n g k)
    if x < 0 then -1 else if x = 0 then 0 else 1
  | _, _ => 0

/-- The IEEE 754-2019 maximum: NaN if either is NaN, −0 below +0 (R100). True: `a` is the answer. -/
def Num.aboveEq (a b : Num) : Bool :=
  let c := Num.cmp a b
  decide (c > 0) || (decide (c = 0) && (!(a.isZero && a.sign) || (b.isZero && b.sign)))

/-- Quotient of two non-zero magnitudes with a sticky bit: 200 significant bits, the last set when inexact. -/
def quotSticky (m : Nat) (e : Int) (n : Nat) (g : Int) : Nat × Int :=
  let sh := 200 + Nat.log2 n
  let q := m * 2 ^ sh / n
  let r := m * 2 ^ sh % n
  (2 * q + (if r = 0 then 0 else 1), e - g - sh - 1)

/-- Integer square root, bit by bit from bit `i` down. -/
def isqrtFrom (x : Nat) : Nat → Nat → Nat
  | 0, r => r
  | i + 1, r =>
    let t := r + 2 ^ i
    isqrtFrom x i (if t * t ≤ x then t else r)

/-- floor of the square root. -/
def isqrt (x : Nat) : Nat := isqrtFrom x (Nat.log2 x / 2 + 1) 0

/-- Square root of a non-zero magnitude with a sticky bit. -/
def sqrtSticky (m : Nat) (e : Int) : Nat × Int :=
  let k : Int := if (e % 2 = 0) then e else e - 1
  let m' := (if e % 2 = 0 then m else 2 * m) * 2 ^ 400
  let r := isqrt m'
  (2 * r + (if r * r = m' then 0 else 1), k / 2 - 200 - 1)

end Sys2Proof.Machine
end

