-- ==== Sys2Proof/Machine/Convert.lean ====
section
/-! DEFINITION. Conversions and their rounding (R106 to R111), the brine generator (R112), block scales (R114 to
R116) and element formats (R194). -/

namespace Sys2Proof.Machine

/-- Tally counts of an operation by kind (R119). -/
structure Tally where
  sat    : Nat := 0
  nonfin : Nat := 0
  under  : Nat := 0
  deriving DecidableEq, Repr

def Tally.add (a b : Tally) : Tally :=
  { sat := a.sat + b.sat, nonfin := a.nonfin + b.nonfin, under := a.under + b.under }

def Tally.satOne : Tally := { sat := 1 }
def Tally.nonfinOne : Tally := { nonfin := 1 }
def Tally.underOne : Tally := { under := 1 }

/-- `brine_mix` (R112). -/
def brineMix (x : W64) : W64 :=
  let x := x ^^^ (x >>> 32)
  let x := x * 0xA3C59E174B2D6F81#64
  let x := x ^^^ (x >>> 29)
  let x := x * 0x8F31C6E527D9B40B#64
  x ^^^ (x >>> 32)

/-- `brine64` (R112). -/
def brine64 (seed step : W64) (tag : BitVec 16) (index : W64) : W64 :=
  let key := brineMix (seed ^^^ brineMix (step + 0x6A0D38F291BC457E#64))
  let ctr := (tag.setWidth 64 <<< 48) ||| (index &&& 0xFFFFFFFFFFFF#64)
  brineMix (key ^^^ brineMix (ctr + 0x3E57B2C90D18F6A4#64))

/-- `brine16` (R112): bits [63:48]. -/
def brine16 (seed step : W64) (tag : BitVec 16) (index : W64) : Nat := (brine64 seed step tag index).toNat / 2 ^ 48

/-- How a conversion rounds: to nearest even, or stochastically with the 16-bit draw (R107). -/
inductive Rnd where
  | rne
  | sr (r : Nat)
  deriving DecidableEq, Repr

/-- Round m × 2^e to a multiple of 2^k: the multiple. -/
def roundMul (m : Nat) (e k : Int) (mode : Rnd) : Nat :=
  if k ≤ e then atExp m e k
  else
    let sh := (k - e).toNat
    let d := m / 2 ^ sh
    let r := m % 2 ^ sh
    let up := match mode with
      | .rne => decide (2 ^ sh < 2 * r) || (decide (2 * r = 2 ^ sh) && decide (d % 2 = 1))
      | .sr draw => decide (draw < r * 65536 / 2 ^ sh)
    if up then d + 1 else d

/-- The overflow rule of R107: code and counts. -/
def Fmt.overflow (f : Fmt) (s sat : Bool) : Nat × Tally :=
  if sat then (f.signed s f.maxCode, Tally.satOne)
  else match f.sp with
    | .ieee => (f.signed s (f.maxCode + 1), Tally.nonfinOne)
    | _ => (f.nanCode, Tally.nonfinOne)

/-- Conversion of a finite non-zero value to a floating-point format (R107). -/
def Fmt.round (f : Fmt) (mode : Rnd) (sat : Bool) (s : Bool) (m : Nat) (e : Int) : Nat × Tally :=
  let top := match f.decode f.maxCode with | .fin _ mm me => (mm, me) | _ => (0, 0)
  if magLe (top.1 + 1) top.2 m e then f.overflow s sat
  else
    let k := max (flog2 m e) f.emin - f.mw
    let v := roundMul m e k mode
    if !(magLe v k top.1 top.2) then
      match mode with
      | .sr _ => (f.signed s f.maxCode, Tally.satOne)
      | .rne => f.overflow s sat
    else (f.signed s (f.encodeMag v k), if v = 0 then Tally.underOne else {})

/-- Conversion of any value to a floating-point format (R106, R107, R110). -/
def Fmt.convert (f : Fmt) (mode : Rnd) (sat : Bool) (x : Num) : Nat × Tally :=
  match x with
  | .nan => (f.nanCode, {})
  | .inf s => match f.sp with
    | .ieee => (f.signed s (f.maxCode + 1), {})
    | _ => (f.nanCode, {})
  | .fin s m e => if m = 0 then (f.signed s 0, {}) else f.round mode sat s m e

/-- Conversion to a two's-complement integer of `w` bits with limits (R110): NaN to 0, infinities to the limits,
each counted as saturated. `u` is the exponent of the unit. -/
def toInteger (lo hi : Int) (u : Int) (mode : Rnd) (x : Num) : Int × Tally :=
  match x with
  | .nan => (0, Tally.satOne)
  | .inf s => (if s then lo else hi, Tally.satOne)
  | .fin s m e =>
    let v := sgn s (roundMul m e u mode)
    if v < lo then (lo, Tally.satOne) else if hi < v then (hi, Tally.satOne) else (v, {})

/-- The floating-point format of a code of R194, for the codes that name one directly or as an MX element. -/
def elemFmt : Nat → Option Fmt
  | 0 => some fp32 | 1 => some bf16 | 2 => some fp16 | 3 => some e4m3 | 4 => some e5m2
  | 5 => some e4m3 | 6 => some e5m2 | 7 => some e3m2 | 8 => some e2m3 | 9 => some e2m1
  | 13 => some w48
  | _ => none

/-- Element width in bits of a format code (R69, R194); 0 for a reserved code. -/
def fmtWidth : Nat → Nat
  | 0 => 32 | 1 => 16 | 2 => 16 | 3 => 8 | 4 => 8 | 5 => 8 | 6 => 8 | 7 => 6 | 8 => 6 | 9 => 4
  | 10 => 8 | 11 => 8 | 12 => 32 | 13 => 48 | _ => 0

/-- Whether a format code is an MX format. -/
def isMx (f : Nat) : Bool := decide (5 ≤ f ∧ f ≤ 10)

/-- The exponent of the element format's largest binade (R114). -/
def mxEmax : Nat → Int
  | 5 => 8 | 6 => 15 | 7 => 4 | 8 => 2 | 9 => 2 | _ => 0

/-- The value of one element code of a format, MX scale byte given where the format is MX (R97 to R99). -/
def elemVal (f code scale : Nat) : Num :=
  if isMx f && decide (scale = 255) then .nan
  else
    let k : Int := if isMx f then (scale : Int) - 127 else 0
    match elemFmt f with
    | some g => (g.decode code).scale k
    | none =>
      let w := fmtWidth f
      let x := signed w code
      .fin (decide (x < 0)) x.natAbs (if f = 10 then k - 6 else 0)

/-- Bytes of `n` dense elements of a format, without scales. -/
def denseBytes (f n : Nat) : Nat := cdiv (n * fmtWidth f) 8

/-- Bytes of `n` elements and their block scales. -/
def elemBytes (f n : Nat) : Nat := denseBytes f n + (if isMx f then cdiv n 32 else 0)

/-- Split a little-endian number into `n` codes of `w` bits. -/
def splitCodes (w : Nat) : Nat → Nat → List Nat
  | 0, _ => []
  | n + 1, x => (x % 2 ^ w) :: splitCodes w n (x / 2 ^ w)

/-- Join codes of `w` bits into a number, first code lowest. -/
def joinCodes (w : Nat) : List Nat → Nat
  | [] => 0
  | c :: cs => c % 2 ^ w + 2 ^ w * joinCodes w cs

/-- The `n` element codes of a byte string, without scales: dense from bit 0. -/
def codesOf (f n : Nat) (bs : Bytes) : List Nat := splitCodes (fmtWidth f) n (leNat (bs.take (denseBytes f n)))

/-- The values of `n` elements held densely, block scales after them for an MX format. -/
def valuesOf (f n : Nat) (bs : Bytes) : List Num :=
  let scales := bs.drop (denseBytes f n)
  (codesOf f n bs).zipIdx.map fun ci => elemVal f ci.1 ((scales.getD (ci.2 / 32) 0).toNat)

/-- Dense bytes of codes. -/
def packCodes (f : Nat) (cs : List Nat) : Bytes := leBytes (denseBytes f cs.length) (joinCodes (fmtWidth f) cs)

/-- Conversion of one value to a format that carries no block scale (R107 to R110). -/
def convertPlain (f : Nat) (mode : Rnd) (sat : Bool) (x : Num) : Nat × Tally :=
  match elemFmt f with
  | some g => g.convert mode sat x
  | none =>
    if f = 12 then
      let r := toInteger (-(2 ^ 31)) (2 ^ 31 - 1) 0 mode x
      (unsigned 32 r.1, r.2)
    else
      let r := toInteger (-128) 127 0 mode x
      (unsigned 8 r.1, r.2)

/-- floor(log2 amax) of the finite non-zero values of a block; none when every value is zero. -/
def blockTop (xs : List Num) : Option Int :=
  xs.foldl (fun acc x => match x with
    | .fin _ m e => if m = 0 then acc else (match acc with | none => some (flog2 m e) | some t => some (max t (flog2 m e)))
    | _ => acc) none

/-- The current policy's scale exponent (R115). -/
def currentScale (f : Nat) (xs : List Num) : Int :=
  match blockTop xs with
  | none => -127
  | some t => max (-127) (min 127 (t - mxEmax f))

/-- Conversion of one element of a block at scale exponent `s`: code, counts, and whether it was set to ±M. -/
def convertMxElem (f : Nat) (s : Int) (mode : Rnd) (x : Num) : Nat × Tally :=
  match elemFmt f with
  | some g => g.convert mode true (x.scale (-s))
  | none =>
    let r := toInteger (-127) 127 (-6) mode (x.scale (-s))
    (unsigned 8 r.1, r.2)

/-- A converted block: scale byte, codes, counts, and whether it overflowed (R114). -/
structure Block where
  scale : Nat
  codes : List Nat
  tally : Tally
  ovf   : Bool
  deriving DecidableEq, Repr

/-- An element that a conversion takes: its value, how it rounds, its brine index, and whether its mask bit is set; a
masked-off element converts as +0 and gives no count (R131). -/
structure ConvIn where
  val : Num
  rnd : Rnd := .rne
  idx : Nat := 0
  on  : Bool := true
  deriving DecidableEq, Repr

/-- Conversion of a block with scale exponent `s` from its policy (R114). -/
def convertBlock (f : Nat) (s : Int) (xs : List ConvIn) : Block :=
  if xs.any fun x => !x.val.isFin then
    { scale := 255, codes := xs.map fun _ => 0,
      tally := { nonfin := (xs.filter fun x => x.val.isFin && x.on).length }, ovf := false }
  else
    let rs := xs.map fun x => convertMxElem f s x.rnd x.val
    { scale := (s + 127).toNat, codes := rs.map (·.1), tally := rs.foldl (fun t r => t.add r.2) {},
      ovf := rs.any fun r => decide (0 < r.2.sat) }

/-- An entry of a held-scale table (R116). -/
structure Held where
  scale : Nat
  seen  : Nat
  ovf   : Bool
  deriving DecidableEq, Repr

def Held.ofBytes (bs : Bytes) : Held :=
  { scale := leAt bs 0 1, seen := leAt bs 1 1, ovf := (leAt bs 2 1).testBit 0 }

def Held.toBytes (h : Held) : Bytes := leBytes 4 (pack [(8, h.scale), (8, h.seen), (1, if h.ovf then 1 else 0)])

/-- What a conversion with blocks of largest exponent `t` leaves in SEEN and OVF (R116). -/
def Held.note (h : Held) (f : Nat) (t : Option Int) (ovf : Bool) : Held :=
  let h := { h with ovf := h.ovf || ovf }
  match t with
  | none => h
  | some t =>
    let v := (max 0 (min 254 (t - mxEmax f + 127))).toNat
    { h with seen := if h.seen = 255 then v else max h.seen v }

/-- The update of R117 at a boundary that commits. -/
def Held.commit (h : Held) : Held :=
  let next := if h.seen = 255 then h.scale else h.seen
  let next := if h.ovf then max next (min (h.scale + 1) 254) else next
  { scale := next, seen := 255, ovf := false }

/-- The reset of R117 at an abort. -/
def Held.abort (h : Held) : Held := { h with seen := 255, ovf := false }

end Sys2Proof.Machine
end

