-- ==== Sys2Proof/Machine/Flags.lean ====
section
/-! DEFINITION. The tally and its flags (R119 to R122), the draws of a conversion (R111 to R113), and the held-scale
tables of the running step (R116, R117). -/

namespace Sys2Proof.Machine

/-- The tag that a count is charged to (R120): undeclared tags go to 0xFFFF. -/
def chargeTag (s : State) (tag : Nat) : Nat := if s.plan.plan.tags.contains tag then tag else 0xFFFF

/-- Charge counts to a tag (R120). -/
def chargeTally (tag : Nat) (t : Tally) (s : State) : State :=
  let g := chargeTag s tag * 4
  let m := Sparse.modify 0 s.stat.tRun g (· + t.sat)
  let m := Sparse.modify 0 m (g + 1) (· + t.nonfin)
  let m := Sparse.modify 0 m (g + 2) (· + t.under)
  { s with stat := { s.stat with tRun := m } }

/-- Set the unit's tally flags for the kinds that counted (R122). -/
def UnitSt.flag (u : UnitSt) (t : Tally) : UnitSt :=
  { u with fSat := u.fSat || decide (0 < t.sat), fNonfin := u.fNonfin || decide (0 < t.nonfin),
           fUnder := u.fUnder || decide (0 < t.under) }

/-- The draw of element `index` under the seed in force and the running step (R112, R113). -/
def drawOf (s : State) (tag index : Nat) : Nat :=
  brine16 (BitVec.ofNat 64 (num s 0x3C10 1)) (BitVec.ofNat 64 s.led.running) (BitVec.ofNat 16 tag) (BitVec.ofNat 64 index)

/-- How one element rounds: stochastic only when asked for and not overridden by 0x3C12:01. -/
def rndOf (s : State) (stochastic : Bool) (tag index : Nat) : Rnd :=
  if stochastic && decide (num s 0x3C12 1 = 0) then .sr (drawOf s tag index) else .rne

/-- The held-scale table declared for a tag (R116, R214). -/
def heldDecl (s : State) (tag : Nat) : Option HeldDecl := s.plan.plan.held.find? fun d => decide (d.tag = tag)

end Sys2Proof.Machine
end

