-- ==== Sys2Proof/Machine/Lock.lean ====
section
/-! DEFINITION. The lock of a unit: chamber geometry (R153, R158, R159), marks (R161), pair pointers (R195), and the
issue of a bundle's operations (R186 to R192). -/

namespace Sys2Proof.Machine

/-! ### Chambers -/

/-- A chamber-map entry (R158). -/
structure ChDef where
  row0    : Nat
  nrows   : Nat
  bank0   : Nat
  bw      : Nat
  kind    : Nat
  pair    : Bool
  readers : Nat
  writer  : Nat
  core    : Nat
  deriving DecidableEq, Repr

/-- Decode a chamber-map entry (R158). READERS counts the releases of a broadcast slot as those of a block chamber, since its
marks follow the same rules (R77, R161): a tile is used READERS + 1 times without a refill (R79; DEDUCED, log entry 189). -/
def ChDef.of (x : Nat) : ChDef :=
  { row0 := bits x 6 0, nrows := bits x 14 8 + 1, bank0 := bits x 20 16, bw := 2 ^ bits x 23 21, kind := bits x 26 24,
    pair := bit x 27, readers := if bits x 26 24 = 1 ∨ bits x 26 24 = 4 then bits x 30 28 + 1 else 1, writer := bits x 35 32, core := bits x 37 36 }

/-- The chamber map entry of chamber `k`. -/
def chDef (u : UnitSt) (k : Nat) : ChDef := ChDef.of (Sparse.get 0 u.chMap k).toNat

/-- Bytes of a chamber (R159). -/
def ChDef.size (d : ChDef) : Nat := d.nrows * d.bw * 64

/-- Lock offset of chamber byte `c` (R153, R159). -/
def ChDef.offset (d : ChDef) (c : Nat) : Nat :=
  (d.row0 + c / 64 / d.bw) * 2048 + (d.bank0 + c / 64 % d.bw) * 64 + c % 64

/-- Whether a bank row lies in a chamber. -/
def ChDef.holds (d : ChDef) (off : Nat) : Bool :=
  decide (d.kind ≠ 0) && decide (d.row0 ≤ off / 2048) && decide (off / 2048 < d.row0 + d.nrows) &&
    decide (d.bank0 ≤ off / 64 % 32) && decide (off / 64 % 32 < d.bank0 + d.bw)

/-- Chamber byte of a lock offset that lies in it. -/
def ChDef.byteOf (d : ChDef) (off : Nat) : Nat :=
  ((off / 2048 - d.row0) * d.bw + (off / 64 % 32 - d.bank0)) * 64 + off % 64

/-- The chamber that a lock offset lies in. -/
def chamberAt (u : UnitSt) (off : Nat) : Option Nat := (List.range 64).find? fun k => (chDef u k).holds off

def getCh (u : UnitSt) (k : Nat) : Chamber := Sparse.get {} u.chs k
def setCh (u : UnitSt) (k : Nat) (c : Chamber) : UnitSt := { u with chs := Sparse.set {} u.chs k c }

/-- The member of a pair that a pointer names; an unpaired chamber itself (R195). -/
def member (u : UnitSt) (k : Nat) (ptr : Sparse Bool) : Nat :=
  if (chDef u k).pair then k / 2 * 2 + (if Sparse.get false ptr (k / 2) then 1 else 0) else k

def flipPtr (m : Sparse Bool) (k : Nat) : Sparse Bool := Sparse.modify false m (k / 2) (!·)

/-- Bytes of a chamber as a given engine state holds them. -/
def chBytes (u : UnitSt) (e : Eng) (k c n : Nat) : Bytes :=
  (List.range n).map fun i => Sparse.get 0 e.lock ((chDef u k).offset (c + i))

/-- Write bytes into a chamber's banks. -/
def chStore (u : UnitSt) (k c : Nat) (bs : Bytes) (e : Eng) : Eng :=
  { e with lock := bs.zipIdx.foldl (fun m bi => Sparse.set 0 m ((chDef u k).offset (c + bi.2)) bi.1) e.lock }

/-- Bytes that every reader sees at once: those of a stream, and the zeros behind a chamber's last byte. -/
def chLand (u : UnitSt) (k c : Nat) (bs : Bytes) : UnitSt :=
  { u with cur := chStore u k c bs u.cur, old := chStore u k c bs u.old }

/-- The bytes between LEN and the end of its bank row read as zero (R164). -/
def padRow (u : UnitSt) (k len : Nat) : UnitSt := chLand u k len (zeros (roundUp len 64 - len))

/-- Mark a block chamber full (R161): none where it is full already. LEN is the extent written. -/
def markFull (u : UnitSt) (k : Nat) (isEnd fault : Bool) : Option UnitSt :=
  let c := getCh u k
  if c.full then none
  else some (setCh (padRow u k c.filled) k
    { c with full := true, isEnd := isEnd, fault := fault, len := c.filled, releases := 0 })

/-- One release of a block chamber (R161): none where it is empty; true with the release that empties it. -/
def release1 (u : UnitSt) (k : Nat) : Option (UnitSt × Bool) :=
  let c := getCh u k
  if !c.full then none
  else if (chDef u k).readers ≤ c.releases + 1 then some (setCh u k {}, true)
  else some (setCh u k { c with releases := c.releases + 1 }, false)

/-- A release by any reader; the release that empties the member named by the read pointer moves it (R161, R195). -/
def releaseCh (u : UnitSt) (k : Nat) : Option UnitSt :=
  match release1 u k with
  | none => none
  | some (u', emptied) =>
    some (if emptied && (chDef u k).pair && decide (member u k u.rptr = k) then { u' with rptr := flipPtr u'.rptr k } else u')

/-! ### Issue -/

/-- The outcome of one operation of a bundle: done, held (R202), held with its arrival at a gate counted (GSYNC), or a
unit fault; `cause` 2 is an invalid record word (R192), 0 any other. -/
inductive OpRes where
  | ok (s : State)
  | wait (h : Hold)
  | arrived (s : State) (h : Hold)
  | fault (cause : Nat)

/-- What an operation does on physical unit `p`. -/
abbrev SlotFn := Nat → State → OpRes

/-- The physical unit on which an operation may issue: the logical unit is mapped, a step runs on a running card, and
the unit is neither ended nor stopped. A clean halt and an abort stop issue at a bundle boundary, since a bundle issues
as a whole (R186, R189). -/
def canIssue (s : State) (i : Issue) : Option Nat :=
  match physUnit s i.unit.val with
  | none => none
  | some p =>
    let u := getUnit s p
    let step := (decide (s.led.st = .opened) || decide (s.led.st = .updating)) && !s.led.waiting
    if step && decide (s.keep.dev = .running) && !u.ended && !u.stopped then some p else none

/-- A bundle has issued: its writes become what the next bundle reads (R133), and the sequencer goes to the next bundle
or the branch target. -/
def finishBundle (p : Nat) (s : State) : State :=
  countRun 0x5042 (p + 1) 1 (modUnit p (fun u => { u with
    hold := none, slots := [], old := u.cur, tap := none, vp1New := 0, branch := none,
    bundle := u.branch.getD ((u.bundle + 1) % 4096) }) s)

/-- The words of an operation record with the index register applied (R192): none for a modified word number of 15. -/
def recWords (u : UnitSt) (rix isel : Nat) : Option (List Nat) :=
  let r := (Sparse.get 0 u.recs rix).toNat
  let ws := (List.range 16).map fun k => r / 2 ^ (32 * k) % 2 ^ 32
  let xw := r / 2 ^ 480 % 16
  let i := if isel = 0 then 0 else (Sparse.get 0 u.i isel).toNat
  if xw = 15 then none
  else some (ws.set xw ((ws.getD xw 0 + i) % 2 ^ 32))

/-- An operation on its decoded record words; an invalid record is a unit fault with cause 2 (R192). -/
def onRec (rix : BitVec 11) (isel : Fin 8) (f : List Nat → SlotFn) : SlotFn := fun p s =>
  match recWords (getUnit s p) rix.toNat isel.val with
  | none => .fault 2
  | some w => f w p s

/-- An operation that changes its unit alone and never waits. -/
def onUnit (f : UnitSt → UnitSt) : SlotFn := fun p s => .ok (modUnit p f s)

/-- Word k of a record. -/
def wd (w : List Nat) (k : Nat) : Nat := w.getD k 0

end Sys2Proof.Machine
end

