-- ==== Sys2Proof/Machine/Transc.lean ====
section
/-! DEFINITION. The transcendental functions of R135, rounded correctly into fp32. Each irrational result is
computed to more than 200 bits and given a sticky bit before its one rounding (DEDUCED, log entry 20). -/

namespace Sys2Proof.Machine

/-- Fraction bits of the fixed-point work. -/
def fxBits : Nat := 300

/-- Σ z^(2k+1) / (2k+1) for k < n, z and its powers in fixed point: `p` is z^(2k+1), `zz` is z². -/
def atanhSum (zz : Nat) : Nat → Nat → Nat → Nat
  | 0, _, _ => 0
  | n + 1, k, p => p / (2 * k + 1) + atanhSum zz n (k + 1) (p * zz / 2 ^ fxBits)

/-- atanh of a/b in fixed point, for a/b at most 1/3. -/
def atanhFx (a b : Nat) : Nat :=
  let z := a * 2 ^ fxBits / b
  atanhSum (z * z / 2 ^ fxBits) 100 0 z

/-- ln 2 in fixed point. -/
def ln2Fx : Nat := 2 * atanhFx 1 3

/-- Σ y^k / k! from the term `t` on, in fixed point. -/
def expSum (y : Nat) : Nat → Nat → Nat → Nat
  | 0, _, _ => 0
  | n + 1, k, t => t + expSum y n (k + 1) (t * y / 2 ^ fxBits / k)

/-- 2^f in fixed point for a fixed-point f in [0, 1). -/
def exp2Fx (f : Nat) : Nat := expSum (f * ln2Fx / 2 ^ fxBits) 80 1 (2 ^ fxBits)

/-- 2^x as an exact value or one with a sticky bit, for finite x of moderate size. -/
def exp2Num (x : Num) : Num :=
  match x with
  | .nan => .nan
  | .inf s => if s then .fin false 0 0 else .inf false
  | .fin s m e =>
    if magLe 1 8 m e then (if s then .fin false 1 (-400) else .fin false 1 400)
    else
      let k := min e 0
      let v := sgn s (atExp m e k)
      let n := v / 2 ^ (-k).toNat
      let fr := (v % 2 ^ (-k).toNat).toNat
      if fr = 0 then .fin false 1 n
      else .fin false (2 * exp2Fx (fr * 2 ^ fxBits / 2 ^ (-k).toNat) + 1) (n - fxBits - 1)

/-- EXP2 (R135): fp32 code and counts. An input above 128 overflows, a result that rounds to 0 underflows. -/
def exp2Code (x : Num) : Nat × Tally :=
  match x with
  | .nan => (fp32.nanCode, {})
  | .inf s => if s then (0, {}) else (0x7F800000, {})
  | _ => fp32.convert .rne false (exp2Num x)

/-- log2 of m × 2^e for `m ≠ 0`, exact for a power of two, with a sticky bit otherwise. -/
def log2Num (m : Nat) (e : Int) : Num :=
  let p := Nat.log2 m
  let n := (p : Int) + e
  if m = 2 ^ p then .fin (decide (n < 0)) n.natAbs 0
  else
    let l := 2 * atanhFx (m - 2 ^ p) (m + 2 ^ p) * 2 ^ fxBits / ln2Fx
    let v := n * 2 ^ fxBits + l
    .fin (decide (v < 0)) (2 * v.natAbs + 1) (-(fxBits : Int) - 1)

/-- LOG2 (R135). -/
def log2Code (x : Num) : Nat × Tally :=
  match x with
  | .nan => (fp32.nanCode, {})
  | .inf s => if s then (fp32.nanCode, Tally.nonfinOne) else (0x7F800000, {})
  | .fin s m e =>
    if m = 0 then (0xFF800000, Tally.nonfinOne)
    else if s then (fp32.nanCode, Tally.nonfinOne)
    else fp32.convert .rne false (log2Num m e)

/-- RCP (R135). -/
def rcpCode (x : Num) : Nat × Tally :=
  match x with
  | .nan => (fp32.nanCode, {})
  | .inf s => (fp32.signed s 0, {})
  | .fin s m e =>
    if m = 0 then (fp32.signed s 0x7F800000, Tally.nonfinOne)
    else
      let q := quotSticky 1 0 m e
      fp32.convert .rne false (.fin s q.1 q.2)

/-- RSQRT (R135). -/
def rsqrtCode (x : Num) : Nat × Tally :=
  match x with
  | .nan => (fp32.nanCode, {})
  | .inf s => if s then (fp32.nanCode, Tally.nonfinOne) else (0, {})
  | .fin s m e =>
    if m = 0 then (fp32.signed s 0x7F800000, Tally.nonfinOne)
    else if s then (fp32.nanCode, Tally.nonfinOne)
    else
      let m' := if e % 2 = 0 then m else 2 * m
      let e' := if e % 2 = 0 then e else e - 1
      let k := 200 + Nat.log2 m'
      let r := isqrt (2 ^ (2 * k) / m')
      fp32.convert .rne false (.fin false (2 * r + (if r * r * m' = 2 ^ (2 * k) then 0 else 1)) (-(e' / 2) - k - 1))

/-- Quotient a / b (R135): value before rounding and counts of a division by zero or an invalid operation. -/
def divNum (a b : Num) : Num × Tally :=
  match a, b with
  | .nan, _ => (.nan, {})
  | _, .nan => (.nan, {})
  | .inf _, .inf _ => (.nan, Tally.nonfinOne)
  | .inf s, .fin t _ _ => (.inf (s != t), {})
  | .fin s _ _, .inf t => (.fin (s != t) 0 0, {})
  | .fin s m e, .fin t n g =>
    if n = 0 then (if m = 0 then (.nan, Tally.nonfinOne) else (.inf (s != t), Tally.nonfinOne))
    else if m = 0 then (.fin (s != t) 0 0, {})
    else
      let q := quotSticky m e n g
      (.fin (s != t) q.1 q.2, {})

/-- Square root before rounding, and counts (R135). -/
def sqrtNum (x : Num) : Num × Tally :=
  match x with
  | .nan => (.nan, {})
  | .inf s => if s then (.nan, Tally.nonfinOne) else (.inf false, {})
  | .fin s m e =>
    if m = 0 then (.fin s 0 0, {})
    else if s then (.nan, Tally.nonfinOne)
    else
      let r := sqrtSticky m e
      (.fin false r.1 r.2, {})

end Sys2Proof.Machine
end

