-- ==== Sys2Proof/Machine/Operands.lean ====
section
/-! DEFINITION. Operand words (R193), the reading of sources and the writing of destinations (R128 to R133). A register
group is read as its 2 KiB registers in order, lane by lane, which gives the layouts of R128. -/

namespace Sys2Proof.Machine

/-- An operand of R193. -/
inductive Operand where
  | none
  | reg (v : Nat)
  | seg (v w : Nat)
  | imm
  | lock (pair : Bool) (off : Nat)
  | vp0
  | vp1
  | vout
  | mbx (core : Nat)
  | tap
  | arrPort
  | batch
  | mask (k : Nat)
  deriving DecidableEq, Repr

/-- Decode an operand word: reserved kinds and bits above those of the kind are invalid (R193). -/
def decodeOw (x : Nat) : Option Operand :=
  let lim (hi : Nat) (o : Operand) : Option Operand := if x < 2 ^ (hi + 1) then some o else none
  match x % 16 with
  | 0 => lim 3 .none
  | 1 => lim 8 (.reg (bits x 8 4))
  | 2 => lim 22 (.seg (bits x 8 4) (bits x 22 9 + 1))
  | 3 => lim 3 .imm
  | 4 => lim 16 (.lock (bit x 4) (bits x 16 5 * 64))
  | 5 => lim 3 .vp0
  | 6 => lim 3 .vp1
  | 7 => lim 3 .vout
  | 8 => lim 5 (.mbx (bits x 5 4))
  | 9 => lim 3 .tap
  | 10 => lim 3 .arrPort
  | 11 => lim 3 .batch
  | 12 => lim 6 (.mask (bits x 6 4))
  | _ => none

/-- Bytes of a register group. -/
def regBytes (e : Eng) (v start n : Nat) : Bytes :=
  (List.range n).map fun i =>
    let b := start + i
    BitVec.ofNat 8 ((Sparse.get 0 e.v (v * 512 + b / 4)).toNat / 256 ^ (b % 4))

/-- Replace one byte of a register group. -/
def setRegByte (v : Nat) (e : Eng) (b : Nat) (x : Byte) : Eng :=
  { e with v := Sparse.modify 0 e.v (v * 512 + b / 4) fun w =>
      BitVec.ofNat 32 (w.toNat - w.toNat / 256 ^ (b % 4) % 256 * 256 ^ (b % 4) + x.toNat * 256 ^ (b % 4)) }

def setRegBytes (v start : Nat) (bs : Bytes) (e : Eng) : Eng :=
  bs.zipIdx.foldl (fun e bi => setRegByte v e (start + bi.2) bi.1) e

/-- Bit `e` of mask register `k`; k0 reads as ones (R131). -/
def maskBit (e : Eng) (k i : Nat) : Bool := if k = 0 then true else Sparse.get true e.k (k * 16384 + i)

/-- Write bit `i` of mask register `k`; writes of k0 are ignored. -/
def setMaskBit (k : Nat) (e : Eng) (i : Nat) (b : Bool) : Eng :=
  if k = 0 then e else { e with k := Sparse.set true e.k (k * 16384 + i) b }

/-- What reading a source gives: the unit with its ports advanced, and the element bytes; or a wait; or a fault. -/
inductive Fetch (α : Type) where
  | ok (u : UnitSt) (a : α)
  | wait (h : Hold)
  | fault (cause : Nat)

/-- What is left of the stretches of a port whose first `n` bytes are gone. -/
def dropOwners : Nat → List (Nat × Nat) → List (Nat × Nat)
  | _, [] => []
  | n, (a, m) :: os => if n < m then (a, m - n) :: os else dropOwners (n - m) os

/-- Take `n` bytes of a port in order: past the end mark a unit fault, short of data a wait (R132, R165). -/
def takePort (p : Port) (n : Nat) : Option (Bytes × Port) :=
  if n ≤ p.data.length then some (p.data.take n, { p with data := p.data.drop n, owners := dropOwners n p.owners }) else none

/-- Take `n` bytes of VP1: of those that stood there before the bundle (R133). -/
def takeVp1 (u : UnitSt) (n : Nat) : Fetch Bytes :=
  match (if u.vp1.data.length < u.vp1New + n then none else takePort u.vp1 n) with
  | some (bs, p) => .ok { u with vp1 := p } bs
  | none => if u.vp1.ended then .fault 0 else .wait .notReady

/-- Read `n` bytes from a lock operand of a reader (R161, R195): waits while the chamber is empty or faulted. -/
def fetchLock (u : UnitSt) (pair : Bool) (off n : Nat) : Fetch Bytes :=
  match chamberAt u off with
  | none => .fault 2
  | some k0 =>
    let c := (chDef u k0).byteOf off
    let k := if pair then member u k0 u.rptr else k0
    if (chDef u k).kind ≠ 1 ∨ (chDef u k).size < c + n then .fault 2
    else if !(getCh u k).full || (getCh u k).fault then .wait .notReady
    else .ok u (chBytes u u.old k c n)

/-- Read `n` elements' bytes from a byte source. An instruction that takes more from VP0 than the port holds waits for as many
bytes as it still lacks, and its streams go on meanwhile (R132). -/
def fetchBytes (u : UnitSt) (o : Operand) (n : Nat) : Fetch Bytes :=
  match o with
  | .reg v => if 32 * 2048 < v * 2048 + n then .fault 2 else .ok u (regBytes u.old v 0 n)
  | .lock pair off => fetchLock u pair off n
  | .vp0 => match takePort u.vp0 n with
    | some (bs, p) => .ok { u with vp0 := p } bs
    | none => if u.vp0.ended then .fault 0 else .wait (.port (n - u.vp0.data.length))
  | .vp1 => takeVp1 u n
  | _ => .fault 2

/-- Elements of an MX format from the pan input port. A drained row comes there as its blocks, each block's scale byte
behind its codes; what is left of a block that an instruction reads in part is passed over (DESIGN CHOICE, log entry 6). -/
def fetchBlocks (u : UnitSt) (f n : Nat) : Fetch (List (Nat × Nat)) :=
  let nb := denseBytes f 32
  match takeVp1 u (cdiv n 32 * (nb + 1)) with
  | .ok u bs => .ok u
      (((chunks (nb + 1) (cdiv n 32) bs).flatMap fun b => (codesOf f 32 b).map fun c => (c, (b.getD nb 0).toNat)).take n)
  | .wait h => .wait h
  | .fault c => .fault c

/-- Element codes of a vector or reduction source with each element's scale byte (127 where the format has none).
`w5` is the record's immediate. DESIGN CHOICES (log entry 190): in a register group elements narrower than 16 bits lie dense and
the scale bytes of an MX format behind the codes; an element narrower than 32 bits is the low bits of an immediate or of a mailbox
entry. -/
def fetchElems (u : UnitSt) (o : Operand) (f n w5 : Nat) : Fetch (List (Nat × Nat)) :=
  let withScales (bs : Bytes) (m : Nat) : List (Nat × Nat) :=
    let sc := bs.drop (denseBytes f m)
    (codesOf f m bs).zipIdx.map fun ci => (ci.1, if isMx f then (sc.getD (ci.2 / 32) 0).toNat else 127)
  match o with
  | .imm => .ok u (List.replicate n (w5 % 2 ^ fmtWidth f, 127))
  | .mbx c =>
    let core := Sparse.get {} u.cores c
    match core.outbox with
    | [] => .wait .notReady
    | x :: xs => if x.msb then .wait .notReady else .ok { u with cores := Sparse.set {} u.cores c { core with outbox := xs } }
        (List.replicate n (x.toNat % 2 ^ fmtWidth f, 127))
  | .seg v w =>
    let m := cdiv n w
    let nb := elemBytes f m
    if 32 * 2048 < v * 2048 + nb then .fault 2
    else
      let es := withScales (regBytes u.old v 0 nb) m
      .ok u ((List.range n).map fun e => es.getD (e / w) (0, 127))
  | o =>
    if o = .vp1 ∧ isMx f = true then fetchBlocks u f n
    else match fetchBytes u o (elemBytes f n) with
      | .ok u bs => .ok u (withScales bs n)
      | .wait h => .wait h
      | .fault c => .fault c

/-- The result of an element-wise operation: each element's code with its participation, and block scales. -/
structure Elems where
  fmt    : Nat
  codes  : List (Nat × Bool)
  scales : List Nat
  deriving DecidableEq, Repr

/-- The bytes to store over the bytes `old`: masked-off elements keep their codes under merge and are +0 under zero
(R131). -/
def Elems.bytes (x : Elems) (zero : Bool) (old : Bytes) : Bytes :=
  let oc := codesOf x.fmt x.codes.length old
  let cs := x.codes.zipIdx.map fun ci => if ci.1.2 then ci.1.1 else if zero then 0 else oc.getD ci.2 0
  packCodes x.fmt cs ++ x.scales.map fun n => BitVec.ofNat 8 n

/-- Chamber writers of R158. -/
inductive Writer where
  | drain | vector | reduction
  deriving DecidableEq, Repr

def Writer.code : Writer → Nat
  | .drain => 1 | .vector => 2 | .reduction => 3

/-- A store by an engine into the lock (R161, R195): the wrong writer is a unit fault, a full chamber a wait. `f` makes
the new bytes from the old ones. -/
def storeLock (u : UnitSt) (wr : Writer) (pair : Bool) (off n : Nat) (f : Bytes → Bytes) : Fetch Unit :=
  match chamberAt u off with
  | none => .fault 2
  | some k0 =>
    let c := (chDef u k0).byteOf off
    let k := if pair then member u k0 u.wptr else k0
    let d := chDef u k
    if d.size < c + n then .fault 2
    else if d.kind ≠ 1 ∨ d.writer ≠ wr.code then .fault 0
    else if (getCh u k).full then .wait .notReady
    else
      let u := { u with cur := chStore u k c (f (chBytes u u.cur k c n)) u.cur }
      .ok (setCh u k { getCh u k with filled := max (getCh u k).filled (c + n) }) ()

/-- Write elements to a destination (R130, R131). -/
def storeElems (u : UnitSt) (wr : Writer) (o : Operand) (zero : Bool) (x : Elems) : Fetch Unit :=
  let n := x.codes.length
  let nb := elemBytes x.fmt n
  match o with
  | .reg v =>
    if 32 * 2048 < v * 2048 + nb then .fault 2
    else .ok { u with cur := setRegBytes v 0 (x.bytes zero (regBytes u.cur v 0 nb)) u.cur } ()
  | .lock pair off => storeLock u wr pair off nb (x.bytes zero)
  | .vout => .ok { u with vout := { u.vout with data := u.vout.data ++ x.bytes true [] } } ()
  | _ => .fault 2

end Sys2Proof.Machine
end

