-- ==== Sys2Proof/Machine/Arrays.lean ====
section
/-! DEFINITION. The matrix arrays: loads, passes, drains and fills (R66 to R87), the column sum (R103, R104, R124),
and the batcher (R91 to R93). -/

namespace Sys2Proof.Machine

/-! ### The column sum -/

/-- The aligned sum of a row's products with `below` bits kept under the largest exponent (R104, R124). -/
def alignedSum (below : Nat) (ps : List Num) : Num :=
  if ps.any Num.isNan then .nan
  else if ps.any (· == .inf false) && ps.any (· == .inf true) then .nan
  else if ps.any (· == .inf false) then .inf false
  else if ps.any (· == .inf true) then .inf true
  else match blockTop ps with
    | none => .fin (ps.all fun p => p.isZero && p.sign) 0 0
    | some e =>
      let acc := ps.foldl (fun (a : Int) p => match p with
        | .fin s m x => a + sgn s (atExp m x (e - below))
        | _ => a) 0
      .fin (decide (acc < 0)) acc.natAbs (e - below)

/-- The new pan entry for one activation row and one column (R104). `base` is −0 in write mode (R80). -/
def columnAdd (base : Num) (ps : List Num) : Nat := (w48.convert .rne false (base.add (alignedSum 40 ps))).1

/-- One group of 32 products into the fp32 accumulator (R124). -/
def epmanGroups : Nat → Num → List Num → Num
  | 0, acc, _ => acc
  | g + 1, acc, ps =>
    epmanGroups g (fp32.decode (fp32.convert .rne false (acc.add (alignedSum 25 (ps.take 32)))).1) (ps.drop 32)

/-- The new pan entry in Epman mode (R124). -/
def epmanColumnAdd (base : Num) (ps : List Num) : Nat :=
  let start := fp32.decode (fp32.convert .rne false base).1
  (w48.convert .rne false (epmanGroups (ps.length / 32) start ps)).1

/-- −0 as a pan entry, and its code (R80). -/
def panZero : W48 := 0x800000000000#48

/-! ### Formats -/

/-- K_t of a format pair: by the wider operand (R69). -/
def ktOf (af wf : Nat) : Nat :=
  let w := max (fmtWidth af) (fmtWidth wf)
  if w = 32 then 64 else if w = 16 then 64 else if w = 8 then 128 else 256

/-- Class of an operand for the pair rules (R70): 0 fp32, 1 16-bit, 2 8-bit floating or MX, 3 INT8; none otherwise. -/
def pairClass : Nat → Option Nat
  | 0 => some 0 | 1 => some 1 | 2 => some 1
  | 3 => some 2 | 4 => some 2 | 5 => some 2 | 6 => some 2 | 7 => some 2 | 8 => some 2 | 9 => some 2 | 10 => some 2
  | 11 => some 3
  | _ => none

/-- Whether a format pair is permitted (R70). -/
def pairOk (af wf : Nat) : Bool :=
  match pairClass af, pairClass wf with
  | some 0, some c => decide (c ≤ 1)
  | some c, some 0 => decide (c ≤ 1)
  | some 3, some 3 => true
  | some 3, some _ => false
  | some _, some 3 => false
  | some _, some _ => true
  | _, _ => false

/-- Whether a pair may run in Epman mode (R123). -/
def epmanOk (af wf : Nat) : Bool :=
  (af = 1 && wf = 1) || (af = 2 && wf = 2) || ((af = 3 || af = 4) && (wf = 3 || wf = 4))

/-- Bytes of an activation row, and its pitch in a chamber or port: rounded up to 16 B (R71; the pitch is a DESIGN
CHOICE, log entry 6). -/
def rowPitch (af kt : Nat) : Nat := roundUp (elemBytes af kt) 16

/-- Bytes of a weight tile in a chamber or port: the scale bytes of an MX block after its first cell row (R71). -/
def tileBytes (wf kt : Nat) : Nat := kt * 64 * fmtWidth wf / 8 + (if isMx wf then kt / 32 * 64 else 0)

/-- Weights of row `k` of a tile, one per column: products per cell p = K_t / 64, rows of a cell row in ascending
order, each dense (DESIGN CHOICE, log entry 6). -/
def tileRow (t : Tile) (wf kt k : Nat) : List Num :=
  let p := kt / 64
  let rb := 64 * fmtWidth wf / 8
  let b := k / 32                                      -- block of the row
  let first := b * 32 / p                              -- the block's first cell row
  let scaled := if isMx wf then (if k / p = first then b else b + 1) else 0   -- scale groups before this cell row
  let bs := slice t.data (k * rb + scaled * 64) rb
  let sAt := (first + 1) * p * rb + b * 64
  (codesOf wf 64 bs).zipIdx.map fun cj => elemVal wf cj.1 ((t.data.getD (sAt + cj.2) 0).toNat)

/-- The weights of a tile, row by row; with no tile every weight is +0 (R86). -/
def tileRows (t : Option Tile) (wf kt : Nat) : List (List Num) :=
  match t with
  | some t => (List.range kt).map (tileRow t wf kt)
  | none => List.replicate kt (List.replicate 64 (.fin false 0 0))

/-! ### Pans -/

def panKey (arr row col : Nat) : Nat := (arr * 256 + row) * 64 + col

def panGet (u : UnitSt) (arr row col : Nat) : W48 := Sparse.get panZero u.pans (panKey arr row col)

def panSet (u : UnitSt) (arr row col : Nat) (v : W48) : UnitSt :=
  { u with pans := Sparse.set panZero u.pans (panKey arr row col) v }

/-- A row's produced marker (R121). -/
def rowMark (u : UnitSt) (arr row : Nat) : Bool := Sparse.get false u.marks (arr * 256 + row)
def setRowMark (u : UnitSt) (arr row : Nat) (b : Bool) : UnitSt :=
  { u with marks := Sparse.set false u.marks (arr * 256 + row) b }

/-- Add one activation row into a pan row (R68, R80, R104, R121, R124). -/
def addRow (arr row : Nat) (write epman : Bool) (tag : Nat) (acts : List Num) (tile : List (List Num)) (u : UnitSt) :
    UnitSt :=
  let u := if write then setRowMark u arr row false else u
  let u := { u with rowTags := Sparse.set 0 u.rowTags (arr * 256 + row) tag }
  (List.range 64).foldl (fun u j =>
    let ps := (acts.zip tile).map fun aw => aw.1.mul (aw.2.getD j (.fin false 0 0))
    let prev := w48.decode (panGet u arr row j).toNat
    let base := if write then .fin true 0 0 else prev
    let v := if epman then epmanColumnAdd base ps else columnAdd base ps
    let made := !(w48.decode v).isFin && base.isFin && ps.all Num.isFin
    let u := if made then setRowMark u arr row true else u
    panSet u arr row j (BitVec.ofNat 48 v)) u

/-! ### Array state -/

def getArr (u : UnitSt) (a : Nat) : ArraySt := Sparse.get {} u.arrays a
def setArr (a : Nat) (x : ArraySt) (u : UnitSt) : UnitSt := { u with arrays := Sparse.set {} u.arrays a x }

/-- The arrays named by a mask. -/
def maskArrays (m : Nat) : List Nat := (List.range 4).filter fun a => m.testBit a

/-- Whether a mask names only arrays that the variant has (R66). -/
def maskOk (s : State) (m : Nat) : Bool := (maskArrays m).all fun a => decide (a < s.strap.variant.arrays)

/-- A port that streams feed for an array: rows or weights. -/
def rowPortOf (u : UnitSt) (a : Nat) : Port := Sparse.get {} u.rowPort a
def wtPortOf (u : UnitSt) (a : Nat) : Port := Sparse.get {} u.wtPort a

/-- Load a tile into the shadow of every array of a mask (R74). -/
def loadShadow (mask : Nat) (t : Tile) (port : Option Nat) (u : UnitSt) : UnitSt :=
  (maskArrays mask).foldl (fun u a =>
    setArr a { getArr u a with shadow := some t, fresh := true, port := port } u) u

/-! ### Broadcast slots (R76 to R79) -/

/-- The operations of the array slot of a unit's program, in program order: bundle, opcode and record words. -/
def arrayOps (u : UnitSt) : List (Nat × Nat × List Nat) :=
  u.prog.filterMap fun kb =>
    let a := bits kb.2.toNat 55 0
    (recWords u (bits a 23 8) 0).map fun w => (kb.1, a % 256, w)

/-- K_t of a tile with weights `wf` for array `a`: that of the first pass on the array at bundle `b` or behind it in the
unit's program, and of the weights alone where there is none (DESIGN CHOICE, log entry 6). -/
def tileKt (u : UnitSt) (b a wf : Nat) : Nat :=
  match (arrayOps u).find? fun o => decide (o.2.1 = 3) && decide (b ≤ o.1) && (wd o.2.2 4).testBit a with
  | none => ktOf wf wf
  | some aps => ktOf (bits (wd aps.2.2 4) 24 21) wf

/-- The weight format and K_t by which the bytes of a slot are laid out: those of the largest tile that an ABC of the unit's
program takes from it. Each ABC takes a tile of its own format (DESIGN CHOICE, log entry 6: the stream itself names none). -/
def slotTile (u : UnitSt) (slot : Nat) : Nat × Nat :=
  let own := ((arrayOps u).filter fun o => decide (o.2.1 = 2) && decide (wd o.2.2 1 % 2 = slot)).map fun o =>
    let wf := bits (wd o.2.2 1) 7 4
    (wf, tileKt u o.1 0 wf)
  match own with
  | [] => (1, 64)
  | t :: ts => ts.foldl (fun m x => if tileBytes m.1 m.2 < tileBytes x.1 x.2 then x else m) t

/-- Bytes that fill a broadcast slot: its tile and any scales (R77). -/
def slotFill (u : UnitSt) (slot : Nat) : Nat := tileBytes (slotTile u slot).1 (slotTile u slot).2

/-- Where byte `x` of a tile goes in a broadcast slot (R71, R76): a byte of its banks, cell rows at a pitch of 128 B; or, on
the right, a byte of its scale entry. The scale bytes of a block come behind its first cell row. -/
def slotPlace (wf kt x : Nat) : Nat ⊕ Nat :=
  let rb := max 1 (kt * fmtWidth wf / 8)
  let bank (z : Nat) : Nat ⊕ Nat := .inl (z / rb * 128 + z % rb)
  if !isMx wf then bank x
  else
    let rows := 32 / (kt / 64)
    let blk := rows * rb + 64
    let b := x / blk
    let y := x % blk
    if y < rb then bank (b * rows * rb + y)
    else if y < rb + 64 then .inr (b * 64 + (y - rb))
    else bank (b * rows * rb + (y - 64))

/-- The first `n` bytes of the stream that filled a broadcast slot, from its banks and its scale entry. -/
def slotBytes (u : UnitSt) (e : Eng) (slot n : Nat) : Bytes :=
  let ft := slotTile u slot
  (List.range n).map fun x => match slotPlace ft.1 ft.2 x with
    | .inl z => Sparse.get 0 e.lock ((chDef u (30 + slot)).offset z)
    | .inr z => Sparse.get 0 u.bscale (slot * 512 + z % 512)

/-- Land bytes in a broadcast slot (R76, R77). -/
def landSlot (u : UnitSt) (slot : Nat) (bs : Bytes) (ended : Bool) : UnitSt :=
  let k := 30 + slot
  let ch := getCh u k
  let ft := slotTile u slot
  let u := bs.zipIdx.foldl (fun u bi =>
    match slotPlace ft.1 ft.2 (ch.filled + bi.2) with
    | .inl z => chLand u k z [bi.1]
    | .inr z => { u with bscale := Sparse.set 0 u.bscale (slot * 512 + z % 512) bi.1 }) u
  let fin := ch.filled + bs.length
  let full := decide (slotFill u slot ≤ fin) || ended
  let u := if full then (match slotPlace ft.1 ft.2 fin with | .inl z => padRow u k z | .inr _ => u) else u
  setCh u k { ch with filled := fin, full := full, isEnd := ended, len := fin }

/-- A reader's release of a slot of which it has taken `n` bytes: bytes behind them that have come already are the first of the
next tile. -/
def releaseSlot (u : UnitSt) (slot n : Nat) : Option UnitSt :=
  let k := 30 + slot
  let ch := getCh u k
  let rest := (slotBytes u u.cur slot ch.filled).drop n
  match release1 (setCh u k { ch with full := true }) k with
  | none => none
  | some (u, emptied) => some (if emptied && decide (n < ch.filled) then landSlot u slot rest ch.isEnd else u)

/-! ### Loads -/

/-- ALD (R85, R196): waits while an array of the mask still holds a tile that no pass has taken (R74). The whole
chamber rest from the operand is held, since the tile's size follows from the pass's pair; a port's bytes are taken
when the pass begins, from the weight port of the lowest array of the mask (DESIGN CHOICES, log entries 6 and 191). -/
def doAld (w : List Nat) (p : Nat) (s : State) : OpRes :=
  let u := getUnit s p
  let mask := wd w 1 % 16
  let wf := bits (wd w 1) 7 4
  if pairClass wf = none ∨ 2 ^ 8 ≤ wd w 1 ∨ maskOk s mask = false then .fault 2
  else if u.napArr then .wait .notReady
  else if (maskArrays mask).any fun a => (getArr u a).fresh then .wait .notReady
  else match decodeOw (wd w 0) with
    | some (.lock pair off) =>
      match chamberAt u off with
      | none => .fault 2
      | some k =>
        let d := chDef u k
        match fetchLock u pair off (min (tileBytes wf (ktOf wf wf)) (d.size - d.byteOf off)) with
        | .ok u bs => .ok (setUnit p (loadShadow mask { fmt := wf, data := bs } none u) s)
        | .wait h => .wait h
        | .fault c => .fault c
    | some .arrPort =>
      let src := (maskArrays mask).headD 0
      .ok (setUnit p (loadShadow mask { fmt := wf, data := [] } (some src) u) s)
    | _ => .fault 2

/-- Take the tile of `n` bytes from weight port `src` for every array of its load: none while its bytes are not all there. -/
def portLoad (src n : Nat) (u : UnitSt) : Option UnitSt :=
  match takePort (wtPortOf u src) n with
  | none => none
  | some (bs, q) =>
    let u := { u with wtPort := Sparse.set {} u.wtPort src q }
    some ((List.range 4).foldl (fun u b =>
      let x := getArr u b
      match x.shadow with
      | some t => if x.port = some src ∧ x.fresh = true then setArr b { x with shadow := some { t with data := bs }, port := none } u
          else u
      | none => u) u)

/-- A moving-front load into array 0 has ended when its bytes have come, all of them, from the port (R78): none while it is in
progress. -/
def loadEnded (u : UnitSt) : Option UnitSt :=
  let x := getArr u 0
  match x.fresh, x.port, x.shadow with
  | true, some src, some t => portLoad src (tileBytes t.fmt (tileKt u u.bundle 0 t.fmt)) u
  | _, _, _ => some u

/-- ABC (R78, R196): the slot must hold the tile that ABC names, or have ended, and no moving-front load into array 0 may be in
progress. It releases the slot as it reads it (R161), which empties the slot with the last of its READERS. -/
def doAbc (w : List Nat) (p : Nat) (s : State) : OpRes :=
  let u := getUnit s p
  let slot := wd w 1 % 2
  let wf := bits (wd w 1) 7 4
  let width := fmtWidth wf
  if pairClass wf = none ∨ width = 32 ∨ width = 6 ∨ 2 ^ 8 ≤ wd w 1 ∨ bits (wd w 1) 3 1 ≠ 0 then .fault 2
  else if (chDef u (30 + slot)).kind ≠ 4 then .fault 0
  else if u.napArr then .wait .notReady
  else
    let ch := getCh u (30 + slot)
    let n := tileBytes wf (tileKt u u.bundle 0 wf)
    let t : Tile := { fmt := wf, data := slotBytes u u.old slot (min n ch.filled) }
    if (!ch.full && decide (ch.filled < n)) || ch.fault then .wait .notReady
    else match (loadEnded u).bind fun u => releaseSlot u slot n with
    | none => .wait .notReady
    | some u =>
      let x := getArr u 0
      .ok (countRun 0x3810 5 1 (setUnit p (setArr 0 { x with bcast := some t, later := x.fresh } u) s))

/-- Take the tile that a pass on array `a` runs on: a broadcast tile or a fresh shadow tile, the one issued first first
(R79), or the active one. A tile still in the weight port is taken for every array of its load. none: its bytes are not
all there. -/
def takeTile (kt wf a : Nat) (u : UnitSt) : Option UnitSt :=
  let x := getArr u a
  match (if x.later && x.fresh then none else x.bcast) with
  | some t => some (setArr a { x with active := some t, bcast := none } u)
  | none =>
    if !x.fresh then some u
    else
      let got : Option UnitSt := match x.port with
        | none => some u
        | some src => portLoad src (tileBytes wf kt) u
      got.map fun u =>
        let x := getArr u a
        setArr a { x with active := x.shadow, fresh := false, port := none, later := false } u

/-- The closed buffer that a pass takes: the older of two (R92). -/
def closedBuf (u : UnitSt) : Option Nat :=
  if (Sparse.get {} u.batch u.bopen).closed then some u.bopen
  else if (Sparse.get {} u.batch (1 - u.bopen)).closed then some (1 - u.bopen)
  else none

/-- The rows of a pass on one array: row bytes and the tag + 1 of each, from a chamber, the row port or the batch
chamber (R85, R93). The row port is that of array `a`. A named array whose row source is of KIND 0 once the index register is added runs on rows of zeros
(DESIGN CHOICE, log entry 157). -/
def passRows (u : UnitSt) (o : Operand) (a n pitch : Nat) : Fetch (List (Bytes × Nat)) :=
  let cut (bs : Bytes) : List (Bytes × Nat) := (chunks pitch n bs).map fun r => (r, 0)
  match o with
  | .none => .ok u (List.replicate n (zeros pitch, 0))
  | .lock pair off => match fetchLock u pair off (n * pitch) with
    | .ok u bs => .ok u (cut bs)
    | .wait h => .wait h
    | .fault c => .fault c
  | .arrPort => match takePort (rowPortOf u a) (n * pitch) with
    | some (bs, q) => .ok { u with rowPort := Sparse.set {} u.rowPort a q } (cut bs)
    | none => if (rowPortOf u a).ended then .fault 0 else .wait .notReady
  | .batch => match closedBuf u with
    | none => .wait .notReady
    | some b => .ok u ((Sparse.get {} u.batch b).rows.map fun r => (takePad pitch r.1, r.2.toNat + 1))
  | _ => .fault 2

/-- A pass on one array. -/
def passOne (o : Operand) (a n base : Nat) (write epman : Bool) (af wf : Nat) (u : UnitSt) : Fetch Nat :=
  let kt := ktOf af wf
  match passRows u o a n (rowPitch af kt) with
  | .wait h => .wait h
  | .fault c => .fault c
  | .ok u rows =>
    match takeTile kt wf a u with
    | none => if (wtPortOf u ((getArr u a).port.getD 0)).ended then .fault 0 else .wait .notReady
    | some u =>
      let tile := tileRows (getArr u a).active wf kt
      .ok (rows.zipIdx.foldl (fun u ri =>
        addRow a ((base + ri.2) % 256) write epman ri.1.2 (valuesOf af kt ri.1.1) tile u) u) rows.length

/-- The passes of one APS, array by array. -/
def passAll (ops : List (Nat × Operand)) (n base : Nat) (write epman : Bool) (af wf : Nat) : UnitSt → Nat → Fetch Nat :=
  ops.foldr (fun ao rest u k =>
    match passOne ao.2 ao.1 n base write epman af wf u with
    | .wait h => .wait h
    | .fault c => .fault c
    | .ok u m => rest u (k + m)) (fun u k => .ok u k)

/-! ### The batcher -/

/-- The fill target and the close of the open buffer (R92): the other buffer opens. -/
def fillTarget (s : State) : Nat := let o := num s 0x3808 2; if o = 0 then s.plan.plan.fill else o

def closeBuf (p : Nat) (stat : Nat) (s : State) : State :=
  let u := getUnit s p
  let b := Sparse.get {} u.batch u.bopen
  countRun 0x3810 stat 1 (setUnit p { u with batch := Sparse.set {} u.batch u.bopen { b with closed := true },
                                             bopen := 1 - u.bopen } s)

/-- A row enters the open buffer with its tag (R91); with both buffers closed it waits where it is. -/
def batchPush (p : Nat) (row : Bytes) (tag : BitVec 32) (s : State) : State :=
  let u := getUnit s p
  let b := Sparse.get {} u.batch u.bopen
  if b.closed then s
  else
    let b := { b with rows := b.rows ++ [(row, tag)] }
    let s := setUnit p { u with batch := Sparse.set {} u.batch u.bopen b } s
    if fillTarget s ≤ b.rows.length then closeBuf p 6 s else s

/-! ### Outbound mailboxes (R150) -/

/-- Number of entries of each mailbox (R150). -/
def mbxDepth : Nat := 16

def getCore (u : UnitSt) (k : Nat) : CoreSt := Sparse.get {} u.cores k

def setCore (p k : Nat) (c : CoreSt) (s : State) : State :=
  modUnit p (fun u => { u with cores := Sparse.set {} u.cores k c }) s

/-- The staged row that a batcher entry names: as long as one row of the batch chamber. -/
def stagedRow (u : UnitSt) (off : Nat) : Bytes :=
  let n := match (List.range 64).find? fun k => decide ((chDef u k).kind = 5) with
    | some k => (chDef u k).size / 64
    | none => 0
  match chamberAt u off with
  | some k => chBytes u u.cur k ((chDef u k).byteOf off) n
  | none => Sparse.getMany 0 u.cur.lock off n

/-- Entries for the batcher at the front of an outbound mailbox enter it while it has room (R150); `fuel` bounds them. -/
def drainOut (p k : Nat) : (fuel : Nat) → State → State
  | 0, s => s
  | fuel + 1, s =>
    let u := getUnit s p
    let c := getCore u k
    match c.outbox with
    | [] => s
    | v :: vs =>
      if !v.msb || (Sparse.get {} u.batch u.bopen).closed then s
      else
        let row := stagedRow u (bits v.toNat 17 6 * 64)
        drainOut p k fuel (batchPush p row (BitVec.ofNat 32 (bits v.toNat 49 18)) (setCore p k { c with outbox := vs } s))

/-- The mailboxes of all cores of a unit, after the batcher may have gained room. -/
def drainAll (p : Nat) (s : State) : State := (List.range 4).foldl (fun s k => drainOut p k mbxDepth s) s

/-! ### Passes as operations -/

/-- Issue cycles of an activation row (R69, R72): 4 for an fp32 pair, else 1, and twice that in Epman mode. -/
def rowCycles (af wf : Nat) (epman : Bool) : Nat :=
  (if max (fmtWidth af) (fmtWidth wf) = 32 then 4 else 1) * (if epman then 2 else 1)

/-- The model's own count of the issue cycles of array `a` of unit `p` in the running step (0x3811:01). -/
def issueKey (p a : Nat) : Nat := ekey 0x5061 (4 * p + a + 1)

/-- Count issue cycles of a pass on the arrays of a mask. -/
def countIssue (p mask cycles : Nat) (s : State) : State :=
  let run := (maskArrays mask).foldl (fun m a => Sparse.modify 0 m (issueKey p a) (· + cycles)) s.stat.run
  { s with stat := { s.stat with run := run } }

/-- APS (R85, R196). -/
def doAps (w : List Nat) (p : Nat) (s : State) : OpRes :=
  let u := getUnit s p
  let c := wd w 4
  let mask := c % 16
  let n := bits c 11 4 + 1
  let af := bits c 24 21
  let wf := bits c 28 25
  let epman := bit c 29
  if 2 ^ 30 ≤ c ∨ maskOk s mask = false ∨ pairOk af wf = false ∨ (epman && !epmanOk af wf) = true then .fault 2
  else if u.napArr then .wait .notReady
  else
    let ops := (maskArrays mask).map fun a => (a, decodeOw (wd w a))
    if ops.any fun ao => ao.2.isNone then .fault 2
    else
      let ops := ops.map fun ao => (ao.1, ao.2.getD .none)
      match passAll ops n (bits c 19 12) (bit c 20) epman af wf u 0 with
      | .wait h => .wait h
      | .fault c => .fault c
      | .ok u rows =>
        let freed := if ops.any fun ao => decide (ao.2 = .batch) then closedBuf u else none
        let s := match freed with
          | some b => drainAll p (setUnit p { u with batch := Sparse.set {} u.batch b {} } s)
          | none => setUnit p u s
        let s := countIssue p mask (rows / (maskArrays mask).length * rowCycles af wf epman) s
        let s := countRun 0x5010 (p + 1) rows (countRun 0x3810 2 rows (countRun 0x3810 1 1 s))
        .ok (if epman then countRun 0x3C38 1 1 s else s)

/-! ### Drains and fills -/

/-- The drain formats of R82. -/
def drainFmt (f : Nat) : Bool := decide (f ≤ 9) || decide (f = 11) || decide (f = 13)

/-- What converting elements into blocks or plain codes yields: codes, scale bytes, counts, and the state with held
tables noted. -/
structure Conv where
  codes  : List Nat
  scales : List Nat
  tally  : Tally
  deriving DecidableEq, Repr

/-- Conversion of one block under its policy (R115, R116). The block's first element index names the held entry, index / 32
(DEDUCED, log entry 7). A block with a NaN or an infinity leaves SEEN and OVF as they are, and a block beyond the table
takes its scale from the bytes behind the table and leaves nothing there (DESIGN CHOICES, log entry 158). An entry that cannot
be read aborts the step with cause 7 (R359). -/
def convBlock (f tag : Nat) (held : Bool) (xs : List ConvIn) (s : State) : State × Block :=
  let vals := xs.map (·.val)
  let idx0 := (xs.head?.map (·.idx)).getD 0
  if held then
    match heldDecl s tag with
    | none => (s, convertBlock f 0 xs)
    | some d =>
      let at_ := d.table + idx0 / 32 * 4
      match readDev at_ 4 .clean s with
      | .ok s bs =>
        let h := Held.ofBytes bs
        let b := convertBlock f ((h.scale : Int) - 127) xs
        let h := if b.scale = 255 then h else h.note f (blockTop vals) b.ovf
        (if idx0 / 32 < d.blocks then pokeDev at_ h.toBytes s else s, b)
      | x => (reportAbort 7 0xFFFF x.state, convertBlock f (currentScale f vals) xs)
  else (s, convertBlock f (currentScale f vals) xs)

/-- Conversion of a list of elements to a format (R106 to R116). -/
def convElems (f tag : Nat) (sat held : Bool) (xs : List ConvIn) (s : State) : State × Conv :=
  if isMx f then
    (List.range (cdiv xs.length 32)).foldl (fun (acc : State × Conv) b =>
      let r := convBlock f tag held ((xs.drop (32 * b)).take 32) acc.1
      (r.1, { codes := acc.2.codes ++ r.2.codes, scales := acc.2.scales ++ [r.2.scale],
              tally := acc.2.tally.add r.2.tally })) (s, { codes := [], scales := [], tally := {} })
  else
    let rs := xs.map fun x => convertPlain f x.rnd sat x.val
    (s, { codes := rs.map (·.1), scales := [], tally := rs.foldl (fun t r => t.add r.2) {} })

/-- The bytes of a converted pan row: at the vector engine's port its blocks, each with its scale byte; elsewhere the
codes of the row, then its scale bytes, padded to 16 B (DESIGN CHOICE, log entry 6). -/
def rowBytes (port : Bool) (f : Nat) (c : Conv) : Bytes :=
  let sc := c.scales.map fun x => BitVec.ofNat 8 x
  if port then
    if isMx f then sc.zipIdx.flatMap fun xb => packCodes f ((c.codes.drop (32 * xb.2)).take 32) ++ [xb.1]
    else packCodes f c.codes
  else takePad (roundUp (elemBytes f 64) 16) (packCodes f c.codes ++ sc)

/-- The request tag + 1 of the row in a pan row; 0 where the row has none. -/
def tagOf (u : UnitSt) (a row : Nat) : Nat := Sparse.get 0 u.rowTags (a * 256 + row)

/-- One drained row: its bytes and its counts (R82, R121). The index of a row with a request tag, which activation cannot know,
is taken modulo 2^48 (DESIGN CHOICE, log entry 192). -/
def drainRow (u : UnitSt) (a row i : Nat) (f : Nat) (stoch sat held port : Bool) (e : Int) (tag b st : Nat) (s : State) :
    State × Bytes × Tally :=
  let entries := (List.range 64).map fun j => (panGet u a row j).toNat
  let marked := if rowMark u a row then (entries.filter fun v => !(w48.decode v).isFin).length else 0
  let mt : Tally := { nonfin := marked }
  if f = 13 then (s, packCodes 13 entries, mt)
  else
    let t := tagOf u a row
    let i := if t = 0 then i else t - 1
    let xs : List ConvIn := entries.zipIdx.map fun vj =>
      let idx := (b + i * st + vj.2) % 2 ^ 48
      { val := (w48.decode vj.1).scale e, rnd := rndOf s stoch tag idx, idx := idx }
    let r := convElems f tag sat held xs s
    (r.1, rowBytes port f r.2, r.2.tally.add mt)

/-- Clear a pan row to −0 (R82). -/
def clearRow (a row : Nat) (u : UnitSt) : UnitSt :=
  setRowMark { u with pans := Sparse.clearRange u.pans (panKey a row 0) 64 } a row false

/-- All rows of a drain in order. -/
def drainRows (u : UnitSt) (a base n f : Nat) (stoch sat held port : Bool) (e : Int) (tag b st : Nat) (s : State) :
    State × Bytes × Tally :=
  (List.range n).foldl (fun (acc : State × Bytes × Tally) i =>
    let r := drainRow u a ((base + i) % 256) i f stoch sat held port e tag b st acc.1
    (r.1, acc.2.1 ++ r.2.1, acc.2.2.add r.2.2)) (s, [], {})

/-- Whether a drain of array `a` still waits at VP1 for space: bytes that it brought stand beyond the 16 KiB that the port
buffers (R132), and it holds the array's drain port (R186). -/
def drainWaits (q : Port) (a : Nat) : Bool :=
  (q.owners.foldl (fun (x : Nat × Bool) o => (x.1 + o.2, x.2 || (decide (o.1 = a) && decide (16384 < x.1 + o.2)))) (0, false)).2

/-- The request tags of drained rows, in row order, 4 B each; none where a row has no tag. -/
def drainedTags (u : UnitSt) (a base n : Nat) : Option Bytes :=
  let ts := (List.range n).map fun i => tagOf u a ((base + i) % 256)
  if ts.contains 0 then none else some (ts.flatMap fun t => leBytes 4 (t - 1))

/-- A drain of a batch pass can carry the tags of its rows to a chamber (R93): to the place that its record gives them, which is
a free value (log entry 184). -/
def carryTags (w : List Nat) (a base n : Nat) (old u : UnitSt) : Fetch Unit :=
  match drainedTags old a base n, Config.drainTags w with
  | some ts, some off => storeLock u .drain false off ts.length (fun _ => ts)
  | _, _ => .ok u ()

/-- ADR (R82, R85, R196). -/
def doAdr (w : List Nat) (p : Nat) (s : State) : OpRes :=
  let u := getUnit s p
  let c := wd w 1
  let a := c % 4
  let base := bits c 9 2
  let n := bits c 17 10 + 1
  let f := bits c 21 18
  let e := signed 8 (wd w 2)
  let tag := bits (wd w 2) 23 8
  let b := wd w 3 + 2 ^ 32 * (wd w 4 % 2 ^ 16)
  if 2 ^ 26 ≤ c ∨ 2 ^ 24 ≤ wd w 2 ∨ 2 ^ 16 ≤ wd w 4 ∨ s.strap.variant.arrays ≤ a ∨ drainFmt f = false then .fault 2
  else if u.napArr then .wait .notReady
  else
    let dst := decodeOw (wd w 0)
    let r := drainRows u a base n f (bit c 22) (bit c 23) (bit c 25) (decide (dst = some .vp1)) e tag b (wd w 5) s
    let put : Fetch Unit := match dst with
      | some (.lock pair off) => match storeLock u .drain pair off r.2.1.length (fun _ => r.2.1) with
          | .ok v _ => carryTags w a base n u v
          | x => x
      | some .vp1 => if drainWaits u.vp1 a then .wait .notReady
          else .ok { u with vp1 := { u.vp1 with data := u.vp1.data ++ r.2.1, owners := u.vp1.owners ++ [(a, r.2.1.length)] },
                            vp1New := r.2.1.length } ()
      | some .vout => .ok { u with dout := { u.dout with data := u.dout.data ++ r.2.1 } } ()
      | _ => .fault 2
    match put with
    | .wait h => .wait h
    | .fault c => .fault c
    | .ok u _ =>
      let u := if bit c 24 then (List.range n).foldl (fun u i => clearRow a ((base + i) % 256) u) u else u
      .ok (chargeTally tag r.2.2 (setUnit p (u.flag r.2.2) r.1))

/-- Fill one pan row from 384 raw bytes (R83). -/
def fillRow (a row : Nat) (bs : Bytes) (u : UnitSt) : UnitSt :=
  let u := setRowMark { u with rowTags := Sparse.set 0 u.rowTags (a * 256 + row) 0 } a row false
  (codesOf 13 64 bs).zipIdx.foldl (fun u vj => panSet u a row vj.2 (BitVec.ofNat 48 vj.1)) u

/-- AFL (R83, R85, R196). -/
def doAfl (w : List Nat) (p : Nat) (s : State) : OpRes :=
  let u := getUnit s p
  let c := wd w 1
  let a := c % 4
  let base := bits c 9 2
  let n := bits c 17 10 + 1
  if 2 ^ 18 ≤ c ∨ s.strap.variant.arrays ≤ a then .fault 2
  else if u.napArr then .wait .notReady
  else match decodeOw (wd w 0) with
    | some (.lock pair off) =>
      match fetchLock u pair off (n * 384) with
      | .wait h => .wait h
      | .fault c => .fault c
      | .ok u bs =>
        .ok (setUnit p ((chunks 384 n bs).zipIdx.foldl (fun u ri => fillRow a ((base + ri.2) % 256) ri.1 u) u) s)
    | _ => .fault 2

/-! ### Meanings of the batcher's events -/

/-- A row reaches the batcher of a logical unit (R91). -/
def execBatchRowArrival (unit : Fin 64) (row : Bytes) (tag : BitVec 32) (s : State) : Res :=
  .next (match physUnit s unit.val with
    | some p => batchPush p row tag s
    | none => s)

/-- The batch wait expires (R92): a buffer that holds rows closes; an empty one does not. -/
def execBatchWaitExpiry (unit : Fin 64) (s : State) : Res :=
  .next (match physUnit s unit.val with
    | some p =>
      let u := getUnit s p
      let b := Sparse.get {} u.batch u.bopen
      if b.closed || b.rows.isEmpty then s else closeBuf p 7 s
    | none => s)

end Sys2Proof.Machine
end

