-- ==== Sys2Proof/Machine/RvFloat.lean ====
section
/-! DEFINITION. The F and D arithmetic of the scalar cores (R146), as the RISC-V unprivileged specification defines it
(PRESUMED, log entry 21): rounding modes, flags, canonical NaN of R96. -/

namespace Sys2Proof.Machine

/-- Rounding modes of fcsr. -/
inductive RvRm where
  | rne | rtz | rdn | rup | rmm
  deriving DecidableEq, Repr

def RvRm.of : Nat → Option RvRm
  | 0 => some .rne | 1 => some .rtz | 2 => some .rdn | 3 => some .rup | 4 => some .rmm | _ => none

/-- A result code and the flags it raises: NX 1, UF 2, OF 4, DZ 8, NV 16. -/
abbrev FRes := Nat × Nat

/-- Round m × 2^e to a multiple of 2^k: the multiple, and whether it is inexact. -/
def rmRound (rm : RvRm) (s : Bool) (m : Nat) (e k : Int) : Nat × Bool :=
  if k ≤ e then (atExp m e k, false)
  else
    let sh := (k - e).toNat
    let d := m / 2 ^ sh
    let r := m % 2 ^ sh
    let up := match rm with
      | .rne => decide (2 ^ sh < 2 * r) || (decide (2 * r = 2 ^ sh) && decide (d % 2 = 1))
      | .rtz => false
      | .rdn => s && decide (r ≠ 0)
      | .rup => !s && decide (r ≠ 0)
      | .rmm => decide (2 ^ sh ≤ 2 * r)
    (if up then d + 1 else d, decide (r ≠ 0))

/-- Round an exact value into a format; tininess is detected after rounding. -/
def roundBin (g : Fmt) (rm : RvRm) (x : Num) : FRes :=
  match x with
  | .nan => (g.nanCode, 0)
  | .inf s => (g.signed s (g.maxCode + 1), 0)
  | .fin s m e =>
    if m = 0 then (g.signed s 0, 0)
    else
      let r := rmRound rm s m e (max (flog2 m e) g.emin - g.mw)
      let code := g.encodeMag r.1 (max (flog2 m e) g.emin - g.mw)
      if g.maxCode < code then
        let toMax := match rm with
          | .rtz => true
          | .rdn => !s
          | .rup => s
          | _ => false
        (g.signed s (if toMax then g.maxCode else g.maxCode + 1), 5)
      else
        let t := rmRound rm s m e (flog2 m e - g.mw)
        let tiny := decide (flog2 t.1 (flog2 m e - g.mw) < g.emin)
        (g.signed s code, if r.2 then (if tiny then 3 else 1) else 0)

/-- Whether a code is a signalling NaN. -/
def isSnan (g : Fmt) (c : Nat) : Bool := (g.decode c).isNan && !c.testBit (g.mw - 1)

/-- The sign rule of an exact zero sum: the common sign, or by the rounding mode. -/
def rvZero (rm : RvRm) (sa sb : Bool) (x : Num) : Num :=
  match x with
  | .fin s m e => if m = 0 then .fin (if sa = sb then sa else decide (rm = .rdn)) 0 0 else .fin s m e
  | x => x

/-- NV for signalling NaN inputs. -/
def nvOf (g : Fmt) (cs : List Nat) : Nat := if cs.any (isSnan g) then 16 else 0

def rvAdd (g : Fmt) (rm : RvRm) (a b : Nat) (neg : Bool) : FRes :=
  let x := g.decode a
  let y := if neg then (g.decode b).neg else g.decode b
  let z := Num.add x y
  let bad := !x.isNan && !y.isNan && z.isNan
  let r := roundBin g rm (rvZero rm x.sign y.sign z)
  (r.1, r.2 ||| nvOf g [a, b] ||| (if bad then 16 else 0))

def rvMul (g : Fmt) (rm : RvRm) (a b : Nat) : FRes :=
  let x := g.decode a
  let y := g.decode b
  let z := Num.mul x y
  let bad := !x.isNan && !y.isNan && z.isNan
  let r := roundBin g rm z
  (r.1, r.2 ||| nvOf g [a, b] ||| (if bad then 16 else 0))

/-- ±(a × b) ± c. A product of ∞ and 0 is invalid even when c is a NaN. -/
def rvFma (g : Fmt) (rm : RvRm) (a b c : Nat) (negP negC : Bool) : FRes :=
  let x := g.decode a
  let y := g.decode b
  let p := Num.mul x y
  let p' := if negP then p.neg else p
  let z := if negC then (g.decode c).neg else g.decode c
  let t := Num.add p' z
  let bad := (!x.isNan && !y.isNan && p.isNan) || (!p.isNan && !z.isNan && t.isNan)
  let r := roundBin g rm (rvZero rm p'.sign z.sign t)
  (r.1, r.2 ||| nvOf g [a, b, c] ||| (if bad then 16 else 0))

def rvDiv (g : Fmt) (rm : RvRm) (a b : Nat) : FRes :=
  let s := (g.decode a).sign != (g.decode b).sign
  match g.decode a, g.decode b with
  | .nan, _ => (g.nanCode, nvOf g [a, b])
  | _, .nan => (g.nanCode, nvOf g [a, b])
  | .inf _, .inf _ => (g.nanCode, 16)
  | .inf _, .fin _ _ _ => (g.signed s (g.maxCode + 1), 0)
  | .fin _ _ _, .inf _ => (g.signed s 0, 0)
  | .fin _ m e, .fin _ n h =>
    if n = 0 then (if m = 0 then (g.nanCode, 16) else (g.signed s (g.maxCode + 1), 8))
    else if m = 0 then (g.signed s 0, 0)
    else
      let q := quotSticky m e n h
      roundBin g rm (.fin s q.1 q.2)

def rvSqrt (g : Fmt) (rm : RvRm) (a : Nat) : FRes :=
  match g.decode a with
  | .nan => (g.nanCode, nvOf g [a])
  | .inf s => if s then (g.nanCode, 16) else (a, 0)
  | .fin s m e =>
    if m = 0 then (a, 0)
    else if s then (g.nanCode, 16)
    else
      let q := sqrtSticky m e
      roundBin g rm (.fin false q.1 q.2)

/-- FMIN (false) and FMAX (true): the number beside a NaN, −0 below +0. -/
def rvMinMax (g : Fmt) (mx : Bool) (a b : Nat) : FRes :=
  let x := g.decode a
  let y := g.decode b
  let nv := nvOf g [a, b]
  if x.isNan && y.isNan then (g.nanCode, nv)
  else if x.isNan then (b, nv)
  else if y.isNan then (a, nv)
  else
    let c := Num.cmp x y
    let aLow := decide (c < 0) || (decide (c = 0) && x.sign)
    ((if aLow != mx then a else b), nv)

/-- FLE, FLT, FEQ (0, 1, 2): the truth value and flags. -/
def rvCmp (g : Fmt) (k a b : Nat) : FRes :=
  let x := g.decode a
  let y := g.decode b
  if x.isNan || y.isNan then (0, if k = 2 then nvOf g [a, b] else 16)
  else
    let c := Num.cmp x y
    let t := if k = 0 then decide (c ≤ 0) else if k = 1 then decide (c < 0) else decide (c = 0)
    (if t then 1 else 0, 0)

/-- FCLASS. -/
def rvClass (g : Fmt) (a : Nat) : Nat :=
  match g.decode a with
  | .nan => if isSnan g a then 2 ^ 8 else 2 ^ 9
  | .inf s => if s then 1 else 2 ^ 7
  | .fin s m e =>
    let sub := decide (flog2 m e < g.emin)
    if m = 0 then (if s then 2 ^ 3 else 2 ^ 4)
    else if sub then (if s then 2 ^ 2 else 2 ^ 5)
    else (if s then 2 ^ 1 else 2 ^ 6)

/-- Conversion to an integer with limits: out of range or NaN is invalid and gives the nearest limit (NaN the upper). -/
def rvToInt (g : Fmt) (rm : RvRm) (lo hi : Int) (a : Nat) : Int × Nat :=
  match g.decode a with
  | .nan => (hi, 16)
  | .inf s => (if s then lo else hi, 16)
  | .fin s m e =>
    let r := rmRound rm s m e 0
    let v := sgn s r.1
    if v < lo then (lo, 16) else if hi < v then (hi, 16) else (v, if r.2 then 1 else 0)

/-- Conversion of an integer. -/
def rvOfInt (g : Fmt) (rm : RvRm) (v : Int) : FRes := roundBin g rm (.fin (decide (v < 0)) v.natAbs 0)

end Sys2Proof.Machine
end

