-- ==== Sys2Proof/Machine/Scalar.lean ====
section
/-! DEFINITION. The scalar cores (R146 to R150): RV64GC in machine mode only, as the RISC-V unprivileged specification
defines it (PRESUMED, log entry 21), over the address map of R147 and the CSRs of R148. -/

namespace Sys2Proof.Machine

/-- What one instruction comes to. -/
inductive Rv where
  | done (s : State) (c : CoreSt)
  | wait
  | trap (code : Nat)
  | unitFault

/-! ### Integer registers and immediates -/

def rvX (c : CoreSt) (r : Nat) : Nat := if r = 0 then 0 else (Sparse.get 0 c.x r).toNat

/-- Write an integer register; x0 discards. -/
def CoreSt.setX (c : CoreSt) (r v : Nat) : CoreSt :=
  if r = 0 then c else { c with x := Sparse.set 0 c.x r (BitVec.ofNat 64 v) }

/-- Sign-extend the low `w` bits to 64 bits. -/
def sx (w x : Nat) : Nat := unsigned 64 (signed w x)

def immI (w : Nat) : Nat := sx 12 (bits w 31 20)
def immS (w : Nat) : Nat := sx 12 (bits w 31 25 * 32 + bits w 11 7)
def immB (w : Nat) : Nat := sx 13 (bits w 31 31 * 4096 + bits w 7 7 * 2048 + bits w 30 25 * 32 + bits w 11 8 * 2)
def immU (w : Nat) : Nat := sx 32 (bits w 31 12 * 4096)
def immJ (w : Nat) : Nat :=
  sx 21 (bits w 31 31 * 1048576 + bits w 19 12 * 4096 + bits w 20 20 * 2048 + bits w 30 21 * 2)

/-- 64-bit addition. -/
def add64 (a b : Nat) : Nat := (a + b) % 2 ^ 64

/-! ### Memory (R147) -/

inductive Ld where
  | ok (x : Nat)
  | wait
  | trap (code : Nat)

def memBytes (m : Sparse Byte) (a n : Nat) : Nat := leNat (Sparse.getMany 0 m a n)

/-- A load of `n` bytes. The lock window reads chambers marked full; an EMPTY or faulted one holds the core (R161,
R182). -/
def rvLoad (u : UnitSt) (c : CoreSt) (a n : Nat) : Ld :=
  if a + n ≤ 0x8000 then (if a % n = 0 then .ok (memBytes c.imem a n) else .trap 4)
  else if 0x10000000 ≤ a ∧ a + n ≤ 0x10010000 then .ok (memBytes c.dmem (a - 0x10000000) n)
  else if 0x20000000 ≤ a ∧ a + n ≤ 0x20040000 then
    if a % n ≠ 0 then .trap 4
    else
      let off := a - 0x20000000
      match chamberAt u off with
      | none => .trap 5
      | some k =>
        if (chDef u k).kind ≠ 1 then .trap 5
        else if !(getCh u k).full || (getCh u k).fault then .wait
        else .ok (leNat (Sparse.getMany 0 u.cur.lock off n))
  else .trap 5

/-- A store of `n` bytes: data memory, or a chamber held for writing by this core (R160, R161). -/
def rvStore (p k : Nat) (s : State) (c : CoreSt) (a n v : Nat) : Rv :=
  if 0x10000000 ≤ a ∧ a + n ≤ 0x10010000 then
    .done s { c with dmem := Sparse.setMany 0 c.dmem (a - 0x10000000) (leBytes n v) }
  else if 0x20000000 ≤ a ∧ a + n ≤ 0x20040000 then
    if a % n ≠ 0 then .trap 6
    else
      let off := a - 0x20000000
      let u := getUnit s p
      match chamberAt u off with
      | none => .trap 7
      | some h =>
        let d := chDef u h
        if d.kind ≠ 1 ∨ d.writer ≠ 4 ∨ d.core ≠ k ∨ (getCh u h).full then .trap 7
        else
          let put (e : Eng) : Eng := { e with lock := Sparse.setMany 0 e.lock off (leBytes n v) }
          let u := { u with cur := put u.cur, old := put u.old }
          .done (setUnit p (setCh u h { getCh u h with filled := max (getCh u h).filled (d.byteOf off + n) }) s) c
  else .trap 7

/-! ### Mailboxes and chamber marks (R148, R150) -/

/-- A write of mbxout: none while the mailbox is full. -/
def postOut (p k : Nat) (v : W64) (s : State) (c : CoreSt) : Option (State × CoreSt) :=
  if mbxDepth ≤ c.outbox.length then none
  else
    let s := drainOut p k mbxDepth (setCore p k { c with posted := c.posted + 1, outbox := c.outbox ++ [v] } s)
    some (s, getCore (getUnit s p) k)

/-- A read of mbxin: none while it is empty. -/
def takeIn (c : CoreSt) : Option (W64 × CoreSt) :=
  match c.inbox with
  | [] => none
  | v :: vs => some (v, { c with inbox := vs })

/-- A write of chmark: none where the mark or release is a unit fault. -/
def chmark (p : Nat) (v : W64) (s : State) : Option State :=
  let u := getUnit s p
  let h := v.toNat % 64
  if (chDef u h).kind ≠ 1 then none
  else (if v.toNat.testBit 8 then markFull u h false false else releaseCh u h).map fun u => setUnit p u s

/-! ### CSRs -/

/-- The machine-mode CSRs that hold what is written (PRESUMED, log entry 21). -/
def plainCsr (n : Nat) : Bool := [0x304, 0x305, 0x306, 0x320, 0x340, 0x341, 0x342, 0x343, 0x344].contains n

/-- The event counters and selectors of machine mode, which read 0 and ignore writes (PRESUMED, log entry 21). -/
def hpmCsr (n : Nat) : Bool := (decide (0xB03 ≤ n) && decide (n ≤ 0xB1F)) || (decide (0x323 ≤ n) && decide (n ≤ 0x33F))

inductive CsrRead where
  | ok (v : Nat) (c : CoreSt)
  | wait
  | illegal

def csrRead (p k : Nat) (s : State) (c : CoreSt) (n : Nat) : CsrRead :=
  match n with
  | 0x001 => .ok (c.fcsr.toNat % 32) c
  | 0x002 => .ok (bits c.fcsr.toNat 7 5) c
  | 0x003 => .ok c.fcsr.toNat c
  | 0xC00 => .ok c.retired c
  | 0xC02 => .ok c.retired c
  | 0xB00 => .ok c.retired c
  | 0xB02 => .ok c.retired c
  | 0xC01 => .ok s.led.running c
  | 0x800 => .ok c.posted c
  | 0x801 => match takeIn c with
    | some (v, c) => .ok v.toNat c
    | none => .wait
  | 0x803 => .ok k c
  | 0x300 => .ok ((Sparse.get 0 c.csrs 0x300).toNat ||| 0x8000000000007800) c
  | 0x301 => .ok 0x800000000000112D c
  | 0xF11 => .ok 0 c
  | 0xF12 => .ok 0 c
  | 0xF13 => .ok 0 c
  | 0xF14 => .ok (Config.hartId (4 * logicalUnit s p + k)).toNat c
  | 0xF15 => .ok 0 c
  | n =>
    if hpmCsr n || (decide (0xC03 ≤ n) && decide (n ≤ 0xC1F)) then .ok 0 c
    else if plainCsr n then .ok (Sparse.get 0 c.csrs n).toNat c else .illegal

def csrWrite (p k : Nat) (s : State) (c : CoreSt) (n v : Nat) : Rv :=
  match n with
  | 0x001 => .done s { c with fcsr := BitVec.ofNat 8 (bits c.fcsr.toNat 7 5 * 32 + v % 32) }
  | 0x002 => .done s { c with fcsr := BitVec.ofNat 8 (v % 8 * 32 + c.fcsr.toNat % 32) }
  | 0x003 => .done s { c with fcsr := BitVec.ofNat 8 v }
  | 0xB00 => .done s c
  | 0xB02 => .done s c
  | 0x800 => match postOut p k (BitVec.ofNat 64 v) s c with
    | some (s, c) => .done s c
    | none => .wait
  | 0x802 => match chmark p (BitVec.ofNat 64 v) s with
    | some s => .done s c
    | none => .unitFault
  | 0x300 => .done s { c with csrs := Sparse.set 0 c.csrs 0x300 (BitVec.ofNat 64 v &&& 0x88) }
  | 0x301 => .done s c
  | n =>
    if hpmCsr n then .done s c
    else if plainCsr n then .done s { c with csrs := Sparse.set 0 c.csrs n (BitVec.ofNat 64 v) } else .trap 2

/-- Zicsr: `f3` 1 to 3 with a register, 5 to 7 with an immediate. -/
def rvCsr (p k : Nat) (s : State) (c : CoreSt) (w pc' : Nat) : Rv :=
  let f3 := bits w 14 12
  let rd := bits w 11 7
  let r1 := bits w 19 15
  let n := bits w 31 20
  let src := if 4 ≤ f3 then r1 else rvX c r1
  let writes := decide (f3 % 4 = 1) || decide (r1 ≠ 0)
  let fin (old : Nat) (s : State) (c : CoreSt) : Rv := .done s { c.setX rd old with pc := BitVec.ofNat 64 pc' }
  if f3 % 4 = 1 ∧ rd = 0 then
    match csrWrite p k s c n src with
    | .done s c => fin 0 s c
    | r => r
  else match csrRead p k s c n with
    | .illegal => .trap 2
    | .wait => .wait
    | .ok old c =>
      if !writes then fin old s c
      else
        let v := if f3 % 4 = 1 then src else if f3 % 4 = 2 then old ||| src else old &&& (2 ^ 64 - 1 - src)
        match csrWrite p k s c n v with
        | .done s c => fin old s c
        | r => r

/-! ### Integer arithmetic -/

/-- OP and OP-IMM at 64 bits. -/
def rvAlu (f3 : Nat) (alt : Bool) (a b : Nat) : Nat :=
  match f3 with
  | 0 => if alt then (a + 2 ^ 64 - b) % 2 ^ 64 else add64 a b
  | 1 => a * 2 ^ (b % 64) % 2 ^ 64
  | 2 => if signed 64 a < signed 64 b then 1 else 0
  | 3 => if a < b then 1 else 0
  | 4 => a ^^^ b
  | 5 => if alt then unsigned 64 (signed 64 a / 2 ^ (b % 64)) else a / 2 ^ (b % 64)
  | 6 => a ||| b
  | _ => a &&& b

/-- OP-32 and OP-IMM-32. -/
def rvAluW (f3 : Nat) (alt : Bool) (a b : Nat) : Option Nat :=
  let x := a % 2 ^ 32
  match f3 with
  | 0 => some (sx 32 (if alt then x + 2 ^ 32 - b % 2 ^ 32 else x + b))
  | 1 => some (sx 32 (x * 2 ^ (b % 32)))
  | 5 => some (if alt then unsigned 64 (signed 32 x / 2 ^ (b % 32)) else sx 32 (x / 2 ^ (b % 32)))
  | _ => none

/-- Signed division of RISC-V: by zero −1, rounded toward zero. -/
def rvSDiv (w : Nat) (a b : Nat) : Nat :=
  if b % 2 ^ w = 0 then 2 ^ 64 - 1 else unsigned 64 (signed w (unsigned w (Int.tdiv (signed w a) (signed w b))))

def rvSRem (w : Nat) (a b : Nat) : Nat :=
  if b % 2 ^ w = 0 then sx w a else unsigned 64 (Int.tmod (signed w a) (signed w b))

def rvUDiv (w : Nat) (a b : Nat) : Nat := if b % 2 ^ w = 0 then 2 ^ 64 - 1 else sx w (a % 2 ^ w / (b % 2 ^ w))

def rvURem (w : Nat) (a b : Nat) : Nat := if b % 2 ^ w = 0 then sx w a else sx w (a % 2 ^ w % (b % 2 ^ w))

/-- The M extension at 64 bits. -/
def rvMulDiv (f3 a b : Nat) : Nat :=
  match f3 with
  | 0 => a * b % 2 ^ 64
  | 1 => unsigned 64 (signed 64 a * signed 64 b / 2 ^ 64)
  | 2 => unsigned 64 (signed 64 a * (b : Int) / 2 ^ 64)
  | 3 => a * b / 2 ^ 64
  | 4 => rvSDiv 64 a b
  | 5 => rvUDiv 64 a b
  | 6 => rvSRem 64 a b
  | _ => rvURem 64 a b

/-- The M extension at 32 bits. -/
def rvMulDivW (f3 a b : Nat) : Option Nat :=
  match f3 with
  | 0 => some (sx 32 (a * b))
  | 4 => some (rvSDiv 32 a b)
  | 5 => some (rvUDiv 32 a b)
  | 6 => some (rvSRem 32 a b)
  | 7 => some (rvURem 32 a b)
  | _ => none

/-- Branch conditions. -/
def rvBranch (f3 a b : Nat) : Option Bool :=
  match f3 with
  | 0 => some (decide (a = b))
  | 1 => some (decide (a ≠ b))
  | 4 => some (decide (signed 64 a < signed 64 b))
  | 5 => some (decide (signed 64 b ≤ signed 64 a))
  | 6 => some (decide (a < b))
  | 7 => some (decide (b ≤ a))
  | _ => none

/-! ### Atomics -/

/-- The value an AMO stores, from the old value and the operand of `w` bits. -/
def amoVal (f5 w old v : Nat) : Option Nat :=
  let x := v % 2 ^ w
  match f5 with
  | 0 => some ((old + x) % 2 ^ w)
  | 1 => some x
  | 4 => some (old ^^^ x)
  | 8 => some (old ||| x)
  | 12 => some (old &&& x)
  | 16 => some (if signed w old < signed w x then old else x)
  | 20 => some (if signed w x < signed w old then old else x)
  | 24 => some (min old x)
  | 28 => some (max old x)
  | _ => none

/-- LR, SC and AMO: aligned, in data memory only (R147). -/
def rvAmo (p k : Nat) (s : State) (c : CoreSt) (w pc' : Nat) : Rv :=
  let f3 := bits w 14 12
  let f5 := bits w 31 27
  let rd := bits w 11 7
  let a := rvX c (bits w 19 15)
  let v := rvX c (bits w 24 20)
  let n := if f3 = 2 then 4 else 8
  let inData := decide (0x10000000 ≤ a) && decide (a + n ≤ 0x10010000)
  let old := memBytes c.dmem (a - 0x10000000) n
  let tag := 2 * a + (if f3 = 2 then 0 else 1)
  let next (c : CoreSt) : CoreSt := { c with pc := BitVec.ofNat 64 pc' }
  if f3 ≠ 2 ∧ f3 ≠ 3 then .trap 2
  else if f5 = 2 then
    if bits w 24 20 ≠ 0 then .trap 2
    else if a % n ≠ 0 then .trap 4
    else if !inData then .trap 5
    else .done s (next { c.setX rd (sx (8 * n) old) with resv := some tag })
  else if f5 = 3 then
    if a % n ≠ 0 then .trap 6
    else if !inData then .trap 7
    else if c.resv = some tag then
      match rvStore p k s c a n v with
      | .done s c => .done s (next { c.setX rd 0 with resv := none })
      | r => r
    else .done s (next { c.setX rd 1 with resv := none })
  else match amoVal f5 (8 * n) old v with
    | none => .trap 2
    | some x =>
      if a % n ≠ 0 then .trap 6
      else if !inData then .trap 7
      else match rvStore p k s c a n x with
        | .done s c => .done s (next (c.setX rd (sx (8 * n) old)))
        | r => r

/-! ### Floating point -/

/-- A floating-point register as a code of a format: a single not NaN-boxed reads as the canonical NaN. -/
def rvF (c : CoreSt) (d : Bool) (r : Nat) : Nat :=
  let x := (Sparse.get 0 c.f r).toNat
  if d then x else if x / 2 ^ 32 = 2 ^ 32 - 1 then x % 2 ^ 32 else fp32.nanCode

def CoreSt.setF (c : CoreSt) (d : Bool) (r v : Nat) : CoreSt :=
  { c with f := Sparse.set 0 c.f r (BitVec.ofNat 64 (if d then v else v % 2 ^ 32 + 2 ^ 64 - 2 ^ 32)) }

def CoreSt.addFlags (c : CoreSt) (fl : Nat) : CoreSt := { c with fcsr := c.fcsr ||| BitVec.ofNat 8 fl }

/-- The rounding mode of an instruction: its own, or that of fcsr. -/
def rvRm (c : CoreSt) (rm : Nat) : Option RvRm := RvRm.of (if rm = 7 then bits c.fcsr.toNat 7 5 else rm)

/-- Limits of the integer conversions: W, WU, L, LU. -/
def rvLimits : Nat → Option (Int × Int × Nat)
  | 0 => some (-(2 ^ 31), 2 ^ 31 - 1, 32)
  | 1 => some (0, 2 ^ 32 - 1, 32)
  | 2 => some (-(2 ^ 63), 2 ^ 63 - 1, 64)
  | 3 => some (0, 2 ^ 64 - 1, 64)
  | _ => none

/-- OP-FP. -/
def rvFp (c : CoreSt) (w : Nat) : Option CoreSt :=
  let rd := bits w 11 7
  let f3 := bits w 14 12
  let r1 := bits w 19 15
  let r2 := bits w 24 20
  let fm := bits w 26 25
  let d := decide (fm = 1)
  let g := if d then fp64 else fp32
  let a := rvF c d r1
  let b := rvF c d r2
  let putF (r : FRes) : CoreSt := (c.setF d rd r.1).addFlags r.2
  let putX (v fl : Nat) : CoreSt := (c.setX rd v).addFlags fl
  let arith (op : RvRm → FRes) : Option CoreSt := (rvRm c f3).map fun rm => putF (op rm)
  let top := g.width - 1
  if 2 ≤ fm then none
  else match bits w 31 27 with
    | 0 => arith fun rm => rvAdd g rm a b false
    | 1 => arith fun rm => rvAdd g rm a b true
    | 2 => arith fun rm => rvMul g rm a b
    | 3 => arith fun rm => rvDiv g rm a b
    | 11 => if r2 ≠ 0 then none else arith fun rm => rvSqrt g rm a
    | 4 =>
      let mag := a % 2 ^ top
      let sa := a.testBit top
      let sb := b.testBit top
      let r (s : Bool) : Option CoreSt := some (c.setF d rd (g.signed s mag))
      if f3 = 0 then r sb else if f3 = 1 then r (!sb) else if f3 = 2 then r (sa != sb) else none
    | 5 => if f3 = 0 then some (putF (rvMinMax g false a b)) else if f3 = 1 then some (putF (rvMinMax g true a b)) else none
    | 8 =>
      if fm = 0 ∧ r2 = 1 then (rvRm c f3).map fun rm =>
        let x := rvF c true r1
        let r := roundBin fp32 rm (fp64.decode x)
        (c.setF false rd r.1).addFlags (r.2 ||| nvOf fp64 [x])
      else if fm = 1 ∧ r2 = 0 then (rvRm c f3).map fun rm =>
        let x := rvF c false r1
        let r := roundBin fp64 rm (fp32.decode x)
        (c.setF true rd r.1).addFlags (r.2 ||| nvOf fp32 [x])
      else none
    | 20 => if 3 ≤ f3 then none else
      let r := rvCmp g f3 a b
      some (putX r.1 r.2)
    | 24 => match rvLimits r2, rvRm c f3 with
      | some (lo, hi, n), some rm =>
        let r := rvToInt g rm lo hi a
        some (putX (sx n (unsigned 64 r.1)) r.2)
      | _, _ => none
    | 26 => match rvLimits r2, rvRm c f3 with
      | some (lo, _, n), some rm =>
        let x := rvX c r1 % 2 ^ n
        some (putF (rvOfInt g rm (if lo = 0 then (x : Int) else signed n x)))
      | _, _ => none
    | 28 =>
      if r2 ≠ 0 then none
      else if f3 = 0 then
        let x := (Sparse.get 0 c.f r1).toNat
        some (c.setX rd (if d then x else sx 32 x))
      else if f3 = 1 then some (c.setX rd (rvClass g a))
      else none
    | 30 => if r2 = 0 ∧ f3 = 0 then some (c.setF d rd (rvX c r1)) else none
    | _ => none

/-- FMADD, FMSUB, FNMSUB, FNMADD (opcode bits 3 and 2). -/
def rvFmaOp (c : CoreSt) (w : Nat) : Option CoreSt :=
  let fm := bits w 26 25
  let d := decide (fm = 1)
  let g := if d then fp64 else fp32
  let k := bits w 3 2
  if 2 ≤ fm then none
  else (rvRm c (bits w 14 12)).map fun rm =>
    let r := rvFma g rm (rvF c d (bits w 19 15)) (rvF c d (bits w 24 20)) (rvF c d (bits w 31 27))
      (decide (2 ≤ k)) (decide (k = 1) || decide (k = 3))
    (c.setF d (bits w 11 7) r.1).addFlags r.2

/-! ### The C extension: each 16-bit instruction is another spelling of a 32-bit one -/

def encI (op f3 rd rs imm : Nat) : Nat := op + rd * 128 + f3 * 4096 + rs * 32768 + imm % 4096 * 1048576
def encS (op f3 r1 r2 imm : Nat) : Nat :=
  op + imm % 32 * 128 + f3 * 4096 + r1 * 32768 + r2 * 1048576 + imm / 32 % 128 * 33554432
def encR (op f3 f7 rd r1 r2 : Nat) : Nat := op + rd * 128 + f3 * 4096 + r1 * 32768 + r2 * 1048576 + f7 * 33554432
def encJ (rd imm : Nat) : Nat :=
  0x6F + rd * 128 + bits imm 19 12 * 4096 + bits imm 11 11 * 1048576 + bits imm 10 1 * 2097152 + bits imm 20 20 * 2 ^ 31
def encB (f3 r1 imm : Nat) : Nat :=
  0x63 + bits imm 11 11 * 128 + bits imm 4 1 * 256 + f3 * 4096 + r1 * 32768 + bits imm 10 5 * 33554432 + bits imm 12 12 * 2 ^ 31

/-- Quadrant 0. -/
def expand0 (h : Nat) : Option Nat :=
  let r1 := 8 + bits h 9 7
  let r2 := 8 + bits h 4 2
  let dw := bits h 12 10 * 8 + bits h 6 5 * 64
  let wo := bits h 12 10 * 8 + bits h 6 6 * 4 + bits h 5 5 * 64
  match bits h 15 13 with
  | 0 =>
    let imm := bits h 12 11 * 16 + bits h 10 7 * 64 + bits h 6 6 * 4 + bits h 5 5 * 8
    if imm = 0 then none else some (encI 0x13 0 r2 2 imm)
  | 1 => some (encI 0x07 3 r2 r1 dw)
  | 2 => some (encI 0x03 2 r2 r1 wo)
  | 3 => some (encI 0x03 3 r2 r1 dw)
  | 5 => some (encS 0x27 3 r1 r2 dw)
  | 6 => some (encS 0x23 2 r1 r2 wo)
  | 7 => some (encS 0x23 3 r1 r2 dw)
  | _ => none

/-- Quadrant 1. -/
def expand1 (h : Nat) : Option Nat :=
  let rd := bits h 11 7
  let rc := 8 + bits h 9 7
  let r2 := 8 + bits h 4 2
  let imm6 := bits h 12 12 * 32 + bits h 6 2
  let imm := sx 6 imm6
  match bits h 15 13 with
  | 0 => some (encI 0x13 0 rd rd imm)
  | 1 => if rd = 0 then none else some (encI 0x1B 0 rd rd imm)
  | 2 => some (encI 0x13 0 rd 0 imm)
  | 3 =>
    if imm6 = 0 then none
    else if rd = 2 then
      some (encI 0x13 0 2 2 (sx 10 (bits h 12 12 * 512 + bits h 6 6 * 16 + bits h 5 5 * 64 + bits h 4 3 * 128 + bits h 2 2 * 32)))
    else some (0x37 + rd * 128 + imm % 2 ^ 20 * 4096)
  | 4 => match bits h 11 10 with
    | 0 => some (encI 0x13 5 rc rc imm6)
    | 1 => some (encI 0x13 5 rc rc (imm6 + 1024))
    | 2 => some (encI 0x13 7 rc rc imm)
    | _ => match bits h 12 12, bits h 6 5 with
      | 0, 0 => some (encR 0x33 0 32 rc rc r2)
      | 0, 1 => some (encR 0x33 4 0 rc rc r2)
      | 0, 2 => some (encR 0x33 6 0 rc rc r2)
      | 0, _ => some (encR 0x33 7 0 rc rc r2)
      | _, 0 => some (encR 0x3B 0 32 rc rc r2)
      | _, 1 => some (encR 0x3B 0 0 rc rc r2)
      | _, _ => none
  | 5 => some (encJ 0 (sx 12 (bits h 12 12 * 2048 + bits h 11 11 * 16 + bits h 10 9 * 256 + bits h 8 8 * 1024 +
      bits h 7 7 * 64 + bits h 6 6 * 128 + bits h 5 3 * 2 + bits h 2 2 * 32)))
  | f => some (encB (f - 6) rc (sx 9 (bits h 12 12 * 256 + bits h 11 10 * 8 + bits h 6 5 * 64 + bits h 4 3 * 2 + bits h 2 2 * 32)))

/-- Quadrant 2. -/
def expand2 (h : Nat) : Option Nat :=
  let rd := bits h 11 7
  let r2 := bits h 6 2
  let dl := bits h 12 12 * 32 + bits h 6 5 * 8 + bits h 4 2 * 64
  let ds := bits h 12 10 * 8 + bits h 9 7 * 64
  match bits h 15 13 with
  | 0 => some (encI 0x13 1 rd rd (bits h 12 12 * 32 + r2))
  | 1 => some (encI 0x07 3 rd 2 dl)
  | 2 => if rd = 0 then none else some (encI 0x03 2 rd 2 (bits h 12 12 * 32 + bits h 6 4 * 4 + bits h 3 2 * 64))
  | 3 => if rd = 0 then none else some (encI 0x03 3 rd 2 dl)
  | 4 =>
    if bits h 12 12 = 0 then
      if r2 = 0 then (if rd = 0 then none else some (encI 0x67 0 0 rd 0)) else some (encR 0x33 0 0 rd 0 r2)
    else if r2 = 0 then (if rd = 0 then some 0x00100073 else some (encI 0x67 0 1 rd 0))
    else some (encR 0x33 0 0 rd rd r2)
  | 5 => some (encS 0x27 3 2 r2 ds)
  | 6 => some (encS 0x23 2 2 r2 (bits h 12 9 * 4 + bits h 8 7 * 64))
  | _ => some (encS 0x23 3 2 r2 ds)

/-- A 16-bit instruction as a 32-bit one; none where it is reserved. -/
def expandC (h : Nat) : Option Nat :=
  match h % 4 with
  | 0 => expand0 h
  | 1 => expand1 h
  | _ => expand2 h

/-! ### One instruction -/

/-- MRET: to mepc, with MIE from MPIE and MPIE set. -/
def mret (c : CoreSt) : CoreSt :=
  let old := Sparse.get 0 c.csrs 0x300
  { c with pc := Sparse.get 0 c.csrs 0x341, csrs := Sparse.set 0 c.csrs 0x300 (0x80 ||| ((old >>> 4) &&& 0x8)) }

/-- SYSTEM: ECALL, EBREAK, MRET, WFI and Zicsr. WFI waits until the step boundary (R149). -/
def rvSystem (p k : Nat) (s : State) (c : CoreSt) (w pc' : Nat) : Rv :=
  if bits w 14 12 = 0 then
    if w = 0x00000073 then .trap 11
    else if w = 0x00100073 then .trap 3
    else if w = 0x10500073 then .wait
    else if w = 0x30200073 then .done s (mret c)
    else .trap 2
  else if bits w 14 12 = 4 then .trap 2
  else rvCsr p k s c w pc'

/-- Execute a 32-bit instruction `w` at `pc`, the next one at `pc'`. -/
def rvExec (p k : Nat) (s : State) (c : CoreSt) (w pc pc' : Nat) : Rv :=
  let u := getUnit s p
  let rd := bits w 11 7
  let f3 := bits w 14 12
  let f7 := bits w 31 25
  let a := rvX c (bits w 19 15)
  let b := rvX c (bits w 24 20)
  let next (c : CoreSt) : CoreSt := { c with pc := BitVec.ofNat 64 pc' }
  let goto (t : Nat) (c : CoreSt) : CoreSt := { c with pc := BitVec.ofNat 64 t }
  let put (v : Nat) : Rv := .done s (next (c.setX rd v))
  let putO (v : Option Nat) : Rv := match v with | some v => put v | none => .trap 2
  let fpO (v : Option CoreSt) : Rv := match v with | some c => .done s (next c) | none => .trap 2
  match w % 128 with
  | 0x37 => put (immU w)
  | 0x17 => put (add64 pc (immU w))
  | 0x6F => .done s (goto (add64 pc (immJ w)) (c.setX rd pc'))
  | 0x67 => if f3 ≠ 0 then .trap 2 else .done s (goto (add64 a (immI w) / 2 * 2) (c.setX rd pc'))
  | 0x63 => match rvBranch f3 a b with
    | none => .trap 2
    | some t => .done s (goto (if t then add64 pc (immB w) else pc') c)
  | 0x03 =>
    let n := 2 ^ (f3 % 4)
    if f3 = 7 then .trap 2
    else match rvLoad u c (add64 a (immI w)) n with
      | .ok x => put (if 4 ≤ f3 then x else sx (8 * n) x)
      | .wait => .wait
      | .trap e => .trap e
  | 0x23 =>
    if 4 ≤ f3 then .trap 2
    else match rvStore p k s c (add64 a (immS w)) (2 ^ f3) b with
      | .done s c => .done s (next c)
      | r => r
  | 0x13 =>
    if f3 = 1 ∧ bits w 31 26 ≠ 0 then .trap 2
    else if f3 = 5 ∧ bits w 31 26 ≠ 0 ∧ bits w 31 26 ≠ 16 then .trap 2
    else put (rvAlu f3 (decide (f3 = 5) && bit w 30) a (immI w))
  | 0x1B =>
    if f3 = 1 ∧ f7 ≠ 0 then .trap 2
    else if f3 = 5 ∧ f7 ≠ 0 ∧ f7 ≠ 32 then .trap 2
    else putO (rvAluW f3 (decide (f3 = 5) && bit w 30) a (immI w))
  | 0x33 =>
    if f7 = 1 then put (rvMulDiv f3 a b)
    else if f7 = 0 ∨ (f7 = 32 ∧ (f3 = 0 ∨ f3 = 5)) then put (rvAlu f3 (decide (f7 = 32)) a b)
    else .trap 2
  | 0x3B =>
    if f7 = 1 then putO (rvMulDivW f3 a b)
    else if f7 = 0 ∨ (f7 = 32 ∧ (f3 = 0 ∨ f3 = 5)) then putO (rvAluW f3 (decide (f7 = 32)) a b)
    else .trap 2
  | 0x0F => if f3 ≤ 1 then .done s (next c) else .trap 2
  | 0x73 => rvSystem p k s c w pc'
  | 0x2F => rvAmo p k s c w pc'
  | 0x07 =>
    if f3 ≠ 2 ∧ f3 ≠ 3 then .trap 2
    else match rvLoad u c (add64 a (immI w)) (2 ^ f3) with
      | .ok x => .done s (next (c.setF (decide (f3 = 3)) rd x))
      | .wait => .wait
      | .trap e => .trap e
  | 0x27 =>
    if f3 ≠ 2 ∧ f3 ≠ 3 then .trap 2
    else match rvStore p k s c (add64 a (immS w)) (2 ^ f3) (Sparse.get 0 c.f (bits w 24 20)).toNat with
      | .done s c => .done s (next c)
      | r => r
  | 0x43 => fpO (rvFmaOp c w)
  | 0x47 => fpO (rvFmaOp c w)
  | 0x4B => fpO (rvFmaOp c w)
  | 0x4F => fpO (rvFmaOp c w)
  | 0x53 => fpO (rvFp c w)
  | _ => .trap 2

/-- Fetch from instruction memory and execute. -/
def rvStep (p k : Nat) (s : State) (c : CoreSt) : Rv :=
  let pc := c.pc.toNat
  if 0x8000 < pc + 2 then .trap 1
  else
    let h := memBytes c.imem pc 2
    if h % 4 = 3 then
      if 0x8000 < pc + 4 then .trap 1 else rvExec p k s c (memBytes c.imem pc 4) pc (pc + 4)
    else match expandC h with
      | some w => rvExec p k s c w pc (pc + 2)
      | none => .trap 2

/-- The physical unit of a core that may run: its unit carries the logical unit, a step runs, and neither the unit nor
the core has stopped. -/
def coreRuns (s : State) (unit : Fin 64) (k : Nat) : Option Nat :=
  match physUnit s unit.val with
  | none => none
  | some p =>
    let u := getUnit s p
    let step := decide (s.led.st = .opened) || decide (s.led.st = .updating)
    if step && decide (s.keep.dev = .running) && !u.stopped && !(getCore u k).stopped then some p else none

/-- A scalar trap (R147): the core stops, the unit has a fault, and 0x5024 keeps the cause. It is held as one more
than its value, so that 0 stands for none. -/
def scalarTrap (p k code : Nat) (s : State) : State :=
  let s := setCore p k { getCore (getUnit s p) k with stopped := true } s
  let s := { s with stat := { s.stat with boot := Sparse.set 0 s.stat.boot (ekey 0x5024 (p + 1)) (code + 256 * k + 1) } }
  unitFaultAt p 0 s

/-! ### Meanings -/

/-- SCALAR_INSTRUCTION (R146): one instruction, or none while the core waits. -/
def execScalarInstruction (unit : Fin 64) (core : Fin 4) (s : State) : Res :=
  .next (match coreRuns s unit core.val with
    | none => s
    | some p =>
      match rvStep p core.val s (getCore (getUnit s p) core.val) with
      | .done s c => setCore p core.val { c with retired := c.retired + 1 } s
      | .wait => s
      | .trap code => scalarTrap p core.val code s
      | .unitFault => unitFaultAt p 0 s)

/-- MBXOUT_WRITE (R148, R150): the effect of a core's write of mbxout. -/
def execMbxoutWrite (unit : Fin 64) (core : Fin 4) (v : W64) (s : State) : Res :=
  .next (match coreRuns s unit core.val with
    | none => s
    | some p => match postOut p core.val v s (getCore (getUnit s p) core.val) with
      | some (s, c) => setCore p core.val c s
      | none => s)

/-- MBXIN_READ (R148): the effect of a core's read of mbxin into register `rd`. -/
def execMbxinRead (unit : Fin 64) (core : Fin 4) (rd : Fin 32) (s : State) : Res :=
  .next (match coreRuns s unit core.val with
    | none => s
    | some p => match takeIn (getCore (getUnit s p) core.val) with
      | some (v, c) => setCore p core.val (c.setX rd.val v.toNat) s
      | none => s)

/-- CHMARK_WRITE (R148, R161): the effect of a core's write of chmark. -/
def execChmarkWrite (unit : Fin 64) (core : Fin 4) (v : W64) (s : State) : Res :=
  .next (match coreRuns s unit core.val with
    | none => s
    | some p => match chmark p v s with
      | some s => s
      | none => unitFaultAt p 0 s)

end Sys2Proof.Machine
end

