-- ==== Sys2Proof/Machine/Flits.lean ====
section
/-! DEFINITION. The link layer and the routes: flits, their CRC, replay and credits (R303 to R306), the torus, and the
port a flow takes (R299, R310 to R316). -/

namespace Sys2Proof.Machine

/-! ### CRC-32 (R303) -/

def crcBit (c : Nat) : Nat := if c % 2 = 1 then c / 2 ^^^ 0xEDB88320 else c / 2

def crcByte (c : Nat) (b : Byte) : Nat :=
  crcBit (crcBit (crcBit (crcBit (crcBit (crcBit (crcBit (crcBit (c ^^^ b.toNat))))))))

/-- The IEEE 802.3 CRC-32 of a byte string (R303). -/
def crc32 (bs : Bytes) : Nat := bs.foldl crcByte 0xFFFFFFFF ^^^ 0xFFFFFFFF

/-! ### Flit headers (R303) -/

/-- The header fields that a sender chooses; the link fills SEQ, ACK, NAK and the credit return. -/
structure Hdr where
  typ   : Nat
  vl    : Nat
  dl    : Bool := false
  rsp   : Bool := false
  last  : Bool := false
  dst   : Nat := 0
  src   : Nat := 0
  len   : Nat := 0
  addr  : Nat := 0
  tree  : Nat := 0
  txn   : Nat := 0
  unit  : Nat := 0
  ctx   : Nat := 0
  msgid : Nat := 0
  deriving DecidableEq, Repr

def b01 (b : Bool) : Nat := if b then 1 else 0

/-- The 224 header bits. -/
def Hdr.toNat (h : Hdr) (nak : Bool) (seq ack crvl crcnt : Nat) : Nat :=
  pack [(4, h.typ), (3, h.vl), (1, b01 h.dl), (1, b01 h.rsp), (1, b01 h.last), (1, b01 nak), (1, 0), (12, seq), (12, ack),
    (3, crvl), (9, crcnt), (14, h.dst), (2, 0), (14, h.src), (2, 0), (4, h.len), (4, 0), (42, h.addr), (6, 0), (12, h.tree),
    (4, 0), (16, h.txn), (6, h.unit), (9, h.ctx), (9, 0), (16, h.msgid), (16, 0)]

/-- The fields of received header bits. -/
def Hdr.of (x : Nat) : Hdr :=
  { typ := bits x 3 0, vl := bits x 6 4, dl := bit x 7, rsp := bit x 8, last := bit x 9, dst := bits x 61 48,
    src := bits x 77 64, len := bits x 83 80, addr := bits x 129 88, tree := bits x 147 136, txn := bits x 167 152,
    unit := bits x 173 168, ctx := bits x 182 174, msgid := bits x 207 192 }

/-! ### Sending -/

/-- The buffer class of a flit within its lane: request or response, before or after the dateline (R305). -/
def Hdr.cls (h : Hdr) : Nat := 2 * b01 h.rsp + b01 h.dl

/-- Flit credits of a buffer: lane 0 has 16, each of the four classes of another lane 64 (R305). -/
def classCredits (vl : Nat) : Nat := if vl = 0 then 16 else 64

/-- Credits that a lane of a port has given out for a class. -/
def usedOf (x : PortSt) (vl cls : Nat) : Nat :=
  ((Sparse.get [] x.used vl).filter fun c => decide (vl = 0) || decide (c = cls)).length

/-- A flit of 256 bytes: header, payload and check (R303). -/
def wireFlit (hb : Nat) (payload : Bytes) : Bytes :=
  let body := leBytes 28 hb ++ takePad 224 payload
  body ++ leBytes 4 (crc32 body)

/-- Null flits and link control belong to the link itself: they take no SEQ and no credit (DESIGN CHOICE, log entry 202); every
other flit is for the card that DST names. -/
def linkOnly (typ : Nat) : Bool := decide (typ = 0) || decide (typ = 8)

/-- A credit of a lane to return to the peer, or one kept back. -/
def oweCredit (p vl : Nat) (f : Nat → Nat) (s : State) : State :=
  let x := getPort s p
  setPort p { x with owe := Sparse.modify 0 x.owe vl f } s

/-- The buffer space of a flit that has left it: its credit goes back to the peer it came from (R305). -/
def giveBack (frm : Option Nat) (vl : Nat) (s : State) : State :=
  match frm with
  | none => s
  | some p => oweCredit p vl (· + 1) s

/-- Put one flit on the wire: SEQ, ACK and the credit return are the link's. -/
def emitFlit (p : Nat) (h : Hdr) (payload : Bytes) (nak : Bool) (s : State) : State :=
  let x := getPort s p
  let due := x.owe.head?.getD (0, 0)
  let n := min 511 due.2
  let null := linkOnly h.typ
  let seq := if null then (x.txSeq + 4095) % 4096 else x.txSeq
  let hb := h.toNat nak seq x.rxSeq due.1 n
  let x := { x with
    owe := Sparse.set 0 x.owe due.1 (due.2 - n),
    txSeq := if null then x.txSeq else (x.txSeq + 1) % 4096,
    used := if null then x.used else Sparse.modify [] x.used h.vl (· ++ [h.cls]),
    replay := if null then x.replay else x.replay ++ [(seq, hb, payload)] }
  let s := setPort p x s
  let s := if h.typ = 0 then s else
    countRun 0x5084 (p + 1) (16 * h.len) (countRun 0x2820 (h.vl + 1) (16 * h.len) s)
  send (.flit p (wireFlit hb payload)) s

/-- Whether a port may send a new flit now (R304), and whether its lane and class have a credit for it (R305). -/
def mayEmit (x : PortSt) (h : Hdr) : Bool :=
  !x.retrain && decide (x.replay.length < 1024) && decide (usedOf x h.vl h.cls < classCredits h.vl)

/-- The lanes of a port (R306). -/
def portLanes (p : Nat) : List Nat := if 16 ≤ p then [0, 4] else [0, 1, 2, 3, 5]

/-- The lanes in the order in which a fabric port asks them at a turn: lane 0, then the lane whose turn it is of the 13 turns of
lanes 1, 2, 3 and 5 with weights 4, 4, 4 and 1, then the lanes after it; a twin port has lanes 0 and 4 (R306). -/
def laneOrder (p turn : Nat) : List Nat :=
  let k := min 3 (turn / 4)
  if 16 ≤ p then [0, 4] else 0 :: (([1, 2, 3, 5].drop k) ++ ([1, 2, 3, 5].take k))

/-- The turn after a flit of a lane has gone. A lane that was not on turn begins its own turns. -/
def nextTurn (turn vl : Nat) : Nat :=
  if vl = 0 ∨ vl = 4 then turn
  else
    let k := if vl = 5 then 3 else vl - 1
    if min 3 (turn / 4) = k then (turn + 1) % 13 else (4 * k + 1) % 13

/-- The position in the queue of the flit that goes next: of the first lane in turn whose oldest flit has a credit. -/
def pickFlit (p : Nat) (x : PortSt) : Option Nat :=
  (laneOrder p x.turn).findSome? fun vl =>
    (List.range x.queue.length).find? (fun i => match x.queue[i]? with
      | some f => decide ((Hdr.of f.1).vl = vl) && mayEmit x (Hdr.of f.1) &&
          (x.queue.take i).all fun g => decide ((Hdr.of g.1).vl ≠ vl) || decide ((Hdr.of g.1).cls ≠ (Hdr.of f.1).cls)
      | none => false)

/-- Send the queued flits that now may go; a transit flit that leaves frees its buffer. -/
def drainQueue (p : Nat) : Nat → State → State
  | 0, s => s
  | n + 1, s =>
    let x := getPort s p
    match (pickFlit p x).bind fun i => (x.queue[i]?).map fun f => (i, f) with
    | none => s
    | some (i, hb, pl, frm) =>
      let h := Hdr.of hb
      drainQueue p n (giveBack frm h.vl
        (emitFlit p h pl false (setPort p { x with queue := x.queue.eraseIdx i, turn := nextTurn x.turn h.vl } s)))

/-- Send a flit, or queue it behind those that wait; `frm` is the port by which a transit flit came. A port out of service
carries none (R301, R302). -/
def sendOn (frm : Option Nat) (p : Nat) (h : Hdr) (payload : Bytes) (s : State) : State :=
  if !portUp s p then giveBack frm h.vl s
  else
    let x := getPort s p
    let s := setPort p { x with queue := x.queue ++ [(h.toNat false 0 0 0 0, payload, frm)] } s
    drainQueue p (x.queue.length + 1) s

/-- Send a flit of this card's own. -/
def sendFlit (p : Nat) (h : Hdr) (payload : Bytes) (s : State) : State := sendOn none p h payload s

/-- A port gives up what it has queued: the transit flits among it free their buffers. -/
def freeQueue (p : Nat) (s : State) : State :=
  let x := getPort s p
  x.queue.foldl (fun s f => giveBack f.2.2 (bits f.1 6 4) s) (setPort p { x with queue := [] } s)

/-- A null flit: ACK, NAK and credits on a link that has nothing else to send. -/
def sendNull (p : Nat) (nak : Bool) (s : State) : State := emitFlit p { typ := 0, vl := 0 } [] nak s

/-- Count a link retry (R304). -/
def countRetry (p : Nat) (s : State) : State := countBoot 0x5082 (p + 1) 1 (countRun 0x2820 7 1 s)

/-- Send the unacknowledged flits again, in order (R302, R304). -/
def resend (p : Nat) (s : State) : State :=
  (getPort s p).replay.foldl (fun s f => send (.flit p (wireFlit f.2.1 f.2.2)) s) s

/-- Take ACK, NAK and returned credits from a good flit. -/
def takeAck (p : Nat) (x : Nat) (s : State) : State :=
  let st := getPort s p
  let ack := bits x 35 24
  let replay := if st.replay.any (fun f => decide (f.1 = ack)) then
      (st.replay.dropWhile fun f => decide (f.1 ≠ ack)).drop 1 else st.replay
  let progress := decide (replay.length < st.replay.length)
  let nak := bit x 10
  let st := { st with replay := replay
                      used := Sparse.modify [] st.used (bits x 38 36) (·.drop (bits x 47 39))
                      retries := if progress then 0 else if nak then st.retries + 1 else st.retries }
  let s := setPort p st s
  let s := if nak then resend p (countRetry p s) else s
  drainQueue p st.queue.length s

/-- Receive a flit (R303 to R306): its header bits and payload where it is passed on. A flit that fails is dropped and
answered with NAK; one out of order is dropped, and one on a lane that the port does not carry is dropped and counted as a
retry (R306). -/
def recvFlit (p : Nat) (f : Flit) (s : State) : State × Option (Nat × Bytes) :=
  let x := f.hdr.toNat
  let body := leBytes 28 x ++ takePad 224 f.payload
  if !portUp s p || (getPort s p).retrain then (s, none)
  else if !f.fecOk || decide (f.crc.toNat ≠ crc32 body) then
    (sendNull p true (setPort p { getPort s p with nakSent := true } s), none)
  else if linkOnly (bits x 3 0) then
    (takeAck p x s, some (x, []))
  else
    let st := getPort s p
    if bits x 23 12 ≠ (st.rxSeq + 1) % 4096 then
      (if st.nakSent then s else sendNull p true (setPort p { st with nakSent := true } s), none)
    else
      let vl := bits x 6 4
      let bad := !(portLanes p).contains vl
      let st := { st with rxSeq := bits x 23 12, nakSent := false,
                          owe := Sparse.modify 0 st.owe vl (· + 1) }
      let s := takeAck p x (setPort p st s)
      if bad then (countRetry p s, none)
      else (s, some (x, f.payload.take (16 * bits x 83 80)))

/-! ### Routes (R314 to R316) -/

/-- Whether routes may use a port: in a job those in service when the attempt opened (R314), else those in service. -/
def routeUses (s : State) (p : Nat) : Bool := if jobRuns s then s.fab.routeUp.contains p else portUp s p

/-- A port of a direction for a flow (R314). -/
def flowPort (s : State) (d : Nat) (plus : Bool) (dst unit : Nat) : Option Nat :=
  let ps := dirPorts s d plus
  let up (p : Nat) : Bool := routeUses s p
  let first := if (dst + unit) % 2 = 0 then ps[0]? else (ps[1]?.orElse fun _ => ps[0]?)
  match first with
  | none => none
  | some p => if up p then some p else ps.find? up

/-- The port of the next hop from this card to `dst` (R314, R315); `frm` is the port by which a forwarded flit came. -/
def nextPort (s : State) (dst unit : Nat) (frm : Option Nat) : Option Nat :=
  let failed (c : Nat) : Bool := (failedCards s).contains c
  let rem (d : Nat) : Nat := (coordOf s dst d + (torus s d).1 - (torus s d).2) % (torus s d).1
  let zPlus := goesPlus (torus s 2).1 (rem 2)
  let y1 := (torus s 1).2 + (torus s 1).1 - 1
  let below (k : Nat) : Nat :=
    let z := if zPlus then (torus s 2).2 + k else (torus s 2).2 + (torus s 2).1 - k
    cardAt s (torus s 0).2 (y1 % (torus s 1).1) (z % (torus s 2).1)
  let behind := decide (rem 1 = (torus s 1).1 - 1) && decide (rem 2 ≠ 0)
  let detour := match frm with
    | none => false
    | some p =>
      let pd := portDir p
      behind && ((decide (pd.1 = 1) && !pd.2.1 && failed (below 1)) || (decide (pd.1 = 2) && failed (below 0)))
  if detour then flowPort s 2 zPlus dst unit
  else match (List.range 3).find? fun d => decide (rem d ≠ 0) with
    | none => none
    | some d =>
      let plus := goesPlus (torus s d).1 (rem d)
      if failed (neighbour s d plus 1) then
        if d < 2 then (bypassPort s d plus).filter (routeUses s)
        else flowPort s 1 true dst unit
      else flowPort s d plus dst unit

/-- The dateline class of a flit that leaves by a port (R316): set by a wrap, kept within a dimension. -/
def dateline (s : State) (out : Nat) (frm : Option Nat) (dl : Bool) : Bool :=
  let o := portDir out
  let t := torus s o.1
  let wraps := if o.2.1 then decide (t.1 ≤ t.2 + o.2.2) else decide (t.2 < o.2.2)
  let same := match frm with
    | some p => decide ((portDir p).1 = o.1)
    | none => false
  wraps || (same && dl)

/-- The card ID and device address of a global address, the card field taken through the map (R16, R311). -/
def globalTo (s : State) (g : Nat) : Option Nat × Nat := (cardOf s (g / 2 ^ 42 % 2 ^ 14), g % 2 ^ 42)

/-- Split bytes into flit payloads of 224 B. -/
def flitPayloads (bs : Bytes) : List Bytes := chunks 224 (bs.length / 16 + 1) bs

/-- A new transaction tag. -/
def freshTxn (s : State) : Nat × State :=
  (s.fab.nextTxn, { s with fab := { s.fab with nextTxn := (s.fab.nextTxn + 1) % 65536 } })

/-- Change one remote request. -/
def modRemote (txn : Nat) (f : Remote → Remote) (s : State) : State :=
  { s with fab := { s.fab with remotes := s.fab.remotes.map fun r => if r.txn = txn then f r else r } }

def findRemote (s : State) (txn : Nat) : Option Remote := s.fab.remotes.find? fun r => decide (r.txn = txn)

/-- Forget remote requests. -/
def dropRemotes (txns : List Nat) (s : State) : State :=
  { s with fab := { s.fab with remotes := s.fab.remotes.filter fun r => !txns.contains r.txn } }

/-- Send the flits of bytes that go to consecutive addresses, LAST on the last one if asked. -/
def sendRun (port : Nat) (h : Hdr) (addr : Nat) (bs : Bytes) (last : Bool) (s : State) : State :=
  let pls := flitPayloads bs
  pls.zipIdx.foldl (fun s pi =>
    sendFlit port { h with addr := addr + 224 * pi.2, len := cdiv pi.1.length 16, dl := dateline s port none h.dl,
                           last := last && decide (pi.2 + 1 = pls.length) } pi.1 s) s

end Sys2Proof.Machine
end

