-- ==== Sys2Proof/Machine/Trees.lean ====
section
/-! DEFINITION. Multicast trees on this card (R318, R325 to R328): forwarding to children, the weir, detachment. -/

namespace Sys2Proof.Machine

/-- The weir per branch in bytes (R326). -/
def weir : Nat := 262144

def treeRec (s : State) (tree : Nat) : Option TreeRec := s.plan.plan.trees.find? fun t => decide (t.tree = tree)

def getTree (s : State) (tree : Nat) : TreeRun := Sparse.get {} s.fab.trees tree

def setTree (tree : Nat) (x : TreeRun) (s : State) : State :=
  { s with fab := { s.fab with trees := Sparse.set {} s.fab.trees tree x } }

/-- Whether a branch is standing (R328). -/
def standing (s : State) (tree child : Nat) : Bool :=
  s.fab.branches.any fun b => decide (b.tree = tree) && decide (b.child = child) && decide (0 < b.held)

/-- The children to which this card forwards a tree's stream. -/
def attached (s : State) (t : TreeRec) : List Nat :=
  t.child.filter fun c => !(getTree s t.tree).detached.contains c && !standing s t.tree c

/-- The lane of a detach message (R326). -/
def detachLane : Nat := 2

/-- Whether a flit is data of a branch. -/
def ofBranch (tree card hb : Nat) : Bool :=
  decide (bits hb 147 136 = tree) && decide (bits hb 61 48 = card) && decide (bits hb 3 0 = 5)

/-- Bytes of a branch queued on the port that leads to the child. -/
def branchQueued (s : State) (port tree card : Nat) : Nat :=
  (((getPort s port).queue.filter fun f => ofBranch tree card f.1).map fun f => f.2.1.length).sum

/-- Bytes of a branch that the child has not accepted: queued or unacknowledged. -/
def backlog (s : State) (port tree card : Nat) : Nat :=
  branchQueued s port tree card + (((getPort s port).replay.filter fun f => ofBranch tree card f.2.1).map fun f => f.2.2.length).sum

/-- Send one flit of a tree to a child, where a port leads to it. -/
def toChild (tree child : Nat) (typ : Nat) (h : Hdr) (payload : Bytes) (s : State) : State :=
  match cardOf s child with
  | none => s
  | some c => match nextPort s c h.unit none with
    | none => s
    | some p => sendFlit p { h with typ := typ, dst := c, src := cardId s, tree := tree,
                                    len := cdiv payload.length 16, dl := dateline s p none false } payload s

/-- The multicast control messages (TYPE 6): 0 start, 1 detach, with the root's logical card ID, the source address and
length, and the landed byte count. The payload layout is the model's (DESIGN CHOICE, log entry 24). -/
def treeControl (tree child kind : Nat) (r : TreeRun) (landed : Nat) (s : State) : State :=
  toChild tree child 6 { typ := 6, vl := if kind = 1 then detachLane else r.vl, addr := r.dst, txn := r.txn, unit := r.unit }
    (leBytes 32 (pack [(16, kind), (16, r.root), (64, r.src), (64, r.len), (64, landed)])) s

/-- Whether a multicast that this card sends is over: its last byte is sent, and every attached child has landed it. -/
def treeDone (s : State) (t : TreeRec) : Bool :=
  let r := getTree s t.tree
  r.ended && (attached s t).all fun c => r.acked.contains c

/-- At the root, the request ends; at another node the parent is told (R325): an acknowledgement on the stream's lane whose
payload is the landed byte count (DESIGN CHOICE, log entry 24). -/
def treeCheck (tree : Nat) (s : State) : State :=
  match treeRec s tree with
  | none => s
  | some t =>
    if treeDone s t then
      let r := getTree s tree
      if t.role = 0 then
        let mark (q : Remote) : Remote := if q.tree = some tree ∧ q.write = true then { q with done := true } else q
        { s with fab := { s.fab with remotes := s.fab.remotes.map mark } }
      else match r.up with
        | none => s
        | some c => match nextPort s c r.unit none with
          | none => s
          | some p => sendFlit p { typ := 4, vl := r.vl, rsp := true, dst := c, src := cardId s, tree := tree, len := 1,
                                   txn := r.txn, unit := r.unit, dl := dateline s p none false } (leBytes 16 r.landed) s
    else s

/-- Discard a branch's queued flits (R326). -/
def dropBranch (port tree card : Nat) (s : State) : State :=
  let x := getPort s port
  setPort port { x with queue := x.queue.filter fun f => !ofBranch tree card f.1 } s

/-- Detach a child (R326): its backlog is discarded and it is told what it lands: the bytes before `at` but for those discarded
here. What is on the wire or unacknowledged still reaches it. -/
def detachChild (t : TreeRec) (child port at' : Nat) (s : State) : State :=
  let r := getTree s t.tree
  let left := branchQueued s port t.tree ((cardOf s child).getD 0)
  let s := dropBranch port t.tree ((cardOf s child).getD 0) s
  let s := setTree t.tree { r with detached := r.detached ++ [child] } s
  let s : State := if s.fab.detRun.contains (t.tree, child) then s
    else { s with fab := { s.fab with detRun := s.fab.detRun ++ [(t.tree, child)] } }
  let s := countRun 0x2820 8 1 s
  treeCheck t.tree (treeControl t.tree child 1 r (at' - left) s)

/-- The ports of a tree's attached branches for the stream of a unit. -/
def branchPorts (s : State) (t : TreeRec) (unit : Nat) : List Nat :=
  (attached s t).filterMap fun c => (cardOf s c).bind fun card => nextPort s card unit none

/-- Whether some attached branch of a tree without DETACH stands at the weir: the node accepts no further flit. -/
def treeHeld (s : State) (t : TreeRec) (unit n : Nat) : Bool :=
  !t.detach && (attached s t).any fun c =>
    match cardOf s c with
    | none => false
    | some card => match nextPort s card unit none with
      | none => false
      | some p => decide (weir < backlog s p t.tree card + n)

/-- Forward the data flit of stream position `at` to every attached child, detaching those whose backlog would pass the weir. -/
def treeForward (t : TreeRec) (at' : Nat) (h : Hdr) (payload : Bytes) (s : State) : State :=
  (attached s t).foldl (fun s c =>
    match cardOf s c with
    | none => s
    | some card => match nextPort s card h.unit none with
      | none => s
      | some p =>
        if t.detach && decide (weir < backlog s p t.tree card + payload.length) then detachChild t c p at' s
        else toChild t.tree c 5 h payload s) s

/-- Open a stream on a tree: the start message to every child, and a detach message to standing ones (R328). -/
def treeStart (t : TreeRec) (r : TreeRun) (s : State) : State :=
  t.child.foldl (fun s c =>
    let s := treeControl t.tree c 0 r 0 s
    if standing s t.tree c then treeControl t.tree c 1 r 0 s else s) (setTree t.tree r s)

end Sys2Proof.Machine
end

