-- ==== Sys2Proof/Machine/Streams.lean ====
section
/-! DEFINITION. Stream contexts (R165 to R182): descriptors and their address patterns, bursts, landing, end markers,
pools and the lock break, stream faults. -/

namespace Sys2Proof.Machine

/-! ### Descriptors (R173 to R178), as 512-bit numbers -/

def dKind (d : Nat) : Nat := bits d 3 0
def dClass (d : Nat) : Nat := bits d 5 4
def dSrc (d : Nat) : Nat := bits d 9 6
def dDst (d : Nat) : Nat := bits d 13 10
def dPersist (d : Nat) : Bool := bit d 14
def dDch (d : Nat) : Nat := bits d 21 16
def dSch (d : Nat) : Nat := bits d 27 22
def dPort (d : Nat) : Nat := bits d 31 28
def dTree (d : Nat) : Nat := bits d 43 32
def dStag (d : Nat) : Nat := bits d 63 48
def dSaddr (d : Nat) : Nat := bits d 119 64
def dBurst (d : Nat) : Nat := bits d 127 120 + 1
def dDaddr (d : Nat) : Nat := bits d 183 128
def dRowlen (d : Nat) : Nat := bits d 215 192
def dRowstride (d : Nat) : Nat := bits d 255 216
def dCount (d : Nat) : Nat := bits d 287 256
def dLimit (d : Nat) : Nat := bits d 319 288
def dIch (d : Nat) : Nat := bits d 325 320
def dHdridx (d : Nat) : Bool := decide (dKind d = 2) && bit d 326

/-- Replace bits `[hi:lo]` of a number. -/
def setBits (x hi lo v : Nat) : Nat := x - bits x hi lo * 2 ^ lo + v % 2 ^ (hi + 1 - lo) * 2 ^ lo

/-- Replace a rearm field (R199). -/
def rearm (d : Nat) (f : RearmField) (v : Nat) : Nat :=
  match f with
  | .saddr => setBits d 119 64 v
  | .daddr => setBits d 183 128 v
  | .count => setBits d 287 256 v
  | .cblk => setBits d 255 240 v
  | .ostart => setBits d 409 370 v
  | .tap => setBits (setBits (setBits d 293 290 (bits v 3 0)) 331 328 (bits v 7 4)) 369 366 (bits v 11 8)

/-- The patterned side is memory: the source where it is memory, else the destination (R173; log entry 25). -/
def dBase (d : Nat) : Nat := if dSrc d ≤ 1 then dSaddr d else dDaddr d

/-! Strided (R175). -/

def dLen0 (d : Nat) : Nat := bits d 223 192
def dCnt (d i : Nat) : Nat := bits d (15 + 192 + 64 * i) (192 + 64 * i) + 1
def dStr (d i : Nat) : Int := signed 40 (bits d (55 + 192 + 64 * i) (16 + 192 + 64 * i))

/-! Convolution (R178). -/

def cBits (d : Nat) : Nat :=
  match bits d 197 195 with
  | 0 => 32 | 1 => 16 | 2 => 8 | 3 => 6 | _ => 4
def cDims (d : Nat) : Nat := bits d 193 192
def cMx (d : Nat) : Bool := bit d 194
def cKt (d : Nat) : Nat := 64 * 2 ^ bits d 199 198
def cField (d i hi lo : Nat) : Nat := bits d (256 + 38 * i + hi) (256 + 38 * i + lo)
def cSize (d i : Nat) : Nat := cField d i 15 0
def cKer (d i : Nat) : Nat := cField d i 19 16 + 1
def cStr (d i : Nat) : Nat := cField d i 22 20 + 1
def cDil (d i : Nat) : Nat := cField d i 25 23 + 1
def cLo (d i : Nat) : Nat := cField d i 29 26
def cHi (d i : Nat) : Nat := cField d i 33 30
def cTap (d i : Nat) : Nat := cField d i 37 34

/-- Output size of a dimension (R88). -/
def cOut (d i : Nat) : Int :=
  ((cSize d i + cLo d i + cHi d i : Nat) - ((cKer d i - 1) * cDil d i + 1 : Nat) : Int) / (cStr d i : Int) + 1

/-- Bytes of a convolution row. -/
def cRow (d : Nat) : Nat := roundUp (cKt d * cBits d / 8 + (if cMx d then cKt d / 32 else 0)) 16

/-- Bytes that a stream moves; none where its pool's end headers end it (R177). -/
def dTotal (d : Nat) : Option Nat :=
  match dKind d with
  | 0 => some (bits d 231 192)
  | 1 => some (dLen0 d * dCnt d 1 * dCnt d 2 * dCnt d 3 * dCnt d 4)
  | 2 => if dHdridx d then none else some (dCount d * dRowlen d)
  | _ => some (bits d 433 410 * cRow d)

/-- A computed address as a number: one below 0 lies outside every range, as its two's complement in 64 bits does. -/
def outOfRange (x : Int) : Nat := if x < 0 then unsigned 64 x else x.toNat

/-- The memory address of stream byte `pos`, for linear and strided streams, and for an indexed one on index `x`. -/
def addrAt (d : Nat) (x : Nat) (pos : Nat) : Nat :=
  match dKind d with
  | 0 => dBase d + pos
  | 1 =>
    let l := dLen0 d
    let q := pos / l
    let i1 := q % dCnt d 1
    let i2 := q / dCnt d 1 % dCnt d 2
    let i3 := q / dCnt d 1 / dCnt d 2 % dCnt d 3
    let i4 := q / dCnt d 1 / dCnt d 2 / dCnt d 3
    outOfRange ((dBase d : Int) + i1 * dStr d 1 + i2 * dStr d 2 + i3 * dStr d 3 + i4 * dStr d 4 + (pos % l : Nat))
  | _ => dBase d + x * dRowstride d + (if dHdridx d then pos else pos % dRowlen d)

/-- The runs of consecutive addresses of stream bytes `[pos, pos + n)`: address and length. -/
def runs (d x : Nat) : Nat → Nat → Nat → List (Nat × Nat)
  | 0, _, _ => []
  | fuel + 1, pos, n =>
    if n = 0 then []
    else
      let m := match dKind d with
        | 1 => min n (dLen0 d - pos % dLen0 d)
        | _ => n
      (addrAt d x pos, m) :: runs d x fuel (pos + m) (n - m)

def runsOf (d x pos n : Nat) : List (Nat × Nat) := runs d x (n + 1) pos n

/-- Device addresses end here (R5, R222). -/
def deviceEnd (v : Variant) : Nat := v.barges * 2 ^ 21

/-- What an index stands for (R176). -/
inductive Index where
  | row (x : Nat)
  | hole
  | fault
  deriving DecidableEq, Repr

def classify (v : Variant) (d x : Nat) : Index :=
  if x = 0xFFFFFFFF then .hole
  else if dLimit d ≤ x ∨ deviceEnd v ≤ dBase d % 2 ^ 42 + x * dRowstride d then .fault
  else .row x

/-! ### Contexts -/

def getCtx (u : UnitSt) (k : Nat) : Ctx := Sparse.get {} u.ctxs k

def setCtxU (u : UnitSt) (k : Nat) (c : Ctx) : UnitSt := { u with ctxs := Sparse.set {} u.ctxs k c }

def setCtx (p k : Nat) (c : Ctx) (s : State) : State := modUnit p (fun u => setCtxU u k c) s

/-- The end mark of a port is gone when a new stream feeds it (log entry 26). -/
def openPort (u : UnitSt) (d : Nat) : UnitSt :=
  match dDst d with
  | 1 => { u with rowPort := Sparse.modify {} u.rowPort (dPort d) fun q => { q with ended := false } }
  | 2 => { u with wtPort := Sparse.modify {} u.wtPort (dPort d) fun q => { q with ended := false } }
  | 3 => { u with vp0 := { u.vp0 with ended := false } }
  | _ => u

/-- Start a context on a descriptor (R167). -/
def startCtx (p k : Nat) (d : Nat) (num : Nat) (s : State) : State :=
  modUnit p (fun u => setCtxU (openPort u d) k
    { st := .run, desc := BitVec.ofNat 512 d, dnum := num,
      srcPos := if dSrc d = 2 then bits (dSaddr d) 17 0 else 0 }) s

/-! ### Pools (R163, R181) -/

/-- Bank rows of a chamber. -/
def ChDef.rows (d : ChDef) : Nat := d.size / 64

def poolFree (u : UnitSt) (k : Nat) : Nat := (chDef u k).rows - ((getCh u k).bursts.map fun b => b.claimed).sum

/-- The context that takes the next free row: round-robin by context number after `last`. -/
def nextTaker (bs : List PoolBurst) (last : Nat) : Option Nat :=
  let w := (bs.filter fun b => decide (b.claimed < b.rows + 1)).map (·.ctx)
  let least (l : List Nat) : Option Nat := l.foldl (fun m c => match m with | none => some c | some x => some (min x c)) none
  match least (w.filter fun c => decide (last < c)) with
  | some c => some c
  | none => least w

/-- Grant `n` free rows one at a time. -/
def grantRows : Nat → Nat → List PoolBurst → List PoolBurst
  | 0, _, bs => bs
  | n + 1, last, bs =>
    match nextTaker bs last with
    | none => bs
    | some c => grantRows n c (bs.map fun b => if b.ctx = c ∧ b.claimed < b.rows + 1 then { b with claimed := b.claimed + 1 } else b)

/-- Grant the free rows of a pool (R163). -/
def poolGrant (u : UnitSt) (k : Nat) : UnitSt :=
  let c := getCh u k
  setCh u k { c with bursts := grantRows (poolFree u k) 512 c.bursts }

/-- The burst that a context claims or fills. -/
def ownBurst (u : UnitSt) (k ctx : Nat) : Option PoolBurst :=
  (getCh u k).bursts.find? fun b => decide (b.ctx = ctx) && !b.done

/-- A burst has landed: it is complete, behind those complete before it. -/
def poolLand (u : UnitSt) (k ctx : Nat) (data : Bytes) : UnitSt :=
  let c := getCh u k
  match ownBurst u k ctx with
  | none => u
  | some b =>
    setCh u k { c with bursts := (c.bursts.filter fun x => !(decide (x.ctx = ctx) && !x.done)) ++
      [{ b with done := true, data := takePad (64 * b.rows) data }] }

/-- The header row of a burst (R163). -/
def PoolBurst.header (b : PoolBurst) : Bytes :=
  leBytes 64 (pack [(16, b.ctx), (16, b.rows), (32, b.ord), (32, b.index)])

/-- The contexts that write a pool: those armed with a descriptor that names it (DESIGN CHOICE, log entry 160). -/
def poolWriters (u : UnitSt) (k : Nat) : List Nat :=
  (u.ctxs.filter fun kc => decide (dDst kc.2.desc.toNat = 0) && decide (dDch kc.2.desc.toNat = k)).map (·.1)

/-! ### Sources in the lock -/

/-- What a source gives: bytes, with the index of a pool burst; nothing yet; an end header; the end of a ring. -/
inductive Src where
  | ok (u : UnitSt) (c : Ctx) (bs : Bytes) (index : Nat)
  | wait
  | header (u : UnitSt) (c : Ctx)
  | ended (u : UnitSt)

/-- Take up to `n` bytes from the source chamber (R160 to R163, R195). -/
def takeChamber (u : UnitSt) (c : Ctx) (d n : Nat) : Src :=
  let k0 := dSch d
  let df := chDef u k0
  match df.kind with
  | 1 =>
    let k := if df.pair then k0 / 2 * 2 + (if c.smem then 1 else 0) else k0
    let ch := getCh u k
    if !ch.full || ch.fault then .wait
    else
      let m := min n (ch.filled - c.srcPos)
      let bs := chBytes u u.cur k c.srcPos m
      if ch.filled ≤ c.srcPos + m then
        match releaseCh u k with
        | none => .wait
        | some u => if m = 0 then .header u { c with smem := !c.smem, srcPos := bits (dSaddr d) 17 0 }
            else .ok u { c with smem := !c.smem, srcPos := bits (dSaddr d) 17 0 } bs 0
      else .ok u { c with srcPos := c.srcPos + m } bs 0
  | 2 =>
    let ch := getCh u k0
    let have_ := ((match ch.endAt.head? with | some e => min e ch.wr | none => ch.wr) - ch.rd) * 64 - c.srcPos
    if ch.wr = ch.rd ∧ ch.endAt.head? ≠ some ch.rd then .wait
    else if ch.endAt.head? = some ch.rd then .ended (setCh u k0 { ch with endAt := ch.endAt.tail })
    else
      let m := min n have_
      let bs := (List.range m).map fun i =>
        let o := c.srcPos + i
        Sparse.get 0 u.cur.lock (df.offset ((ch.rd + o / 64) % df.rows * 64 + o % 64))
      .ok (setCh u k0 { ch with rd := ch.rd + (c.srcPos + m) / 64 }) { c with srcPos := (c.srcPos + m) % 64 } bs 0
  | 3 =>
    let ch := getCh u k0
    match ch.bursts.find? (·.done) with
    | none => .wait
    | some b =>
      let u := poolGrant (setCh u k0 { ch with bursts := ch.bursts.erase b }) k0
      if dHdridx d then
        if b.rows = 0 then .header u { c with ends := if c.ends.contains b.ctx then c.ends else c.ends ++ [b.ctx] }
        else .ok u c (b.data.take (min (dRowlen d) (64 * b.rows))) b.index
      else .ok u c (b.header ++ b.data) 0
  | _ => .wait

/-- Take up to `n` bytes from a source inside the unit. -/
def takeSrc (u : UnitSt) (c : Ctx) (d n : Nat) : Src :=
  match dSrc d with
  | 2 => takeChamber u c d n
  | 3 =>
    let m := min n u.vout.data.length
    if m = 0 then .wait
    else .ok { u with vout := { u.vout with data := u.vout.data.drop m } } c (u.vout.data.take m) 0
  | _ =>
    let m := min n u.dout.data.length
    if m = 0 then .wait
    else .ok { u with dout := { u.dout with data := u.dout.data.drop m } } c (u.dout.data.take m) 0

/-- Take the next index from the index chamber (R176). -/
def takeIndex (u : UnitSt) (c : Ctx) (d : Nat) : Src :=
  let k0 := dIch d
  let df := chDef u k0
  match df.kind with
  | 1 =>
    let k := if df.pair then k0 / 2 * 2 + (if c.iMem then 1 else 0) else k0
    let ch := getCh u k
    if !ch.full || ch.fault then .wait
    else
      let x := leNat (chBytes u u.cur k c.iPos 4)
      if ch.filled ≤ c.iPos + 4 then
        match releaseCh u k with
        | none => .wait
        | some u => if ch.filled ≤ c.iPos then .header u { c with iMem := !c.iMem, iPos := 0 }
            else .ok u { c with iMem := !c.iMem, iPos := 0 } [] x
      else .ok u { c with iPos := c.iPos + 4 } [] x
  | 2 =>
    let ch := getCh u k0
    if ch.endAt.head? = some ch.rd then .ended (setCh u k0 { ch with endAt := ch.endAt.tail })
    else if ch.wr = ch.rd then .wait
    else
      let x := leNat ((List.range 4).map fun i => Sparse.get 0 u.cur.lock (df.offset (ch.rd % df.rows * 64 + c.iPos + i)))
      .ok (setCh u k0 { ch with rd := ch.rd + (c.iPos + 4) / 64 }) { c with iPos := (c.iPos + 4) % 64 } [] x
  | _ => .wait

/-! ### Destinations in the unit -/

/-- The member of a destination chamber being filled. -/
def dstMember (u : UnitSt) (c : Ctx) (d : Nat) : Nat :=
  let k0 := dDch d
  if (chDef u k0).pair then k0 / 2 * 2 + (if c.dmem then 1 else 0) else k0

/-- Bytes of one row of the batch chamber. -/
def batchRow (u : UnitSt) : Nat :=
  match (List.range 64).find? fun k => decide ((chDef u k).kind = 5) with
  | some k => (chDef u k).size / 64
  | none => 64

/-- What bursts in flight will bring to a destination of the unit: rows for the batch buffer (8), else bytes. -/
def comingTo (u : UnitSt) (dst : Nat) : Nat :=
  (u.ctxs.map fun kc => match kc.2.flight with
    | some f => if dDst kc.2.desc.toNat = dst then (if dst = 8 then 1 else f.len) else 0
    | none => 0).sum

/-- How much of a burst the destination has room for. -/
inductive Room where
  | ok (n : Nat)
  | space
  | fault

/-- How many bytes VP0 takes in: the 16 KiB that it buffers, beyond those that the instruction held at the port takes (R132). -/
def vp0Holds (u : UnitSt) : Nat := 16384 + (match u.hold with | some (.port n) => n | _ => 0)

/-- Space within the destination for a burst of up to `n` bytes (R168). -/
def room (u : UnitSt) (c : Ctx) (d n : Nat) : Room :=
  match dDst d with
  | 0 =>
    let k := dstMember u c d
    let df := chDef u k
    let ch := getCh u k
    match df.kind with
    | 1 =>
      if df.writer ≠ 0 then .fault
      else if ch.full then .space
      else .ok (min n (df.size - (if ch.filled = 0 then bits (dDaddr d) 17 0 else ch.filled)))
    | 2 =>
      let m := min n (64 * df.rows - ch.part)
      if df.rows < ch.wr - ch.rd + cdiv (ch.part + m) 64 then .space else .ok m
    | 3 => .ok n
    | _ => .fault
  | 7 =>
    let ch := getCh u (30 + dPort d % 2)
    if (chDef u (30 + dPort d % 2)).kind ≠ 4 then .fault
    else if ch.full then .space else .ok (min n (slotFill u (dPort d % 2) - ch.filled))
  | 8 =>
    if (Sparse.get {} u.batch u.bopen).closed ∨
        ((Sparse.get {} u.batch (1 - u.bopen)).closed ∧ 64 ≤ (Sparse.get {} u.batch u.bopen).rows.length + comingTo u 8) then
      .space
    else .ok (min n (batchRow u - c.rowPart.length))
  | 3 => if vp0Holds u < u.vp0.data.length + (comingTo u 3 + n) then .space else .ok n
  | _ => .ok n

/-- Land bytes in a block chamber; filled, or at the stream's end, it is marked full (R161, R165). -/
def landBlock (u : UnitSt) (ctx : Nat) (c : Ctx) (d : Nat) (bs : Bytes) (ended : Bool) : UnitSt :=
  let k := dstMember u c d
  let ch := getCh u k
  let o := bits (dDaddr d) 17 0
  let at_ := if ch.filled = 0 then o else ch.filled
  let fin := at_ + bs.length
  let full := decide ((chDef u k).size ≤ fin)
  let u := chLand u k at_ bs
  let u := if ended then padRow u k fin else u
  let ch := { ch with filled := fin, full := full || ended, isEnd := ended, len := fin - o }
  setCtxU (setCh u k ch) ctx (if full || ended then { c with dmem := !c.dmem } else c)

/-- Land bytes in a ring, densely in stream order; at the stream's end the row begun is padded (R162, R173). -/
def landRing (u : UnitSt) (k : Nat) (bs : Bytes) (ended : Bool) : UnitSt :=
  let r := getCh u k
  let rows := (chDef u k).rows
  let put (u : UnitSt) (bi : Byte × Nat) : UnitSt :=
    let o := r.part + bi.2
    chLand u k ((r.wr + o / 64) % rows * 64 + o % 64) [bi.1]
  let fin := r.part + bs.length
  let pad := if ended then roundUp fin 64 - fin else 0
  setCh ((bs ++ zeros pad).zipIdx.foldl put u) k { r with wr := r.wr + (fin + pad) / 64, part := (fin + pad) % 64 }

/-- Land a burst's bytes inside the unit. A row for the batcher is gathered until it is whole; its request tag, which no
rule places in the stream, is a free value of the descriptor and the row's place in the stream. The open buffer must still
be open for it: none, if it is not. -/
def land (p k : Nat) (bs : Bytes) (ended : Bool) (s : State) : Option State :=
  let u := getUnit s p
  let c := getCtx u k
  let d := c.desc.toNat
  let add (q : Port) : Port := { q with data := q.data ++ bs }
  match dDst d with
  | 0 =>
    let ch := dstMember u c d
    match (chDef u ch).kind with
    | 1 => some (setUnit p (landBlock u k c d bs ended) s)
    | 2 => some (setUnit p (landRing u ch bs ended) s)
    | _ => some (setUnit p (poolLand u ch k bs) s)
  | 1 => some (setUnit p { u with rowPort := Sparse.modify {} u.rowPort (dPort d) add } s)
  | 2 => some (setUnit p { u with wtPort := Sparse.modify {} u.wtPort (dPort d) add } s)
  | 3 => some (setUnit p { u with vp0 := add u.vp0 } s)
  | 7 => some (setUnit p (landSlot u (dPort d % 2) bs ended) s)
  | _ =>
    let row := c.rowPart ++ bs
    if row.length < batchRow u ∧ ended = false then some (setUnit p (setCtxU u k { c with rowPart := row }) s)
    else if (Sparse.get {} u.batch u.bopen).closed then none
    else some (batchPush p row (Config.rowTag d (c.pos / max 1 (batchRow u))) (setUnit p (setCtxU u k { c with rowPart := [] }) s))

/-! ### End, fault -/

/-- Claim the row of a pool writer's end header, in place of the claims of a burst that has not issued. -/
def claimEnd (u : UnitSt) (k ctx : Nat) : UnitSt :=
  let c := getCh u k
  let claimed := match ownBurst u k ctx with | some b => min 1 b.claimed | none => 0
  let b : PoolBurst := { ctx := ctx, rows := 0, ord := 0, index := 0, claimed := claimed, done := false, data := [] }
  poolGrant (setCh u k { c with bursts := (c.bursts.filter fun x => !(decide (x.ctx = ctx) && !x.done)) ++ [b] }) k

/-- The end of a stream into the batch chamber: the row begun is padded and enters (R173), and the open buffer closes (R92, R165).
none while the row waits for a buffer. -/
def endBatch (p k : Nat) (s : State) : Option State :=
  let u := getUnit s p
  let c := getCtx u k
  let closed (s : State) : Bool := let u := getUnit s p; (Sparse.get {} u.batch u.bopen).closed
  if c.rowPart.isEmpty then some (if closed s then s else closeBuf p 8 s)
  else if closed s then none
  else
    let d := c.desc.toNat
    let t := batchPush p c.rowPart (Config.rowTag d (c.pos / max 1 (batchRow u))) (setUnit p (setCtxU u k { c with rowPart := [] }) s)
    some (if (getUnit t p).bopen = u.bopen ∧ closed t = false then closeBuf p 8 t else t)

/-- What a stream's end leaves at its destination (R165): none while it waits for space. Marks that the last landing
has left already stand. -/
def endMark (p k : Nat) (left : Bool) (s : State) : Option State :=
  let u := getUnit s p
  let c := getCtx u k
  let d := c.desc.toNat
  let fin (q : Port) : Port := { q with ended := true }
  match dDst d with
  | 0 =>
    let ch := dstMember u c d
    match (chDef u ch).kind with
    | 1 =>
      if left then some s
      else if (getCh u ch).full then none
      else some (setUnit p (landBlock u k c d [] true) s)
    | 2 =>
      let u := landRing u ch [] true
      some (setUnit p (setCh u ch { getCh u ch with endAt := (getCh u ch).endAt ++ [(getCh u ch).wr] }) s)
    | _ =>
      let u := claimEnd u ch k
      match ownBurst u ch k with
      | some b => if b.claimed = 1 then some (setUnit p (poolLand u ch k []) s) else none
      | none => none
  | 1 => some (setUnit p { u with rowPort := Sparse.modify {} u.rowPort (dPort d) fin } s)
  | 2 => some (setUnit p { u with wtPort := Sparse.modify {} u.wtPort (dPort d) fin } s)
  | 3 => some (setUnit p { u with vp0 := fin u.vp0 } s)
  | 7 =>
    if left then some s
    else if (getCh u (30 + dPort d % 2)).full then none
    else some (setUnit p (landSlot u (dPort d % 2) [] true) s)
  | 8 => endBatch p k s
  | _ => some s

/-- A stream that has ended waits for space for its end mark, and stays at its end (R165). A pool writer needs the burst of its
end header in the state. -/
def waitEnd (p k : Nat) (s : State) : State :=
  let u := getUnit s p
  let c := getCtx u k
  let d := c.desc.toNat
  let ch := dDch d
  let u := if dDst d = 0 ∧ (chDef u ch).kind = 3 then claimEnd u ch k else u
  setUnit p (setCtxU u k { c with st := .space, stop := true }) s

/-- The end of a stream (R165, R180). -/
def endStream (p k : Nat) (left : Bool) (s : State) : State :=
  match endMark p k left s with
  | none => waitEnd p k s
  | some s =>
    let c := getCtx (getUnit s p) k
    setCtx p k { c with st := if dPersist c.desc.toNat then .parked else .idle, stop := false, flight := none } s

/-- Return the credits of a burst (R172). -/
def returnCredits (u : UnitSt) (d n : Nat) : UnitSt :=
  match dClass d with
  | 0 => { u with rdCred := u.rdCred - n }
  | 1 => { u with wrCred := u.wrCred - n }
  | _ => { u with rmCred := u.rmCred - n }

/-- Credits of a class in use, and its limit. -/
def creditsOf (u : UnitSt) (d : Nat) : Nat × Nat :=
  match dClass d with
  | 0 => (u.rdCred, 4096)
  | 1 => (u.wrCred, 1024)
  | _ => (u.rmCred, 2048)

def takeCredits (u : UnitSt) (d n : Nat) : UnitSt :=
  match dClass d with
  | 0 => { u with rdCred := u.rdCred + n }
  | 1 => { u with wrCred := u.wrCred + n }
  | _ => { u with rmCred := u.rmCred + n }

/-- Record a stream fault in 0x3418 and report it (R182, R291). -/
def recordStreamFault (unit ctx dnum stag cause addr : Nat) (s : State) : State :=
  let s := countBoot 0x3410 9 1 { s with stat := { s.stat with
    sfStep := stepNow s, sfUnit := unit, sfCtx := ctx, sfDesc := dnum, sfTag := stag, sfCause := cause, sfAddr := addr } }
  reportAbort 4 0xFFFF (raiseOpen 0x0B unit (pack [(16, ctx), (16, dnum), (16, stag), (8, cause), (64, addr)]) s)

/-- A local device address as a global address. -/
def globalOf (s : State) (a : Nat) : Nat := (myLogical s).getD 0 * 2 ^ 42 + a

/-- A stream fault (R182): causes 1 late, 2 read failed, 3 write failed, 4 not backed. -/
def streamFault (p k cause addr : Nat) (s : State) : State :=
  let u := getUnit s p
  let c := getCtx u k
  let d := c.desc.toNat
  let u := match c.flight with
    | some f => returnCredits u d f.credits
    | none => u
  let ch := dstMember u c d
  let u := if dDst d = 0 then
      match (chDef u ch).kind with
      | 1 => setCh u ch { getCh u ch with full := true, isEnd := true, fault := true, len := (getCh u ch).filled }
      | 3 =>
        let r := getCh u ch
        poolGrant (setCh u ch { r with bursts := r.bursts.filter fun b => !(decide (b.ctx = k) && !b.done) }) ch
      | _ => u
    else if dDst d = 7 then
      let q := 30 + dPort d % 2
      setCh u q { getCh u q with full := true, isEnd := true, fault := true, len := (getCh u q).filled }
    else u
  let s := setUnit p (setCtxU u k { c with st := .fault, flight := none }) s
  let s := match c.flight with
    | some f => dropRemotes f.txns s
    | none => s
  recordStreamFault p k c.dnum (dStag d) cause addr s

/-! ### Memory sides -/

/-- What reading or writing runs of memory comes to. -/
inductive Runs where
  | ok (s : State) (bs : Bytes)
  | bad (s : State) (cause addr : Nat)

/-- Read runs of local memory in order; the outcome of the code is met on the first. -/
def readRuns (ecc : Ecc) : List (Nat × Nat) → State → Runs
  | [], s => .ok s []
  | (a, n) :: rs, s =>
    match readDev a n ecc s with
    | .notBacked s => .bad s 4 a
    | .failed s => .bad s 2 a
    | .ok s bs => match readRuns .clean rs s with
      | .ok s more => .ok s (bs ++ more)
      | .bad s c a => .bad s c a

/-- Write runs of local memory in order. -/
def writeRuns : List (Nat × Nat) → Bytes → State → Runs
  | [], _, s => .ok s []
  | (a, n) :: rs, bs, s =>
    match writeDev a (bs.take n) s with
    | .notBacked s => .bad s 4 a
    | .failed s => .bad s 3 a
    | .ok s _ => writeRuns rs (bs.drop n) s

/-- The input position of a convolution row (R89): none outside the input. -/
def cPos (d o : Nat) : Option Nat :=
  let n := cDims d
  let outs := (List.range n).map fun i => (cOut d i).toNat
  let coord (i : Nat) : Int :=
    let below := (outs.drop (i + 1)).foldl (· * ·) 1
    let oi := o / below % (outs.getD i 1)
    (oi * cStr d i + cTap d i * cDil d i : Nat) - (cLo d i : Int)
  let xs := (List.range n).map fun i => (coord i, cSize d i)
  if xs.all fun x => decide (0 ≤ x.1) && decide (x.1 < (x.2 : Int)) then
    some (xs.foldl (fun acc x => acc * x.2 + x.1.toNat) 0)
  else none

/-- One activation row of a convolution stream (R89, R178), output position `o`. -/
def cRowBytes (d o : Nat) (ecc : Ecc) (s : State) : Runs :=
  let kt := cKt d
  let w := cBits d
  let q := bits d 255 240
  let ch0 := q * kt
  let n := min kt (bits d 239 224 - ch0)
  match cPos d o with
  | none => .ok s (takePad (cRow d) (zeros (kt * w / 8) ++ (if cMx d then List.replicate (kt / 32) 127 else [])))
  | some flat =>
    let a := dSaddr d + flat * bits d 223 200 + ch0 * w / 8
    match readRuns ecc (if n = 0 then [] else [(a, cdiv (n * w) 8)]) s with
    | .bad s c a => .bad s c a
    | .ok s bs =>
      let elems := leBytes (kt * w / 8) (leNat bs % 2 ^ (n * w))
      if cMx d then
        let nb := cdiv n 32
        match readRuns .clean (if nb = 0 then [] else [(bits d 475 434 + flat * bits d 491 476 + ch0 / 32, nb)]) s with
        | .bad s c a => .bad s c a
        | .ok s sc => .ok s (takePad (cRow d) (elems ++ sc ++ List.replicate (kt / 32 - nb) 127))
      else .ok s (takePad (cRow d) elems)

/-- Rows of a convolution, from row `r`. -/
def cRows (d : Nat) : Nat → Nat → Ecc → State → Runs
  | 0, _, _, s => .ok s []
  | n + 1, r, ecc, s =>
    match cRowBytes d (bits d 409 370 + r) ecc s with
    | .bad s c a => .bad s c a
    | .ok s bs => match cRows d n (r + 1) .clean s with
      | .bad s c a => .bad s c a
      | .ok s more => .ok s (bs ++ more)

/-- The bytes of a burst from local memory. -/
def fetchBurst (d : Nat) (f : Flight) (ecc : Ecc) (s : State) : Runs :=
  if f.hole then .ok s (zeros f.len)
  else if dKind d = 3 then
    let r0 := f.pos / cRow d
    let r1 := cdiv (f.pos + f.len) (cRow d)
    match cRows d (r1 - r0) r0 ecc s with
    | .bad s c a => .bad s c a
    | .ok s bs => .ok s ((bs.drop (f.pos - r0 * cRow d)).take f.len)
  else readRuns ecc (runsOf d f.index f.pos f.len) s

/-! ### Remote requests (R307 to R309) -/

/-- The lane of a remote stream (R309). -/
def laneOf (s : State) (d : Nat) : Nat :=
  if s.plan.plan.redlo ≤ dStag d ∧ dStag d ≤ s.plan.plan.redhi then 1
  else if dSrc d = 1 ∨ dDst d = 6 then 2 else 3

/-- Count a remote request that failed. -/
def countRemoteFail (s : State) : State := countBoot 0x2820 0xC 1 s

/-- Cut runs into requests of at most 16,128 B (R303). -/
def cutRuns (rs : List (Nat × Nat)) : List (Nat × Nat) :=
  rs.flatMap fun r => (List.range (cdiv r.2 16128)).map fun i => (r.1 + 16128 * i, min 16128 (r.2 - 16128 * i))

/-- Send one read request for a context: none where no route leads there. -/
def sendRead (p k : Nat) (lane g n : Nat) (tree : Option Nat) (s : State) : Option (State × Nat) :=
  let lu := logicalUnit s p
  match globalTo s g with
  | (none, _) => none
  | (some card, a) =>
    match nextPort s card lu none with
    | none => none
    | some port =>
      if !portUp s port then none
      else
        let t := freshTxn s
        let r : Remote := { txn := t.1, unit := p, ctx := k, port := port, dst := card, write := false, tree := tree,
                            addr := a, len := n }
        let s : State := { t.2 with fab := { t.2.fab with remotes := t.2.fab.remotes ++ [r] } }
        some (sendFlit port { typ := 2, vl := lane, dst := card, src := cardId s, len := 1, addr := a, txn := t.1,
                              unit := lu % 64, ctx := k, last := true, dl := dateline s port none false }
          (leBytes 16 n) s, t.1)

/-- Read requests for each of a list of runs. -/
def sendReads (p k lane : Nat) : List (Nat × Nat) → State → List Nat → Option (State × List Nat)
  | [], s, ts => some (s, ts)
  | (g, n) :: rs, s, ts =>
    match sendRead p k lane g n none s with
    | none => none
    | some (s, t) => sendReads p k lane rs s (ts ++ [t])

/-- Send a burst of writes under one transaction, LAST on its last flit. -/
def sendWrites (p k lane : Nat) (rs : List (Nat × Nat)) (bs : Bytes) (s : State) : Option (State × List Nat) :=
  let lu := logicalUnit s p
  match rs with
  | [] => some (s, [])
  | (g0, _) :: _ =>
    match globalTo s g0 with
    | (none, _) => none
    | (some card, a0) =>
      match nextPort s card lu none with
      | none => none
      | some port =>
        if !portUp s port then none
        else
          let t := freshTxn s
          let r : Remote := { txn := t.1, unit := p, ctx := k, port := port, dst := card, write := true, addr := a0,
                              len := bs.length }
          let s : State := { t.2 with fab := { t.2.fab with remotes := t.2.fab.remotes ++ [r] } }
          let h : Hdr := { typ := 1, vl := lane, dst := card, src := cardId s, txn := t.1, unit := lu % 64, ctx := k }
          let fin := rs.foldl (fun (acc : State × Bytes × Nat) gn =>
            (sendRun port h (gn.1 % 2 ^ 42) (acc.2.1.take gn.2) (decide (acc.2.2 + 1 = rs.length)) acc.1,
              acc.2.1.drop gn.2, acc.2.2 + 1)) (s, bs, 0)
          some (fin.1, [t.1])

/-- The flits of multicast bytes at stream position `pos`, LAST on the last one if this ends the stream. -/
def mcSend (t : TreeRec) (d pos : Nat) (bs : Bytes) (last : Bool) (txn unit ctx : Nat) (s : State) : State :=
  let pls := if bs.isEmpty then [[]] else flitPayloads bs
  let s := pls.zipIdx.foldl (fun s pi =>
    let h : Hdr := { typ := 5, vl := laneOf s d, addr := dDaddr d % 2 ^ 42 + pos + 224 * pi.2, txn := txn, unit := unit,
                     ctx := ctx, last := last && decide (pi.2 + 1 = pls.length) }
    treeForward t (pos + 224 * pi.2) h pi.1 s) s
  let r := getTree s t.tree
  setTree t.tree { r with landed := pos + bs.length, ended := last } s

/-! ### STREAM_BURST (R168) -/

/-- Put a burst in flight, with its credits. -/
def fly (p k : Nat) (f : Flight) (s : State) : State :=
  modUnit p (fun u =>
    let c := getCtx u k
    setCtxU (takeCredits u c.desc.toNat f.credits) k { c with st := .run, flight := some f }) s

/-- Whether the class has credits for a burst of `n` bytes. -/
def hasCredit (u : UnitSt) (d n : Nat) : Bool := decide ((creditsOf u d).1 + cdiv n 64 ≤ (creditsOf u d).2)

/-- Whether this card itself is the target of a global address. -/
def toSelf (s : State) (g : Nat) : Bool := decide ((globalTo s g).1 = some (cardId s))

/-- Issue a read burst of `n` bytes from memory, local or remote. -/
def issueRead (p k n : Nat) (hole : Bool) (x : Nat) (s : State) : State :=
  let c := getCtx (getUnit s p) k
  let d := c.desc.toNat
  let f : Flight := { pos := c.pos, len := n, index := x, hole := hole, credits := cdiv n 64, data := [], txns := [],
                      retries := 0 }
  if dSrc d = 1 ∧ hole = false ∧ toSelf s (addrAt d x c.pos) = false then
    match sendReads p k (laneOf s d) (cutRuns (runsOf d x c.pos n)) s [] with
    | none => streamFault p k 2 (addrAt d x c.pos) (countRemoteFail s)
    | some (s, ts) => fly p k { f with txns := ts } s
  else fly p k f s

/-- Send bytes on a multicast tree: the flight of the last burst waits for the tree. -/
def issueTree (p k : Nat) (bs : Bytes) (last : Bool) (s : State) : State :=
  let c := getCtx (getUnit s p) k
  let d := c.desc.toNat
  match treeRec s (dTree d) with
  | none => streamFault p k 3 (dDaddr d) (countRemoteFail s)
  | some t =>
    let lu := logicalUnit s p % 64
    if (branchPorts s t lu).any fun q => !portUp s q then streamFault p k 3 (dDaddr d) (countRemoteFail s)
    else if treeHeld s t lu bs.length then setCtx p k { c with st := .data } s
    else
      let s := if c.pos = 0 then
          let tx := freshTxn s
          treeStart t { root := (myLogical s).getD 0, src := dSaddr d, len := (dTotal d).getD 0, dst := dDaddr d % 2 ^ 42,
                        txn := tx.1, unit := lu, vl := laneOf s d } tx.2
        else s
      let r := getTree s t.tree
      let f : Flight := { pos := c.pos, len := bs.length, index := 0, hole := false, credits := cdiv bs.length 64,
                          data := [], txns := if last then [r.txn] else [], retries := 0 }
      let s := if last then
          let q : Remote := { txn := r.txn, unit := p, ctx := k, port := 0xFF, dst := 0xFFFF, write := true,
                              tree := some t.tree, addr := dDaddr d }
          { s with fab := { s.fab with remotes := s.fab.remotes ++ [q] } }
        else s
      let s := fly p k f (mcSend t d c.pos bs last r.txn lu k s)
      let s := setCtx p k { getCtx (getUnit s p) k with lastSent := last } s
      if last then treeCheck t.tree s else s

/-- Issue a write burst: bytes that have left the lock or local memory go to memory, a remote card or a tree. -/
def issueWrite (p k : Nat) (bs : Bytes) (x : Index) (s : State) : State :=
  let c := getCtx (getUnit s p) k
  let d := c.desc.toNat
  let n := bs.length
  let f : Flight := { pos := c.pos, len := n, index := (match x with | .row x => x | _ => 0),
                      hole := decide (x = .hole) || decide (x = .fault), credits := cdiv n 64, data := bs, txns := [],
                      retries := 0 }
  let rs := if dSrc d ≤ 1 then [(dDaddr d + c.pos, n)] else if dHdridx d then [(addrAt d f.index 0, n)] else runsOf d f.index c.pos n
  match dDst d with
  | 6 => issueTree p k bs (decide (some (c.pos + n) = dTotal d)) s
  | 5 =>
    if f.hole ∨ (match rs with | [] => true | r :: _ => toSelf s r.1) = true then fly p k f s
    else match sendWrites p k (laneOf s d) rs bs s with
      | none => streamFault p k 3 (rs.head?.getD (0, 0)).1 (countRemoteFail s)
      | some (s, ts) => fly p k { f with txns := ts } s
  | _ => fly p k f s

/-- A stream ends that has not moved all the bytes its descriptor defines: after SSTOP, or at the end of its source. On a tree
the flit with LAST is still to be sent (R325). -/
def endEarly (p k : Nat) (s : State) : State :=
  let c := getCtx (getUnit s p) k
  if dDst c.desc.toNat = 6 ∧ c.lastSent = false ∧ 0 < c.pos then issueTree p k [] true (setCtx p k { c with stop := true } s)
  else endStream p k false s

/-- Whether a stream is over: it has moved every byte, or its pool's writers have all ended. -/
def streamOver (u : UnitSt) (c : Ctx) : Bool :=
  let d := c.desc.toNat
  match dTotal d with
  | some t => decide (t ≤ c.pos)
  | none =>
    !c.ends.isEmpty && (poolWriters u (dSch d)).all c.ends.contains

/-- Take the index that the next table row needs: the state, and what it stands for; none while it waits or ends. -/
def needIndex (p k : Nat) (s : State) : State × Option Index :=
  let u := getUnit s p
  let c := getCtx u k
  let d := c.desc.toNat
  if dKind d ≠ 2 ∨ dHdridx d = true then (s, some (.row 0))
  else match c.cur with
    | some x => (s, some (classify s.strap.variant d x))
    | none => match takeIndex u c d with
      | .wait => (setCtx p k { c with st := .data } s, none)
      | .header u c => (setUnit p (setCtxU u k { c with st := .data }) s, none)
      | .ended u => (endEarly p k (setUnit p u s), none)
      | .ok u c _ x =>
        let s := setUnit p (setCtxU u k { c with cur := some x, idx := c.idx + 1 }) s
        let i := classify s.strap.variant d x
        (if i = .fault then countRun 0x3410 8 1 s else s, some i)

/-- Bytes of the next burst before its destination is asked. -/
def burstWant (c : Ctx) (d : Nat) : Nat :=
  let m := min (64 * dBurst d) ((dTotal d).getD (c.pos + 64 * dBurst d) - c.pos)
  if dKind d = 2 && !dHdridx d then min m (dRowlen d - c.pos % dRowlen d) else m

/-- Bytes that the next burst takes from its source: from a pool, a whole burst, with its header where that moves too. -/
def srcWant (u : UnitSt) (c : Ctx) (d : Nat) : Nat :=
  let n := burstWant c d
  if dSrc d = 2 ∧ (chDef u (dSch d)).kind = 3 then
    match (getCh u (dSch d)).bursts.find? (·.done) with
    | some b => if dHdridx d then min (dRowlen d) (64 * b.rows) else 64 * (b.rows + 1)
    | none => n
  else n

/-- A burst into a pool: its claim grows row by row, and it issues when it is whole (R163, R168). ORD of a stream that is
not indexed, whose unit no rule states, is a free value of the descriptor and the burst's position. -/
def poolBurst (p k n : Nat) (x : Index) (s : State) : State :=
  let u := getUnit s p
  let c := getCtx u k
  let d := c.desc.toNat
  let ch := dDch d
  let n := min (if dKind d = 2 then dRowlen d else n) (64 * 255)
  let s := match ownBurst u ch k with
    | some _ => s
    | none =>
      let indexed := decide (dKind d = 2)
      let ord := if indexed then c.pos / max 1 (dRowlen d) else (Config.burstOrd d c.pos).toNat
      let b : PoolBurst := { ctx := k, rows := cdiv n 64, ord := ord, index := if indexed then c.cur.getD 0 else 0,
                             claimed := 0, done := false, data := [] }
      let u := poolGrant (setCh u ch { getCh u ch with bursts := (getCh u ch).bursts ++ [b] }) ch
      setUnit p u s
  let u := getUnit s p
  match ownBurst u ch k with
  | none => s
  | some b =>
    if b.claimed < b.rows + 1 then setCtx p k { getCtx u k with st := .space } s
    else if !hasCredit u d n then setCtx p k { getCtx u k with st := .data } s
    else issueRead p k n (decide (x = .hole) || decide (x = .fault)) (match x with | .row x => x | _ => 0) s

/-- The next burst of a context (R168): space claimed, then the requests issued. -/
def burst (p k : Nat) (s : State) : State :=
  let u := getUnit s p
  let c := getCtx u k
  let d := c.desc.toNat
  if streamOver u c then endStream p k false s
  else if c.stop then endEarly p k s
  else
    let r := needIndex p k s
    match r.2 with
    | none => r.1
    | some x =>
      let s := r.1
      let u := getUnit s p
      let c := getCtx u k
      let want := srcWant u c d
      let hole := decide (x = .hole) || decide (x = .fault)
      let xi := match x with | .row x => x | _ => 0
      if dSrc d ≤ 1 ∧ (dDst d ≤ 3 ∨ 7 ≤ dDst d) then
        if dDst d = 0 ∧ (chDef u (dDch d)).kind = 3 then poolBurst p k want x s
        else match room u c d want with
          | .fault => unitFaultAt p 0 s
          | .space => setCtx p k { c with st := .space } s
          | .ok n =>
            if !hasCredit u d n then setCtx p k { c with st := .data } s
            else issueRead p k n hole xi s
      else if dSrc d = 0 then
        if !hasCredit u d want then setCtx p k { c with st := .data } s
        else
          let f : Flight := { pos := c.pos, len := want, index := xi, hole := hole, credits := 0, data := [], txns := [],
                              retries := 0 }
          match fetchBurst d f .clean s with
          | .bad s cause a => streamFault p k cause (globalOf s a) s
          | .ok s bs => issueWrite p k bs x s
      else if !hasCredit u d want then setCtx p k { c with st := .data } s
      else match takeSrc u c d want with
        | .wait => setCtx p k { c with st := .data } s
        | .header u c => setUnit p (setCtxU u k { c with st := .data }) s
        | .ended u => endEarly p k (setUnit p u s)
        | .ok u c' bs idx =>
          let held := decide (dDst d = 6) && (match treeRec s (dTree d) with | some t => treeHeld s t (logicalUnit s p % 64) bs.length | none => false)
          if held then setCtx p k { c with st := .data } s
          else
          let s := setUnit p (setCtxU u k c') s
          if dHdridx d then
            let x := classify s.strap.variant d idx
            issueWrite p k bs x (if x = .fault then countRun 0x3410 8 1 s else s)
          else issueWrite p k bs x s

/-! ### MEMORY_REQUEST_COMPLETE (R169) -/

/-- After a burst has landed or is acknowledged: credits return, the position advances, and the stream may end. -/
def burstDone (p k : Nat) (f : Flight) (left : Bool) (s : State) : State :=
  let u := getUnit s p
  let c := getCtx u k
  let d := c.desc.toNat
  let u := returnCredits u d f.credits
  let whole := decide (dKind d = 2) && !dHdridx d && decide ((f.pos + f.len) % dRowlen d = 0)
  let u := setCtxU u k { c with st := .run, flight := none, pos := f.pos + f.len, cur := if whole then none else c.cur }
  let s := countRun 0x3410 (dClass d + 1) f.len (dropRemotes f.txns (setUnit p u s))
  if left then endStream p k true s else s

/-- Whether a burst is the stream's last. -/
def endsWith (d : Nat) (c : Ctx) (f : Flight) : Bool :=
  decide (dTotal d = some (f.pos + f.len)) || c.stop

/-- The bytes of a remote read's requests in order. -/
def remoteBytes (s : State) (f : Flight) : Bytes :=
  f.txns.flatMap fun t => match findRemote s t with
    | some r => r.got.take r.len
    | none => []

/-- A context's request completes. -/
def complete (p k : Nat) (ecc : Ecc) (s : State) : State :=
  let u := getUnit s p
  let c := getCtx u k
  let d := c.desc.toNat
  match c.flight with
  | none => s
  | some f =>
    let waits := f.txns.any fun t => match findRemote s t with
      | some r => !r.done
      | none => false
    if waits then s
    else
      let last := endsWith d c f
      if dDst d ≤ 3 ∨ 7 ≤ dDst d then
        let got := if !f.txns.isEmpty then .ok s (remoteBytes s f)
          else if dSrc d = 1 then readRuns ecc ((runsOf d f.index f.pos f.len).map fun r => (r.1 % 2 ^ 42, r.2)) s
          else fetchBurst d f ecc s
        match (if f.hole then .ok s (zeros f.len) else got) with
        | .bad s cause a => streamFault p k cause (globalOf s a) s
        | .ok s bs => match land p k bs last s with
          | none => s
          | some s => burstDone p k f last s
      else if f.hole || !f.txns.isEmpty || decide (dDst d = 6) then burstDone p k f last s
      else
        let rs := if dSrc d ≤ 1 then [(dDaddr d + f.pos, f.len)] else if dHdridx d then [(addrAt d f.index 0, f.len)]
          else runsOf d f.index f.pos f.len
        match writeRuns (if dDst d = 5 then rs.map fun r => (r.1 % 2 ^ 42, r.2) else rs) f.data (applyEcc ecc s) with
        | .bad s cause a => streamFault p k cause (globalOf s a) s
        | .ok s _ => burstDone p k f last s

/-! ### The lock break (R181) -/

/-- The stuck set of a pool: contexts that wait for space there and hold claims. -/
def stuckSet (u : UnitSt) (k : Nat) : List Nat :=
  ((getCh u k).bursts.filter fun b =>
    !b.done && decide (0 < b.claimed) && decide (b.claimed < b.rows + 1) && decide ((getCtx u b.ctx).st = .space)).map (·.ctx)

/-- The watchdog releases the claims of the highest-numbered context of a stuck set. -/
def lockBreak (p k : Nat) (s : State) : State :=
  let u := getUnit s p
  let set := stuckSet u k
  let c := getCh u k
  if (chDef u k).kind ≠ 3 ∨ set.length < 2 ∨ c.bursts.any (·.done) = true then s
  else
    let top := set.foldl max 0
    let free (b : PoolBurst) : PoolBurst := if b.ctx = top ∧ b.done = false then { b with claimed := 0 } else b
    let u := poolGrant (setCh u k { c with bursts := c.bursts.map free }) k
    countRun 0x5031 (p + 1) 1 (countRun 0x3410 6 1 (setUnit p u s))

/-! ### Late requests (R182, R245) -/

/-- A late request of a stream: issued again, or a fault beyond the limit. -/
def streamLate (p k : Nat) (s : State) : State :=
  let u := getUnit s p
  let c := getCtx u k
  let d := c.desc.toNat
  match c.flight with
  | none => s
  | some f =>
    if num s 0x3408 1 ≤ f.retries then streamFault p k 1 (globalOf s (addrAt d f.index f.pos % 2 ^ 42)) s
    else countRun 0x3410 7 1 (setCtx p k { c with flight := some { f with retries := f.retries + 1 } } s)

/-- A context may run: its unit is mapped and not stopped, a step runs, the card is not halted. -/
def ctxRuns (s : State) (unit : Fin 64) : Option Nat :=
  match physUnit s unit.val with
  | none => none
  | some p =>
    let step := decide (s.led.st = .opened) || decide (s.led.st = .updating)
    if step && decide (s.keep.dev = .running) && !(getUnit s p).stopped then some p else none

/-! ### The operations of the stream slot (R167, R199) -/

/-- SARM. -/
def opSarm (ctx desc : Nat) : SlotFn := fun p s =>
  let u := getUnit s p
  match (getCtx u ctx).st with
  | .idle => .ok (startCtx p ctx (Sparse.get 0 u.descs desc).toNat desc s)
  | .parked => .ok (startCtx p ctx (Sparse.get 0 u.descs desc).toNat desc s)
  | _ => .wait .notReady

/-- SREARM (R180). -/
def opSrearm (ctx : Nat) (field : RearmField) (src : RearmSrc) (hold : Bool) : SlotFn := fun p s =>
  let u := getUnit s p
  let c := getCtx u ctx
  if c.st ≠ .parked then .wait .notReady
  else
    let v := match src with
      | .record rix => (Sparse.get 0 u.recs rix.toNat).toNat % 2 ^ 64
      | .base h => (Sparse.get 0 u.h h.val).toNat
    let d := rearm c.desc.toNat field v
    if hold then .ok (setCtx p ctx { c with desc := BitVec.ofNat 512 d } s)
    else .ok (startCtx p ctx d c.dnum s)

/-- SSTOP (R165): a context that runs ends at its next burst boundary. -/
def opSstop (ctx : Nat) : SlotFn := fun p s =>
  let c := getCtx (getUnit s p) ctx
  match c.st with
  | .run => .ok (setCtx p ctx { c with stop := true } s)
  | .space => .ok (setCtx p ctx { c with stop := true } s)
  | .data => .ok (setCtx p ctx { c with stop := true } s)
  | _ => .ok s

/-- SWAIT: a context that is IDLE or PARKED has no write in flight. -/
def opSwait (ctx : Nat) : SlotFn := fun p s =>
  match (getCtx (getUnit s p) ctx).st with
  | .idle => .ok s
  | .parked => .ok s
  | _ => .wait .notReady

/-- The chamber that CMARK or CREL names: ISEL added to the chamber number (R199). -/
def markTarget (u : UnitSt) (ch isel : Nat) : Nat := ch + (if isel = 0 then 0 else (Sparse.get 0 u.i isel).toNat)

/-- CMARK (R161, R195): on an even chamber of a pair, the member of the write pointer, which moves. -/
def opCmark (ch isel : Nat) : SlotFn := fun p s =>
  let u := getUnit s p
  let k0 := markTarget u ch isel
  if 64 ≤ k0 then .fault 2
  else if (chDef u k0).kind ≠ 1 then .fault 0
  else
    let k := if k0 % 2 = 0 then member u k0 u.wptr else k0
    match markFull u k false false with
    | none => .fault 0
    | some u' => .ok (setUnit p
        (if (chDef u k).pair && decide (member u k u.wptr = k) then { u' with wptr := flipPtr u'.wptr k } else u') s)

/-- CREL (R161, R195). -/
def opCrel (ch isel : Nat) : SlotFn := fun p s =>
  let u := getUnit s p
  let k0 := markTarget u ch isel
  if 64 ≤ k0 then .fault 2
  else if (chDef u k0).kind ≠ 1 then .fault 0
  else match releaseCh u (if k0 % 2 = 0 then member u k0 u.rptr else k0) with
    | none => .fault 0
    | some u => .ok (setUnit p u s)

/-! ### Meanings of the stream engine's events -/

/-- STREAM_BURST (R168): a context that runs or waits takes its next burst; one with a burst in flight does not. -/
def execStreamBurst (unit : Fin 64) (ctx : Fin 512) (s : State) : Res :=
  .next (match ctxRuns s unit with
    | none => s
    | some p =>
      let c := getCtx (getUnit s p) ctx.val
      if c.flight.isSome then s
      else match c.st with
        | .run => burst p ctx.val s
        | .space => burst p ctx.val s
        | .data => burst p ctx.val s
        | _ => s)

/-- MEMORY_REQUEST_COMPLETE (R169): the burst in flight lands, or is acknowledged. -/
def execMemoryRequestComplete (unit : Fin 64) (ctx : Fin 512) (ecc : Ecc) (s : State) : Res :=
  .next (match physUnit s unit.val with
    | none => s
    | some p => complete p ctx.val ecc s)

/-- LOCK_BREAK (R181). -/
def execLockBreak (unit : Fin 64) (pool : Fin 64) (s : State) : Res :=
  .next (match physUnit s unit.val with
    | none => s
    | some p => lockBreak p pool.val s)

end Sys2Proof.Machine
end

