-- ==== Sys2Proof/Machine/Barges.lean ====
section
/-! DEFINITION. Frames, the barge owner (R229 to R233), the schedule walker (R237 to R242), patrol scrub and the move
off retired frames (R249, R251). -/

namespace Sys2Proof.Machine

/-! ### Free frames (R233) -/

/-- Reservoir frames of a group that barges may use: those below the plan frames and the frames of the side pond (R223, R253;
log entry 4). -/
def groupUsable (s : State) : Nat :=
  let n := (upGroups s).length
  s.strap.variant.groupFrames - cdiv 4096 n - cdiv (pondPieces s) n

/-- The lowest frame in `[lo, lo + n)` that is not taken. -/
def lowestFree (taken : List Nat) : Nat → Nat → Option Nat
  | 0, _ => none
  | n + 1, lo => if taken.contains lo then lowestFree taken n (lo + 1) else some lo

/-- Basin frames that hold a barge or are retired, each once. -/
def takenBasin (s : State) : List Nat :=
  let held := s.mem.barges.filterMap fun b => if b.2.bfv then some b.2.bframe else none
  held ++ s.mem.retB.filter fun f => !held.contains f

def takenResv (s : State) : List Nat :=
  s.mem.retR ++ s.mem.barges.filterMap fun b => if b.2.rfv then some b.2.rframe else none

/-- A basin frame of a stack: of the lookahead pool, or outside it. Frames 0 and 1 hold the barge table (R223). -/
def freeBasin (s : State) (stack : Nat) (la : Bool) : Option Nat :=
  let pool := s.plan.plan.lapool
  if s.mem.stackBad.contains stack then none
  else if la then lowestFree (takenBasin s) pool (stack * 65536 + 2)
  else lowestFree (takenBasin s) (65536 - 2 - pool) (stack * 65536 + 2 + pool)

/-- A reservoir frame of the next group in the rotation that is in service and has one. -/
def freeResv (s : State) : Option Nat :=
  let taken := takenResv s
  (List.range 8).foldl (fun acc i =>
    match acc with
    | some f => some f
    | none =>
      let g := (s.mem.rot + 1 + i) % 8
      if groupDown s g then none else lowestFree taken (groupUsable s) (g * 131072)) none

/-- Note the group that served (R233). -/
def tookResv (f : Nat) (s : State) : State := { s with mem := { s.mem with rot := groupOf f } }

/-- The stack of a barge's basin frame. -/
def stackOf (b : Nat) (e : BargeEnt) : Nat := if e.home = 8 then b % 8 else e.home

/-! ### Copies -/

/-- Copies that the engine of a region runs (R229). -/
def copiesOf (s : State) (region : Nat) : Nat := (s.mem.copies.filter fun c => decide (c.region = region)).length

def startCopy (b region : Nat) (took : Bool) (s : State) : State :=
  { s with mem := { s.mem with copies := s.mem.copies ++ [{ barge := b, took := took, region := region }] } }

/-- Promote entries name barges (R238). -/
def SchedEnt.names (e : SchedEnt) (b : Nat) : Bool := decide (e.first ≤ b) && decide (b < e.first + e.count)

def isIssued (s : State) (i step : Nat) : Bool := s.mem.issued.contains (i, step)

/-- The position of the current slot beginning (R239). -/
def position (s : State) : Nat := s.led.running * s.plan.plan.sps + s.mem.slot

/-- The lead in force: that of the step record (R242, R290). -/
def leadNow (s : State) : Nat := s.led.run.lead

/-- Whether a promote entry that names the barge is due within the horizon (R239). -/
def inHorizon (s : State) (b : Nat) : Bool :=
  let p := position s
  let l := leadNow s
  s.plan.plan.sched.zipIdx.any fun ei =>
    decide (ei.1.kind = 0) && ei.1.names b && (List.range 4).any fun j =>
      let step := s.led.running + j
      let q := step * s.plan.plan.sps + ei.1.slot
      !isIssued s ei.2 step && decide (max p (q - l) ≤ p + l + 1)

/-- The reservoir frame is freed unless KEEP or LA (R231). -/
def freeResvOf (e : BargeEnt) : BargeEnt := if e.keep || e.la then e else { e with rfv := false, rframe := 0 }

/-- What the owner does with a request: done, or it needs a copy and waits for a copy slot. -/
inductive Owner where
  | done (s : State)
  | full

/-- Promote (R231). -/
def ownerPromote (b : Nat) (la : Bool) (s : State) : Owner :=
  let e := barge s b
  match e.state with
  | 2 =>
    match freeBasin s (stackOf b e) la with
    | none => .done (countRun 0x3010 4 1 s)
    | some f =>
      let s' := if la then countRun 0x3010 6 1 s else s
      if e.zero then
        .done (countRun 0x3010 1 1 (setBarge b (freeResvOf { e with state := 1, tier := false, bframe := f, bfv := true }) s'))
      else if 4 ≤ copiesOf s (stackOf b e) then .full
      else .done (startCopy b (stackOf b e) false (setBarge b { e with state := 3, bframe := f, bfv := true } s'))
  | 4 => .done (countRun 0x3010 8 1 (setBarge b { e with pend := true } s))
  | _ => .done s

/-- Evict (R231). -/
def ownerEvict (b : Nat) (s : State) : Owner :=
  let e := barge s b
  let cancel := Owner.done (countRun 0x3010 3 1 s)
  match e.state with
  | 3 => cancel
  | 1 =>
    if 0 < e.users ∨ inHorizon s b = true then cancel
    else if e.rfv && (!e.dirty || e.zero) then
      .done (countRun 0x3010 2 1 (setBarge b { e with state := 2, tier := true, bfv := false, bframe := 0 } s))
    else match (if e.rfv then some e.rframe else freeResv s) with
      | none => cancel
      | some r =>
        let s' := if e.rfv then s else tookResv r s
        if e.zero then
          let e := { e with rframe := r, rfv := true }
          .done (countRun 0x3010 2 1 (setBarge b { e with state := 2, tier := true, bfv := false, bframe := 0 } s'))
        else if 4 ≤ copiesOf s (stackOf b e) then .full
        else .done (startCopy b (stackOf b e) (!e.rfv) (setBarge b { e with state := 4, rframe := r, rfv := true } s'))
  | _ => .done s

def ownerTry (r : MigReq) (s : State) : Owner := if r.promote then ownerPromote r.barge r.la s else ownerEvict r.barge s

/-- Requests that an engine has queued. -/
def queued (s : State) (region : Nat) : Nat := (s.mem.queue.filter fun r => decide (stackOf r.barge (barge s r.barge) = region)).length

/-- A request comes to its engine: acted on at once, or queued in order of arrival (R229). -/
def takeRequest (r : MigReq) (s : State) : State :=
  let wait : State := { s with mem := { s.mem with queue := s.mem.queue ++ [r] } }
  if 0 < queued s (stackOf r.barge (barge s r.barge)) then wait
  else match ownerTry r s with
    | .done s => s
    | .full => wait

/-- A request is raised. One that finds 256 requests in the engine's queue waits where it was raised, and those raised
after it wait behind it (R229). -/
def request (r : MigReq) (s : State) : State :=
  if !s.mem.raised.isEmpty || decide (256 ≤ queued s (stackOf r.barge (barge s r.barge))) then
    { s with mem := { s.mem with raised := s.mem.raised ++ [r] } }
  else takeRequest r s

/-- Take up the requests that wait where they were raised, in order, as far as the queues have room. -/
def takeRaised : Nat → State → State
  | 0, s => s
  | n + 1, s =>
    match s.mem.raised with
    | [] => s
    | r :: rs =>
      if 256 ≤ queued s (stackOf r.barge (barge s r.barge)) then s
      else takeRaised n (takeRequest r { s with mem := { s.mem with raised := rs } })

def raisePromote (b : Nat) (la : Bool) (s : State) : State := request { barge := b, promote := true, la := la } s
def raiseEvict (b : Nat) (s : State) : State := request { barge := b, promote := false, la := false } s

/-- Act on the queued requests of a region's engine that now can be acted on, in order. -/
def pumpEngine (region : Nat) : Nat → State → State
  | 0, s => s
  | n + 1, s =>
    match s.mem.queue.find? fun r => decide (stackOf r.barge (barge s r.barge) = region) with
    | none => s
    | some r =>
      match ownerTry r s with
      | .full => s
      | .done s => pumpEngine region n { s with mem := { s.mem with queue := s.mem.queue.erase r } }

/-- A copy slot of a region's engine is free: its queue goes on, and so do the requests that wait for room in the queue. -/
def pumpQueue (region : Nat) (s : State) : State :=
  let s := pumpEngine region s.mem.queue.length s
  takeRaised s.mem.raised.length s

/-- The end of a barge's copy: its slot frees. -/
def endCopy (b : Nat) (s : State) : State :=
  { s with mem := { s.mem with copies := s.mem.copies.filter fun c => decide (c.barge ≠ b) } }

/-- Copy failed (R231). -/
def copyFails (b : Nat) (s : State) : State :=
  match s.mem.copies.find? fun c => decide (c.barge = b) with
  | none => s
  | some c =>
    let e := barge s b
    let s := countRun 0x3010 0xA 1 (endCopy b s)
    let s := if e.state = 3 then setBarge b { e with state := 2, bframe := 0, bfv := false } s
      else if c.took then setBarge b { e with state := 1, pend := false, rframe := 0, rfv := false } s
      else setBarge b { e with state := 1, pend := false, dirty := true } s
    pumpQueue c.region s

/-- A copy is complete: TIER switches to the target, or both frames stay (R231). -/
def copySwitch (b : Nat) (c : MigCopy) (s : State) : State :=
  let e := barge s b
  let s := endCopy b s
  let s := if e.state = 3 then
      countRun 0x3010 1 1 (setBarge b (freeResvOf { e with state := 1, tier := false, dirty := false }) s)
    else if e.pend then countRun 0x3010 1 1 (setBarge b { e with state := 1, dirty := false, pend := false } s)
    else countRun 0x3010 2 1 (setBarge b { e with state := 2, tier := true, dirty := false, bframe := 0, bfv := false } s)
  pumpQueue c.region s

/-- Copy done (R230, R231): the rest of the chunks is copied, and the target then holds every byte of the source. A group
that has failed (R247), or an uncorrectable block in what was still to be copied (R246), makes the copy fail. -/
def copyDone (b : Nat) (s : State) : State :=
  match copyOf s b with
  | none => s
  | some c =>
    let e := barge s b
    if Sparse.get 0 s.mem.group (groupOf e.rframe) = 2 then copyFails b (recordDamage (b * bargeBytes) true 4 false s)
    else
      let rest := c.chunks * chunkBytes
      match badIn s (copySrc e + rest) (bargeBytes - rest) with
      | some k => copyFails b (recordDamage (b * bargeBytes + (k * 64 - copySrc e)) (decide (e.state = 3)) 2 false s)
      | none => copySwitch b c (copyTo b 32 s)

/-! ### Uses (R240, R241) -/

/-- Register one use of a barge that ends at an epoch. EPOCH is the latest end, counted from the current epoch (R237). -/
def registerUse (b ends : Nat) (s : State) : State :=
  let e := barge s b
  let left (x : Nat) : Nat := (x + 2 ^ 32 - s.mem.epoch) % 2 ^ 32
  let latest := if e.users = 0 ∨ left e.epoch < left ends then ends else e.epoch
  setBarge b { e with users := min 65535 (e.users + 1), epoch := latest }
    { s with mem := { s.mem with uses := s.mem.uses ++ [{ barge := b, ends := ends }] } }

/-- End one use; the last use of a lookahead barge drops it (R241). -/
def endUse (b : Nat) (s : State) : State :=
  let e := barge s b
  let n := e.users - 1
  let e : BargeEnt := { e with users := n, epoch := if n = 0 then 0xFFFFFFFF else e.epoch }
  if n = 0 ∧ e.la = true then raiseEvict b (countRun 0x3010 7 1 (setBarge b { e with la := false } s))
  else setBarge b e s

/-- End every use whose end epoch is the current epoch. -/
def endUses (s : State) : State :=
  let done := s.mem.uses.filter fun u => decide (u.ends = s.mem.epoch)
  let s : State := { s with mem := { s.mem with uses := s.mem.uses.filter fun u => decide (u.ends ≠ s.mem.epoch) } }
  done.foldl (fun s u => endUse u.barge s) s

/-! ### The walker (R239) -/

/-- The barges of an entry. -/
def SchedEnt.barges (e : SchedEnt) (first : Nat) : List Nat := (List.range e.count).map (first + ·)

/-- Lookahead (R241): uses, LA and promotions of the barges of every expert with tokens; nothing where the count vector stays
late beyond the limit. -/
def lookahead (i : Nat) (e : SchedEnt) (s : State) : State :=
  if s.mem.lookLate.contains i then { s with mem := { s.mem with lookLate := s.mem.lookLate.filter (· ≠ i) } }
  else match readDev e.vaddr (4 * e.nexp) .clean s with
  | .notBacked s => s
  | .failed s => s
  | .ok s bs =>
    (List.range e.nexp).foldl (fun s i =>
      if leAt bs (4 * i) 4 = 0 then s
      else (e.barges (e.first + i * e.stride)).foldl (fun s b =>
        let s := registerUse b ((s.mem.epoch + e.span) % 2 ^ 32) s
        raisePromote b true (modBarge b (fun x => { x with la := true }) s)) s) s

/-- Raise one promote entry for a served step: one use of each barge, then the promotion (R240). -/
def issuePromote (i : Nat) (e : SchedEnt) (step : Nat) (s : State) : State :=
  let q := step * s.plan.plan.sps + e.slot
  let ends := (s.mem.epoch + (q - position s) + e.span) % 2 ^ 32
  let s : State := { s with mem := { s.mem with issued := s.mem.issued ++ [(i, step)] } }
  (e.barges e.first).foldl (fun s b => raisePromote b false (registerUse b ends s)) s

/-- The promote entries to raise now, in ascending served position, then section order. -/
def duePromotes (s : State) : List (Nat × SchedEnt × Nat) :=
  let k := s.mem.slot
  let l := leadNow s
  let sps := s.plan.plan.sps
  let pick (step lim : Nat) : List (Nat × SchedEnt × Nat) :=
    (List.range (min lim sps)).flatMap fun sl =>
      (s.plan.plan.sched.zipIdx.filter fun ei =>
        decide (ei.1.kind = 0) && decide (ei.1.slot = sl) && !isIssued s ei.2 step).map fun ei => (ei.2, ei.1, step)
  pick s.led.running (k + l + 1) ++ pick (s.led.running + 1) (k + l + 1 - sps)

/-- Promote entries of this slot that are late (R242). -/
def judgeLate (s : State) : State :=
  let late (e : SchedEnt) : Bool := (e.barges e.first).any fun b =>
    let x := barge s b
    decide (x.state = 3) || (decide (x.state = 4) && x.pend)
  s.plan.plan.sched.zipIdx.foldl (fun s' ei =>
    if ei.1.kind = 0 ∧ ei.1.slot = s.mem.slot ∧ late ei.1 = true then
      countRun 0x3010 5 1 { s' with mem := { s'.mem with lateEnt := s'.mem.lateEnt ++ [ei.2] } }
    else s') s

/-- The beginning of a schedule slot (R237, R239). -/
def beginSlot (k : Nat) (s : State) : State :=
  if s.plan.plan.sps = 0 ∨ s.plan.plan.sps ≤ k then s
  else
    let s : State := { s with mem := { s.mem with slot := k, epoch := (s.mem.epoch + 1) % 2 ^ 32 } }
    let s := endUses s
    let here (kind : Nat) := s.plan.plan.sched.zipIdx.filter fun e => decide (e.1.kind = kind) && decide (e.1.slot = k)
    let s := (here 1).foldl (fun s e => (e.1.barges e.1.first).foldl (fun s b => raiseEvict b s) s) s
    let s := (here 2).foldl (fun s e => lookahead e.2 e.1 s) s
    let s := (duePromotes s).foldl (fun s x => issuePromote x.1 x.2.1 x.2.2 s) s
    judgeLate s

/-- The next slot, at an opening of SLOTGATE. -/
def nextSlot (s : State) : State := beginSlot (s.mem.slot + 1) s

/-! ### Scrub and retirement -/

/-- Move a barge off a retired frame, where a free frame of the same tier (and stack) exists (R251). A frame of a group
that has failed cannot be read (R247). -/
def moveOff (b : Nat) (s : State) : State :=
  let e := barge s b
  let s := if e.bfv && s.mem.retB.contains e.bframe then
      match freeBasin s (stackOf b e) false with
      | none => s
      | some f => setBarge b { e with bframe := f } (moveBytes (basinKey e.bframe 0) (basinKey f 0) bargeBytes s)
    else s
  let e := barge s b
  if e.rfv && s.mem.retR.contains e.rframe && !groupDown s (groupOf e.rframe) then
    match freeResv s with
    | none => s
    | some f => setBarge b { e with rframe := f } (moveBytes (resvKey e.rframe 0) (resvKey f 0) bargeBytes (tookResv f s))
  else s

/-- Whether a barge still stands on a retired frame. -/
def onRetired (s : State) (b : Nat) : Bool :=
  (barge s b).bfv && s.mem.retB.contains (barge s b).bframe || (barge s b).rfv && s.mem.retR.contains (barge s b).rframe

/-- The moves of a step boundary. -/
def moveOffAll (s : State) : State :=
  let todo := s.mem.moveOff
  let s := todo.foldl (fun s b => moveOff b s) s
  { s with mem := { s.mem with moveOff := todo.filter (onRetired s) } }

/-! ### Meanings -/

/-- PROMOTE (R231): a promotion reaches the barge's owner; a lookahead promotion sets LA first (R241). -/
def execPromote (b : Nat) (lookahead : Bool) (s : State) : Res :=
  .next (raisePromote b lookahead (if lookahead then modBarge b (fun e => { e with la := true }) s else s))

/-- EVICT (R231): an eviction reaches the barge's owner. -/
def execEvict (b : Nat) (s : State) : Res := .next (raiseEvict b s)

end Sys2Proof.Machine
end

