-- ==== Sys2Proof/Machine/Hash.lean ====
section
/-! DEFINITION. SHAKE256 with a chosen output length (FIPS 202; PRESUMED, log entry 27), the measurement of R216,
R434, R437 and R438. -/

namespace Sys2Proof.Machine

/-- The 1600 bits of Keccak as one number: lane (x, y) stands at bit 64 (5y + x). -/
abbrev Sponge := BitVec 1600

/-- Lane (x, y), both coordinates taken modulo 5. -/
def Sponge.at (a : Sponge) (x y : Nat) : W64 := (a >>> (64 * (5 * (y % 5) + x % 5))).setWidth 64

/-- The sponge whose lane (x, y) is `f x y`. -/
def Sponge.tabulate (f : Nat → Nat → W64) : Sponge :=
  (List.range 25).foldr (fun i (a : Sponge) => (a <<< 64) ||| (f (i % 5) (i / 5)).setWidth 1600) 0

/-- θ: every lane takes up the parities of the column before it and, turned by one bit, of the column after it. -/
def Sponge.theta (a : Sponge) : Sponge :=
  let parity := (List.range 5).map fun x => (List.range 5).foldl (fun p y => p ^^^ a.at x y) 0
  .tabulate fun x y => a.at x y ^^^ parity.getD ((x + 4) % 5) 0 ^^^ (parity.getD ((x + 1) % 5) 0).rotateLeft 1

/-- ρ's offset of lane (x, y): the walk (u, v) ↦ (v, 2u + 3v) from (1, 0) meets it after t steps, and the offset is
(t + 1)(t + 2) / 2; the walk never meets (0, 0). -/
def rhoOffset (x y : Nat) : (left t u v : Nat) → Nat
  | 0, _, _, _ => 0
  | left + 1, t, u, v =>
    if u = x ∧ v = y then (t + 1) * (t + 2) / 2 % 64 else rhoOffset x y left (t + 1) v ((2 * u + 3 * v) % 5)

/-- ρ and π: every lane turned by its offset, then taken from (x + 3y, x). -/
def Sponge.rhoPi (a : Sponge) : Sponge :=
  .tabulate fun x y => (a.at (x + 3 * y) x).rotateLeft (rhoOffset ((x + 3 * y) % 5) x 24 0 1 0)

/-- χ. -/
def Sponge.chi (a : Sponge) : Sponge :=
  .tabulate fun x y => a.at x y ^^^ (a.at (x + 2) y &&& ~~~a.at (x + 1) y)

/-- The shift register of ι after `t` steps: the residue of X^t modulo X^8 + X^6 + X^5 + X^4 + 1. -/
def iotaRegister : Nat → BitVec 8
  | 0 => 1
  | t + 1 => let r := iotaRegister t; (r <<< 1) ^^^ (if r.msb then 0x71 else 0)

/-- ι's constant of round `r`: bit 2^j − 1 is the register's lowest bit after 7r + j steps. -/
def iotaWord (r : Nat) : W64 :=
  BitVec.ofNat 64 (((List.range 7).map fun j => ((iotaRegister (7 * r + j)).toNat % 2) <<< (2 ^ j - 1)).sum)

/-- The permutation: 24 rounds. -/
def Sponge.permute (a : Sponge) : Sponge :=
  (List.range 24).foldl (fun a r => a.theta.rhoPi.chi ^^^ (iotaWord r).setWidth 1600) a

/-- The blocks of 136 bytes of a padded message, absorbed in order. -/
def Sponge.absorb : List Bytes → Sponge → Sponge
  | [], a => a
  | b :: bs, a => Sponge.absorb bs (a ^^^ BitVec.ofNat 1600 (leNat b)).permute

/-- At least `136 n` bytes of output. -/
def Sponge.squeeze : Nat → Sponge → Bytes
  | 0, _ => []
  | n + 1, a => leBytes 136 a.toNat ++ Sponge.squeeze n a.permute

/-- The padded message: 0x1F, zeros, and the top bit of the last byte of the last block. -/
def shakePad (m : Bytes) : Bytes :=
  let n := 136 - m.length % 136
  if n = 1 then m ++ [0x9F] else m ++ [0x1F] ++ zeros (n - 2) ++ [0x80]

/-- SHAKE256 with `n` bytes of output. -/
def shake256 (m : Bytes) (n : Nat) : Bytes :=
  let p := shakePad m
  ((Sponge.absorb (chunks 136 (p.length / 136) p) 0).squeeze (n / 136 + 1)).take n

/-- The 64-byte measurement used throughout the spec. -/
def meas64 (m : Bytes) : Bytes := shake256 m 64

end Sys2Proof.Machine
end

