-- ==== Sys2Proof/Machine/Domains.lean ====
section
/-! DEFINITION. The 285 switched power domains (R17, R18, R414, R421, R428) and the clocks (R406, R408, R409): which of them are on.
A domain is on, and a clock runs, in the device states, boot phases and unit assignments that the rules name, so no register of its
own holds it. -/

namespace Sys2Proof.Machine

/-- The 285 domains of R17. -/
def allDomains : List Domain :=
  (List.finRange 72).flatMap (fun p => [Domain.array p, .vector p, .lock p]) ++ (List.finRange 16).map .clusterSwitch ++
    (List.finRange 8).map .engine ++ (List.finRange 8).map .basin ++ (List.finRange 4).map .die ++ [.pcie] ++
    (List.finRange 20).map .port ++ (List.finRange 8).map .group ++ (List.finRange 2).map .farEngine ++ [.security, .hostDma]

/-- Domains on in device state boot (R428, R431): the phase that starts one is under way or past. Phase 6 tests the units, spares
among them, and leaves them off (R18). In recovery mode PCIe and reservoir group 0 alone are on. -/
def bootDomain (s : State) (d : Domain) : Bool :=
  let past (p : Nat) : Bool := s.boot.phases.contains p
  if s.boot.recovery then decide (d = .pcie) || decide (d = .group 0)
  else match d with
    | .pcie => past 2
    | .die _ => past 3
    | .farEngine _ => past 3
    | .security => past 3
    | .hostDma => past 3
    | .basin _ => past 4
    | .group _ => past 4
    | .port _ => past 4
    | .clusterSwitch _ => past 5
    | .engine _ => past 5
    | .array _ => past 5 && !past 6
    | .vector _ => past 5 && !past 6
    | .lock _ => past 5 && !past 6

/-- Domains on in asleep (R421); a window access or a DMA command wakes the memory path (R423). -/
def sleepDomain (s : State) (d : Domain) : Bool :=
  match d with
  | .pcie => true
  | .hostDma => true
  | .basin _ => s.mem.memAwake
  | .group _ => s.mem.memAwake
  | _ => false

/-- Whether the die controller powers a unit (R18, R421): outside idle, one that carries a logical unit. A spare that is not
standing in stays off. -/
def unitPowered (s : State) (p : Nat) : Bool := decide (s.keep.dev ≠ .idle) && decide (logicalUnit s p < 64)

/-- Whether a domain is on (R421); a nap of the unit's own program switches array and vector domains (R208). -/
def domainOn (s : State) (d : Domain) : Bool :=
  if !s.keep.v48 then false
  else match s.keep.dev, d with
    | .boot, d => bootDomain s d
    | .asleep, d => sleepDomain s d
    | _, .array p => unitPowered s p && !(getUnit s p).napArr
    | _, .vector p => unitPowered s p && !(getUnit s p).napVec
    | _, .lock p => unitPowered s p
    | _, _ => true

/-- Whether a clock runs when the keeper has no work (R406, R408, R421, R423). The CAN controller needs the keeper oscillator while
its route is enabled; a clock made on demand runs with the domain that it drives. -/
def clockOn (s : State) (c : Clock) : Bool :=
  let io := if s.keep.dev = .asleep then s.keep.v48 && s.mem.memAwake else domainOn s (.farEngine 0)
  match c with
  | .crystal => s.keep.v48 || s.keep.vaux
  | .keeper => (s.keep.v48 || s.keep.vaux) && decide (num s 0x2022 1 ≠ 0)
  | .pcieRef => s.keep.v48
  | .pcieCore => domainOn s .pcie
  | .fabricRef => io || domainOn s (.group 0)
  | .ioCore => io
  | .port k => domainOn s (.port k)
  | .die d => domainOn s (.die d)
  | .stack k => domainOn s (.basin k)
  | .group g => domainOn s (.group g)

/-- An access of the host, or of staging, to the memory of a sleeping card wakes its memory path: the clocks and domains that stood
still start, and the request to the keeper is counted (R413, R423). -/
def wakePath (s : State) : State :=
  if s.keep.dev = .asleep ∧ s.mem.memAwake = false then countBoot 0x2118 2 1 { s with mem := { s.mem with memAwake := true } } else s

/-- The arithmetic clock of a die in MHz (R408, R416, R417, R419). -/
def dieMhz (s : State) (d : Fin 4) : Nat :=
  if s.keep.forced.contains d.val then 550 else [1100, 1000, 900, 800, 550].getD (s.keep.inForce.getD d.val 0) 550

end Sys2Proof.Machine
end

