-- ==== Sys2Proof/Machine/Ed448.lean ====
section
/-! DEFINITION. Ed448 signatures with a context (RFC 8032; PRESUMED, log entry 27), as R436, R438 and R446 use them. -/

namespace Sys2Proof.Machine

/-- The field prime. -/
def edP : Nat := 2 ^ 448 - 2 ^ 224 - 1

/-- The group order. -/
def edL : Nat := 2 ^ 446 - 13818066809895115352007386748515426880336692474882178609894547503885

/-- The curve constant −39081. -/
def edD : Nat := edP - 39081

/-- b^e mod m, by the bits of `e` from bit `n − 1` down. -/
def powMod (b e m : Nat) : Nat → Nat → Nat
  | 0, acc => acc
  | n + 1, acc => powMod b e m n (if e.testBit n then acc * acc % m * b % m else acc * acc % m)

def edInv (x : Nat) : Nat := powMod x (edP - 2) edP 448 1

/-- A point as X, Y, Z with x = X/Z and y = Y/Z. -/
structure EdPoint where
  x : Nat
  y : Nat
  z : Nat

def edBase : EdPoint :=
  { x := 224580040295924300187604334099896036246789641632564134246125461686950415467406032909029192869357953282578032075146446173674602635247710
    y := 298819210078481492676017930443930673437544040154080242095928241372331506189835876003536878655418784733982303233503462500531545062832660
    z := 1 }

def edZero : EdPoint := { x := 0, y := 1, z := 1 }

/-- Addition on the curve. -/
def edAdd (p q : EdPoint) : EdPoint :=
  let a := p.z * q.z % edP
  let b := a * a % edP
  let c := p.x * q.x % edP
  let d := p.y * q.y % edP
  let e := edD * (c * d % edP) % edP
  let f := (b + edP - e) % edP
  let g := (b + e) % edP
  let h := (p.x + p.y) * (q.x + q.y) % edP
  { x := a * f % edP * ((h + 2 * edP - c - d) % edP) % edP
    y := a * g % edP * ((d + edP - c) % edP) % edP
    z := f * g % edP }

/-- k × P by the bits of `k` from bit `n − 1` down. -/
def edMul (k : Nat) (p : EdPoint) : Nat → EdPoint → EdPoint
  | 0, acc => acc
  | n + 1, acc =>
    let t := edAdd acc acc
    edMul k p n (if k.testBit n then edAdd t p else t)

def edTimes (k : Nat) (p : EdPoint) : EdPoint := edMul k p 456 edZero

def edEq (p q : EdPoint) : Bool :=
  decide (p.x * q.z % edP = q.x * p.z % edP) && decide (p.y * q.z % edP = q.y * p.z % edP)

/-- Encoding of a point: 57 bytes. -/
def edEncode (p : EdPoint) : Bytes :=
  let zi := edInv p.z
  leBytes 57 (p.y * zi % edP + (p.x * zi % edP) % 2 * 2 ^ 455)

/-- Decoding of a point. -/
def edDecode (bs : Bytes) : Option EdPoint :=
  let n := leNat bs
  let y := n % 2 ^ 455
  let s := n / 2 ^ 455
  if bs.length ≠ 57 ∨ edP ≤ y ∨ 1 < s then none
  else
    let u := (y * y + edP - 1) % edP
    let v := (edD * (y * y % edP) + edP - 1) % edP
    let u3v := u * u % edP * u % edP * v % edP
    let r := u3v * powMod (u3v * u % edP * u % edP * v % edP * v % edP) ((edP - 3) / 4) edP 448 1 % edP
    if v * (r * r % edP) % edP ≠ u then none
    else if r = 0 ∧ s = 1 then none
    else some { x := if r % 2 = s then r else edP - r, y := y, z := 1 }

/-- dom4(0, context). -/
def edDom (ctx : Bytes) : Bytes := ascii "SigEd448" ++ leBytes 1 0 ++ leBytes 1 ctx.length ++ ctx

/-- The secret scalar and the prefix of a 57-byte private key. -/
def edSecret (seed : Bytes) : Nat × Bytes :=
  let h := shake256 seed 114
  let a := leNat (h.take 57)
  let a := a % 2 ^ 447
  (a - a % 4 + 2 ^ 447, h.drop 57)

/-- Sign a message with a context. -/
def edSign (seed pub ctx msg : Bytes) : Bytes :=
  let k := edSecret seed
  let r := leNat (shake256 (edDom ctx ++ k.2 ++ msg) 114) % edL
  let rb := edEncode (edTimes r edBase)
  let h := leNat (shake256 (edDom ctx ++ rb ++ pub ++ msg) 114) % edL
  rb ++ leBytes 57 ((r + h * k.1) % edL)

/-- Verify a signature of 114 bytes. -/
def edVerify (pub ctx msg sig : Bytes) : Bool :=
  let s := leNat ((sig.drop 57).take 57)
  match edDecode pub, edDecode (sig.take 57) with
  | some a, some r =>
    let h := leNat (shake256 (edDom ctx ++ sig.take 57 ++ pub ++ msg) 114) % edL
    decide (sig.length = 114) && decide (s < edL) &&
      edEq (edTimes 4 (edTimes s edBase)) (edTimes 4 (edAdd r (edTimes h a)))
  | _, _ => false

end Sys2Proof.Machine
end

