-- ==== Sys2Proof/Machine/Records.lean ====
section
/-! DEFINITION. Byte forms of the step record (R290), the per-entry form (R471), the standing set, the settings block
and the boundary block (R341), and the header of a firmware image (R436). -/

namespace Sys2Proof.Machine

/-- The 64 B step record (R290). -/
def StepRec.toBytes (r : StepRec) : Bytes :=
  leBytes 64 (pack [(64, r.step), (32, r.gen.toNat), (16, r.lead), (8, r.refresh.toNat), (12, r.clocks.toNat),
    (8, unsigned 8 r.l), (4, 0), (32, r.ring), (32, r.repair), (8, r.attempts), (32, r.lr.toNat), (8, r.quiet), (32, r.lrun)])

def StepRec.ofNat (x : Nat) : StepRec :=
  { step := bits x 63 0, gen := BitVec.ofNat 32 (bits x 95 64), lead := bits x 111 96, refresh := BitVec.ofNat 8 (bits x 119 112),
    clocks := BitVec.ofNat 12 (bits x 131 120), l := signed 8 (bits x 139 132), ring := bits x 175 144, repair := bits x 207 176,
    attempts := bits x 215 208, lr := BitVec.ofNat 32 (bits x 247 216), quiet := bits x 255 248, lrun := bits x 287 256 }

/-- Clock codes of a CLOCKS field, die by die. -/
def clockCodes (c : BitVec 12) : List Nat := (List.range 4).map fun d => bits c.toNat (3 * d + 2) (3 * d)

def packClocks (cs : List Nat) : BitVec 12 := BitVec.ofNat 12 (pack (cs.map fun c => (3, c)))

/-- One entry in the per-entry form (R471). -/
def EntryVal.form (e : EntryVal) : Bytes :=
  leBytes 2 e.idx.toNat ++ leBytes 1 e.sub.toNat ++
    (if e.val.length < 255 then leBytes 1 e.val.length else leBytes 1 255 ++ leBytes 4 e.val.length) ++ e.val

/-- Entries of a byte string in the per-entry form. -/
def parseEntries : Nat → Bytes → List EntryVal
  | 0, _ => []
  | n + 1, bs =>
    if bs.length < 4 then []
    else
      let short := decide (leAt bs 3 1 < 255)
      let len := if short then leAt bs 3 1 else leAt bs 4 4
      let start := if short then 4 else 8
      { idx := BitVec.ofNat 16 (leAt bs 0 2), sub := BitVec.ofNat 8 (leAt bs 2 1), val := slice bs start len } ::
        parseEntries n (bs.drop (start + len))

/-- The standing set as reported in 0x2819. -/
def standingSet (s : State) : Bytes :=
  (s.fab.branches.filter fun b => decide (0 < b.held)).flatMap fun b => leBytes 4 (b.tree + 65536 * b.child)

/-- The writable entries whose application point is step, with their sub-indices. -/
def stepEntries : List (Nat × Nat) :=
  (objects.filter fun o => decide (o.acc = .rwst) && decide (o.point = .step)).flatMap fun o =>
    (List.range (o.hi + 1 - o.lo)).map fun i => (o.idx, o.lo + i)

/-- The settings block (R341). -/
def settingsBlock (s : State) : List EntryVal :=
  stepEntries.map fun e => { idx := BitVec.ofNat 16 e.1, sub := BitVec.ofNat 8 e.2, val := valBytes s e.1 e.2 }

/-- The decision record of a card for the next step `n`: STEP names that step, RING and ATTEMPTS are 0 (R341). -/
def decisionRec (n : Nat) (r : StepRec) : StepRec := { r with step := n, ring := 0, attempts := 0 }

/-- A boundary block (R341): the last committed record, the decision record, the standing set and the settings block,
the last two each after a 4-byte count (DESIGN CHOICE, log entry 28). -/
def boundaryBytes (last dec : StepRec) (standing : Bytes) (settings : List EntryVal) : Bytes :=
  last.toBytes ++ dec.toBytes ++ leBytes 4 (standing.length / 4) ++ standing ++ leBytes 4 settings.length ++
    settings.flatMap EntryVal.form

/-- The parts of a boundary block. -/
structure Boundary where
  last     : StepRec
  dec      : StepRec
  standing : Bytes
  settings : List EntryVal

def parseBoundary (bs : Bytes) : Boundary :=
  let n := leAt bs 128 4
  let rest := bs.drop (132 + 4 * n)
  { last := StepRec.ofNat (leAt bs 0 64), dec := StepRec.ofNat (leAt bs 64 64), standing := slice bs 132 (4 * n),
    settings := parseEntries (leAt rest 0 4) (rest.drop 4) }

/-- FWVER and SVN of a firmware image (R436). -/
def fwVersion (img : Bytes) : Nat := leAt img 8 4
def fwSvn (img : Bytes) : Nat := leAt img 12 1

/-- An event entry (R398). -/
def Event.toBytes (e : Event) : Bytes :=
  leBytes 32 (pack [(8, e.typ), (2, e.sev), (6, 0), (16, e.source), (32, e.eseq), (64, e.step), (128, e.detail)])

end Sys2Proof.Machine
end

