-- ==== Sys2Proof/Machine/DictRead.lean ====
section
/-! DEFINITION. Reads of the object dictionary (R33 to R41): the value in force of every entry, on any route. -/

namespace Sys2Proof.Machine

/-! ### States that several entries report -/

/-- Sizes of the torus multiplied (0x2800:09). -/
def torusCards (s : State) : Nat := num s 0x2800 1 * num s 0x2800 2 * num s 0x2800 3

/-- Ports of the card. -/
def fittedPorts (s : State) : List Nat := (List.range 20).filter (portFitted s)

/-- Whether the fabric is trained (R301). -/
def fabricTrained (s : State) : Bool := decide (2 ≤ torusCards s) && (fittedPorts s).any (portUp s)

/-- Fabric state (0x2801:01). -/
def fabricState (s : State) : Nat :=
  if torusCards s < 2 then 0
  else if (fittedPorts s).any (portUp s) then
    (if (fittedPorts s).any fun p => decide (3 ≤ portCond s p) then 3 else 2)
  else if (fittedPorts s).any fun p => decide (portCond s p = 1) then 1 else 0

/-- Whether the card is an eligible spare (R361). -/
def eligibleSpare (s : State) : Bool :=
  (myLogical s).isNone && !(failedCards s).contains (cardId s) && fabricTrained s &&
    (decide (s.keep.dev = .idle) || (decide (s.keep.dev = .planLoaded) && !jobRuns s))

/-- Code of the device state (0x2000:01); 0 without 48 V. -/
def Dev.code : Dev → Nat
  | .boot => 0 | .asleep => 1 | .idle => 2 | .planLoaded => 3 | .running => 4 | .halted => 5

def LState.code : LState → Nat
  | .nojob => 0 | .opened => 1 | .updating => 2 | .ready => 3 | .aborting => 4 | .restoring => 5 | .lost => 6

def PairState.code : PairState → Nat
  | .none => 0 | .waiting => 1 | .seeding => 2 | .inStep => 3 | .solo => 4 | .mirrorService => 5

/-- The plan's contents while a plan is active, their defaults otherwise. -/
def planNow (s : State) : PlanSt := if s.plan.active.isSome then s.plan.plan else {}

/-- The row in force of each LED, by R469; a row whose pattern is Off reads 0. -/
def ledState (s : State) : Nat :=
  let power := if s.keep.v48 && s.keep.present then 1 else if s.keep.vaux then 2 else 0
  let state := if s.keep.tripped || s.boot.recovery then 1
    else match s.keep.dev with
      | .halted => 2 | .running => 3 | .planLoaded => 4 | .idle => 5 | .asleep => 6 | .boot => 7
  let fabric := if (fittedPorts s).any fun p => decide (portCond s p = 5) then 1
    else match fabricState s with | 3 => 2 | 2 => 3 | 1 => 4 | _ => 0
  let twin := if s.led.st = .lost ∨ s.twin.suspects = true then 1
    else match s.twin.pair with
      | .mirrorService => 2 | .solo => 3 | .inStep => 4 | .waiting => 5 | .seeding => 5 | .none => 0
  if s.keep.v48 || s.keep.vaux then pack [(4, power), (4, state), (4, fabric), (4, twin)] else 0

/-- Seconds of identify that remain. -/
def identifyLeft (s : State) : Nat := cdiv (s.keep.identEnd - s.keep.samples) 1024

/-- The order code of a variant. -/
def orderCode : Variant → String
  | .m4162 => "MLM-416-2T" | .m4161 => "MLM-416-1T" | .m2162 => "MLM-216-2T" | .m2041 => "MLM-204-1T"

/-- FWVER as text, major and minor (DESIGN CHOICE, log entry 29). -/
def versionText (v : Nat) : Bytes := ascii (toString (v / 65536) ++ "." ++ toString (v % 65536))

/-- The entry of the pending set's owner in 0x2012:06 (R64). -/
def Source.code (x : Source) : Nat :=
  let r := match x.route with | .can => 1 | .mailbox => 2 | .towpath => 3
  pack [(7, 0), (7, x.node.toNat), (14, x.card.toNat), (4, r)]

/-- 0x2011:05. -/
def awaitingBits (s : State) : Nat :=
  let has (p : Point) : Bool := s.dict.awaiting.any fun a => decide (a.point = p)
  pack [(1, b01 (has .idle)), (1, b01 (has .step)), (1, b01 (has .plan)), (5, 0), (1, b01 s.dict.discarded)]

/-- The lowest target step of awaiting parts (0x2011:06). -/
def awaitingTarget (s : State) : Nat :=
  (s.dict.awaiting.filterMap (·.target)).foldl (fun a t => if a = 0 then t else min a t) 0

/-- Generations that have awaiting parts (R47). -/
def gensAwaiting (s : State) : List (BitVec 32) :=
  s.dict.awaiting.foldl (fun (gs : List (BitVec 32)) a => if gs.contains a.gen then gs else gs ++ [a.gen]) []

/-- Sum of a tally kind over all tags: key tag × 4 + kind. -/
def tallySum (m : Sparse Nat) (kind : Nat) : Nat := ((m.filter fun kv => decide (kv.1 % 4 = kind)).map (·.2)).sum

/-- One 32 B line of the tally table (0x3C22). -/
def tallyLine (s : State) (tag : Nat) : Bytes :=
  let g (k : Nat) := Sparse.get 0 s.stat.tLatch (tag * 4 + k)
  leBytes 8 tag ++ leBytes 8 (g 0) ++ leBytes 8 (g 1) ++ leBytes 8 (g 2)

/-- The touched map (0x2002:04): 512 B, or empty with no layer table. -/
def touchedMap (s : State) : Bytes :=
  if (planNow s).lt.layers.isEmpty then []
  else leBytes 512 (s.led.touched.foldl (fun a k => a ||| 1 <<< k) 0)

/-- Condition of a physical unit as 0x5001 reports it (R15, R31). -/
def condReport (s : State) (p : Nat) : Nat :=
  let c := unitCond s p
  if 2 ≤ c then c else if logicalUnit s p < 64 ∧ regionShort s (regionOf p) = true then 5 else c

/-- Snapshot status (0x3029). -/
def snapBytes (x : Snap) : Bytes :=
  if x.state = 0 then zeros 16
  else leBytes 8 (pack [(8, x.state), (8, b01 x.single), (8, x.opener)]) ++ leBytes 8 x.step

/-- Pond bytes held by each use (R253). -/
def retainedBytes (s : State) : Nat := 2 * (planNow s).ringSlot

/-- The running slot (0x2200:02). -/
def runningSlot (s : State) : Nat := (s.boot.slotRun).getD 0xFF

def getSlot (s : State) (k : Nat) : SlotSt := if k = 0 then s.boot.slotA else s.boot.slotB

/-- The records of the log from a sequence number on (0x2230:04), in the form of R444. -/
def LogRec.toBytes (r : LogRec) : Bytes :=
  leBytes 4 r.boots ++ leBytes 4 r.ms ++ leBytes 4 r.seq ++ zeros 4 ++ r.ev.toBytes ++ zeros 16

def logFrom (s : State) : Bytes :=
  ((s.boot.log.filter fun r => decide (num s 0x2230 3 ≤ r.seq)).take 1024).flatMap LogRec.toBytes

/-- An attestation report (R446): formed from the values in force, signed by the identity key. -/
def attestation (s : State) : Bytes :=
  let act := s.plan.active.isSome
  let body := leBytes 8 (pack [(32, 0x52545441), (16, 1)]) ++ takePad 32 (valBytes s 0x2224 1) ++
    leBytes 4 s.strap.serial.toNat ++ leBytes 4 s.strap.variant.productCode ++ leBytes 4 s.boot.svn ++
    leBytes 4 s.boot.revoke.toNat ++ takePad 64 s.boot.fwMeas ++ takePad 64 (if act then s.plan.plan.meas else []) ++
    leBytes 16 (if act then s.plan.plan.sysid else 0) ++ leBytes 2 ((myLogical s).getD 0xFFFF) ++
    leBytes 2 (runningSlot s % 128 + (if (getSlot s (runningSlot s)).state = 3 then 128 else 0)) ++
    leBytes 8 s.led.committed ++ leBytes 4 s.boot.boots ++ zeros 8
  takePad 352 (body ++ edSign s.strap.idSeed s.strap.idPub (ascii "MolamAttest1") (body.take 224))

/-! ### Entries that are not in the maps of values or counts -/

/-- A map part: its entries are all of the group 0x2810, 0x2811 (R49). -/
def isMapPart (a : Part) : Bool :=
  decide (a.point = .step) && a.entries.all fun e => decide (e.idx = 0x2810#16) || decide (e.idx = 0x2811#16)

/-- Map parts due where the running step reopens. -/
def mapPartsDue (t : Nat) (a : Part) : Bool := isMapPart a && decide (a.target = some t)

/-- Whether a card that aborted with cause 6 may not yet reopen, since it does not hold the map part of the recovery (R362 step 3).
Its ledger has not left ABORTING or RESTORING (DEDUCED, log entry 38). -/
def reopenBarred (s : State) : Bool :=
  decide (s.led.st = .opened) && s.led.waiting && s.led.reopen && decide (s.led.abCause = 6) &&
    !s.dict.awaiting.any (mapPartsDue s.led.running)

/-- Whether the card has a partner now: 0x2A01:03 and :04 read none otherwise. -/
def paired (s : State) : Bool :=
  decide (s.twin.pair = .seeding) || decide (s.twin.pair = .inStep) || decide (s.twin.pair = .mirrorService)

/-- Entries of the standard, device and dictionary blocks. -/
def readA (s : State) (idx sub : Nat) : Option Nat :=
  match idx, sub with
  | 0x1001, 0 => some s.dict.errReg.toNat
  | 0x1003, 0 => some s.dict.errField.length
  | 0x1003, k => some (((s.dict.errField[k - 1]?).getD 0).toNat)
  | 0x1010, 0 => some 3
  | 0x1010, _ => some 1
  | 0x1011, 0 => some 3
  | 0x1011, _ => some 1
  | 0x1018, 2 => some s.strap.variant.productCode
  | 0x1018, 3 => some s.strap.revision.toNat
  | 0x1018, 4 => some s.strap.serial.toNat
  | 0x2000, 1 => some (if s.keep.v48 then s.keep.dev.code else 0)
  | 0x2000, 2 => some (if reopenBarred s then LState.aborting.code else s.led.st.code)
  | 0x2002, 1 => some s.led.committed
  | 0x2002, 2 => some (if s.led.st = .nojob then 0 else s.led.running)
  | 0x2002, 3 => some s.led.touched.length
  | 0x2002, 5 => some s.led.abCause
  | 0x2002, 6 => some s.led.abStep
  | 0x2002, 7 => some s.led.abCard
  | 0x2002, 8 => some s.led.abLayer
  | 0x2002, 9 => some s.led.abJob
  | 0x2002, 10 => some s.led.consec
  | 0x2002, 11 => some s.led.abAction
  | 0x2011, 1 => some s.dict.lastRes.toNat
  | 0x2011, 2 => some s.dict.lastGen.toNat
  | 0x2011, 3 => some s.dict.failing.toNat
  | 0x2011, 4 => some s.dict.conflict.toNat
  | 0x2011, 5 => some (awaitingBits s)
  | 0x2011, 6 => some (awaitingTarget s)
  | 0x2012, 1 => some s.dict.gen.toNat
  | 0x2012, 2 => some s.dict.pset.length
  | 0x2012, 5 => some (gensAwaiting s).length
  | 0x2012, 6 => some ((s.dict.owner.map Source.code).getD 0)
  | 0x2012, 7 => some s.dict.genForce.toNat
  | 0x2101, 1 => some s.keep.volts
  | 0x2101, 2 => some s.keep.watts
  | 0x2101, 4 => some (Sparse.get 0 s.stat.job (ekey 0x2101 4) / 1000)
  | 0x2101, 5 => some (b01 s.keep.vaux)
  | 0x2110, 1 => some (packClocks s.keep.inForce).toNat
  | 0x2110, 4 => some s.boot.trips
  | 0x2130, 0 => none
  | 0x2130, k => some (s.keep.logicRd.getD (k - 1) 0)
  | 0x2131, 0 => none
  | 0x2131, k => some (s.keep.inForce.getD (k - 1) 0)
  | 0x2138, 1 => some s.keep.inlet
  | 0x2138, 2 => some s.keep.outlet
  | 0x2138, 3 => some s.keep.iodie
  | 0x2138, 4 => some s.keep.regs
  | 0x2140, 2 => some (identifyLeft s)
  | 0x2140, 3 => some (ledState s)
  | 0x2140, 4 => some ((List.range 5).foldl (fun a n => if (getPort s (4 * n)).cable then setBit a n true else a) 0)
  | 0x2140, 5 => some (b01 s.keep.present)
  | 0x2200, 1 => some s.boot.boots
  | 0x2200, 2 => some (runningSlot s)
  | 0x2200, 3 => some s.boot.bootMs
  | 0x2200, 4 => some (s.boot.phases.foldl max 0)
  | 0x2200, 5 => some s.boot.fallbacks
  | 0x2201, 1 => some s.boot.slotA.state
  | 0x2201, 2 => some s.boot.slotB.state
  | 0x2201, 3 => some (if s.boot.slotA.state = 0 then 0 else fwVersion s.boot.slotA.image)
  | 0x2201, 4 => some (if s.boot.slotB.state = 0 then 0 else fwVersion s.boot.slotB.image)
  | 0x2201, 5 => some (if s.boot.slotA.state = 0 then 0 else fwSvn s.boot.slotA.image)
  | 0x2201, 6 => some (if s.boot.slotB.state = 0 then 0 else fwSvn s.boot.slotB.image)
  | 0x2204, 1 => some s.strap.jedecId.toNat
  | 0x2204, 2 => some s.strap.flashSize
  | 0x2204, 3 => some s.strap.flashMode.toNat
  | 0x2208, 1 => some (b01 s.boot.retest)
  | 0x2208, 2 => some s.boot.repGen
  | 0x2208, 3 => some (s.boot.repair.filter fun r => decide (r.typ = 1)).length
  | 0x2208, 4 => some (s.boot.repair.filter fun r => decide (r.typ = 2)).length
  | 0x2208, 5 => some (s.boot.repair.filter fun r => decide (r.typ = 3)).length
  | 0x2208, 6 => some (s.boot.repair.filter fun r => decide (r.typ = 4)).length
  | 0x2210, 2 => some s.boot.stage
  | 0x2210, 3 => some (b01 s.boot.next)
  | 0x2210, 5 => some (b01 s.boot.autoconf)
  | 0x2218, 2 => some s.boot.svn
  | 0x2218, 3 => some s.boot.revoke.toNat
  | 0x2220, 3 => some s.strap.idCert.length
  | 0x2230, 1 => some s.boot.log.length
  | 0x2230, 2 => some ((s.boot.log.head?.map (·.seq)).getD 0)
  | _, _ => none

/-- Entries of the host link, fabric, twin and recovery blocks. -/
def readB (s : State) (idx sub : Nat) : Option Nat :=
  match idx, sub with
  | 0x2400, 1 => some s.strap.vendorId.toNat
  | 0x2400, 2 => some s.strap.variant.deviceId
  | 0x2401, 1 => some (if s.host.up then s.host.speed else 0)
  | 0x2401, 2 => some (if s.host.up then s.host.width else 0)
  | 0x2401, 3 => some (b01 (s.host.up && s.host.flitMode))
  | 0x2401, 4 => some s.host.resets
  | 0x2401, 5 => some s.host.cause
  | 0x2404, 1 => some s.stat.eseq
  | 0x2404, 3 => some s.host.events.length
  | 0x2410, 1 => some s.host.olseq
  | 0x2410, 2 => some s.host.hostseq
  | 0x2414, 1 => some s.host.ringput
  | 0x2414, 2 => some s.host.ringtake
  | 0x2414, 3 => some s.host.ringget
  | 0x2800, 8 => some (cardId s)
  | 0x2800, 9 => some (torusCards s)
  | 0x2801, 1 => some (fabricState s)
  | 0x2801, 2 => some ((fittedPorts s).filter (portUp s)).length
  | 0x2801, 3 => some ((fittedPorts s).filter fun p => decide (portCond s p = 5)).length
  | 0x2804, 3 => some s.fab.haltSer
  | 0x2804, 4 => some s.fab.haltOrg
  | 0x2812, 1 => some ((myLogical s).getD 0xFFFF)
  | 0x2812, 2 => some (coordinator s)
  | 0x2812, 3 => some s.fab.mapVer
  | 0x5080, 0 => none
  | 0x5080, k => some (portCond s (k - 1))
  | 0x5081, 0 => none
  | 0x5081, k => some (match (getPort s (k - 1)).peer with
      | none => 0xFFFFFFFF
      | some (c, p) => pack [(14, c), (2, 0), (5, p)])
  | 0x2A01, 1 => some s.twin.pair.code
  | 0x2A01, 2 => some (planNow s).tw.partner
  | 0x2A01, 3 => some (if paired s then s.twin.pcard else 0xFFFF)
  | 0x2A01, 4 => some (if paired s then s.twin.link else 0)
  | 0x2A01, 5 => some ((List.range 4).filter fun k => portUp s (16 + k)).length
  | 0x2A01, 6 => some (b01 s.twin.sideband)
  | 0x2A01, 7 => some s.twin.mirror
  | 0x2A01, 8 => some s.twin.cause
  | 0x2A01, 9 => some s.twin.custody
  | 0x2A05, 1 => some s.twin.resStep
  | 0x2A05, 2 => some s.twin.resLayer
  | 0x2A05, 3 => some s.twin.resOut
  | 0x2A05, 4 => some s.twin.resRole
  | 0x2A12, 1 => some s.harv.state
  | 0x2A12, 2 => some s.harv.step
  | 0x2A12, 3 => some s.harv.written
  | 0x2A12, 4 => some s.harv.bytes
  | 0x2A12, 5 => some s.harv.cause
  | 0x2A12, 6 => some s.harv.lastOk
  | 0x2A1C, 2 => some s.harv.load
  | 0x2A1C, 3 => some s.harv.loaded
  | 0x2C11, 1 => some s.fab.recState
  | 0x2C11, 2 => some s.fab.recF
  | 0x2C11, 3 => some s.fab.recSpare
  | 0x2C11, 6 => some s.fab.recCause
  | 0x2C11, 7 => some s.fab.recStep
  | 0x2C18, 1 => some (b01 (eligibleSpare s))
  | 0x2C28, 1 => some (b01 s.fab.slow)
  | _, _ => none

/-- Entries of the memory, stream, array, plan, number, update and unit blocks. -/
def readC (s : State) (idx sub : Nat) : Option Nat :=
  match idx, sub with
  | 0x3000, 1 => some (s.strap.variant.barges * 2097152)
  | 0x3000, 4 => some (8 * s.strap.variant.groupFrames)
  | 0x3002, 1 => some (4096 + (s.mem.barges.filter fun b => (b.2.bfv || b.2.rfv) && decide (b.1 < planBarge s.strap.variant)).length)
  | 0x3002, 2 => some (planNow s).lapool
  | 0x3002, 3 => some (planNow s).lateb
  | 0x3002, 4 => some (planNow s).sps
  | 0x3002, 5 => some (pack [(16, (planNow s).leadMin), (16, (planNow s).leadMax)])
  | 0x3011, 1 => some s.led.last.lead
  | 0x3014, 0 => none
  | 0x3014, k => some (Sparse.get 0 s.mem.group (k - 1))
  | 0x3018, 2 => some s.mem.dmgStep
  | 0x3018, 3 => some s.mem.dmgBarge
  | 0x3018, 4 => some s.mem.dmgTier
  | 0x3018, 5 => some s.mem.dmgAddr
  | 0x3018, 6 => some s.mem.dmgCause
  | 0x3022, 1 => some s.mem.retB.length
  | 0x3022, 2 => some s.mem.retR.length
  | 0x3024, 3 => some s.led.last.refresh.toNat
  | 0x3028, 1 => some ((planNow s).pondGiB * 1073741824)
  | 0x3028, 2 => some (retainedBytes s)
  | 0x3028, 3 => some (planNow s).tw.pgBytes
  | 0x3028, 4 => some (if s.plan.active.isSome then s.mem.cowCap else 0)
  | 0x3028, 5 => some (s.mem.cow.length * 65536)
  | 0x3401, 1 => some 4096
  | 0x3401, 2 => some 1024
  | 0x3401, 3 => some 2048
  | 0x3402, 1 => some (planNow s).split
  | 0x3402, 2 => some (planNow s).ndescs
  | 0x3411, 1 => some (Sparse.get 0 s.stat.job (ekey 0x3410 6))
  | 0x3411, 2 => some (Sparse.get 0 s.stat.job (ekey 0x3410 8))
  | 0x3418, 1 => some s.stat.sfStep
  | 0x3418, 2 => some s.stat.sfUnit
  | 0x3418, 3 => some s.stat.sfCtx
  | 0x3418, 4 => some s.stat.sfDesc
  | 0x3418, 5 => some s.stat.sfTag
  | 0x3418, 6 => some s.stat.sfCause
  | 0x3418, 7 => some s.stat.sfAddr
  | 0x3800, 1 => some s.strap.variant.arrays
  | 0x3881, 1 => some (s.strap.variant.barges * 2097152 - 4096 * 2097152)
  | 0x3881, 2 => some (s.strap.variant.barges * 2097152 - 2048 * 2097152)
  | 0x3881, 4 => some s.plan.area0
  | 0x3881, 5 => some s.plan.area1
  | 0x3881, 6 => some (s.plan.active.getD 0xFF)
  | 0x3882, 1 => some s.plan.result
  | 0x3882, 2 => some s.plan.resArea
  | 0x3882, 3 => some s.plan.resUnit
  | 0x3882, 4 => some s.plan.resItem
  | 0x3882, 5 => some s.plan.resDet
  | 0x3883, 3 => some (if s.plan.active.isSome then s.plan.plan.card else 0)
  | 0x3883, 4 => some (if s.plan.active.isSome then s.plan.plan.cards else 0)
  | 0x3883, 5 => some (planNow s).toolver
  | 0x3890, 2 => some (if s.led.last.step = 0 then 0xFF else Sparse.get 0 s.stat.latch (ekey 0x3890 2))
  | 0x3892, 1 => some s.stat.faultStep
  | 0x3892, 2 => some s.stat.faultUnit
  | 0x3892, 3 => some s.stat.faultAddr
  | 0x3892, 4 => some s.stat.faultCause
  | 0x3C11, 5 => some (brine64 (BitVec.ofNat 64 (num s 0x3C11 1)) (BitVec.ofNat 64 (num s 0x3C11 2))
      (BitVec.ofNat 16 (num s 0x3C11 3)) (BitVec.ofNat 64 (num s 0x3C11 4))).toNat
  | 0x3C20, 0 => none
  | 0x3C20, k => some (if k ≤ 3 then tallySum s.stat.tLatch (k - 1) else tallySum s.stat.tJob (k - 4))
  | 0x3C21, 0 => none
  | 0x3C21, 1 => none
  | 0x3C21, k => some (
      let tag := num s 0x3C21 1
      if k ≤ 4 then Sparse.get 0 s.stat.tLatch (tag * 4 + (k - 2)) else Sparse.get 0 s.stat.tJob (tag * 4 + (k - 5)))
  | 0x3C23, 0 => some (planNow s).tags.length
  | 0x3C30, 1 => some (planNow s).held.length
  | 0x4001, 1 => some (planNow s).lt.layers.length
  | 0x4001, 2 => some (planNow s).lt.tensors.length
  | 0x4001, 3 => some (b01 (planNow s).lt.mode)
  | 0x4001, 4 => some ((planNow s).lt.tensors.map fun t => t.rows * t.cols).sum
  | 0x4004, 2 => some s.led.last.lr.toNat
  | 0x4006, 6 => some (unsigned 8 s.led.last.l)
  | 0x5000, 0 => none
  | 0x5000, k => some (logicalUnit s (k - 1))
  | 0x5001, 0 => none
  | 0x5001, k => some (condReport s (k - 1))
  | 0x5024, 0 => none
  | 0x5024, k => some ((Sparse.get 0 s.stat.boot (ekey 0x5024 k) + 0xFFFFFFFF) % 2 ^ 32)
  | 0x5050, 0 => none
  | 0x5050, k => some (Sparse.get 0 s.units.slipRun (k - 1))
  | _, _ => none

/-- Entries whose value is a byte string. -/
def readD (s : State) (idx sub : Nat) : Option Bytes :=
  match idx, sub with
  | 0x1008, 0 => some (ascii ("Garari Molam " ++ orderCode s.strap.variant))
  | 0x1009, 0 => some s.strap.hwVersion
  | 0x100A, 0 => some (versionText s.boot.fwVer)
  | 0x2002, 4 => some (touchedMap s)
  | 0x2003, 1 => some s.led.last.toBytes
  | 0x2012, 3 => some (s.dict.pset.flatMap EntryVal.form)
  | 0x2201, 7 => some (takePad 64 s.boot.fwMeas)
  | 0x2218, 1 => some (takePad 64 s.strap.rootHash)
  | 0x2220, 1 => some (takePad 57 s.strap.idPub)
  | 0x2220, 2 => some s.strap.idCert
  | 0x2224, 1 => some (takePad 32 (valBytes s 0x2224 1))
  | 0x2224, 2 => some (attestation s)
  | 0x2230, 4 => some (logFrom s)
  | 0x2819, 0 => some (standingSet s)
  | 0x3008, 2 => some (leBytes 16 (barge s (num s 0x3008 1)).toNat)
  | 0x3029, 0 => none
  | 0x3029, k => some (snapBytes (getSnap s (k - 1)))
  | 0x3883, 1 => some (takePad 64 (planNow s).meas)
  | 0x3883, 2 => some (leBytes 16 (planNow s).sysid)
  | 0x3C22, 0 => some ((s.stat.tTags.getD []).flatMap (tallyLine s))
  | 0x4018, 2 =>
    let k := num s 0x4018 1
    some (if k < (planNow s).lt.layers.length then devBytes s ((planNow s).lt.lstate + 32 * k) 32 else zeros 32)
  | _, _ => none

/-- Statistics that the model has no means to count: times and crossings of clocks, and which FMAs were lowered from strict
products (R126). Free values (log entries 43, 65 and 139), 0 before anything has happened. -/
def readT (s : State) (idx sub : Nat) : Option Nat :=
  let v (samples commits : Nat) : Option Nat :=
    some (if samples = 0 ∧ commits = 0 then 0 else (Config.clockCount (ekey idx sub) samples commits).toNat)
  match idx, sub with
  | 0x3C38, 2 => some (match s.stat.strict with
      | some n => (Config.freeWord n).toNat
      | none => 0)
  | 0x302A, 2 => v 0 s.led.commitsN
  | 0x2410, 4 => v s.keep.samples s.led.commitsN
  | 0x2820, 10 => v s.keep.samples s.led.commitsN
  | 0x2A04, 2 => some (match s.twin.shadowT with
      | some n => (Config.clockCount (ekey idx sub) n 0).toNat
      | none => 0)
  | 0x2A12, 7 => some (match s.harv.holdT with
      | some n => (Config.clockCount (ekey idx sub) n 0).toNat
      | none => 0)
  | _, _ => none

/-- Where a read-only count is held: a statistic of the last committed step, or a count since boot. -/
def statNum (s : State) (o : ObjDef) (sub : Nat) : Nat :=
  if o.point = .step then Sparse.get 0 s.stat.latch (ekey o.idx sub) else Sparse.get 0 s.stat.boot (ekey o.idx sub)

/-- The value of a defined, readable entry. -/
def entryBytes (s : State) (o : ObjDef) (sub : Nat) : Bytes :=
  match readD s o.idx sub with
  | some bs => bs
  | none =>
    let n := (o.ty.size).getD 0
    match (readA s o.idx sub).orElse fun _ => (readB s o.idx sub).orElse fun _ => (readC s o.idx sub).orElse fun _ => readT s o.idx sub with
    | some v => leBytes n v
    | none =>
      match o.acc with
      | .const => leBytes n o.dflt
      | .ro => leBytes n (statNum s o sub)
      | _ => valBytes s o.idx sub

/-- Read an entry: its bytes, or the abort code of R51. -/
def readEntry (s : State) (idx sub : Nat) : Except Nat Bytes :=
  match findObj idx sub with
  | none => .error (if indexDefined idx then 0x06090011 else 0x06020000)
  | some o =>
    if o.acc = .wo then .error 0x06010001
    else if idx = 0x2224 ∧ sub = 2 ∧ !s.boot.phases.contains 4 then .error 0x08000022
    else .ok (entryBytes s o sub)

/-- Read a whole object (complete access, R41): the value of every sub-index in ascending order, of write-only ones nothing. -/
def readObject (s : State) (idx : Nat) : Except Nat Bytes :=
  if !indexDefined idx then .error 0x06020000
  else (List.range 256).foldl (fun acc sub => match acc, findObj idx sub with
    | .ok bs, some o => if o.acc = .wo then .ok bs else (readEntry s idx sub).map (bs ++ ·)
    | x, _ => x) (.ok [])

/-- Read an entry, or without a sub-index a whole object. -/
def readValue (s : State) (idx : Nat) (sub : Option Nat) : Except Nat Bytes :=
  match sub with
  | some k => readEntry s idx k
  | none => readObject s idx

end Sys2Proof.Machine
end

