-- ==== Sys2Proof/Machine/UnitLoad.lean ====
section
/-! DEFINITION. The header and section table of a plan image as they lie in a plan area (R211, R213), the sections of a unit, and how
the units are loaded from them: at an activation (R216 step 7), and again at a wake (R423). -/

namespace Sys2Proof.Machine

/-- Bytes of the image in a plan area. -/
def imgBytes (s : State) (area off n : Nat) : Bytes := devBytes s (planBase s.strap.variant area + off) n

/-- The 256 B header as a number. -/
def imgHeader (s : State) (area : Nat) : Nat := leNat (imgBytes s area 0 256)

/-- A section of the table (R211). -/
structure Sec where
  kind : Nat
  unit : Nat
  off  : Nat
  len  : Nat
  meas : Nat
  rsv  : Bool
  deriving DecidableEq, Repr

def Sec.of (x : Nat) : Sec :=
  { kind := bits x 15 0, unit := bits x 23 16, off := bits x 127 64, len := bits x 191 128, meas := bits x 511 256,
    rsv := decide (bits x 63 24 ≠ 0) || decide (bits x 255 192 ≠ 0) }

def imgSections (s : State) (area : Nat) : List Sec :=
  (List.range (bits (imgHeader s area) 63 48)).map fun i => Sec.of (leNat (imgBytes s area (256 + 64 * i) 64))

def Sec.bytes (s : State) (area : Nat) (x : Sec) : Bytes := imgBytes s area x.off x.len

def unitKinds : List Nat := [1, 2, 3, 4, 5, 6]
def cardKinds : List Nat := [0x10, 0x11, 0x12, 0x13, 0x14, 0x15, 0x16, 0x17]

/-- Bytes of the one section of a kind, for a unit or card-wide (0xFF). -/
def secBytes (s : State) (area kind unit : Nat) : Bytes :=
  match (imgSections s area).find? fun x => decide (x.kind = kind) && decide (x.unit = unit) with
  | some x => x.bytes s area
  | none => []

/-- The records of `n` bytes that a byte string holds, as numbers. -/
def records (n : Nat) (bs : Bytes) : List Nat := (chunks n bs.length bs).map leNat

/-! ### Damage and measurement (R211, R246 to R248) -/

/-- The first block of a range of a plan area that cannot be read (R246 to R248). -/
def imgDamage (s : State) (area off n : Nat) : Option Nat :=
  let a := planBase s.strap.variant area + off
  (rangeGroupBad s a n).orElse fun _ => (blocksOf a n).find? (blockBad s)

/-- The first index of a list whose element fails a test. -/
def firstBad {α : Type} (xs : List α) (ok : α → Bool) : Option Nat := (xs.zipIdx.find? fun x => !ok x.1).map (·.2)

/-- Whether a section can be read and has its measurement. -/
def Sec.good (s : State) (area : Nat) (x : Sec) : Bool :=
  (imgDamage s area x.off x.len).isNone && decide (leNat (shake256 (x.bytes s area) 32) = x.meas)

/-! ### The sections of a unit (R213) -/

def coreHeader (bs : Bytes) (c k : Nat) : Nat := leAt bs (16 * c + 4 * k) 4

/-- Offset of the code of core `c`; its data follow. -/
def coreOffset (bs : Bytes) : Nat → Nat
  | 0 => 64
  | c + 1 => coreOffset bs c + roundUp (coreHeader bs c 1) 64 + roundUp (coreHeader bs c 2) 64

/-- The sections of a unit, as numbers. -/
structure UnitImg where
  prog  : List Nat
  recs  : List Nat
  gates : List Nat
  core  : Bytes
  descs : List Nat
  chmap : List Nat
  sizes : List Nat

def unitImg (s : State) (area l : Nat) : UnitImg :=
  let b (k : Nat) : Bytes := secBytes s area k l
  { prog := records 32 (b 1), recs := records 64 (b 2), gates := records 16 (b 3), core := b 4, descs := records 64 (b 5),
    chmap := records 8 (b 6), sizes := (List.range 6).map fun k => (b (k + 1)).length }

/-! ### Loading (R216 step 7, R423) -/

/-- A scalar core as its image loads it (R149, R213). -/
def loadCore (bs : Bytes) (c : Nat) : CoreSt :=
  let code := coreHeader bs c 1
  let at_ := coreOffset bs c
  let d := Sparse.setMany 0 [] 0 (slice bs (at_ + roundUp code 64) (coreHeader bs c 2))
  let e := BitVec.ofNat 64 (coreHeader bs c 0)
  { entry := e, pc := e, imem := Sparse.setMany 0 [] 0 (slice bs at_ code), dinit := d, dmem := d }

/-- A unit as its sections load it. -/
def loadUnit (u : UnitImg) : UnitSt :=
  { prog := Sparse.setMany 0 [] 0 (u.prog.map (BitVec.ofNat 256)), recs := Sparse.setMany 0 [] 0 (u.recs.map (BitVec.ofNat 512)),
    gateTab := Sparse.setMany 0 [] 0 (u.gates.map (BitVec.ofNat 128)),
    descs := Sparse.setMany 0 [] 0 (u.descs.map (BitVec.ofNat 512)),
    chMap := Sparse.setMany 0 [] 0 (u.chmap.map (BitVec.ofNat 64)),
    cores := (List.range 4).foldl (fun m c => Sparse.set {} m c (loadCore u.core c)) [] }

/-- The unit sections go into the units that carry a logical unit. -/
def loadUnits (area : Nat) (s : State) : State :=
  let phys := (List.range 72).foldl (fun (m : Sparse UnitSt) p =>
    if logicalUnit s p < 64 then Sparse.set {} m p (loadUnit (unitImg s area (logicalUnit s p))) else m) []
  { s with units := { s.units with phys := phys }, gates := [] }

/-- At a wake into plan-loaded the unit sections are measured again and reloaded from the active area (R423). One that fails leaves the
units unloaded, and the result names it as at an activation (R217; DESIGN CHOICE, log entry 203). -/
def reloadUnits (s : State) : State :=
  match s.plan.active with
  | none => s
  | some area =>
    let xs := imgSections s area
    match firstBad xs fun x => !unitKinds.contains x.kind || x.good s area with
    | none => loadUnits area s
    | some i => { s with plan := { s.plan with result := 5, resArea := area, resUnit := ((xs[i]?).map (·.unit)).getD 0xFF, resItem := i, resDet := 0 } }

/-- The unit domains are switched off: what the units and the cluster switches hold is lost (R414). -/
def unitsOff (s : State) : State := { s with units := { s.units with phys := [] }, gates := [] }

end Sys2Proof.Machine
end

