-- ==== Sys2Proof/Machine/Parts.lean ====
section
/-! DEFINITION. Awaiting parts and their application (R37, R47 to R50), the latch of statistics (R41), changes of the
CAN route's settings (R55, R62, R65), and TPDOs (R62). -/

namespace Sys2Proof.Machine

/-! ### Putting values in force -/

/-- The COB-IDs of TPDOs 1 to 4 that equal their base plus the old node-ID follow a new node-ID (R62). -/
def followNode (old new : Nat) (s : State) : State :=
  (List.range 4).foldl (fun s n =>
    match Sparse.get none s.dict.vals (ekey (0x1800 + n) 1) with
    | none => s
    | some bs =>
      let v := leNat bs
      if v % 2048 = cobBase n + old then putVal (0x1800 + n) 1 (leBytes 4 (v - v % 2048 + cobBase n + new)) s else s) s

/-- All open USDO sessions of a route end without a response (R55). -/
def endSessions (r : Route) (s : State) : State :=
  { s with dict := { s.dict with sessions := s.dict.sessions.filter fun x => decide (x.path ≠ r) } }

/-- Sizes, coordinates or the geometry apply: port training begins, and with it the check of every peer; while X × Y × Z is 1
every port stays down (R301; that a trained port begins anew is DEDUCED, log entry 206). -/
def topologyApplies (s : State) : State :=
  { s with fab := { s.fab with ports := s.fab.ports.map fun kv => (kv.1, { ({} : PortSt) with cable := kv.2.cable }) } }

/-- Put one entry in force, with what its chapter hangs on the change. -/
def applyEntry (e : EntryVal) (s : State) : State :=
  let i := e.idx.toNat
  let old := nodeId s
  let s := putVal i e.sub.toNat e.val s
  if i = 0x2020 then followNode old (nodeId s) s
  else if i = 0x2800 then topologyApplies s
  else if i = 0x2810 ∨ i = 0x2811 then { s with fab := { s.fab with mapVer := s.fab.mapVer + 1 } }
  else s

def applyEntries (es : List EntryVal) (s : State) : State := es.foldl (fun s e => applyEntry e s) s

/-- Whether entries are CAN route settings that apply after the commit response (R37). -/
def isCanRoute (e : EntryVal) : Bool := decide (e.idx = 0x2020#16) || decide (e.idx = 0x2021#16)

/-- The latest generation whose parts have all applied (0x2012:07). -/
def settleGens (gens : List (BitVec 32)) (s : State) : State :=
  gens.foldl (fun s g =>
    if s.dict.awaiting.any (fun a => decide (a.gen = g)) then s
    else if (g - s.dict.genForce).toNat < 2147483648 then { s with dict := { s.dict with genForce := g } }
    else s) s

/-- Apply the awaiting parts that a test picks, together and in generation order (R47). -/
def applyParts (due : Part → Bool) (s : State) : State :=
  let now := s.dict.awaiting.filter due
  let s := { s with dict := { s.dict with awaiting := s.dict.awaiting.filter fun a => !due a } }
  let s := now.foldl (fun s a => applyEntries a.entries s) s
  settleGens (now.map (·.gen)) s

/-- The CAN route entries of a commit, which apply just after its response: the sessions of the route end, and a new node-ID
sends boot-up (R37, R55, R65). -/
def applyCan (s : State) : State :=
  let es := (s.dict.awaiting.filter fun a => decide (a.point = .now)).flatMap (·.entries)
  if es.isEmpty then s
  else
    let s := endSessions .can (applyParts (fun a => decide (a.point = .now)) s)
    if es.any fun e => decide (e.idx = 0x2020#16) then send (.heartbeat 0) s else s

/-- The step parts due at the boundary that opens step `t` (R49). -/
def stepPartsDue (t : Nat) (a : Part) : Bool :=
  decide (a.point = .step) && (match a.target with | none => true | some u => decide (u = t))

/-- Parts that apply where step `t` opens: at a reopening map parts, else every part that names the step and was committed
while the card waited at its boundary. -/
def openPartsDue (reopen : Bool) (t : Nat) (a : Part) : Bool :=
  if reopen then mapPartsDue t a else decide (a.point = .step) && decide (a.target = some t)

/-- Idle parts, applied when the card is idle. -/
def applyIdleParts (s : State) : State :=
  if s.keep.dev = .idle then applyParts (fun a => decide (a.point = .idle)) s else s

def applyPlanParts (s : State) : State := applyParts (fun a => decide (a.point = .plan)) s

/-! ### The latch (R41, R120) -/

/-- Sum two count maps. -/
def addCounts (a b : Sparse Nat) : Sparse Nat := b.foldl (fun m kv => Sparse.modify 0 m kv.1 (· + kv.2)) a

/-- Latch a value of the committed step. -/
def setLatch (idx sub v : Nat) (s : State) : State :=
  { s with stat := { s.stat with latch := Sparse.set 0 s.stat.latch (ekey idx sub) v } }

/-- The tracked tags of the active plan in ascending order, then 0xFFFF (R120). -/
def trackedTags (s : State) : List Nat := ((planNow s).tags.mergeSort (· ≤ ·)) ++ [0xFFFF]

/-- The counts of the step become the last committed step's, and count toward the job; the tags that it counted by are those
that its tally table lists (R126). -/
def latchStats (s : State) : State :=
  { s with stat := { s.stat with
      latch := s.stat.run, job := addCounts s.stat.job s.stat.run, run := [],
      tLatch := s.stat.tRun, tJob := addCounts s.stat.tJob s.stat.tRun, tRun := [],
      tTags := some (trackedTags s) } }

/-- The counts of an aborted step are discarded. -/
def dropStats (s : State) : State := { s with stat := { s.stat with run := [], tRun := [] } }

/-! ### TPDOs (R62) -/

/-- The mapped entries of TPDO n: index, sub-index. -/
def tpdoMapping (s : State) (n : Nat) : List (Nat × Nat) :=
  (List.range (num s (0x1A00 + n) 0)).map fun k =>
    let m := num s (0x1A00 + n) (k + 1)
    (m / 65536, m / 256 % 256)

/-- The bytes of TPDO n: latched values. -/
def tpdoData (s : State) (n : Nat) : Bytes :=
  (tpdoMapping s n).flatMap fun e => match readEntry s e.1 e.2 with
    | .ok bs => bs
    | .error _ => []

/-- Send TPDO n, if it is enabled and its inhibit time, which type 0xFE alone has, has passed. A disabled CAN route sends none.
DESIGN CHOICE: a TPDO that maps nothing is not sent, and one that its inhibit time holds is not sent later (log entry 170). -/
def sendTpdo (n : Nat) (s : State) : State :=
  let cob := num s (0x1800 + n) 1
  let last := Sparse.get 0 s.keep.tpdoSent n
  let inhibit := num s (0x1800 + n) 3
  let held := decide (num s (0x1800 + n) 2 = 0xFE) && decide (0 < last) &&
    decide ((s.keep.samples + 1 - last) * 10000 / 1024 < inhibit)
  if 2 ^ 31 ≤ cob ∨ num s (0x1A00 + n) 0 = 0 ∨ num s 0x2022 1 = 0 ∨ held = true then s
  else send (.tpdo n (cob % 2048) (tpdoData s n))
    { s with keep := { s.keep with tpdoSent := Sparse.set 0 s.keep.tpdoSent n (s.keep.samples + 1) } }

/-- The TPDOs of type 0xFE, sent once at a commit. -/
def commitTpdos (s : State) : State :=
  (List.range 8).foldl (fun s n => if num s (0x1800 + n) 2 = 0xFE then sendTpdo n s else s) s

end Sys2Proof.Machine
end

