-- ==== Sys2Proof/Machine/Digest.lean ====
section
/-! DEFINITION. The twin digest (R354). -/

namespace Sys2Proof.Machine

/-- `j` steps of the multiplication of R354: `a` is shifted up, `r` gathers. -/
def gfSteps : Nat → BitVec 128 → BitVec 128 → BitVec 128 → BitVec 128
  | 0, _, _, r => r
  | j + 1, a, b, r =>
    gfSteps j ((a <<< 1) ^^^ (if a.msb then 0x87#128 else 0#128)) (b >>> 1) (if b.getLsbD 0 then r ^^^ a else r)

/-- `gf_mul` (R354). -/
def gfMul (a b : BitVec 128) : BitVec 128 := gfSteps 128 a b 0

/-- The constant H (R354). -/
def digestH : BitVec 128 := 0x6C8E9CF570932BD51F83D9ABFB41BD6B#128

/-- Absorb blocks of 16 B. -/
def digestBlocks : List Bytes → BitVec 128 → BitVec 128
  | [], d => d
  | b :: bs, d => digestBlocks bs (gfMul (d ^^^ BitVec.ofNat 128 (leNat b)) digestH)

/-- `twin_digest` (R354). -/
def twinDigest (bs : Bytes) : BitVec 128 :=
  gfMul (digestBlocks (chunks 16 (bs.length / 16 + 1) bs) 0 ^^^ BitVec.ofNat 128 bs.length) digestH

end Sys2Proof.Machine
end

