-- ==== Sys2Proof/Machine/Vector.lean ====
section
/-! DEFINITION. The vector engine (R128 to R139, R197). -/

namespace Sys2Proof.Machine

/-- The fields of a vector record (R197). -/
structure VRec where
  n     : Nat
  k     : Nat
  zero  : Bool
  inF   : Nat
  outF  : Nat
  stoch : Bool
  sat   : Bool
  cmp   : Nat
  w5    : Nat
  base  : Nat
  st    : Nat
  wr    : Nat
  deriving DecidableEq, Repr

/-- Decode a vector record's common words; reserved bits set are invalid (R192). -/
def vrec (w : List Nat) : Option VRec :=
  let c := wd w 4
  if 2 ^ 31 ≤ c ∨ 2 ^ 16 ≤ wd w 7 ∨ 2 ^ 14 ≤ wd w 9 then none
  else some
    { n := bits c 13 0 + 1, k := bits c 16 14, zero := bit c 17, inF := bits c 21 18, outF := bits c 25 22,
      stoch := bit c 26, sat := bit c 27, cmp := bits c 30 28, w5 := wd w 5,
      base := wd w 6 + 2 ^ 32 * wd w 7, st := wd w 8, wr := wd w 9 + 1 }

/-- The brine index of element `e` (R138). -/
def VRec.idx (r : VRec) (e : Nat) : Nat := (r.base + e / r.wr * r.st + e % r.wr) % 2 ^ 48

/-- How element `e` of the instruction rounds. -/
def VRec.rnd (r : VRec) (s : State) (u : UnitSt) (e : Nat) : Rnd := rndOf s r.stoch u.vtag.toNat (r.idx e)

/-- Read the sources of an instruction in order, all in one format. -/
def fetchAll (f n w5 : Nat) : List (Option Operand) → UnitSt → Fetch (List (List (Nat × Nat)))
  | [], u => .ok u []
  | o :: os, u =>
    match o with
    | none => .fault 2
    | some o => match fetchElems u o f n w5 with
      | .wait h => .wait h
      | .fault c => .fault c
      | .ok u es => match fetchAll f n w5 os u with
        | .wait h => .wait h
        | .fault c => .fault c
        | .ok u ess => .ok u (es :: ess)

/-- Element `e` of every source. -/
def nthAll {α : Type} (d : α) (ess : List (List α)) (e : Nat) : List α := ess.map fun es => es.getD e d

/-- Write an element-wise result: destination, tally, tap, issue cycles (R129 to R131, R137). -/
def vecDone (r : VRec) (dst : Option Operand) (x : Elems) (t : Tally) (cycles p : Nat) (u : UnitSt) (s : State) : OpRes :=
  match dst with
  | none => .fault 2
  | some o => match storeElems u .vector o r.zero x with
    | .wait h => .wait h
    | .fault c => .fault c
    | .ok u _ =>
      let tap : Tap := { fmt := x.fmt, elems := x.codes.map fun c => (BitVec.ofNat 32 c.1, c.2), cycles := cycles }
      let s := setUnit p ({ u with tap := some tap }.flag t) s
      .ok (countRun 0x5020 (p + 1) cycles (chargeTally u.vtag.toNat t s))

/-- The class of an instruction for its issue cycles (R129): per group of 512, or 1,024 when packed. -/
def vecCycles (mul : Nat) (packed : Bool) (n : Nat) : Nat := mul * cdiv n (if packed then 1024 else 512)

/-- Whether a format is one of the floating formats of vector arithmetic (R128, R134). -/
def vecFmt (f : Nat) : Bool := decide (f ≤ 2)

/-- A vector instruction over `ar` sources whose result per element is computed by `f` from the element number and
the source codes: code and counts. -/
def vecElems (ar mul : Nat) (packed : VRec → Bool) (inF outF : VRec → Nat)
    (f : VRec → State → UnitSt → Nat → List Nat → Nat × Tally) (w : List Nat) (p : Nat) (s : State) : OpRes :=
  match vrec w with
  | none => .fault 2
  | some r =>
    let u := getUnit s p
    if u.napVec then .wait .notReady
    else match fetchAll (inF r) r.n r.w5 ((List.range ar).map fun i => decodeOw (wd w (i + 1))) u with
      | .wait h => .wait h
      | .fault c => .fault c
      | .ok u ess =>
        let rs := (List.range r.n).map fun e =>
          if maskBit u.old r.k e then (f r s u e ((nthAll (0, 127) ess e).map (·.1)), true) else ((0, {}), false)
        let t := rs.foldl (fun (t : Tally) x => t.add x.1.2) {}
        vecDone r (decodeOw (wd w 0)) { fmt := outF r, codes := rs.map fun x => (x.1.1, x.2), scales := [] } t
          (vecCycles mul (packed r) r.n) p u s

/-- Round the exact result of a floating operation into the output format: fp32 to nearest even, a packed format as
the instruction selects (R134). -/
def roundOut (r : VRec) (s : State) (u : UnitSt) (e : Nat) (x : Num × Tally) : Nat × Tally :=
  let c := if r.outF = 0 then fp32.convert .rne false x.1 else convertPlain r.outF (r.rnd s u e) r.sat x.1
  (c.1, x.2.add c.2)

/-- A floating operation on exact values. Formats outside fp32, bf16 and fp16 are invalid. The input format decides whether the
instruction counts as packed (DESIGN CHOICE, log entry 193). -/
def vecFloat (ar mul : Nat) (f : List Num → Num × Tally) (w : List Nat) (p : Nat) (s : State) : OpRes :=
  match vrec w with
  | none => .fault 2
  | some r =>
    if !vecFmt r.inF || !vecFmt r.outF then .fault 2
    else vecElems ar mul (fun r => decide (r.inF ≠ 0) && decide (mul = 1)) VRec.inF VRec.outF
      (fun r s u e cs => roundOut r s u e (f (cs.map fun c => elemVal r.inF c 127))) w p s

/-- A NaN made from operands that are no NaN is an invalid operation and counts as non-finite (R119). -/
def countInvalid (ops : List Num) (x : Num) : Num × Tally :=
  (x, if x.isNan && !(ops.any Num.isNan) then Tally.nonfinOne else {})

def numAt (xs : List Num) (k : Nat) : Num := xs.getD k .nan

def fAdd (xs : List Num) : Num × Tally := countInvalid xs ((numAt xs 0).add (numAt xs 1))
def fSub (xs : List Num) : Num × Tally := countInvalid xs ((numAt xs 0).add (numAt xs 1).neg)
def fMul (xs : List Num) : Num × Tally := countInvalid xs ((numAt xs 0).mul (numAt xs 1))
def fMa (xs : List Num) : Num × Tally := countInvalid xs (((numAt xs 0).mul (numAt xs 1)).add (numAt xs 2))
def fNeg (xs : List Num) : Num × Tally := ((numAt xs 0).neg, {})
def fAbs (xs : List Num) : Num × Tally := ((numAt xs 0).abs, {})

/-- Maximum and minimum of R100. -/
def fMax (xs : List Num) : Num × Tally :=
  let a := numAt xs 0; let b := numAt xs 1
  (if a.isNan || b.isNan then .nan else if a.aboveEq b then a else b, {})
def fMin (xs : List Num) : Num × Tally :=
  let a := numAt xs 0; let b := numAt xs 1
  (if a.isNan || b.isNan then .nan else if a.aboveEq b then b else a, {})

/-- Copy-sign at code level: the sign bit of b, whatever its value (R101). -/
def copySign (f : Nat) (cs : List Nat) : Num :=
  let a := (elemVal f (cs.getD 0 0) 127).abs
  if (cs.getD 1 0).testBit (fmtWidth f - 1) then a.neg else a

/-- A transcendental function of fp32, converted again into a packed output (R135). -/
def vecTrans (f : Num → Nat × Tally) (w : List Nat) (p : Nat) (s : State) : OpRes :=
  match vrec w with
  | none => .fault 2
  | some r =>
    if !vecFmt r.inF || !vecFmt r.outF then .fault 2
    else vecElems 1 4 (fun _ => false) VRec.inF VRec.outF (fun r s u e cs =>
      let y := f (elemVal r.inF (cs.getD 0 0) 127)
      if r.outF = 0 then y
      else
        let c := convertPlain r.outF (r.rnd s u e) r.sat (fp32.decode y.1)
        (c.1, y.2.add c.2)) w p s

/-- A 32-bit integer operation (R134): no tally. -/
def vecInt (f : W32 → W32 → W32) (w : List Nat) (p : Nat) (s : State) : OpRes :=
  vecElems 2 1 (fun _ => false) (fun _ => 12) (fun _ => 12)
    (fun _ _ _ _ cs => ((f (BitVec.ofNat 32 (cs.getD 0 0)) (BitVec.ofNat 32 (cs.getD 1 0))).toNat, {})) w p s

/-- A shift by less than 32; further the result is free. -/
def shiftBy (op : Nat) (f : W32 → Nat → W32) (a b : W32) : W32 :=
  if b.toNat < 32 then f a b.toNat else Config.shiftBeyond op a b

/-- Write mask bits under the instruction's own mask (R131). -/
def maskDone (r : VRec) (dst : Option Operand) (vals : Nat → Bool) (cycles p : Nat) (u : UnitSt) (s : State) : OpRes :=
  match dst with
  | some (.mask k) =>
    let cur := (List.range r.n).foldl (fun e i =>
      if maskBit u.old r.k i then setMaskBit k e i (vals i) else if r.zero then setMaskBit k e i false else e) u.cur
    .ok (countRun 0x5020 (p + 1) cycles (setUnit p { u with cur := cur } s))
  | _ => .fault 2

/-- The comparisons of FCMP and ICMP (R100, R197): 0 EQ, 1 NE, 2 LT, 3 LE, 4 UN. -/
def compareNum (c : Nat) (a b : Num) : Bool :=
  let un := a.isNan || b.isNan
  let d := a.cmp b
  match c with
  | 0 => !un && decide (d = 0)
  | 1 => un || decide (d ≠ 0)
  | 2 => !un && decide (d < 0)
  | 3 => !un && decide (d ≤ 0)
  | _ => un

/-- FCMP and ICMP: a mask from two sources. A comparison counts nothing, LT and LE with a NaN among them (DESIGN CHOICE, log
entry 194). -/
def vecCompare (int : Bool) (w : List Nat) (p : Nat) (s : State) : OpRes :=
  match vrec w with
  | none => .fault 2
  | some r =>
    let u := getUnit s p
    let f := if int then 12 else r.inF
    if 4 < r.cmp ∨ (!int && !vecFmt r.inF) = true then .fault 2
    else if u.napVec then .wait .notReady
    else match fetchAll f r.n r.w5 [decodeOw (wd w 1), decodeOw (wd w 2)] u with
      | .wait h => .wait h
      | .fault c => .fault c
      | .ok u ess =>
        let vals (e : Nat) : Bool :=
          let cs := nthAll (0, 127) ess e
          compareNum r.cmp (elemVal f (cs.getD 0 (0, 0)).1 127) (elemVal f (cs.getD 1 (0, 0)).1 127)
        maskDone r (decodeOw (wd w 0)) vals (vecCycles 1 false r.n) p u s

/-- KAND, KOR, KXOR, KNOT, KSET: masks of masks (R134). -/
def vecMask (ar : Nat) (f : Bool → Bool → Bool) (w : List Nat) (p : Nat) (s : State) : OpRes :=
  match vrec w with
  | none => .fault 2
  | some r =>
    let u := getUnit s p
    if u.napVec then .wait .notReady
    else
      let src (i : Nat) : Option Nat := match decodeOw (wd w i) with | some (.mask k) => some k | _ => none
      if (decide (1 ≤ ar) && (src 1).isNone) || (decide (2 ≤ ar) && (src 2).isNone) then .fault 2
      else
        let a := (src 1).getD 0
        let b := (src 2).getD 0
        maskDone r (decodeOw (wd w 0)) (fun e => f (maskBit u.old a e) (maskBit u.old b e)) (vecCycles 1 false r.n) p u s

/-- KIDX (R134): clear bit s × w + x of the destination mask for each element x in [0, w). -/
def vecKidx (w : List Nat) (p : Nat) (s : State) : OpRes :=
  match vrec w, decodeOw (wd w 0) with
  | some r, some (.mask k) =>
    let u := getUnit s p
    let width := r.w5 % 2 ^ 14 + 1
    if u.napVec then .wait .notReady
    else match fetchAll 12 r.n r.w5 [decodeOw (wd w 1)] u with
      | .wait h => .wait h
      | .fault c => .fault c
      | .ok u ess =>
        let cur := (List.range r.n).foldl (fun e i =>
          let x := ((nthAll (0, 127) ess i).getD 0 (0, 0)).1
          let at_ := i * width + x
          if maskBit u.old r.k i && decide (x < width) && decide (at_ < 16384) then setMaskBit k e at_ false else e) u.cur
        .ok (countRun 0x5020 (p + 1) (vecCycles 1 false r.n) (setUnit p { u with cur := cur } s))
  | _, _ => .fault 2

/-- MOV: bits unchanged, block scales with their elements (R134). -/
def vecMov (w : List Nat) (p : Nat) (s : State) : OpRes :=
  match vrec w with
  | none => .fault 2
  | some r =>
    let u := getUnit s p
    if fmtWidth r.inF = 0 ∨ r.inF = 13 then .fault 2
    else if u.napVec then .wait .notReady
    else match fetchAll r.inF r.n r.w5 [decodeOw (wd w 1)] u with
      | .wait h => .wait h
      | .fault c => .fault c
      | .ok u ess =>
        let es := ess.headD []
        let scales := if isMx r.inF then (List.range (cdiv r.n 32)).map fun b => (es.getD (32 * b) (0, 127)).2 else []
        vecDone r (decodeOw (wd w 0))
          { fmt := r.inF, codes := es.zipIdx.map fun x => (x.1.1, maskBit u.old r.k x.2), scales := scales } {}
          (vecCycles 1 false r.n) p u s

/-- SEL: a mask chooses a or b, bits unchanged. The choosing mask is source c when that is a mask register, and else
the instruction's own mask, all elements then taking part (DESIGN CHOICE, log entry 8). -/
def vecSel (w : List Nat) (p : Nat) (s : State) : OpRes :=
  match vrec w with
  | none => .fault 2
  | some r =>
    let u := getUnit s p
    if fmtWidth r.inF = 0 ∨ 13 ≤ r.inF ∨ isMx r.inF = true then .fault 2
    else if u.napVec then .wait .notReady
    else match fetchAll r.inF r.n r.w5 [decodeOw (wd w 1), decodeOw (wd w 2)] u with
      | .wait h => .wait h
      | .fault c => .fault c
      | .ok u ess =>
        let m : Option Nat := match decodeOw (wd w 3) with | some (.mask k) => some k | _ => none
        let codes := (List.range r.n).map fun e =>
          let cs := nthAll (0, 127) ess e
          let pick := maskBit u.old (m.getD r.k) e
          ((if pick then (cs.getD 0 (0, 0)).1 else (cs.getD 1 (0, 0)).1), m.isNone || maskBit u.old r.k e)
        vecDone r (decodeOw (wd w 0)) { fmt := r.inF, codes := codes, scales := [] } {} (vecCycles 1 false r.n) p u s

/-- CVT (R106 to R116, R134): masked-off elements convert as +0 and count nothing. To an MX format it converts under the current
policy, since its record has no bit for the other (R197; DESIGN CHOICE, log entry 195). -/
def vecCvt (w : List Nat) (p : Nat) (s : State) : OpRes :=
  match vrec w with
  | none => .fault 2
  | some r =>
    let u := getUnit s p
    if 13 ≤ r.inF ∨ 13 ≤ r.outF then .fault 2
    else if u.napVec then .wait .notReady
    else match fetchAll r.inF r.n r.w5 [decodeOw (wd w 1)] u with
      | .wait h => .wait h
      | .fault c => .fault c
      | .ok u ess =>
        let xs : List ConvIn := (ess.headD []).zipIdx.map fun x =>
          let on := maskBit u.old r.k x.2
          { val := if on then elemVal r.inF x.1.1 x.1.2 else .fin false 0 0, rnd := r.rnd s u x.2, idx := r.idx x.2, on := on }
        let c := convElems r.outF u.vtag.toNat r.sat false xs s
        vecDone r (decodeOw (wd w 0))
          { fmt := r.outF, codes := c.2.codes.zipIdx.map fun x => (x.1, maskBit u.old r.k x.2), scales := c.2.scales }
          c.2.tally (vecCycles 1 false r.n) p u c.1

/-- VTAG (R137): it counts no issue cycles, being in no class of R129 (DESIGN CHOICE, log entry 193). -/
def vecVtag (w : List Nat) (p : Nat) (s : State) : OpRes :=
  let u := getUnit s p
  if u.napVec then .wait .notReady
  else .ok (setUnit p { u with vtag := BitVec.ofNat 16 (wd w 5) } s)

/-- FCPS. -/
def vecFcps (w : List Nat) (p : Nat) (s : State) : OpRes :=
  match vrec w with
  | none => .fault 2
  | some r =>
    if !vecFmt r.inF || !vecFmt r.outF then .fault 2
    else vecElems 2 1 (fun r => decide (r.inF ≠ 0)) VRec.inF VRec.outF
      (fun r s u e cs => roundOut r s u e (copySign r.inF cs, {})) w p s

end Sys2Proof.Machine
end

