-- ==== Sys2Proof/Machine/Engine.lean ====
section
/-! DEFINITION. The arithmetic of the update engines (R260 to R280): the check of a layer, the per-layer constants,
the update of a piece, and the layer state records. The primary and a twin's shadow update (R352) share it: they
differ in the layer table, in where the gradient lies and in whether working copies are written. -/

namespace Sys2Proof.Machine

/-! ### fp32 operations with their tally (R280) -/

def f32 (x : W32) : Num := fp32.decode x.toNat

/-- Round once to fp32, to nearest even. -/
def rn (x : Num × Tally) : W32 × Tally :=
  let c := fp32.convert .rne false x.1
  (BitVec.ofNat 32 c.1, x.2.add c.2)

def opAdd (a b : W32) : W32 × Tally := rn (fAdd [f32 a, f32 b])
def opSub (a b : W32) : W32 × Tally := rn (fSub [f32 a, f32 b])
def opMul (a b : W32) : W32 × Tally := rn (fMul [f32 a, f32 b])
def opFma (a b c : W32) : W32 × Tally := rn (fMa [f32 a, f32 b, f32 c])
def opDiv (a b : W32) : W32 × Tally := rn (divNum (f32 a) (f32 b))
def opSqrt (a : W32) : W32 × Tally := rn (sqrtNum (f32 a))

/-- x × 2^k rounded once. -/
def opScale (a : W32) (k : Int) : W32 × Tally := rn ((f32 a).scale k, {})

def negCode (a : W32) : W32 := a ^^^ 0x80000000#32

/-- 1.0 in fp32. -/
def one32 : W32 := 0x3F800000#32

/-- +∞ in fp32. -/
def inf32 : W32 := 0x7F800000#32

def isFin32 (a : W32) : Bool := (f32 a).isFin

/-- Whether an fp32 value is not ±0: what "≠ 0" says of a parameter. -/
def on32 (a : W32) : Bool := decide (a &&& 0x7FFFFFFF ≠ 0)

/-- a < b for codes that are not NaN. -/
def lt32 (a b : W32) : Bool := decide ((f32 a).cmp (f32 b) < 0)

def tsum (ts : List Tally) : Tally := ts.foldl Tally.add {}

/-! ### Layer state records (R268) -/

structure LayerRec where
  avg     : W32 := 0
  count   : Nat := 0
  k       : Int := 0
  kw      : Int := 0
  norm    : W32 := 0
  cs      : W32 := 0
  clipped : Bool := false
  surged  : Bool := false
  deriving DecidableEq, Repr

def LayerRec.ofBytes (bs : Bytes) : LayerRec :=
  { avg := BitVec.ofNat 32 (leAt bs 0 4), count := leAt bs 4 4, k := signed 8 (leAt bs 8 1), kw := signed 8 (leAt bs 9 1),
    norm := BitVec.ofNat 32 (leAt bs 12 4), cs := BitVec.ofNat 32 (leAt bs 16 4), clipped := bit (leAt bs 20 1) 0,
    surged := bit (leAt bs 20 1) 1 }

def LayerRec.toBytes (r : LayerRec) : Bytes :=
  leBytes 32 (pack [(32, r.avg.toNat), (32, r.count), (8, unsigned 8 r.k), (8, unsigned 8 r.kw), (16, 0),
    (32, r.norm.toNat), (32, r.cs.toNat), (1, if r.clipped then 1 else 0), (1, if r.surged then 1 else 0)])

/-- The moment exponents in use: KINIT while COUNT = 0. -/
def kOf (e : LayerEnt) (r : LayerRec) : Int := if r.count = 0 then e.kinit else r.k
def kwOf (e : LayerEnt) (r : LayerRec) : Int := if r.count = 0 then e.kinit else r.kw

/-! ### What an update takes from the step and the settings (R270, R352) -/

structure StepIn where
  step  : Nat
  lr    : W32
  l     : Int
  seed  : Nat
  rne   : Bool      -- 0x3C12:01
  surge : W32       -- 0x4008:01

/-- The primary's own step. -/
def stepIn (s : State) : StepIn :=
  { step := s.led.running, lr := s.led.run.lr, l := s.led.run.l, seed := num s 0x3C10 1,
    rne := decide (num s 0x3C12 1 ≠ 0), surge := BitVec.ofNat 32 (num s 0x4008 1) }

/-! ### Tensors -/

def TensorEnt.size (t : TensorEnt) : Nat := t.rows * t.cols

/-- The tensors of a layer entry, numbered from its FIRSTT. -/
def LayerTab.tensorsOf (lt : LayerTab) (e : LayerEnt) : List TensorEnt := (lt.tensors.drop e.firstt).take e.nt

def layerEnt (lt : LayerTab) (k : Nat) : Option LayerEnt := lt.layers[k]?

/-- The tag of a layer's first tensor entry. -/
def firstTag (lt : LayerTab) (e : LayerEnt) : Nat := ((lt.tensorsOf e).head?.map (·.tag)).getD 0xFFFF

/-- Bytes of the first moment of a parameter. -/
def mBytes (e : LayerEnt) : Nat := if e.lean then 1 else 4

/-- Whether the layer has second moments. -/
def hasSm (e : LayerEnt) : Bool := decide (e.opt ≠ 1)

/-- Bytes of the second-moment training state of a tensor: v, or R then C. -/
def smBytes (e : LayerEnt) (t : TensorEnt) : Nat :=
  if !hasSm e then 0 else if t.fact then 4 * (t.rows + t.cols) else 4 * t.size

/-- The state areas of a layer in the order of R355: address and length. -/
def stateAreas (lt : LayerTab) (e : LayerEnt) : List (Nat × Nat) :=
  (lt.tensorsOf e).flatMap fun t => [(t.master, 4 * t.size), (t.m, mBytes e * t.size), (t.sm, smBytes e t)]

/-- The pieces of a tensor (R283): the barges of its master words. -/
def pieces (t : TensorEnt) : Nat := (t.master + 4 * t.size + (bargeBytes - 1)) / bargeBytes - t.master / bargeBytes

/-- The barge of a piece. -/
def pieceBarge (t : TensorEnt) (k : Nat) : Nat := t.master / bargeBytes + k

/-- First parameter and parameter count of a piece. -/
def pieceRange (t : TensorEnt) (k : Nat) : Nat × Nat :=
  let lo := (pieceBarge t k * bargeBytes - t.master) / 4
  let hi := min t.size (((pieceBarge t k + 1) * bargeBytes - t.master) / 4)
  (lo, hi - lo)

/-- Whether a far engine takes a piece (R283). -/
def pieceFar (s : State) (t : TensorEnt) (k : Nat) : Bool := (barge s (pieceBarge t k)).tier

/-! ### Memory areas that engines read -/

/-- A byte range: by device address, or in the pending-gradient area (R341). -/
inductive Area where
  | dev (addr n : Nat)
  | pend (addr n : Nat)

/-- Where parameters `[lo, lo + n)` of a tensor's gradient lie. -/
def gradArea (shadow : Bool) (t : TensorEnt) (lo n : Nat) : Area :=
  if shadow then .pend (t.grad + 4 * lo) (4 * n) else .dev (t.grad + 4 * lo) (4 * n)

/-- Read areas in order; none where one fails (R472). What the ECC found applies to the first. -/
def readAreas : List Area → Ecc → State → State × Option (List Bytes)
  | [], _, s => (s, some [])
  | .pend a n :: more, ecc, s =>
    match pondBad s (pondPend s a) n with
    | some cause => (failPond cause s, none)
    | none => match readAreas more ecc s with
    | (s', some bs) => (s', some (Sparse.getMany 0 s.mem.pend a n :: bs))
    | (s', none) => (s', none)
  | .dev a n :: more, ecc, s =>
    match readDev a n ecc s with
    | .ok s bs => match readAreas more .clean s with
      | (s', some bss) => (s', some (bs :: bss))
      | (s', none) => (s', none)
    | .notBacked s => (s, none)
    | .failed s => (s, none)

/-- Write byte strings; false where a write fails. -/
def writeAreas : List (Nat × Bytes) → State → State × Bool
  | [], s => (s, true)
  | (a, bs) :: more, s =>
    match writeDev a bs s with
    | .ok s _ => writeAreas more s
    | .notBacked s => (s, false)
    | .failed s => (s, false)

/-- fp32 words of bytes. -/
def words (bs : Bytes) : List W32 := (splitCodes 32 (bs.length / 4) (leNat bs)).map (BitVec.ofNat 32)

def wordBytes (ws : List W32) : Bytes := ws.flatMap fun w => leBytes 4 w.toNat

/-! ### The check stage (R272, R273) -/

/-- Square of a finite fp32 in units of 2^-298; none for NaN or ∞. -/
def square (g : W32) : Option Nat :=
  match f32 g with
  | .fin _ m e => some (atExp (m * m) (2 * e) (-298))
  | _ => none

def sumSquares (gs : List W32) : Nat := (gs.map fun g => (square g).getD 0).sum

def nonFinites (gs : List W32) : Nat := (gs.filter fun g => (square g).isNone).length

/-- A × 2^(−298 − 2L), rounded once to fp32. -/
def roundSum (a : Nat) (l : Int) : W32 × Tally := rn (.fin false a (-298 - 2 * l), {})

/-- The square root of S, rounded once to fp32 (R273). -/
def normOf (a : Nat) (l : Int) : W32 :=
  if a = 0 then 0
  else
    let r := sqrtSticky a (-298 - 2 * l)
    (rn (.fin false r.1 r.2, {})).1

/-- Rows and columns of a factored tensor's gradients: the sums of squares, rounded. -/
def rowSums (t : TensorEnt) (gs : List W32) (l : Int) : List (W32 × Tally) :=
  (List.range t.rows).map fun r => roundSum (sumSquares ((gs.drop (r * t.cols)).take t.cols)) l

def colSums (t : TensorEnt) (gs : List W32) (l : Int) : List (W32 × Tally) :=
  (List.range t.cols).map fun c =>
    roundSum (sumSquares ((List.range t.rows).map fun r => gs.getD (r * t.cols + c) 0)) l

/-- Device address of the RS array of a factored tensor; CS follows it (R267). -/
def rsAddr (t : TensorEnt) : Nat := t.sm + 4 * (t.rows + t.cols)

/-- What a layer's gradients sum to, and the counts of the roundings of RS and CS, by the tensor's TAG (R280). -/
structure GradSum where
  nf : Nat := 0
  a  : Nat := 0
  tallies : List (Nat × Tally) := []

/-- Read a layer's gradients tensor by tensor, summing and writing RS and CS. -/
def sumTensors (shadow : Bool) (l : Int) : List TensorEnt → GradSum → Ecc → State → State × Option GradSum
  | [], g, _, s => (s, some g)
  | t :: ts, g, ecc, s =>
    match readAreas [gradArea shadow t 0 t.size] ecc s with
    | (s, none) => (s, none)
    | (s, some bss) =>
      let gs := words (bss.headD [])
      let rs := if t.fact then rowSums t gs l else []
      let cs := if t.fact then colSums t gs l else []
      let sums := if t.fact then [(rsAddr t, wordBytes (rs.map (·.1))), (rsAddr t + 4 * t.rows, wordBytes (cs.map (·.1)))]
        else []
      match writeAreas sums s with
      | (s, false) => (s, none)
      | (s, true) =>
        sumTensors shadow l ts { nf := g.nf + nonFinites gs, a := g.a + sumSquares gs,
                                 tallies := g.tallies ++ [(t.tag, tsum ((rs ++ cs).map (·.2)))] } .clean s

/-- The clip decision of R273. -/
structure Clip where
  n       : W32
  cs      : W32
  lim     : W32
  surged  : Bool
  clipped : Bool
  abort   : Nat           -- 0 none, 2 non-finite, 3 surge

def clipOf (lt : LayerTab) (e : LayerEnt) (r : LayerRec) (cin : StepIn) (g : GradSum) : Clip :=
  let n := normOf g.a cin.l
  let surge := if on32 e.surge && on32 cin.surge then cin.surge else e.surge
  let lim := if on32 surge = true ∧ e.warm ≤ r.count ∧ lt32 0 r.avg = true then (opMul surge r.avg).1 else inf32
  let overw := lt32 lim n
  let cs0 := if overw then (opDiv lim n).1 else one32
  let clips := !lt.mode && on32 e.clip && lt32 e.clip n
  let c := (opDiv e.clip n).1
  { n := n, lim := lim, surged := overw, clipped := clips, cs := if clips && lt32 c cs0 then c else cs0,
    abort := if 0 < g.nf ∨ n = inf32 then 2 else if overw && !e.surgeAct then 3 else 0 }

/-! ### Constants (R274, R278) -/

structure UpdC where
  e   : LayerEnt
  cin : StepIn
  cs  : W32
  lr  : W32
  wd  : W32
  c1  : W32
  c2  : W32
  bc1 : W32
  bc2 : W32
  q   : W32
  k   : Int
  kw  : Int

/-- The fp32 nearest to 1 / (1 − β^t), from the exact β. -/
def biasOf (b : W32) (t : Nat) : W32 :=
  match f32 b with
  | .fin _ m e =>
    if m = 0 then one32
    else
      let d := 2 ^ ((-e).toNat * t)
      let q := quotSticky d 0 (d - m ^ t) 0
      (rn (.fin false q.1 q.2, {})).1
  | _ => one32

/-- The constants of a layer's update and the tally events of their roundings. -/
def updConsts (e : LayerEnt) (r : LayerRec) (cin : StepIn) (cs : W32) : UpdC × Tally :=
  let lr := opMul cin.lr e.lrmul
  let c1 := opSub one32 e.b1
  let c2 := opSub one32 e.b2
  let q := opMul cs cs
  let k := kOf e r
  let lrK := if e.lean then opScale lr.1 (-k) else (lr.1, {})
  let wdK := if e.lean then opScale e.wd k else (e.wd, {})
  ({ e := e, cin := cin, cs := cs, lr := lrK.1, wd := wdK.1, c1 := c1.1, c2 := c2.1, bc1 := biasOf e.b1 (r.count + 1),
     bc2 := biasOf e.b2 (r.count + 1), q := q.1, k := k, kw := kwOf e r },
   tsum [lr.2, c1.2, c2.2, q.2, lrK.2, wdK.2])

/-! ### One parameter (R274 to R278) -/

/-- The inputs of one parameter: master, gradient, moment (fp32 code, or E4M3 code in lean state), second moment. -/
structure PIn where
  p : W32
  g : W32
  m : Nat
  v : W32

structure POut where
  p : W32
  m : Nat
  v : W32
  w : Nat
  amax : Nat            -- magnitude code of the E4M3 moment
  tally : Tally
  bad : Bool            -- a non-finite result from finite inputs (R280)

/-- The factors of a factored parameter: R, C and T. -/
structure Factors where
  r : W32
  c : W32
  t : W32

/-- How a lean moment rounds: stochastically where MSR asks for it and 0x3C12:01 does not override. -/
def leanRnd (c : UpdC) (tag i : Nat) : Rnd :=
  if c.e.msr && !c.cin.rne then
    .sr (brine16 (BitVec.ofNat 64 c.cin.seed) (BitVec.ofNat 64 c.cin.step) (BitVec.ofNat 16 tag) (BitVec.ofNat 64 i))
  else .rne

/-- The new first moment: its stored code, its value, and counts. -/
def newMoment (c : UpdC) (rnd : Rnd) (m : Nat) (gi : W32) : Nat × W32 × Tally :=
  if c.e.lean then
    let mo := (e4m3.decode m).scale (c.k - c.kw)
    let gk := opScale gi c.k
    let x := if c.e.opt = 1 then gk else opMul c.c1 gk.1
    let mn := rn (fMa [f32 c.e.b1, mo, f32 x.1])
    let code := e4m3.convert rnd true (f32 mn.1)
    (code.1, (rn (e4m3.decode code.1, {})).1, tsum [gk.2, if c.e.opt = 1 then {} else x.2, mn.2, code.2])
  else
    let x := if c.e.opt = 1 then (gi, {}) else opMul c.c1 gi
    let mn := opFma c.e.b1 (BitVec.ofNat 32 m) x.1
    (mn.1.toNat, mn.1, tsum [x.2, mn.2])

/-- The second moment in use and its counts: v of AdamW, or vh of a factored tensor. -/
def newSecond (c : UpdC) (f : Option Factors) (v gi : W32) : W32 × W32 × Tally :=
  match f with
  | some f =>
    if f.t.toNat % 2 ^ 31 = 0 then (v, 0, {})
    else
      let rc := opMul f.r f.c
      let vh := opDiv rc.1 f.t
      (v, vh.1, tsum [rc.2, vh.2])
  | none =>
    let gg := opMul gi gi
    let cg := opMul c.c2 gg.1
    let v' := opFma c.e.b2 v cg.1
    (v'.1, v'.1, tsum [gg.2, cg.2, v'.2])

/-- Update one parameter. -/
def updateParam (c : UpdC) (f : Option Factors) (rnd : Rnd) (x : PIn) : POut :=
  let gs := opScale x.g (-c.cin.l)
  let gi := opMul gs.1 c.cs
  let m := newMoment c rnd x.m gi.1
  let sv := if hasSm c.e then newSecond c f x.v gi.1 else (x.v, 0, {})
  let dir :=
    if hasSm c.e then
      let vb := opMul sv.2.1 c.bc2
      let sq := opSqrt vb.1
      let d := opAdd sq.1 c.e.eps
      let mb := opMul m.2.1 c.bc1
      let q := opDiv mb.1 d.1
      (q.1, tsum [vb.2, sq.2, d.2, mb.2, q.2])
    else (m.2.1, {})
  let wp := opFma c.wd x.p dir.1
  let p := opFma (negCode c.lr) wp.1 x.p
  let w := bf16.convert .rne true (f32 p.1)
  let mFin := if c.e.lean then (e4m3.decode x.m).isFin else isFin32 (BitVec.ofNat 32 x.m)
  let ins := isFin32 x.p && isFin32 x.g && mFin && isFin32 x.v && (match f with
    | some f => isFin32 f.r && isFin32 f.c
    | none => true)
  let outs := isFin32 p.1 && (c.e.lean || isFin32 (BitVec.ofNat 32 m.1)) && isFin32 sv.1
  { p := p.1, m := m.1, v := sv.1, w := w.1, amax := if c.e.lean then m.1 % 128 else 0,
    tally := tsum [gs.2, gi.2, m.2.2, sv.2.2, dir.2, wp.2, p.2, w.2], bad := ins && !outs }

/-! ### Factored second moments (R277) -/

/-- One array of factors: new values, counts, and whether a non-finite came from finite inputs. -/
def newFactors (c : UpdC) (old sums : List W32) : List W32 × Tally × Bool :=
  let rs := old.zip sums |>.map fun x =>
    let a := opMul x.2 c.q
    let b := opMul c.c2 a.1
    let r := opFma c.e.b2 x.1 b.1
    (r.1, tsum [a.2, b.2, r.2], isFin32 x.1 && isFin32 x.2 && !isFin32 r.1)
  (rs.map (·.1), tsum (rs.map (·.2.1)), rs.any (·.2.2))

/-- The exact sum of the row factors, rounded once. -/
def factorSum (rs : List W32) : W32 × Tally := rn (rs.foldl (fun (a : Num) r => a.add (f32 r)) (.fin false 0 0), {})

/-- Update the factors of one tensor, once per step, and form T: false where memory fails. -/
def updateFactors (c : UpdC) (t : TensorEnt) (s : State) : State × Bool × Tally × Bool :=
  match readAreas [.dev t.sm (4 * t.rows), .dev (t.sm + 4 * t.rows) (4 * t.cols), .dev (rsAddr t) (4 * t.rows),
      .dev (rsAddr t + 4 * t.rows) (4 * t.cols)] .clean s with
  | (s, some [r, cc, rs, cs]) =>
    let a := newFactors c (words r) (words rs)
    let b := newFactors c (words cc) (words cs)
    let w := writeAreas [(t.sm, wordBytes a.1), (t.sm + 4 * t.rows, wordBytes b.1)] s
    (w.1, w.2, tsum [a.2.1, b.2.1, (factorSum a.1).2], a.2.2 || b.2.2)
  | (s, _) => (s, false, {}, false)

/-- The factored tensors of a layer, in order. -/
def stageFactors (c : UpdC) : List TensorEnt → State → State × Bool × List (Nat × Tally) × Bool
  | [], s => (s, true, [], false)
  | t :: ts, s =>
    if !t.fact then stageFactors c ts s
    else
      let x := updateFactors c t s
      if !x.2.1 then (x.1, false, [(t.tag, x.2.2.1)], x.2.2.2)
      else
        let y := stageFactors c ts x.1
        (y.1, y.2.1, (t.tag, x.2.2.1) :: y.2.2.1, x.2.2.2 || y.2.2.2)

/-! ### One piece (R283) -/

/-- What a piece's update gives: the state with masters and moments written, or none where memory failed; the working
copies; counts; the largest moment; whether a non-finite result appeared. -/
structure PieceOut where
  ok    : Bool
  work  : Bytes
  tally : Tally
  amax  : Nat
  bad   : Bool

/-- Update one piece in place: masters, moments and second moments. -/
def updatePiece (shadow : Bool) (c : UpdC) (t : TensorEnt) (piece : Nat) (ecc : Ecc) (s : State) : State × PieceOut :=
  let lo := (pieceRange t piece).1
  let n := (pieceRange t piece).2
  let fail (s : State) : State × PieceOut := (s, { ok := false, work := [], tally := {}, amax := 0, bad := false })
  let fact := t.fact && hasSm c.e
  let plainV := hasSm c.e && !t.fact
  let areas := [.dev (t.master + 4 * lo) (4 * n), gradArea shadow t lo n, .dev (t.m + mBytes c.e * lo) (mBytes c.e * n)]
    ++ (if plainV then [.dev (t.sm + 4 * lo) (4 * n)] else if fact then [.dev t.sm (4 * (t.rows + t.cols))] else [])
  match readAreas areas ecc s with
  | (s, some (pb :: gb :: mb :: rest)) =>
    let ps := words pb
    let gs := words gb
    let sv := words (rest.headD [])
    let tt := (factorSum (sv.take t.rows)).1
    let one (j : Nat) : POut :=
      let i := lo + j
      let f : Option Factors := if fact then
          some { r := sv.getD (i / t.cols) 0, c := sv.getD (t.rows + i % t.cols) 0, t := tt } else none
      updateParam c f (leanRnd c t.tag i)
        { p := ps.getD j 0, g := gs.getD j 0, m := leAt mb (mBytes c.e * j) (mBytes c.e),
          v := if plainV then sv.getD j 0 else 0 }
    let rs := (List.range n).map one
    let outs := [(t.master + 4 * lo, wordBytes (rs.map (·.p))),
        (t.m + mBytes c.e * lo, rs.flatMap fun r => leBytes (mBytes c.e) r.m)]
      ++ (if plainV then [(t.sm + 4 * lo, wordBytes (rs.map (·.v)))] else [])
    match writeAreas outs s with
    | (s, false) => fail s
    | (s, true) =>
      (s, { ok := true, work := rs.flatMap fun r => leBytes 2 r.w, tally := tsum (rs.map (·.tally)),
            amax := rs.foldl (fun a r => max a r.amax) 0, bad := rs.any (·.bad) })
  | (s, _) => fail s

/-! ### The record after the update (R273, R279) -/

/-- min of two fp32 values that are not NaN. -/
def min32 (a b : W32) : W32 := if lt32 b a then b else a

/-- K′ (R279); `amax` is an E4M3 magnitude code. -/
def nextK (k : Int) (amax : Nat) : Int :=
  match e4m3.decode amax with
  | .fin _ m e => if m = 0 then k else max (-100) (min 100 (k + 4 - flog2 m e))
  | _ => k

/-- The layer state record after the commit of an update with clip decision `run` and factor `cs`. -/
def nextRec (e : LayerEnt) (r : LayerRec) (n cs lim : W32) (surged clipped : Bool) (amax : Nat) : LayerRec :=
  let c := (opSub one32 e.bs).1
  { avg := if r.count = 0 then n else (opFma e.bs r.avg (opMul c (min32 n lim)).1).1,
    count := (r.count + 1) % 2 ^ 32,
    k := if e.lean then nextK (kOf e r) amax else r.k,
    kw := if e.lean then kOf e r else r.kw,
    norm := n, cs := cs, clipped := clipped, surged := surged }

/-! ### Digests of a layer (R355) -/

/-- The bytes of the state areas of a layer as they stand; none where memory fails. -/
def layerBytes (lt : LayerTab) (e : LayerEnt) (s : State) : Option Bytes :=
  (stateAreas lt e).foldl (fun acc a => match acc, peekDev s a.1 a.2 with
    | some bs, some x => some (bs ++ x)
    | _, _ => none) (some [])

/-- The layer digest of stored bytes and a record. -/
def layerDigest (bs : Bytes) (r : LayerRec) : BitVec 128 := twinDigest (bs ++ r.toBytes)

/-- The gradient bytes of a layer, its GRAD areas in tensor-entry order. -/
def gradBytes (shadow : Bool) (lt : LayerTab) (e : LayerEnt) (s : State) : Option Bytes :=
  (lt.tensorsOf e).foldl (fun acc t =>
    let part := if shadow then (if (pondBad s (pondPend s t.grad) (4 * t.size)).isSome then none
        else some (Sparse.getMany 0 s.mem.pend t.grad (4 * t.size))) else peekDev s t.grad (4 * t.size)
    match acc, part with
    | some bs, some x => some (bs ++ x)
    | _, _ => none) (some [])

/-- An engine reads the layer state record of a layer; none where the read fails (R472). -/
def readRec (lt : LayerTab) (k : Nat) (s : State) : State × Option LayerRec :=
  match readAreas [.dev (lt.lstate + 32 * k) 32] .clean s with
  | (s, some bss) => (s, some (LayerRec.ofBytes (bss.headD [])))
  | (s, none) => (s, none)

/-- Rebuild the working copies of a layer from its masters (R263). -/
def rebuildWork (lt : LayerTab) (e : LayerEnt) (s : State) : State :=
  (lt.tensorsOf e).foldl (fun s t =>
    match readDev t.master (4 * t.size) .clean s with
    | .notBacked s => s
    | .failed s => s
    | .ok s bs => pokeDev t.work ((words bs).flatMap fun p => leBytes 2 (bf16.convert .rne true (f32 p)).1) s) s

end Sys2Proof.Machine
end

