-- ==== Sys2Proof/Machine/Update.lean ====
section
/-! DEFINITION. The commands of the update engines (R271 to R285, R472). -/

namespace Sys2Proof.Machine

/-- This card's layer table. -/
def ownLt (s : State) : LayerTab := s.plan.plan.lt

def layerRun (s : State) (k : Nat) : LayerRun := Sparse.get {} s.led.layers k

def setLayerRun (k : Nat) (r : LayerRun) (s : State) : State :=
  { s with led := { s.led with layers := Sparse.set {} s.led.layers k r } }

/-- Whether a step runs in which engines may act: OPEN or UPDATING, opened, and not halted (R285, R287). -/
def enginesRun (s : State) : Bool :=
  (decide (s.led.st = .opened) || decide (s.led.st = .updating)) && !s.led.waiting && decide (s.keep.dev = .running)

/-- Whether updates wait for apply(N): deferred mode, or a card that holds after losing its twin (R282, R348). -/
def waitsApply (s : State) : Bool := (ownLt s).mode || s.led.solocs

def layerNumbers (lt : LayerTab) : List Nat := List.range lt.layers.length

/-- Whether every layer has passed its check. -/
def allChecked (s : State) : Bool := (layerNumbers (ownLt s)).all fun k => (layerRun s k).checked

/-- Whether every layer has been updated. -/
def allUpdated (s : State) : Bool := (layerNumbers (ownLt s)).all fun k => (layerRun s k).updated

/-- The card's A of R282: the exact sum over its layers. -/
def cardSum (s : State) : Nat := ((layerNumbers (ownLt s)).map fun k => (layerRun s k).sumA).sum

/-- Send norm(N) once, when every layer is checked and updates wait for apply(N) (R282, R348). -/
def sendNorm (s : State) : State :=
  if waitsApply s && allChecked s && !s.led.normSent then
    toCard (coordinator s) (.norm s.led.running (attempt s) (cardSum s) s.led.run.l s.led.solocs)
      { s with led := { s.led with normSent := true } }
  else s

/-- An engine failed on a memory access (R472): the running step aborts with cause 7. -/
def engineFails (layer : Nat) (s : State) : State := reportAbort 7 layer s

/-- The record of a layer as its update stage read it. -/
def LayerRun.record (r : LayerRun) : LayerRec := LayerRec.ofBytes r.lrec

/-- The gradients of a layer have been summed and its record read: the clip decision, and what it counts (R273). -/
def checkEnds (k : Nat) (e : LayerEnt) (r : LayerRec) (g : GradSum) (s : State) : State :=
  let run := layerRun s k
  let c := clipOf (ownLt s) e r (stepIn s) g
  let s := g.tallies.foldl (fun s t => chargeTally t.1 t.2 s) s
  if c.abort ≠ 0 then reportAbort c.abort k s
  else
    let s := setLayerRun k { run with checked := true, sumA := g.a, n := c.n, cs := c.cs, lim := c.lim,
                                      surged := c.surged, clipped := c.clipped } s
    let s := { s with led := { s.led with chkOrder := s.led.chkOrder ++ [k] } }
    let s := maxRun 0x4010 6 c.n.toNat s
    let s := if c.clipped then countRun 0x4010 4 1 s else s
    let s := if c.surged then countRun 0x4010 5 1 s else s
    sendNorm s

/-- The check of a layer ends (R272, R273). -/
def checkDone (k : Nat) (e : LayerEnt) (ecc : Ecc) (s : State) : State :=
  let lt := ownLt s
  let s := setLayerRun k { layerRun s k with checking := false } s
  match sumTensors false s.led.run.l (lt.tensorsOf e) {} ecc s with
  | (s, none) => engineFails k s
  | (s, some g) => match readRec lt k s with
    | (s, none) => engineFails k s
    | (s, some r) => checkEnds k e r g s

/-- Whether the first update of the step may begin as far as the twin goes (R29, R348, R357). -/
def twinAllows (s : State) : Bool :=
  decide (s.twin.pair ≠ .inStep) || (decide (s.led.committed ≤ s.led.shadowOf) && !s.twin.compare)

/-- The layer whose update stage is next, if any may begin (R281, R282). -/
def nextStage (s : State) : Option Nat :=
  let ks := layerNumbers (ownLt s)
  if ks.any (fun k => (layerRun s k).started && !(layerRun s k).updated) then none
  else if (ownLt s).lossChk && !s.led.lossRead then none
  else if waitsApply s then
    (if s.led.applyCs.isNone || !allChecked s then none else ks.find? fun k => !(layerRun s k).started)
  else s.led.chkOrder.find? fun k => !(layerRun s k).started

/-- The clip factor that a layer's update uses. -/
def stageCs (s : State) (k : Nat) : W32 :=
  match (ownLt s).mode, s.led.applyCs with
  | true, some g => (opMul (layerRun s k).cs g).1
  | _, _ => (layerRun s k).cs

/-- Mark a layer touched (R287). -/
def touch (k : Nat) (s : State) : State :=
  { s with led := { s.led with
    touched := if s.led.touched.contains k then s.led.touched else s.led.touched ++ [k]
    st := if s.led.st = .opened then .updating else s.led.st } }

/-- A layer's update stage begins with record `r`: constants, row and column factors (R274, R277, R280). -/
def stageBegins (k : Nat) (e : LayerEnt) (r : LayerRec) (s : State) : State :=
  let lt := ownLt s
  let cs := stageCs s k
  let c := updConsts e r (stepIn s) cs
  let s := touch k (setLayerRun k { layerRun s k with started := true, csUse := cs, lrec := r.toBytes } s)
  let s := { s with led := { s.led with order := s.led.order ++ [k] } }
  let s := chargeTally (firstTag lt e) c.2 s
  let x := stageFactors c.1 (if hasSm e then lt.tensorsOf e else []) s
  let s := x.2.2.1.foldl (fun s t => chargeTally t.1 t.2 s) x.1
  if !x.2.1 then engineFails k s else if x.2.2.2 then reportAbort 9 k s else s

/-- A layer's update stage begins (R281): the record is read first, and a failed read aborts (R472). -/
def stageStart (k : Nat) (e : LayerEnt) (s : State) : State :=
  match readRec (ownLt s) k s with
  | (s, none) => engineFails k s
  | (s, some r) => stageBegins k e r s

/-- Write a piece's working copy, or list it as stale (R284). -/
def workCopy (k j piece : Nat) (t : TensorEnt) (far : Bool) (work : Bytes) (s : State) : State × Bool :=
  let a := t.work + 2 * (pieceRange t piece).1
  if far && (barge s (a / bargeBytes)).tier && decide (s.led.stale.length < 65536) then
    ({ s with led := { s.led with stale := s.led.stale ++ [(k, j, piece)] } }, true)
  else writeAreas [(a, work)] s

/-- The pieces of a layer: tensor within the layer, piece. -/
def layerPieces (lt : LayerTab) (e : LayerEnt) : List (Nat × Nat) :=
  (lt.tensorsOf e).zipIdx.flatMap fun tj => (List.range (pieces tj.1)).map fun p => (tj.2, p)

/-- The record that the commit will write for a layer of this card. -/
def runRec (e : LayerEnt) (run : LayerRun) : LayerRec :=
  nextRec e run.record run.n run.csUse run.lim run.surged run.clipped run.amax.toNat

/-- Send a layer's gradient and GEND to the twin (R349). -/
def sendGrad (k : Nat) (e : LayerEnt) (s : State) : State :=
  let lt := ownLt s
  let run := layerRun s k
  match readAreas ((lt.tensorsOf e).map fun t => gradArea false t 0 t.size) .clean s with
  | (s, none) => engineFails k s
  | (s, some bss) =>
    let g := bss.flatten
    let s := toTwin (.grad s.led.running k g) s
    toTwin (.gend s.led.running k run.n run.csUse (twinDigest g) run.ds) s

/-- The last piece of a layer is done: its state digest is formed, and its gradient goes to the twin (R349, R355). -/
def layerUpdated (k : Nat) (e : LayerEnt) (s : State) : State :=
  let lt := ownLt s
  let run := layerRun s k
  match layerBytes lt e s with
  | none => engineFails k s
  | some bs =>
    let ds := layerDigest bs (runRec e run)
    let s := setLayerRun k { run with updated := true, ds := ds } s
    if s.twin.pair = .inStep then sendGrad k e s else s

/-- An engine finishes the update of one piece (R283, R284). -/
def pieceDone (k j piece : Nat) (e : LayerEnt) (t : TensorEnt) (ecc : Ecc) (s : State) : State :=
  let lt := ownLt s
  let run := layerRun s k
  let c := (updConsts e run.record (stepIn s) run.csUse).1
  let far := pieceFar s t piece
  match updatePiece false c t piece ecc s with
  | (s, o) =>
    if !o.ok then engineFails k s
    else
      let run := { run with done := run.done ++ [(j, piece)], amax := BitVec.ofNat 32 (max run.amax.toNat o.amax) }
      let s := chargeTally t.tag o.tally (setLayerRun k run s)
      let s := countRun 0x4010 (if far then 2 else 1) (pieceRange t piece).2 s
      match workCopy k j piece t far o.work s with
      | (s, false) => engineFails k s
      | (s, true) =>
        if o.bad then reportAbort 9 k s
        else if ((layerPieces lt e).all fun q => run.done.contains q) && decide (s.led.st = .updating) then layerUpdated k e s
        else s

/-- Write one stale working copy from its masters (R284). -/
def refreshOne (s : State) (x : Nat × Nat × Nat) : State :=
  let lt := ownLt s
  match layerEnt lt x.1 with
  | none => s
  | some e => match (lt.tensorsOf e)[x.2.1]? with
    | none => s
    | some t =>
      let r := pieceRange t x.2.2
      match readDev (t.master + 4 * r.1) (4 * r.2) .clean s with
      | .notBacked s => engineFails x.1 s
      | .failed s => engineFails x.1 s
      | .ok s bs =>
        match writeAreas [(t.work + 2 * r.1, (words bs).flatMap fun p => leBytes 2 (bf16.convert .rne true (f32 p)).1)] s with
        | (s, false) => engineFails x.1 s
        | (s, true) => countRun 0x4010 3 1 s

/-! ### Meanings -/

/-- LAYER_CHECK_DONE (R273). -/
def execLayerCheckDone (layer : Nat) (ecc : Ecc) (s : State) : Res :=
  .next (match layerEnt (ownLt s) layer with
    | none => s
    | some e => if enginesRun s && (layerRun s layer).checking then checkDone layer e ecc s else s)

/-- UPDATE_STAGE_START (R281). Where the stage is not free or R29 does not hold, it waits. -/
def execUpdateStageStart (layer : Nat) (s : State) : Res :=
  .next (match layerEnt (ownLt s) layer with
    | none => s
    | some e => if enginesRun s && twinAllows s && decide (nextStage s = some layer) then stageStart layer e s else s)

/-- The engine that takes a piece (R283): a region update engine, or far engine 8 or 9. -/
def pieceEngine (s : State) (t : TensorEnt) (piece : Nat) : Nat :=
  if pieceFar s t piece then 8 + pieceBarge t piece % 2 else (barge s (pieceBarge t piece)).home

/-- Whether engine `g` has a piece under way: always while the step updates and the card runs; while the card is halted or
ABORTING only the one piece that it had begun (R285, R336). -/
def engineBusy (s : State) (g : Nat) : Bool :=
  match s.led.st with
  | .updating => decide (s.keep.dev = .running) || !s.led.engStop.contains g
  | .aborting => !s.led.engStop.contains g
  | _ => false

/-- An engine that ends a piece while the card is halted or ABORTING begins no other (R285, R336). -/
def stopEngine (g : Nat) (s : State) : State :=
  if s.led.st = .updating ∧ s.keep.dev = .running then s
  else { s with led := { s.led with engStop := s.led.engStop ++ [g] } }

/-- UPDATE_PIECE_DONE (R283): a piece that has started runs to its end, through a halt or an abort (R285). -/
def execUpdatePieceDone (layer tensor piece : Nat) (ecc : Ecc) (s : State) : Res :=
  .next (match layerEnt (ownLt s) layer with
    | none => s
    | some e => match ((ownLt s).tensorsOf e)[tensor]? with
      | none => s
      | some t =>
        let run := layerRun s layer
        let g := pieceEngine s t piece
        if engineBusy s g && run.started && decide (piece < pieces t) && !run.done.contains (tensor, piece) then
          pieceDone layer tensor piece e t ecc (stopEngine g s)
        else s)

/-- REFRESH_PASS (R284). -/
def execRefreshPass (s : State) : Res :=
  .next (if enginesRun s && allUpdated s then
    let list := s.led.stale
    list.foldl refreshOne { s with led := { s.led with stale := [], refreshed := true } }
  else s)

end Sys2Proof.Machine
end

