-- ==== Sys2Proof/Machine/Boundary.lean ====
section
/-! DEFINITION. What a step boundary decides and resets: readings (R415), the adaptive decisions of R289 step 4 (R117,
R242, R252, R265, R295, R328, R329, R416), retirements and swaps of units (R367, R368), snapshots that become open
(R254), and the reset of the units (R149, R188). -/

namespace Sys2Proof.Machine

/-- Set a value that is kept among the counts since boot. -/
def setBoot (idx sub v : Nat) (s : State) : State :=
  { s with stat := { s.stat with boot := Sparse.set 0 s.stat.boot (ekey idx sub) v } }

/-! ### Readings (R415) -/

/-- The reading of one sensor for the step: its highest sample in it, or the latest before its end. -/
def sensorRead (peak : Sparse Nat) (now : List Nat) (n : Nat) : Nat :=
  match Sparse.get 0 peak n with
  | 0 => now.getD n 0
  | v + 1 => v

def maxOf (xs : List Nat) : Nat := xs.foldl max 0

/-- A die's logic reading. -/
def logicReading (s : State) (d : Nat) : Nat :=
  maxOf ((List.range 4).map fun k => sensorRead s.keep.logicMax s.keep.logicNow (4 * d + k))

def stackReading (s : State) (k : Nat) : Nat := sensorRead s.keep.stackMax s.keep.stackNow k

def logicReadings (s : State) : List Nat := (List.range 4).map (logicReading s)
def stackReadings (s : State) : List Nat := (List.range 8).map (stackReading s)

/-- Begin a new span of readings. -/
def clearReadings (s : State) : State := { s with keep := { s.keep with logicMax := [], stackMax := [] } }

/-! ### Decisions -/

/-- Where a decision takes its settings: a card's own values in force, or a mirrored settings block. -/
abbrev Settings := Nat → Nat → Nat

/-- The settings of a settings block; an entry it does not hold reads as 0. -/
def blockSettings (es : List EntryVal) : Settings := fun idx sub =>
  match es.find? fun e => decide (e.idx.toNat = idx) && decide (e.sub.toNat = sub) with
  | some e => leNat e.val
  | none => 0

/-- The clock code of one die for the next step (R416). -/
def nextCode (g : Settings) (c logic dram : Nat) : Nat :=
  let n := if g 0x2108 1 ≤ logic ∨ g 0x2108 3 ≤ dram then c + 1
    else if logic ≤ g 0x2108 2 ∧ dram ≤ g 0x2108 4 then c - 1 else c
  max (g 0x2108 5) (min (g 0x2108 6) n)

/-- The clock codes of the four dies. -/
def nextCodes (g : Settings) (cs logic stackT : List Nat) : List Nat :=
  (List.range 4).map fun d => nextCode g (cs.getD d 0) (logic.getD d 0) (max (stackT.getD (2 * d) 0) (stackT.getD (2 * d + 1) 0))

/-- The refresh rate recorded for a step: a reading above 85 °C doubled it (R252). -/
def forcedRefresh (r : BitVec 8) (stackT : List Nat) : BitVec 8 :=
  (List.range 8).foldl (fun a k => if 85 < stackT.getD k 0 then a ||| BitVec.ofNat 8 (1 <<< k) else a) r

/-- The refresh rates for the next step (R252). -/
def nextRefresh (g : Settings) (r : BitVec 8) (stackT : List Nat) : BitVec 8 :=
  BitVec.ofNat 8 ((List.range 8).foldl (fun a k =>
    let t := stackT.getD k 0
    if g 0x3024 1 ≤ t then setBit a k true else if t ≤ g 0x3024 2 then setBit a k false else a) (forcedRefresh r stackT).toNat)

/-- The lead and the quiet run (R242). -/
def nextLead (g : Settings) (p : PlanSt) (lead quiet : Nat) (late : Bool) : Nat × Nat :=
  let x := if late then (lead + 1, 0) else if 16 ≤ quiet + 1 then (lead - 1, 0) else (lead, quiet + 1)
  let top := if g 0x3011 2 = 0 then p.leadMax else min p.leadMax (g 0x3011 2)
  (max p.leadMin (min x.1 top), x.2)

/-- Clamp a loss exponent (R295). -/
def clampL (g : Settings) (l : Int) : Int := max (signed 8 (g 0x4006 4)) (min (signed 8 (g 0x4006 5)) l)

/-- The loss exponent and its run after a commit (R295). -/
def nextL (g : Settings) (l : Int) (lrun : Nat) : Int × Nat :=
  let run := (lrun + 1) % 2 ^ 32
  if g 0x4006 1 = 0 then (signed 8 (g 0x4006 2), run)
  else
    let up := clampL g (l + 1)
    if g 0x4006 3 ≤ lrun + 1 ∧ l < up then (up, 0) else (clampL g l, run)

/-- The loss exponent after a skip (R294, R295). -/
def skipL (g : Settings) (l : Int) : Int := if g 0x4006 1 = 0 then l else clampL g (l - 1)

/-- The scheduled rate of R265, rounded once. -/
def schedRate (ps : List (Nat × W32)) (n : Nat) : W32 :=
  match ps.head?, ps.getLast? with
  | some a, some z =>
    if n ≤ a.1 then a.2
    else if z.1 ≤ n then z.2
    else match (ps.zip (ps.drop 1)).find? fun p => decide (p.1.1 ≤ n) && decide (n < p.2.1) with
      | none => z.2
      | some (p, q) =>
        let d := q.1 - p.1
        let k (m : Nat) : Num := .fin false m 0
        -- (LR_a × d + (LR_b − LR_a) × (n − STEP_a)) / d, exactly
        let up := ((f32 p.2).mul (k d)).add (((f32 q.2).add (f32 p.2).neg).mul (k (n - p.1)))
        match up with
        | .fin sg m e =>
          if m = 0 then 0
          else
            let x := quotSticky m e d 0
            (rn (.fin sg x.1 x.2, {})).1
        | _ => 0
  | _, _ => 0

/-- The rate of a step (R270): the schedule times the rate scale. -/
def stepRate (g : Settings) (ps : List (Nat × W32)) (n : Nat) : W32 :=
  (opMul (schedRate ps n) (BitVec.ofNat 32 (g 0x4004 1))).1

/-- What a card measured in a step, as the decisions use it (R350). -/
structure Measured where
  late   : Bool
  stackT : List Nat
  logic  : List Nat

/-- The record for step `n` decided at the commit of the step before it (R289 step 4). -/
def decideRec (g : Settings) (p : PlanSt) (ps : List (Nat × W32)) (n : Nat) (gen : BitVec 32) (repair : Nat) (r : StepRec)
    (m : Measured) : StepRec :=
  let lead := nextLead g p r.lead r.quiet m.late
  let l := nextL g r.l r.lrun
  { step := n, gen := gen, lead := lead.1, refresh := nextRefresh g r.refresh m.stackT,
    clocks := packClocks (nextCodes g (clockCodes r.clocks) m.logic m.stackT), l := l.1, ring := 0, repair := repair,
    attempts := 0, lr := stepRate g ps n, quiet := lead.2, lrun := l.2 }

/-- What this card measured in the running step. -/
def measured (s : State) : Measured :=
  { late := !s.mem.lateEnt.isEmpty, stackT := stackReadings s, logic := logicReadings s }

/-! ### Held scales (R116, R117) -/

/-- The entries of a held-scale table in its bytes. -/
def heldOf (bs : Bytes) : List Held := (chunks 4 (bs.length / 4) bs).map Held.ofBytes

/-- Change every entry of a table, and give those that were there; one that cannot be read stays as it is (R246). -/
def mapHeld (f : Held → Held) (addr blocks : Nat) (s : State) : State × List Held :=
  match readDev addr (4 * blocks) .clean s with
  | .ok s bs => (pokeDev addr ((heldOf bs).flatMap fun h => (f h).toBytes) s, heldOf bs)
  | x => (x.state, [])

/-- The held-scale tables of this card's plan: address and blocks. -/
def heldTables (s : State) : List (Nat × Nat) := s.plan.plan.held.map fun d => (d.table, d.blocks)

/-- Change every entry of every table, and give those that were there. -/
def mapHelds (f : Held → Held) (s : State) : State × List Held :=
  (heldTables s).foldl (fun x t =>
    let y := mapHeld f t.1 t.2 x.1
    (y.1, x.2 ++ y.2)) (s, [])

/-- Commit every held scale, and count the blocks that overflowed and those raised (0x3C30). -/
def commitHeld (s : State) : State :=
  let x := mapHelds Held.commit s
  let ovf := (x.2.filter fun h => h.ovf).length
  let up := (x.2.filter fun h => decide (h.scale < h.commit.scale)).length
  setLatch 0x3C30 3 up (setLatch 0x3C30 2 ovf x.1)

/-- At an abort SEEN and OVF are reset. -/
def abortHeld (s : State) : State := (mapHelds Held.abort s).1

/-! ### Standing branches and the slow card (R328, R329) -/

/-- The branch histories after a step in which the listed branches were detached. -/
def nextBranches (g : Settings) (det : List (Nat × Nat)) (bs : List Branch) : List Branch :=
  let fresh := (det.filter fun d => !bs.any fun b => decide (b.tree = d.1) && decide (b.child = d.2)).map fun d =>
    ({ tree := d.1, child := d.2, run := 0, held := 0 } : Branch)
  let step (b : Branch) : Branch :=
    if 0 < b.held then (if g 0x2818 2 ≤ b.held then { b with run := 0, held := 0 } else { b with held := b.held + 1 })
    else if det.contains (b.tree, b.child) then
      (if g 0x2818 1 ≤ b.run + 1 then { b with run := 0, held := 1 } else { b with run := b.run + 1 })
    else { b with run := 0 }
  ((bs ++ fresh).map step).filter fun b => decide (0 < b.run) || decide (0 < b.held)

/-- Slow card (R329): an event for each step while in more than the threshold of the last 64 steps a branch to this card was
detached or stood. The card keeps the histories of the branches to it as their parents do (DEDUCED, log entry 201). -/
def judgeSlow (s : State) : State :=
  let was := !s.fab.detUp.isEmpty || s.fab.ups.any fun b => decide (0 < b.held)
  let hist := (was :: s.fab.slowHist).take 64
  let slow := decide (num s 0x2818 3 < (hist.filter id).length)
  let s : State := { s with fab := { s.fab with
    slowHist := hist, slow := slow, detRun := [], detUp := [],
    ups := nextBranches (num s) (s.fab.detUp.map fun t => (t, (myLogical s).getD 0xFFFF)) s.fab.ups } }
  if slow then raiseOpen 0x0E noSource 1 (countBoot 0x2C28 2 1 s) else s

/-! ### Units: retirement and swap (R13, R14, R367, R368) -/

/-- The standing spare of a region. -/
def spareOf (s : State) (region : Nat) : Option Nat :=
  (regionUnits region).find? fun p => decide (logicalUnit s p = 0xFE)

def mapUnit (p l : Nat) (s : State) : State :=
  { s with units := { s.units with map := Sparse.set 0xFF s.units.map p l } }

def setCond (p c : Nat) (s : State) : State :=
  { s with units := { s.units with cond := Sparse.set 0 s.units.cond p c } }

/-- A unit as loaded from the plan image: its sequencer memories and core images, everything else reset (R185). -/
def loadedUnit (u : UnitSt) : UnitSt :=
  { prog := u.prog, recs := u.recs, gateTab := u.gateTab, descs := u.descs, chMap := u.chMap,
    cores := u.cores.map fun kc => (kc.1, { entry := kc.2.entry, pc := kc.2.entry, imem := kc.2.imem, dinit := kc.2.dinit,
                                            dmem := kc.2.dinit }) }

/-- Retire a unit with a condition; the region's free spare takes over its logical unit, loaded from the active plan. -/
def retireUnit (p cond : Nat) (s : State) : State :=
  let l := logicalUnit s p
  let s := addRepair { typ := 1, cause := cond, pos := p, step := s.led.committed } s
  let s := setCond p cond (mapUnit p 0xFF s)
  match (if l < 64 then spareOf s (regionOf p) else none) with
  | none => setUnit p {} s
  | some q =>
    let s := setUnit p {} (setUnit q (if s.plan.active.isSome then loadedUnit (getUnit s p) else {}) s)
    let s := setCond q 0 (mapUnit q l s)
    let s := setBoot 0x2C01 2 s.led.committed (countBoot 0x2C01 1 1 s)
    raiseOpen 0x0F noSource (pack [(8, p), (8, q), (8, cond)]) s

/-- The retirements that wait for a boundary (R368). -/
def retireOwed (s : State) : State :=
  let owed := s.units.owed
  owed.foldl (fun s x => retireUnit x.1 x.2 s) { s with units := { s.units with owed := [] } }

/-- Whether a region is short. -/
def anyShort (s : State) : Bool := (List.range 8).any (regionShort s)

/-- The median of the slips of the 64 logical units, doubled: the sum of the two middle values (DESIGN CHOICE, log
entry 30). -/
def medianSlip2 (xs : List Nat) : Nat :=
  let ys := xs.mergeSort (· ≤ ·)
  let n := ys.length
  ys.getD ((n - 1) / 2) 0 + ys.getD (n / 2) 0

/-- The units that carry a logical unit. -/
def workUnits (s : State) : List Nat := (List.range 72).filter fun p => decide (logicalUnit s p < 64)

/-- Slip of a unit in the committed step. -/
def slipOf (s : State) (p : Nat) : Nat := Sparse.get 0 s.stat.latch (ekey 0x5040 (p + 1))

/-- Key under which STEPEND leaves the cycles of a unit's step; no entry of the dictionary reports it. -/
def cyclesKey (p : Nat) : Nat := ekey 0x5060 (p + 1)

/-- Whether a unit was above threshold in the committed step (R367). -/
def aboveThreshold (s : State) (med2 p : Nat) : Bool :=
  decide (1000 * med2 + 2 * num s 0x2C00 1 * Sparse.get 0 s.stat.latch (cyclesKey p) < 2000 * slipOf s p)

/-- The slip policy at a commit (R367). -/
def judgeSlip (s : State) : State :=
  let ps := workUnits s
  let med2 := medianSlip2 (ps.map (slipOf s))
  let above := ps.filter (aboveThreshold s med2)
  let run (p : Nat) : Nat := if above.contains p then min 65535 (Sparse.get 0 s.units.slipRun p + 1) else 0
  let s : State := { s with units := { s.units with slipRun := ps.foldl (fun m p => Sparse.set 0 m p (run p)) s.units.slipRun } }
  ps.foldl (fun s p =>
    if num s 0x2C00 2 ≤ run p ∧ num s 0x2C00 3 ≠ 0 then
      match spareOf s (regionOf p) with
      | some _ => retireUnit p 3 { s with units := { s.units with slipRun := Sparse.set 0 s.units.slipRun p 0 } }
      | none => raiseOpen 0x0E p 2 (countBoot 0x2C01 3 1 s)
    else s) s

/-! ### Clock codes -/

/-- Event 0x20 for each die whose code changes (R416). -/
def sayCodes (old new logic stackT : List Nat) (s : State) : State :=
  (List.range 4).foldl (fun s d =>
    if old.getD d 0 = new.getD d 0 then s
    else raiseOpen 0x20 d (pack [(3, old.getD d 0), (3, new.getD d 0), (2, 0), (8, logic.getD d 0),
      (8, max (stackT.getD (2 * d) 0) (stackT.getD (2 * d + 1) 0))]) s) s

/-! ### Snapshots that become open (R254) -/

/-- Opening snapshots become open on the committed step. -/
def openSnaps (s : State) : State :=
  (List.range 4).foldl (fun s k =>
    let x := getSnap s k
    if x.state = 1 then
      let s := setSnap k { x with state := 2, step := s.led.committed, order := s.mem.snapSeq } s
      let s : State := { s with mem := { s.mem with snapSeq := s.mem.snapSeq + 1 } }
      if x.opener = 1 then { s with host := { s.host with winst := 2, winstep := s.led.committed } } else s
    else s) s

/-! ### Free frames of a stack (0x3032) -/

/-- Basin frames of a stack outside the lookahead pool that are free. -/
def freeFrames (s : State) (k : Nat) : Nat :=
  let pool := s.plan.plan.lapool
  let taken := (takenBasin s).filter fun f => decide (k * 65536 + 2 + pool ≤ f) && decide (f < (k + 1) * 65536)
  65536 - 2 - pool - taken.length

/-! ### The reset of the units (R149, R161, R188) -/

/-- One unit at bundle 0, as loaded from the plan image: pans hold −0 (R80), the lock reads as zero (R157), no tile stands
(R87), tags and tally flags are reset (R122, R137, R145). Registers, masks and accumulators are as after a nap of their
domain, since no step carries them (R139, R140; log entry 31), and no domain naps, so that an attempt begins alike whether
another went before it (R1; log entry 198). -/
def resetUnit (u : UnitSt) : UnitSt := loadedUnit u

/-- Every unit and every gate at a boundary that opens a step. A halt keeps both (R207). What an aborted attempt detached
counts for nothing (R328, R329). -/
def resetUnits (s : State) : State :=
  { s with
    units := { s.units with phys := s.units.phys.map fun pu => (pu.1, resetUnit pu.2) }
    gates := []
    fab := { s.fab with trees := [], remotes := [], detRun := [], detUp := [] } }

end Sys2Proof.Machine
end

