-- ==== Sys2Proof/Machine/Harvest.lean ====
section
/-! DEFINITION. Harvest (R370 to R375): its image, its start, its host writes or gateway traffic, its end, and the load
of an image. -/

namespace Sys2Proof.Machine

/-! ### The image (R372) -/

/-- Memory ranges of a layer's section: the areas of R355, then the layer's record. -/
def layerRanges (lt : LayerTab) (k : Nat) : List (Nat × Nat) :=
  match layerEnt lt k with
  | none => []
  | some e => stateAreas lt e ++ [(lt.lstate + 32 * k, 32)]

def rangesLen (rs : List (Nat × Nat)) : Nat := (rs.map (·.2)).sum

/-- A section of the image: kind, index, and its bytes' place; the boundary block has no memory range. -/
structure HarvSec where
  kind   : Nat
  index  : Nat
  ranges : List (Nat × Nat)
  len    : Nat

/-- The sections in directory order. -/
def harvSections (s : State) : List HarvSec :=
  let lt := s.plan.plan.lt
  ((layerNumbers lt).map fun k => ({ kind := 1, index := k, ranges := layerRanges lt k, len := rangesLen (layerRanges lt k) } : HarvSec)) ++
  (s.plan.plan.held.zipIdx.map fun d => ({ kind := 2, index := d.2, ranges := [(d.1.table, 4 * d.1.blocks)], len := 4 * d.1.blocks } : HarvSec)) ++
  [{ kind := 3, index := 0, ranges := [], len := s.harv.block.length }]

/-- Offset of each section: multiples of 64 after the header and the directory. -/
def harvOffsets : Nat → List HarvSec → List Nat
  | _, [] => []
  | o, x :: xs => o :: harvOffsets (roundUp (o + x.len) 64) xs

def dirEnd (n : Nat) : Nat := 256 + 64 * n

def offsetsOf (s : State) : List Nat := harvOffsets (dirEnd (harvSections s).length) (harvSections s)

/-- Length of the image. -/
def harvBytes (s : State) : Nat :=
  ((harvSections s).zip (offsetsOf s)).foldl (fun a x => max a (x.2 + x.1.len)) 0

/-- Bytes of ranges as they stand. -/
def rangeBytes (s : State) (rs : List (Nat × Nat)) : Bytes := rs.flatMap fun r => devBytes s r.1 r.2

/-- The digest of a section (R354, R355). -/
def secDigest (s : State) (x : HarvSec) : BitVec 128 :=
  twinDigest (if x.kind = 3 then s.harv.block else rangeBytes s x.ranges)

/-- The directory. -/
def directory (s : State) : Bytes :=
  ((harvSections s).zip (offsetsOf s)).flatMap fun x =>
    leBytes 64 (pack [(16, x.1.kind), (16, x.1.index), (32, 0), (64, x.2), (64, x.1.len), (128, (secDigest s x.1).toNat)])

/-- The header. -/
def harvHeader (s : State) (t : Nat) (dir : Bytes) : Bytes :=
  leBytes 36 (pack [(32, 0x56524148), (16, 1), (16, 0), (64, t), (14, s.plan.plan.card), (2, 0), (16, s.plan.plan.cards),
    (128, s.plan.plan.sysid)]) ++ takePad 64 s.plan.plan.meas ++
  leBytes 156 (pack [(32, (harvSections s).length), (64, harvBytes s), (128, (twinDigest dir).toNat)])

/-! ### Gateway and host buffer (R373) -/

/-- Marks the remote requests of a harvest among those of units. -/
def harvUnit : Nat := 253

/-- Whether the destination entries pass the cross-check of R373 under the active plan. -/
def gatewayOk (s : State) : Bool :=
  decide (num s 0x2A10 3 = 0) ||
    (decide (num s 0x2A10 4 < s.plan.plan.cards) && decide (some (num s 0x2A10 4) ≠ myLogical s))

/-- Whether a host write is a part of this card's own harvest. -/
def isHarvWr (w : HostWr) : Bool := w.mine

/-- A host write of this card's own harvest; a section's bytes are taken when it goes out. -/
def harvWrite (kind addr ref : Nat) (data : Bytes) (s : State) : State :=
  { s with host := { s.host with
    waitWr := s.host.waitWr ++ [{ kind := kind, addr := addr, data := data, ref := ref, mine := true }] } }

/-! ### End of a harvest -/

/-- Change the harvest state; a change raises vector 5 (R403). -/
def setHarv (st : Nat) (s : State) : State :=
  let s' : State := { s with harv := { s.harv with state := st } }
  if st = s.harv.state then s' else raiseVec 5 s'

def sayHarvest (s : State) : State :=
  raiseOpen 0x12 noSource (pack [(8, s.harv.state), (8, s.harv.cause), (48, 0), (64, s.harv.step)]) s

/-- Close a snapshot (R256). -/
def closeSnap (k : Nat) (s : State) : State := dropSnapCopies k (setSnap k {} s)

/-- Close a harvest's snapshot and forget its traffic. -/
def harvEnd (s : State) : State :=
  let s := match s.harv.snap with
    | none => s
    | some k => closeSnap k s
  { s with
    harv := { s.harv with snap := none, left := [], head := [], block := [] }
    host := { s.host with waitWr := s.host.waitWr.filter fun w => !isHarvWr w }
    fab := { s.fab with remotes := s.fab.remotes.filter fun r => decide (r.unit ≠ harvUnit) } }

/-- A harvest in progress: it awaits its step or runs. -/
def harvBusy (s : State) : Bool := decide (s.harv.state = 1) || decide (s.harv.state = 2)

/-- Fail a harvest (R374). -/
def harvFail (cause : Nat) (s : State) : State :=
  if harvBusy s then sayHarvest (setHarv 4 (harvEnd { s with harv := { s.harv with cause := cause } })) else s

/-- Send bytes of the image to the gateway on lane 5; ADDR is the offset in the image (DESIGN CHOICE, log entry 32). Where no port
in service leads there the harvest fails, as its request would (R302, R307, R374). -/
def toGateway (off : Nat) (bs : Bytes) (s : State) : State :=
  match cardOf s (num s 0x2A10 4) with
  | none => s
  | some c => match (nextPort s c 0 none).filter (portUp s) with
    | none => harvFail 3 (countBoot 0x2820 0xC 1 s)
    | some p =>
      let x := freshTxn s
      let r : Remote := { txn := x.1, unit := harvUnit, ctx := 0, port := p, dst := c, write := true, addr := off, len := bs.length }
      let s : State := { x.2 with fab := { x.2.fab with remotes := x.2.fab.remotes ++ [r] } }
      sendRun p { typ := 1, vl := 5, dst := c, src := cardId s, txn := x.1 } off bs true s

/-- A harvest is complete (R373). -/
def harvDone (s : State) : State :=
  sayHarvest (setHarv 3 (harvEnd { s with harv := { s.harv with lastOk := s.harv.step } }))

/-- A harvest that awaits its step fails when the job stops or the plan is released (R374). -/
def harvStop (s : State) : State := if s.harv.state = 1 then harvFail 5 s else s

/-! ### Start (R371, R373) -/

/-- The order in which sections are read: the layers as their update stages began, then the rest. -/
def readOrder (s : State) : List Nat :=
  let ks := (layerNumbers s.plan.plan.lt)
  let first := s.harv.order.filter fun k => ks.contains k
  first ++ (ks.filter fun k => !first.contains k) ++
    ((List.range (harvSections s).length).filter fun i => decide (ks.length ≤ i))

def freeSnap (s : State) : Option Nat := (List.range 4).find? fun k => decide ((getSnap s k).state = 0)

/-- Start a harvest of the committed step; `block` is the boundary block. -/
def harvStart (block : Bytes) (s : State) : State :=
  let s := setHarv 2 { s with harv := { s.harv with block := block, written := 0, cause := 0 } }
  let n := harvBytes s
  let s : State := { s with harv := { s.harv with bytes := n } }
  if num s 0x2A10 3 = 0 ∧ num s 0x2A11 2 < n then harvFail 1 s
  else if gatewayOk s = false then harvFail 1 s
  else if num s 0x2A10 3 = 0 ∧ s.host.down = true then harvFail 3 s
  else match freeSnap s with
    | none => harvFail 2 s
    | some k =>
      let dir := directory s
      let s := setSnap k { state := 2, single := true, opener := 2, step := s.led.committed, order := s.mem.snapSeq } s
      let s : State := { s with
        mem := { s.mem with snapSeq := s.mem.snapSeq + 1 }
        harv := { s.harv with snap := some k, left := readOrder s, head := harvHeader s s.led.committed dir ++ dir } }
      if num s 0x2A10 3 = 0 then
        let base := num s 0x2A11 1
        let s := harvWrite 6 base 0 (zeros 256 ++ dir) s
        (readOrder s).foldl (fun s i => harvWrite 5 (base + (offsetsOf s).getD i 0) i [] s) s
      else match cardOf s (num s 0x2A10 4) with
        | none => harvFail 1 s
        | some c => askCard c 5 (.read 0x2A18#16 0) s

/-- The buffer that a gateway table names for a logical card (0x2A18): base and length. -/
def tableEntry (tab : Bytes) (l : Option Nat) : Option (Nat × Nat) :=
  match (chunks 24 (tab.length / 24) tab).find? fun e => decide (some (leAt e 0 2) = l) with
  | some e => some (leAt e 8 8, leAt e 16 8)
  | none => none

/-- The gateway's table has arrived, or an abort code in its place: the first bytes go out where its buffer is large enough. -/
def gatewayTable (ans : Option Bytes) (s : State) : State :=
  if s.harv.state ≠ 2 then s
  else match ans with
    | none => harvFail 3 s
    | some tab => match tableEntry tab (myLogical s) with
      | none => harvFail 1 s
      | some e =>
        if e.2 < s.harv.bytes then harvFail 1 s else toGateway 0 (zeros 256 ++ s.harv.head.drop 256) s

/-- Read ranges through a snapshot, one after another. -/
def snapRanges (k : Nat) : List (Nat × Nat) → State → MemOut
  | [], s => .ok s []
  | x :: xs, s =>
    match snapRead k x.1 x.2 .clean s with
    | .ok s bs => match snapRanges k xs s with
      | .ok s more => .ok s (bs ++ more)
      | r => r
    | r => r

/-- Read one section through the snapshot. -/
def readSection (i : Nat) (s : State) : MemOut :=
  match (harvSections s)[i]?, s.harv.snap with
  | some x, some k => if x.kind = 3 then .ok s s.harv.block else snapRanges k x.ranges s
  | _, _ => .failed s

/-- Take the bytes of a section that is written now; a broken snapshot fails the harvest. -/
def takeSection (i : Nat) (s : State) : State × Option Bytes :=
  match readSection i s with
  | .notBacked s => (harvFail 2 s, none)
  | .failed s => (harvFail 2 s, none)
  | .ok s bs =>
    ({ s with harv := { s.harv with left := s.harv.left.erase i, written := s.harv.written + bs.length } }, some bs)

/-- The unread bytes of a running harvest (R371). -/
def unreadBytes (s : State) : Nat :=
  (s.harv.left.map fun i => ((harvSections s)[i]?.map (·.len)).getD 0).sum

/-- Whether a holding harvest keeps the next step from opening (R371). -/
def harvHolds (s : State) : Bool :=
  decide (s.harv.state = 2) && decide (num s 0x2A10 5 = 1) && decide (s.mem.cowCap - cowUsed s < unreadBytes s)

/-- At the boundary that commits step `t`: a requested harvest of it, or one due by the period, starts. -/
def harvAtCommit (t : Nat) (block : Bytes) (s : State) : State :=
  if s.harv.state = 1 then (if s.harv.step = t then harvStart block s else s)
  else if harvBusy s then s
  else if num s 0x2A10 2 ≠ 0 ∧ t % num s 0x2A10 2 = 0 then
    harvStart block { s with harv := { s.harv with step := t } }
  else s

/-! ### Load (R375) -/

/-- What a buffer's sections say: kind, index and bytes. -/
def imageSections (buf : Bytes) : List (Nat × Nat × Bytes × Nat) :=
  (List.range (leAt buf 100 4)).map fun i =>
    let d := 256 + 64 * i
    (leAt buf d 2, leAt buf (d + 2) 2, slice buf (leAt buf (d + 8) 8) (leAt buf (d + 16) 8), leAt buf (d + 24) 16)

/-- The result code of a load (0 to 4). -/
def loadCode (s : State) (buf : Bytes) : Nat :=
  let dir := slice buf 256 (64 * leAt buf 100 4)
  if leAt buf 0 4 ≠ 0x56524148 ∨ leAt buf 4 2 ≠ 1 then 1
  else if leAt buf 20 16 ≠ s.plan.plan.sysid ∨ slice buf 36 64 ≠ takePad 64 s.plan.plan.meas then 2
  else if some (leAt buf 16 2 % 16384) ≠ myLogical s then 3
  else if leAt buf 112 16 ≠ (twinDigest dir).toNat then 4
  else if (imageSections buf).any fun x => decide ((twinDigest x.2.2.1).toNat ≠ x.2.2.2) then 4
  else 0

/-- Write consecutive ranges from a byte string. -/
def pokeRanges : List (Nat × Nat) → Bytes → State → State
  | [], _, s => s
  | r :: rs, bs, s => pokeRanges rs (bs.drop r.2) (pokeDev r.1 (slice bs 0 r.2) s)

/-- Put a boundary block in force on this card: records, standing set and settings (R341, R375). -/
def applyBoundary (bs : Bytes) (s : State) : State :=
  let b := parseBoundary bs
  let s := applyEntries b.settings s
  let st := (chunks 4 (b.standing.length / 4) b.standing).map fun w =>
    ({ tree := leAt w 0 2 % 4096, child := leAt w 2 2 % 16384, run := 0, held := 1 } : Branch)
  { s with
    fab := { s.fab with branches := st }
    led := { s.led with last := b.last, run := b.dec, committed := b.last.step } }

/-- Load one section. -/
def loadSection (x : Nat × Nat × Bytes × Nat) (s : State) : State :=
  match x.1 with
  | 1 => pokeRanges (layerRanges s.plan.plan.lt x.2.1) x.2.2.1 s
  | 2 => match s.plan.plan.held[x.2.1]? with
    | none => s
    | some d => pokeDev d.table (slice x.2.2.1 0 (4 * d.blocks)) s
  | 3 => applyBoundary x.2.2.1 s
  | _ => s

/-- The digest of a layer and its record as they are stored, read anew (R355). -/
def storedDigest (lt : LayerTab) (k : Nat) (s : State) : State × BitVec 128 :=
  let x := fetchRanges (layerRanges lt k) s
  (x.1, twinDigest x.2)

/-- The reference digests of this card's layers as they stand. -/
def digestOwn (s : State) : State :=
  let lt := s.plan.plan.lt
  (layerNumbers lt).foldl (fun s k =>
    let x := storedDigest lt k s
    { x.1 with twin := { x.1.twin with refs := Sparse.set 0 x.1.twin.refs k x.2 } }) { s with twin := { s.twin with refs := [] } }

/-- Rebuild every working copy (R263). -/
def rebuildAll (s : State) : State := s.plan.plan.lt.layers.foldl (fun s e => rebuildWork s.plan.plan.lt e s) s

end Sys2Proof.Machine
end

