-- ==== Sys2Proof/Machine/Reply.lean ====
section
/-! DEFINITION. How a dictionary route serves a request: which requests a route answers in which device state (R53, R54,
R57, R58, R421, R429), responses and abort codes (R51), and the wake of a sleeping card (R423). -/

namespace Sys2Proof.Machine

/-! ### Abort codes (R51) -/

def abTimeout : Nat := 0x05040000
def abInvalid : Nat := 0x05040001
def abFull : Nat := 0x05040005
def abReadOnly : Nat := 0x06010002
def abNoObject : Nat := 0x06020000
def abLength : Nat := 0x06070010
def abNoSub : Nat := 0x06090011
def abRange : Nat := 0x06090030
def abCross : Nat := 0x06040043
def abGen : Nat := 0x08000020
def abState : Nat := 0x08000022

def pathNum : Route → Nat
  | .can => 0 | .mailbox => 1 | .towpath => 2

/-- Whether a route carries responses: a disabled route answers nothing (R57), nor does CAN in Stopped (R58). A commit that
disables its own route has disabled it before its response would be sent, and so has none (DEDUCED from R37 and R57, log
entry 188). -/
def answers (s : State) (r : Route) : Bool :=
  decide (num s 0x2022 (1 + pathNum r) ≠ 0) && (decide (r ≠ .can) || decide (s.keep.dev ≠ .halted))

/-- Send what answers an access, where its route answers; `sub`: the count of 0x2028 that the response enters. -/
def respond (a : Access) (sub : Nat) (o : Out) (s : State) : State :=
  if answers s a.path then countBoot 0x2028 (sub + pathNum a.path) 1 (send o s) else s

/-- A response that is not an abort. -/
def reply (a : Access) (body : Bytes) (s : State) : State := respond a 1 (.usdo a body) s

/-- An abort code as the response. -/
def refuse (a : Access) (idx sub code : Nat) (s : State) : State := respond a 4 (.usdoAbort a idx sub code) s

/-- Whether the keeper runs: on 48 V, or on 3.3 Vaux. -/
def keeperOn (s : State) : Bool := s.keep.v48 || s.keep.vaux

/-- Whether the keeper stands on 3.3 Vaux alone (R421). -/
def vauxOnly (s : State) : Bool := !s.keep.v48 && s.keep.vaux

/-- Indices served in device state 0 by CAN and by the mailbox (R58). -/
def canBootIdx (idx : Nat) : Bool := (decide (0x1000 ≤ idx) && decide (idx ≤ 0x203F)) || (decide (0x2100 ≤ idx) && decide (idx ≤ 0x22FF))
def mbxBootIdx (idx : Nat) : Bool := (decide (0x1000 ≤ idx) && decide (idx ≤ 0x1018)) || (decide (0x2200 ≤ idx) && decide (idx ≤ 0x22FF))

/-- Whether a path answers requests at all (R54, R57, R58). -/
def pathServes (s : State) (r : Route) : Bool :=
  let boot := decide (s.keep.dev = .boot)
  match r with
  | .can => decide (num s 0x2022 1 ≠ 0) && decide (s.keep.dev ≠ .halted) && keeperOn s &&
      (!boot || s.boot.fw)
  | .mailbox => decide (num s 0x2022 2 ≠ 0) && s.keep.v48 && (!boot || s.boot.phases.contains 2 || s.boot.recovery)
  | .towpath => decide (num s 0x2022 3 ≠ 0) && !boot && fabricTrained s

/-- Whether a path serves an index in the present device state. -/
def idxServed (s : State) (r : Route) (idx : Nat) : Bool :=
  decide (s.keep.dev ≠ .boot) || (match r with
    | .can => canBootIdx idx
    | .mailbox => mbxBootIdx idx
    | .towpath => false)

/-- Serve one request: no answer on a path that does not serve, 0x0800_0022 for an index outside the served ones. -/
def serve (a : Access) (idx sub : Nat) (f : State → State) (s : State) : State :=
  if pathServes s a.path then (if idxServed s a.path idx then f s else refuse a idx sub abState s) else s

/-- Wake a sleeping card (R423): it returns to the state it slept from; in plan-loaded its units are loaded again, and in idle the
awaiting idle parts apply (R37). Cause: 1 request, 2 WAKE_IN, 3 NMT, 4 refused command. -/
def wake (cause : Nat) (s : State) : State :=
  if s.keep.dev = .asleep then
    applyIdleParts (reloadUnits (raiseOpen 0x26 noSource cause { s with
      keep := { s.keep with dev := s.keep.sleptFrom }
      mem := { s.mem with memAwake := false } }))
  else s

/-- Writes that a card in MIRROR SERVICE refuses (R360), and those that a sleeping card refuses, starting the wake (R423). -/
def mirrorRefuses (idx : Nat) : Bool := decide (idx = 0x2001) || decide (idx = 0x2804) || decide (idx = 0x3880)
def wakeRefuses (idx sub : Nat) : Bool := decide (sub = 1) && (decide (idx = 0x2001) || decide (idx = 0x3880))

/-- A write that acts as a command at the instant of writing (R35). -/
def actWrite (a : Access) (idx sub : Nat) (f : State → State) (s : State) : State :=
  serve a idx sub (fun s =>
    if s.keep.mirror && mirrorRefuses idx then refuse a idx sub abState s
    else if decide (s.keep.dev = .asleep) && wakeRefuses idx sub then wake 4 (refuse a idx sub abState s)
    else f s) s

/-- What a read leaves: bit 8 of 0x2011:05 clears (R64). -/
def noteRead (idx : Nat) (sub : Option Nat) (s : State) : State :=
  if idx = 0x2011 ∧ (sub = some 5 ∨ sub = none) then { s with dict := { s.dict with discarded := false } } else s

/-- Serve a read of an entry, or without a sub-index of a whole object (R33, R35, R40, R41): what is done with the value. -/
def serveRead (a : Access) (idx : Nat) (sub : Option Nat) (f : Bytes → State → State) (s : State) : State :=
  serve a idx (sub.getD 0) (fun s =>
    match readValue s idx sub with
    | .error c => refuse a idx (sub.getD 0) c s
    | .ok bs => noteRead idx sub (f bs s)) s

/-- Answer a read of an entry. -/
def answerRead (a : Access) (idx sub : Nat) (s : State) : State := serveRead a idx (some sub) (reply a) s

/-- Answer a read of a whole object. -/
def answerAll (a : Access) (idx : Nat) (s : State) : State := serveRead a idx none (reply a) s

end Sys2Proof.Machine
end

