-- ==== Sys2Proof/Machine/Pair.lean ====
section
/-! DEFINITION. The pair (R343 to R348), the measurement block (R350), MIRROR SERVICE (R360), and what damaged memory
held (R359), as far as the ledger and the fabric share them. -/

namespace Sys2Proof.Machine

/-! ### Pair state -/

/-- Commits that waited for PACK are answered: no twin is in step any more (R350). -/
def answerWaits (s : State) : State :=
  applyCan (s.dict.packWait.foldl (fun s x => reply x.2 [] s) { s with dict := { s.dict with packWait := [] } })

/-- Change the pair state; a change is event 0x10. -/
def setPair (p : PairState) (cause : Nat) (s : State) : State :=
  let s := if p = .inStep then s else answerWaits s
  let s' : State := { s with twin := { s.twin with pair := p, cause := cause } }
  if p = s.twin.pair then s' else raiseOpen 0x10 noSource (pack [(8, p.code), (8, cause)]) s'

/-- A card enters SOLO (R347, R348): what waits for the twin is let go. A failed partner's shadow
update still runs to its end (R353); otherwise the mirror is of no more use. -/
def enterSolo (cause : Nat) (s : State) : State :=
  let s := setPair .solo cause s
  let t : TwinSt := { s.twin with
    pcard := 0xFFFF, link := 0, sawPair := false, pAccepts := false, sentOk := false, gotOk := false, compare := false, cmpLeft := [], stepmSent := false }
  { s with twin := if cause = 2 then t else { t with shadowN := 0, mruns := [], meas := none } }

/-- The logical card that the plan names as twin. -/
def partner (s : State) : Option Nat :=
  if s.plan.active.isSome ∧ s.plan.plan.tw.partner ≠ 0x7FFF then some s.plan.plan.tw.partner else none

/-- The partner's layer table (R340). -/
def partnerLt (s : State) : LayerTab := s.plan.plan.tw.ptab

/-! ### Measurements (R350) -/

/-- Held-scale tables, in declaration order. -/
def heldRanges (s : State) : List (Nat × Nat) := (heldTables s).map fun t => (t.1, 4 * t.2)

/-- The measurement block of the running step, with the held-scale entries as they were read. -/
def measBlock (hs : List Held) (s : State) : MeasBlock :=
  let m := measured s
  { held := hs.map fun h => (BitVec.ofNat 8 h.seen, h.ovf),
    late := m.late,
    detached := s.fab.detRun.map fun d => (BitVec.ofNat 12 d.1, BitVec.ofNat 14 d.2),
    stackT := m.stackT.map (BitVec.ofNat 8), logic := m.logic.map (BitVec.ofNat 8),
    record := BitVec.ofNat 512 (leNat s.led.openRec.toBytes) }

/-- The boundary block of this card (R341). -/
def boundaryBlock (s : State) : Bytes := 
  boundaryBytes s.led.last (decisionRec (s.led.committed + 1) s.led.run) (standingSet s) (settingsBlock s)

/-! ### MIRROR SERVICE (R360) -/

/-- The ranges that hold the partner's mirrored state on this card. -/
def mirrorRanges (s : State) : List (Nat × Nat) :=
  let tw := s.plan.plan.tw
  (tw.ptab.layers.flatMap fun e => stateAreas tw.ptab e) ++
    [(tw.ptab.lstate, 32 * tw.ptab.layers.length), (tw.mscales, tw.msBytes), (tw.mblock, 65536)]

/-- Whether every frame under a range lies in memory that works. -/
def rangeWorks (s : State) (r : Nat × Nat) : Bool :=
  (bargesOf r.1 r.2).all fun b =>
    let p := place s (b * bargeBytes)
    if p.resv then decide (Sparse.get 0 s.mem.group (groupOf p.frame) = 0) else !s.mem.stackBad.contains (p.frame / 65536)

/-- Whether a port of the pair works: a twin port, or any fabric port of a remote pair. -/
def pairPortUp (s : State) : Bool :=
  if s.twin.link = 2 then !(fabricPorts s).isEmpty else (List.range 4).any fun k => portUp s (16 + k)

def canServeMirror (s : State) : Bool :=
  decide (s.twin.pair = .inStep) && pairPortUp s && (mirrorRanges s).all (rangeWorks s)

/-- A context at a stop of its unit (R189): it ends, with a burst in flight only when that has landed. -/
def stopCtx (c : Ctx) : Ctx :=
  if c.flight.isSome then { c with stop := true }
  else match c.st with
    | .fault => c
    | .idle => c
    | _ => { c with st := if bit c.desc.toNat 14 then .parked else .idle, stop := false }

/-- Stop every unit at its bundle boundary: its holds end, nothing more issues, its contexts end (R189). -/
def stopUnit (u : UnitSt) : UnitSt :=
  { u with stopped := true, hold := none, slots := [], ctxs := u.ctxs.map fun kc => (kc.1, stopCtx kc.2) }

def stopUnits (s : State) : State :=
  { s with units := { s.units with phys := s.units.phys.map fun pu => (pu.1, stopUnit pu.2) } }

/-- A card declared failed: every unit and engine stops, and only the mirror is served, where it can be (R360). The ledger
runs no job on it any more (DESIGN CHOICE, log entry 35). -/
def mirrorService (s : State) : State :=
  let ok := canServeMirror s
  let s := stopUnits s
  let s := if ok then setPair .mirrorService s.twin.cause s else s
  { s with
    keep := { s.keep with mirror := true, dev := .halted }
    led := { s.led with st := .nojob, waiting := false, startGate := false } }

/-- A card finds a card-level fault in itself: suspect naming itself goes to the coordinator (R360), and from the coordinator to
the card that would follow it (R331). -/
def cardFails (s : State) : State :=
  if s.keep.mirror then s else mirrorService (toCard (judgeOf s (cardId s)) (.suspect (cardId s)) s)

/-! ### Damaged barges (R359) -/

def overlaps (r : Nat × Nat) (b : Nat) : Bool := decide (0 < r.2) && decide (r.1 < (b + 1) * bargeBytes) && decide (b * bargeBytes < r.1 + r.2)

/-- The layers of a table with an area, or their record, in a barge. -/
def layersIn (lt : LayerTab) (b : Nat) : List Nat := (layerNumbers lt).filter fun k => (layerRanges lt k).any fun r => overlaps r b

/-- The layers whose working copies lie in a barge. -/
def workIn (lt : LayerTab) (b : Nat) : List Nat :=
  (layerNumbers lt).filter fun k => match layerEnt lt k with
    | none => false
    | some e => (lt.tensorsOf e).any fun t => overlaps (t.work, 2 * t.size) b

/-- Offsets and lengths, in the tables concatenated in declaration order, of the held-scale tables in a barge. -/
def heldIn (s : State) (b : Nat) : List (Nat × Nat) :=
  ((heldTables s).foldl (fun (acc : Nat × List (Nat × Nat)) t =>
    let n := 4 * t.2
    (acc.1 + n, if overlaps (t.1, n) b then acc.2 ++ [(acc.1, n)] else acc.2)) (0, [])).2

/-- Bases that tell what a pulled byte range names on the card that answers (DESIGN CHOICE, log entry 34): from 0 its
mirrored held scales, then its own boundary data, its mirrored layer state records, its mirrored boundary block, its
retained input of the running step, the partner's inputs that it holds, and last its plan image, which it answers with IMAGE. -/
def pullBoundary : Nat := 2 ^ 40
def pullRecs : Nat := 2 ^ 40 + 2 ^ 38
def pullMirror : Nat := 2 ^ 40 + 2 ^ 39
def pullInput : Nat := 2 ^ 41
def pullHeld : Nat := 2 ^ 41 + 2 ^ 40
def pullImage : Nat := 2 ^ 41 + 2 ^ 40 + 2 ^ 39

/-- Send PULL for a layer of this card to the twin. -/
def pullLayer (k : Nat) (withRec : Bool) (s : State) : State := toTwin (.pull (.layer k withRec)) s

/-- Whether a barge holds training state of this card's own or a held-scale table (R355, R359). -/
def ownsTraining (s : State) (b : Nat) : Bool := !(layersIn s.plan.plan.lt b).isEmpty || !(heldIn s b).isEmpty

/-- A damaged barge of the mirror or of the custody area is marked (R359): its layers are copied from the primary after the next
SDONE, and a PULL asks the partner for IMAGE again, with which custody is complete (DESIGN CHOICE, log entry 187). -/
def markMirror (s : State) (b : Nat) : State :=
  let tw := s.plan.plan.tw
  let mir := layersIn tw.ptab b
  let s : State := { s with twin := { s.twin with
    dmgLayers := s.twin.dmgLayers ++ mir.filter fun k => !s.twin.dmgLayers.contains k } }
  if tw.custody && overlaps (tw.custAddr, 4294967296) b then
    toTwin (.pull (.range (BitVec.ofNat 42 pullImage) 0)) { s with twin := { s.twin with custody := setBit s.twin.custody 1 false } }
  else s

/-- Damage of the side pond: held gradients and the partner's inputs of the running step are fetched from the primary again
(R359). -/
def pondDamaged (off : Nat) (s : State) : State :=
  let o := off - pondPend s 0
  let lt := partnerLt s
  let hit (a n : Nat) : Bool := decide (a < o + 64) && decide (o < a + n)
  if s.twin.pair ≠ .inStep ∨ off < pondPend s 0 ∨ s.plan.plan.tw.pgBytes ≤ o then s
  else if hit 0 s.plan.plan.tw.ringBytes then
    toTwin (.pull (.range (BitVec.ofNat 42 pullInput) s.plan.plan.tw.ringBytes)) s
  else match (layerNumbers lt).find? fun k => match layerEnt lt k with
      | none => false
      | some e => (lt.tensorsOf e).any fun t => hit t.grad (4 * t.size) with
    | none => s
    | some k => toTwin (.pull (.grad k)) s

/-- What was found damaged since `s0`: mirror layers are marked, and own training state makes the running step abort with
cause 7 (R359). -/
def damageFound (s0 s : State) : State :=
  let new := s.mem.dmgRun.filter fun b => !s0.mem.dmgRun.contains b
  let s := new.foldl markMirror s
  if new.any (ownsTraining s) then reportAbort 7 0xFFFF s else s

/-- What the barges found damaged held, handled before the step runs again: layers to restore are added to the touched
ones, held scales are pulled, working copies rebuilt, mirror layers marked. -/
def handleDamage (s : State) : State :=
  let lt := s.plan.plan.lt
  let bs := s.mem.dmgRun
  let s : State := { s with mem := { s.mem with dmgRun := [] } }
  bs.foldl (fun s b =>
    let own := layersIn lt b
    let s : State := { s with led := { s.led with touched := s.led.touched ++ own.filter fun k => !s.led.touched.contains k } }
    let s := if s.twin.pair = .inStep then
        (heldIn s b).foldl (fun s r => toTwin (.pull (.range (BitVec.ofNat 42 r.1) r.2)) s) s else s
    let s := (workIn lt b).foldl (fun s k => match layerEnt lt k with
      | none => s
      | some e => rebuildWork lt e s) s
    markMirror s b) s

end Sys2Proof.Machine
end

