-- ==== Sys2Proof/Machine/Remotes.lean ====
section
/-! DEFINITION. Remote requests that fail (R302, R307, R327), and the landings and replays of a tree that fail with them. -/

namespace Sys2Proof.Machine

/-- Marks the replay reads of the router among the requests of units. -/
def routerUnit : Nat := 254

/-- Marks the writes that load a spare (R362). -/
def loadUnit' : Nat := 252

/-- Mark the landing chamber of a tree (R325, R327). -/
def markLanding (t : TreeRec) (fault : Bool) (s : State) : State :=
  match physUnit s t.lunit with
  | none => s
  | some p => modUnit p (fun u => setCh u t.lch { getCh u t.lch with full := true, isEnd := true, fault := fault, len := 0 }) s

/-- A landing or a replay fails: the landing chamber tells, and a stream fault with unit 0xFE is reported (R327). -/
def treeFault (tree cause addr : Nat) (s : State) : State :=
  let s := match treeRec s tree with
    | none => s
    | some t => markLanding t true s
  recordStreamFault 0xFE 0xFFFF 0xFFFF 0xFFFF cause addr s

/-- A remote request ends as failed. -/
def failRemote (r : Remote) (s : State) : State :=
  let s := countRemoteFail (dropRemotes [r.txn] s)
  let g := (logicalOf s r.dst).getD 0 * 2 ^ 42 + r.addr
  if r.unit = harvUnit then harvFail 3 s
  else if r.unit = routerUnit then treeFault (r.tree.getD 0) 2 g s
  else if r.unit = loadUnit' then s
  else if (getCtx (getUnit s r.unit) r.ctx).flight.isSome then
    streamFault r.unit r.ctx (if r.write then 3 else 2) (if r.tree.isSome then r.addr else g) s
  else s

/-- Whether a request goes through a port: its own, or a branch's of the multicast that it stands for. -/
def usesPort (s : State) (p : Nat) (r : Remote) : Bool :=
  decide (r.port = p) || (r.write && (r.tree.bind (treeRec s)).any fun t => (branchPorts s t (getTree s t.tree).unit).contains p)

/-- Requests that a test picks end as failed. -/
def failWhere (f : Remote → Bool) (s : State) : State :=
  (s.fab.remotes.filter fun r => f r && !r.done).foldl (fun s r => failRemote r s) s

/-- Every request that waits on a port ends as failed. -/
def failPort (p : Nat) (s : State) : State := failWhere (usesPort s p) s

/-- Whether a request goes to a card: to it alone, or to it among the attached branches of a multicast. -/
def goesTo (s : State) (card : Nat) (r : Remote) : Bool :=
  decide (r.dst = card) || (r.write && (r.tree.bind (treeRec s)).any fun t => (attached s t).any fun c => decide (cardOf s c = some card))

/-- Every request to a card that has been declared failed ends as failed (R307). -/
def failCard (card : Nat) (s : State) : State := failWhere (goesTo s card) s

/-- A port goes out of service (R302): what it held for other ports frees their buffers, its link state is the one given, and
every request routed through it ends as failed. -/
def portDown (p : Nat) (x : PortSt) (s : State) : State := failPort p (setPort p x (freeQueue p s))

end Sys2Proof.Machine
end

