-- ==== Sys2Proof/Machine/Recovery.lean ====
section
/-! DEFINITION. The abort message and its action (R291, R294), the declaration of a failed card (R331), the coordinator's
recovery (R362, R365, R366) and its takeover by the next card (R28). -/

namespace Sys2Proof.Machine

/-! ### Abort messages -/

/-- Whether a cause is numerical, and the action of R294. -/
def abortAction (s : State) (cause attempt : Nat) : Nat :=
  if !s.led.losts.isEmpty ∨ cause = 8 ∨ cause = 10 ∨ num s 0x2008 3 ≤ attempt then 3
  else if cause = 1 ∨ cause = 2 ∨ cause = 3 ∨ cause = 9 then (if num s 0x2008 1 = 0 then 2 else 3)
  else if num s 0x2008 2 = 0 then 1 else 3

/-- The coordinator aborts a step on every card. -/
def sendAbort (step attempt cause card layer action : Nat) (s : State) : State :=
  toCards (liveCards s) (.abort step attempt cause card layer action) { s with led := { s.led with decided := some (step, attempt), decCommit := false } }

/-! ### Recovery at the coordinator (R362, R365) -/

/-- Change the recovery state; a change is event 0x13. -/
def setRec (st : Nat) (s : State) : State :=
  let s' : State := { s with fab := { s.fab with recState := st } }
  if st = s.fab.recState then s'
  else raiseOpen 0x13 noSource (pack [(8, st), (16, s.fab.recF), (16, s.fab.recSpare)]) s'

def recActive (s : State) : Bool := decide (1 ≤ s.fab.recState) && decide (s.fab.recState ≤ 3)

/-- Recovery fails: of several causes the lowest is kept, and the answers that may bring another are still taken. A card that
waits at its boundary is sent the action stop; one that still aborts sends it when it has finished (R294, R365). -/
def recFail (cause : Nat) (s : State) : State :=
  let again := decide (s.fab.recState = 5)
  let c := if again then min s.fab.recCause cause else cause
  let s := setRec 5 { s with fab := { s.fab with recCause := c, recAsk := s.fab.recAsk.filter fun x => decide (5 ≤ x.2 ∧ x.2 ≤ 7) } }
  if again then s
  else if s.led.st = .opened ∧ s.led.waiting then sendAbort s.led.running (attempt s) 6 s.fab.recF 0xFFFF 3 s else s

/-- Whether the recovery goes on, or has failed with causes still to be heard (R365). -/
def recHears (s : State) : Bool := recActive s || decide (s.fab.recState = 5)

/-- A twin reports LOST during a recovery. -/
def recLost (s : State) : State := if recHears s && amCoordinator s then recFail 2 s else s

/-- The next logical card without a spare. -/
def recNeeds (s : State) : Option Nat := s.fab.recFs.find? fun f => !s.fab.recPairs.any fun x => decide (x.1 = f)

/-- The logical map with the spares in place, and the failed-card set with the failed cards. -/
def recMap (s : State) : Bytes :=
  (List.range s.plan.plan.cards).flatMap fun l => leBytes 2 (match s.fab.recPairs.find? fun x => decide (x.1 = l) with
    | some x => x.2
    | none => (cardOf s l).getD 0xFFFF)

def recFailed (s : State) : Bytes :=
  let gone := s.fab.recFs.filterMap fun f => cardOf s f
  (failedCards s ++ gone.filter fun c => !(failedCards s).contains c).flatMap (leBytes 2)

/-- The cards on which the map is staged: every card of the plan but those declared failed, and the spares. -/
def recTargets (s : State) : List Nat :=
  (((List.range s.plan.plan.cards).filterMap (cardOf s)).filter fun c => !s.fab.declared.contains c) ++ s.fab.recPairs.map (·.2)

/-- Recruit a spare for the next logical card that needs one; with all recruited, ask every card its generation. -/
def recruitNext (s : State) : State :=
  match recNeeds s with
  | none => (recTargets s).foldl (fun s c => askCard c 1 (.read 0x2012 1) s) (setRec 3 s)
  | some f =>
    let s : State := { s with fab := { s.fab with recF := f } }
    match (u16s (valBytes s 0x2C10 0)).find? fun c =>
        !(s.fab.recTried ++ failedCards s ++ s.fab.declared).contains c with
    | none => recFail 1 s
    | some c => askCard c 0 (.write 0x2C20 1 (leBytes 2 f)) (setRec 2 { s with fab := { s.fab with
        recTried := s.fab.recTried ++ [c], recSince := s.keep.samples } })

/-- Ask every card that goes on which card it is the twin of (R365). -/
def askPartners (s : State) : State :=
  let cs := ((List.range s.plan.plan.cards).filterMap (cardOf s)).filter fun c => !s.fab.declared.contains c
  cs.foldl (fun s c => askCard c 6 (.read 0x2A01 2) s) s

/-- Recruit, and ask every card for its partner. -/
def recruitAll (s : State) : State := recruitNext (askPartners s)

/-- A spare that has not answered within 10 ms, which the keeper counts in its sampling periods, is passed over (R362 step 2;
DEDUCED, log entry 200). -/
def recruitLate (s : State) : State :=
  match s.fab.recAsk.find? fun x => decide (x.2 = 0) with
  | none => s
  | some x =>
    if s.fab.recState = 2 ∧ s.fab.recSince + 10 ≤ s.keep.samples then
      recruitNext { s with fab := { s.fab with recAsk := s.fab.recAsk.erase x } }
    else s

/-- The coordinator tells every other card of a planned handover while a step runs, so that each waits at the next boundary for the
map part (R366; DESIGN CHOICE, log entry 185). -/
def tellHandover (s : State) : State :=
  match s.fab.handover with
  | none => s
  | some f =>
    if s.fab.handTold || !amCoordinator s || !jobRuns s || s.led.waiting then s
    else
      let cs := ((liveCards s).filterMap (cardOf s)).filter fun c => decide (c ≠ cardId s)
      cs.foldl (fun s c => askCard c 2 (.write 0x2C24 1 (leBytes 2 f)) s) { s with fab := { s.fab with handTold := true } }

/-- Whether a request is the coordinator's own (route 3 of R44). -/
def fromCoordinator (a : Access) (s : State) : Bool :=
  decide (a.src.route = .towpath) && decide (cardOf s (coordinator s) = some a.src.card.toNat)

/-- The step that the map part names: the running step. -/
def stageMap (c gen : Nat) (s : State) : State :=
  let s := askCard c 2 (.write 0x2810 0 (recMap s)) s
  let s := askCard c 2 (.write 0x2811 0 (recFailed s)) s
  askCard c 2 (.write 0x2010 2 (leBytes 12 (gen % 2 ^ 32 + 2 ^ 32 * s.led.running))) s

/-- The running step reopens, or the handed-over step opens: recovery is complete. -/
def recComplete (s : State) : State :=
  if s.fab.recState = 3 ∧ s.led.waiting = false then
    setRec 4 { s with
      stat := { s.stat with boot := Sparse.set 0 s.stat.boot (ekey 0x2C11 4) ((s.keep.samples - s.fab.recTime) * 1000 / 1024) }
      fab := { s.fab with recFs := [], recPairs := [], recAsk := s.fab.recAsk.filter (·.2 = 5) } }
  else s

/-! ### Declaration (R331) -/

/-- Begin a recovery for one more logical card. -/
def recBegin (f : Nat) (s : State) : State :=
  countBoot 0x2C11 5 1 (setRec 1 { s with fab := { s.fab with
    recF := f, recSpare := 0xFFFF, recCause := 0, recStep := s.led.running, recTime := s.keep.samples, recTried := [], recTwins := [], recAsk := s.fab.recAsk.filter (·.2 = 5),
    recPairs := [], recFs := if s.fab.recFs.contains f then s.fab.recFs else s.fab.recFs ++ [f] } })

/-- Abort with cause 6: the running step, or where its commit or abort has been sent, the attempt after it (R27). -/
def abortFailed (f : Nat) (s : State) : State :=
  let n := s.led.running
  if !jobRuns s then s
  else if s.led.decided ≠ some (n, attempt s) then sendAbort n (attempt s) 6 f 0xFFFF (abortAction s 6 (attempt s)) s
  else if s.led.decCommit then sendAbort (n + 1) 1 6 f 0xFFFF (abortAction s 6 1) s
  else sendAbort n (attempt s + 1) 6 f 0xFFFF (abortAction s 6 (attempt s + 1)) s

/-- A new coordinator ends its takeover with every answer in (R28): the step that some card has committed is committed again
to every card that has not applied it, and the failure belongs to the step after it; else the running step aborts. -/
def endTakeover (s : State) : State :=
  let ans := s.led.takeAns
  let s : State := { s with led := { s.led with takeover := false, takeAns := [] } }
  let behind (n : Nat) : List Nat := (ans.filter fun a => decide (a.2 + 1 = n)).map (·.1)
  if s.led.st = .ready ∧ (ans.any fun a => decide (s.led.running ≤ a.2)) = true then
    let s := toCards ((myLogical s).toList ++ behind s.led.running) (.commit s.led.running (attempt s)) { s with led := { s.led with
      decided := some (s.led.running, attempt s), decCommit := true } }
    abortFailed s.fab.recF s
  else
    let s := toCards (behind s.led.committed) (.commit s.led.committed (s.led.last.attempts + 1)) s
    abortFailed s.fab.recF s

/-- Declare a card failed. A spare card's failure ends no step. -/
def declareFailed (card : Nat) (s : State) : State :=
  if s.fab.declared.contains card || (failedCards s).contains card then s
  else
    let coord := coordinator s
    let s := failCard card s
    let s : State := { s with fab := { s.fab with
      declared := s.fab.declared ++ [card], probing := s.fab.probing.filter (· ≠ card) } }
    match logicalOf s card with
    | none => s
    | some f =>
      let s := recBegin f s
      if f = coord ∧ jobRuns s = true then
        let others := ((liveCards s).filterMap (cardOf s)).filter fun c => !s.fab.declared.contains c && decide (c ≠ cardId s)
        if others.isEmpty then endTakeover s
        else others.foldl (fun s c => askCard c 3 (.read 0x2002 1) s) { s with led := { s.led with takeover := true, takeAns := [] } }
      else abortFailed f s

/-- An abort with cause 6 names a card: every card passes it over from then on, and notes that it is to be replaced, so that a
later coordinator recruits for it too (R362); the card itself leaves (R360), and the coordinator recruits. -/
def cardDeclared (l : Nat) (s : State) : State :=
  let s : State := match cardOf s l with
    | none => s
    | some c =>
      let s := failCard c s
      if s.fab.declared.contains c then s else { s with fab := { s.fab with declared := s.fab.declared ++ [c] } }
  let s : State := { s with fab := { s.fab with recFs := if s.fab.recFs.contains l then s.fab.recFs else s.fab.recFs ++ [l] } }
  if some l = myLogical s then mirrorService s
  else if amCoordinator s && decide (s.led.abAction ≠ 3) && recActive s then recruitAll s
  else s

/-- The logical map or the failed-card set has applied: a card in the set is no longer only declared, a logical card that a
working card carries needs no replacement, and this card leaves if the set names it (R366). -/
def mapApplied (s : State) : State :=
  let s : State := { s with fab := { s.fab with declared := s.fab.declared.filter fun c => !(failedCards s).contains c } }
  let s : State := { s with fab := { s.fab with recFs := s.fab.recFs.filter fun l => (match cardOf s l with
    | some c => s.fab.declared.contains c || (failedCards s).contains c
    | none => true) } }
  if (failedCards s).contains (cardId s) && !s.keep.mirror then mirrorService s else s

/-! ### Answers -/

/-- A card has named its partner. The twin of a failed card is asked for its custody, and in a handover for its mirror step. Once
every card has answered, a failed card that none has named has no twin: with another such card both cards of a pair have failed,
alone no image can reach its spare (DEDUCED, log entry 105). -/
def twinNamed (c : Nat) (ans : Option Bytes) (s : State) : State :=
  let p := (ans.map leNat).getD 0x7FFF
  let s : State := { s with fab := { s.fab with recTwins := s.fab.recTwins ++ [p] } }
  let s := if s.fab.recFs.contains p then
      (let s := askCard c 7 (.read 0x2A01 9) s
       if s.fab.handover = some p then askCard c 8 (.read 0x2A01 7) s else s) else s
  let alone := s.fab.recFs.filter fun f => !s.fab.recTwins.contains f
  if recHears s && !(s.fab.recAsk.any fun x => decide (x.2 = 6)) && !alone.isEmpty then
    recFail (if 2 ≤ alone.length then 3 else 4) s
  else s

/-- The twin of a card to be handed over has told its mirror step: with the committed step the spare is recruited, else it is asked
again (R366). -/
def mirrorTold (c : Nat) (ans : Option Bytes) (s : State) : State :=
  if !recActive s then s
  else if (ans.any fun bs => decide (s.led.committed ≤ leNat bs)) then recruitNext s
  else askCard c 8 (.read 0x2A01 7) s

/-- The twin of a failed card has told whether it holds its image. -/
def custodyTold (ans : Option Bytes) (s : State) : State :=
  if recHears s && !bit ((ans.map leNat).getD 0) 1 then recFail 4 s else s

/-- What an answer comes to: its bytes, or none for an abort code. -/
def recAnswer (c : Nat) (ans : Option Bytes) (s : State) : State :=
  match s.fab.recAsk.find? fun x => decide (x.1 = c) with
  | none => s
  | some x =>
    let s : State := { s with fab := { s.fab with recAsk := s.fab.recAsk.erase x } }
    match x.2, ans with
    | 0, some _ => if !recActive s then s else recruitNext { s with fab := { s.fab with recPairs := s.fab.recPairs ++ [(s.fab.recF, c)], recSpare := c } }
    | 0, none => if !recActive s then s else recruitNext s
    | 1, some bs => stageMap c (leNat bs) s
    | 6, bs => twinNamed c bs s
    | 7, bs => custodyTold bs s
    | 8, bs => mirrorTold c bs s
    | 3, bs =>
      if !s.led.takeover then s
      else
        let s : State := match logicalOf s c, bs with
          | some l, some bs => { s with led := { s.led with takeAns := s.led.takeAns ++ [(l, leNat bs)] } }
          | _, _ => s
        if s.fab.recAsk.any fun y => decide (y.2 = 3) then s else endTakeover s
    | _, _ => s

end Sys2Proof.Machine
end

