-- ==== Sys2Proof/Machine/Ledger.lean ====
section
/-! DEFINITION. The step ledger (R24 to R30, R286 to R296), the coordinator's part of commit and abort, and the
boundary that opens a step. -/

namespace Sys2Proof.Machine

/-! ### The end of a job -/

/-- The ledger enters NOJOB and the card is plan-loaded (R288, R294, R296), a change of the repair map in the step is written (R443): the ring is set back (R389), opening snapshots
become open (R254), and a harvest that awaits its step fails (R374). -/
def endJob (s : State) : State :=
  let s : State := { s with
    led := { s.led with st := .nojob, stopPend := false, waiting := false, reopen := false, startGate := false, touched := [],
                        layers := [], order := [], chkOrder := [], stale := [], readies := [], norms := [] }
    keep := { s.keep with dev := .planLoaded }
    fab := { s.fab with edges := [], badEdges := [], badEdge := none }
    host := { s.host with ringtake := s.host.ringget } }
  writeMap (harvStop (openSnaps s))

/-- Touched layers cannot be restored (R288): LOST is reported, and the card is plan-loaded. -/
def enterLost (s : State) : State :=
  let s := reportLost s
  harvStop (openSnaps { s with
    led := { s.led with waiting := false }
    keep := { s.keep with dev := .planLoaded } })

/-! ### Commit on a card (R289 steps 1 to 5) -/

/-- The physical unit with the largest slip of the step that is committed, and that slip (0x3890): of the units that ran it. -/
def largestSlip (s : State) : Nat × Nat :=
  ((List.range 72).filter fun p => decide (logicalUnit s p < 64)).foldl (fun (a : Nat × Nat) p =>
    let v := Sparse.get 0 s.stat.latch (ekey 0x5040 (p + 1))
    if a.2 = 0xFF ∨ a.1 < v then (v, p) else a) (0, 0xFF)

/-- Statistics that are not counted but read at the commit. No rule says which FMAs count as strict (0x3C38:02): a free
value of the step. -/
def latchReadings (s : State) : State :=
  let s := (List.range 8).foldl (fun s k => setLatch 0x3032 (k + 1) (freeFrames s k) (setLatch 0x3030 (k + 1) (stackReading s k) s)) s
  let rows := ((List.range 288).map fun k => Sparse.get 0 s.stat.latch (issueKey 0 k)).sum
  let cycles := Sparse.get 0 s.stat.latch (ekey 0x3811 2)
  let s := setLatch 0x3811 1 (if cycles = 0 then 0 else 1000 * rows / cycles) s
  let slip := largestSlip s
  let s := setLatch 0x2101 3 s.keep.peakW (setLatch 0x3890 2 slip.2 (setLatch 0x3890 1 slip.1 s))
  { s with
    stat := { s.stat with strict := some s.led.committed }
    keep := { s.keep with logicRd := logicReadings s, peakW := 0 } }

/-- Events that a committed step gives rise to (R120, R176, R411). -/
def commitEvents (s : State) : State :=
  let lost := Sparse.get 0 s.stat.latch (ekey 0x2118 1)
  let s := if 0 < lost then raiseOpen 0x24 noSource (lost % 2 ^ 32) s else s
  let faults := Sparse.get 0 s.stat.latch (ekey 0x3410 8)
  let s := if 0 < faults then raiseOpen 0x0A noSource faults s else s
  let sum := tallySum s.stat.tLatch 0 + tallySum s.stat.tLatch 1
  if num s 0x3C28 1 ≠ 0 ∧ num s 0x3C28 1 < sum then raiseOpen 0x09 noSource sum s else s

/-- Write every layer's record and keep its reference digest (R273, R279, R355). -/
def commitLayers (s : State) : State :=
  let lt := ownLt s
  (layerNumbers lt).foldl (fun s k => match layerEnt lt k with
    | none => s
    | some e =>
      let run := layerRun s k
      let s := pokeDev (lt.lstate + 32 * k) (runRec e run).toBytes s
      { s with twin := { s.twin with refs := Sparse.set 0 s.twin.refs k run.ds } }) s

/-- The partner's step parts that are due at this boundary apply to its mirrored settings (R350). -/
def partnerParts (due : Part → Bool) (s : State) : State :=
  let now := s.twin.pparts.filter due
  let put (es : List EntryVal) (e : EntryVal) : List EntryVal :=
    (es.filter fun x => !(decide (x.idx = e.idx) && decide (x.sub = e.sub))) ++ [e]
  if now.isEmpty then s
  else { s with twin := { s.twin with
      pgen := (now.getLast?.map (·.gen)).getD s.twin.pgen, psettings := (now.flatMap (·.entries)).foldl put s.twin.psettings,
      pparts := s.twin.pparts.filter fun p => !due p } }

/-- The pair at a commit: the shadow update of the partner's mirror begins, under the partner's settings of this step; the
partner's step parts due apply (R350, R352). -/
def commitTwin (n : Nat) (s : State) : State :=
  if s.twin.pair = .inStep then
    partnerParts (stepPartsDue (n + 1)) { s with twin := { s.twin with
      shadowN := n, applyCs := s.led.applyCs, stepmSent := false, shadowSet := s.twin.psettings } }
  else s

/-- The decisions for the next step (R289 step 4). -/
def decide4 (n : Nat) (m : Measured) (s : State) : State :=
  let s := s.mem.dmgRun.foldl markMirror s
  let last : StepRec := { s.led.run with refresh := forcedRefresh s.led.run.refresh m.stackT }
  let s := commitHeld (commitLayers s)
  let next := decideRec (num s) s.plan.plan (ownLt s).points (n + 1) s.dict.genForce s.boot.repGen last m
  let codes := clockCodes next.clocks
  let s := sayCodes (clockCodes last.clocks) codes m.logic m.stackT s
  let s : State := { s with
    led := { s.led with last := last, run := next }
    keep := { s.keep with codes := codes }
    fab := { s.fab with branches := nextBranches (num s) s.fab.detRun s.fab.branches }
    mem := { s.mem with lateEnt := [], issued := s.mem.issued.filter fun x => decide (n < x.2), dmgRun := [] }
    harv := { s.harv with order := s.led.order } }
  let s := writeMap (moveOffAll (retireOwed (judgeSlip (judgeSlow s))))
  clearReadings { s with led := { s.led with run := { s.led.run with repair := s.boot.repGen } } }

/-- The coordinator, now at the attempt that a report kept for it names, aborts that attempt (R27). -/
def takeEarly (s : State) : State :=
  let now := s.led.early.filter fun r => decide (r.1 = s.led.running) && decide (r.2.1 = attempt s)
  let s : State := { s with led := { s.led with early := [] } }
  match now with
  | [] => s
  | (step, att, cause, card, layer, _) :: _ =>
    if jobRuns s && amCoordinator s then sendAbort step att cause card layer (abortAction s cause att) s else s

/-- R289 steps 1 to 5 for step `n`. -/
def commitStep (n : Nat) (s : State) : State :=
  let m := measured s
  let s : State := { s with led := { s.led with committed := n, touched := [], consec := 0, commitsN := s.led.commitsN + 1 } }
  let s := commitEvents (latchReadings (latchStats s))
  let s := mapApplied (applyParts (stepPartsDue (n + 1)) s)
  let s := commitTwin n (decide4 n m s)
  let s := openSnaps s
  let s := harvAtCommit n (boundaryBlock s) s
  let s := commitTpdos (commitFlag (ringRelease s))
  if s.keep.mirror then s
  else if s.led.stopPend then endJob s
  else takeEarly { s with led := { s.led with
    st := .opened, running := n + 1, waiting := true, reopen := false, slotHeld := false, layers := [], order := [],
    chkOrder := [], stale := [], readies := s.led.readies.filter fun r => decide (n < r.2.1), norms := [] } }

/-! ### The opening of a step (R289 step 6) -/

/-- Copy the slot into the retained-input area: the running step's and the last committed step's are kept (R253). A slot that
cannot be read aborts the step with cause 7 (DEDUCED, log entry 164). -/
def retainInput (n slot : Nat) (s : State) : State :=
  let p := s.plan.plan
  let keep (s : State) (d : Sparse Byte) : State := pondWrite (pondRetained s n) p.ringSlot (fun s =>
    { s with mem := { s.mem with retained := (s.mem.retained.filter fun r => decide (r.1 + 1 = n)) ++ [(n, d)] } }) s
  if p.ringSlots = 0 then keep s []
  else match readDev (p.ringBase + slot * p.ringSlot) p.ringSlot .clean s with
    | .ok s bs => keep s ((bs.zipIdx.filter fun b => decide (b.1 ≠ 0)).map fun b => (b.2, b.1))
    | x => reportAbort 7 0xFFFF (keep x.state [])

/-- The step-constants block (R270). -/
def stepConstants (s : State) : Bytes :=
  let r := s.led.run
  let scale := (rn (.fin false 1 r.l, {})).1
  leBytes 64 (pack [(64, r.step), (32, r.lr.toNat), (32, scale.toNat), (8, unsigned 8 r.l), (24, 0), (32, r.gen.toNat)])

/-- The attempt opens: the record is fixed, with the generation in force at the first opening of the step (R50, R290), engines and units start afresh (R149, R188), the ports in service fix the routes
(R314), clocks and refresh rates apply (R252, R417), and slot 0 begins (R237). -/
def openAttempt (slot : Nat) (s : State) : State :=
  let n := s.led.running
  let gen := if s.led.reopen then s.led.run.gen else s.dict.genForce
  let r : StepRec := { s.led.run with step := n, ring := slot, gen := gen }
  let s : State := { s with led := { s.led with
    run := r, openRec := r, waiting := false, reopen := false, layers := [], order := [], chkOrder := [],
    stale := [], refreshed := false, normSent := false, applyCs := none, lossRead := false, engStop := [],
    slotHeld := true, solocs := decide (s.twin.pair = .solo) && decide (num s 0x2A00 2 = 0) } }
  let s := retainInput n slot s
  let s := pokeDev (ownLt s).stepConst (stepConstants s) s
  let s := resetUnits s
  let s : State := { s with
    keep := { s.keep with inForce := clockCodes r.clocks, forced := [] }
    fab := { s.fab with routeUp := (List.range 20).filter (portUp s) }
    mem := { s.mem with refresh := r.refresh, lateEnt := [] }
    twin := { s.twin with stepmSent := false } }
  let s := beginSlot 0 (clearReadings s)
  let s := if s.twin.pair = .solo ∧ num s 0x2A00 2 = 2 then { s with led := { s.led with stopPend := true } } else s
  tellHandover (if s.twin.pair = .inStep then toTwin (.input n slot) s else s)

/-- The ring slot that the attempt takes, and the counter after it; none while the batch is absent (R30, R389). A retry
retakes its slot. A plan without a ring needs none. -/
def takeSlot (s : State) : Option (Nat × Nat) :=
  let n := s.plan.plan.ringSlots
  if s.led.slotHeld then some (s.led.run.ring, s.host.ringtake)
  else if n = 0 then some (0, s.host.ringtake)
  else if s.host.ringtake = s.host.ringput then none
  else some (s.host.ringtake % n, (s.host.ringtake + 1) % 2 ^ 32)

/-- Whether something other than the batch keeps the step from opening: the start gate (R24, R218), the pair (R348), the map
part of a recovery or of a handover that this card has been told of (R362, R366) and the loading of a spare, a holding harvest
(R371). -/
def openHeld (s : State) : Bool :=
  s.led.startGate || harvHolds s ||
    (!s.led.reopen && decide (s.led.commitsN = 0) && decide (num s 0x2A00 3 = 0) &&
      (decide (s.twin.pair = .waiting) || decide (s.twin.pair = .seeding))) ||
    reopenBarred s ||
    (s.led.reopen && decide (s.led.abCause = 6) && decide (some s.led.abCard = partner s) && decide (s.twin.pair ≠ .inStep)) ||
    (((recActive s && amCoordinator s) || (s.fab.handover.isSome && s.fab.handTold && !s.led.reopen)) &&
      !s.dict.awaiting.any (mapPartsDue s.led.running)) || s.twin.loading.isSome || s.fab.joining

/-- Open the running step, or wait for its batch (R30: one event per step). -/
def stepOpen (s : State) : State :=
  if openHeld s then (if harvHolds s then { s with harv := { s.harv with holdT := some s.keep.samples } } else s)
  else match takeSlot s with
    | none =>
      if s.led.waitSaid = s.led.running then s
      else raiseOpen 0x05 noSource 0 { s with led := { s.led with waitSaid := s.led.running } }
    | some x =>
      let due := openPartsDue s.led.reopen s.led.running
      let s := partnerParts due (mapApplied (applyParts due s))
      let s : State := if s.fab.handTold then { s with fab := { s.fab with handover := none, handTold := false } } else s
      let s := writeMap (retireOwed s)
      if anyShort s then cardFails s
      else if s.keep.mirror then s
      else recComplete <| openAttempt x.1 { s with
        host := { s.host with ringtake := x.2 }
        led := { s.led with run := { s.led.run with repair := s.boot.repGen } } }

/-! ### Abort (R291 to R294) -/

/-- A card receives abort(N) (R288): recorded in 0x2002, units and engines stop, statistics and held gradients drop. -/
def takeAbort (step cause card layer action : Nat) (s : State) : State :=
  let s : State := { s with led := { s.led with
    st := .aborting, waiting := false, abCause := cause, abStep := step, abCard := card, abLayer := layer, abAction := action,
    abJob := s.led.abJob + 1, consec := min 255 (s.led.consec + 1),
    run := { s.led.run with lrun := 0 }, engStop := if s.keep.dev = .halted then s.led.engStop else [] } }
  let s := raiseOpen 0x03 noSource (pack [(8, cause), (16, card), (16, layer), (8, action)]) s
  let s := stopUnits (dropStats s)
  let s : State := { s with
    led := { s.led with stale := [], normSent := false }
    mem := { s.mem with issued := s.mem.issued.filter fun x => decide (x.2 ≠ step), lateEnt := [] } }
  let s := if s.twin.pair = .inStep then toTwin (.discard step) s else s
  if cause = 6 then cardDeclared card s else s

/-- After the restore, if any (R294): the ring, the attempt count and the loss exponent by the action; a pending stop takes
the place of a reopening (R296). -/
def finishAbort (s : State) : State :=
  let act := s.led.abAction
  let lost := (!s.led.losts.isEmpty || (decide (s.led.abCause = 6) && decide (s.fab.recState = 5))) && amCoordinator s
  let s : State := { s with led := { s.led with touched := [] } }
  let s := if s.led.abCause = 6 ∧ some s.led.abCard = partner s then enterSolo 2 s else s
  if act = 3 ∨ s.led.stopPend = true then
    endJob { s with led := { s.led with run := { s.led.run with attempts := s.led.run.attempts + 1 } } }
  else
    let s := if act = 2 then (if s.led.slotHeld then ringRelease s else s)
      else setBoot 0x2C08 3 s.led.abCause (setBoot 0x2C08 2 s.led.running (countBoot 0x2C08 1 1 s))
    let r := s.led.run
    let r : StepRec := { r with attempts := r.attempts + 1, l := if act = 2 then skipL (num s) r.l else r.l }
    let s : State := { s with led := { s.led with
      st := .opened, waiting := true, reopen := true, run := r, norms := [],
      slotHeld := s.led.slotHeld && decide (act ≠ 2) } }
    if lost then sendAbort s.led.running (attempt s) s.led.abCause s.led.abCard s.led.abLayer 3 s else takeEarly s

/-- Begin the restore: PULL for each touched layer in table order, once the last shadow update is complete (R293, R353,
R358). -/
def beginRestore (s : State) : State :=
  let ks := (layerNumbers (ownLt s)).filter fun k => s.led.touched.contains k
  let s : State := { s with
    led := { s.led with st := .restoring }
    twin := { s.twin with restore := ks, pullTry := [] } }
  if s.led.committed ≤ s.led.shadowOf then ks.foldl (fun s k => pullLayer k false s) s else s

/-- Units and engines have stopped (R288): every context has ended, what pieces finished meanwhile counted is discarded
(R292), held scales are reset (R117), damage is handled (R359). -/
def enginesStopped (s : State) : State :=
  let idle (u : UnitSt) : UnitSt := stopUnit { u with ctxs := u.ctxs.map fun kc => (kc.1, { kc.2 with flight := none }) }
  let s : State := { dropStats s with
    units := { s.units with phys := s.units.phys.map fun pu => (pu.1, idle pu.2) }
    fab := { s.fab with remotes := s.fab.remotes.filter fun r => decide (r.unit = harvUnit), trees := [] } }
  let s := handleDamage (abortHeld s)
  if s.led.abCause = 10 ∧ some s.led.abCard = myLogical s ∧ s.led.abLayer < (ownLt s).layers.length then enterLost s
  else if s.led.touched.isEmpty then finishAbort s
  else if s.twin.pair = .inStep then beginRestore s
  else enterLost s

/-! ### The coordinator -/

/-- Whether the coordinator is deciding an attempt (R26): the one it runs, or, once it has decided that one, the next. -/
def deciding (s : State) (step att : Nat) : Bool :=
  jobRuns s && ((decide (step = s.led.running) && decide (att = attempt s)) ||
    (decide (s.led.decided = some (s.led.running, attempt s)) &&
      ((decide (step = s.led.running) && decide (att = attempt s + 1)) || (decide (step = s.led.running + 1) && decide (att = 1)))))

/-- Send apply(N, 1.0) to the cards that hold after losing their twins, once every other card has sent norm(N) or ready(N)
(R348). -/
def holdApply (step att : Nat) (s : State) : State :=
  let has (l : Nat) : Bool := s.led.norms.any (fun x => decide (x.1 = l)) || s.led.readies.contains (l, step, att)
  if !(ownLt s).mode && !s.led.norms.isEmpty && (liveCards s).all has then
    toCards (s.led.norms.map (·.1)) (.apply step att one32) { s with led := { s.led with norms := [] } }
  else s

/-- ready(N) at the coordinator (R26). -/
def takeReady (card step att : Nat) (s : State) : State :=
  if !amCoordinator s || !deciding s step att then s
  else
    let s : State := if s.led.readies.contains (card, step, att) then s
      else { s with led := { s.led with readies := s.led.readies ++ [(card, step, att)] } }
    let s := holdApply step att s
    if s.led.decided ≠ some (step, att) ∧ (liveCards s).all (fun l => s.led.readies.contains (l, step, att)) = true then
      toCards (liveCards s) (.commit step att) { s with led := { s.led with decided := some (step, att), decCommit := true } }
    else s

/-- The exact sum of A × 2^(−2L) over the cards, at the smallest exponent. -/
def globalSum (ns : List (Nat × Nat × Int × Bool)) : Nat × Int :=
  let e (l : Int) : Int := -298 - 2 * l
  let k := ns.foldl (fun a n => min a (e n.2.2.1)) 0
  ((ns.map fun n => atExp n.2.1 (e n.2.2.1) k).sum, k)

/-- G of R282. -/
def globalNorm (ns : List (Nat × Nat × Int × Bool)) : W32 :=
  let x := globalSum ns
  if x.1 = 0 then 0
  else
    let r := sqrtSticky x.1 x.2
    (rn (.fin false r.1 r.2, {})).1

/-- norm(N) at the coordinator (R282, R348). -/
def takeNorm (card step att sumA : Nat) (l : Int) (hold : Bool) (s : State) : State :=
  if !amCoordinator s || !(decide (step = s.led.running) && decide (att = attempt s) && jobRuns s) then s
  else
    let s : State := if s.led.norms.any (fun x => decide (x.1 = card)) then s
      else { s with led := { s.led with norms := s.led.norms ++ [(card, sumA, l, hold)] } }
    if (ownLt s).mode then
      if s.led.decided ≠ some (step, att) ∧ (liveCards s).all (fun l => s.led.norms.any fun x => decide (x.1 = l)) = true then
        let g := globalNorm s.led.norms
        let clip := (ownLt s).clipg
        let cs := if on32 clip ∧ lt32 clip g = true then (opDiv clip g).1 else one32
        let s := maxRun 0x4010 7 g.toNat s
        toCards (liveCards s) (.apply step att cs) { s with led := { s.led with norms := [] } }
      else s
    else holdApply step att s

/-- abort(N, cause) from a card at the coordinator (R27, R291, R294); a report of LOST forces the action stop. One for the
attempt after the decided one, from a card that is there first, is kept until this card is there. -/
def takeReport (step att cause card layer : Nat) (lost : Bool) (s : State) : State :=
  if !amCoordinator s || !jobRuns s then s
  else if deciding s step att && !(decide (step = s.led.running) && decide (att = attempt s)) then
    { s with led := { s.led with early := s.led.early ++ [(step, att, cause, card, layer, lost)] } }
  else if step ≠ s.led.running then s
  else
    let s : State := if lost && !s.led.losts.contains card then recLost { s with led := { s.led with losts := s.led.losts ++ [card] } } else s
    let late := lost && decide (att + 1 = attempt s) && decide (s.led.st = .opened)
    if late then sendAbort step (attempt s) cause card layer 3 s
    else if att = attempt s ∧ s.led.decided ≠ some (step, att) then sendAbort step att cause card layer (abortAction s cause att) s
    else s

/-! ### Start and stop (R296) -/

/-- Whether the system has other cards, so that a job's first step opens at a gate (R24, R218). -/
def hasGate (s : State) : Bool := decide (1 < s.plan.plan.cards)

/-- The multicast tree edges of this card: tree, parent, child (R321). -/
def treeEdges (s : State) : List (Nat × Nat × Nat) :=
  let me := (myLogical s).getD 0xFFFF
  s.plan.plan.trees.flatMap fun t =>
    (if t.role = 0 then [] else [(t.tree, t.parent, me)]) ++ t.child.map fun c => (t.tree, me, c)

/-- The card at the other end of a tree edge. -/
def otherEnd (s : State) (e : Nat × Nat × Nat) : Nat := if e.2.1 = (myLogical s).getD 0xFFFF then e.2.2 else e.2.1

/-- Note an edge that is not confirmed: the lowest child counts. -/
def badEdge (child : Nat) (s : State) : State :=
  { s with fab := { s.fab with badEdge := some (match s.fab.badEdge with
      | none => child
      | some c => min c child) } }

/-- Whether an edge that another card names is this card's too; if not, that card and the coordinator are told. -/
def answerEdge (e : Nat × Nat × Nat) (s : State) : State :=
  if (treeEdges s).contains e then s
  else
    let no : TpMsg := .edge e.1 e.2.1 e.2.2 false
    toCard (coordinator s) no (toCard (otherEnd s e) no s)

/-- Arrive at the gate that opens the job's first step, once each edge of this card is confirmed or known not to be; the
arrival tells of the lowest child of one that is not. -/
def arriveStart (s : State) : State :=
  if s.led.startGate && !s.led.startSent && (treeEdges s).all fun e => s.fab.edges.contains e || s.fab.badEdges.contains e then
    toCard (coordinator s) (.startArrival s.plan.plan.sysid s.plan.plan.cards s.led.committed s.fab.badEdge)
      { s with led := { s.led with startSent := true } }
  else s

/-- Start a job (R24 step 5, R288): the step parts due apply, retirements owed are made, the loss exponent starts, and the
first step waits to open; with other cards it waits for the start gate, and its tree edges are confirmed. A card that these parts
put into the failed-card set starts no job (R360; DEDUCED, log entry 207). -/
def startJob (s : State) : State :=
  let n := s.led.committed + 1
  let s := partnerParts (stepPartsDue n) (mapApplied (applyParts (stepPartsDue n) s))
  if s.keep.mirror then s
  else
  let s := writeMap (retireOwed s)
  let g := num s
  let r : StepRec := { s.led.run with
    step := n, ring := 0, attempts := if s.led.run.step = n then s.led.run.attempts else 0, gen := s.dict.genForce, repair := s.boot.repGen, l := signed 8 (g 0x4006 2),
    clocks := packClocks s.keep.inForce, refresh := s.mem.refresh, lr := stepRate g (ownLt s).points n }
  let s : State := { s with
    keep := { s.keep with dev := .running, codes := s.keep.inForce }
    led := { s.led with st := .opened, running := n, waiting := true, reopen := false, early := [], startGate := hasGate s, startSent := false,
                        run := r, touched := [], abJob := 0, readies := [], norms := [], decided := none, losts := [],
                        commitsN := 0, slotHeld := false }
    fab := { s.fab with routeUp := (List.range 20).filter (portUp s) }
    stat := { s.stat with job := [], tJob := [], run := [], tRun := [] }
    twin := { s.twin with suspects := false } }
  let s := if (s.twin.pair = .waiting ∨ s.twin.pair = .seeding) ∧ num s 0x2A00 3 = 1 then enterSolo 3 s else s
  let s := (treeEdges s).foldl (fun s e => toCard (otherEnd s e) (.edge e.1 e.2.1 e.2.2 true) s) s
  arriveStart (s.fab.edges.foldl (fun s e => answerEdge e s) s)

/-- Whether a job may start (R296, R368). -/
def mayStart (s : State) : Bool :=
  decide (s.keep.dev = .planLoaded) && decide (s.led.st = .nojob) && s.plan.active.isSome && s.plan.checking.isNone && !anyShort s

/-- Whether a stop may be requested: running or halted with a job. -/
def mayStop (s : State) : Bool := (decide (s.keep.dev = .running) || decide (s.keep.dev = .halted)) && jobRuns s

/-! ### Meanings -/

/-- Whether every collective of the step in which this card takes part is complete (R25): it has landed what trees bring it,
each child attached has landed what it forwards, and no replay read of a tree is under way. -/
def collectivesDone (s : State) : Bool :=
  (s.plan.plan.trees.all fun t =>
    let r := getTree s t.tree
    decide (r.txn = 0 ∧ r.landed = 0 ∧ r.len = 0) || (treeDone s t && decide (r.len ≤ r.landed))) &&
  s.fab.remotes.all fun q => q.tree.isNone || q.done

/-- Whether every readiness condition but the twin's holds (R25, R188, R285). -/
def isReady (s : State) : Bool :=
  enginesRun s && (List.range 64).all (fun l => match physUnit s l with
    | none => false
    | some p => (getUnit s p).ended) && collectivesDone s && allUpdated s && (s.led.stale.isEmpty || s.led.refreshed)

/-- The twin holds every gradient of the step (R25). -/
def allAcked (s : State) : Bool := (layerNumbers (ownLt s)).all fun k => (layerRun s k).gok

/-- CARD_READY (R285, R288, R350, R351): while the pair is IN STEP, STEPM(N) goes out first and SACK(N) is waited for. -/
def execCardReady (s : State) : Res :=
  .next (
    let go (s : State) : State :=
      toCard (coordinator s) (.ready s.led.running (attempt s)) { s with led := { s.led with st := .ready } }
    if !isReady s then s
    else if s.twin.pair = .inStep then
      if !allAcked s then s
      else if s.twin.sacked = s.led.running ∧ s.twin.stepmSent = true then go s
      else if s.twin.stepmSent then s
      else match readRanges (heldRanges s) .clean s with
        | (s, none) => s
        | (s, some bs) => toTwin (.stepm s.led.running (measBlock (heldOf bs) s)) { s with twin := { s.twin with stepmSent := true, sacked := 0 } }
    else go s)

/-- READY_MESSAGE (R26). -/
def execReadyMessage (h : TpHdr) (card : BitVec 14) (step : BitVec 64) (att : Nat) (s : State) : Res :=
  .next (hear h 0x04 (takeReady card.toNat step.toNat att) s)

/-- COMMIT_MESSAGE (R26, R28, R289): a commit for another step or attempt, or a second one, is dropped. -/
def execCommitMessage (h : TpHdr) (step : BitVec 64) (att : Nat) (s : State) : Res :=
  .next (hear h 0x04 (fun s =>
    if s.led.st = .ready ∧ step.toNat = s.led.running ∧ att = attempt s then commitStep s.led.running s else s) s)

/-- STEP_OPEN (R289 step 6): while halted, or while something is absent, the card waits at the boundary (R30, R336). -/
def execStepOpen (s : State) : Res :=
  .next (if s.led.waiting ∧ s.led.st = .opened ∧ s.keep.dev = .running then stepOpen s else s)

/-- ABORT_REPORT (R291). -/
def execAbortReport (h : TpHdr) (step : BitVec 64) (att : Nat) (cause : BitVec 8) (card layer : BitVec 16) (lost : Bool)
    (s : State) : Res :=
  .next (hear h 0x05 (takeReport step.toNat att cause.toNat card.toNat layer.toNat lost) s)

/-- ABORT_MESSAGE (R288): a second abort, or one for another step or attempt, is ignored. -/
def execAbortMessage (h : TpHdr) (step : BitVec 64) (att : Nat) (cause : BitVec 8) (card layer : BitVec 16) (action : BitVec 8)
    (s : State) : Res :=
  .next (hear h 0x05 (fun s =>
    let open' := decide (s.led.st = .opened) || decide (s.led.st = .updating) || decide (s.led.st = .ready)
    if open' && decide (step.toNat = s.led.running) && decide (att = attempt s) then
      takeAbort step.toNat cause.toNat card.toNat layer.toNat action.toNat s
    else s) s)

/-- ENGINES_STOPPED (R288). -/
def execEnginesStopped (s : State) : Res := .next (if s.led.st = .aborting then enginesStopped s else s)

/-- NORM_MESSAGE (R282, R348). -/
def execNormMessage (h : TpHdr) (card : BitVec 14) (step : BitVec 64) (att : Nat) (sumA : BitVec 640) (l : BitVec 8) (hold : Bool)
    (s : State) : Res :=
  .next (hear h 0x06 (takeNorm card.toNat step.toNat att sumA.toNat (signed 8 l.toNat) hold) s)

/-- APPLY_MESSAGE (R282, R348): the updates of the step may begin, with this factor. -/
def execApplyMessage (h : TpHdr) (step : BitVec 64) (att : Nat) (cs : W32) (s : State) : Res :=
  .next (hear h 0x06 (fun s =>
    if (s.led.st = .opened ∨ s.led.st = .updating) ∧ step.toNat = s.led.running ∧ att = attempt s ∧ s.led.applyCs = none then
      { s with led := { s.led with applyCs := some cs } }
    else s) s)

/-- A write of 0x2001: a value other than 1 is refused before any check of state (R296). -/
def jobWrite (a : Access) (sub : Nat) (v : BitVec 8) (f : State → State) (s : State) : State :=
  if v = 1 then actWrite a 0x2001 sub f s
  else if pathServes s a.path then refuse a 0x2001 sub abRange s else s

/-- START_JOB (R296). -/
def execStartJob (a : Access) (v : BitVec 8) (s : State) : Res :=
  .next (jobWrite a 1 v (fun s =>
    if mayStart s then reply a [] (startJob s)
    else refuse a 0x2001 1 abState s) s)

/-- STOP_JOB (R296). -/
def execStopJob (a : Access) (v : BitVec 8) (s : State) : Res :=
  .next (jobWrite a 2 v (fun s =>
    if mayStop s then reply a [] { s with led := { s.led with stopPend := true } }
    else refuse a 0x2001 2 abState s) s)

end Sys2Proof.Machine
end

