-- ==== Sys2Proof/Machine/Gates.lean ====
section
/-! DEFINITION. Gates (R205, R206): their entries, arrivals and openings, what a card gate's opening starts (R237, R271),
and system-scope gates over the towpath lane (R218, R334). -/

namespace Sys2Proof.Machine

/-! ### Gate entries -/

/-- A gate entry (R205). -/
structure GateDef where
  scope   : Nat
  num     : Nat
  home    : Nat
  cards   : Nat
  members : BitVec 64
  deriving DecidableEq, Repr

def GateDef.of (x : Nat) : GateDef :=
  { scope := bits x 2 0, num := bits x 11 4, home := bits x 25 12, cards := bits x 40 26, members := BitVec.ofNat 64 (bits x 127 64) }

/-- Gate entry `g` of a unit. -/
def gateDef (u : UnitSt) (g : Nat) : GateDef := GateDef.of (Sparse.get 0 u.gateTab g).toNat

/-- The key of a gate: its scope, its place within the scope (of the logical unit that names it, or HOME), and NUM. -/
def gateKey (l : Nat) (d : GateDef) : Nat :=
  let place := match d.scope with
    | 0 => l / 4 | 1 => l / 8 | 2 => l / 16 | 3 => 0 | _ => d.home
  d.scope * 2 ^ 24 + place * 256 + d.num

def sysKey (home num : Nat) : Nat := 4 * 2 ^ 24 + home * 256 + num

def getGate (s : State) (k : Nat) : GateSt := Sparse.get {} s.gates k

def setGate (k : Nat) (g : GateSt) (s : State) : State := { s with gates := Sparse.set {} s.gates k g }

/-- A member's own arrival count at a gate. -/
def GateSt.count (g : GateSt) (l : Nat) : Nat := Sparse.get 0 g.counts l

/-- Whether a member has arrived in the current phase. -/
def GateSt.has (g : GateSt) (l : Nat) : Bool := g.arrived.getLsbD l

/-- Whether every member of this card has arrived in the current phase. -/
def allArrived (g : GateSt) (d : GateDef) : Bool := decide (d.members &&& g.arrived = d.members)

/-! ### What an opening starts -/

/-- The loss check (R271): a non-finite loss aborts with cause 1, a failed read with cause 7 (R472). -/
def readLoss (s : State) : State :=
  match readDev (ownLt s).lossAddr 4 .clean s with
  | .ok s bs =>
    let s : State := { s with led := { s.led with lossRead := true } }
    if isFin32 (BitVec.ofNat 32 (leNat bs)) then s else reportAbort 1 0xFFFF s
  | .notBacked s => engineFails 0xFFFF s
  | .failed s => engineFails 0xFFFF s

/-- The opening of a card gate: LOSSGATE's first, a layer's check for the k-th opening of its gate (R271), and the next
schedule slot at SLOTGATE (R237). -/
def cardGateOpens (num phase : Nat) (s : State) : State :=
  let lt := ownLt s
  let s := if lt.lossChk && decide (num = lt.lossGate) && decide (phase = 1) then readLoss s else s
  let ks := (layerNumbers lt).filter fun k => (layerEnt lt k).any fun e => decide (e.gate = num)
  let s := match ks[phase - 1]? with
    | none => s
    | some k => setLayerRun k { layerRun s k with checking := true } s
  if num = s.plan.plan.slotGate then nextSlot s else s

/-- A gate opens: the phase increments, the arrival count returns to 0 (R206). -/
def openGate (k : Nat) (d : GateDef) (s : State) : State :=
  let g := getGate s k
  let s := setGate k { g with phase := g.phase + 1, arrived := 0, cards := [], sent := false } s
  if d.scope = 3 then cardGateOpens d.num (g.phase + 1) s else s

/-! ### System-scope gates (R334) -/

/-- The cards that carry a logical card ID and have not failed. -/
def planCards (s : State) : List Nat :=
  (List.range (torusCards s)).filter fun c => (logicalOf s c).isSome && !(failedCards s).contains c

/-- The cards just below this one on the gate tree of a HOME card. -/
def treeBelow (s : State) (home : Nat) : List Nat :=
  ((planCards s).filterMap fun c => if c = cardId s then none else routeBefore s (cardId s) home (torusCards s) c).eraseDups

/-- The entry by which this card's units name a system gate. -/
def sysGate (s : State) (home num : Nat) : Option GateDef :=
  (s.units.phys.flatMap fun pu => pu.2.gateTab.map fun ge => GateDef.of ge.2.toNat).find? fun d =>
    decide (d.scope = 4) && decide (d.home = home) && decide (d.num = num)

/-- CARDS of a system gate: this card's entry, or where it has none, what the arrivals of other cards name. -/
def gateCards (g : GateSt) (d : Option GateDef) : Nat := (d.map (·.cards)).getD g.want

/-- Whether arrivals combine up the gate tree: every card of the plan takes part. A relaying spare card knows the plan's cards
from the logical map (R311, R334). -/
def onTree (s : State) (g : GateSt) (d : Option GateDef) : Bool := decide (gateCards g d = logicalCards s)

/-- HOME releases a gate: to every card whose arrival it holds, and here. -/
def releaseGate (k home num : Nat) (d : Option GateDef) (s : State) : State :=
  let s := (getGate s k).cards.foldl (fun s c => toCardId c (.gateRelease home num) s) s
  match d with
  | some d => openGate k d s
  | none => setGate k {} s

/-- Go on with a system gate once this card's members, if any, and every card it waits for have arrived. HOME counts itself only
where it takes part. -/
def systemGate (home num : Nat) (s : State) : State :=
  let k := sysKey home num
  let g := getGate s k
  let d := sysGate s home num
  let own := match d with
    | none => true
    | some d => allArrived g d
  if !own || g.sent then s
  else if onTree s g d then
    match cardOf s home with
    | none => s
    | some h =>
      if (treeBelow s h).all g.cards.contains then
        (if h = cardId s then releaseGate k home num d s
        else match hopOf s (cardId s) h with
          | none => s
          | some c => toCardId c (.gateArrival home num (gateCards g d)) (setGate k { g with sent := true } s))
      else s
  else if some home = myLogical s then
    (if gateCards g d ≤ g.cards.length + b01 d.isSome then releaseGate k home num d s else s)
  else toCard home (.gateArrival home num (gateCards g d)) (setGate k { g with sent := true } s)

/-! ### Arrivals of units -/

/-- Logical unit `l` arrives at a gate (R206). -/
def arrive (l : Nat) (d : GateDef) (s : State) : State :=
  let k := gateKey l d
  let g := getGate s k
  let g := { g with arrived := g.arrived ||| BitVec.ofNat 64 (1 <<< l), counts := Sparse.modify 0 g.counts l (· + 1) }
  let s := setGate k g s
  if allArrived g d then (if d.scope = 4 then systemGate d.home d.num s else openGate k d s) else s

/-- Whether a member may pass: the gate's phase equals its own arrival count. -/
def mayPass (l : Nat) (d : GateDef) (s : State) : Bool :=
  decide ((getGate s (gateKey l d)).phase = (getGate s (gateKey l d)).count l)

/-! ### The gate that opens a job's first step (R24, R218) -/

/-- Leave the start gate: with every card of one plan the first step may open; where a card differs, every card reports
code 18 and stays plan-loaded. -/
def startGateOpens (differs : Option Nat) (s : State) : State :=
  if !s.led.startGate then s
  else match differs with
    | none => { s with led := { s.led with startGate := false } }
    | some c =>
      let s : State := { s with plan := { s.plan with result := 18, resUnit := 0xFF, resItem := c, resDet := 0 } }
      endJob s

/-- An arrival at the start gate from a logical card, at the coordinator: with every card present SYSID, CARDS and the
committed step are compared with those of the lowest card (R218, R375); then an unconfirmed tree edge counts (R321). -/
def startArrival (card sysid cards committed : Nat) (bad : Option Nat) (s : State) : State :=
  if !amCoordinator s then s
  else
    let s := match bad with
      | none => s
      | some c => badEdge c s
    let xs := (s.led.startArr.filter fun x => decide (x.1 ≠ card)) ++ [(card, sysid, cards, committed)]
    let live := liveCards s
    if live.all fun l => xs.any fun x => decide (x.1 = l) then
      let of (l : Nat) : Option (Nat × Nat × Nat) := (xs.find? fun x => decide (x.1 = l)).map (·.2)
      let bad := (live.find? fun l => decide (of l ≠ of (live.headD 0))).orElse fun _ => s.fab.badEdge
      toCards live (.startRelease bad) { s with led := { s.led with startArr := [] } }
    else { s with led := { s.led with startArr := xs } }

/-! ### The gate operations of the control slot, by logical unit `l` (R200, R206) -/

/-- GARR: a second arrival in one phase is held until the gate opens. -/
def opGarr (g l : Nat) : SlotFn := fun p s =>
  let d := gateDef (getUnit s p) g
  if (getGate s (gateKey l d)).has l then .wait (.gate g) else .ok (arrive l d s)

/-- GWAIT. -/
def opGwait (g l : Nat) : SlotFn := fun p s =>
  if mayPass l (gateDef (getUnit s p) g) s then .ok s else .wait (.gate g)

/-- GSYNC: GARR, then GWAIT. While it waits, its hold says that its arrival is counted. -/
def opGsync (g l : Nat) : SlotFn := fun p s =>
  let d := gateDef (getUnit s p) g
  let pass (s : State) : OpRes := if mayPass l d s then .ok s else .arrived s (.sync g)
  if (getUnit s p).hold = some (.sync g) then pass s
  else if (getGate s (gateKey l d)).has l then .wait (.gate g)
  else pass (arrive l d s)

/-! ### Gate messages -/

/-- A gate arrival acts (R218, R334): at HOME, at a parent of the gate tree, or at the coordinator. -/
def gateArrived (src : BitVec 14) (g : GateMsg) (s : State) : State :=
  match g with
  | .gate home num cards =>
    let k := sysKey home.toNat num.toNat
    let x := getGate s k
    let x := { x with want := cards.toNat, cards := if x.cards.contains src.toNat then x.cards else x.cards ++ [src.toNat] }
    systemGate home.toNat num.toNat (setGate k x s)
  | .start sysid cards n bad => match logicalOf s src.toNat with
    | none => s
    | some l => startArrival l sysid.toNat cards.toNat n.toNat (bad.map (·.toNat)) s
  | .startOpen _ => s

/-- A gate release acts (R218, R334): relayed to the cards below, and the gate opens here. -/
def gateReleased (g : GateMsg) (s : State) : State :=
  match g with
  | .gate home num _ =>
    let k := sysKey home.toNat num.toNat
    if (getGate s k).sent then releaseGate k home.toNat num.toNat (sysGate s home.toNat num.toNat) s else s
  | .startOpen differs => startGateOpens (differs.map (·.toNat)) s
  | .start _ _ _ _ => s

/-- While the card is halted gate messages are recorded (R336). -/
def gateMessage (e : GateEv) (f : State → State) (s : State) : State :=
  if s.keep.dev = .halted ∧ s.keep.mirror = false then { s with fab := { s.fab with recorded := s.fab.recorded ++ [e] } } else f s

/-! ### Meanings -/

/-- GATE_ARRIVAL (R218, R334, R336). -/
def execGateArrival (h : TpHdr) (g : GateMsg) (s : State) : Res :=
  .next (hear h 0x02 (gateMessage (.arrival h.src g) (gateArrived h.src g)) s)

/-- GATE_RELEASE (R218, R334, R336). -/
def execGateRelease (h : TpHdr) (g : GateMsg) (s : State) : Res := .next (hear h 0x03 (gateMessage (.release g) (gateReleased g)) s)

end Sys2Proof.Machine
end

