-- ==== Sys2Proof/Machine/PlanImage.lean ====
section
/-! DEFINITION. The plan image as it lies in a plan area: header, section table and the records of the card-wide sections
(R211 to R215, R234, R238, R264 to R267, R317 to R319, R340). -/

namespace Sys2Proof.Machine

/-! ### Card-wide sections -/

/-- Barge placement (R234). -/
def PlaceEnt.of (x : Nat) : PlaceEnt :=
  { first := bits x 20 0, count := bits x 41 21 + 1, home := bits x 45 42, tier := bit x 46, pin := bit x 47, keep := bit x 48,
    adopt := bit x 49, snap := bit x 50 }

def placeEnts (bs : Bytes) : List PlaceEnt := (records 8 (bs.drop 64)).map PlaceEnt.of

/-- Prefetch schedule (R238). -/
def SchedEnt.of (x : Nat) : SchedEnt :=
  { kind := bits x 1 0, slot := bits x 31 16, span := bits x 47 32, first := bits x 84 64, count := bits x 105 85 + 1,
    vaddr := bits x 191 128, nexp := bits x 207 192, stride := bits x 228 208 }

def schedEnts (bs : Bytes) : List SchedEnt := (records 32 (bs.drop 32)).map SchedEnt.of

/-- Multicast trees and rings (R317 to R319). -/
def TreeRec.of (x : Nat) : TreeRec :=
  { tree := bits x 11 0, role := bits x 13 12, detach := bit x 14, parent := bits x 29 16, lunit := bits x 45 40, lch := bits x 53 48,
    child := (List.range (bits x 35 32)).map fun i => bits x (77 + 14 * i) (64 + 14 * i) }

def RingRec.of (x : Nat) : RingRec :=
  { ring := bits x 9 0, dim := bits x 17 16, member := (List.range (bits x 14 10 + 1)).map fun i => bits x (77 + 14 * i) (64 + 14 * i) }

def treeRecs (bs : Bytes) : List Nat := (records 64 (bs.drop 64)).take (leAt bs 0 2)
def ringRecs (bs : Bytes) : List Nat := (records 64 (bs.drop (64 + 64 * leAt bs 0 2))).take (leAt bs 2 2)

/-- Layer table (R264 to R267). -/
def LayerEnt.of (x : Nat) : LayerEnt :=
  let f (lo : Nat) : W32 := BitVec.ofNat 32 (bits x (lo + 31) lo)
  { firstt := bits x 15 0, nt := bits x 31 16, opt := bits x 33 32, lean := bit x 34, surgeAct := bit x 35, msr := bit x 36,
    gate := bits x 43 38, lrmul := f 64, b1 := f 96, b2 := f 128, eps := f 160, wd := f 192, clip := f 224, surge := f 256,
    bs := f 288, warm := bits x 335 320, kinit := signed 8 (bits x 343 336) }

def TensorEnt.of (x : Nat) : TensorEnt :=
  { tag := bits x 15 0, fact := bit x 16, rows := bits x 63 32, cols := bits x 95 64, grad := bits x 191 128,
    master := bits x 255 192, m := bits x 319 256, sm := bits x 383 320, work := bits x 447 384 }

/-- The records of a layer table as numbers: points, layers, tensors. -/
def tabPoints (bs : Bytes) : List Nat := (records 16 (bs.drop 64)).take (bits (leAt bs 0 8) 37 33)
def tabLayers (bs : Bytes) : List Nat :=
  (records 64 (bs.drop (64 + 16 * bits (leAt bs 0 8) 37 33))).take (leAt bs 0 2)
def tabTensors (bs : Bytes) : List Nat :=
  (records 64 (bs.drop (64 + 16 * bits (leAt bs 0 8) 37 33 + 64 * leAt bs 0 2))).take (leAt bs 2 2)

def LayerTab.of (bs : Bytes) : LayerTab :=
  let h := leAt bs 0 64
  { mode := bit h 32, lossGate := bits h 43 38, lossChk := bit h 44, lossAddr := bits h 127 64, stepConst := bits h 191 128,
    lstate := bits h 255 192, clipg := BitVec.ofNat 32 (bits h 287 256),
    points := (tabPoints bs).map fun x => (bits x 63 0, BitVec.ofNat 32 (bits x 95 64)),
    layers := (tabLayers bs).map LayerEnt.of, tensors := (tabTensors bs).map TensorEnt.of }

/-- Twin map (R340). -/
def TwinMap.of (bs : Bytes) : TwinMap :=
  let h := leAt bs 0 128
  { partner := bits h 14 0, custody := bit h 15, pgBytes := bits h 127 64, mblock := bits h 191 128, mscales := bits h 255 192,
    msBytes := bits h 319 256, custAddr := bits h 383 320, ringBytes := bits h 415 384, plMeas := bits h 767 512,
    ptab := if bits h 14 0 = 0x7FFF then {} else LayerTab.of (bs.drop 128) }

/-- Held-scale declarations and tracked tags (R214). -/
def HeldDecl.of (x : Nat) : HeldDecl :=
  { tag := bits x 15 0, blocks := bits x 63 32, table := bits x 127 64, init := bits x 135 128, adopt := bit x 136 }

/-- The card-wide contents of an image. -/
def planOf (s : State) (area : Nat) : PlanSt :=
  let h := imgHeader s area
  let sec (k : Nat) : Bytes := secBytes s area k 0xFF
  let pl := leAt (sec 0x10) 0 64
  let sc := leAt (sec 0x11) 0 32
  let ro := leAt (sec 0x12) 0 64
  let job := leAt (sec 0x17) 0 128
  { card := bits h 175 160, cards := bits h 191 176, sysid := bits h 319 192, toolver := bits h 351 320,
    meas := shake256 (imgBytes s area 0 (256 + 64 * bits h 63 48)) 64,
    ltMeas := (((imgSections s area).find? fun x => decide (x.kind = 0x13)).map (·.meas)).getD 0,
    pondGiB := (if bits pl 47 32 = 0 then 64 else bits pl 47 32), lapool := bits pl 63 48,
    lateb := (if bits pl 79 64 = 0 then 100 else bits pl 79 64), place := placeEnts (sec 0x10),
    sps := bits sc 15 0, slotGate := bits sc 21 16, lead0 := bits sc 47 32, leadMin := bits sc 63 48, leadMax := bits sc 79 64,
    sched := schedEnts (sec 0x11), redlo := bits ro 79 64, redhi := bits ro 95 80,
    trees := (treeRecs (sec 0x12)).map TreeRec.of, rings := (ringRecs (sec 0x12)).map RingRec.of,
    lt := LayerTab.of (sec 0x13), tw := TwinMap.of (sec 0x14), held := (records 32 (sec 0x15)).map HeldDecl.of,
    tags := records 2 (sec 0x16), split := bits job 15 0, fill := bits job 23 16, bwait := bits job 39 24,
    ringBase := bits job 127 64, ringSlot := bits job 159 128, ringSlots := bits job 175 160,
    ndescs := ((List.range 64).map fun l => (records 64 (secBytes s area 5 l)).length).sum }

end Sys2Proof.Machine
end

