-- ==== Sys2Proof/Machine/Reduction.lean ====
section
/-! DEFINITION. The reduction unit: exact sums, extremes, and their reads (R142 to R145, R198). -/

namespace Sys2Proof.Machine

/-- The fields of a reduction record (R198). -/
structure RRec where
  reg   : Nat
  ext   : Bool
  n     : Nat
  k     : Nat
  fmt   : Nat
  raw   : Bool
  w     : Nat
  base  : Nat
  w5    : Nat
  deriving DecidableEq, Repr

/-- The reduction tag that a record names (R198). -/
def RRec.tag (r : RRec) : Nat := r.w5 % 2 ^ 16

/-- Decode a reduction record; reserved bits set are invalid (R192). Bits of W2 that the rule does not name are
reserved: [21] among them. W5 is the tag, or all of it the value of an immediate source (R193). -/
def rrec (w : List Nat) : Option RRec :=
  let c := wd w 2
  if 2 ^ 27 ≤ c ∨ bit c 21 = true ∨ 2 ^ 14 ≤ wd w 3 ∨ (2 ^ 16 ≤ wd w 5 ∧ decodeOw (wd w 0) ≠ some .imm) then none
  else some { reg := bits c 2 0, ext := bit c 3, n := bits c 17 4 + 1, k := bits c 20 18, fmt := bits c 25 22,
              raw := bit c 26, w := wd w 3 + 1, base := wd w 4, w5 := wd w 5 }

/-- COUNT holds at this value once reached (R143). -/
def countMax : Nat := 2 ^ 42 - 1

def satCount (n : Nat) : BitVec 42 := BitVec.ofNat 42 (min n countMax)

/-- Add one value into an accumulator (R142). -/
def Acc.add (a : Acc) (x : Num) : Acc :=
  let a := { a with count := satCount (a.count.toNat + 1) }
  match x with
  | .nan => { a with nan := true, neg0 := false }
  | .inf s => if s then { a with ninf := true, neg0 := false } else { a with pinf := true, neg0 := false }
  | .fin s m e =>
    { a with sum := a.sum + BitVec.ofInt 320 (sgn s (atExp m e (-149))),
             neg0 := a.neg0 && decide (m = 0) && s }

/-- The exact value of SUM. -/
def Acc.sumNum (a : Acc) : Num :=
  let x := a.sum.toInt
  if x = 0 then .fin (a.neg0 && decide (a.count ≠ 0)) 0 0 else .fin (decide (x < 0)) x.natAbs (-149)

/-- Read an accumulator into a format (R143): code and counts, underflow never among them. -/
def Acc.read (a : Acc) (f : Nat) : Nat × Tally :=
  let full := decide (a.count.toNat = countMax)
  if a.nan || (a.pinf && a.ninf) || full then
    ((convertPlain f .rne false .nan).1, if full && !a.nan && !a.pinf && !a.ninf then Tally.nonfinOne else {})
  else if a.pinf then convertPlain f .rne false (.inf false)
  else if a.ninf then convertPlain f .rne false (.inf true)
  else
    let r := convertPlain f .rne false a.sumNum
    (r.1, { r.2 with under := 0 })

/-- The 48 raw bytes of an accumulator (R143). Of byte 40, NAN is bit 0, PINF bit 1, NINF bit 2 and NEG0 bit 3: the rule
names them in this order without saying which is which (DESIGN CHOICE, log entry 159). -/
def Acc.raw (a : Acc) : Bytes :=
  let b (x : Bool) := if x then 1 else 0
  leBytes 40 a.sum.toNat ++ leBytes 1 (pack [(1, b a.nan), (1, b a.pinf), (1, b a.ninf), (1, b a.neg0)]) ++
    leBytes 6 a.count.toNat ++ [0]

/-- Add 48 raw bytes exactly (R145, RADDRAW). -/
def Acc.addRaw (a : Acc) (bs : Bytes) : Acc :=
  let fl := leAt bs 40 1
  { sum := a.sum + BitVec.ofNat 320 (leAt bs 0 40),
    nan := a.nan || bit fl 0, pinf := a.pinf || bit fl 1, ninf := a.ninf || bit fl 2, neg0 := a.neg0 && bit fl 3,
    count := satCount (a.count.toNat + leAt bs 41 6) }

/-- The start value of an extremum of a kind (R144). -/
def extStart (max : Bool) : Ext :=
  { v := if max then 0xFF800000#32 else 0x7F800000#32, x := 0x7FFFFFFF#32 }

/-- Whether `y` beats `v` (R100, R144): −0 below +0. -/
def beats (max : Bool) (y v : Num) : Bool := if max then !(v.aboveEq y) else !(y.aboveEq v)

/-- Add one value at an index (R144). -/
def Ext.add (max : Bool) (r : Ext) (y : Num) (i : W32) : Ext :=
  let code := BitVec.ofNat 32 (fp32.convert .rne false y).1
  if y.isNan then (if !r.firstNan || i.slt r.x then { v := 0x7FC00000#32, x := i, firstNan := true } else r)
  else if r.firstNan then r
  else
    let v := fp32.decode r.v.toNat
    if beats max y v || (!(beats max v y) && i.slt r.x) then { v := code, x := i } else r

/-- The source elements of a reduction with their participation: TAP's own, or a source under mask k. -/
def redSource (r : RRec) (o : Option Operand) (u : UnitSt) : Fetch (List (Num × Bool) × Nat) :=
  match o with
  | some .tap => match u.tap with
    | none => .fault 2
    | some t =>
      .ok u (((t.elems.take r.n).zipIdx.map fun x => (elemVal t.fmt x.1.1.toNat 127, x.1.2 && maskBit u.old r.k x.2)), t.cycles)
  | some o =>
    if !vecFmt r.fmt then .fault 2
    else match fetchElems u o r.fmt r.n r.w5 with
      | .wait h => .wait h
      | .fault c => .fault c
      | .ok u es =>
        .ok u ((es.zipIdx.map fun x => (elemVal r.fmt x.1.1 127, maskBit u.old r.k x.2)), cdiv r.n 512)
  | none => .fault 2

def getAcc (e : Eng) (k : Nat) : Acc := Sparse.get {} e.acc k
def setAcc (e : Eng) (k : Nat) (a : Acc) : Eng := { e with acc := Sparse.set {} e.acc k a }
def getExt (e : Eng) (k : Nat) : Ext := Sparse.get {} e.ext k
def setExt (e : Eng) (k : Nat) (a : Ext) : Eng := { e with ext := Sparse.set {} e.ext k a }

/-- Count the cycles of the reduction slot (R145). -/
def redBusy (p cycles : Nat) (s : State) : State := countRun 0x5021 (p + 1) cycles s

/-- A reduction over all elements into a register of the unit. -/
def redAll (f : RRec → List (Num × Bool) → Eng → Eng) (w : List Nat) (p : Nat) (s : State) : OpRes :=
  match rrec w with
  | none => .fault 2
  | some r =>
    let u := getUnit s p
    if u.napVec then .wait .notReady
    else match redSource r (decodeOw (wd w 0)) u with
      | .wait h => .wait h
      | .fault c => .fault c
      | .ok u es => .ok (redBusy p es.2 (setUnit p { u with cur := f r es.1 u.cur } s))

/-- RSUM. -/
def redSum (r : RRec) (es : List (Num × Bool)) (e : Eng) : Eng :=
  setAcc e r.reg (es.foldl (fun a x => if x.2 then a.add x.1 else a) (getAcc e r.reg))

/-- An extremum register as an operation of one kind finds it: a cleared one holds that kind's start (R144). -/
def Ext.started (max : Bool) (x : Ext) : Ext := if x.cleared then extStart max else x

/-- RMAX, RMIN, RARG: the index of an element is the index base plus its number. -/
def redExt (max : Bool) (r : RRec) (es : List (Num × Bool)) (e : Eng) : Eng :=
  setExt e r.reg (es.zipIdx.foldl (fun a x =>
    if x.1.2 then a.add max x.1.1 (BitVec.ofNat 32 (r.base + x.2)) else a) ((getExt e r.reg).started max))

/-- Split into segments of `w`. -/
def segments {α : Type} (w : Nat) : Nat → List α → List (List α)
  | 0, _ => []
  | k + 1, xs => xs.take w :: segments w k (xs.drop w)

/-- A segmented reduction (R145): one result per segment, in format `outF`. -/
def redSeg (outF : RRec → Nat) (f : RRec → List (Num × Bool) → Nat × Tally) (w : List Nat) (p : Nat) (s : State) : OpRes :=
  match rrec w with
  | none => .fault 2
  | some r =>
    let u := getUnit s p
    if u.napVec then .wait .notReady
    else match redSource r (decodeOw (wd w 0)) u, decodeOw (wd w 1) with
      | .wait h, _ => .wait h
      | .fault c, _ => .fault c
      | .ok _ _, none => .fault 2
      | .ok u es, some dst =>
        let rs := (segments r.w (cdiv es.1.length r.w) es.1).map (f r)
        let t := rs.foldl (fun (t : Tally) x => t.add x.2) {}
        match storeElems u .reduction dst false { fmt := outF r, codes := rs.map fun x => (x.1, true), scales := [] } with
        | .wait h => .wait h
        | .fault c => .fault c
        | .ok u _ =>
          let cycles := if decodeOw (wd w 0) = some .tap then es.2
            else if r.w < 32 then cdiv r.n (16 * r.w) else es.2
          .ok (redBusy p cycles (chargeTally u.rtag.toNat t (setUnit p (u.flag t) s)))

/-- The extremum of a segment, indices counted from its start. -/
def segExt (max : Bool) (es : List (Num × Bool)) : Ext :=
  es.zipIdx.foldl (fun a x => if x.1.2 then a.add max x.1.1 (BitVec.ofNat 32 x.2) else a) (extStart max)

def segSum (r : RRec) (es : List (Num × Bool)) : Nat × Tally :=
  Acc.read (es.foldl (fun a x => if x.2 then a.add x.1 else a) {}) r.fmt

/-- An extremum in a format: code and counts, underflow never among them (R119, R143). -/
def extCode (f : Nat) (x : Ext) : Nat × Tally :=
  let c := convertPlain f .rne false (fp32.decode x.v.toNat)
  (c.1, { c.2 with under := 0 })

def segBest (max : Bool) (r : RRec) (es : List (Num × Bool)) : Nat × Tally := extCode r.fmt (segExt max es)

def segArg (_ : RRec) (es : List (Num × Bool)) : Nat × Tally := ((segExt true es).x.toNat, {})

/-- RADDRAW (R145). -/
def redAddRaw (w : List Nat) (p : Nat) (s : State) : OpRes :=
  match rrec w, decodeOw (wd w 0) with
  | some r, some (.lock pair off) =>
    let u := getUnit s p
    if u.napVec then .wait .notReady
    else match fetchLock u pair off 48 with
      | .wait h => .wait h
      | .fault c => .fault c
      | .ok u bs => .ok (redBusy p 1 (setUnit p { u with cur := setAcc u.cur r.reg ((getAcc u.cur r.reg).addRaw bs) } s))
  | _, _ => .fault 2

/-- What RRD reads: the bytes, and counts. An extremum register gives its value, or its index in format INT32; raw it
gives both, value first (DESIGN CHOICE, log entry 9). A register that no operation has used since its clear reads as
cleared for maximum (DESIGN CHOICE, log entry 9). -/
def rrdBytes (r : RRec) (e : Eng) : Bytes × Tally :=
  if r.ext then
    let x := (getExt e r.reg).started true
    if r.raw then (leBytes 4 x.v.toNat ++ leBytes 4 x.x.toNat, {})
    else if r.fmt = 12 then (leBytes 4 x.x.toNat, {})
    else
      let c := extCode r.fmt x
      (packCodes r.fmt [c.1], c.2)
  else
    let a := getAcc e r.reg
    if r.raw then (a.raw, {}) else
      let c := a.read r.fmt
      (packCodes r.fmt [c.1], c.2)

/-- Entries of a core's inbound mailbox: 16 (R150). -/
def postIn (u : UnitSt) (c : Nat) (xs : List W64) : Option UnitSt :=
  let k := Sparse.get {} u.cores c
  if 16 < k.inbox.length + xs.length then none
  else some { u with cores := Sparse.set {} u.cores c { k with inbox := k.inbox ++ xs } }

/-- RRD (R143 to R145). -/
def redRrd (w : List Nat) (p : Nat) (s : State) : OpRes :=
  match rrec w, decodeOw (wd w 1) with
  | some r, some dst =>
    let u := getUnit s p
    if (!r.raw && !vecFmt r.fmt && !(r.ext && decide (r.fmt = 12))) = true then .fault 2
    else if u.napVec then .wait .notReady
    else
      let b := rrdBytes r u.old
      let put : Fetch Unit := match dst with
        | .reg v => if 32 * 2048 < v * 2048 + b.1.length then .fault 2
            else .ok { u with cur := setRegBytes v 0 b.1 u.cur } ()
        | .lock pair off => storeLock u .reduction pair off b.1.length (fun _ => b.1)
        | .vout => .ok { u with vout := { u.vout with data := u.vout.data ++ b.1 } } ()
        | .mbx c => match postIn u c ((chunks 8 6 b.1).map fun x => BitVec.ofNat 64 (leNat x)) with
            | some u => .ok u ()
            | none => .wait .notReady
        | _ => .fault 2
      match put with
      | .wait h => .wait h
      | .fault c => .fault c
      | .ok u _ => .ok (redBusy p 1 (chargeTally u.rtag.toNat b.2 (setUnit p (u.flag b.2) s)))
  | _, _ => .fault 2

/-- RCLR (R142, R144). -/
def redClr (w : List Nat) (p : Nat) (s : State) : OpRes :=
  match rrec w with
  | none => .fault 2
  | some r =>
    let u := getUnit s p
    if u.napVec then .wait .notReady
    else
      let cur := if r.ext then setExt u.cur r.reg { cleared := true } else setAcc u.cur r.reg {}
      .ok (redBusy p 1 (setUnit p { u with cur := cur } s))

/-- RTAG (R145). -/
def redTag (w : List Nat) (p : Nat) (s : State) : OpRes :=
  match rrec w with
  | none => .fault 2
  | some r =>
    let u := getUnit s p
    if u.napVec then .wait .notReady
    else .ok (redBusy p 1 (setUnit p { u with rtag := BitVec.ofNat 16 r.tag } s))

end Sys2Proof.Machine
end

