-- ==== Sys2Proof/Machine/Sequencer.lean ====
section
/-! DEFINITION. The control slot (R200, R201), the end of a unit's step (R188, R203), the watchdogs (R204) and unit faults
(R22, R368). -/

namespace Sys2Proof.Machine

def getL (u : UnitSt) (n : Nat) : W32 := Sparse.get 0 u.l n
def setL (n : Nat) (v : W32) (u : UnitSt) : UnitSt := { u with l := Sparse.set 0 u.l n v }

/-- Index register n; I0 reads 0. -/
def getI (u : UnitSt) (n : Nat) : W32 := if n = 0 then 0 else Sparse.get 0 u.i n

/-- Write index register n; a write to I0 is ignored. -/
def setI (n : Nat) (v : W32) (u : UnitSt) : UnitSt := if n = 0 then u else { u with i := Sparse.set 0 u.i n v }

def getH (u : UnitSt) (n : Nat) : W64 := Sparse.get 0 u.h n
def setH (n : Nat) (v : W64) (u : UnitSt) : UnitSt := { u with h := Sparse.set 0 u.h n v }

/-- The bundle's taken branch. -/
def takeBranch (target : Nat) (u : UnitSt) : UnitSt := { u with branch := some target }

/-- The value of a branch condition (R201) on the unit as the bundle found it (R133): none while it waits. -/
def condHolds (u : UnitSt) : Cond → Option Bool
  | .always => some true
  | .lZero n => some (decide (getL u n.val = 0))
  | .iZero n => some (decide (getI u n.val = 0))
  | .saturated => some u.fSat
  | .nonFinite => some u.fNonfin
  | .underflow => some u.fUnder
  | .chEnd k => if (getCh u k.val).full then some (getCh u k.val).isEnd else none
  | .chFault k => if (getCh u k.val).full then some (getCh u k.val).fault else none

/-- Put a mailbox entry into a register of the control slot (R150). -/
def setCtl (r : CtlReg) (v : W64) (u : UnitSt) : UnitSt :=
  match r with
  | .l n => setL n.val (v.setWidth 32) u
  | .i n => setI n.val (v.setWidth 32) u
  | .h n => setH n.val v u

/-- A register of the control slot, zero-extended (R200). -/
def getCtl (u : UnitSt) (r : CtlReg) : W64 :=
  match r with
  | .l n => (getL u n.val).setWidth 64
  | .i n => (getI u n.val).setWidth 64
  | .h n => getH u n.val

/-- The array group's weights are lost, its pans kept (R86). A load from a weight port that no pass has taken is lost with them,
and its bytes stay in the port (DESIGN CHOICE, log entry 196). -/
def napArray (u : UnitSt) : UnitSt := { u with napArr := true, arrays := [] }

/-- The registers of a vector and reduction domain are lost (R139). -/
def Eng.napped (e : Eng) : Eng := { e with v := [], k := [], acc := [], ext := [] }

def napVector (u : UnitSt) : UnitSt := { u with napVec := true, old := u.old.napped, cur := u.cur.napped, vtag := 0xFFFF }

/-- Whether every context is IDLE or PARKED. -/
def contextsIdle (u : UnitSt) : Bool := u.ctxs.all fun kc => decide (kc.2.st = .idle) || decide (kc.2.st = .parked)

/-- The measurements of a unit's step (R203; 0x3410, 0x3810, 0x3811, 0x3890, 0x3891, 0x5011, 0x5022, 0x5030, 0x5032, 0x5040,
0x5041) and its corrected errors since boot (0x5012, 0x5023, 0x5033, 0x5043). -/
def countTiming (p : Nat) (t : UnitTiming) (s : State) : State :=
  let k := p + 1
  let s := countBoot 0x5012 k t.panFixed (countBoot 0x5023 k t.vecFixed s)
  let s := countBoot 0x5033 k t.lockFixed (countBoot 0x5043 k t.seqFixed s)
  let active := (List.range 4).filter fun a => decide (0 < Sparse.get 0 s.stat.run (issueKey p a))
  let s := countRun 0x3811 2 (t.cycles * active.length)
    { s with stat := { s.stat with run := Sparse.modify 0 s.stat.run (cyclesKey p) (· + t.cycles) } }
  let s := countRun 0x5040 k (t.notReady + t.bankWait) (countRun 0x5041 k t.gateWait (countRun 0x5022 k t.mailbox s))
  let s := countRun 0x3890 3 t.gateWait (countRun 0x3890 4 t.notReady (countRun 0x3410 4 t.bankWait (countRun 0x5030 k t.bankWait s)))
  let s := countRun 0x3810 3 t.bubbles (countRun 0x5011 k t.bubbles (countRun 0x3810 4 t.frontWait s))
  countRun 0x3891 2 t.lateWake (countRun 0x3410 5 t.spaceWait (countRun 0x5032 k t.spaceWait s))

/-! ### The operations of the control slot (R200) -/

/-- BCNZ. -/
def opBcnz (l target : Nat) : SlotFn := onUnit fun u =>
  let v := getL u l - 1
  let u := setL l v u
  if v = 0 then u else takeBranch target u

/-- ILEN: waits until the chamber is FULL, as the bundle found it (R133). -/
def opIlen (u0 : UnitSt) (r ch : Nat) : SlotFn := fun p s =>
  let c := getCh u0 ch
  if c.full then .ok (modUnit p (setI r (BitVec.ofNat 32 c.len)) s) else .wait .notReady

/-- BCOND (R201). -/
def opBcond (u0 : UnitSt) (c : Cond) (target : Nat) (invert : Bool) : SlotFn := fun p s =>
  match condHolds u0 c with
  | none => .wait .notReady
  | some b => .ok (if b != invert then modUnit p (takeBranch target) s else s)

/-- SRECV (R150): waits while the mailbox is empty. An entry for the batcher at its front is not the sequencer's: it
leaves only when the batcher takes it. -/
def opSrecv (core : Nat) (r : CtlReg) : SlotFn := fun p s =>
  let s := drainOut p core mbxDepth s
  let c := getCore (getUnit s p) core
  match c.outbox with
  | [] => .wait .notReady
  | v :: vs =>
    if v.msb then .wait .notReady
    else .ok (drainOut p core mbxDepth (modUnit p (setCtl r v) (setCore p core { c with outbox := vs } s)))

/-- SSEND (R150): waits while the mailbox is full. -/
def opSsend (core : Nat) (r : CtlReg) : SlotFn := fun p s =>
  let u := getUnit s p
  let c := getCore u core
  if mbxDepth ≤ c.inbox.length then .wait .notReady
  else .ok (setCore p core { c with inbox := c.inbox ++ [getCtl u r] } s)

/-- BWAIT (R92): holds until a buffer of the batcher is closed (log entry 36), as the bundle found it (R133). -/
def opBwait (u0 : UnitSt) : SlotFn := fun _ s => if (closedBuf u0).isSome then .ok s else .wait .batch

/-- NAP (R208): issued operations are complete when the next bundle issues. -/
def opNap (array vec : Bool) : SlotFn := fun p s =>
  .ok (countRun 0x3891 1 1 (modUnit p (fun u =>
    let u := if array then napArray u else u
    if vec then napVector u else u) s))

/-- STEPEND (R188): waits until every context is IDLE or PARKED; then the unit's step ends and its counts enter the
statistics. -/
def opStepend (t : UnitTiming) : SlotFn := fun p s =>
  if contextsIdle (getUnit s p) then .ok (countTiming p t (modUnit p (fun u => { u with ended := true }) s))
  else .wait .notReady

/-! ### Meanings of the watchdogs and of unit faults -/

/-- Whether the watchdog counts a hold: a batch wait on an empty buffer is exempt (R204). -/
def watched (u : UnitSt) : Bool :=
  match u.hold with
  | some .notReady => true
  | some (.port _) => true
  | some .batch => !(Sparse.get {} u.batch u.bopen).rows.isEmpty
  | _ => false

/-- SEQUENCER_WATCHDOG (R204). It does not run on a halted card (R336). -/
def execSequencerWatchdog (unit : Fin 64) (s : State) : Res :=
  .next (match physUnit s unit.val with
    | none => s
    | some p => if decide (s.keep.dev ≠ .halted) && watched (getUnit s p) then unitFaultAt p 1 s else s)

/-- Whether a unit waits at a gate. -/
def atGate (u : UnitSt) : Bool :=
  match u.hold with
  | some (.gate _) => true
  | some (.sync _) => true
  | _ => false

/-- GATE_LIMIT_EXPIRY (R204): a unit fault if the gate limit is on. On a halted card no gate wait is counted (R336). -/
def execGateLimitExpiry (unit : Fin 64) (s : State) : Res :=
  .next (match physUnit s unit.val with
    | none => s
    | some p => if s.keep.dev ≠ .halted ∧ num s 0x3888 2 ≠ 0 ∧ atGate (getUnit s p) = true then unitFaultAt p 3 s else s)

/-- UNIT_FAULT (R22, R84, R141, R157, R165, R185, R368): an uncorrectable error of a sequencer memory is recorded as cause 4. -/
def execUnitFault (p : Fin 72) (kind : UnitFaultKind) (s : State) : Res :=
  .next (if logicalUnit s p.val < 64 then unitFaultAt p.val (if kind = .sequencerEcc then 4 else 0) s else s)

end Sys2Proof.Machine
end

