-- ==== Sys2Proof/Machine/PlanCheck.lean ====
section
/-! DEFINITION. The checks of an activation (R216, steps 1 to 5): header, section table, measurements, variant, and
every unit's sections. -/

namespace Sys2Proof.Machine

/-- A failed check as 0x3882 reports it (R217): result, logical unit, item, detail. -/
structure PlanErr where
  code   : Nat
  unit   : Nat
  item   : Nat
  detail : Nat
  deriving DecidableEq, Repr

/-- The number (from 1) of the first condition that fails. -/
def firstFalse (cs : List Bool) : Option Nat := (cs.zipIdx.find? fun c => !c.1).map (·.2 + 1)

/-! ### Steps 1 to 4 -/

/-- Header fields in bit order: bit offset and whether the field passes (R211, R216). -/
def headerFields (h : Nat) : List (Nat × Bool) := [
  (0, decide (bits h 31 0 = 0x4C504D47)), (32, decide (bits h 47 32 = 1)),
  (48, decide (1 ≤ bits h 63 48) && decide (bits h 63 48 ≤ 4096)), (64, decide (bits h 127 64 ≤ 4294967296)),
  (128, [2, 4].contains (bits h 135 128)), (136, [4, 16].contains (bits h 143 136)), (144, [1, 2].contains (bits h 151 144)),
  (152, decide (bits h 159 152 = 0)), (160, decide (bits h 175 160 ≤ 16383)),
  (176, decide (1 ≤ bits h 191 176) && decide (bits h 191 176 ≤ 16384)), (352, decide (bits h 2047 352 = 0))]

def headerErr (h : Nat) : Option PlanErr :=
  match (headerFields h).find? fun f => !f.2 with
  | some f => some { code := 3, unit := 0xFF, item := f.1, detail := 0 }
  | none => if bits h 191 176 ≤ bits h 175 160 then some { code := 3, unit := 0xFF, item := 160, detail := 0 } else none

def Sec.overlaps (x y : Sec) : Bool :=
  decide (0 < x.len) && decide (0 < y.len) && decide (x.off < y.off + y.len) && decide (y.off < x.off + x.len)

/-- Whether an entry of the section table is valid after those before it (R211, R212). -/
def secOk (size : Nat) (before : List Sec) (x : Sec) : Bool :=
  !x.rsv && ((unitKinds.contains x.kind && decide (x.unit < 64)) || (cardKinds.contains x.kind && decide (x.unit = 0xFF))) &&
    decide (x.off % 64 = 0) && decide (x.off + x.len ≤ size) &&
    before.all fun y => !(decide (y.kind = x.kind) && decide (y.unit = x.unit)) && !x.overlaps y

/-- The sections that an image must have: kind and unit. -/
def neededSecs : List (Nat × Nat) :=
  (unitKinds.flatMap fun k => (List.range 64).map fun l => (k, l)) ++ cardKinds.map fun k => (k, 0xFF)

/-- The logical unit that 0x3882:03 names for an entry: that of a per-unit kind, else 0xFF (DEDUCED, log entry 89). -/
def secUnit (xs : List Sec) (i : Nat) : Nat :=
  match xs[i]? with
  | some x => if unitKinds.contains x.kind && decide (x.unit < 64) then x.unit else 0xFF
  | none => 0xFF

def tableErr (size : Nat) (xs : List Sec) : Option PlanErr :=
  match (List.range xs.length).find? fun i => match xs[i]? with
      | some x => !secOk size (xs.take i) x
      | none => false with
  | some i => some { code := 4, unit := secUnit xs i, item := i, detail := 0 }
  | none => (neededSecs.find? fun n => !xs.any fun x => decide (x.kind = n.1) && decide (x.unit = n.2)).map fun n =>
      { code := 4, unit := n.2, item := xs.length, detail := n.1 }

/-- Damage of the header or of the section table: the measurement check fails, with no section to name (R359; DEDUCED,
log entry 156). -/
def damageErr (d : Option Nat) : Option PlanErr := d.map fun _ => { code := 5, unit := 0xFF, item := 0, detail := 0 }

/-- Every section's measurement (R211); one with a damaged block fails it (R359). -/
def measErr (s : State) (area : Nat) (xs : List Sec) : Option PlanErr :=
  (firstBad xs (Sec.good s area)).map fun i =>
    { code := 5, unit := secUnit xs i, item := i, detail := 0 }

/-- The variant requirements (R4). -/
def variantErr (v : Variant) (h : Nat) : Option PlanErr :=
  (firstFalse [decide (bits h 135 128 ≤ v.arrays), decide (bits h 143 136 ≤ v.ports), decide (bits h 151 144 ≤ v.reservoirTiB)]).map
    fun i => { code := 6, unit := 0xFF, item := i, detail := 0 }

/-- The unit counts (R15). -/
def regionErr (s : State) : Option PlanErr :=
  ((List.range 8).find? (regionShort s)).map fun g => { code := 7, unit := 0xFF, item := g, detail := 0 }

/-! ### Bundles (R190, R191, R199, R200) -/

/-- Whether a number has no bit set outside some ranges `[hi:lo]`. -/
def onlyBits (x : Nat) (rs : List (Nat × Nat)) : Bool :=
  decide (rs.foldl (fun y r => y - bits x r.1 r.2 * 2 ^ r.2) x = 0)

def vectorOps : List Nat :=
  [0x10, 0x11, 0x12, 0x13, 0x14, 0x15, 0x16, 0x18, 0x19, 0x1A, 0x20, 0x21, 0x30, 0x31, 0x32, 0x33, 0x34, 0x35, 0x36, 0x37, 0x38,
   0x39, 0x3A, 0x3B, 0x40, 0x50, 0x51, 0x52, 0x53, 0x58, 0x59, 0x60, 0x61, 0x62, 0x63, 0x64, 0x65, 0x70]

/-- An array, vector or reduction slot (R191). -/
def slotOk (ops : List Nat) (x : Nat) : Bool :=
  (decide (x % 256 = 0) || ops.contains (x % 256)) && decide (bits x 23 8 < 2048) && decide (x < 2 ^ 27)

/-- The stream slot (R199). -/
def streamSlotOk (x : Nat) : Bool :=
  match x % 256 with
  | 0 => decide (x = 0)
  | 1 => onlyBits x [(7, 0), (16, 8), (28, 17)]
  | 2 => decide (bits x 19 17 ≤ 5) &&
      (if bit x 20 then onlyBits x [(7, 0), (16, 8), (20, 17), (23, 21), (37, 37)]
       else decide (bits x 36 21 < 2048) && onlyBits x [(7, 0), (37, 8)])
  | 3 => onlyBits x [(16, 0)]
  | 4 => onlyBits x [(16, 0)]
  | 5 => onlyBits x [(16, 0)]
  | 6 => onlyBits x [(16, 0)]
  | _ => false

/-- The control slot (R200, R201); `n` is the number of bundles, which bounds a branch target. -/
def controlSlotOk (n x : Nat) : Bool :=
  let mail := decide (bits x 11 10 ≤ 2) && (decide (bits x 11 10 = 0) || decide (bits x 15 12 ≤ 7)) && onlyBits x [(15, 0)]
  match x % 256 with
  | 0x00 => decide (x = 0)
  | 0x01 => onlyBits x [(17, 0)]
  | 0x02 => onlyBits x [(17, 0)]
  | 0x03 => onlyBits x [(17, 0)]
  | 0x08 => onlyBits x [(43, 0)]
  | 0x09 => onlyBits x [(43, 0)]
  | 0x0A => onlyBits x [(42, 0)]
  | 0x0B => onlyBits x [(42, 0)]
  | 0x0C => onlyBits x [(42, 0)]
  | 0x0D => onlyBits x [(16, 0)]
  | 0x0E => onlyBits x [(26, 0)] && decide (bits x 26 11 < 2048)
  | 0x10 => onlyBits x [(19, 0)] && decide (bits x 19 8 < n)
  | 0x11 => onlyBits x [(23, 0)] && decide (bits x 23 12 < n)
  | 0x12 =>
    let c := bits x 13 8
    let r := bits x 19 14
    decide (c ≤ 7) && decide (bits x 31 20 < n) && onlyBits x [(19, 0), (32, 20)] &&
      (if c = 1 then decide (r < 16) else if c = 2 then decide (r < 8) else decide (6 ≤ c) || decide (r = 0))
  | 0x18 => mail
  | 0x19 => mail
  | 0x20 => onlyBits x [(7, 0)]
  | 0x28 => onlyBits x [(41, 0)]
  | 0x29 => onlyBits x [(9, 0)]
  | 0x30 => onlyBits x [(7, 0)]
  | 0x31 => onlyBits x [(7, 0)]
  | _ => false

/-- Whether a bundle is valid, its branch target apart. -/
def bundleOk (x : Nat) : Bool :=
  slotOk [1, 2, 3, 4, 5] (bits x 55 0) && slotOk vectorOps (bits x 119 56) && slotOk ((List.range 12).map (· + 1)) (bits x 159 120) &&
    streamSlotOk (bits x 199 160) && controlSlotOk 4096 (bits x 255 200)

/-- Whether a bundle's branch target is one of the program's `n` bundles. -/
def branchOk (n x : Nat) : Bool := controlSlotOk n (bits x 255 200)

/-- A NAP window of at least 2,200 cycles (R208). -/
def napOk (x : Nat) : Bool :=
  let c := bits x 255 200
  decide (c % 256 ≠ 0x28) || decide (2200 ≤ bits c 41 10)

/-! ### Records as the bundles use them (R128, R192 to R198, R70, R123, R111) -/

/-- The uses that bundles make of records: slot (0 array, 1 vector, 2 reduction), operation, record. -/
def recordUses (prog : List Nat) : List (Nat × Nat × Nat) :=
  (prog.flatMap fun x => [(0, bits x 55 0), (1, bits x 119 56), (2, bits x 159 120)]).filterMap fun sx =>
    if sx.2 % 256 = 0 then none else some (sx.1, sx.2 % 256, bits sx.2 23 8)

/-- An element source of `n` elements of format `f` (R132); with `grp`, its register group lies within v31 (R128). -/
def srcOk (grp : Bool) (f n x : Nat) : Bool :=
  match decodeOw x with
  | some (.reg v) => !grp || decide (v * 2048 + elemBytes f n ≤ 65536)
  | some (.seg v w) => !grp || decide (v * 2048 + elemBytes f (cdiv n w) ≤ 65536)
  | some .imm => true
  | some (.lock _ _) => true
  | some .vp0 => true
  | some .vp1 => true
  | some (.mbx _) => true
  | _ => false

/-- An element destination. -/
def dstOk (grp : Bool) (f n x : Nat) : Bool :=
  match decodeOw x with
  | some (.reg v) => !grp || decide (v * 2048 + elemBytes f n ≤ 65536)
  | some (.lock _ _) => true
  | some .vout => true
  | _ => false

def maskOw (x : Nat) : Bool := match decodeOw x with | some (.mask _) => true | _ => false
def lockOw (x : Nat) : Bool := match decodeOw x with | some (.lock _ _) => true | _ => false

/-- Words of a record. -/
def wordsOf (x : Nat) : List Nat := (List.range 16).map fun k => x / 2 ^ (32 * k) % 2 ^ 32

/-- The array records of R196. A format that no row of R70 names is an invalid field, and reported before a pair that R70 does
not permit (DESIGN CHOICE, log entry 197). -/
def arrayRecOk (v : Variant) (op : Nat) (w : List Nat) : Bool :=
  let mask (m : Nat) : Bool := (maskArrays m).all fun a => decide (a < v.arrays)
  match op with
  | 1 => decide (wd w 1 < 2 ^ 8) && mask (wd w 1 % 16) && (pairClass (bits (wd w 1) 7 4)).isSome &&
      (lockOw (wd w 0) || decide (decodeOw (wd w 0) = some .arrPort))
  | 2 => onlyBits (wd w 1) [(0, 0), (7, 4)] && (pairClass (bits (wd w 1) 7 4)).isSome &&
      decide (fmtWidth (bits (wd w 1) 7 4) ≠ 32) && decide (fmtWidth (bits (wd w 1) 7 4) ≠ 6)
  | 3 => decide (wd w 4 < 2 ^ 30) && mask (wd w 4 % 16) && (pairClass (bits (wd w 4) 24 21)).isSome &&
      (pairClass (bits (wd w 4) 28 25)).isSome &&
      (maskArrays (wd w 4 % 16)).all fun a =>
        lockOw (wd w a) || decide (decodeOw (wd w a) = some .arrPort) || decide (decodeOw (wd w a) = some .batch)
  | 4 => decide (wd w 1 < 2 ^ 26) && decide (wd w 2 < 2 ^ 24) && decide (wd w 4 < 2 ^ 16) && decide (wd w 1 % 4 < v.arrays) &&
      drainFmt (bits (wd w 1) 21 18) &&
      (lockOw (wd w 0) || decide (decodeOw (wd w 0) = some .vp1) || decide (decodeOw (wd w 0) = some .vout))
  | _ => decide (wd w 1 < 2 ^ 18) && decide (wd w 1 % 4 < v.arrays) && lockOw (wd w 0)

/-- The vector records of R197. -/
def vectorRecOk (grp : Bool) (op : Nat) (w : List Nat) : Bool :=
  match vrec w with
  | none => false
  | some r =>
    let srcs (f k : Nat) : Bool := (List.range k).all fun i => srcOk grp f r.n (wd w (i + 1))
    let float (k : Nat) : Bool := vecFmt r.inF && vecFmt r.outF && srcs r.inF k && dstOk grp r.outF r.n (wd w 0)
    if op = 0x13 then float 3
    else if [0x10, 0x11, 0x12, 0x16, 0x18, 0x19, 0x58].contains op then float 2
    else if [0x14, 0x15, 0x50, 0x51, 0x52, 0x53, 0x59].contains op then float 1
    else if op = 0x1A then vecFmt r.inF && decide (r.cmp ≤ 4) && srcs r.inF 2 && maskOw (wd w 0)
    else if op = 0x20 then decide (r.inF < 13) && !isMx r.inF && srcs r.inF 2 && dstOk grp r.inF r.n (wd w 0)
    else if op = 0x21 then decide (r.inF < 13) && srcs r.inF 1 && dstOk grp r.inF r.n (wd w 0)
    else if 0x30 ≤ op ∧ op ≤ 0x3A then srcs 12 2 && dstOk grp 12 r.n (wd w 0)
    else if op = 0x3B then decide (r.cmp ≤ 4) && srcs 12 2 && maskOw (wd w 0)
    else if op = 0x40 then decide (r.inF < 13) && decide (r.outF < 13) && srcs r.inF 1 && dstOk grp r.outF r.n (wd w 0)
    else if op ≤ 0x62 then maskOw (wd w 0) && maskOw (wd w 1) && maskOw (wd w 2)
    else if op = 0x63 then maskOw (wd w 0) && maskOw (wd w 1)
    else if op = 0x64 then maskOw (wd w 0)
    else if op = 0x65 then maskOw (wd w 0) && srcs 12 1
    else true

/-- The reduction records of R198. -/
def reductionRecOk (grp : Bool) (op : Nat) (w : List Nat) : Bool :=
  match rrec w with
  | none => false
  | some r =>
    let src := (decide (decodeOw (wd w 0) = some .tap)) ||
      (vecFmt r.fmt && srcOk grp r.fmt r.n (wd w 0))
    let segs := cdiv r.n r.w
    if op = 2 ∨ op = 6 ∨ op = 7 then src && vecFmt r.fmt && dstOk grp r.fmt segs (wd w 1)
    else if op = 8 then src && dstOk grp 12 segs (wd w 1)
    else if op ≤ 5 then src
    else if op = 9 then lockOw (wd w 0)
    else if op = 10 then
      (r.raw || vecFmt r.fmt || (r.ext && decide (r.fmt = 12))) &&
        (dstOk grp r.fmt 1 (wd w 1) || (match decodeOw (wd w 1) with | some (.mbx _) => true | _ => false))
    else true

/-- Whether a record passes for one of its uses; with `grp`, its register groups too. -/
def useOk (grp : Bool) (v : Variant) (recs : List Nat) (x : Nat × Nat × Nat) : Bool :=
  let w := wordsOf (recs.getD x.2.2 0)
  match x.1 with
  | 0 => arrayRecOk v x.2.1 w
  | 1 => vectorRecOk grp x.2.1 w
  | _ => reductionRecOk grp x.2.1 w

/-- The format pairs of a pass (R70, R123). -/
def pairUseOk (recs : List Nat) (x : Nat × Nat × Nat) : Bool :=
  let c := wd (wordsOf (recs.getD x.2.2 0)) 4
  decide (x.1 ≠ 0) || decide (x.2.1 ≠ 3) ||
    (pairOk (bits c 24 21) (bits c 28 25) && (!bit c 29 || epmanOk (bits c 24 21) (bits c 28 25)))

/-- The largest index of `n` elements in rows of `wr` with base `b` and stride `st`. -/
def lastIndex (b st wr n : Nat) : Nat :=
  max (b + (n - 1) / wr * st + (n - 1) % wr) (if wr ≤ n - 1 then b + ((n - 1) / wr - 1) * st + (wr - 1) else 0)

/-- Activation format and K_t of the passes that read the batch chamber. -/
def batchUses (recs : List Nat) (uses : List (Nat × Nat × Nat)) : List (Nat × Nat) :=
  uses.filterMap fun x =>
    let w := wordsOf (recs.getD x.2.2 0)
    if x.1 = 0 ∧ x.2.1 = 3 ∧ (maskArrays (wd w 4 % 16)).any (fun a => decide (decodeOw (wd w a) = some .batch)) = true then
      some (bits (wd w 4) 24 21, ktOf (bits (wd w 4) 24 21) (bits (wd w 4) 28 25)) else none

/-- Brine indices below 2^48 (R111): of every drain, and of every vector instruction but VTAG, whether it converts or not
(DESIGN CHOICE, log entry 192). -/
def brineUseOk (recs : List Nat) (x : Nat × Nat × Nat) : Bool :=
  let w := wordsOf (recs.getD x.2.2 0)
  match x.1 with
  | 0 => decide (x.2.1 ≠ 4) ||
      decide (lastIndex (wd w 3 + 2 ^ 32 * wd w 4) (wd w 5) 64 (64 * (bits (wd w 1) 17 10 + 1)) < 2 ^ 48)
  | 1 => match vrec w with
    | some r => decide (x.2.1 = 0x70) || decide (lastIndex r.base r.st r.wr r.n < 2 ^ 48)
    | none => true
  | _ => true

/-! ### Gate tables (R205) -/

def gateOk (l x : Nat) : Bool :=
  let d := GateDef.of x
  let span := match d.scope with | 0 => 4 | 1 => 8 | 2 => 16 | _ => 64
  decide (d.scope ≤ 4) && !bit x 3 && decide (bits x 63 41 = 0) && d.members.getLsbD l &&
    (List.range 64).all (fun m => !d.members.getLsbD m || decide (m / span = l / span)) &&
    (if d.scope = 4 then decide (1 ≤ d.cards) && decide (d.cards ≤ 16384) else decide (d.num < 64) && decide (d.home = 0) && decide (d.cards = 1))

/-- Whether two units' entries agree: one entry for each NUM of a scope, whatever its HOME, and no NUM shared by a cluster's and
a region's gate. -/
def gatesAgree (l x m y : Nat) : Bool :=
  let a := GateDef.of x
  let b := GateDef.of y
  (decide (gateKey l { a with home := 0 } ≠ gateKey m { b with home := 0 }) || decide (x = y)) &&
    !(decide (a.scope = 0) && decide (b.scope = 1) && decide (a.num = b.num) && decide (l / 8 = m / 8)) &&
    !(decide (a.scope = 1) && decide (b.scope = 0) && decide (a.num = b.num) && decide (l / 8 = m / 8))

/-! ### Core images (R213) -/

def coreOk (bs : Bytes) (c : Nat) : Bool :=
  decide (coreHeader bs c 0 % 2 = 0) && decide (coreHeader bs c 0 < 32768) && decide (coreHeader bs c 1 ≤ 32768) &&
    decide (coreHeader bs c 2 ≤ 65536) && decide (coreHeader bs c 3 = 0)

/-! ### Chamber maps (R158, R159) -/

def chamberOverlap (a b : ChDef) : Bool :=
  decide (a.row0 < b.row0 + b.nrows) && decide (b.row0 < a.row0 + a.nrows) && decide (a.bank0 < b.bank0 + b.bw) &&
    decide (b.bank0 < a.bank0 + a.bw)

/-- The broadcast slots of R76. -/
def slotShape (d : ChDef) (k : Nat) : Bool :=
  decide (d.bank0 = 30) && decide (d.bw = 2) && decide (d.nrows = 64) && decide (d.row0 = (k - 30) * 64) && d.pair

/-- Sizes that the batch chamber may have: 64 rows of the activation format of every pass that reads it (`fs`: activation
format and K_t), or of some activation format where no pass does (R159; DEDUCED, log entry 162). -/
def batchSizeOk (fs : List (Nat × Nat)) (size : Nat) : Bool :=
  let formats := (List.range 12).filter fun f => (pairClass f).isSome
  if fs.isEmpty then formats.any fun f => [64, 128, 256].any fun kt => decide (size = 64 * rowPitch f kt)
  else fs.all fun f => decide (size = 64 * rowPitch f.1 f.2)

def chamberOk (fs : List (Nat × Nat)) (m : List Nat) (k : Nat) : Bool :=
  let x := m.getD k 0
  let d := ChDef.of x
  let of (j : Nat) : ChDef := ChDef.of (m.getD j 0)
  let mate := of (k ^^^ 1)
  !bit x 7 && !bit x 15 && !bit x 31 && decide (bits x 63 38 = 0) && decide (d.kind ≤ 5) && decide (bits x 23 21 ≤ 5) &&
    decide (d.writer ≤ 4) && (decide (d.kind = 1) || decide (d.writer = 0)) &&
    (decide (d.kind = 0) || (
      decide (d.bank0 % d.bw = 0) && decide (d.row0 + d.nrows ≤ 128) && decide (d.bank0 + d.bw ≤ 32) &&
      (List.range 64).all (fun j => decide (j = k) || decide ((of j).kind = 0) || !chamberOverlap d (of j)) &&
      (!d.pair || (mate.pair && decide (mate.kind = d.kind) && decide (mate.nrows = d.nrows) && decide (mate.bw = d.bw) &&
        decide (mate.writer = d.writer) && (decide (d.writer ≠ 4) || decide (mate.core = d.core)) &&
        decide (bits (m.getD (k ^^^ 1) 0) 30 28 = bits x 30 28))) &&
      (decide (d.kind ≠ 4) || ((decide (k = 30) || decide (k = 31)) && slotShape d k)) &&
      (decide (d.kind ≠ 5) || (d.pair && batchSizeOk fs d.size && (List.range 64).all fun j => decide (j / 2 = k / 2) || decide ((of j).kind ≠ 5)))))

/-! ### Descriptors (R170, R173 to R179) -/

/-- The class that a source and a destination call for (R170). -/
def classOf (src dst : Nat) : Option Nat :=
  if src = 0 ∧ [0, 1, 2, 3, 7, 8].contains dst then some 0
  else if [2, 3, 4].contains src ∧ dst = 4 then some 1
  else if src = 1 ∧ [0, 1, 2, 3, 8].contains dst then some 2
  else if [0, 2, 3, 4].contains src ∧ (dst = 5 ∨ dst = 6) then some 2
  else none

/-- An address field of R173 for its kind: 0 local, 1 remote memory, 2 chamber (a multiple of 64, R153), 3 unused. -/
def addrFieldOk (a kind : Nat) : Bool :=
  match kind with
  | 0 => decide (a < 2 ^ 42) && decide (a % 16 = 0)
  | 1 => decide (a % 16 = 0)
  | 2 => decide (a < 2 ^ 18) && decide (a % 64 = 0)
  | _ => true

/-- The fields of one convolution dimension (R178, R179). -/
def convDimOk (d i : Nat) : Bool :=
  if i < cDims d then decide (1 ≤ cSize d i) && decide (1 ≤ cOut d i) && decide (cTap d i < cKer d i)
  else decide (cField d i 37 0 = 0)

def kindOk (m : List Nat) (d : Nat) : Bool :=
  let kindAt (k : Nat) : Nat := (ChDef.of (m.getD k 0)).kind
  match dKind d with
  | 0 => decide (16 ≤ bits d 231 192) && decide (bits d 231 192 % 16 = 0) && decide (bits d 511 232 = 0)
  | 1 => decide (16 ≤ dLen0 d) && decide (dLen0 d % 16 = 0) && decide (bits d 255 224 = 0) &&
      (List.range 4).all fun i => decide (dStr d (i + 1) % 16 = 0) && decide (bits d (63 + 192 + 64 * (i + 1)) (56 + 192 + 64 * (i + 1)) = 0)
  | 2 => decide (16 ≤ dRowlen d) && decide (dRowlen d % 16 = 0) && decide (dRowstride d % 16 = 0) && decide (bits d 511 327 = 0) &&
      (if dHdridx d then decide (dSrc d = 2) && decide (kindAt (dSch d) = 3) else [1, 2].contains (kindAt (dIch d))) &&
      (decide (dDst d ≠ 0) || decide (kindAt (dDch d) ≠ 3) || decide (dRowlen d ≤ 16320))
  | 3 => decide (dSrc d = 0) && decide (1 ≤ cDims d) && decide (bits d 197 195 ≤ 4) && decide (bits d 199 198 ≤ 2) &&
      decide (bits d 223 200 % 64 = 0) && decide (1 ≤ bits d 239 224) && (List.range 3).all (convDimOk d) &&
      decide (bits d 255 240 * cKt d < bits d 239 224) && decide (1 ≤ bits d 433 410) && decide (bits d 511 492 = 0) &&
      decide (((bits d 409 370 + bits d 433 410 : Nat) : Int) ≤ (List.range (cDims d)).foldl (fun a i => a * cOut d i) 1)
  | _ => false

/-- Bank rows of a pool burst, its header included, against the pool (R179). -/
def poolBurstOk (m : List Nat) (d : Nat) : Bool :=
  let c := ChDef.of (m.getD (dDch d) 0)
  decide (dDst d ≠ 0) || decide (c.kind ≠ 3) ||
    decide ((if dKind d = 2 then cdiv (dRowlen d) 64 else dBurst d) + 1 ≤ c.rows)

def descOk (v : Variant) (m : List Nat) (d : Nat) : Bool :=
  let at_ (k : Nat) : ChDef := ChDef.of (m.getD k 0)
  let src := dSrc d
  let dst := dDst d
  decide (dKind d ≤ 3) && decide (src ≤ 4) && decide (dst ≤ 8) && decide (classOf src dst = some (dClass d)) && !bit d 15 &&
    decide (bits d 47 44 = 0) && decide (bits d 191 184 = 0) &&
    (if dst = 1 ∨ dst = 2 then decide (dPort d < v.arrays) else if dst = 7 then decide (dPort d ≤ 1) else decide (dPort d = 0)) &&
    addrFieldOk (dSaddr d) (if src ≤ 2 then src else 3) &&
    addrFieldOk (dDaddr d) (match dst with | 0 => 2 | 4 => 0 | 5 => 1 | 6 => 0 | _ => 3) &&
    (decide (src ≠ 2) || [1, 2, 3].contains (at_ (dSch d)).kind) &&
    (decide (dst ≠ 0) || (decide ((at_ (dDch d)).kind = 1) && decide ((at_ (dDch d)).writer = 0)) || [2, 3].contains (at_ (dDch d)).kind) &&
    (decide (dst ≠ 7) || decide ((at_ (30 + dPort d)).kind = 4)) &&
    (decide (dst ≠ 8) || (List.range 64).any fun k => decide ((at_ k).kind = 5)) && kindOk m d && poolBurstOk m d

/-! ### One unit's sections (R216 step 5) -/

/-- Whether a section's length is a whole number of entries, at most `n` of them. -/
def lenOk (u : UnitImg) (kind size n : Nat) : Bool :=
  let len := u.sizes.getD (kind - 1) 0
  decide (len % size = 0) && decide (len ≤ size * n)

/-- The first failed check of a unit: result code and item. `gs` are the gate entries of the other units. -/
def unitErr (v : Variant) (l : Nat) (u : UnitImg) (gs : List (Nat × Nat)) : Option (Nat × Nat) :=
  let uses := recordUses u.prog
  let useErr (code : Nat) (ok : Nat × Nat × Nat → Bool) : Option (Nat × Nat) :=
    (uses.find? fun x => !ok x).map fun x => (code, x.2.2)
  let item (code : Nat) (o : Option Nat) : Option (Nat × Nat) := o.map fun i => (code, i)
  let len (code : Nat) (ok : Bool) : Option (Nat × Nat) := if ok then none else some (code, 0)
  let coreLen := decide (u.core.length = coreOffset u.core 4)
  ([len 8 (lenOk u 1 32 4096), item 8 (firstBad u.prog bundleOk), len 9 (lenOk u 2 64 2048),
    item 9 (firstBad u.recs fun x => decide (bits x 511 484 = 0) && decide (bits x 483 480 ≠ 15)),
    useErr 9 (useOk false v u.recs), item 8 (firstBad u.prog (branchOk u.prog.length)), useErr 9 (useOk true v u.recs), useErr 10 (pairUseOk u.recs), item 8 (firstBad u.prog napOk), len 11 (lenOk u 3 16 1024),
    item 11 (firstBad u.gates fun x => gateOk l x && gs.all (fun y => gatesAgree l x y.1 y.2) && u.gates.all (gatesAgree l x l)),
    len 12 (decide (64 ≤ u.core.length)), item 12 (firstBad (List.range 4) (coreOk u.core)), len 12 coreLen,
    len 13 (lenOk u 5 64 4096), item 13 (firstBad u.descs (descOk v u.chmap)),
    len 14 (decide (u.sizes.getD 5 0 = 512)), item 14 (firstBad (List.range 64) (chamberOk (batchUses u.recs uses) u.chmap)),
    useErr 15 (brineUseOk u.recs)]).findSome? id

/-- R216 step 5 over the 64 units. -/
def unitsErr (s : State) (area : Nat) : Option PlanErr :=
  let gs (l : Nat) : List (Nat × Nat) := (List.range l).flatMap fun m => (records 16 (secBytes s area 3 m)).map fun y => (m, y)
  (List.range 64).findSome? fun l => (unitErr s.strap.variant l (unitImg s area l) (gs l)).map fun e =>
    { code := e.1, unit := l, item := e.2, detail := 0 }

end Sys2Proof.Machine
end

