-- ==== Sys2Proof/Machine/Plan.lean ====
section
/-! DEFINITION. Activation and release of a plan (R216, R217, R219): the checks of the card-wide sections (R235, R269, R320,
R342, R474), loading, and what a new placement does to the barges (R236). -/

namespace Sys2Proof.Machine

/-! ### What the checks share -/

/-- Whether a number has no bit at or above the first position, or in the listed ranges. -/
def reservedZero (x top : Nat) (rs : List (Nat × Nat)) : Bool :=
  decide (x < 2 ^ top) && rs.all fun r => decide (bits x r.1 r.2 = 0)

def PlaceEnt.names (e : PlaceEnt) (b : Nat) : Bool := decide (e.first ≤ b) && decide (b < e.first + e.count)

/-- The entry that places a barge. -/
def placedBy (ps : List PlaceEnt) (b : Nat) : Option PlaceEnt := ps.find? fun e => e.names b

/-- Whether every barge of an address range is placed, by an entry that passes a test. -/
def placedOk (ps : List PlaceEnt) (ok : PlaceEnt → Bool) (addr n : Nat) : Bool :=
  (bargesOf addr n).all fun b => (placedBy ps b).any ok

def placed (ps : List PlaceEnt) (addr n : Nat) : Bool := placedOk ps (fun _ => true) addr n

/-- Whether two ranges have a byte in common. -/
def meets (a b : Nat × Nat) : Bool := decide (0 < a.2) && decide (0 < b.2) && decide (a.1 < b.1 + b.2) && decide (b.1 < a.1 + a.2)

/-- Whether no two ranges of a list have a byte in common. -/
def disjoint : List (Nat × Nat) → Bool
  | [] => true
  | r :: rs => rs.all (fun x => !meets r x) && disjoint rs

/-- Whether every unit, or (`every` false) some unit, declares a card-scope gate (R205). -/
def gateDeclared (s : State) (area : Nat) (every : Bool) (num : Nat) : Bool :=
  let has (l : Nat) : Bool := (records 16 (secBytes s area 3 l)).any fun x =>
    decide ((GateDef.of x).scope = 3) && decide ((GateDef.of x).num = num)
  if every then (List.range 64).all has else (List.range 64).any has

/-! ### Placement (R235) -/

/-- Reservoir frames of the groups in service, retired ones taken off. -/
def resvInService (s : State) : Nat :=
  let up := (List.range 8).filter fun g => decide (Sparse.get 0 s.mem.group g = 0)
  up.length * s.strap.variant.groupFrames - (s.mem.retR.filter fun f => up.contains (groupOf f)).length

/-- Barges that stand in the barge table and pass a test. -/
def bargesWhere (s : State) (ok : Nat → BargeEnt → Bool) : Nat := (s.mem.barges.filter fun b => ok b.1 b.2).length

/-- Barges of entries that pass a test. -/
def entryBarges (ps : List PlaceEnt) (ok : PlaceEnt → Bool) : Nat := ((ps.filter ok).map (·.count)).sum

/-- Whether a barge is adopted. -/
def adopted (ps : List PlaceEnt) (b : Nat) : Bool := (placedBy ps b).any (·.adopt)

/-- Basin frames that a placement needs in a stack (R235 condition 5), term by term as the rule lists them: an adopted
interleaved barge stands in two of them. -/
def basinNeed (s : State) (p : PlanSt) (k : Nat) : Nat :=
  2 + p.lapool + entryBarges p.place (fun e => !e.adopt && !e.tier && decide (e.home = k)) +
    bargesWhere s (fun b e => e.bfv && decide (e.bframe / 65536 = k) && adopted p.place b) +
    entryBarges p.place (fun e => decide (e.home = 8)) / 8

/-- Reservoir frames that a placement may need (R235 condition 6). -/
def resvNeed (s : State) (p : PlanSt) : Nat :=
  entryBarges p.place (fun e => !e.adopt && (e.tier || e.keep)) + bargesWhere s (fun b e => e.rfv && adopted p.place b)

/-- Conditions 1 to 8 of R235 on the placement section. -/
def placeConds (s : State) (p : PlanSt) (bs : Bytes) : List Bool :=
  let h := leAt bs 0 64
  let es := p.place
  let v := s.strap.variant
  [reservedZero h 80 [] && (records 8 (bs.drop 64)).all (fun x => decide (x < 2 ^ 51)) && es.all (fun e => decide (e.home ≤ 8)) &&
      decide (1 ≤ bits h 31 0) && decide (bits h 31 0 ≤ 65536) && decide (bs.length = 64 + 8 * bits h 31 0) &&
      decide (bits h 47 32 ≤ 1024) && decide (p.lapool ≤ 16384) && decide (bits h 79 64 ≤ 10000),
    es.all (fun e => decide (e.first + e.count ≤ planBarge v)) && disjoint (es.map fun e => (e.first, e.count)),
    es.all fun e => decide (e.home ≠ 8) || (decide (e.first % 8 = 0) && decide (e.count % 8 = 0) && !e.tier && e.pin),
    es.all fun e => !e.adopt || (List.range e.count).all fun i =>
      backed s (e.first + i) && decide ((barge s (e.first + i)).home = e.home),
    (List.range 8).all fun k => decide (basinNeed s p k + (s.mem.retB.filter fun f => decide (f / 65536 = k)).length ≤ 65536),
    decide (resvNeed s p + 4096 + 512 * p.pondGiB ≤ resvInService s),
    decide (2 * p.ringSlot + p.tw.pgBytes + 1073741824 ≤ p.pondGiB * 1073741824),
    placed es p.ringBase (p.ringSlots * p.ringSlot) && p.held.all fun d => placed es d.table (4 * d.blocks)]

/-- The barges that a schedule entry names: all experts of a lookahead entry. -/
def SchedEnt.all (e : SchedEnt) : List Nat :=
  if e.kind = 2 then (List.range e.nexp).flatMap fun i => (List.range e.count).map (e.first + i * e.stride + ·)
  else (List.range e.count).map (e.first + ·)

/-- Conditions 1 and 9 of R235 on the schedule section: its number and whether it holds. -/
def schedConds (s : State) (area : Nat) (p : PlanSt) (bs : Bytes) : List (Nat × Bool) :=
  let h := leAt bs 0 32
  let entry (e : SchedEnt) : Bool :=
    decide (e.kind ≤ 2) && decide (e.slot < p.sps) && (decide (e.kind = 1) || decide (1 ≤ e.span)) &&
      e.all.all (fun b => (placedBy p.place b).any fun x => !x.pin) &&
      (decide (e.kind ≠ 2) || (decide (1 ≤ e.nexp) && decide (e.vaddr % 64 = 0) && placed p.place e.vaddr (4 * e.nexp)))
  [(1, reservedZero h 128 [(31, 22), (95, 80)] && decide (bits h 127 96 ≤ 1048576) &&
      decide (bs.length = 32 + 32 * bits h 127 96) &&
      (records 32 (bs.drop 32)).all fun x => reservedZero x 229 [(15, 2), (63, 48), (127, 106)] && decide (bits x 1 0 ≠ 3)),
    (9, decide (2 ≤ p.sps) && decide (1 ≤ p.leadMin) && decide (p.leadMin ≤ p.lead0) && decide (p.lead0 ≤ p.leadMax) &&
      decide (p.leadMax ≤ p.sps - 1) && gateDeclared s area false p.slotGate && p.sched.all entry)]

/-! ### Layer tables (R269) -/

def finNonNeg (w : W32) : Bool := isFin32 w && !lt32 w 0
def unitBelow1 (w : W32) : Bool := finNonNeg w && lt32 w one32

/-- Length that a layer table's header calls for. -/
def tabLen (bs : Bytes) : Nat := 64 + 16 * bits (leAt bs 0 8) 37 33 + 64 * (leAt bs 0 2 + leAt bs 2 2)

/-- The layer entry that holds a tensor entry. -/
def layerOf (lt : LayerTab) (j : Nat) : Option LayerEnt :=
  lt.layers.find? fun e => decide (e.firstt ≤ j) && decide (j < e.firstt + e.nt)

/-- Condition 1. -/
def tabCond1 (bs : Bytes) (exactLen : Bool) (lt : LayerTab) : Bool :=
  reservedZero (leAt bs 0 64) 288 [(63, 45)] && (tabPoints bs).all (fun x => decide (x < 2 ^ 96)) &&
    (tabLayers bs).all (fun x => reservedZero x 344 [(37, 37), (63, 44)]) &&
    (tabTensors bs).all (fun x => reservedZero x 448 [(31, 17), (127, 96)]) &&
    decide (1 ≤ leAt bs 0 2) && decide (leAt bs 0 2 ≤ 4096) && decide (1 ≤ leAt bs 2 2) &&
    decide (1 ≤ bits (leAt bs 0 8) 37 33) && (!exactLen || decide (bs.length = tabLen bs)) &&
    (lt.points.zip (lt.points.drop 1)).all (fun ab => decide (ab.1.1 < ab.2.1)) && lt.points.all fun x => finNonNeg x.2

/-- Condition 2. -/
def tabCond2 (s : State) (area : Nat) (lt : LayerTab) : Bool :=
  let n := lt.tensors.length
  (List.range n).all (fun j => decide ((lt.layers.filter fun e => decide (e.firstt ≤ j) && decide (j < e.firstt + e.nt)).length = 1)) &&
    lt.layers.all (fun e =>
      decide (1 ≤ e.nt) && decide (e.firstt + e.nt ≤ n) && decide (e.opt ≠ 3) && (!e.lean || decide (e.opt ≠ 0)) &&
      unitBelow1 e.b1 && unitBelow1 e.b2 && unitBelow1 e.bs && isFin32 e.eps && lt32 0 e.eps &&
      finNonNeg e.lrmul && finNonNeg e.wd && finNonNeg e.clip && finNonNeg e.surge && gateDeclared s area true e.gate) &&
    gateDeclared s area true lt.lossGate

/-- The areas of a tensor: address, bytes, and whether training state. -/
def tensorAreas (e : LayerEnt) (t : TensorEnt) : List (Nat × Nat × Bool) :=
  [(t.grad, 4 * t.size, false), (t.master, 4 * t.size, true), (t.m, mBytes e * t.size, true),
    (t.sm, (if !hasSm e then 0 else if t.fact then 8 * (t.rows + t.cols) else 4 * t.size), true), (t.work, 2 * t.size, false)]

/-- The tensors of a table with their layers. -/
def tabPairs (lt : LayerTab) : List (LayerEnt × TensorEnt) :=
  lt.tensors.zipIdx.filterMap fun tj => (layerOf lt tj.2).map fun e => (e, tj.1)

/-- A training-state area: HOME 0 to 7 and SNAP 1. -/
def stateHome (e : PlaceEnt) : Bool := decide (e.home ≤ 7) && e.snap

/-- Areas of this card's own layer table. -/
def ownAreas (lt : LayerTab) : List (Nat × Nat) :=
  ((tabPairs lt).flatMap fun x => (tensorAreas x.1 x.2).map fun a => (a.1, a.2.1)) ++
    [(lt.stepConst, 64), (lt.lossAddr, 4), (lt.lstate, 32 * lt.layers.length)]

/-- Condition 3. The areas of the section are those of its tensors, STEPCONST, LOSSADDR and LSTATE. -/
def tabCond3 (ps : List PlaceEnt) (lt : LayerTab) : Bool :=
  let xs := tabPairs lt
  xs.all (fun x =>
    decide (1 ≤ x.2.rows) && decide (1 ≤ x.2.cols) && decide (x.2.size < 2 ^ 48) &&
      (!x.2.fact || (decide (x.1.opt = 2) && decide (2 ≤ x.2.rows) && decide (2 ≤ x.2.cols))) &&
      (tensorAreas x.1 x.2).all fun a => decide (a.1 % 64 = 0) && placedOk ps (fun e => !a.2.2 || stateHome e) a.1 a.2.1) &&
    disjoint (ownAreas lt)

/-- Condition 4, with the multiples that R264 gives (DEDUCED, log entry 92). -/
def tabCond4 (ps : List PlaceEnt) (lt : LayerTab) : Bool :=
  decide (lt.stepConst % 64 = 0) && decide (lt.lossAddr % 64 = 0) && decide (lt.lstate % 64 = 0) &&
    placed ps lt.stepConst 64 && placed ps lt.lossAddr 4 && placedOk ps (·.snap) lt.lstate (32 * lt.layers.length)

/-- Condition 5. -/
def tabCond5 (lt : LayerTab) : Bool := decide ((lt.tensors.map TensorEnt.size).sum < 2 ^ 40)

def layerConds (s : State) (area : Nat) (p : PlanSt) (bs : Bytes) : List Bool :=
  [tabCond1 bs true p.lt, tabCond2 s area p.lt, tabCond3 p.place p.lt, tabCond4 p.place p.lt, tabCond5 p.lt]

/-! ### Route section (R320) -/

/-- The descriptors of every unit's section. -/
def allDescs (s : State) (area : Nat) : List Nat := (List.range 64).flatMap fun l => records 64 (secBytes s area 5 l)

def routeConds (s : State) (area : Nat) (p : PlanSt) (bs : Bytes) : List Bool :=
  let h := leAt bs 0 64
  let hd := imgHeader s area
  let xyz := [bits h 39 32, bits h 47 40, bits h 55 48]
  let me := p.card
  [reservedZero h 96 [(63, 57)] && decide (leAt bs 0 2 ≤ 4096) && decide (leAt bs 2 2 ≤ 1024) &&
      decide (bs.length = 64 * (1 + leAt bs 0 2 + leAt bs 2 2)) &&
      (treeRecs bs).all (fun x => reservedZero x 176 [(15, 15), (31, 30), (39, 36), (47, 46), (63, 54)] &&
        decide (bits x 13 12 ≠ 3) && decide (bits x 35 32 ≤ 8)) &&
      (ringRecs bs).all (fun x => reservedZero x 512 [(15, 15), (63, 18)] && decide (1 ≤ bits x 14 10)),
    decide (xyz = [num s 0x2800 1, num s 0x2800 2, num s 0x2800 3]) && decide (b01 (bit h 56) = num s 0x2800 7) &&
      decide (p.cards ≤ bits h 39 32 * bits h 47 40 * bits h 55 48) && decide (bit h 56 = decide (bits hd 143 136 = 4)),
    decide ((p.trees.map (·.tree)).Nodup) && p.trees.all (fun t =>
      (decide (t.role ≠ 0) || decide (1 ≤ t.child.length)) && (decide (t.role ≠ 2) || t.child.isEmpty) &&
      decide (t.parent < p.cards) && (decide (t.role = 0) || decide (t.parent ≠ me)) &&
      t.child.all fun c => decide (c < p.cards) && decide (c ≠ me)),
    p.trees.all fun t => decide (t.role = 0) ||
      (let c := ChDef.of ((records 8 (secBytes s area 6 t.lunit)).getD t.lch 0)
       decide (c.kind = 1) && decide (c.writer = 0)),
    (allDescs s area).all fun d => decide (dDst d ≠ 6) || (match p.trees.find? fun t => decide (t.tree = dTree d) with
      | none => false
      | some t => decide (t.role = 0) && (!t.detach || decide (dSrc d = 0))),
    decide ((p.rings.map (·.ring)).Nodup) &&
      p.rings.all fun r => decide (r.member.Nodup) && r.member.all (fun c => decide (c < p.cards)) && r.member.contains me]

/-! ### Twin map (R342) -/

/-- The areas of a twin map: mirror areas, boundary block, held scales, and custody. -/
def mirrorAreas (tw : TwinMap) : List (Nat × Nat) :=
  ((tabPairs tw.ptab).flatMap fun x => ((tensorAreas x.1 x.2).filter (·.2.2)).map fun a => (a.1, a.2.1)) ++
    [(tw.ptab.lstate, 32 * tw.ptab.layers.length), (tw.mblock, 65536), (tw.mscales, tw.msBytes)] ++
    (if tw.custody then [(tw.custAddr, 4294967296)] else [])

def twinConds (s : State) (area : Nat) (p : PlanSt) (bs : Bytes) : List Bool :=
  let h := leAt bs 0 128
  let tw := p.tw
  let solo := decide (tw.partner = 0x7FFF)
  let own := ownAreas p.lt
  let pt := bs.drop 128
  let grads := (tw.ptab.tensors.map fun t => (t.grad, 4 * t.size))
  [reservedZero h 768 [(63, 16), (511, 416)] && decide (bs.length = if solo then 128 else 128 + tabLen pt),
    solo || (decide (tw.partner < p.cards) && decide (tw.partner ≠ p.card) && tabCond1 pt false tw.ptab &&
      tabCond2 s area tw.ptab && tabCond5 tw.ptab),
    solo || ((mirrorAreas tw).all (fun a => decide (a.1 % 64 = 0) && placedOk p.place (fun e => decide (e.home ≤ 7)) a.1 a.2) &&
      disjoint (mirrorAreas tw) && (mirrorAreas tw).all fun a => own.all fun b => !meets a b),
    solo || (grads.all (fun g => decide (tw.ringBytes ≤ g.1) && decide (g.1 + g.2 ≤ tw.pgBytes)) && disjoint grads),
    solo || !tw.custody || placedOk p.place (fun e => e.pin && e.tier) tw.custAddr 4294967296]

/-! ### Held scales, tags, job parameters (R474) -/

def heldConds (p : PlanSt) (bs : Bytes) : List Bool :=
  [decide (bs.length % 32 = 0) && decide (bs.length ≤ 32 * 65535) &&
      (records 32 bs).all (fun x => reservedZero x 137 [(31, 16)]),
    p.held.all fun d => decide (1 ≤ d.blocks) && decide (d.init ≤ 0xFE),
    decide ((p.held.map (·.tag)).Nodup),
    p.held.all (fun d => decide (d.table % 64 = 0)) && disjoint (p.held.map fun d => (d.table, 4 * d.blocks))]

def tagConds (p : PlanSt) (bs : Bytes) : List Bool :=
  [decide (bs.length % 2 = 0) && decide (bs.length ≤ 8192),
    (p.tags.zip (p.tags.drop 1)).all (fun ab => decide (ab.1 < ab.2)) && !p.tags.contains 0xFFFF]

def jobConds (p : PlanSt) (bs : Bytes) : List Bool :=
  [decide (bs.length = 128) && reservedZero (leAt bs 0 128) 176 [(63, 40)],
    [0x0844, 0x0A33, 0x0664, 0x0826].contains p.split,
    decide (1 ≤ p.fill) && decide (p.fill ≤ 64) && decide (1 ≤ p.bwait) && decide (p.bwait ≤ 1000),
    decide (p.ringBase % bargeBytes = 0) && decide (p.ringSlot ≠ 0) && decide (p.ringSlot % bargeBytes = 0) &&
      decide (2 ≤ p.ringSlots) && decide (p.ringSlots ≤ 1024)]

/-! ### Step 6 of R216 -/

/-- The number of the first condition of a card-wide section that fails. -/
def secErr (s : State) (area : Nat) (p : PlanSt) (x : Sec) : Option Nat :=
  let bs := x.bytes s area
  match x.kind with
  | 0x10 => firstFalse (placeConds s p bs)
  | 0x11 => ((schedConds s area p bs).find? fun c => !c.2).map (·.1)
  | 0x12 => firstFalse (routeConds s area p bs)
  | 0x13 => firstFalse (layerConds s area p bs)
  | 0x14 => firstFalse (twinConds s area p bs)
  | 0x15 => firstFalse (heldConds p bs)
  | 0x16 => firstFalse (tagConds p bs)
  | 0x17 => firstFalse (jobConds p bs)
  | _ => none

/-- The logical card ID that the image must carry (R311, R361). -/
def cardExpected (s : State) : Option Nat := s.plan.recruitAs.orElse fun _ => myLogical s

def cardWideErr (s : State) (area : Nat) : Option PlanErr :=
  let p := planOf s area
  if cardExpected s ≠ some p.card then some { code := 17, unit := 0xFF, item := p.card, detail := 0 }
  else (imgSections s area).zipIdx.findSome? fun xi =>
    (secErr s area p xi.1).map fun d => { code := 16, unit := 0xFF, item := xi.2, detail := d }

/-- Every check of R216, in order. -/
def planErr (s : State) (area : Nat) : Option PlanErr :=
  let h := imgHeader s area
  let xs := imgSections s area
  (damageErr (imgDamage s area 0 256)).orElse fun _ => (headerErr h).orElse fun _ =>
    (damageErr (imgDamage s area 256 (64 * bits h 63 48))).orElse fun _ =>
    (tableErr (bits h 127 64) xs).orElse fun _ => (measErr s area xs).orElse fun _ =>
    (variantErr s.strap.variant h).orElse fun _ => (regionErr s).orElse fun _ => (unitsErr s area).orElse fun _ => cardWideErr s area

/-! ### Loading (R216 step 7) -/

/-- One barge of an entry becomes fresh (R236), in a frame of its tier (R233). -/
def freshBarge (e : PlaceEnt) (s : State) (b : Nat) : State :=
  let base : BargeEnt := { tier := e.tier, zero := true, keep := e.keep, home := e.home, snap := e.snap,
                           state := if e.pin then 5 else if e.tier then 2 else 1 }
  if e.tier then
    match freeResv s with
    | none => s
    | some f => setBarge b { base with rframe := f, rfv := true } (tookResv f s)
  else
    match freeBasin s (if e.home = 8 then b % 8 else e.home) false with
    | none => s
    | some f => setBarge b { base with bframe := f, bfv := true } s

/-- The placement takes effect (R236): adopted barges keep their entries, all others are freed, and the other placed barges
become fresh. -/
def placeBarges (ps : List PlaceEnt) (s : State) : State :=
  let plan (b : Nat) : Bool := decide (planBarge s.strap.variant ≤ b)
  let s : State := { s with mem := { s.mem with barges := s.mem.barges.filter fun b => adopted ps b.1 || plan b.1 } }
  ps.foldl (fun s e => if e.adopt then s else ((List.range e.count).map (e.first + ·)).foldl (freshBarge e) s) s

/-- Held-scale tables start at INIT unless they are adopted (R214). -/
def initHeld (p : PlanSt) (s : State) : State :=
  p.held.foldl (fun s d =>
    if d.adopt then s
    else pokeDev d.table ((List.range d.blocks).flatMap fun _ => ({ scale := d.init, seen := 0xFF, ovf := false } : Held).toBytes) s) s

/-- The plan in force changes: card-wide contents, memory's slots and pond areas, the lead's start, and the pair (R29, R237,
R242, R253, R343). -/
def enterPlan (area : Nat) (p : PlanSt) (s : State) : State :=
  let other := 1 - area
  let s := if areaState s other = 3 then setArea other 1 s else s
  let s := setArea area 3 s
  let s : State := { s with
    plan := { s.plan with active := some area, plan := p, recruitAs := none }
    keep := { s.keep with dev := .planLoaded }
    led := { s.led with st := .nojob, touched := [], layers := [],
                        run := { s.led.run with lead := p.lead0 } }
    mem := { s.mem with slot := 0, epoch := 0, issued := [], lateEnt := [], lookLate := [], retained := [], pend := [],
                        uses := s.mem.uses.filter fun u => adopted p.place u.barge,
                        queue := s.mem.queue.filter fun r => adopted p.place r.barge,
                        raised := s.mem.raised.filter fun r => adopted p.place r.barge,
                        copies := s.mem.copies.filter fun c => adopted p.place c.barge,
                        cowCap := p.pondGiB * 1073741824 - 2 * p.ringSlot - p.tw.pgBytes }
    host := { s.host with ringput := 0, ringtake := 0, ringget := 0 }
    twin := { s.twin with mirror := 0, custody := 0, sawPair := false, pAccepts := false, pairSent := false, sentOk := false, gotOk := false, mruns := [] } }
  s

/-- The copies of barges that were not adopted are gone: every engine goes on with its queue (R229). -/
def pumpAll (s : State) : State := (List.range 8).foldl (fun s g => pumpQueue g s) s

/-- What a new plan makes of the pair: a twin named is waited for (R343). -/
def pairForPlan (s : State) : State := setPair (if (partner s).isSome then .waiting else .none) 0 s

/-- Activation succeeds (R216 step 7, R217, R236). -/
def activated (area : Nat) (s : State) : State :=
  let p := planOf s area
  let s := loadUnits area s
  let s := enterPlan area p s
  let s := initHeld p (pumpAll (placeBarges p.place s))
  pairForPlan (applyPlanParts (countBoot 0x3883 6 1 s))

/-! ### Result (R217) -/

/-- The result entries, and event 0x04 (R217). -/
def planResult (area : Nat) (e : PlanErr) (s : State) : State :=
  let s : State := { s with plan := { s.plan with
    checking := none, result := e.code, resArea := area, resUnit := e.unit, resItem := e.item, resDet := e.detail } }
  raiseOpen 0x04 noSource
    (pack [(8, e.code), (8, area), (8, e.unit), (32, e.item), (32, e.detail)]) s

/-- The block that the checks could not read, where that is what a failed measurement check met. -/
def damageMet (s : State) (area : Nat) (e : PlanErr) : Option Nat :=
  if e.code ≠ 5 then none
  else ((imgDamage s area 0 256).orElse fun _ => imgDamage s area 256 (64 * bits (imgHeader s area) 63 48)).orElse fun _ =>
    match (imgSections s area)[e.item]? with
    | some x => imgDamage s area x.off x.len
    | none => none

/-- A read of the checks that failed is recorded (R246). -/
def checkRead (area : Nat) (e : PlanErr) (s : State) : State :=
  match damageMet s area e with
  | none => s
  | some a => failRequest a (if (rangeGroupBad s a 1).isSome then 4 else 1) s

/-- The end of an activation. With no plan active the retirements owed are made before the unit counts are checked (R368). -/
def activationDone (area : Nat) (s : State) : State :=
  let s := if s.plan.active.isNone then writeMap (retireOwed s) else s
  match planErr s area with
  | some e => planResult area e (setArea area 1 (checkRead area e s))
  | none => planResult area { code := 0, unit := 0xFF, item := 0, detail := 0 } (activated area s)

/-- Release of the active plan (R219, R361): in idle the unit domains are off (R414, R421). -/
def releasePlan (s : State) : State :=
  let gone := s.dict.awaiting.filter fun a => decide (a.point = .step) && a.target.isSome
  let s := match s.plan.active with
    | none => s
    | some k => setArea k 1 s
  let s : State := { s with
    plan := { s.plan with active := none }
    keep := { s.keep with dev := .idle }
    led := { s.led with st := .nojob }
    dict := { s.dict with
      awaiting := s.dict.awaiting.filter fun a => !(decide (a.point = .step) && a.target.isSome),
      discarded := s.dict.discarded || !gone.isEmpty } }
  let s := gone.foldl (fun s a => raiseOpen 0x06 noSource (pack [(32, a.gen.toNat)]) s) s
  applyIdleParts (harvStop (setPair .none 0 (unitsOff s)))

/-- Whether an activation may start (R216). -/
def mayActivate (s : State) (area : Nat) : Bool :=
  (decide (s.keep.dev = .idle) || (decide (s.keep.dev = .planLoaded) && !jobRuns s)) && s.plan.checking.isNone &&
    decide (areaState s area = 1)

/-- The area becomes CHECKING and the result reads 1. -/
def startCheck (area : Nat) (s : State) : State :=
  let s := setArea area 2 s
  { s with plan := { s.plan with checking := some area, result := 1, resArea := area, resUnit := 0xFF, resItem := 0, resDet := 0 } }

/-! ### Meanings -/

/-- ACTIVATE (R216). -/
def execActivate (a : Access) (area : BitVec 8) (s : State) : Res :=
  .next (actWrite a 0x3880 1 (fun s =>
    if 2 ≤ area.toNat then refuse a 0x3880 1 abRange s
    else if mayActivate s area.toNat then reply a [] (startCheck area.toNat s)
    else refuse a 0x3880 1 abState s) s)

/-- ACTIVATION_DONE (R216, R217). -/
def execActivationDone (s : State) : Res :=
  .next (match s.plan.checking with
    | none => s
    | some k => activationDone k s)

/-- RELEASE (R219). -/
def execRelease (a : Access) (v : BitVec 8) (s : State) : Res :=
  .next (actWrite a 0x3880 2 (fun s =>
    if v ≠ 1 then refuse a 0x3880 2 abRange s
    else if s.keep.dev = .planLoaded ∧ jobRuns s = false then reply a [] (releasePlan s)
    else refuse a 0x3880 2 abState s) s)

end Sys2Proof.Machine
end

