-- ==== Sys2Proof/Machine/Stored.lean ====
section
/-! DEFINITION. Checks of dictionary values: ranges (R39) and the cross-checks of the pairing groups (R42, R46); stored
values (R38, R63), and the discard of the pending set (R43, R44). -/

namespace Sys2Proof.Machine

/-! ### Ranges (R39) -/

/-- Whether an fp32 value is finite, not negative and at most a bound. -/
def fpUpTo (bound v : Nat) : Bool := decide (v = 2 ^ 31) || decide (v ≤ bound)

/-- Ranges of the entries of blocks 0x1000 to 0x2FFF, on a numeric value. -/
def rangeLow (s : State) (idx sub v : Nat) : Bool :=
  let within (lo hi : Nat) : Bool := decide (lo ≤ v) && decide (v ≤ hi)
  match idx, sub with
  | 0x2008, 3 => within 1 16
  | 0x2008, _ => within 0 1
  | 0x2020, _ => within 1 127
  | 0x2021, 1 => [125, 250, 500, 1000].contains v
  | 0x2021, _ => [1000, 2000, 4000, 5000, 8000].contains v
  | 0x2026, _ => within 10 60000
  | 0x2027, _ => within 1000 3600000
  | 0x2100, 3 => within 10 60000
  | 0x2104, _ => within 300 s.strap.variant.maxPower
  | 0x2108, 1 => within 70 108
  | 0x2108, 2 => within 60 107
  | 0x2108, 3 => within 70 94
  | 0x2108, 4 => within 60 93
  | 0x2108, _ => within 0 4
  | 0x2140, 2 => within 0 3600
  | 0x2210, 3 => within 0 1
  | 0x2800, 7 => within 0 1
  | 0x2808, 1 => within 1 1000
  | 0x2808, _ => within 200 100000
  | 0x2818, 2 => within 1 65535
  | 0x2818, _ => within 1 64
  | 0x2A00, 2 => within 0 2
  | 0x2A00, 3 => within 0 1
  | 0x2A10, 3 => within 0 1
  | 0x2A10, 4 => within 0 16383
  | 0x2A10, 5 => within 0 1
  | 0x2C00, 1 => within 1 1000
  | 0x2C00, 2 => within 1 65535
  | _, _ => if 0x1A00 ≤ idx ∧ idx ≤ 0x1A07 ∧ sub = 0 then within 0 16 else true

/-- Ranges of the entries of blocks from 0x3000 on. -/
def rangeHigh (s : State) (idx sub v : Nat) : Bool :=
  let within (lo hi : Nat) : Bool := decide (lo ≤ v) && decide (v ≤ hi)
  match idx, sub with
  | 0x3008, 1 => decide (v < s.strap.variant.barges)
  | 0x3021, _ => within 1 168
  | 0x3024, 1 => within 70 85
  | 0x3024, _ => within 60 84
  | 0x3408, _ => within 0 7
  | 0x3808, 1 => within 0 1000
  | 0x3808, _ => within 0 64
  | 0x3888, 1 => within 1000 10000000
  | 0x3888, _ => within 0 3600000
  | 0x3C11, 4 => decide (v < 2 ^ 48)
  | 0x3C12, _ => within 0 1
  | 0x4004, 1 => fpUpTo 0x44800000 v
  | 0x4006, 3 => within 1 1000000
  | 0x4008, 1 => fpUpTo 0x7F7FFFFF v
  | _, _ => true

/-- The longest value of a writable DOMAIN and the length of its elements (R34 and the objects' meanings). -/
def domLimit : Nat → Nat × Nat
  | 0x2810 => (32768, 2)
  | 0x2811 => (2048, 2)
  | 0x2C10 => (2048, 2)
  | 0x2A18 => (24576, 24)
  | _ => (16777216, 1)

/-- Whether the length of a value fits its type. -/
def lengthOk (o : ObjDef) (bs : Bytes) : Bool :=
  match o.ty.size with
  | some n => decide (bs.length = n)
  | none =>
    let d := domLimit o.idx
    decide (bs.length ≤ d.1) && decide (bs.length % d.2 = 0)

/-- Whether a value of the right length lies in its range. -/
def valueOk (s : State) (o : ObjDef) (sub : Nat) (bs : Bytes) : Bool :=
  match o.ty with
  | .bool => decide (leNat bs ≤ 1)
  | .oct _ => true
  | .vis => true
  | .dom => decide (o.idx ≠ 0x2A18) || (chunks 24 (bs.length / 24) bs).all fun e => decide (leAt e 2 6 = 0)
  | _ => if o.idx < 0x3000 then rangeLow s o.idx sub (leNat bs) else rangeHigh s o.idx sub (leNat bs)

/-! ### Pairing groups (R42) -/

/-- The groups: 0 to 7 the TPDOs, 8 CAN rates, 9 routes, 10 thermal bounds, 11 refresh, 12 loss exponent, 13 topology, 14 map,
15 harvest destination. -/
def groupEntries (k : Nat) : List (Nat × Nat) :=
  match k with
  | 8 => [(0x2021, 1), (0x2021, 2)]
  | 9 => [(0x2022, 1), (0x2022, 2), (0x2022, 3)]
  | 10 => (List.range 6).map fun i => (0x2108, i + 1)
  | 11 => [(0x3024, 1), (0x3024, 2)]
  | 12 => [(0x4006, 2), (0x4006, 4), (0x4006, 5)]
  | 13 => (List.range 7).map fun i => (0x2800, i + 1)
  | 14 => [(0x2810, 0), (0x2811, 0)]
  | 15 => [(0x2A10, 3), (0x2A10, 4)]
  | n => [(0x1800 + n, 1), (0x1800 + n, 2), (0x1800 + n, 3), (0x1800 + n, 5)] ++ (List.range 17).map fun i => (0x1A00 + n, i)

/-- The first failing pair of a list of (passes, entries) checks. -/
def firstFail : List (Bool × List (Nat × Nat)) → List (Nat × Nat)
  | [] => []
  | (ok, es) :: cs => if ok then firstFail cs else es

/-- Whether a mapping entry maps a mappable entry at its own length (R62). -/
def mapsOk (m : Nat) : Bool :=
  match findObj (m / 65536) (m / 256 % 256) with
  | some o => o.map && decide (o.ty.size.map (8 * ·) = some (m % 256))
  | none => false

/-- CAN identifiers that CiA restricts (PRESUMED, log entry 37). -/
def canRestricted (c : Nat) : Bool :=
  decide (c ≤ 0x7F) || (decide (0x101 ≤ c) && decide (c ≤ 0x180)) || (decide (0x581 ≤ c) && decide (c ≤ 0x5FF)) ||
    (decide (0x601 ≤ c) && decide (c ≤ 0x67F)) || (decide (0x6E0 ≤ c) && decide (c ≤ 0x6FF)) ||
    (decide (0x701 ≤ c) && decide (c ≤ 0x77F)) || decide (0x780 ≤ c)

/-- R62: the cross-checks of TPDO n. -/
def checkTpdo (s : State) (n : Nat) : List (Nat × Nat) :=
  let c := 0x1800 + n
  let m := 0x1A00 + n
  let subs := (List.range (num s m 0)).map (· + 1)
  let total := (subs.map fun k => num s m k % 256).sum
  let cob := num s c 1
  firstFail ((subs.map fun k => (mapsOk (num s m k), [(m, k)])) ++
    [(decide (total ≤ 512), [(m, 0)]),
     (decide (num s c 2 = 0xFE) || decide (num s c 2 = 0xFF), [(c, 2)]),
     (decide (2 ^ 31 ≤ cob) || (decide (cob < 2048) && !canRestricted cob), [(c, 1)])])

/-- Distance of two cards: the sum of the coordinate distances round each ring (R312). -/
def ringDistance (s : State) (a b : Nat) : Nat :=
  ((List.range 3).map fun d =>
    let n := num s 0x2800 (1 + d)
    let x := coordOf s a d
    let y := coordOf s b d
    let k := max x y - min x y
    min k (n - k)).sum

/-- Whether a list has no repeats. -/
def distinct : List Nat → Bool
  | [] => true
  | x :: xs => !xs.contains x && distinct xs

/-- Whether every two of a list of failed cards lie more than 2 apart. -/
def farApart (s : State) : List Nat → Bool
  | [] => true
  | x :: xs => (xs.all fun y => decide (2 < ringDistance s x y)) && farApart s xs

/-- R312. -/
def checkMap (s : State) : List (Nat × Nat) :=
  let m := (0x2810, 0)
  let f := (0x2811, 0)
  let ids := u16s (valBytes s 0x2810 0)
  let bad := failedCards s
  let n := torusCards s
  firstFail [(distinct ids, [m]), (ids.all (fun c => !bad.contains c), [m, f]), (ids.all (· < n), [m]), (bad.all (· < n), [f]),
    (farApart s bad, [f]), (bad.isEmpty || !fourPort s, [f])]

/-- R310. -/
def checkTopology (s : State) : List (Nat × Nat) :=
  let g := num s 0x2800
  let e (k : Nat) : Nat × Nat := (0x2800, k)
  firstFail [(decide (1 ≤ g 1) && decide (g 1 ≤ 32), [e 1]), (decide (1 ≤ g 2) && decide (g 2 ≤ 32), [e 2]),
    (decide (1 ≤ g 3) && decide (g 3 ≤ 16), [e 3]), (decide (g 1 * g 2 * g 3 ≤ 16384), [e 1, e 2, e 3]),
    (decide (g 4 < g 1), [e 4, e 1]), (decide (g 5 < g 2), [e 5, e 2]), (decide (g 6 < g 3), [e 6, e 3]),
    (decide (g 7 = 0) || decide (g 3 = 1), [e 7, e 3]), (decide (s.strap.variant ≠ .m2041) || decide (g 7 = 1), [e 7])]

/-- The entries in conflict in a group, the values in force of `s` being the projected ones; none where it passes. A check that
refers to the plan is made only while one is active (R38, R373). -/
def groupCheck (s : State) (k : Nat) : List (Nat × Nat) :=
  match k with
  | 8 =>
    let a := num s 0x2021 1
    let b := num s 0x2021 2
    firstFail [(decide (a ≤ b) && decide (b ≤ 16 * a), [(0x2021, 1), (0x2021, 2)])]
  | 9 => firstFail [(decide (0 < num s 0x2022 1 + num s 0x2022 2 + num s 0x2022 3), groupEntries 9)]
  | 10 =>
    let g := num s 0x2108
    firstFail [(decide (g 2 < g 1), [(0x2108, 2), (0x2108, 1)]), (decide (g 4 < g 3), [(0x2108, 4), (0x2108, 3)]),
      (decide (g 5 ≤ g 6), [(0x2108, 5), (0x2108, 6)])]
  | 11 => firstFail [(decide (num s 0x3024 2 < num s 0x3024 1), [(0x3024, 2), (0x3024, 1)])]
  | 12 =>
    let g (k : Nat) : Int := signed 8 (num s 0x4006 k)
    firstFail [(decide (g 4 ≤ g 2), [(0x4006, 4), (0x4006, 2)]), (decide (g 2 ≤ g 5), [(0x4006, 2), (0x4006, 5)])]
  | 13 => checkTopology s
  | 14 => checkMap s
  | 15 => firstFail [(s.plan.active.isNone || gatewayOk s, [(0x2A10, 4), (0x2A10, 3)])]
  | n => checkTpdo s n

/-! ### Stored values (R38, R63) -/

/-- The persisted entries kept in the stored dictionary; 0x2208:01 and 0x2210:05 are held in the flash header (R449). -/
def storedEntries : List (Nat × Nat) :=
  (objects.filter fun o => o.pers && decide (o.idx ≠ 0x2208) && decide (o.idx ≠ 0x2210)).flatMap fun o =>
    (List.range (o.hi + 1 - o.lo)).map fun i => (o.idx, o.lo + i)

/-- Whether an index belongs to a class of R61: 0 all, 1 communication, 2 application. -/
def inClass (cls idx : Nat) : Bool :=
  let comm := (decide (0x1000 ≤ idx) && decide (idx < 0x2000)) || (decide (0x2020 ≤ idx) && decide (idx < 0x2040))
  match cls with
  | 0 => true
  | 1 => comm
  | _ => !comm

/-- The values in force of the persisted entries of a class. -/
def snapshotClass (s : State) (cls : Nat) : Sparse (Option Bytes) :=
  (storedEntries.filter fun e => inClass cls e.1).foldl (fun m e => Sparse.set none m (ekey e.1 e.2) (some (valBytes s e.1 e.2))) []

/-- The stored dictionary is written anew: the other copy takes the values (R434). -/
def putStored (vals : Sparse (Option Bytes)) (s : State) : State :=
  let d := s.boot.flash.dicts
  send (.flashWrite 2) { s with
    dict := { s.dict with stored := vals }
    boot := { s.boot with flash := { s.boot.flash with
      dicts := putCopy (·.gen) { gen := nextGen (newest (·.gen) d).gen, vals := vals } d } } }

/-- Complete the oldest store: its values are in flash and its response is sent. -/
def finishStore (s : State) : State :=
  match s.dict.storing with
  | [] => s
  | x :: xs =>
    reply x.1 [] (putStored (x.2.foldl (fun m kv => Sparse.set none m kv.1 kv.2) s.dict.stored)
      { s with dict := { s.dict with storing := xs } })

/-- Load the stored value of one entry: the default where none is stored. -/
def loadEntry (e : Nat × Nat) (s : State) : State :=
  { s with dict := { s.dict with
      vals := Sparse.set none s.dict.vals (ekey e.1 e.2) (Sparse.get none s.dict.stored (ekey e.1 e.2)) } }

/-- A group whose stored values fail its cross-check takes its defaults (R38). -/
def defaultGroup (k : Nat) (s : State) : State :=
  if (groupCheck s k).isEmpty then s
  else
    let es := groupEntries k
    let idx := (es.headD (0, 0)).1
    let s : State := { s with dict := { s.dict with
      vals := es.foldl (fun m e => Sparse.del (ekey e.1 e.2) m) s.dict.vals } }
    raiseOpen 0x08 noSource idx (enterError 0x80 0x6100 idx s)

/-- Load the stored values of a list of entries, and check every group. -/
def loadStored (es : List (Nat × Nat)) (s : State) : State :=
  let s := es.foldl (fun s e => loadEntry e s) s
  topologyApplies ((List.range 16).foldl (fun s k => defaultGroup k s) s)

/-! ### Generations (R43, R44) -/

/-- Empty the pending set and increment the generation. -/
def clearPending (s : State) : State :=
  { s with dict := { s.dict with pset := [], owner := none, gen := BitVec.ofNat 32 (nextGen s.dict.gen.toNat) } }

/-- The header copy that a write puts down. -/
def headNow (s : State) (gen : Nat) : HeadCopy :=
  { gen := gen, stA := s.boot.slotA.state, stB := s.boot.slotB.state, next := s.boot.next, autoconf := s.boot.autoconf,
    retest := s.boot.retest, boots := s.boot.boots }

/-- The flash header is written (R434, R435). -/
def writeHeader (s : State) : State :=
  let g := nextGen s.boot.headGen
  send (.flashWrite 0) { s with boot := { s.boot with
    headGen := g, flash := { s.boot.flash with heads := putCopy (·.gen) (headNow s g) s.boot.flash.heads } } }

end Sys2Proof.Machine
end

