-- ==== Sys2Proof/Machine/Power.lean ====
section
/-! DEFINITION. The keeper (R405 to R427): samples and limits, board power, evaluation in idle, sleep and wake, and the
loss and return of the supplies (R421 to R424, R454, R457). -/

namespace Sys2Proof.Machine

/-! ### Domains -/

/-- Every port down; cables stay plugged. -/
def portsDown (s : State) : State :=
  { s with fab := { s.fab with remotes := [], ports := s.fab.ports.map fun kv => (kv.1, { ({} : PortSt) with cable := kv.2.cable }) } }

/-- Every domain of the 285 is switched off: what they hold, device memory and the host interface among it, is lost
(R414, R419, R424). The keeper, its dictionary, the flash and the fuses stay, and so do retirements owed (R368). -/
def domainsOff (s : State) : State :=
  let s := portsDown s
  { s with
    units := { owed := s.units.owed }, gates := [], plan := {}, mem := {}, led := {}, twin := { ({} : TwinSt) with sideband := s.twin.sideband },
    harv := {}, host := {}, fab := { ({} : FabricSt) with ports := s.fab.ports }
    keep := { s.keep with dev := .boot, forced := [], logicNow := [], stackNow := [], logicMax := [], stackMax := [],
                          mirror := false }
    boot := { s.boot with booting := false, phases := [], recovery := false, slotRun := none, staging := none } }

/-- The keeper itself loses power: what is not in flash, fuses or straps is lost. -/
def keeperOff (s : State) : State :=
  { s with
    dict := { stored := s.dict.stored }
    stat := {}
    twin := {}
    keep := { present := s.keep.present }
    boot := { s.boot with fw := false } }

/-- The start of boot (R428): a new boot of a card that 48 V feeds. -/
def startBoot (s : State) : State :=
  let s := domainsOff s
  { s with
    dict := { stored := s.dict.stored }
    stat := {}
    keep := { v48 := true, vaux := s.keep.vaux, present := s.keep.present, volts := s.keep.volts,
              identEnd := s.keep.identEnd - s.keep.samples }
    boot := { s.boot with booting := true, fw := false, bootMs := 0, fallbacks := 0, stage := 0, boots := s.boot.boots + 1 } }

/-! ### Forced drops (R419, R420) -/

/-- Take a die to 0.55 GHz until the next boundary or evaluation; a die already dropped stays so. -/
def forceDrop (d typ detail : Nat) (s : State) : State :=
  if s.keep.forced.contains d then s
  else raiseOpen typ d detail (countBoot 0x2132 (d + 1) 1 (countBoot 0x2110 3 1 (countRun 0x2110 2 1
    { s with keep := { s.keep with forced := s.keep.forced ++ [d] } })))

/-- Whether the dies have power. -/
def diesOn (s : State) : Bool := domainOn s (.die 0)

/-- A thermal trip (R419): logged, reported to the coordinator where that can be, every domain switched off, and entered as an
error of temperature (R52, R61; its code PRESUMED, log entry 167). A card that has tripped has no domain left to switch off: it
does not trip anew (DEDUCED, log entry 204). -/
def trip (source reading : Nat) (s : State) : State :=
  if s.keep.tripped then s else
  let s := raiseOpen 0x22 source reading { s with boot := { s.boot with trips := s.boot.trips + 1 } }
  let s := if fabricTrained s && s.plan.active.isSome then toCard (coordinator s) (.suspect (cardId s)) s else s
  let s := enterError 0x08 0x4200 reading (domainsOff s)
  { s with keep := { s.keep with tripped := true } }

/-- Replace one value of a list, longer by zeros where it must be. -/
def putAt (xs : List Nat) (n v : Nat) : List Nat := ((xs ++ List.replicate (n + 1 - xs.length) 0)).set n v

/-- Whether samples count toward the readings of a step, or of the time between evaluations (R415, R416). -/
def sampling (s : State) : Bool := !(jobRuns s && s.led.waiting)

/-- A reading above 85 °C under normal refresh doubles the stack's rate at once, and that recorded for the step (R252). -/
def forceRefresh (k v : Nat) (s : State) : State :=
  if v ≤ 85 ∨ s.mem.refresh.getLsbD k = true then s
  else
    let on (r : BitVec 8) : BitVec 8 := r ||| BitVec.ofNat 8 (2 ^ k)
    let s := countBoot 0x3024 4 1 { s with mem := { s.mem with refresh := on s.mem.refresh } }
    if jobRuns s then { s with led := { s.led with run := { s.led.run with refresh := on s.led.run.refresh } } } else s

/-- One sample of one sensor with a limit (R415, R419). -/
def takeSample (x : Sensor) (v : Nat) (s : State) : State :=
  match x with
  | .logic n =>
    let s : State := { s with keep := { s.keep with
      logicNow := putAt s.keep.logicNow n.val v
      logicMax := if sampling s then Sparse.modify 0 s.keep.logicMax n.val (max (v + 1)) else s.keep.logicMax } }
    if 120 ≤ v then trip (n.val / 4) v s
    else if 110 ≤ v then forceDrop (n.val / 4) 0x21 (pack [(8, v), (1, 0)]) s
    else s
  | .stack n =>
    let s : State := { s with keep := { s.keep with
      stackNow := putAt s.keep.stackNow n.val v
      stackMax := if sampling s then Sparse.modify 0 s.keep.stackMax n.val (max (v + 1)) else s.keep.stackMax } }
    let s := forceRefresh n.val v s
    if 95 ≤ v then forceDrop (n.val / 2) 0x21 (pack [(8, v), (1, 1)]) s else s
  | .iodie =>
    let s : State := { s with keep := { s.keep with iodie := v } }
    if 120 ≤ v then trip 4 v s else s

/-- The coolant event, once a minute while the inlet is outside 15 to 45 °C (R419, R464). -/
def coolant (inlet : Nat) (s : State) : State :=
  let s : State := { s with keep := { s.keep with inlet := inlet } }
  if (15 ≤ inlet ∧ inlet ≤ 45) ∨ (s.keep.coolSaid ≠ 0 ∧ s.keep.samples + 1 - s.keep.coolSaid < 61440) then s
  else raiseOpen 0x28 noSource inlet { s with keep := { s.keep with coolSaid := s.keep.samples + 1 } }

/-- Every sensor of one keeper sample. -/
def sampleAll (r : Readings) (s : State) : State :=
  let s := (List.finRange 16).foldl (fun s n => match r.logic[n.val]? with
    | some v => takeSample (.logic n) v.toNat s
    | none => s) s
  let s := (List.finRange 8).foldl (fun s n => match r.stackT[n.val]? with
    | some v => takeSample (.stack n) v.toNat s
    | none => s) s
  let s := takeSample .iodie r.iodie.toNat s
  coolant r.inlet.toNat { s with keep := { s.keep with
    outlet := r.outlet.toNat, regs := r.regulator.toNat, volts := r.volts.toNat, mr4 := r.mr4.map (·.toNat) } }

/-- Whether a scrub period of this many hours ends with the present sample; periods run from boot (log entry 39). -/
def scrubEnds (s : State) (hours : Nat) : Bool := decide (s.keep.samples % (3686400 * max 1 hours) = 0)

/-- At the end of a scrub period the counts of the rows of that tier begin again (R249, R251). -/
def scrubPeriod (s : State) : State :=
  let fresh (row : Nat) : Bool := scrubEnds s (num s 0x3021 (if row < 2 ^ 29 then 1 else 2))
  { s with mem := { s.mem with rowErr := s.mem.rowErr.filter fun r => !fresh r.1 } }

/-- SENSOR_SAMPLE (R415): the keeper's sampling period. On 3.3 Vaux alone the sensors have no power, and the voltage at the blades is
sampled (R453). A spare that has not answered the coordinator in 10 ms is passed over (R362; log entry 200). -/
def execSensorSample (r : Readings) (s : State) : Res :=
  .next (
    if !keeperOn s then s
    else
      let s := countRun 0x2118 1 r.overruns (countBoot 0x2120 1 r.wakes (countBoot 0x2120 2 r.awake s))
      let s : State := recruitLate { s with keep := { s.keep with samples := s.keep.samples + 1 } }
      if s.keep.v48 then sampleAll r (scrubPeriod s) else { s with keep := { s.keep with volts := r.volts.toNat } })

/-- LIMIT_CROSSING (R415, R419): the sensor is sampled at once. -/
def execLimitCrossing (x : Sensor) (reading : BitVec 8) (s : State) : Res :=
  .next (if s.keep.v48 then takeSample x reading.toNat s else s)

/-- THERMAL_TRIP (R415, R419): a comparator at 120 °C on a logic sensor or the I/O die; the sample taken of the sensor trips. -/
def execThermalTrip (x : Sensor) (reading : BitVec 8) (s : State) : Res :=
  .next (
    if !s.keep.v48 ∨ reading.toNat < 120 then s
    else match x with
      | .stack _ => s
      | x => takeSample x reading.toNat s)

/-- The die with the highest logic reading of those not dropped; the lowest number among equals. -/
def hottestDie (s : State) : Option Nat :=
  ((List.range 4).filter fun d => !s.keep.forced.contains d).foldl (fun (a : Option Nat) d =>
    match a with
    | none => some d
    | some e => if logicReading s e < logicReading s d then some d else some e) none

/-- POWER_AVERAGE (R420): above the limit one more die is dropped; energy is counted in mJ over the step. -/
def execPowerAverage (watts : BitVec 16) (s : State) : Res :=
  .next (
    let w := watts.toNat
    if !s.keep.v48 then s
    else
      let s : State := { s with keep := { s.keep with watts := w, peakW := if jobRuns s && sampling s then max s.keep.peakW w else s.keep.peakW } }
      let s := if jobRuns s then countRun 0x2101 4 w s else s
      if num s 0x2104 1 < w ∧ diesOn s = true then
        (match hottestDie s with
        | some d => forceDrop d 0x23 w s
        | none => s)
      else s)

/-- IDLE_EVALUATION (R252, R416, R419): with no job running the codes and refresh rates are decided from the readings since the
last evaluation, and forced drops end. -/
def execIdleEvaluation (s : State) : Res :=
  .next (
    if jobRuns s || !diesOn s then s
    else
      let logic := logicReadings s
      let stackT := stackReadings s
      let codes := nextCodes (num s) s.keep.codes logic stackT
      let s := sayCodes s.keep.codes codes logic stackT s
      clearReadings { s with
        keep := { s.keep with codes := codes, inForce := codes, forced := [] }
        mem := { s.mem with refresh := nextRefresh (num s) s.mem.refresh stackT } })

/-! ### Sleep and wake (R422, R423) -/

/-- Whether the card may go to sleep. -/
def maySleep (s : State) : Bool :=
  (decide (s.keep.dev = .idle) || (decide (s.keep.dev = .planLoaded) && decide (s.led.st = .nojob))) && s.plan.checking.isNone &&
    !harvBusy s && decide (s.twin.pair ≠ .seeding) && !recActive s && !s.fab.joining && s.twin.loading.isNone

/-- Enter asleep: stores complete, and the unit domains, the cluster switches and the ports go off (R414, R422). -/
def enterSleep (cause : Nat) (s : State) : State :=
  let s := (s.dict.storing).foldl (fun s _ => finishStore s) s
  let s := unitsOff (portsDown s)
  raiseOpen 0x25 noSource cause (countBoot 0x2120 3 1 { s with
    keep := { s.keep with dev := .asleep, sleptFrom := s.keep.dev } })

/-- SLEEP_REQUEST (R422). -/
def execSleepRequest (a : Access) (v : BitVec 8) (s : State) : Res :=
  .next (actWrite a 0x2100 1 (fun s =>
    if v ≠ 1 then refuse a 0x2100 1 abRange s
    else if maySleep s then enterSleep 1 (reply a [] s)
    else refuse a 0x2100 1 abState s) s)

/-- WAKE_REQUEST (R423). -/
def execWakeRequest (a : Access) (v : BitVec 8) (s : State) : Res :=
  .next (actWrite a 0x2100 1 (fun s => if v ≠ 0 then refuse a 0x2100 1 abRange s else wake 1 (reply a [] s)) s)

/-- AUTO_SLEEP_TIMER (R422). -/
def execAutoSleepTimer (s : State) : Res :=
  .next (if num s 0x2100 2 ≠ 0 ∧ maySleep s = true then enterSleep 2 s else s)

/-- WAKE_IN (R423). -/
def execWakeIn (s : State) : Res := .next (wake 2 s)

/-- MEMORY_WAKE_HOLD_EXPIRY (R423). -/
def execMemoryWakeHoldExpiry (s : State) : Res :=
  .next (if s.keep.dev = .asleep then { s with mem := { s.mem with memAwake := false } } else s)

/-! ### Supplies (R424, R454, R457) -/

/-- The keeper firmware begins to serve CAN on 3.3 Vaux alone: boot-up is sent once (R58, R421). A keeper that had not loaded the
stored values loads them. -/
def serveOnVaux (s : State) : State :=
  let s := if s.boot.fw then s else loadStored storedEntries s
  send (.heartbeat 0) { s with boot := { s.boot with fw := true } }

/-- The loss of 48 V, by its fall or by the removal of the cable: an error of voltage (R52, R61; its code PRESUMED, log entry
167), and the keeper goes on on 3.3 Vaux if present. -/
def lose48 (volts : Nat) (s : State) : State :=
  if !s.keep.v48 then s
  else
    let s := raiseOpen 0x27 noSource (pack [(8, 0), (8, 0), (16, volts)]) { s with keep := { s.keep with volts := volts } }
    let s := domainsOff s
    let s : State := { s with keep := { s.keep with v48 := false, tripped := false } }
    if s.keep.vaux then serveOnVaux (enterError 0x04 0x3100 volts s) else keeperOff s

/-- V48_LOSS (R424): below 38 V for 1 ms. -/
def execV48Loss (volts : BitVec 16) (s : State) : Res := .next (if volts.toNat < 380 then lose48 volts.toNat s else s)

/-- V48_RETURN (R424, R428): above 40 V boot starts; load current is drawn only while PRESENT is closed (R454). -/
def execV48Return (volts : BitVec 16) (s : State) : Res :=
  .next (
    if 400 < volts.toNat ∧ s.keep.v48 = false ∧ s.keep.present = true then
      raiseOpen 0x27 noSource (pack [(8, 1), (8, 0), (16, volts.toNat)])
        (startBoot { s with keep := { s.keep with volts := volts.toNat } })
    else s)

/-- PRESENT_OPEN (R454): at once as on the loss of 48 V. -/
def execPresentOpen (s : State) : Res :=
  .next (let s' := lose48 s.keep.volts s
    { s' with keep := { s'.keep with present := false } })

/-- PRESENT_CLOSE (R454): the input capacitance charges; boot starts with the rise of 48 V. -/
def execPresentClose (s : State) : Res := .next { s with keep := { s.keep with present := true } }

/-- VAUX_RETURN (R421): with 48 V absent the keeper starts, its stored values loaded, and sends boot-up once. -/
def execVauxReturn (s : State) : Res :=
  .next (
    if s.keep.vaux then s
    else
      let s : State := { s with keep := { s.keep with vaux := true } }
      if s.keep.v48 then s else serveOnVaux s)

/-- VAUX_LOSS (R457). -/
def execVauxLoss (s : State) : Res :=
  .next (
    let s : State := { s with keep := { s.keep with vaux := false } }
    if s.keep.v48 then s else keeperOff s)

end Sys2Proof.Machine
end

