-- ==== Sys2Proof/Machine/Boot.lean ====
section
/-! DEFINITION. Boot, firmware images, slots, fuses and attestation (R428 to R447). -/

namespace Sys2Proof.Machine

/-! ### Firmware images (R436 to R438) -/

def imgComponents (img : Bytes) : Nat := leAt img 6 2
def imgLength (img : Bytes) : Nat := leAt img 20 4
def imgSigner (img : Bytes) : Nat := leAt img 13 1
def imgRevoke (img : Bytes) : Nat := leAt img 16 4
def imgRootPub (img : Bytes) : Bytes := slice img 32 57
def imgSignerPub (img : Bytes) : Bytes := slice img 89 57

/-- A component entry: type, offset, length, measurement, and whether its reserved bits are clear. -/
def imgComps (img : Bytes) : List (Nat × Nat × Nat × Bytes × Bool) :=
  (List.range (imgComponents img)).map fun i =>
    let d := 512 + 96 * i
    (leAt img d 2, leAt img (d + 8) 8, leAt img (d + 16) 8, slice img (d + 32) 64,
      decide (leAt img (d + 2) 6 = 0) && decide (leAt img (d + 24) 8 = 0))

/-- Whether ranges (start, length) do not overlap. -/
def disjointRanges : List (Nat × Nat) → Bool
  | [] => true
  | r :: rs => (rs.all fun q => decide (r.1 + r.2 ≤ q.1) || decide (q.1 + q.2 ≤ r.1) || decide (r.2 = 0) || decide (q.2 = 0)) && disjointRanges rs

/-- Check 2 of R438. -/
def imgForm (img : Bytes) : Bool :=
  let n := imgComponents img
  let cs := imgComps img
  decide (leAt img 0 4 = 0x574D4C4D) && decide (leAt img 4 2 = 1) && decide (1 ≤ n) && decide (n ≤ 16) &&
    decide (imgLength img = img.length) && decide (img.length % 64 = 0) && decide (img.length ≤ 16777216) &&
    decide (512 + 96 * n + 128 ≤ img.length) && decide (fwSvn img ≤ 63) && decide (imgSigner img ≤ 31) &&
    decide (leAt img 14 2 = 0) && decide (leAt img 24 8 = 0) && decide (leAt img 260 252 = 0) &&
    decide (leAt img (img.length - 14) 14 = 0) &&
    ([1, 2, 3, 4, 5].all fun t => decide ((cs.filter fun c => decide (c.1 = t)).length = 1)) &&
    (cs.all fun c => c.2.2.2.2 && decide (c.2.1 % 64 = 0) && decide (c.2.1 + c.2.2.1 ≤ img.length)) &&
    disjointRanges (cs.map fun c => (c.2.1, c.2.2.1))

/-- Both signatures (check 5). -/
def imgSigned (img : Bytes) : Bool :=
  edVerify (imgRootPub img) (ascii "MolamSigner1") (slice img 13 1 ++ imgSignerPub img) (slice img 146 114) &&
    edVerify (imgSignerPub img) (ascii "MolamImage1") (img.take (img.length - 128)) (slice img (img.length - 128) 114)

/-- Verify an image (R438): 0, or the code of the first check that fails. -/
def verify (s : State) (img : Bytes) : Nat :=
  if !imgForm img then 2
  else if meas64 (imgRootPub img) ≠ takePad 64 s.strap.rootHash then 3
  else if s.boot.revoke.getLsbD (imgSigner img) then 4
  else if !imgSigned img then 5
  else if fwSvn img < s.boot.svn then 6
  else if (imgComps img).any fun c => decide (meas64 (slice img c.2.1 c.2.2.1) ≠ c.2.2.2.1) then 7
  else 0

/-- The firmware measurement (R437). -/
def fwMeasure (img : Bytes) : Bytes := meas64 (img.take (512 + 96 * imgComponents img))

/-! ### Slots and fuses (R439, R441) -/

def putSlot (k : Nat) (x : SlotSt) (s : State) : State :=
  { s with boot := if k = 0 then { s.boot with slotA := x } else { s.boot with slotB := x } }

def setSlotState (k st : Nat) (s : State) : State := putSlot k { getSlot s k with state := st } s

/-- Raise the fuses for a confirmed slot (R441 steps 2 and 3). -/
def raiseFuses (img : Bytes) (s : State) : State :=
  let svn := max s.boot.svn (fwSvn img)
  let rev := s.boot.revoke ||| BitVec.ofNat 32 (imgRevoke img)
  if svn = s.boot.svn ∧ rev = s.boot.revoke then s
  else raise 0x38 1 noSource (pack [(8, svn), (24, 0), (32, rev.toNat)]) { s with boot := { s.boot with svn := svn, revoke := rev } }

/-- Recovery mode (R431). -/
def enterRecovery (s : State) : State :=
  raise 0x39 2 noSource 0 { s with boot := { s.boot with recovery := true, fw := false, booting := false, slotRun := none } }

/-- A slot is passed over: 1 trial not confirmed, 2 verification. -/
def fallback (k cause : Nat) (s : State) : State :=
  raise 0x31 1 noSource (pack [(8, k), (8, cause)]) { s with boot := { s.boot with fallbacks := s.boot.fallbacks + 1 } }

/-- The firmware of a slot runs. -/
def bootSlot (k : Nat) (s : State) : State :=
  let x := getSlot s k
  let s := if x.state = 2 then setSlotState k 3 s else raiseFuses x.image s
  { s with boot := { s.boot with slotRun := some k, fwVer := fwVersion x.image, fwMeas := fwMeasure x.image } }

/-- Slot selection (R439): try the slots from one on, at most `n` of them. -/
def selectSlot (k : Nat) : Nat → State → State
  | 0, s => enterRecovery s
  | n + 1, s =>
    let x := getSlot s k
    if x.state = 3 then
      selectSlot (1 - k) n (fallback k 1 (setSlotState k 5 { s with boot := { s.boot with next := decide (1 - k = 1) } }))
    else if x.state ≠ 2 ∧ x.state ≠ 4 then selectSlot (1 - k) n s
    else
      let c := verify s x.image
      if c = 0 then bootSlot k s
      else
        let s := setSlotState k 5 s
        let s := if c = 6 then raise 0x33 2 noSource (pack [(8, k), (8, fwSvn x.image), (8, s.boot.svn)]) s
          else raise 0x32 2 noSource (pack [(8, k), (8, c)]) s
        selectSlot (1 - k) n (fallback k 2 s)

/-- Confirm the slot in TRIAL (R441). -/
def confirmSlot (k : Nat) (s : State) : State :=
  let s := writeHeader (setSlotState k 4 s)
  let s := raiseFuses (getSlot s k).image s
  let o := getSlot s (1 - k)
  if (o.state = 2 ∨ o.state = 4) ∧ verify s o.image ≠ 0 then writeHeader (setSlotState (1 - k) 5 s) else s

/-- The slot in TRIAL. -/
def trialSlot (s : State) : Option Nat := [0, 1].find? fun k => decide ((getSlot s k).state = 3)

/-! ### Boot phases (R428 to R430, R443) -/

/-- What a phase depends on. -/
def phaseDeps : Nat → List Nat
  | 2 => [1]
  | 3 => [2]
  | 4 => [3]
  | 5 => [4]
  | 6 => [5]
  | 7 => [4]
  | 8 => [6, 7]
  | _ => []

/-- Turn a retired frame's record into records of repaired rows; a stack has 4,096 spare rows. -/
def convertFrame (x : Bool × Nat × List (BitVec 32)) (s : State) : State :=
  let old := s.boot.repair
  let is (r : Repair) : Bool := decide (r.typ = if x.1 then 6 else 5) && decide (r.pos = x.2.1)
  let rows := (old.filter fun r => decide (r.typ = 2) && decide (r.pos % 8 = x.2.1 / 65536)).length
  if !old.any is ∨ x.2.2.isEmpty ∨ (!x.1 ∧ 4096 < rows + x.2.2.length) then s
  else { s with boot := { s.boot with
    repair := (old.filter fun r => !is r) ++ x.2.2.map fun w => { typ := if x.1 then 3 else 2, cause := 0, pos := w.toNat, step := 0 }
    pendMap := true } }

/-- Phase 5: device memory as after training, nothing placed; frames that stay retired are out of use. -/
def bootMemory (r : BootReport) (s : State) : State :=
  let s := r.rowsFixed.foldl (fun s x => convertFrame x s) s
  let frames (t : Nat) : List Nat := (s.boot.repair.filter fun q => decide (q.typ = t)).map (·.pos)
  { s with mem := { ({} : MemSt) with
      retB := frames 5, retR := frames 6, stackBad := r.badStacks.map (·.val)
      group := r.badGroups.foldl (fun m g => Sparse.set 0 m g.val 1) [] } }

/-- The condition with which the repair map records a unit as retired. -/
def retiredAs (s : State) (p : Nat) : Option Nat :=
  (s.boot.repair.find? fun r => decide (r.typ = 1) && decide (r.pos = p)).map (·.cause)

/-- Unit map and conditions of one region (R12, R13, R430). -/
def bootRegion (g : Nat) (s : State) : State :=
  let ps := (List.range 8).map (9 * g + ·)
  let spare := 9 * g + 8
  let s := ps.foldl (fun s p => match retiredAs s p with
    | some c => setCond p c (mapUnit p 0xFF s)
    | none => setCond p 0 (mapUnit p (8 * g + (p - 9 * g)) s)) s
  match retiredAs s spare with
  | some c => setCond spare c (mapUnit spare 0xFF s)
  | none => match ps.find? fun p => (retiredAs s p).isSome with
    | some p => setCond spare 0 (mapUnit spare (8 * g + (p - 9 * g)) s)
    | none => setCond spare 1 (mapUnit spare 0xFE s)

/-- Phase 6: retirements owed since before the boot (R368), retests, self-test failures, assignment, and the repair map, which
is written at the end of the phase (R443). -/
def bootUnits (r : BootReport) (s : State) : State :=
  let s := s.units.owed.foldl (fun s x =>
    if (retiredAs s x.1).isSome then s else addRepair { typ := 1, cause := x.2, pos := x.1, step := 0 } s) s
  let s : State := { s with units := { s.units with owed := [] } }
  let back := if s.boot.retest then r.passedRetest.map (·.val) else []
  let keepRec (q : Repair) : Bool := !(decide (q.typ = 1) && back.contains q.pos)
  let s : State := { s with boot := { s.boot with
    pendMap := s.boot.pendMap || !s.boot.repair.all keepRec, repair := s.boot.repair.filter keepRec } }
  let s := r.badUnits.foldl (fun s p =>
    if (retiredAs s p.val).isSome then s
    else raise 0x34 1 noSource p.val (addRepair { typ := 1, cause := 2, pos := p.val, step := 0 } s)) s
  let s := (List.range 8).foldl (fun s g => bootRegion g s) s
  writeMap { s with boot := { s.boot with pendMap := true } }

/-- Phase 8: the card enters idle. -/
def bootIdle (r : BootReport) (s : State) : State :=
  let s : State := { s with
    boot := { s.boot with booting := false, bootMs := r.ms }
    keep := { s.keep with dev := .idle } }
  let s := send (.heartbeat 0) (raise 0x30 0 noSource (pack [(8, runningSlot s), (24, r.ms)]) s)
  match trialSlot s with
  | some k => if s.boot.autoconf then confirmSlot k s else s
  | none => s

/-- The boot in progress starts again at phase 1; what it has counted stands (R431). -/
def restartBoot (s : State) : State :=
  let s' := startBoot s
  { s' with boot := { s'.boot with boots := s.boot.boots, fallbacks := s.boot.fallbacks } }

/-- A component measures otherwise when it is loaded (R438): the boot fails as code 7, the slot with it, and boot starts again
(DEDUCED, log entry 179). -/
def loadFails (s : State) : State :=
  match s.boot.slotRun with
  | none => s
  | some k => restartBoot (writeHeader (fallback k 2 (raise 0x32 2 noSource (pack [(8, k), (8, 7)]) (setSlotState k 5 s))))

/-! ### What the flash holds (R432 to R435, R442) -/

/-- A region of the flash (R433): offset and size. -/
structure FlashArea where
  offset : Nat
  size   : Nat
  deriving DecidableEq, Repr

/-- The layout: header, repair map and stored dictionary by copy; certificate, reserved, firmware slots and log. -/
def flashHeader (k : Nat) : FlashArea := ⟨0x00010000 * k, 0x10000⟩
def flashCert : FlashArea := ⟨0x00020000, 0x20000⟩
def flashReserved : FlashArea := ⟨0x00040000, 0xC0000⟩
def flashSlot (k : Nat) : FlashArea := ⟨0x00100000 + 0x01000000 * k, 0x01000000⟩
def flashMap (k : Nat) : FlashArea := ⟨0x02100000 + 0x00200000 * k, 0x00200000⟩
def flashDict (k : Nat) : FlashArea := ⟨0x02500000 + 0x00100000 * k, 0x00100000⟩
def flashLog : FlashArea := ⟨0x02700000, 0x05900000⟩

/-- A copy ends with a SHAKE256 check of 64 bytes over the rest of it (R434). -/
def checked (body : Bytes) : Bytes := body ++ meas64 body

/-- A header copy as it lies in flash (R435). -/
def HeadCopy.toBytes (c : HeadCopy) : Bytes :=
  checked (takePad (0x10000 - 64) (leBytes 16 (pack [(32, c.gen), (32, 0x48534C46), (4, c.stA), (4, c.stB), (1, b01 c.next),
    (1, b01 c.autoconf), (1, b01 c.retest), (21, 0), (32, c.boots)])))

/-- A record of the repair map (R442). -/
def Repair.toBytes (r : Repair) : Bytes := leBytes 16 (pack [(4, r.typ), (4, 0), (8, r.cause), (16, 0), (32, r.pos), (64, r.step)])

/-- A copy of the repair map as it lies in flash (R442). -/
def MapCopy.toBytes (c : MapCopy) : Bytes :=
  checked (takePad 64 (leBytes 8 (pack [(32, c.gen), (32, c.recs.length)])) ++ c.recs.flatMap Repair.toBytes)

/-- A flash error of R448: 1 discovery, 2 erase, 3 program, 4 both copies invalid, with its offset. -/
def flashFault (what offset : Nat) (s : State) : State := raise 0x36 2 noSource (pack [(32, what), (32, offset)]) (countBoot 0x2204 4 1 s)

/-- Whether the report says that a copy fails its check: of 0 the header, 1 the repair map, 2 the stored dictionary. -/
def copyBad (r : BootReport) (what : Fin 3) (copy : Fin 2) : Bool := r.badCopies.contains (what, copy)

/-- Whether both copies fail. -/
def bothBad (r : BootReport) (what : Fin 3) : Bool := copyBad r what 0 && copyBad r what 1

/-- The pair as a reader finds it: a copy that fails its check is none (R434). -/
def validCopies {α : Type} (r : BootReport) (what : Fin 3) (none : α) (c : α × α) : α × α :=
  (if copyBad r what 0 then none else c.1, if copyBad r what 1 then none else c.2)

/-- The header that phase 2 chooses (R434): where the newer copy fails, the settings of the other; where both fail, event 0x36 and
the defaults (DESIGN CHOICE, log entry 205). -/
def chooseHeader (r : BootReport) (s : State) : State :=
  let old := newest (·.gen) s.boot.flash.heads
  let cs := validCopies r 0 {} s.boot.flash.heads
  let c := newest (·.gen) cs
  let s : State := { s with boot := { s.boot with flash := { s.boot.flash with heads := cs } } }
  if c.gen = old.gen then s
  else
    let s : State := { s with boot := { s.boot with
      headGen := c.gen, slotA := { s.boot.slotA with state := c.stA }, slotB := { s.boot.slotB with state := c.stB },
      next := c.next, autoconf := c.autoconf, retest := c.retest, boots := c.boots + 1 } }
    if bothBad r 0 then flashFault 4 (flashHeader 0).offset s else s

/-- The repair map that phase 3 reads (R434, R442): an empty one where both copies fail. -/
def chooseMap (r : BootReport) (s : State) : State :=
  let old := newest (·.gen) s.boot.flash.maps
  let cs := validCopies r 1 {} s.boot.flash.maps
  let c := newest (·.gen) cs
  let s : State := { s with boot := { s.boot with flash := { s.boot.flash with maps := cs } } }
  let s : State := if c.gen = old.gen then s else { s with boot := { s.boot with repair := c.recs, repGen := c.gen } }
  if bothBad r 1 then flashFault 4 (flashMap 0).offset { s with boot := { s.boot with repair := [] } } else s

/-- The stored values, which are loaded as phase 3 starts, before any access (R38): those of the newer valid copy, the defaults where
both fail. -/
def bootStored (r : BootReport) (s : State) : State :=
  let old := newest (·.gen) s.boot.flash.dicts
  let cs := validCopies r 2 {} s.boot.flash.dicts
  let c := newest (·.gen) cs
  let s : State := { s with boot := { s.boot with flash := { s.boot.flash with dicts := cs } } }
  let s : State := if c.gen = old.gen then s else { s with dict := { s.dict with stored := c.vals } }
  loadStored storedEntries (if bothBad r 2 then flashFault 4 (flashDict 0).offset { s with dict := { s.dict with stored := [] } } else s)

/-- Whether the flash may be used (R432): found with its SFDP tables, and of at least 128 MiB. -/
def flashFits (r : BootReport) (s : State) : Bool := r.flashOk && decide (134217728 ≤ s.strap.flashSize)

/-- What a phase leaves when it completes. -/
def phaseWork (phase : Nat) (r : BootReport) (s : State) : State :=
  match phase with
  | 1 => if flashFits r s then s else enterRecovery (flashFault 1 0 s)
  | 2 =>
    let s := chooseHeader r s
    let s := writeHeader (selectSlot (if s.boot.next then 1 else 0) 2 s)
    if s.boot.recovery then s else bootStored r { s with boot := { s.boot with fw := true } }
  | 3 => chooseMap r s
  | 5 => bootMemory r s
  | 6 => bootUnits r s
  | 8 => bootIdle r s
  | _ => s

/-- BOOT_PHASE_DONE (R428). -/
def execBootPhaseDone (phase : Fin 9) (r : BootReport) (s : State) : Res :=
  .next (
    let p := phase.val
    if !s.boot.booting ∨ p = 0 ∨ s.boot.phases.contains p = true ∨ (phaseDeps p).any (fun d => !s.boot.phases.contains d) = true then s
    else
      let s := phaseWork p r { s with boot := { s.boot with phases := s.boot.phases ++ [p] } }
      if r.loadBad && decide (2 ≤ p) && decide (p ≤ 5) then loadFails s else s)

/-- BOOT_WATCHDOG (R431). -/
def execBootWatchdog (s : State) : Res := .next (if s.boot.booting then restartBoot s else s)

/-- REBOOT (R428, 0x2200:06): from idle only. -/
def execReboot (a : Access) (v : BitVec 8) (s : State) : Res :=
  .next (actWrite a 0x2200 6 (fun s =>
    if v ≠ 1 then refuse a 0x2200 6 abRange s
    else if s.keep.dev = .idle then startBoot (reply a [] s)
    else refuse a 0x2200 6 abState s) s)

/-! ### Staging (R440) -/

/-- Read an image from device memory. In recovery mode plan area 0 alone is backed, and before memory is trained nothing
is. -/
def readImage (addr n : Nat) (s : State) : MemOut :=
  if (s.boot.recovery ∧ (planArea s.strap.variant addr ≠ some 0 ∨ planArea s.strap.variant (addr + n - 1) ≠ some 0)) ∨
      (s.boot.recovery = false ∧ s.boot.phases.contains 5 = false) then .notBacked (countRun 0x3012 4 1 s)
  else readDev addr n .clean s

/-- The slot that is staged into: the one that does not run; slot A where none runs. -/
def stageSlot (s : State) : Nat := match s.boot.slotRun with
  | some 0 => 1
  | _ => 0

/-- Staging ends with a result (0x2210:02). -/
def stageFails (c : Nat) (s : State) : State := { s with boot := { s.boot with stage := c } }

/-- Verify an image, and begin to write it. -/
def stageBytes (img : Bytes) (s : State) : State :=
  let c := verify s img
  if c ≠ 0 then stageFails c s
  else
    let k := stageSlot s
    writeHeader (putSlot k { state := 1, image := [] } { s with boot := { s.boot with stage := 1, staging := some k } })

/-- Read an image from device memory, verify it, and begin to write it. -/
def beginStage (addr : Nat) (s : State) : State :=
  match readImage addr 512 s with
  | .ok s h =>
    let n := imgLength h
    if n < 640 ∨ 16777216 < n then stageFails 2 s
    else match readImage addr n s with
      | .ok s img => stageBytes img s
      | x => stageFails 8 x.state
  | x => stageFails 8 x.state

/-- STAGE_IMAGE (R440). -/
def execStageImage (a : Access) (addr : BitVec 64) (s : State) : Res :=
  .next (actWrite a 0x2210 1 (fun s =>
    if s.boot.staging.isSome then refuse a 0x2210 1 abState s else beginStage addr.toNat (wakePath (reply a [] s))) s)

/-- STAGING_DONE (R440): what the slot reads back is verified again, so that a source that changed meanwhile is caught. -/
def execStagingDone (o : StageOutcome) (s : State) : Res :=
  .next (match s.boot.staging with
    | none => s
    | some k =>
      let s : State := { s with boot := { s.boot with staging := none } }
      match o with
      | .written back =>
        if verify s back = 0 then
          let s := writeHeader (putSlot k { state := 2, image := back } { s with boot := { s.boot with stage := 0, next := decide (k = 1) } })
          raise 0x37 0 noSource (pack [(8, 0), (32, fwVersion back)]) s
        else writeHeader (putSlot k {} { s with boot := { s.boot with stage := 7 } })
      | .flashError erase offset =>
        writeHeader (putSlot k {} (flashFault (if erase then 2 else 3) offset.toNat { s with boot := { s.boot with stage := 9 } })))

/-- NEXT_SLOT (R441). -/
def execNextSlot (a : Access) (v : BitVec 8) (s : State) : Res :=
  .next (actWrite a 0x2210 3 (fun s =>
    if 1 < v.toNat then refuse a 0x2210 3 abRange s
    else if (getSlot s v.toNat).state = 2 ∨ (getSlot s v.toNat).state = 4 then
      reply a [] (writeHeader { s with boot := { s.boot with next := decide (v = 1) } })
    else refuse a 0x2210 3 abState s) s)

/-- CONFIRM (R441). -/
def execConfirm (a : Access) (v : BitVec 8) (s : State) : Res :=
  .next (actWrite a 0x2210 4 (fun s =>
    if v ≠ 1 then refuse a 0x2210 4 abRange s
    else match trialSlot s with
      | none => refuse a 0x2210 4 abState s
      | some k => reply a [] (confirmSlot k s)) s)

/-- ATTESTATION_REPORT (R446, R447). -/
def execAttestationReport (a : Access) (s : State) : Res := .next (answerRead a 0x2224 2 s)

/-- TEST_DRAW (R112, 0x3C11:05). -/
def execTestDraw (a : Access) (s : State) : Res := .next (answerRead a 0x3C11 5 s)

end Sys2Proof.Machine
end

