-- ==== Sys2Proof/Machine/Bundle.lean ====
section
/-! DEFINITION. Bundles (R186 to R192): the operations of a bundle are given one command each, and the bundle issues as a
whole, in slot order, with the command that is its last. -/

namespace Sys2Proof.Machine

/-! ### The operations by slot -/

/-- A slot of the bundle, in the order in which the writes of a bundle take effect (R187), and what its operation does. -/
structure SlotOp where
  slot : Nat
  run  : SlotFn

/-- A vector or reduction operation. Where one of its sources is a mailbox, the entries that then stand at its front may be
the batcher's, and enter it while it has room (R150). -/
def onEng (rix : BitVec 11) (isel : Fin 8) (f : List Nat → Nat → State → OpRes) : SlotFn := onRec rix isel fun w p s =>
  match f w p s with
  | .ok t => .ok (if (w.take 4).any fun x => decide (x % 16 = 8) then drainAll p t else t)
  | r => r

/-- The operation of a bundle that a command gives; none for a command that is no operation of a bundle. The semantics of
an operation are those of the definition it names; `u0` is the unit as the bundle found it, which its conditions read
(R133). -/
def slotOp (u0 : UnitSt) : Instr → Option SlotOp
  -- array slot (R85, R196)
  | .ald _ rix isel => some ⟨0, onRec rix isel doAld⟩
  | .abc _ rix isel => some ⟨0, onRec rix isel doAbc⟩
  | .aps _ rix isel => some ⟨0, onRec rix isel doAps⟩
  | .adr _ rix isel => some ⟨0, onRec rix isel doAdr⟩
  | .afl _ rix isel => some ⟨0, onRec rix isel doAfl⟩
  | .anop _ => some ⟨0, fun _ s => .ok s⟩
  -- vector slot (R134, R197)
  | .fadd _ rix isel => some ⟨1, onEng rix isel (vecFloat 2 1 fAdd)⟩
  | .fsub _ rix isel => some ⟨1, onEng rix isel (vecFloat 2 1 fSub)⟩
  | .fmul _ rix isel => some ⟨1, onEng rix isel (vecFloat 2 1 fMul)⟩
  | .fma _ rix isel => some ⟨1, onEng rix isel (vecFloat 3 1 fMa)⟩
  | .fneg _ rix isel => some ⟨1, onEng rix isel (vecFloat 1 1 fNeg)⟩
  | .fabs _ rix isel => some ⟨1, onEng rix isel (vecFloat 1 1 fAbs)⟩
  | .fcps _ rix isel => some ⟨1, onEng rix isel vecFcps⟩
  | .fmax _ rix isel => some ⟨1, onEng rix isel (vecFloat 2 1 fMax)⟩
  | .fmin _ rix isel => some ⟨1, onEng rix isel (vecFloat 2 1 fMin)⟩
  | .fcmp _ rix isel => some ⟨1, onEng rix isel (vecCompare false)⟩
  | .sel _ rix isel => some ⟨1, onEng rix isel vecSel⟩
  | .mov _ rix isel => some ⟨1, onEng rix isel vecMov⟩
  | .iadd _ rix isel => some ⟨1, onEng rix isel (vecInt (· + ·))⟩
  | .isub _ rix isel => some ⟨1, onEng rix isel (vecInt (· - ·))⟩
  | .imul _ rix isel => some ⟨1, onEng rix isel (vecInt (· * ·))⟩
  | .shl _ rix isel => some ⟨1, onEng rix isel (vecInt (shiftBy 0 fun a n => a <<< n))⟩
  | .shr _ rix isel => some ⟨1, onEng rix isel (vecInt (shiftBy 1 fun a n => a >>> n))⟩
  | .sar _ rix isel => some ⟨1, onEng rix isel (vecInt (shiftBy 2 fun a n => a.sshiftRight n))⟩
  | .and _ rix isel => some ⟨1, onEng rix isel (vecInt (· &&& ·))⟩
  | .or _ rix isel => some ⟨1, onEng rix isel (vecInt (· ||| ·))⟩
  | .xor _ rix isel => some ⟨1, onEng rix isel (vecInt (· ^^^ ·))⟩
  | .imax _ rix isel => some ⟨1, onEng rix isel (vecInt fun a b => if a.slt b then b else a)⟩
  | .imin _ rix isel => some ⟨1, onEng rix isel (vecInt fun a b => if a.slt b then a else b)⟩
  | .icmp _ rix isel => some ⟨1, onEng rix isel (vecCompare true)⟩
  | .cvt _ rix isel => some ⟨1, onEng rix isel vecCvt⟩
  | .exp2 _ rix isel => some ⟨1, onEng rix isel (vecTrans exp2Code)⟩
  | .log2 _ rix isel => some ⟨1, onEng rix isel (vecTrans log2Code)⟩
  | .rcp _ rix isel => some ⟨1, onEng rix isel (vecTrans rcpCode)⟩
  | .rsqrt _ rix isel => some ⟨1, onEng rix isel (vecTrans rsqrtCode)⟩
  | .div _ rix isel => some ⟨1, onEng rix isel (vecFloat 2 8 fun xs => divNum (numAt xs 0) (numAt xs 1))⟩
  | .sqrt _ rix isel => some ⟨1, onEng rix isel (vecFloat 1 8 fun xs => sqrtNum (numAt xs 0))⟩
  | .kand _ rix isel => some ⟨1, onEng rix isel (vecMask 2 (· && ·))⟩
  | .kor _ rix isel => some ⟨1, onEng rix isel (vecMask 2 (· || ·))⟩
  | .kxor _ rix isel => some ⟨1, onEng rix isel (vecMask 2 (· != ·))⟩
  | .knot _ rix isel => some ⟨1, onEng rix isel (vecMask 1 fun a _ => !a)⟩
  | .kset _ rix isel => some ⟨1, onEng rix isel (vecMask 0 fun _ _ => true)⟩
  | .kidx _ rix isel => some ⟨1, onEng rix isel vecKidx⟩
  | .vtag _ rix isel => some ⟨1, onEng rix isel vecVtag⟩
  -- reduction slot (R145, R198)
  | .rsum _ rix isel => some ⟨2, onEng rix isel (redAll redSum)⟩
  | .rssum _ rix isel => some ⟨2, onEng rix isel (redSeg RRec.fmt segSum)⟩
  | .rmax _ rix isel => some ⟨2, onEng rix isel (redAll (redExt true))⟩
  | .rmin _ rix isel => some ⟨2, onEng rix isel (redAll (redExt false))⟩
  | .rarg _ rix isel => some ⟨2, onEng rix isel (redAll (redExt true))⟩
  | .rsmax _ rix isel => some ⟨2, onEng rix isel (redSeg RRec.fmt (segBest true))⟩
  | .rsmin _ rix isel => some ⟨2, onEng rix isel (redSeg RRec.fmt (segBest false))⟩
  | .rsarg _ rix isel => some ⟨2, onEng rix isel (redSeg (fun _ => 12) segArg)⟩
  | .raddraw _ rix isel => some ⟨2, onEng rix isel redAddRaw⟩
  | .rrd _ rix isel => some ⟨2, onEng rix isel redRrd⟩
  | .rclr _ rix isel => some ⟨2, onEng rix isel redClr⟩
  | .rtag _ rix isel => some ⟨2, onEng rix isel redTag⟩
  -- stream slot (R167, R199)
  | .sarm _ ctx desc => some ⟨3, opSarm ctx.val desc.toNat⟩
  | .srearm _ ctx field src hold => some ⟨3, opSrearm ctx.val field src hold⟩
  | .sstop _ ctx => some ⟨3, opSstop ctx.val⟩
  | .swait _ ctx => some ⟨3, opSwait ctx.val⟩
  | .cmark _ ch isel => some ⟨3, opCmark ch.val isel.val⟩
  | .crel _ ch isel => some ⟨3, opCrel ch.val isel.val⟩
  -- control slot (R200, R201); QUIET: every operation issued has completed when the next bundle issues
  | .garr i g => some ⟨4, opGarr g.val i.unit.val⟩
  | .gwait i g => some ⟨4, opGwait g.val i.unit.val⟩
  | .gsync i g => some ⟨4, opGsync g.val i.unit.val⟩
  | .lset _ l v => some ⟨4, onUnit (setL l.val v)⟩
  | .ladd _ l v => some ⟨4, onUnit fun u => setL l.val (getL u l.val + v) u⟩
  | .iset _ r v => some ⟨4, onUnit (setI r.val v)⟩
  | .iaddi _ r v => some ⟨4, onUnit fun u => setI r.val (getI u r.val + v) u⟩
  | .ixor _ r v => some ⟨4, onUnit fun u => setI r.val (getI u r.val ^^^ v) u⟩
  | .ilen _ r ch => some ⟨4, opIlen u0 r.val ch.val⟩
  | .hset _ h rix => some ⟨4, onUnit fun u => setH h.val ((Sparse.get 0 u.recs rix.toNat).setWidth 64) u⟩
  | .br _ target => some ⟨4, onUnit (takeBranch target.toNat)⟩
  | .bcnz _ l target => some ⟨4, opBcnz l.val target.toNat⟩
  | .bcond _ c target invert => some ⟨4, opBcond u0 c target.toNat invert⟩
  | .srecv _ core r => some ⟨4, opSrecv core.val r⟩
  | .ssend _ core r => some ⟨4, opSsend core.val r⟩
  | .bwait _ => some ⟨4, opBwait u0⟩
  | .nap _ array vec _ => some ⟨4, opNap array vec⟩
  | .wake _ array vec => some ⟨4, onUnit fun u => { u with napArr := u.napArr && !array, napVec := u.napVec && !vec }⟩
  | .quiet _ => some ⟨4, fun _ s => .ok s⟩
  | .stepend _ t => some ⟨4, opStepend t⟩
  | _ => none

/-! ### Issue of a bundle -/

/-- Put an operation among the operations given of a bundle, in slot order; it replaces one of the same slot. -/
def placeOp (c : Instr) : List Instr → List Instr
  | [] => [c]
  | d :: ds =>
    let slot (x : Instr) : Nat := ((slotOp {} x).map SlotOp.slot).getD 0
    if slot c < slot d then c :: d :: ds else if slot c = slot d then c :: ds else d :: placeOp c ds

/-- Run the operations of a bundle that found the unit `u0` one after the other; the first that is held or faults decides. -/
def runSlots (u0 : UnitSt) (p : Nat) : List Instr → State → OpRes
  | [], s => .ok s
  | c :: cs, s =>
    match slotOp u0 c with
    | none => runSlots u0 p cs s
    | some o =>
      match o.run p s with
      | .ok s => runSlots u0 p cs s
      | r => r

/-- What holds a bundle of which an operation waits (R202): a gate wait of its control operation comes first. -/
def holdOf (p : Nat) (cs : List Instr) (h : Hold) (s : State) : Hold :=
  match cs.getLast?.bind (slotOp (getUnit s p)) with
  | none => h
  | some o => match o.run p s with
    | .wait (.gate g) => .gate g
    | _ => h

/-- Hold a unit's bundle. What an instruction lacks at the pan input port it lacks behind the bytes that stand there, those
which an earlier operation of its bundle would take among them. -/
def holdUnit (p : Nat) (cs : List Instr) (h : Hold) (s : State) : State :=
  modUnit p (fun u =>
    let h := match h with
      | .port k => .port (u.vp0.data.length + k)
      | h => h
    { u with slots := cs, hold := some h }) s

/-- Issue the bundle `cs` (R186, R187): all its operations, or none. A held bundle changes nothing but the hold, and is tried
again with its last command; where GSYNC alone still waits, its arrival is counted. -/
def issueBundle (p : Nat) (cs : List Instr) (s : State) : State :=
  match runSlots (getUnit s p) p cs s with
  | .ok t => finishBundle p t
  | .wait h => holdUnit p cs (holdOf p cs h s) s
  | .fault cause => unitFaultAt p cause s
  | .arrived _ h =>
    match cs.getLast?.bind (slotOp (getUnit s p)) with
    | none => s
    | some o => match o.run p s with
      | .arrived t h => holdUnit p cs h t
      | _ => holdUnit p cs h s

/-- An operation is given to the sequencer of its unit: kept until its bundle is whole, and then the bundle issues. -/
def giveOp (c : Instr) (i : Issue) (s : State) : State :=
  match canIssue s i with
  | none => s
  | some p =>
    let cs := placeOp c (getUnit s p).slots
    if i.last then issueBundle p cs s else modUnit p (fun u => { u with slots := cs }) s

/-! ### Meanings -/

/-- ALD (R85). -/
def execAld (i : Issue) (rix : BitVec 11) (isel : Fin 8) (s : State) : Res := .next (giveOp (.ald i rix isel) i s)

/-- ABC (R78). -/
def execAbc (i : Issue) (rix : BitVec 11) (isel : Fin 8) (s : State) : Res := .next (giveOp (.abc i rix isel) i s)

/-- APS (R85). -/
def execAps (i : Issue) (rix : BitVec 11) (isel : Fin 8) (s : State) : Res := .next (giveOp (.aps i rix isel) i s)

/-- ADR (R82). -/
def execAdr (i : Issue) (rix : BitVec 11) (isel : Fin 8) (s : State) : Res := .next (giveOp (.adr i rix isel) i s)

/-- AFL (R83). -/
def execAfl (i : Issue) (rix : BitVec 11) (isel : Fin 8) (s : State) : Res := .next (giveOp (.afl i rix isel) i s)

/-- ANOP (R85): nothing but its place in the bundle. -/
def execAnop (i : Issue) (s : State) : Res := .next (giveOp (.anop i) i s)

/-- FADD (R134). -/
def execFadd (i : Issue) (rix : BitVec 11) (isel : Fin 8) (s : State) : Res := .next (giveOp (.fadd i rix isel) i s)

/-- FSUB (R134). -/
def execFsub (i : Issue) (rix : BitVec 11) (isel : Fin 8) (s : State) : Res := .next (giveOp (.fsub i rix isel) i s)

/-- FMUL (R134). -/
def execFmul (i : Issue) (rix : BitVec 11) (isel : Fin 8) (s : State) : Res := .next (giveOp (.fmul i rix isel) i s)

/-- FMA (R134). -/
def execFma (i : Issue) (rix : BitVec 11) (isel : Fin 8) (s : State) : Res := .next (giveOp (.fma i rix isel) i s)

/-- FNEG (R134). -/
def execFneg (i : Issue) (rix : BitVec 11) (isel : Fin 8) (s : State) : Res := .next (giveOp (.fneg i rix isel) i s)

/-- FABS (R134). -/
def execFabs (i : Issue) (rix : BitVec 11) (isel : Fin 8) (s : State) : Res := .next (giveOp (.fabs i rix isel) i s)

/-- FCPS (R134). -/
def execFcps (i : Issue) (rix : BitVec 11) (isel : Fin 8) (s : State) : Res := .next (giveOp (.fcps i rix isel) i s)

/-- FMAX (R134). -/
def execFmax (i : Issue) (rix : BitVec 11) (isel : Fin 8) (s : State) : Res := .next (giveOp (.fmax i rix isel) i s)

/-- FMIN (R134). -/
def execFmin (i : Issue) (rix : BitVec 11) (isel : Fin 8) (s : State) : Res := .next (giveOp (.fmin i rix isel) i s)

/-- FCMP (R134). -/
def execFcmp (i : Issue) (rix : BitVec 11) (isel : Fin 8) (s : State) : Res := .next (giveOp (.fcmp i rix isel) i s)

/-- SEL (R134). -/
def execSel (i : Issue) (rix : BitVec 11) (isel : Fin 8) (s : State) : Res := .next (giveOp (.sel i rix isel) i s)

/-- MOV (R134). -/
def execMov (i : Issue) (rix : BitVec 11) (isel : Fin 8) (s : State) : Res := .next (giveOp (.mov i rix isel) i s)

/-- IADD (R134). -/
def execIadd (i : Issue) (rix : BitVec 11) (isel : Fin 8) (s : State) : Res := .next (giveOp (.iadd i rix isel) i s)

/-- ISUB (R134). -/
def execIsub (i : Issue) (rix : BitVec 11) (isel : Fin 8) (s : State) : Res := .next (giveOp (.isub i rix isel) i s)

/-- IMUL (R134). -/
def execImul (i : Issue) (rix : BitVec 11) (isel : Fin 8) (s : State) : Res := .next (giveOp (.imul i rix isel) i s)

/-- SHL (R134). -/
def execShl (i : Issue) (rix : BitVec 11) (isel : Fin 8) (s : State) : Res := .next (giveOp (.shl i rix isel) i s)

/-- SHR (R134). -/
def execShr (i : Issue) (rix : BitVec 11) (isel : Fin 8) (s : State) : Res := .next (giveOp (.shr i rix isel) i s)

/-- SAR (R134). -/
def execSar (i : Issue) (rix : BitVec 11) (isel : Fin 8) (s : State) : Res := .next (giveOp (.sar i rix isel) i s)

/-- AND (R134). -/
def execAnd (i : Issue) (rix : BitVec 11) (isel : Fin 8) (s : State) : Res := .next (giveOp (.and i rix isel) i s)

/-- OR (R134). -/
def execOr (i : Issue) (rix : BitVec 11) (isel : Fin 8) (s : State) : Res := .next (giveOp (.or i rix isel) i s)

/-- XOR (R134). -/
def execXor (i : Issue) (rix : BitVec 11) (isel : Fin 8) (s : State) : Res := .next (giveOp (.xor i rix isel) i s)

/-- IMAX (R134). -/
def execImax (i : Issue) (rix : BitVec 11) (isel : Fin 8) (s : State) : Res := .next (giveOp (.imax i rix isel) i s)

/-- IMIN (R134). -/
def execImin (i : Issue) (rix : BitVec 11) (isel : Fin 8) (s : State) : Res := .next (giveOp (.imin i rix isel) i s)

/-- ICMP (R134). -/
def execIcmp (i : Issue) (rix : BitVec 11) (isel : Fin 8) (s : State) : Res := .next (giveOp (.icmp i rix isel) i s)

/-- CVT (R134). -/
def execCvt (i : Issue) (rix : BitVec 11) (isel : Fin 8) (s : State) : Res := .next (giveOp (.cvt i rix isel) i s)

/-- EXP2 (R134). -/
def execExp2 (i : Issue) (rix : BitVec 11) (isel : Fin 8) (s : State) : Res := .next (giveOp (.exp2 i rix isel) i s)

/-- LOG2 (R134). -/
def execLog2 (i : Issue) (rix : BitVec 11) (isel : Fin 8) (s : State) : Res := .next (giveOp (.log2 i rix isel) i s)

/-- RCP (R134). -/
def execRcp (i : Issue) (rix : BitVec 11) (isel : Fin 8) (s : State) : Res := .next (giveOp (.rcp i rix isel) i s)

/-- RSQRT (R134). -/
def execRsqrt (i : Issue) (rix : BitVec 11) (isel : Fin 8) (s : State) : Res := .next (giveOp (.rsqrt i rix isel) i s)

/-- DIV (R134). -/
def execDiv (i : Issue) (rix : BitVec 11) (isel : Fin 8) (s : State) : Res := .next (giveOp (.div i rix isel) i s)

/-- SQRT (R134). -/
def execSqrt (i : Issue) (rix : BitVec 11) (isel : Fin 8) (s : State) : Res := .next (giveOp (.sqrt i rix isel) i s)

/-- KAND (R134). -/
def execKand (i : Issue) (rix : BitVec 11) (isel : Fin 8) (s : State) : Res := .next (giveOp (.kand i rix isel) i s)

/-- KOR (R134). -/
def execKor (i : Issue) (rix : BitVec 11) (isel : Fin 8) (s : State) : Res := .next (giveOp (.kor i rix isel) i s)

/-- KXOR (R134). -/
def execKxor (i : Issue) (rix : BitVec 11) (isel : Fin 8) (s : State) : Res := .next (giveOp (.kxor i rix isel) i s)

/-- KNOT (R134). -/
def execKnot (i : Issue) (rix : BitVec 11) (isel : Fin 8) (s : State) : Res := .next (giveOp (.knot i rix isel) i s)

/-- KSET (R134). -/
def execKset (i : Issue) (rix : BitVec 11) (isel : Fin 8) (s : State) : Res := .next (giveOp (.kset i rix isel) i s)

/-- KIDX (R134). -/
def execKidx (i : Issue) (rix : BitVec 11) (isel : Fin 8) (s : State) : Res := .next (giveOp (.kidx i rix isel) i s)

/-- VTAG (R137). -/
def execVtag (i : Issue) (rix : BitVec 11) (isel : Fin 8) (s : State) : Res := .next (giveOp (.vtag i rix isel) i s)

/-- RSUM (R145). -/
def execRsum (i : Issue) (rix : BitVec 11) (isel : Fin 8) (s : State) : Res := .next (giveOp (.rsum i rix isel) i s)

/-- RSSUM (R145). -/
def execRssum (i : Issue) (rix : BitVec 11) (isel : Fin 8) (s : State) : Res := .next (giveOp (.rssum i rix isel) i s)

/-- RMAX (R145). -/
def execRmax (i : Issue) (rix : BitVec 11) (isel : Fin 8) (s : State) : Res := .next (giveOp (.rmax i rix isel) i s)

/-- RMIN (R145). -/
def execRmin (i : Issue) (rix : BitVec 11) (isel : Fin 8) (s : State) : Res := .next (giveOp (.rmin i rix isel) i s)

/-- RARG (R145). -/
def execRarg (i : Issue) (rix : BitVec 11) (isel : Fin 8) (s : State) : Res := .next (giveOp (.rarg i rix isel) i s)

/-- RSMAX (R145). -/
def execRsmax (i : Issue) (rix : BitVec 11) (isel : Fin 8) (s : State) : Res := .next (giveOp (.rsmax i rix isel) i s)

/-- RSMIN (R145). -/
def execRsmin (i : Issue) (rix : BitVec 11) (isel : Fin 8) (s : State) : Res := .next (giveOp (.rsmin i rix isel) i s)

/-- RSARG (R145). -/
def execRsarg (i : Issue) (rix : BitVec 11) (isel : Fin 8) (s : State) : Res := .next (giveOp (.rsarg i rix isel) i s)

/-- RADDRAW (R145). -/
def execRaddraw (i : Issue) (rix : BitVec 11) (isel : Fin 8) (s : State) : Res := .next (giveOp (.raddraw i rix isel) i s)

/-- RRD (R145). -/
def execRrd (i : Issue) (rix : BitVec 11) (isel : Fin 8) (s : State) : Res := .next (giveOp (.rrd i rix isel) i s)

/-- RCLR (R145). -/
def execRclr (i : Issue) (rix : BitVec 11) (isel : Fin 8) (s : State) : Res := .next (giveOp (.rclr i rix isel) i s)

/-- RTAG (R145). -/
def execRtag (i : Issue) (rix : BitVec 11) (isel : Fin 8) (s : State) : Res := .next (giveOp (.rtag i rix isel) i s)

/-- SARM (R167). -/
def execSarm (i : Issue) (ctx : Fin 512) (desc : BitVec 12) (s : State) : Res := .next (giveOp (.sarm i ctx desc) i s)

/-- SREARM (R167). -/
def execSrearm (i : Issue) (ctx : Fin 512) (field : RearmField) (src : RearmSrc) (hold : Bool) (s : State) : Res := .next (giveOp (.srearm i ctx field src hold) i s)

/-- SSTOP (R167). -/
def execSstop (i : Issue) (ctx : Fin 512) (s : State) : Res := .next (giveOp (.sstop i ctx) i s)

/-- SWAIT (R167). -/
def execSwait (i : Issue) (ctx : Fin 512) (s : State) : Res := .next (giveOp (.swait i ctx) i s)

/-- CMARK (R167). -/
def execCmark (i : Issue) (ch : Fin 64) (isel : Fin 8) (s : State) : Res := .next (giveOp (.cmark i ch isel) i s)

/-- CREL (R167). -/
def execCrel (i : Issue) (ch : Fin 64) (isel : Fin 8) (s : State) : Res := .next (giveOp (.crel i ch isel) i s)

/-- GARR (R200). -/
def execGarr (i : Issue) (g : Fin 1024) (s : State) : Res := .next (giveOp (.garr i g) i s)

/-- GWAIT (R200). -/
def execGwait (i : Issue) (g : Fin 1024) (s : State) : Res := .next (giveOp (.gwait i g) i s)

/-- GSYNC (R200). -/
def execGsync (i : Issue) (g : Fin 1024) (s : State) : Res := .next (giveOp (.gsync i g) i s)

/-- LSET (R200). -/
def execLset (i : Issue) (l : Fin 16) (v : W32) (s : State) : Res := .next (giveOp (.lset i l v) i s)

/-- LADD (R200). -/
def execLadd (i : Issue) (l : Fin 16) (v : W32) (s : State) : Res := .next (giveOp (.ladd i l v) i s)

/-- ISET (R200). -/
def execIset (i : Issue) (r : Fin 8) (v : W32) (s : State) : Res := .next (giveOp (.iset i r v) i s)

/-- IADDI (R200). -/
def execIaddi (i : Issue) (r : Fin 8) (v : W32) (s : State) : Res := .next (giveOp (.iaddi i r v) i s)

/-- IXOR (R200). -/
def execIxor (i : Issue) (r : Fin 8) (v : W32) (s : State) : Res := .next (giveOp (.ixor i r v) i s)

/-- ILEN (R200). -/
def execIlen (i : Issue) (r : Fin 8) (ch : Fin 64) (s : State) : Res := .next (giveOp (.ilen i r ch) i s)

/-- HSET (R200). -/
def execHset (i : Issue) (h : Fin 8) (rix : BitVec 11) (s : State) : Res := .next (giveOp (.hset i h rix) i s)

/-- BR (R200). -/
def execBr (i : Issue) (target : BitVec 12) (s : State) : Res := .next (giveOp (.br i target) i s)

/-- BCNZ (R200). -/
def execBcnz (i : Issue) (l : Fin 16) (target : BitVec 12) (s : State) : Res := .next (giveOp (.bcnz i l target) i s)

/-- BCOND (R200). -/
def execBcond (i : Issue) (c : Cond) (target : BitVec 12) (invert : Bool) (s : State) : Res := .next (giveOp (.bcond i c target invert) i s)

/-- SRECV (R200). -/
def execSrecv (i : Issue) (core : Fin 4) (r : CtlReg) (s : State) : Res := .next (giveOp (.srecv i core r) i s)

/-- SSEND (R200). -/
def execSsend (i : Issue) (core : Fin 4) (r : CtlReg) (s : State) : Res := .next (giveOp (.ssend i core r) i s)

/-- BWAIT (R200). -/
def execBwait (i : Issue) (s : State) : Res := .next (giveOp (.bwait i) i s)

/-- NAP (R200). -/
def execNap (i : Issue) (array vec : Bool) (window : W32) (s : State) : Res := .next (giveOp (.nap i array vec window) i s)

/-- WAKE (R200). -/
def execWake (i : Issue) (array vec : Bool) (s : State) : Res := .next (giveOp (.wake i array vec) i s)

/-- QUIET (R200). -/
def execQuiet (i : Issue) (s : State) : Res := .next (giveOp (.quiet i) i s)

/-- STEPEND (R200). -/
def execStepend (i : Issue) (t : UnitTiming) (s : State) : Res := .next (giveOp (.stepend i t) i s)

end Sys2Proof.Machine
end

