-- ==== Sys2Proof/Machine/Fabric.lean ====
section
/-! DEFINITION. Ports and flits (R299 to R309), multicast at a node (R325 to R327), tree edges (R321), heartbeats, suspicion
and probes (R331), halt and resume (R335 to R337). -/

namespace Sys2Proof.Machine

/-! ### Training and the peer check (R299, R301) -/

/-- Whether the geometry in force uses a port. -/
def portUsed (s : State) (p : Nat) : Bool :=
  portFitted s p && (!fourPort s || decide (p < 4) || decide (16 ≤ p))

/-- Whether the card trains its ports at all: once phase 4 of a boot is done (R428), and with sizes of two cards or more. -/
def trains (s : State) : Bool :=
  decide (2 ≤ torusCards s) && (decide (s.keep.dev ≠ .boot) || s.boot.phases.contains 4)

/-- Whether a port may train: it is used, and a cable is in its connector (R460). -/
def trainable (s : State) (p : Nat) : Bool := trains s && portUsed s p && (getPort s p).cable

/-- The card that must stand at the other end of a port, and the ports of it that may. For a twin port any card may, unless
the plan names one. -/
def peerWanted (s : State) (p : Nat) : Option Nat × List Nat :=
  if 16 ≤ p then ((partner s).bind (cardOf s), [p])
  else if 12 ≤ p then (some (neighbour s (portDir p).1 (portDir p).2.1 2), [p ^^^ 1])
  else (some (neighbour s (portDir p).1 (portDir p).2.1 1), dirPorts s (portDir p).1 (!(portDir p).2.1))

/-- Whether a peer meets R299. -/
def peerOk (s : State) (p : Nat) (i : PeerInfo) : Bool :=
  let w := peerWanted s p
  let c := i.card.toNat
  (match w.1 with
    | some x => decide (c = x)
    | none => decide (c ≠ cardId s)) &&
    w.2.contains i.port.val && decide (i.g4 = fourPort s) &&
    decide (i.x.toNat = coordOf s c 0) && decide (i.y.toNat = coordOf s c 1) && decide (i.z.toNat = coordOf s c 2)

/-- A port in the condition that its training gave, its link state fresh. -/
def enterPort (p cond : Nat) (i : PeerInfo) (s : State) : State :=
  setPort p { ({} : PortSt) with cond := cond, peer := some (i.card.toNat, i.port.val), cable := (getPort s p).cable } s

/-- A port leaves service for a condition in which it carries nothing: where it was in service, what waits on it fails (R302,
R307). -/
def leavePort (p cond : Nat) (i : PeerInfo) (s : State) : State :=
  enterPort p cond i (if portUp s p then portDown p { getPort s p with cond := cond } s else s)

/-- A cabling mismatch (R301): the port carries no traffic, and event 0x14 is raised. -/
def mismatch (p : Nat) (i : PeerInfo) (s : State) : State :=
  raiseOpen 0x14 noSource (pack [(8, 3), (8, p)]) (leavePort p 5 i s)

/-- What training tells the peer in a link-control flit: card ID, coordinates, port number and geometry (R301). The places of the
fields in its payload are the model's (DESIGN CHOICE, log entry 202). -/
def tellPeer (p : Nat) (s : State) : State :=
  emitFlit p { typ := 8, vl := 0, src := cardId s, len := 1 }
    (leBytes 16 (pack [(16, cardId s), (8, num s 0x2800 4), (8, num s 0x2800 5), (8, num s 0x2800 6), (8, p), (1, b01 (fourPort s))]))
    false s

/-- Training in service is over: what was not acknowledged is sent again, in order (R302). -/
def retrained (p : Nat) (s : State) : State :=
  let x := getPort s p
  drainQueue p x.queue.length (resend p (setPort p { x with retrain := false, nakSent := false } s))

/-- Whether the repair map holds a lane as dropped (R442): WHERE is port and lane. -/
def laneDropped (s : State) (p k : Nat) : Bool := s.boot.repair.any fun r => decide (r.typ = 4) && decide (r.pos = p + 32 * k)

/-- The lanes on which a port runs (R301, R443): of those that trained and are not held as dropped all four, else a healthy pair. -/
def lanesUsed (s : State) (p : Nat) (lanes : BitVec 4) : List Nat :=
  let good (k : Nat) : Bool := lanes.getLsbD k && !laneDropped s p k
  (([[0, 1, 2, 3], [0, 1], [2, 3]].find? fun ks => ks.all good).getD [])

/-- Lanes that failed training are dropped: each is recorded once (R301, R442). -/
def dropLanes (p : Nat) (lanes : BitVec 4) (s : State) : State :=
  ((List.range 4).filter fun k => !lanes.getLsbD k).foldl (fun s k =>
    if laneDropped s p k then s else addRepair { typ := 4, cause := 0, pos := p + 32 * k, step := s.led.committed } s) s

/-- A port has trained on all four lanes, on a healthy pair, or on none. One that was in service keeps what it has not had
acknowledged (R22, R302). -/
def trained (p : Nat) (lanes : BitVec 4) (i : PeerInfo) (s : State) : State :=
  if !trainable s p then s
  else if lanesUsed s p lanes = [] then leavePort p 4 i (dropLanes p lanes s)
  else
    let s := tellPeer p (dropLanes p lanes s)
    let cond := if (lanesUsed s p lanes).length = 4 then 2 else 3
    if !peerOk s p i then mismatch p i s
    else if portUp s p then retrained p (setPort p { getPort s p with cond := cond, peer := some (i.card.toNat, i.port.val) } s)
    else enterPort p cond i s

/-! ### Retraining and retries (R302, R304) -/

/-- A port retrains (R302). -/
def startRetrain (p : Nat) (s : State) : State :=
  let x := getPort s p
  if x.retrain then s else countBoot 0x5083 (p + 1) 1 (countBoot 0x2801 4 1 (setPort p { x with retrain := true, retries := 0 } s))

/-- After 64 consecutive retries without progress the port retrains. -/
def retryCheck (p : Nat) (s : State) : State := if 64 ≤ (getPort s p).retries then startRetrain p s else s

/-- Send a flit on towards another card (R314 to R316). It keeps its buffer here until it leaves (R305). -/
def transit (p : Nat) (h : Hdr) (pl : Bytes) (s : State) : State :=
  match nextPort s h.dst h.unit (some p) with
  | none => s
  | some q => sendOn (some p) q { h with dl := dateline s q (some p) h.dl } pl (oweCredit p h.vl (· - 1) s)

/-- The flit that answers a request: back to its source, on its lane, in the response class. -/
def answerHdr (h : Hdr) (typ : Nat) (s : State) : Hdr :=
  { typ := typ, vl := h.vl, rsp := true, dst := h.src, src := cardId s, txn := h.txn, unit := h.unit, ctx := h.ctx, tree := h.tree }

/-- A write is acknowledged (R307). -/
def sendAck (h : Hdr) (s : State) : State :=
  match nextPort s h.src h.unit none with
  | none => s
  | some q => sendFlit q { answerHdr h 4 s with last := true, dl := dateline s q none false } [] s

/-- What a harvest of another card calls its buffer on this gateway (R373): base and length. -/
def gatewayEntry (s : State) (card : Nat) : Option (Nat × Nat) := tableEntry (valBytes s 0x2A18 0) (logicalOf s card)

/-- The section offsets that a directory names, which follows a header of 256 B (R372). -/
def dirOffsets (image : Bytes) : List Nat := (chunks 64 ((image.length - 256) / 64) (image.drop 256)).map fun e => leAt e 8 8

/-- A whole write of another card's harvest goes to the gateway's own host as one operation (R396): the header and directory at
offset 0, or a section, whose index its place in the directory gives. -/
def gatewayOut (g : GwIn) (base : Nat) (s : State) : State :=
  if g.off = 0 then
    hostWrite 6 base 0 g.data none (if g.data.length ≤ 256 then s
      else { s with harv := { s.harv with gwDirs := Sparse.set [] s.harv.gwDirs g.src (dirOffsets g.data) } })
  else hostWrite 5 (base + g.off) ((Sparse.get [] s.harv.gwDirs g.src).findIdx fun o => decide (o = g.off)) g.data none s

/-- Harvest bytes of another card for the gateway's own host; none where it has no buffer for them or no host link. -/
def gatewayWrite (h : Hdr) (pl : Bytes) (s : State) : Option State :=
  match gatewayEntry s h.src with
  | none => none
  | some e =>
    if e.2 < h.addr + pl.length ∨ s.host.down = true then none
    else
      let mine (g : GwIn) : Bool := decide (g.src = h.src) && decide (g.txn = h.txn)
      let g := (s.harv.gwIn.find? mine).getD { src := h.src, txn := h.txn, off := h.addr, data := [] }
      let g := { g with data := g.data ++ pl }
      let more := s.harv.gwIn.filter fun x => !mine x
      if h.last then some (gatewayOut g e.1 { s with harv := { s.harv with gwIn := more } })
      else some { s with harv := { s.harv with gwIn := more ++ [g] } }

/-- Perform one flit of a write: none where it fails. -/
def landWrite (h : Hdr) (pl : Bytes) (s : State) : State × Bool :=
  if h.vl = 5 then (match gatewayWrite h pl s with
    | some s => (s, true)
    | none => (s, false))
  else match writeDev h.addr pl s with
    | .ok s _ => (s, true)
    | .notBacked s => (s, false)
    | .failed s => (s, false)

/-- A write flit: with the last of its transaction, and none of them failed, it is acknowledged. A write that fails is not:
its sender's request runs out of time. -/
def onWrite (h : Hdr) (pl : Bytes) (s : State) : State :=
  let key := (h.src, h.txn)
  let x := if s.fab.badWr.contains key then (s, false) else landWrite h pl s
  let s := x.1
  if h.last then
    let s : State := { s with
      fab := { s.fab with badWr := s.fab.badWr.filter (· ≠ key) }
      harv := { s.harv with gwIn := s.harv.gwIn.filter fun g => decide ((g.src, g.txn) ≠ key) } }
    if x.2 then sendAck h s else s
  else if x.2 then s
  else { s with fab := { s.fab with badWr := if s.fab.badWr.contains key then s.fab.badWr else s.fab.badWr ++ [key] } }

/-- A read request (R303): its responses in address order. One that fails, or whose length is no legal one, is not answered. -/
def onRead (h : Hdr) (pl : Bytes) (ecc : Ecc) (s : State) : State :=
  let n := leAt pl 0 4
  if n = 0 ∨ 16128 < n ∨ n % 16 ≠ 0 then s
  else match readDev h.addr n ecc s with
    | .notBacked s => s
    | .failed t => damageFound s t
    | .ok s bs => match nextPort s h.src h.unit none with
      | none => s
      | some q => sendRun q (answerHdr h 3 s) h.addr bs true s

/-! ### Multicast at a node (R325 to R327) -/

/-- Ask for the next bytes of a detached stream from the root, or end it. -/
def replayNext (tree : Nat) (s : State) : State :=
  let r := getTree s tree
  match treeRec s tree with
  | none => s
  | some t =>
    if r.len ≤ r.landed then markLanding t false (setTree tree { r with ended := true } s)
    else
      let n := min 16128 (r.len - r.landed)
      let port := (cardOf s r.root).bind fun c => (nextPort s c 0 none).map fun q => (c, q)
      match port.filter fun x => portUp s x.2 with
      | none => treeFault tree 2 (r.root * 2 ^ 42 + r.src + r.landed) (countRemoteFail s)
      | some (c, q) =>
        let x := freshTxn s
        let m : Remote := { txn := x.1, unit := routerUnit, ctx := 0, port := q, dst := c, write := false, tree := some tree,
                            addr := (r.src + r.landed) % 2 ^ 42, len := n }
        let s : State := { x.2 with fab := { x.2.fab with remotes := x.2.fab.remotes ++ [m] } }
        sendFlit q { typ := 2, vl := 3, dst := c, src := cardId s, len := 1, addr := m.addr, txn := x.1, last := true,
                     dl := dateline s q none false } (leBytes 16 n) s

/-- Land the bytes of stream position `pos` on this node and pass them on to its children. -/
def landTree (t : TreeRec) (pos : Nat) (pl : Bytes) (last : Bool) (s : State) : State :=
  let r := getTree s t.tree
  let out := treeForward t pos { typ := 5, vl := r.vl, addr := r.dst + pos, txn := r.txn, unit := r.unit, last := last } pl
  match writeDev (r.dst + pos) pl s with
  | .ok s _ => out (setTree t.tree { getTree s t.tree with landed := max r.landed (pos + pl.length), ended := last } s)
  | .notBacked s => treeFault t.tree 4 (globalOf s (r.dst + pos)) s
  | .failed s => treeFault t.tree 3 (globalOf s (r.dst + pos)) s

/-- A multicast data flit that the node accepts: it lands where its address says. -/
def acceptData (t : TreeRec) (h : Hdr) (pl : Bytes) (s : State) : State :=
  let s := landTree t (h.addr - (getTree s t.tree).dst) pl h.last s
  if h.last ∧ (getTree s t.tree).ended = true then treeCheck t.tree (markLanding t false s) else s

/-- A multicast data flit. A node of a tree without DETACH whose backlog stands at the weir does not accept it: it keeps the
flit, and its credit, until the backlog falls (R326). -/
def onTreeData (p : Nat) (h : Hdr) (pl : Bytes) (s : State) : State :=
  match treeRec s h.tree with
  | none => s
  | some t =>
    let r := getTree s h.tree
    if t.role = 0 ∨ r.own = true ∨ r.ended = true then s
    else if !r.held.isEmpty || treeHeld s t r.unit pl.length then
      oweCredit p h.vl (· - 1) (setTree h.tree { r with held := r.held ++ [(p, h.toNat false 0 0 0 0, pl)] } s)
    else acceptData t h pl s

/-- Accept what a tree holds back, as far as the backlog now allows. -/
def acceptHeld (t : TreeRec) : Nat → State → State
  | 0, s => s
  | n + 1, s =>
    let r := getTree s t.tree
    match r.held with
    | [] => s
    | (p, hb, pl) :: more =>
      if treeHeld s t r.unit pl.length then s
      else acceptHeld t n (acceptData t (Hdr.of hb) pl (oweCredit p (Hdr.of hb).vl (· + 1) (setTree t.tree { r with held := more } s)))

/-- Accept what every tree holds back. -/
def acceptAll (s : State) : State :=
  s.plan.plan.trees.foldl (fun s t => acceptHeld t (getTree s t.tree).held.length s) s

/-- A start message: the stream opens here and below. -/
def onTreeStart (h : Hdr) (pl : Bytes) (s : State) : State :=
  match treeRec s h.tree with
  | none => s
  | some t =>
    if t.role = 0 then s
    else treeStart t { root := leAt pl 2 2, src := leAt pl 4 8, len := leAt pl 12 8, dst := h.addr, txn := h.txn,
                        unit := h.unit, vl := h.vl, up := some h.src } s

/-- The detach message: this card becomes the source of its subtree, from its landed count on. -/
def onDetach (tree root src len landed : Nat) (s : State) : State :=
  let r := getTree s tree
  if (treeRec s tree).isNone ∨ r.own = true then s
  else replayNext tree { s with fab := { s.fab with
    detUp := if s.fab.detUp.contains tree then s.fab.detUp else s.fab.detUp ++ [tree],
    trees := Sparse.set {} s.fab.trees tree { r with own := true, root := root, src := src, len := len, landed := max r.landed landed } } }

/-- One response of a replay read: its bytes land in order, and the next read follows the last of them. -/
def onReplay (m : Remote) (h : Hdr) (pl : Bytes) (s : State) : State :=
  let tree := m.tree.getD 0
  match treeRec s tree with
  | none => s
  | some t =>
    let r := getTree s tree
    let s := landTree t r.landed pl (decide (r.len ≤ r.landed + pl.length)) (countRun 0x2820 9 pl.length s)
    if h.last then replayNext tree (dropRemotes [m.txn] s) else s

/-- A read response (R307): a read ends with its last flit. -/
def onResponse (h : Hdr) (pl : Bytes) (s : State) : State :=
  match findRemote s h.txn with
  | none => s
  | some m =>
    if m.write ∨ m.done = true then s
    else if m.unit = routerUnit then onReplay m h pl s
    else modRemote h.txn (fun m => { m with got := m.got ++ pl, done := h.last }) s

/-! ### Acknowledgements -/

/-- A harvest to a gateway: the next section goes out when the one before it has been acknowledged; with the header's
acknowledgement the harvest is complete (R373). -/
def gatewayNext (s : State) : State :=
  if s.harv.state ≠ 2 ∨ (s.fab.remotes.any fun r => decide (r.unit = harvUnit)) = true then s
  else match s.harv.left with
    | [] => if s.harv.head.isEmpty then harvDone s else s
    | i :: _ =>
      let off := (offsetsOf s).getD i 0
      match takeSection i s with
      | (s, none) => s
      | (s, some bs) => toGateway off bs s

/-- The image has reached the spare: it is told to activate it (R362). -/
def imageLoaded (s : State) : State :=
  match s.twin.loading with
  | none => s
  | some c =>
    if s.fab.remotes.any fun r => decide (r.unit = loadUnit') then s
    else askCard c 2 (.write 0x3880 1 [0]) s

/-- A write acknowledgement: of a write, or, with a payload, of a multicast branch that has landed its last byte (log entry
24). -/
def onAck (h : Hdr) (s : State) : State :=
  if h.len ≠ 0 then
    match treeRec s h.tree, logicalOf s h.src with
    | some _, some l =>
      let r := getTree s h.tree
      treeCheck h.tree (setTree h.tree { r with acked := if r.acked.contains l then r.acked else r.acked ++ [l] } s)
    | _, _ => s
  else match findRemote s h.txn with
    | none => s
    | some m =>
      if !m.write then s
      else if m.unit = harvUnit then gatewayNext (dropRemotes [m.txn] s)
      else if m.unit = loadUnit' then imageLoaded (dropRemotes [m.txn] s)
      else modRemote h.txn (fun m => { m with done := true }) s

/-! ### Tree edges (R321) -/

/-- What another card says of an edge. -/
def takeEdge (e : Nat × Nat × Nat) (confirmed : Bool) (s : State) : State :=
  if confirmed then
    let s : State := if s.fab.edges.contains e then s else { s with fab := { s.fab with edges := s.fab.edges ++ [e] } }
    arriveStart (if s.led.startGate then answerEdge e s else s)
  else
    let s := badEdge e.2.2 s
    arriveStart { s with fab := { s.fab with
      badEdges := if s.fab.badEdges.contains e then s.fab.badEdges else s.fab.badEdges ++ [e] } }

/-! ### Heartbeats, suspicion and probes (R331) -/

/-- The ports that lead straight to a card. -/
def portsTo (s : State) (card : Nat) : List Nat :=
  (List.range 16).filter fun p => portUsed s p && decide ((peerWanted s p).1 = some card) && decide (card ≠ cardId s)

/-- Whether every port to a neighbour is down or silent since the last look. -/
def silent (s : State) (card : Nat) : Bool :=
  let ps := portsTo s card
  !ps.isEmpty && ps.all fun p => !portUp s p || !s.fab.alive.contains p

/-- A card suspects a neighbour. -/
def suspectCard (card : Nat) (s : State) : State := toCard (judgeOf s card) (.suspect card) s

/-- A suspicion at the card that judges it: a card that names itself is declared at once (R360), another is probed. -/
def takeSuspect (sender card : Nat) (s : State) : State :=
  if some (judgeOf s card) ≠ myLogical s ∨ s.fab.declared.contains card = true ∨ (failedCards s).contains card = true then s
  else if sender = card then declareFailed card s
  else if s.fab.probing.contains card then s
  else toCardId card (.probe sender) { s with fab := { s.fab with probing := s.fab.probing ++ [card] } }

/-! ### Halt and resume (R335 to R337) -/

/-- Whether (serial, origin) a comes after b. -/
def laterHalt (a b : Nat × Nat) : Bool := decide (b.1 < a.1) || (decide (a.1 = b.1) && decide (b.2 < a.2))

/-- Act on a halt: the latest is recorded, and it is forwarded on every port in service; a running card stops injecting. -/
def actHalt (serial origin : Nat) (s : State) : State :=
  let later := laterHalt (serial, origin) (s.fab.haltSer, s.fab.haltOrg)
  let s : State := { s with fab := { s.fab with
    haltSer := if later then serial else s.fab.haltSer, haltOrg := if later then origin else s.fab.haltOrg,
    acted := s.fab.acted ++ [(serial, origin)], seenSer := max s.fab.seenSer serial } }
  let s := flood (.halt serial origin) s
  if s.keep.dev = .running then countBoot 0x2820 0xB 1 { s with keep := { s.keep with dev := .halted } } else s

/-- Raise a halt with a new serial. -/
def raiseHalt (s : State) : State := actHalt (s.fab.seenSer + 1) (cardId s) s

/-- The gate messages received while the card was halted take effect, in the order in which they came (R336). -/
def takeRecorded (s : State) : State :=
  s.fab.recorded.foldl (fun s g => match g with
    | .arrival src g => gateArrived src g s
    | .release g => gateReleased g s) { s with fab := { s.fab with recorded := [] } }

/-- Whether a card goes on with a resume: halted, and it has acted on no later halt. -/
def mayResume (serial origin : Nat) (s : State) : Bool :=
  decide (s.keep.dev = .halted) && !s.keep.mirror && !laterHalt (s.fab.haltSer, s.fab.haltOrg) (serial, origin)

/-- Act on a resume: forwarded, and a card that has acted on no later halt goes on. -/
def actResume (serial origin : Nat) (s : State) : State :=
  let goes := mayResume serial origin s
  let s := flood (.resume serial origin) { s with fab := { s.fab with
    resSer := serial, resOrg := origin, seenSer := max s.fab.seenSer serial } }
  if goes then
    takeRecorded { s with
      keep := { s.keep with dev := .running }
      led := { s.led with engStop := if s.led.st = .aborting then s.led.engStop else [] } }
  else s

/-- A halt written into this card's own dictionary: CAN carries it too. -/
def ownHalt (s : State) : State := send .nmtStop (raiseHalt s)

/-! ### A flit -/

/-- A link with nothing else to send sends a null flit, which takes the acknowledgement and the credits back: here once after
each flit received that no other flit has answered (DESIGN CHOICE, log entry 177). -/
def idleLink (p seq : Nat) (s : State) : State :=
  if portUp s p && (getPort s p).queue.isEmpty && decide ((getPort s p).txSeq = seq) then sendNull p false s else s

/-- And one on every other idle link to which credits are due (R303, R305; log entry 177). -/
def idleOthers (p : Nat) (s : State) : State :=
  (List.range 20).foldl (fun s q =>
    let x := getPort s q
    if q ≠ p ∧ portUp s q = true ∧ x.retrain = false ∧ x.queue.isEmpty = true ∧ x.owe.isEmpty = false then sendNull q false s
    else s) s

/-- Receive a flit of some types and act on it where it is for this card. -/
def onFlit (p : Nat) (f : Flit) (types : List Nat) (act : Hdr → Bytes → State → State) (s : State) : State :=
  let seq := (getPort s p).txSeq
  match recvFlit p f s with
  | (s, none) => retryCheck p s
  | (s, some (x, pl)) =>
    let h := Hdr.of x
    let s := retryCheck p s
    let s := if !types.contains h.typ || s.keep.mirror then s
      else if linkOnly h.typ = false ∧ h.dst ≠ cardId s ∧ p < 16 then transit p h pl s
      else act h pl s
    let s := acceptAll s
    idleOthers p (if linkOnly h.typ then s else idleLink p seq s)

/-! ### Meanings -/

/-- PORT_TRAINED (R301). -/
def execPortTrained (p : Fin 20) (lanes : BitVec 4) (peer : PeerInfo) (s : State) : Res := .next (trained p.val lanes peer s)

/-- LOSS_OF_LOCK (R302). -/
def execLossOfLock (p : Fin 20) (s : State) : Res := .next (if portUp s p.val then startRetrain p.val s else s)

/-- RETRAIN_DONE (R302): what was not acknowledged is sent again, in order. -/
def execRetrainDone (p : Fin 20) (s : State) : Res := .next (if (getPort s p.val).retrain then retrained p.val s else s)

/-- RETRAIN_TIMEOUT (R302, R307). -/
def execRetrainTimeout (p : Fin 20) (s : State) : Res :=
  .next (
    let x := getPort s p.val
    if x.retrain then portDown p.val { ({} : PortSt) with cond := 4, peer := x.peer, cable := x.cable } s else s)

/-- NULL_FLIT (R303 to R305). -/
def execNullFlit (p : Fin 20) (f : Flit) (s : State) : Res := .next (onFlit p.val f [0] (fun _ _ s => s) s)

/-- WRITE_FLIT (R307). -/
def execWriteFlit (p : Fin 20) (f : Flit) (s : State) : Res := .next (onFlit p.val f [1] onWrite s)

/-- READ_REQUEST (R303). -/
def execReadRequest (p : Fin 20) (f : Flit) (ecc : Ecc) (s : State) : Res :=
  .next (onFlit p.val f [2] (fun h pl s => onRead h pl ecc s) s)

/-- READ_RESPONSE (R307). -/
def execReadResponse (p : Fin 20) (f : Flit) (s : State) : Res := .next (onFlit p.val f [3] onResponse s)

/-- WRITE_ACKNOWLEDGE (R307, R325). -/
def execWriteAcknowledge (p : Fin 20) (f : Flit) (s : State) : Res := .next (onFlit p.val f [4] (fun h _ s => onAck h s) s)

/-- LINK_CONTROL (R301): a peer that breaks R299 marks the port. -/
def execLinkControl (p : Fin 20) (f : Flit) (peer : PeerInfo) (s : State) : Res :=
  .next (
    let s := if portUp s p.val then onFlit p.val f [8] (fun _ _ s => s) s else s
    if !trainable s p.val || !f.fecOk || s.keep.mirror then s
    else if peerOk s p.val peer then
      (if portCond s p.val = 1 then setPort p.val { getPort s p.val with peer := some (peer.card.toNat, peer.port.val) } s else s)
    else if portCond s p.val = 5 then s
    else mismatch p.val peer s)

/-- MULTICAST_DATA (R325): data flits, and the start message of a stream. -/
def execMulticastData (p : Fin 20) (f : Flit) (s : State) : Res :=
  .next (onFlit p.val f [5, 6] (fun h pl s =>
    if h.typ = 5 then onTreeData p.val h pl s else if leAt pl 0 2 = 0 then onTreeStart h pl s else s) s)

/-- DETACH_MESSAGE (R326, R327). -/
def execDetachMessage (_ : Fin 20) (tree : BitVec 12) (root : BitVec 14) (src : BitVec 42) (len landed : Nat) (s : State) : Res :=
  .next (if s.keep.mirror then s else onDetach tree.toNat root.toNat src.toNat len landed s)

/-- REMOTE_REQUEST_TIMEOUT (R307): the time does not run while the card is halted. -/
def execRemoteRequestTimeout (txn : BitVec 16) (s : State) : Res :=
  .next (match findRemote s txn.toNat with
    | none => s
    | some r => if r.done ∨ s.keep.dev = .halted then s else failRemote r s)

/-- TREE_EDGE_CONFIRMATION (R321). -/
def execTreeEdgeConfirmation (h : TpHdr) (tree : BitVec 12) (parent child : BitVec 14) (confirmed : Bool) (s : State) : Res :=
  .next (hear h 0x0A (takeEdge (tree.toNat, parent.toNat, child.toNat) confirmed) s)

/-- HEARTBEAT_MESSAGE (R330, R331). -/
def execHeartbeatMessage (h : TpHdr) (s : State) : Res :=
  .next (hear h 0x08 (fun s =>
    if s.fab.alive.contains h.port.val then s else { s with fab := { s.fab with alive := s.fab.alive ++ [h.port.val] } }) s)

/-- FABRIC_HEARTBEAT_TIMER (R330): a heartbeat on every port in service. The message identifiers of the last period are kept for
one more, so that none of the last 100 µs is forgotten (R332). -/
def execFabricHeartbeatTimer (s : State) : Res :=
  .next (
    let s : State := { s with fab := { s.fab with seen := [], seenOld := s.fab.seen } }
    if fabricTrained s then flood .heartbeat s else s)

/-- SUSPICION_TIMEOUT (R315, R331). -/
def execSuspicionTimeout (card : BitVec 14) (s : State) : Res :=
  .next (
    let c := card.toNat
    let quiet := silent s c && !(failedCards s).contains c && !s.fab.declared.contains c
    let s : State := { s with fab := { s.fab with alive := s.fab.alive.filter fun p => !(portsTo s c).contains p } }
    if quiet then suspectCard c s else s)

/-- SUSPECT (R331, R360). -/
def execSuspect (h : TpHdr) (card : BitVec 14) (s : State) : Res := .next (hear h 0x09 (takeSuspect h.src.toNat card.toNat) s)

/-- PROBE (R331): a card declared failed answers nothing (R360). -/
def execProbe (h : TpHdr) (s : State) : Res :=
  .next (hear h 0x09 (fun s => if s.keep.mirror then s else toCardId h.src.toNat .probeAnswer s) s)

/-- PROBE_ANSWER (R331). -/
def execProbeAnswer (h : TpHdr) (s : State) : Res :=
  .next (hear h 0x09 (fun s => { s with fab := { s.fab with probing := s.fab.probing.filter (· ≠ h.src.toNat) } }) s)

/-- PROBE_TIMEOUT (R331). -/
def execProbeTimeout (card : BitVec 14) (s : State) : Res :=
  .next (if s.fab.probing.contains card.toNat then declareFailed card.toNat s else s)

/-- HALT (R335). -/
def execHalt (a : Access) (v : BitVec 8) (s : State) : Res :=
  .next (actWrite a 0x2804 1 (fun s => if v ≠ 1 then refuse a 0x2804 1 abRange s else ownHalt (reply a [] s)) s)

/-- HALT_MESSAGE (R335, R336): a halt that this card has acted on is dropped. -/
def execHaltMessage (h : TpHdr) (serial : BitVec 32) (origin : BitVec 14) (s : State) : Res :=
  .next (hear h 0x07 (fun s =>
    if s.fab.acted.contains (serial.toNat, origin.toNat) then s else actHalt serial.toNat origin.toNat s) s)

/-- RESUME (R337): it carries the latest halt that this card has acted on. -/
def execResume (a : Access) (v : BitVec 8) (s : State) : Res :=
  .next (actWrite a 0x2804 2 (fun s =>
    if v ≠ 1 then refuse a 0x2804 2 abRange s else reply a [] (actResume s.fab.haltSer s.fab.haltOrg s)) s)

/-- RESUME_MESSAGE (R337): a resume that has been acted on is not spread again, unless the card has halted anew since. -/
def execResumeMessage (h : TpHdr) (serial : BitVec 32) (origin : BitVec 14) (s : State) : Res :=
  .next (hear h 0x07 (fun s =>
    if laterHalt (serial.toNat, origin.toNat) (s.fab.resSer, s.fab.resOrg) || mayResume serial.toNat origin.toNat s then
      actResume serial.toNat origin.toNat s else s) s)

end Sys2Proof.Machine
end

