-- ==== Sys2Proof/Machine/Shadow.lean ====
section
/-! DEFINITION. The mirror that this card keeps for its partner: the bytes it answers PULL with (R358), the shadow update
(R352), the resolution of copies that differ (R356) and the full-state comparison (R357). -/

namespace Sys2Proof.Machine

/-! ### The mirror -/

def mirrorRun (s : State) (k : Nat) : MirrorRun := Sparse.get {} s.twin.mruns k

def setMirrorRun (k : Nat) (r : MirrorRun) (s : State) : State :=
  { s with twin := { s.twin with mruns := Sparse.set {} s.twin.mruns k r } }

/-- Reference digests of the partner's layers and of this card's own. -/
def mirrorRef (s : State) (k : Nat) : BitVec 128 := Sparse.get 0 s.twin.mrefs k
def ownRef (s : State) (k : Nat) : BitVec 128 := Sparse.get 0 s.twin.refs k

def setMirrorRef (k : Nat) (d : BitVec 128) (s : State) : State :=
  { s with twin := { s.twin with mrefs := Sparse.set 0 s.twin.mrefs k d } }

def setOwnRef (k : Nat) (d : BitVec 128) (s : State) : State :=
  { s with twin := { s.twin with refs := Sparse.set 0 s.twin.refs k d } }

/-- A layer's state areas without its record. -/
def stateRanges (lt : LayerTab) (k : Nat) : List (Nat × Nat) :=
  match layerEnt lt k with
  | none => []
  | some e => stateAreas lt e

/-- Held-scale tables, in declaration order. -/
def heldBytes (s : State) : State × Bytes := fetchRanges (heldRanges s) s

/-- This card's boundary data and their digest (R355). -/
def boundaryData (s : State) : State × Bytes :=
  let x := heldBytes s
  (x.1, x.2 ++ boundaryBlock x.1)

/-- The mirrored boundary block as T's records hold it. -/
def mirrorBlock (s : State) : Bytes :=
  boundaryBytes s.twin.plast s.twin.precord
    ((s.twin.pbranches.filter fun b => decide (0 < b.held)).flatMap fun b => leBytes 4 (b.tree + 65536 * b.child)) s.twin.psettings

def mirrorScales (s : State) : State × Bytes := fetchRanges [(s.plan.plan.tw.mscales, s.plan.plan.tw.msBytes)] s

/-- The digest of the mirrored boundary data. -/
def mirrorBoundaryDigest (s : State) : State × BitVec 128 :=
  let x := mirrorScales s
  (x.1, twinDigest (x.2 ++ mirrorBlock x.1))

/-- Put a boundary block in the mirror: MBLOCK and the parts the decisions use. DESIGN CHOICE: the counts of consecutive
detachments of branches that do not stand, which no boundary block carries, begin at 0 (log entry 173). -/
def putMirrorBlock (bs : Bytes) (s : State) : State :=
  let b := parseBoundary bs
  let st := (chunks 4 (b.standing.length / 4) b.standing).map fun w =>
    ({ tree := leAt w 0 2 % 4096, child := leAt w 2 2 % 16384, run := 0, held := 1 } : Branch)
  let s : State := { s with twin := { s.twin with
    plast := b.last, precord := b.dec, psettings := b.settings, pbranches := st, pgen := b.dec.gen } }
  pokeDev s.plan.plan.tw.mblock (bs.take 65536) s

/-- Bytes of the side pond for the twin; none where they cannot be read. -/
def pondServe (off n : Nat) (bs : Bytes) (s : State) : State × Bytes :=
  match pondBad s off n with
  | some cause => (failPond cause s, [])
  | none => (s, bs)

/-- The bytes that a pulled range names on this card; of inputs that it does not hold, none (R363). -/
def rangeServe (a n : Nat) (s : State) : State × Bytes :=
  let tw := s.plan.plan.tw
  if a < pullBoundary then fetchRanges [(tw.mscales + a, n)] s
  else if a < pullRecs then
    let x := boundaryData s
    (x.1, slice x.2 (a - pullBoundary) n)
  else if a < pullMirror then fetchRanges [(tw.ptab.lstate + (a - pullRecs), n)] s
  else if a < pullInput then
    (s, slice (boundaryBytes s.twin.plast { s.twin.precord with attempts := s.led.run.attempts }
      ((s.twin.pbranches.filter fun b => decide (0 < b.held)).flatMap fun b => leBytes 4 (b.tree + 65536 * b.child))
      s.twin.psettings) (a - pullMirror) n)
  else if a < pullHeld then
    pondServe (pondRetained s s.led.running + (a - pullInput)) n (match s.mem.retained.find? fun r => decide (r.1 = s.led.running) with
      | some r => Sparse.getMany 0 r.2 (a - pullInput) n
      | none => []) s
  else if s.twin.inputStep = s.led.running then
    pondServe (pondPend s (a - pullHeld)) n (Sparse.getMany 0 s.mem.pend (a - pullHeld) n) s
  else (s, [])

/-! ### Records of a resolution (R356) -/

/-- Sub-index of 0x2A04 that counts an end at a step of R356. -/
def endSub (outcome : Nat) : Nat :=
  match outcome with
  | 1 => 4 | 3 => 5 | 4 => 6 | 5 => 7 | _ => 8

/-- A resolution has ended (0x2A05, 0x2A04): event 0x11; step 6 marks the layer suspect, sets bit 7 of 0x1001 and the flag that
the TWIN LED shows. -/
def resolved (k outcome role : Nat) (s : State) : State :=
  let s := countBoot 0x2A04 (endSub outcome) 1 { s with twin := { s.twin with
    resStep := s.led.committed, resLayer := k, resOut := outcome, resRole := role } }
  let s := raiseOpen 0x11 noSource (pack [(16, k), (8, outcome), (8, role)]) s
  if outcome = 6 then
    { s with dict := { s.dict with errReg := s.dict.errReg ||| 0x81#8 }, twin := { s.twin with suspects := true } }
  else s

/-! ### The shadow update (R352) -/

/-- What a shadow update takes from the partner's step: its schedule, its record, and the mirrored settings. -/
def shadowIn (s : State) (m : MeasBlock) : StepIn :=
  let g := blockSettings s.twin.shadowSet
  { step := s.twin.shadowN, lr := stepRate g (partnerLt s).points s.twin.shadowN, l := (StepRec.ofNat m.record.toNat).l,
    seed := g 0x3C10 1, rne := decide (g 0x3C12 1 ≠ 0), surge := BitVec.ofNat 32 (g 0x4008 1) }

/-- Every piece of a layer in order: the state, the largest moment, whether all went well, whether a non-finite result
appeared. -/
def shadowPieces (c : UpdC) : List (TensorEnt × Nat) → Nat → State → State × Nat × Bool × Bool
  | [], amax, s => (s, amax, true, false)
  | (t, p) :: ps, amax, s =>
    match updatePiece true c t p .clean s with
    | (s, o) =>
      if !o.ok then (s, amax, false, false)
      else if o.bad then (s, amax, true, true)
      else shadowPieces c ps (max amax o.amax) s

/-- The first range of mirror areas that cannot be read, by the block that keeps it from being read, and the cause. -/
def rangesBad (rs : List (Nat × Nat)) (s : State) : Option (Nat × Nat) :=
  rs.findSome? fun r => ((rangeGroupBad s r.1 r.2).map fun a => (a, 4)).orElse fun _ =>
    ((blocksOf r.1 r.2).find? (blockBad s)).map fun a => (a, 1)

/-- Check and update of one partner layer: the state with the new mirror layer and record, and its digest; no digest where the
mirror layer is kept, to be overwritten from the primary. A read that fails is recorded (R246). -/
def shadowLayer (k : Nat) (e : LayerEnt) (m : MeasBlock) (s : State) : State × Option (BitVec 128) :=
  let lt := partnerLt s
  let cin := shadowIn s m
  match rangesBad (layerRanges lt k) s with
  | some x => (failRequest x.1 x.2 s, none)
  | none => match sumTensors true cin.l (lt.tensorsOf e) {} .clean s with
  | (s, none) => (s, none)
  | (s, some g) => match readRec lt k s with
   | (s, none) => (s, none)
   | (s, some r) =>
    let c := clipOf lt e r cin g
    if c.abort ≠ 0 then (s, none)
    else
      let cs := match s.twin.applyCs with
        | some x => (opMul c.cs x).1
        | none => c.cs
      let u := (updConsts e r cin cs).1
      let f := stageFactors u (if hasSm e then lt.tensorsOf e else []) s
      if !f.2.1 || f.2.2.2 then (s, none)
      else
        let ps := (lt.tensorsOf e).flatMap fun t => (List.range (pieces t)).map fun p => (t, p)
        match shadowPieces u ps 0 f.1 with
        | (t, amax, true, false) =>
          let rec' := nextRec e r c.n cs c.lim c.surged c.clipped amax
          let x := storedDigest lt k (pokeDev (lt.lstate + 32 * k) rec'.toBytes t)
          (x.1, some x.2)
        | _ => (s, none)

/-- Whether a partner layer's shadow update is complete, its resolution included. -/
def shadowLayerDone (s : State) (k : Nat) : Bool := (mirrorRun s k).done

/-- The held scales that the partner's commit gives, from the mirrored ones and STEPM. -/
def nextScales (old : Bytes) (m : MeasBlock) : Bytes :=
  ((heldOf old).zipIdx.map fun h => match m.held[h.2]? with
    | some x => ({ scale := h.1.scale, seen := x.1.toNat, ovf := x.2 } : Held).commit
    | none => h.1.commit).flatMap Held.toBytes

/-- Whether the comparison of R357 follows the commit of a step. -/
def compares (g : Settings) (n : Nat) : Bool := decide (g 0x2A00 4 ≠ 0) && decide (n % g 0x2A00 4 = 0)

/-- LEADMIN and LEADMAX of the partner's plan, from the schedule section of the image in custody; without one in custody those
of this card's own plan (DEDUCED, log entry 172). -/
def partnerLeads (s : State) : Nat × Nat :=
  let base := s.plan.plan.tw.custAddr
  let bytes (off n : Nat) : Bytes := devBytes s (base + off) n
  let secs := (List.range (bits (leNat (bytes 0 256)) 63 48)).map fun i => Sec.of (leNat (bytes (256 + 64 * i) 64))
  match (if bit s.twin.custody 1 then secs.find? fun x => decide (x.kind = 0x11) else none) with
  | none => (s.plan.plan.leadMin, s.plan.plan.leadMax)
  | some x =>
    let sc := leNat (bytes x.off 32)
    (bits sc 63 48, bits sc 79 64)

/-- Every partner layer is done: the decisions of R289 step 4 are taken from STEPM, the mirror step advances, and SDONE goes
out. Mirror layers marked damaged are then copied from the primary (R359). REPAIR of the mirrored decision record is that of step N
until STEPM of the next step brings the partner's own (log entry 172). -/
def shadowEnds (m : MeasBlock) (s : State) : State :=
  let n := s.twin.shadowN
  let g := blockSettings s.twin.psettings
  let ks := layerNumbers (partnerLt s)
  let esc := ks.any fun k => (mirrorRun s k).esc
  let r := StepRec.ofNat m.record.toNat
  let stackT := m.stackT.map (·.toNat)
  let last : StepRec := { r with refresh := forcedRefresh r.refresh stackT }
  let ms : Measured := { late := m.late, stackT := stackT, logic := m.logic.map (·.toNat) }
  let ld := partnerLeads s
  let next := decideRec g { s.plan.plan with leadMin := ld.1, leadMax := ld.2 } (partnerLt s).points (n + 1) s.twin.pgen r.repair last ms
  let old := mirrorScales s
  let s := pokeDev s.plan.plan.tw.mscales (nextScales old.2 m) old.1
  let s : State := { s with twin := { s.twin with
    plast := last, precord := decisionRec (n + 1) next,
    pbranches := nextBranches g (m.detached.map fun d => (d.1.toNat, d.2.toNat)) s.twin.pbranches } }
  let s := pokeDev s.plan.plan.tw.mblock (takePad 65536 (mirrorBlock s)) s
  let s := setBoot 0x2A04 1 s.twin.shadowB s
  let bad := s.twin.dmgLayers
  let s : State := { s with twin := { s.twin with
    mirror := n, shadowN := 0, shadowT := some s.keep.samples, mruns := [], meas := none, shadowB := 0, applyCs := none,
    cmpLeft := if compares g n && !esc then ks ++ [0xFFFF] else [] } }
  bad.foldl (fun s k => pullLayer k true s) (toTwin (.sdone n esc) s)

/-- Go on with the shadow update when every layer is done. -/
def shadowCheck (s : State) : State :=
  match s.twin.meas with
  | none => s
  | some m =>
    if s.twin.shadowN ≠ 0 ∧ (layerNumbers (partnerLt s)).all (shadowLayerDone s) = true then shadowEnds m s else s

/-! ### Resolution at the twin (R356) -/

/-- A layer agrees, or is given up: its run is done. In a comparison the layer is struck off, and the comparison ends with a
second SDONE. -/
def settle (k outcome : Nat) (d : BitVec 128) (s : State) : State :=
  let r := mirrorRun s k
  let s := setMirrorRun k { r with done := true, bad := false, overw := false, esc := decide (outcome = 6) } (setMirrorRef k d s)
  let s := resolved k outcome 1 s
  if s.twin.shadowN ≠ 0 then shadowCheck s
  else
    let left := s.twin.cmpLeft.filter (· ≠ k)
    let s : State := { s with twin := { s.twin with cmpLeft := left, mruns := Sparse.del k s.twin.mruns } }
    if outcome = 6 then toTwin (.sdone s.twin.mirror true) { s with twin := { s.twin with cmpLeft := [] } }
    else if left.isEmpty then toTwin (.sdone s.twin.mirror false) s else s

/-- Step 1 of R356: ask for the primary's digests. -/
def askDigest (k : Nat) (s : State) : State := toTwin (.digreq k) s

/-- Return to step 1, at most three times; the fourth return goes to step 6. -/
def again (k fix : Nat) (s : State) : State :=
  let r := mirrorRun s k
  if 3 ≤ r.rounds then settle k 6 (mirrorRef s k) s
  else askDigest k (setMirrorRun k { r with rounds := r.rounds + 1, fix := fix } s)

/-- Send the primary the mirrored layer and its record. -/
def sendMirror (k : Nat) (s : State) : State :=
  let lt := partnerLt s
  let x := fetchRanges [(lt.lstate + 32 * k, 32)] s
  let s := toTwin (.data (.range (BitVec.ofNat 42 (pullRecs + 32 * k)) 32) x.2 (mirrorRef s k)) x.1
  let y := fetchRanges (stateRanges lt k) s
  toTwin (.data (.layer k false) y.2 (mirrorRun s k).dc) y.1

/-- What keeps the held gradient of a layer from being read. -/
def heldBad (s : State) (k : Nat) : Option Nat :=
  (layerEnt (partnerLt s) k).bind fun e => ((partnerLt s).tensorsOf e).findSome? fun t => pondBad s (pondPend s t.grad) (4 * t.size)

/-- The digest of the held gradient of a layer; none where it cannot be read, which is recorded (R246). -/
def heldDigest (k : Nat) (s : State) : State × Option (BitVec 128) :=
  match heldBad s k with
  | some cause => (failPond cause s, none)
  | none => (s, (layerEnt (partnerLt s) k).bind fun e => (gradBytes true (partnerLt s) e s).map twinDigest)

/-- The primary's digests have come (steps 1 to 5). The primary is told this card's digest. -/
def judge (k : Nat) (sp : BitVec 128) (s : State) : State :=
  let r := mirrorRun s k
  let x := storedDigest (partnerLt s) k s
  let st := x.2
  let s := toTwin (.digrsp k st none) x.1
  let tOk := decide (st = r.dc)
  let pOk := decide (sp = r.ds)
  if sp = st then settle k (if r.fix = 0 then 1 else r.fix) sp s
  else if tOk && !pOk then again k 3 (sendMirror k s)
  else if pOk && !tOk then pullLayer k true (setMirrorRun k { r with fix := 4 } s)
  else if !tOk then settle k 6 (mirrorRef s k) s
  else
    let y := heldDigest k s
    if y.2 = some r.dg ∨ s.twin.shadowN = 0 then settle k 6 (mirrorRef y.1 k) y.1
    else toTwin (.pull (.grad k)) y.1

/-- A layer enters its resolution, which counts once (0x2A04:03). -/
def countDiffers (k : Nat) (s : State) : State := if (mirrorRun s k).fetched then s else countBoot 0x2A04 3 1 s

/-- A layer that disagrees goes to resolution. -/
def disagree (k : Nat) (dc : BitVec 128) (s : State) : State :=
  countDiffers k (askDigest k (setMirrorRun k { mirrorRun s k with dc := dc, bad := true } s))

/-- A layer that the check or update cannot form is overwritten from the primary (R352). -/
def overwrite (k : Nat) (s : State) : State :=
  countDiffers k (pullLayer k true (setMirrorRun k { mirrorRun s k with overw := true, bad := true } s))

/-- Whether the held gradient of a layer could not be read: the side pond is in a failed group, or the error that the update met
lies in no mirror area of the layer, and so in its held gradient, which has no device address (DESIGN CHOICE, log entry 178). -/
def gradientLost (s : State) (k : Nat) (ecc : Ecc) : Bool :=
  (heldBad s k).isSome || (match ecc with
    | .uncorrectable a => !(layerRanges (partnerLt s) k).any fun r => decide (r.1 ≤ a.toNat) && decide (a.toNat < r.1 + r.2)
    | _ => false)

/-- A held gradient that could not be read is fetched from the primary again, and the layer is repeated (R352, R359); after three
times the layer is overwritten. The layer counts in 0x2A04:03. -/
def refetch (k : Nat) (s : State) : State :=
  let r := mirrorRun s k
  let s := countDiffers k s
  if 3 ≤ r.pulls then overwrite k (setMirrorRun k { r with pulls := 0, fetched := true } s)
  else toTwin (.pull (.grad k)) (setMirrorRun k { r with pulls := r.pulls + 1, refetch := true, fetched := true } s)

/-- The shadow update of one layer ends. One that was repeated with its gradient fetched again ends at step 4 of R356 (R352). -/
def shadowDone (k : Nat) (e : LayerEnt) (m : MeasBlock) (ecc : Ecc) (s : State) : State :=
  if gradientLost s k ecc then refetch k (failPond ((heldBad s k).getD 1) s)
  else
    let s := applyEcc ecc s
    match shadowLayer k e m s with
    | (s, none) => overwrite k s
    | (s, some d) =>
      let r := mirrorRun s k
      if d ≠ r.ds then disagree k d s
      else if r.fetched then settle k 4 d (setMirrorRun k { r with dc := d } s)
      else shadowCheck (setMirrorRun k { r with done := true, dc := d } (setMirrorRef k d s))

/-! ### The comparison at the twin (R357) -/

/-- A layer or the boundary of a comparison agrees: the comparison ends with a second SDONE. -/
def compared (k : Nat) (s : State) : State :=
  let left := s.twin.cmpLeft.filter (· ≠ k)
  let s : State := { s with twin := { s.twin with cmpLeft := left } }
  if left.isEmpty then toTwin (.sdone s.twin.mirror false) s else s

/-- A digest of the primary's in a comparison. -/
def compareLayer (k : Nat) (sp : BitVec 128) (s : State) : State :=
  if k = 0xFFFF then
    let x := mirrorBoundaryDigest s
    if sp = x.2 then compared k x.1
    else toTwin (.pull (.range (BitVec.ofNat 42 pullBoundary) (s.plan.plan.tw.msBytes + 65536))) x.1
  else
    let x := storedDigest (partnerLt s) k s
    let s := x.1
    if x.2 = sp then compared k s
    else disagree k (mirrorRef s k) (setMirrorRun k { ds := mirrorRef s k, dc := mirrorRef s k } s)

end Sys2Proof.Machine
end

