-- ==== Sys2Proof/Machine/Twin.lean ====
section
/-! DEFINITION. The commands of the pair (R344 to R360): pairing, seeding, custody, the messages of a step, restore,
resolution, the twin link; and the loading of a spare (R361, R362, R366). -/

namespace Sys2Proof.Machine

/-! ### Pairing and seeding (R344, R345) -/

/-- What the ledger's state is to a seeding (R345): 1 NOJOB, 2 between an abort and its reopening, 0 neither. A job start that the
pair holds at the first step boundary (R348) has opened no step, and counts as NOJOB (DEDUCED, log entry 174). -/
def seedPhase (s : State) : Fin 3 :=
  match s.led.st with
  | .nojob => 1
  | .aborting => 2
  | .restoring => 2
  | .opened => if s.led.waiting && s.led.reopen then 2 else if s.led.waiting && decide (s.led.commitsN = 0) then 1 else 0
  | _ => 0

/-- The PAIR that this card sends. -/
def myPair (s : State) : PairMsg :=
  { serial := s.strap.serial, lcid := BitVec.ofNat 16 s.plan.plan.card, partner := BitVec.ofNat 15 s.plan.plan.tw.partner,
    sysid := BitVec.ofNat 128 s.plan.plan.sysid, meas := BitVec.ofNat 256 s.plan.plan.ltMeas,
    yourMeas := BitVec.ofNat 256 s.plan.plan.tw.plMeas, state := BitVec.ofNat 8 s.twin.pair.code, committed := BitVec.ofNat 64 s.led.committed,
    accepted := s.twin.sawPair, ledger := seedPhase s }

/-- Whether a PAIR is the partner's (R344). -/
def pairMatches (m : PairMsg) (s : State) : Bool :=
  let p := s.plan.plan
  (decide (num s 0x2A00 1 = 0) || decide (num s 0x2A00 1 = m.serial.toNat)) && decide (partner s = some m.lcid.toNat) &&
    decide (m.partner.toNat = p.card) && decide (m.sysid.toNat = p.sysid) && decide (m.meas.toNat = p.tw.plMeas) &&
    decide (m.yourMeas.toNat = p.ltMeas)

/-- Whether both ledgers allow seeding (R345). A spare that joins, and the card that loads it, seed at the boundary at which the
spare takes up the job (R362). -/
def maySeed (s : State) : Bool :=
  s.fab.joining || (s.twin.loading.isSome && (decide (seedPhase s ≠ 0) || s.led.waiting)) ||
    (decide (seedPhase s ≠ 0) && decide (seedPhase s = s.twin.pLedger))

/-- What a spare that joins asks its twin for: its layers, then its boundary block, its records and its inputs. -/
def joinBoundary : Nat := 0x10000
def joinRecs : Nat := 0x10001
def joinInput : Nat := 0x10002

/-- A spare asks its twin for the state of the card it replaces (R362 step 5), the records before the layers. -/
def askJoin (s : State) : State :=
  let p := s.plan.plan
  let ks := layerNumbers p.lt
  let range (b n : Nat) (s : State) : State := toTwin (.pull (.range (BitVec.ofNat 42 b) n)) s
  let s : State := { s with twin := { s.twin with restore := [joinBoundary, joinRecs, joinInput] ++ ks, pullTry := [] } }
  let s := range pullMirror 65536 s
  let s := range 0 (rangesLen (heldRanges s)) s
  let s := range pullRecs (32 * ks.length) s
  let s := range pullHeld p.ringSlot s
  ks.foldl (fun s k => pullLayer k false s) s

/-- Send the training state of the committed step to the partner's mirror, then SEEDEND. -/
def sendSeed (s : State) : State :=
  let s := digestOwn s
  let lt := s.plan.plan.lt
  let total := ((layerNumbers lt).map fun k => rangesLen (layerRanges lt k)).sum + rangesLen (heldRanges s)
  let s := setBoot 0x2A02 3 0 (setBoot 0x2A02 2 total (setBoot 0x2A02 1 total s))
  let s := (layerNumbers lt).foldl (fun s k =>
    let x := fetchRanges (layerRanges lt k) s
    toTwin (.seed k x.2) x.1) s
  let x := heldBytes s
  let s := toTwin (.seed 0xFFFF x.2) x.1
  toTwin (.seedEnd s.led.committed ((layerNumbers lt).map (ownRef s)) (twinDigest (x.2 ++ boundaryBlock s)) (boundaryBlock s)) s

/-- Send PAIR. -/
def sendPair (s : State) : State := toTwin (.pair (myPair s)) { s with twin := { s.twin with pairSent := true } }

/-- Whether seeding may start: each card has accepted the other's PAIR, and both ledgers allow it (R345). -/
def seedsNow (s : State) : Bool :=
  (decide (s.twin.pair = .waiting) || decide (s.twin.pair = .solo)) && s.twin.sawPair && s.twin.pAccepts && maySeed s

/-- The link of the pair: twin ports that lead to the partner, else fabric lane 3 (R347). -/
def pairLink (s : State) : Nat :=
  if (List.range 4).any fun k => portUp s (16 + k) && decide (((getPort s (16 + k)).peer.map (·.1)) = some s.twin.pcard) then 1 else 2

/-- Seeding starts where it may; the partner is told with a last PAIR. A spare that joins sends no state. -/
def trySeed (s : State) : State :=
  if seedsNow s then
    let s := setPair .seeding 0 { sendPair s with twin := { (sendPair s).twin with
      sentOk := false, gotOk := false, seeded := false, seedTries := [], seedLeft := [], seedRefs := [], link := pairLink s } }
    if s.fab.joining then askJoin s else sendSeed s
  else s

/-- The pair returns to WAITING (R345). -/
def seedEnds (s : State) : State :=
  setPair .waiting 0 { s with twin := { s.twin with
    sawPair := false, pAccepts := false, pairSent := false, sentOk := false, gotOk := false, seeded := false, seedLeft := [] } }

/-- A PAIR that matches is accepted. One whose sender has not accepted this card's is answered at once. A partner that has begun
to send its seed and now sends PAIR in WAITING has given the seeding up, and this card follows it (R345). -/
def takePair (m : PairMsg) (s : State) : State :=
  let s := if s.twin.pair = .seeding ∧ s.twin.seeded = true ∧ m.state = 1 ∧ pairMatches m s = true then seedEnds s else s
  if (s.twin.pair = .waiting ∨ s.twin.pair = .solo) ∧ pairMatches m s = true then
    let card := (s.twin.loading.orElse fun _ => (partner s).bind (cardOf s)).getD 0xFFFF
    let s : State := { s with twin := { s.twin with sawPair := true, pcard := card, pAccepts := m.accepted, pLedger := m.ledger } }
    if seedsNow s then trySeed s else if m.accepted then s else sendPair s
  else s

/-- Copy the active plan image into the partner's custody area (R346). -/
def sendCustody (s : State) : State :=
  match s.plan.active with
  | none => s
  | some area =>
    if s.plan.plan.tw.custody then
      toTwin (.image (imgBytes s area 0 (bits (imgHeader s area) 127 64)))
        { s with twin := { s.twin with custody := setBit s.twin.custody 0 true } }
    else s

/-- A spare takes up the job at the step that reopens (R362 steps 5 to 7); its inputs stand in slot 0 where its twin held
them. -/
def joinJob (s : State) : State :=
  let n := s.led.committed + 1
  { s with
    fab := { s.fab with joining := false, routeUp := (List.range 20).filter (portUp s) }
    keep := { s.keep with dev := .running }
    led := { s.led with st := .opened, running := n, waiting := true, reopen := true, startGate := false, abCause := 6,
                        abCard := s.plan.plan.card, abStep := n, commitsN := 1, touched := [], stopPend := false, decided := none, losts := [],
                        slotHeld := decide (0 < s.host.ringput) }
    stat := { s.stat with run := [], tRun := [], job := [], tJob := [] } }

/-- IN STEP, once SEEDOK has gone both ways. While a spare is loaded its mirror alone is verified. -/
def tryInStep (s : State) : State :=
  let sent := s.twin.sentOk || s.twin.loading.isSome
  let got := s.twin.gotOk || (s.fab.joining && s.twin.restore.isEmpty)
  if s.twin.pair = .seeding ∧ sent = true ∧ got = true then
    let join := s.fab.joining
    let s := setPair .inStep 0 { s with
      led := { s.led with shadowOf := s.led.committed }
      twin := { s.twin with loading := none, shadowN := 0, mruns := [], meas := none, sacked := 0, inputStep := 0 } }
    sendCustody (if join then joinJob s else s)
  else s

/-- A layer, or the boundary, still differs after the third repetition: the pair returns to WAITING, and a PAIR tells the
partner (R345). -/
def seedFails (s : State) : State := sendPair (raiseOpen 0x14 noSource 2 (seedEnds s))

/-- Ask again for a mirrored layer, or for the boundary (0xFFFF). -/
def seedAgain (k : Nat) (s : State) : State :=
  let n := Sparse.get 0 s.twin.seedTries k
  if 3 ≤ n then seedFails s
  else
    let s := countBoot 0x2A02 3 1 { s with twin := { s.twin with seedTries := Sparse.set 0 s.twin.seedTries k (n + 1) } }
    if k = 0xFFFF then toTwin (.pull (.range (BitVec.ofNat 42 pullBoundary) (s.plan.plan.tw.msBytes + 65536))) s
    else pullLayer k true s

/-- Whether a mirrored layer, or the boundary, agrees with the SEEDEND. -/
def seedAgrees (k : Nat) (s : State) : State × Bool :=
  let x := if k = 0xFFFF then mirrorBoundaryDigest s else storedDigest (partnerLt s) k s
  (x.1, decide (x.2 = Sparse.get 0 s.twin.seedRefs k))

/-- With every layer and the boundary in agreement the mirror stands at the partner's committed step, and SEEDOK goes out. -/
def seedDone (s : State) : State :=
  if s.twin.seedLeft.isEmpty then
    tryInStep (toTwin .seedOk { s with twin := { s.twin with
      sentOk := true, mirror := s.twin.seedStep, mrefs := Sparse.del 0xFFFF s.twin.seedRefs } })
  else s

/-- SEEDEND (R345). -/
def takeSeedEnd (n : Nat) (ds : List (BitVec 128)) (bd : BitVec 128) (block : Bytes) (s : State) : State :=
  let s := putMirrorBlock block { s with twin := { s.twin with seeded := true } }
  let refs := ds.zipIdx.foldl (fun m d => Sparse.set 0 m d.2 d.1) []
  let s : State := { s with twin := { s.twin with seedStep := n, seedRefs := Sparse.set 0 refs 0xFFFF bd, seedTries := [] } }
  let x := (layerNumbers (partnerLt s) ++ [0xFFFF]).foldl (fun (x : State × List Nat) k =>
    let y := seedAgrees k x.1
    (y.1, if y.2 then x.2 else x.2 ++ [k])) (s, [])
  let bad := x.2
  let s : State := { x.1 with twin := { x.1.twin with seedLeft := bad } }
  if bad.isEmpty then seedDone s else bad.foldl (fun s k => if s.twin.pair = .seeding then seedAgain k s else s) s

/-- What was asked again has come. -/
def seedRepaired (k : Nat) (s : State) : State :=
  let x := seedAgrees k s
  let s := x.1
  if x.2 then seedDone { s with twin := { s.twin with seedLeft := s.twin.seedLeft.filter (· ≠ k) } } else seedAgain k s

/-! ### Messages of a step at the twin (R349, R350) -/

/-- Whether twin messages of a step are taken. -/
def twinOn (s : State) : Bool := decide (s.twin.pair = .inStep) && !s.keep.mirror

/-- SACK, once INPUT and STEPM of the step have come. -/
def trySack (step : Nat) (s : State) : State :=
  if s.twin.meas.isSome ∧ s.twin.measStep = step ∧ (s.twin.inputStep = step ∨ s.plan.plan.tw.ringBytes = 0) then toTwin (.sack step) s
  else s

/-- Write bytes into the pending-gradient area (R341). -/
def putPend (off : Nat) (bs : Bytes) (s : State) : State :=
  pondWrite (pondPend s off) bs.length (fun s => { s with mem := { s.mem with pend := Sparse.setMany 0 s.mem.pend off bs } }) s

/-- Bytes of a layer's gradient, at their GRAD offsets in the pending-gradient area. -/
def putGrad : List TensorEnt → Nat → Bytes → State → State
  | [], _, _, s => s
  | t :: ts, off, bs, s =>
    let n := 4 * t.size
    if n ≤ off then putGrad ts (off - n) bs s
    else
      let s := putPend (t.grad + off) (bs.take (n - off)) s
      putGrad ts 0 (bs.drop (n - off)) s

/-- GEND: the held gradient is digested, and GACK answers. -/
def takeGend (step k : Nat) (n cs : W32) (dg ds : BitVec 128) (s : State) : State :=
  let x := heldDigest k s
  let ok := decide (x.2 = some dg)
  let s := x.1
  let s := setMirrorRun k { mirrorRun s k with n := n, cs := cs, dg := dg, ds := ds, gended := ok } s
  toTwin (.gack step k ok) s

/-! ### The twin link (R347) -/

/-- The twin has gone: touched layers that are being restored are lost with it (R288). -/
def twinFails (s : State) : State := if s.led.st = .restoring then enterLost s else s

/-- Whether the partner has been declared failed by the abort that this card restores from, so that it serves its mirror and
sends no HB (R360, R362). -/
def partnerServes (s : State) : Bool :=
  (decide (s.led.st = .aborting) || decide (s.led.st = .restoring)) && decide (s.led.abCause = 6) &&
    decide (some s.led.abCard = partner s)

/-- UNPAIR to the partner, on every port of the pair and over the towpath lane (R347). -/
def sayUnpair (s : State) : State :=
  let s := toTwin (.unpair 1) s
  match (partner s).bind (cardOf s) with
  | none => s
  | some c => toCardId c (.unpair 1) s

/-- The test of a lost twin link: SOLO with cause 1 while the partner's keeper, which the sideband of a pair on twin ports
shows, or fabric heartbeats tell of it, else the partner is suspected. -/
def linkLost (alive : Bool) (s : State) : State :=
  let alive := (s.twin.sideband && decide (s.twin.link ≠ 2)) || alive
  if (s.twin.pair ≠ .inStep ∧ s.twin.pair ≠ .seeding) ∨ (partnerServes s = true ∧ alive = true) then s
  else if alive then twinFails (enterSolo 1 (sayUnpair s))
  else twinFails (match (partner s).bind (cardOf s) with
    | none => s
    | some c => suspectCard c s)

/-- Whether fabric heartbeats of the partner continue, as this card sees them. -/
def partnerBeats (s : State) : Bool :=
  match (partner s).bind (cardOf s) with
  | none => false
  | some c => (portsTo s c).any s.fab.alive.contains

/-- GACK at the primary: a refusal has the layer sent again three times; a fourth counts as a lost link. -/
def takeGack (k : Nat) (e : LayerEnt) (ok : Bool) (s : State) : State :=
  let r := layerRun s k
  if ok then setLayerRun k { r with gok := true } s
  else
    let s := setLayerRun k { r with gacks := r.gacks + 1 } s
    if 3 ≤ r.gacks then linkLost (partnerBeats s) s else sendGrad k e s

/-! ### SDONE, comparison and digests at the primary (R29, R356, R357) -/

/-- Start the comparison of the committed step: the digests of this card's layers as they stand go to the twin. The reference
digests stay. -/
def startCompare (s : State) : State :=
  let s : State := { s with twin := { s.twin with compare := true } }
  let s := (layerNumbers (ownLt s)).foldl (fun s k =>
    let x := storedDigest (ownLt s) k s
    toTwin (.digrsp k x.2 none) x.1) (countBoot 0x2A04 9 1 s)
  let x := boundaryData s
  toTwin (.digrsp 0xFFFF (twinDigest x.2) none) x.1

/-- The layer that the last DIGREQ named, kept as the layer of 0x2A05 until the resolution ends. -/
def takeSdone (n : Nat) (esc : Bool) (s : State) : State :=
  let first := decide (s.led.shadowOf < n)
  let s : State := { s with led := { s.led with shadowOf := max s.led.shadowOf n } }
  if esc then
    let k := ((s.twin.digFix.getLast?).map (·.1)).getD 0xFFFF
    let s := resolved k 6 0 { s with twin := { s.twin with compare := false, digFix := [] } }
    reportAbort 10 k s
  else if first && compares (num s) n then startCompare s
  else
    let s : State := { s with twin := { s.twin with compare := false, digFix := [] } }
    if s.led.st = .restoring then s.twin.restore.foldl (fun s k => pullLayer k false s) s else s

/-- Note at the primary that a layer is in resolution, and what repaired it last. -/
def noteFix (k fix : Nat) (s : State) : State :=
  { s with twin := { s.twin with digFix := (s.twin.digFix.filter fun x => decide (x.1 ≠ k)) ++ [(k, fix)] } }

/-- DIGREQ: this card re-reads the layer and answers with its digest and that of its GRAD area. -/
def takeDigreq (k : Nat) (s : State) : State :=
  match layerEnt (ownLt s) k with
  | none => s
  | some e =>
    let s := if (s.twin.digFix.any fun x => decide (x.1 = k)) then s else countBoot 0x2A04 3 1 (noteFix k 1 s)
    let x := storedDigest (ownLt s) k s
    toTwin (.digrsp k x.2 ((gradBytes false (ownLt x.1) e x.1).map twinDigest)) x.1

/-- DIGRSP at the twin, or the twin's own digest at the primary: equal digests end the resolution there. -/
def takeDigrsp (k : Nat) (d : BitVec 128) (s : State) : State :=
  if (mirrorRun s k).bad then judge k d s
  else if s.twin.cmpLeft.contains k then compareLayer k d s
  else match s.twin.digFix.find? fun x => decide (x.1 = k) with
    | none => s
    | some x =>
      let y := storedDigest (ownLt s) k s
      let s := y.1
      if d = y.2 then
        resolved k x.2 0 (setOwnRef k d { s with twin := { s.twin with digFix := s.twin.digFix.filter fun y => decide (y.1 ≠ k) } })
      else s

/-! ### PULL and DATA (R358, R359, R360) -/

/-- Whether the mirror holds the partner's last committed step. -/
def mirrorHolds (s : State) : Bool := decide (s.twin.mirror = s.led.committed)

/-- Answer a PULL. Without the record it asks for the mirrored layer, with it for this card's own; one before SDONE is of a layer
that the twin overwrites (R352), which this card notes as in resolution. A card in MIRROR SERVICE serves its mirror alone. -/
def servePull (w : PullWhat) (s : State) : State :=
  match w with
  | .layer k false =>
    if s.keep.mirror && !(decide (s.twin.pair = .mirrorService) && mirrorHolds s) then s
    else
      let x := fetchRanges (stateRanges (partnerLt s) k) s
      countBoot 0x2A08 1 1 (countBoot 0x2A08 2 x.2.length (toTwin (.data w x.2 (mirrorRef x.1 k)) x.1))
  | .layer k true =>
    if s.keep.mirror then s
    else
      let s := if (s.twin.digFix.any fun x => decide (x.1 = k)) then noteFix k 4 s
        else if s.twin.pair = .inStep ∧ s.led.shadowOf < s.led.committed then countBoot 0x2A04 3 1 (noteFix k 4 s) else s
      let x := fetchRanges (layerRanges (ownLt s) k) s
      toTwin (.data w x.2 (ownRef x.1 k)) x.1
  | .grad k =>
    if s.keep.mirror then s
    else match (layerEnt (ownLt s) k).bind fun e => gradBytes false (ownLt s) e s with
      | none => s
      | some bs =>
        let s := if (s.twin.digFix.any fun x => decide (x.1 = k)) then noteFix k 5 s else s
        toTwin (.data w bs 0) s
  | .range a n =>
    if pullImage ≤ a.toNat then (if s.keep.mirror ∨ s.twin.pair ≠ .inStep then s else sendCustody s)
    else if s.keep.mirror && !(decide (s.twin.pair = .mirrorService) && mirrorHolds s) then s
    else
      let x := rangeServe a.toNat n s
      toTwin (.data w x.2 0) x.1

/-- A layer of this card has landed for a restore or a join: it must digest to the reference, else it is pulled again, three
times at most, and then the layer is lost. -/
def restoreLayer (k : Nat) (e : LayerEnt) (bs : Bytes) (ref : BitVec 128) (s : State) : State :=
  let x := storedDigest (ownLt s) k (pokeRanges (stateRanges (ownLt s) k) bs s)
  let s := x.1
  if x.2 = ref then
    let s := rebuildWork (ownLt s) e (setOwnRef k ref s)
    let s : State := { s with twin := { s.twin with restore := s.twin.restore.filter (· ≠ k) } }
    if s.fab.joining then tryInStep s
    else
      let params := (((ownLt s).tensorsOf e).map TensorEnt.size).sum
      let s := countBoot 0x4010 8 1 (countBoot 0x4010 9 params s)
      if s.twin.restore.isEmpty then finishAbort s else s
  else
    let n := Sparse.get 0 s.twin.pullTry k
    if 3 ≤ n then enterLost s
    else pullLayer k false { s with twin := { s.twin with pullTry := Sparse.set 0 s.twin.pullTry k (n + 1) } }

/-- The mirrored layer has come with its record, for R352, for R356 or after damage (R359). -/
def mirrorLayer (k : Nat) (bs : Bytes) (ref : BitVec 128) (s : State) : State :=
  let r := mirrorRun s k
  let lt := partnerLt s
  let x := storedDigest lt k (pokeRanges (layerRanges lt k) bs s)
  let s := x.1
  let d := x.2
  if r.overw then
    if d = r.ds then toTwin (.digrsp k d none) (settle k 4 d s)
    else if 3 ≤ r.pulls then settle k 6 (mirrorRef s k) s
    else pullLayer k true (setMirrorRun k { r with pulls := r.pulls + 1 } s)
  else if r.bad then again k r.fix s
  else if s.twin.seedLeft.contains k then seedRepaired k s
  else if s.twin.dmgLayers.contains k ∧ d = ref then
    setMirrorRef k ref { s with twin := { s.twin with dmgLayers := s.twin.dmgLayers.filter (· ≠ k) } }
  else s

/-- A part of the join has come. -/
def joined (what : Nat) (s : State) : State :=
  tryInStep { s with twin := { s.twin with restore := s.twin.restore.filter (· ≠ what) } }

/-- A spare's inputs go into ring slot 0, which its step takes (R362 step 6); with none held, the host pushes them (R363). -/
def joinInputs (bs : Bytes) (s : State) : State :=
  if bs.isEmpty then joined joinInput s
  else
    let s := pokeDev s.plan.plan.ringBase bs s
    joined joinInput { s with host := { s.host with ringput := 1, ringtake := 1 } }

/-- Write bytes from an offset on into ranges that follow each other. -/
def pokeFrom (off : Nat) (bs : Bytes) : List (Nat × Nat) → State → State
  | [], s => s
  | r :: rs, s =>
    if r.2 ≤ off then pokeFrom (off - r.2) bs rs s
    else pokeRanges ((r.1 + off, r.2 - off) :: rs) bs s

/-- A pulled byte range lands where its base says. -/
def landRange (a : Nat) (bs : Bytes) (s : State) : State :=
  if a < pullBoundary then
    -- held scales, from their offset in the tables in declaration order
    pokeFrom a bs (heldRanges s) s
  else if a < pullRecs then
    let n := s.plan.plan.tw.msBytes
    let s := putMirrorBlock (bs.drop n) (pokeDev s.plan.plan.tw.mscales (bs.take n) s)
    if s.twin.seedLeft.contains 0xFFFF then seedRepaired 0xFFFF s
    else
      let left := s.twin.cmpLeft.filter (· ≠ 0xFFFF)
      let was := s.twin.cmpLeft.contains 0xFFFF
      let s : State := { s with twin := { s.twin with cmpLeft := left } }
      if was && left.isEmpty then toTwin (.sdone s.twin.mirror false) s else s
  else if a < pullMirror then
    let s := pokeDev ((ownLt s).lstate + (a - pullRecs)) bs s
    if s.fab.joining then joined joinRecs s else s
  else if a < pullInput then (if s.fab.joining then joined joinBoundary (applyBoundary bs s) else s)
  else if a < pullHeld then
    putPend (a - pullInput) bs s
  else if s.fab.joining then joinInputs bs s else s

/-- The primary's gradient has come: for a layer that is repeated (R352), in place of a damaged one (R359), or for step 5 of
R356. -/
def gradCame (k : Nat) (bs : Bytes) (s : State) : State :=
  let r := mirrorRun s k
  if r.refetch then
    match layerEnt (partnerLt s) k with
    | none => s
    | some e => putGrad ((partnerLt s).tensorsOf e) 0 bs (setMirrorRun k { r with refetch := false } s)
  else if !r.bad then
    (match layerEnt (partnerLt s) k with
    | none => s
    | some e => if r.gended && decide (twinDigest bs = r.dg) then putGrad ((partnerLt s).tensorsOf e) 0 bs s else s)
  else if twinDigest bs = r.dg then pullLayer k true (setMirrorRun k { r with fix := 5 } s)
  else settle k 6 (mirrorRef s k) s

/-- DATA. -/
def takeData (w : PullWhat) (bs : Bytes) (ref : BitVec 128) (s : State) : State :=
  match w with
  | .layer k false => match layerEnt (ownLt s) k with
    | none => s
    | some e =>
      if (s.led.st = .restoring ∨ s.fab.joining = true) ∧ s.twin.restore.contains k = true then restoreLayer k e bs ref s
      else if (s.twin.digFix.any fun x => decide (x.1 = k)) then
        rebuildWork (ownLt s) e (noteFix k 3 (pokeRanges (stateRanges (ownLt s) k) bs s))
      else s
  | .layer k true => mirrorLayer k bs ref s
  | .grad k => gradCame k bs s
  | .range a _ => landRange a.toNat bs s

/-! ### Loading a spare (R361, R362, R366) -/

/-- The spare that an awaiting map part names for this card's partner. -/
def spareNamed (s : State) : Option Nat :=
  match partner s with
  | none => none
  | some f =>
    let es := (s.dict.awaiting.filter fun a => isMapPart a && decide (a.target = some s.led.running)).flatMap (·.entries)
    match es.find? fun e => decide (e.idx = 0x2810#16) with
    | none => none
    | some e => match (u16s e.val)[f]? with
      | none => none
      | some c => if cardOf s f = some c then none else some c

/-- The twin of a replaced card asks the spare for its plan area 0, to load it. Where no step aborted the pair ends here. -/
def beginLoad (s : State) : State :=
  match spareNamed s with
  | none => s
  | some c =>
    if s.twin.loading.isSome then s
    else
      let s := if s.twin.pair = .inStep ∧ s.led.st = .opened then enterSolo 2 s else s
      askCard c 4 (.read 0x3881 1) { s with twin := { s.twin with loading := some c } }

/-- Write the custody image into the spare's plan area on lane 3. -/
def sendImage (c base : Nat) (s : State) : State :=
  let tw := s.plan.plan.tw
  if !bit s.twin.custody 1 then s
  else match nextPort s c 0 none with
    | none => s
    | some p =>
      let h := fetchRanges [(tw.custAddr, 256)] s
      let n := bits (leNat h.2) 127 64
      let y := fetchRanges [(tw.custAddr, n)] h.1
      let bs := y.2
      let x := freshTxn y.1
      let r : Remote := { txn := x.1, unit := loadUnit', ctx := 0, port := p, dst := c, write := true, addr := base, len := n }
      let s : State := { x.2 with fab := { x.2.fab with remotes := x.2.fab.remotes ++ [r] } }
      sendRun p { typ := 1, vl := 3, dst := c, src := cardId s, txn := x.1 } base bs true s

/-- An answer to a request of this card's own: the oldest one without an answer from that card. -/
def ownAnswer (c : Nat) (ans : Option Bytes) (s : State) : State :=
  match s.fab.recAsk.find? fun x => decide (x.1 = c) with
  | none => s
  | some x =>
    let s' : State := { s with fab := { s.fab with recAsk := s.fab.recAsk.erase x } }
    if x.2 = 4 then
      (match ans with
      | some bs => if s.twin.loading = some c then sendImage c (leNat bs) s' else s'
      | none => s')
    else if x.2 = 5 then gatewayTable ans s'
    else recAnswer c ans s

/-! ### Meanings -/

/-- PAIR_TIMER (R344). A SOLO card, which pairs again only by R345, sends PAIR too while its ledger allows seeding (DEDUCED, log
entry 174). -/
def execPairTimer (s : State) : Res := .next (if (s.twin.pair = .waiting ∨ (s.twin.pair = .solo ∧ seedPhase s ≠ 0)) ∧ s.keep.mirror = false then
    (if seedsNow s then trySeed s else sendPair s) else s)

/-- PAIR (R344, R345). -/
def execPair (m : PairMsg) (s : State) : Res := .next (if s.keep.mirror then s else takePair m s)

/-- SEED (R345): bytes for the mirror areas. -/
def execSeed (addr : BitVec 42) (data : Bytes) (s : State) : Res :=
  .next (
    let inside := (mirrorRanges s).any fun r => decide (r.1 ≤ addr.toNat) && decide (addr.toNat + data.length ≤ r.1 + r.2)
    if s.twin.pair = .seeding ∧ inside = true then pokeDev addr.toNat data { s with twin := { s.twin with seeded := true } } else s)

/-- SEEDEND (R345). -/
def execSeedEnd (committed : BitVec 64) (digests : List (BitVec 128)) (boundary : BitVec 128) (block : Bytes) (s : State) : Res :=
  .next (if s.twin.pair = .seeding then takeSeedEnd committed.toNat digests boundary block s else s)

/-- SEEDOK (R345). -/
def execSeedOk (s : State) : Res :=
  .next (if s.twin.pair = .seeding then tryInStep { s with twin := { s.twin with gotOk := true } } else s)

/-- IMAGE (R346): custody is complete with the last byte. -/
def execImage (off : Nat) (data : Bytes) (last : Bool) (s : State) : Res :=
  .next (
    let tw := s.plan.plan.tw
    if twinOn s && tw.custody && decide (off + data.length ≤ 4294967296) then
      let s := pokeDev (tw.custAddr + off) data s
      { s with twin := { s.twin with custody := setBit s.twin.custody 1 last } }
    else s)

/-- INPUT (R349): at pending offset 0. -/
def execInput (step : BitVec 64) (off : Nat) (data : Bytes) (s : State) : Res :=
  .next (
    let n := s.plan.plan.tw.ringBytes
    if twinOn s && decide (off + data.length ≤ n) then
      let s := putPend off data s
      if off + data.length = n then trySack step.toNat { s with twin := { s.twin with inputStep := step.toNat } } else s
    else s)

/-- GRAD (R349). -/
def execGrad (step : BitVec 64) (layer off : Nat) (data : Bytes) (s : State) : Res :=
  .next (match layerEnt (partnerLt s) layer with
    | none => s
    | some e =>
      if twinOn s && decide (step.toNat = s.led.running) then
        putGrad ((partnerLt s).tensorsOf e) off data { s with twin := { s.twin with shadowB := s.twin.shadowB + data.length } }
      else s)

/-- GEND (R349, R350). -/
def execGend (step : BitVec 64) (layer : Nat) (n cs : W32) (dg ds : BitVec 128) (s : State) : Res :=
  .next (match layerEnt (partnerLt s) layer with
    | none => s
    | some _ => if twinOn s && decide (step.toNat = s.led.running) then takeGend step.toNat layer n cs dg ds s else s)

/-- GACK (R350). -/
def execGack (step : BitVec 64) (layer : Nat) (ok : Bool) (s : State) : Res :=
  .next (match layerEnt (ownLt s) layer with
    | none => s
    | some e => if twinOn s && decide (step.toNat = s.led.running) then takeGack layer e ok s else s)

/-- STEPM (R350). Of the next step it brings the partner's repair-map version too (R290). -/
def execStepm (step : BitVec 64) (m : MeasBlock) (s : State) : Res :=
  .next (if twinOn s then trySack step.toNat { s with twin := { s.twin with
      meas := some m, measStep := step.toNat,
      precord := if step.toNat = s.twin.mirror + 1 then { s.twin.precord with repair := (StepRec.ofNat m.record.toNat).repair } else s.twin.precord } } else s)

/-- SACK (R351). -/
def execSack (step : BitVec 64) (s : State) : Res :=
  .next (if twinOn s then { s with twin := { s.twin with sacked := step.toNat } } else s)

/-- PART (R350). -/
def execPart (gen : BitVec 32) (target : Option (BitVec 64)) (entries : List EntryVal) (s : State) : Res :=
  .next (if twinOn s then
      toTwin (.pack gen.toNat) { s with twin := { s.twin with pparts := s.twin.pparts ++
        [{ gen := gen, point := .step, target := target.map (·.toNat), entries := entries }] } }
    else s)

/-- PACK (R350): the dictionary commit that waited is answered. -/
def execPack (gen : BitVec 32) (s : State) : Res :=
  .next (match s.dict.packWait.find? fun x => decide (x.1 = gen) with
    | none => s
    | some x => applyCan (reply x.2 [] { s with dict := { s.dict with packWait := s.dict.packWait.erase x } }))

/-- SHADOW_LAYER_DONE (R352, R353): paused while the card is halted. -/
def execShadowLayerDone (layer : Nat) (ecc : Ecc) (s : State) : Res :=
  .next (match layerEnt (partnerLt s) layer, s.twin.meas with
    | some e, some m =>
      let r := mirrorRun s layer
      if s.twin.shadowN ≠ 0 ∧ s.keep.dev ≠ .halted ∧ (r.gended && !r.done && !r.bad && !r.refetch) = true then shadowDone layer e m ecc s else s
    | _, _ => s)

/-- SDONE (R29, R356, R357). -/
def execSdone (step : BitVec 64) (escalated : Bool) (s : State) : Res := .next (if twinOn s then takeSdone step.toNat escalated s else s)

/-- DISCARD (R353): the gradients held for the step are dropped. -/
def execDiscardMessage (step : BitVec 64) (s : State) : Res :=
  .next (if twinOn s && decide (s.twin.shadowN = 0) && decide (step.toNat = s.led.running) then
      { s with twin := { s.twin with mruns := [], meas := none, shadowB := 0 } }
    else s)

/-- PULL (R358, R360). -/
def execPull (w : PullWhat) (s : State) : Res := .next (servePull w s)

/-- DATA (R356, R358, R359). -/
def execData (w : PullWhat) (bytes : Bytes) (reference : BitVec 128) (s : State) : Res :=
  .next (if s.keep.mirror then s else takeData w bytes reference s)

/-- DIGREQ (R356). -/
def execDigreq (layer : Nat) (s : State) : Res := .next (if twinOn s then takeDigreq layer s else s)

/-- DIGRSP (R356, R357). -/
def execDigrsp (layer : Nat) (stored : BitVec 128) (_ : Option (BitVec 128)) (s : State) : Res :=
  .next (if twinOn s then takeDigrsp layer stored s else s)

/-- HB (R347). -/
def execHb (_ : Fin 20) (s : State) : Res := .next { s with twin := { s.twin with hbSeen := true } }

/-- TWIN_HB_TIMER (R349): on each port of the pair. -/
def execTwinHbTimer (s : State) : Res :=
  .next (
    let up := decide (s.twin.pair = .seeding) || decide (s.twin.pair = .inStep)
    if up && !s.keep.mirror then toTwin .hb s else s)

/-- TWIN_LINK_LOST (R347): no HB for the suspicion time. -/
def execTwinLinkLost (fabricAlive : Bool) (s : State) : Res :=
  .next (
    let seen := s.twin.hbSeen
    let s : State := { s with twin := { s.twin with hbSeen := false } }
    if seen || s.keep.mirror then s else linkLost fabricAlive s)

/-- UNPAIR (R347). -/
def execUnpair (s : State) : Res :=
  .next (if (s.twin.pair = .inStep ∨ s.twin.pair = .seeding) ∧ s.keep.mirror = false then twinFails (enterSolo 1 s) else s)

/-- SIDEBAND_TIMEOUT (R347, R461). -/
def execSidebandTimeout (s : State) : Res := .next { s with twin := { s.twin with sideband := false } }

/-- CARD_LEVEL_FAULT (R22, R360). -/
def execCardLevelFault (s : State) : Res := .next (cardFails s)

/-- RECRUIT (R361): a plan that the spare holds is released. -/
def execRecruit (a : Access) (f : BitVec 16) (s : State) : Res :=
  .next (actWrite a 0x2C20 1 (fun s =>
    if !eligibleSpare s then refuse a 0x2C20 1 abState s
    else
      let s := if s.plan.active.isSome then releasePlan s else s
      reply a [] { s with
        plan := { s.plan with recruitAs := some f.toNat }
        fab := { s.fab with joining := true } }) s)

/-- REPLACE_CARD (R366): a request goes to the coordinator, which tells every card of it while a step runs; each then waits at
the next boundary for the map part (DESIGN CHOICE, log entry 185). -/
def execReplaceCard (a : Access) (f : BitVec 16) (s : State) : Res :=
  .next (actWrite a 0x2C24 1 (fun s =>
    if s.plan.plan.cards ≤ f.toNat then refuse a 0x2C24 1 abRange s
    else if s.plan.active.isNone then refuse a 0x2C24 1 abState s
    else if amCoordinator s then reply a [] (tellHandover { s with fab := { s.fab with handover := some f.toNat } })
    else if fromCoordinator a s then reply a [] { s with fab := { s.fab with handover := some f.toNat, handTold := true } }
    else reply a [] (toCard (coordinator s) (.usdo a.src (.write 0x2C24 1 (leBytes 2 f.toNat))) s)) s)

/-- PLANNED_HANDOVER (R366): at the boundary of the next commit, with no abort. The spare is recruited once the card's twin has
answered that its mirror stands at that step, which is when it has sent SDONE. -/
def execPlannedHandover (s : State) : Res :=
  .next (match s.fab.handover with
    | none => s
    | some f =>
      if amCoordinator s && s.fab.handTold && decide (s.led.st = .opened) && s.led.waiting && !s.led.reopen && !recActive s then
        askPartners (recBegin f s)
      else s)

end Sys2Proof.Machine
end

