-- ==== Sys2Proof/Machine/Card.lean ====
section
/-! DEFINITION. Identify and the LEDs, cables and the sideband (R460, R461, R469), the failure of a reservoir group (R247),
and what copies and the patrol scrub find (R231, R249). -/

namespace Sys2Proof.Machine

/-- IDENTIFY (R469): 0 ends it at once. -/
def execIdentify (a : Access) (v : BitVec 16) (s : State) : Res :=
  .next (actWrite a 0x2140 2 (fun s =>
    if 3600 < v.toNat then refuse a 0x2140 2 abRange s
    else reply a [] { s with keep := { s.keep with
      identEnd := if v = 0 then 0 else s.keep.samples + 1024 * v.toNat } }) s)

/-- IDENTIFY_EXPIRY (R469). -/
def execIdentifyExpiry (s : State) : Res := .next { s with keep := { s.keep with identEnd := 0 } }

/-- One port of a connector whose cable comes or goes: without a cable it stays down, and what it carried fails. -/
def cablePort (p : Nat) (present : Bool) (s : State) : State :=
  if present then setPort p { getPort s p with cable := true } s
  else portDown p {} s

/-- HB_TX (R461): whether the card drives its 10 kHz square wave on the sideband, as it does while its keeper runs; else the pin
is low. -/
def hbTx (s : State) : Bool := keeperOn s

/-- CABLE_PRESENCE_CHANGE (R460). -/
def execCablePresenceChange (n : Fin 5) (present : Bool) (s : State) : Res :=
  .next ((List.range 4).foldl (fun s k => cablePort (4 * n.val + k) present s) s)

/-- HB_RX_EDGE (R347, R461). -/
def execHbRxEdge (s : State) : Res :=
  .next (if keeperOn s then { s with twin := { s.twin with sideband := true } } else s)

/-- RESERVOIR_GROUP_FAILURE (R247): its condition, its record, which names the group's lowest barge (DESIGN CHOICE, log entry
161; a plan-area barge stands in every group), and a card failure. -/
def execReservoirGroupFailure (g : Fin 8) (s : State) : Res :=
  .next (
    if Sparse.get 0 s.mem.group g.val = 2 then s
    else
      let b := ((s.mem.barges.find? fun b => b.2.rfv && decide (groupOf b.2.rframe = g.val)).map (·.1)).getD
        (planBarge s.strap.variant + g.val)
      let s : State := { s with mem := { s.mem with group := Sparse.set 0 s.mem.group g.val 2 } }
      cardFails (recordDamage (b * bargeBytes) true 4 false s))

/-! ### Ends of copies and the patrol scrub -/

/-- COPY_DONE (R230, R231, R359). -/
def execCopyDone (b : Nat) (s : State) : Res := .next (damageFound s (copyDone b s))

/-- COPY_FAILED (R231, R246, R359): what the copy found is recorded, then the copy fails. -/
def execCopyFailed (b : Nat) (ecc : Ecc) (s : State) : Res :=
  .next (
    if s.mem.copies.any fun c => decide (c.barge = b) then
      copyFails b (match ecc with
        | .uncorrectable a => damageFound s (recordDamage a.toNat (place s a.toNat).resv 2 false (applyEcc ecc s))
        | e => applyEcc e s)
    else s)

/-- PATROL_SCRUB_READ (R246, R249, R251, R359). A frame that no barge holds, of the side pond or free, is recorded as such. -/
def execPatrolScrubRead (w : ScrubAt) (f : ScrubFound) (s : State) : Res :=
  .next (
    let key := (if w.reservoir then resvKey w.frame 0 else basinKey w.frame 0) + w.row * 2048
    match f with
    | .clean => s
    | .corrected => corrected w.reservoir w.frame key s
    | .uncorrectable blk =>
      let addr := frameAddr s w.reservoir w.frame (w.row * 2048 + blk * 64)
      let t := damageFound s
        (recordDamage (addr.getD 0) w.reservoir 3 addr.isNone (uncorrectable w.reservoir w.frame ((key / 64 + blk) * 64) s))
      match pondAt s ((key / 64 + blk) * 64) with
      | none => t
      | some o => pondDamaged o t)

end Sys2Proof.Machine
end

