-- ==== Sys2Proof/Machine/HarvestCmds.lean ====
section
/-! DEFINITION. The harvest commands (R370 to R375). -/

namespace Sys2Proof.Machine

/-- Whether a request for a harvest of step `t` is refused (R370). -/
def harvRefused (s : State) (t : Nat) : Bool :=
  s.plan.active.isNone || harvBusy s || decide (t < s.led.committed) ||
    (decide (t = s.led.committed) && jobRuns s && !s.led.waiting)

/-- Request a harvest of step `t`: of the committed step it starts at once. -/
def harvRequest (t : Nat) (s : State) : State :=
  let s : State := { s with harv := { s.harv with step := t, cause := 0 } }
  if t = s.led.committed then harvStart (boundaryBlock s) s else setHarv 1 s

/-- HARVEST_STEP (R370, R371). -/
def execHarvestStep (a : Access) (t : BitVec 64) (s : State) : Res :=
  .next (actWrite a 0x2A10 1 (fun s =>
    if harvRefused s t.toNat then refuse a 0x2A10 1 abState s else reply a [] (harvRequest t.toNat s)) s)

/-- Whether a host write may take its sequence number and go out (R379, R396). -/
def mayWriteHost (s : State) : Bool :=
  !s.host.down && s.host.up && !s.host.d3 && decide (s.host.olseq + 1 - s.host.hostseq ≤ 1024)

/-- Write to host memory: the operation takes its sequence number and its entry in the outbound ledger (R396). A flag
carries that number in bytes 8 to 15, and never Relaxed Ordering; data carry it where the function's bit is set (R391). -/
def emitHost (w : HostWr) (s : State) : State :=
  let n := s.host.olseq + 1
  let flag := decide (2 ≤ w.kind) && decide (w.kind ≤ 4)
  let data := if flag then takePad 8 w.data ++ leBytes 8 n else w.data
  let e : OlEnt := { seq := n, addr := w.addr, len := data.length, kind := w.kind, ref := w.ref }
  let s := send (.hostWrite w.addr data (s.host.cfg.relaxed && (decide (w.kind = 1) || decide (w.kind = 5)))) { s with
    host := { s.host with olseq := n, ol := Sparse.set none s.host.ol (n % 1024) (some e) } }
  match w.vec with
  | none => s
  | some v => raiseVec v s

/-- The header, the completion flag of an image (R373). -/
def sendHeader (s : State) : State :=
  let hd := s.harv.head.take 256
  if num s 0x2A10 3 = 0 then
    (if (s.host.waitWr.any isHarvWr) || !mayWriteHost s then s
    else harvDone (emitHost { kind := 6, addr := num s 0x2A11 1, data := hd, ref := 0 } s))
  else if s.fab.remotes.any fun r => decide (r.unit = harvUnit) then s
  else toGateway 0 hd { s with harv := { s.harv with head := [] } }

/-- HARVEST_COMPLETE (R373): once every section is written, the header goes out; a gateway's acknowledgement of it then
completes the harvest. -/
def execHarvestComplete (s : State) : Res :=
  .next (if s.harv.state = 2 ∧ s.harv.left = [] ∧ s.harv.head.isEmpty = false then sendHeader s else s)

/-- HARVEST_CANCEL (R374). -/
def execHarvestCancel (a : Access) (v : BitVec 8) (s : State) : Res :=
  .next (actWrite a 0x2A10 6 (fun s =>
    if v ≠ 1 then refuse a 0x2A10 6 abRange s else reply a [] (harvFail 4 s)) s)

/-- Load a harvest image (R375): with any check failed nothing is changed. -/
def loadImage (buf : Bytes) (s : State) : State :=
  let code := loadCode s buf
  let s : State := { s with harv := { s.harv with load := code } }
  if code ≠ 0 then s
  else
    let s := (imageSections buf).foldl (fun s x => loadSection x s) s
    let s := digestOwn (rebuildAll s)
    let t := leAt buf 8 8
    let s : State := { s with
      led := { s.led with committed := t }
      harv := { s.harv with loaded := t } }
    if s.twin.pair = .inStep then
      setPair .waiting s.twin.cause { s with twin := { s.twin with sawPair := false, pAccepts := false, pairSent := false, sentOk := false, gotOk := false } }
    else s

/-- HARVEST_LOAD (R375): `buffer` is what the host buffer of 0x2A11 holds. -/
def execHarvestLoad (a : Access) (v : BitVec 8) (buffer : Bytes) (s : State) : Res :=
  .next (actWrite a 0x2A1C 1 (fun s =>
    if v ≠ 1 then refuse a 0x2A1C 1 abRange s
    else if s.keep.dev = .planLoaded ∧ s.led.st = .nojob then reply a [] (loadImage buffer s)
    else refuse a 0x2A1C 1 abState s) s)

end Sys2Proof.Machine
end

