-- ==== Sys2Proof/Machine/HostLink.lean ====
section
/-! DEFINITION. The host link (R379 to R403) but for the mailbox: registers of BAR0, the window, the command queue and its
copies, the ring counters, outbound writes, events, and resets of the host-interface domain. -/

namespace Sys2Proof.Machine

/-! ### What the host can reach -/

/-- Whether the BARs decode: the link is up, the domain out of reset, the function in D0 (R379). -/
def barOpen (s : State) : Bool := s.host.up && !s.host.down && !s.host.d3

/-! ### The function's configuration space (R379) -/

/-- A capability of the function. -/
inductive PciCap where
  | powerManagement (states : List Nat)
  | msix (vectors : Nat)
  | advancedErrorReporting
  | tenBitTags
  | maxPayload (least most : Nat)
  | maxReadRequest (most : Nat)
  deriving DecidableEq, Repr

/-- The class code: a processing accelerator. -/
def pciClass : Nat := 0x120000

/-- A Type 0 header. -/
def pciHeaderType : Nat := 0

/-- The capabilities that the function implements. -/
def pciCaps : List PciCap :=
  [.powerManagement [0, 3], .msix 64, .advancedErrorReporting, .tenBitTags, .maxPayload 128 512, .maxReadRequest 4096]

/-- Whether the link trains so: at 64 GT/s (3) in Flit Mode, at 32 (2) or 16 GT/s (1) without, with 16, 8 or 4 lanes. -/
def linkTrains (speed width : Nat) (flitMode : Bool) : Bool :=
  [(3, true), (2, false), (1, false)].contains (speed, flitMode) && [16, 8, 4].contains width

/-- Whether the device memory of an access of `n` bytes is ready for the host (R429), in recovery mode for plan area 0 alone
(R431). -/
def memReady (s : State) (addr n : Nat) : Bool :=
  if s.boot.recovery then
    decide (planArea s.strap.variant addr = some 0) && decide (planArea s.strap.variant (addr + n - 1) = some 0)
  else s.boot.phases.contains 5

/-! ### WINBASE, the window's snapshot, and the queue's registers (R382, R383, R386) -/

def modHost (f : HostSt → HostSt) (s : State) : State := { s with host := f s.host }

/-- A write of WINBASE. -/
def setWinbase (v : Nat) (s : State) : State :=
  if v % bargeBytes = 0 ∧ v < s.strap.variant.barges * bargeBytes then modHost (fun h => { h with winbase := v }) s
  else modHost (fun h => { h with winref := 1 }) s

/-- Whether a snapshot opened now is open at once: no step runs or is halted (R254). -/
def noStepRuns (s : State) : Bool := !jobRuns s || (decide (s.led.st = .opened) && s.led.waiting)

/-- Open the window's snapshot. -/
def openWindow (s : State) : State :=
  if s.host.winmode then s
  else match freeSnap s with
    | none => modHost (fun h => { h with winref := 2 }) s
    | some k =>
      let s := modHost (fun h => { h with winmode := true, winst := 1, winsnap := some k })
        (setSnap k { state := 1, opener := 1 } s)
      if noStepRuns s then openSnaps s else s

/-- Close the window's snapshot. -/
def closeWindow (s : State) : State :=
  let s := match s.host.winsnap with
    | none => s
    | some k => closeSnap k s
  modHost (fun h => { h with winmode := false, winst := 0, winsnap := none, winstep := 0 }) s

/-- Whether the queue holds no command. -/
def queueEmpty (s : State) : Bool := decide (s.host.cqtail = s.host.cqdone)

def setCqbase (v : Nat) (s : State) : State :=
  if v % 4096 = 0 ∧ queueEmpty s then modHost (fun h => { h with cqbase := v }) s else s

def setCqsize (v : Nat) (s : State) : State :=
  if 64 ≤ v ∧ v ≤ 65536 ∧ v = 2 ^ v.log2 ∧ queueEmpty s then modHost (fun h => { h with cqsize := v }) s else s

/-- The difference of two 32-bit counts. -/
def since32 (a b : Nat) : Nat := (a + 2 ^ 32 - b % 2 ^ 32) % 2 ^ 32

def setCqtail (v : Nat) (s : State) : State :=
  if s.host.cqsize < since32 v s.host.cqdone then countBoot 0x240C 5 1 s
  else wakePath (modHost (fun h => { h with cqtail := v }) s)

/-- The host posts ring slots (R389). -/
def setRingput (v : Nat) (s : State) : State :=
  let n := s.plan.plan.ringSlots
  if since32 v s.host.ringget ≤ n ∧ since32 v s.host.ringput ≤ n then modHost (fun h => { h with ringput := v }) s
  else countBoot 0x2414 4 1 s

/-- The host confirms outbound writes (R396). -/
def setHostseq (v : Nat) (s : State) : State :=
  if s.host.hostseq ≤ v ∧ v ≤ s.host.olseq then modHost (fun h => { h with hostseq := v }) s else countBoot 0x2410 3 1 s

/-! ### Register writes (R381) -/

/-- The value that a write gives a 64-bit register: a 4 B write replaces one half. -/
def merge64 (old off : Nat) (data : Bytes) : Nat :=
  if data.length = 8 then leNat data
  else if off % 8 = 0 then old / 2 ^ 32 * 2 ^ 32 + leNat data
  else old % 2 ^ 32 + 2 ^ 32 * leNat data

/-- Whether a write of a 32-bit or 64-bit register has an allowed size and alignment. -/
def regSizeOk (w : RegWrite) : Bool :=
  (decide (w.size = 4) || decide (w.size = 8)) && decide (w.data.length = w.size) && decide (w.off.toNat % w.size = 0)

/-- Replace bytes of a byte string. -/
def patch (old : Bytes) (off : Nat) (bs : Bytes) : Bytes := old.take off ++ bs ++ old.drop (off + bs.length)

/-- A write to the MSI-X table; bit 0 of byte 12 of an entry is held inverted. -/
def writeMsix (off : Nat) (bs : Bytes) (s : State) : State :=
  let tab := (bs.zipIdx).foldl (fun m x => Sparse.set 0 m (off + x.2) (x.1 ^^^ (if (off + x.2) % 16 = 12 then 1 else 0))) s.host.msixTab
  flushVecs (modHost (fun h => { h with msixTab := tab }) s)

/-- A write of an allowed size to one of the registers at 0x0008 to 0x0728. -/
def writeReg (w : RegWrite) (s : State) : State :=
  let off := w.off.toNat
  let v := leNat (w.data.take 4)
  let wide (old : Nat) : Nat := merge64 old off w.data
  let low := decide (off % 8 = 0)
  match off / 8 * 8 with
  | 0x0200 => setWinbase (wide s.host.winbase) s
  | 0x0208 => if low && decide (v = 1) then openWindow s else if low && decide (v = 0) then closeWindow s else s
  | 0x0300 => setCqbase (wide s.host.cqbase) s
  | 0x0308 => if low then setCqsize v s else s
  | 0x0310 => if low then setCqtail v s else s
  | 0x0400 => if low then setRingput v s else s
  | 0x0418 => if wide s.host.ringflag % 16 = 0 then modHost (fun h => { h with ringflag := wide s.host.ringflag }) s else s
  | 0x0420 => if wide s.host.commitflag % 16 = 0 then modHost (fun h => { h with commitflag := wide s.host.commitflag }) s else s
  | 0x0600 => setHostseq (wide s.host.hostseq) s
  | 0x0728 => if low && decide (v ≤ 4096) then modHost (fun h => { h with evlevel := v }) s else s
  | _ => s

/-- A write to BAR0; a doorbell of the mailbox is MBXCTL_DOORBELL. -/
def regWrite (w : RegWrite) (s : State) : State :=
  let off := w.off.toNat
  let n := w.data.length
  if 0x0100 ≤ off ∧ off < 0x0140 then
    (if n = w.size ∧ off + n ≤ 0x0140 then
      modHost (fun h => { h with mbxreq := patch (takePad 64 h.mbxreq) (off - 0x0100) w.data }) s else s)
  else if 0x4000 ≤ off ∧ off < 0x4400 then (if regSizeOk w then writeMsix (off - 0x4000) w.data s else s)
  else if regSizeOk w then writeReg w s
  else s

/-- REGISTER_WRITE (R381). -/
def execRegisterWrite (w : RegWrite) (s : State) : Res := .next (if barOpen s then regWrite w s else s)

/-- WINBASE_WRITE (R381, R382). -/
def execWinbaseWrite (w : RegWrite) (s : State) : Res :=
  .next (if barOpen s && regSizeOk w && decide (w.off.toNat / 8 * 8 = 0x0200) then writeReg w s else s)

/-- WINDOW_OPEN_SNAPSHOT (R383). -/
def execWindowOpenSnapshot (s : State) : Res := .next (if barOpen s then openWindow s else s)

/-- WINDOW_CLOSE_SNAPSHOT (R256, R383). -/
def execWindowCloseSnapshot (s : State) : Res := .next (if barOpen s then closeWindow s else s)

/-! ### The window (R382 to R385) -/

/-- An unserved read completes with all ones. -/
def unserved (n : Nat) (s : State) : State :=
  countBoot 0x2408 1 1 (send (.windowData (List.replicate n 0xFF))
    (modHost (fun h => { h with winerr := (h.winerr + 1) % 2 ^ 32 }) s))

/-- A window read. -/
def winRead (off n : Nat) (ecc : Ecc) (s : State) : State :=
  let addr := s.host.winbase + off
  if !memReady s addr n then unserved n s
  else
    let s := wakePath s
    let r := if s.host.winmode then (match s.host.winsnap with
        | some k => if s.host.winst = 2 then snapRead k addr n ecc s else .failed s
        | none => .failed s)
      else readDev addr n ecc s
    match r with
    | .ok s bs => send (.windowData bs) s
    | r => unserved n (damageFound s r.state)

/-- WINDOW_READ (R382 to R384). -/
def execWindowRead (off : BitVec 29) (n : Nat) (ecc : Ecc) (s : State) : Res :=
  .next (if barOpen s then winRead off.toNat n ecc s else s)

/-- A window write that is dropped. -/
def dropWrite (s : State) : State := countBoot 0x2408 2 1 s

/-- WINDOW_WRITE (R382, R383): dropped in committed mode and before boot phase 5. -/
def execWindowWrite (off : BitVec 29) (data : Bytes) (s : State) : Res :=
  .next (
    let addr := s.host.winbase + off.toNat
    if !barOpen s then s
    else if s.host.winmode || !memReady s addr data.length then dropWrite s
    else pokeDev addr data (wakePath s))

/-- WINDOW_READ_TIMEOUT (R384). -/
def execWindowReadTimeout (n : Nat) (s : State) : Res := .next (if barOpen s then unserved n s else s)

/-! ### The command queue (R386, R387, R391, R393) -/

/-- CQTAIL_WRITE (R386). -/
def execCqtailWrite (v : W32) (s : State) : Res := .next (if barOpen s then setCqtail v.toNat s else s)

/-- The OP field of an entry. -/
def entryOp (e : Nat) : Nat := bits e 3 0

/-- Whether an entry is valid: reserved bits clear, no misalignment, no reserved OP (status 4 of R387). -/
def entryValid (e : Nat) : Bool :=
  decide (entryOp e ≤ 4) && decide (bits e 15 7 = 0) && decide (bits e 63 32 = 0) && decide (bits e 255 232 = 0) &&
    decide (bits e 511 320 = 0) && decide (bits e 127 64 % 64 = 0) && decide (bits e 191 128 % 64 = 0) &&
    decide (bits e 231 192 % 64 = 0) && decide (bits e 319 256 % 16 = 0)

def entryCmd (count e : Nat) : Cmd :=
  { count := count, op := entryOp e, flag := bit e 4, intr := bit e 6, tag := bits e 31 16, status := 0, faddr := bits e 319 256,
    haddr := bits e 127 64, daddr := bits e 191 128, len := bits e 231 192 }

/-- Whether the next command may start: the queue enabled and not empty, fewer than 4 in progress, host memory reachable
(R379), device memory ready (R429). -/
def mayStartCmd (s : State) : Bool :=
  barOpen s && decide (s.host.cqbase ≠ 0) && decide (s.host.cqnext ≠ s.host.cqtail) && decide (s.host.cmds.length < 4) &&
    (s.boot.phases.contains 5 || s.boot.recovery)

/-- The next command starts, its work done by `f`, which answers its status; an entry of another OP is another row's. -/
def startCmd (op : Nat) (entry : BitVec 512) (f : Cmd → State → State × Nat) (s : State) : State :=
  let e := entry.toNat
  if !mayStartCmd s || (decide (entryOp e ≤ 4) && decide (entryOp e ≠ op)) then s
  else
    let c := entryCmd s.host.cqnext e
    let r := if entryValid e then f c (wakePath s) else (s, 4)
    modHost (fun h => { h with cqnext := (h.cqnext + 1) % 2 ^ 32, cmds := h.cmds ++ [{ c with status := r.2 }] }) r.1

/-- Copy blocks into device memory, in ascending order up to the first error: the bytes moved and the status. -/
def copyIn : Nat → List Bytes → Nat → State → State × Nat × Nat
  | _, [], n, s => (s, n, 0)
  | a, b :: bs, n, s =>
    if !memReady s a b.length then (s, n, 1)
    else if (match planArea s.strap.variant a with | some k => decide (2 ≤ areaState s k) | none => false) then (pokeDev a b s, n, 5)
    else match writeDev a b s with
      | .ok s _ => copyIn (a + 64) bs (n + b.length) s
      | .notBacked s => (s, n, 1)
      | .failed s => (s, n, 2)

/-- OP 1: `data` is what the host's memory returned, less than LEN where a host read failed. -/
def hostToDevice (data : Bytes) (hostError : Bool) (c : Cmd) (s : State) : State × Nat :=
  let d := data.take c.len
  match copyIn c.daddr (chunks 64 (d.length / 64) d) 0 s with
  | (s, n, st) => (countBoot 0x240C 1 n s, if st ≠ 0 then st else if hostError ∨ d.length < c.len then 3 else 0)

/-- Read blocks of device memory in ascending order up to the first error. -/
def copyOut (rd : Nat → State → MemOut) : Nat → Nat → Bytes → State → State × Bytes × Nat
  | 0, _, acc, s => (s, acc, 0)
  | n + 1, a, acc, s =>
    if !memReady s a 64 then (s, acc, 1)
    else match rd a s with
      | .ok s bs => copyOut rd n (a + 64) (acc ++ bs) s
      | .notBacked s => (s, acc, 1)
      | .failed s => (s, acc, 2)

/-- OP 2: the data go out as one host write (R396). -/
def deviceToHost (snapSrc : Bool) (ecc : Ecc) (c : Cmd) (s : State) : State × Nat :=
  let go (rd : Nat → State → MemOut) (s : State) : State × Nat :=
    match copyOut rd (c.len / 64) c.daddr [] s with
    | (s, bs, st) =>
      let s := countBoot 0x240C 2 bs.length s
      (if bs.isEmpty then s else hostWrite 1 c.haddr c.count bs none s, st)
  let s := applyEcc ecc s
  if snapSrc then
    match s.host.winsnap with
    | some k => if 2 ≤ s.host.winst then go (fun a s => snapRead k a 64 .clean s) s else (s, 6)
    | none => (s, 6)
  else go (fun a s => readDev a 64 .clean s) s

/-- NO_OP_COMMAND (R386). -/
def execNoOpCommand (entry : BitVec 512) (s : State) : Res := .next (startCmd 0 entry (fun _ s => (s, 0)) s)

/-- HOST_TO_DEVICE (R387). -/
def execHostToDevice (entry : BitVec 512) (data : Bytes) (hostError : Bool) (s : State) : Res :=
  .next (startCmd 1 entry (hostToDevice data hostError) s)

/-- DEVICE_TO_HOST (R387). -/
def execDeviceToHost (entry : BitVec 512) (ecc : Ecc) (s : State) : Res :=
  .next (startCmd 2 entry (fun c s =>
    let r := deviceToHost (bit entry.toNat 5) ecc c s
    (damageFound s r.1, r.2)) s)

/-- FENCE (R393): commands complete in queue order, and an accepted device write is visible at once. -/
def execFence (entry : BitVec 512) (s : State) : Res := .next (startCmd 3 entry (fun _ s => (s, 0)) s)

/-- FLAG_ONLY (R386). -/
def execFlagOnly (entry : BitVec 512) (s : State) : Res := .next (startCmd 4 entry (fun _ s => (s, 0)) s)

/-- Complete the oldest command: CQDONE advances, its flag is written and vector 2 raised. Its data must have gone out. -/
def completeCmd (c : Cmd) (cs : List Cmd) (s : State) : State :=
  let s := countBoot 0x240C 3 1 (modHost (fun h => { h with cmds := cs, cqdone := (h.cqdone + 1) % 2 ^ 32 }) s)
  let s := if c.status = 0 then s else countBoot 0x240C 4 1 s
  let vec := if c.intr then some 2 else none
  if c.flag ∧ c.faddr % 16 = 0 then
    hostWrite 2 c.faddr c.count (leBytes 8 (pack [(16, c.tag), (8, c.status), (8, 0), (32, c.count)])) vec s
  else if c.intr then raiseVec 2 s
  else s

/-- COMMAND_COMPLETE (R386). -/
def execCommandComplete (s : State) : Res :=
  .next (match s.host.cmds with
    | [] => s
    | c :: cs =>
      if s.host.waitWr.any fun w => decide (w.kind = 1) && decide (w.ref = c.count) then s else completeCmd c cs s)

/-- RINGPUT_WRITE (R389). -/
def execRingputWrite (v : W32) (s : State) : Res := .next (if barOpen s then setRingput v.toNat s else s)

/-- HOSTSEQ_WRITE (R396). -/
def execHostseqWrite (v : W64) (s : State) : Res := .next (if barOpen s then setHostseq v.toNat s else s)

/-! ### Outbound writes (R396) -/

/-- The oldest waiting host write goes out. A section of this card's harvest is read through its snapshot then. -/
def writeOldest (s : State) : State :=
  match s.host.waitWr with
  | [] => s
  | w :: ws =>
    let s := modHost (fun h => { h with waitWr := ws }) s
    if w.mine && decide (w.kind = 5) then
      (match takeSection w.ref s with
      | (s, none) => s
      | (s, some bs) => emitHost { w with data := bs } s)
    else emitHost w s

/-- OUTBOUND_WRITE (R396): a write waits until fewer than 1,024 are unconfirmed. -/
def execOutboundWrite (s : State) : Res := .next (if mayWriteHost s then writeOldest s else s)

/-! ### Events (R400 to R402) -/

/-- The entry that a pop of an empty queue returns. -/
def emptyEvent (s : State) : Event :=
  { typ := 0, sev := 0, source := noSource, eseq := s.stat.eseq % 2 ^ 32, step := stepNow s, detail := 0 }

/-- After drops a gap marker goes to the tail with the first pop. -/
def gapMarker (s : State) : State :=
  if s.host.lost = 0 then s
  else
    let n := s.host.lost
    enqueue { emptyEvent s with typ := 2, sev := openSev 2 (n % 2 ^ 32), detail := n % 2 ^ 32 } (modHost (fun h => { h with lost := 0 }) s)

/-- EVPOP_READ (R400, R401): `n` bytes from the entry's byte `off`; of its 32 bytes those not returned are lost. -/
def execEvpopRead (off : Fin 32) (n : Nat) (s : State) : Res :=
  .next (
    if !barOpen s then s
    else match s.host.events with
      | [] => send (.event (((emptyEvent s).toBytes.drop off.val).take n)) s
      | e :: es => gapMarker (send (.event ((e.toBytes.drop off.val).take n)) (modHost (fun h => { h with events := es }) s)))

/-! ### Register reads (R381) -/

/-- An entry of the outbound ledger (R396); an unused place reads 0. -/
def olBytes (s : State) (k : Nat) : Bytes :=
  match Sparse.get none s.host.ol k with
  | none => zeros 32
  | some e => leBytes 32 (pack [(64, e.seq), (64, e.addr), (40, e.len), (8, e.kind), (16, 0), (32, e.ref), (32, 0)])

/-- HIFSTAT: resets since boot, cause of the last one, speed and width. -/
def hifStat (h : HostSt) : Nat := pack [(8, min 255 h.resets), (4, h.cause), (3, h.speed), (1, 0), (5, h.width)]

/-- MBXSTAT. -/
def mbxStat (h : HostSt) : Nat :=
  pack [(1, b01 h.busy), (1, b01 h.respRdy), (1, b01 h.overrun), (5, 0), (7, h.respLen), (1, 0), (16, h.respCard)]

/-- The 8-byte slot of a register at 0x0000 to 0x072F; a reserved slot and a register that is only written read 0. -/
def regSlot (s : State) (slot : Nat) : Nat :=
  let h := s.host
  match slot with
  | 0x0000 => s.strap.variant.deviceId + 65536
  | 0x0008 => hifStat h
  | 0x0188 => mbxStat h
  | 0x0200 => h.winbase
  | 0x0208 => b01 h.winmode
  | 0x0210 => pack [(4, h.winst), (4, h.winref)]
  | 0x0218 => h.winstep
  | 0x0220 => h.winerr
  | 0x0300 => h.cqbase
  | 0x0308 => h.cqsize
  | 0x0310 => h.cqtail
  | 0x0318 => h.cqdone
  | 0x0320 => pack [(1, b01 (decide (h.cqbase ≠ 0))), (7, 0), (3, h.cmds.length)]
  | 0x0400 => h.ringput
  | 0x0408 => h.ringtake
  | 0x0410 => h.ringget
  | 0x0418 => h.ringflag
  | 0x0420 => h.commitflag
  | 0x0600 => h.hostseq
  | 0x0608 => h.olseq
  | 0x0720 => h.events.length
  | 0x0728 => h.evlevel
  | _ => 0

/-- What a read of `n` bytes at `off` returns, but for the effect of a pop (EVPOP_READ). -/
def regRead (off n : Nat) (s : State) : Bytes :=
  let area (a len : Nat) : Bool := decide (a ≤ off) && decide (off < a + len)
  let bytes (a : Nat) (bs : Bytes) : Bytes := if n ≤ 64 then slice bs (off - a) n else List.replicate n 0xFF
  if area 0x0100 64 then bytes 0x0100 s.host.mbxreq
  else if area 0x0140 64 then bytes 0x0140 s.host.mbxrsp
  else if area 0x0700 32 then bytes 0x0700 (s.host.events.headD (emptyEvent s)).toBytes
  else if area 0x8000 0x8000 then bytes (off / 32 * 32) (olBytes s ((off - 0x8000) / 32) ++ olBytes s ((off - 0x8000) / 32 + 1)
    ++ olBytes s ((off - 0x8000) / 32 + 2))
  else if area 0x4000 0x0400 then (List.range n).map fun i => msixByte s (off - 0x4000 + i)
  else if area 0x5000 8 then slice (leBytes 8 s.host.pba) (off - 0x5000) n
  else if area 0x0008 0x0728 then
    (if (n = 4 ∨ n = 8) ∧ off % n = 0 then slice (leBytes 8 (regSlot s (off / 8 * 8))) (off % 8) n else List.replicate n 0xFF)
  else if area 0 8 then slice (leBytes 8 (regSlot s 0)) off n
  else zeros n

/-! ### Host-interface resets (R394, R395, R402) -/

/-- Bytes whose contents are unknown (R395), one free value each. -/
def unknownBytes (n : Nat) (s : State) : State × Bytes :=
  ({ s with free := s.free + n }, (List.range n).map fun i => Config.unknownByte (s.free + i))

/-- The destination of an unfinished OP 1 copy holds unknown contents. -/
def loseCopy (c : Cmd) (s : State) : State :=
  if c.op = 1 ∧ c.status ≠ 4 then
    (match unknownBytes c.len s with
    | (s, bs) => (copyIn c.daddr (chunks 64 (c.len / 64) bs) 0 s).1)
  else s

/-- The registers after a reset: those marked kept stay. -/
def hostKept (cause : Nat) (linkStays : Bool) (h : HostSt) : HostSt :=
  { up := h.up && linkStays, speed := h.speed, width := h.width, flitMode := h.flitMode,
    resets := h.resets + 1, cause := cause, cqdone := h.cqdone, cqtail := h.cqdone, cqnext := h.cqdone,
    ringput := h.ringput, ringtake := h.ringtake, ringget := h.ringget, hostseq := h.hostseq, olseq := h.olseq, ol := h.ol,
    lostRst := if h.down then h.lostRst else 0, down := true }

/-- A reset of the host-interface domain: causes 1 link down, 2 PERST#, 3 hot reset, 4 FLR. -/
def hostReset (cause : Nat) (linkStays : Bool) (s : State) : State :=
  if !s.keep.v48 then s
  else
    let s := s.host.cmds.foldl (fun s c => loseCopy c s) s
    let s := endSessions .mailbox (closeWindow s)
    let s := modHost (hostKept cause linkStays) s
    if s.harv.state = 2 ∧ num s 0x2A10 3 = 0 then harvFail 3 s else s

/-- DATA_LINK_DOWN (R394, R395). -/
def execDataLinkDown (s : State) : Res := .next (hostReset 1 false s)

/-- PERST (R394, R395). -/
def execPerst (s : State) : Res := .next (hostReset 2 false s)

/-- HOT_RESET (R394, R395). -/
def execHotReset (s : State) : Res := .next (hostReset 3 false s)

/-- FLR (R394, R395): the link itself stays up. -/
def execFlr (s : State) : Res := .next (hostReset 4 true s)

/-- Whether the PCIe domain is powered (R429, R431, R457). -/
def pciePowered (s : State) : Bool := domainOn s .pcie

/-- LINK_RETURN (R379, R394, R402): after a reset the queue's first entry is a reset marker. A link that comes back without a
reset, retrained, changes only its speed and width. What the host then sets in configuration space comes with it. -/
def execLinkReturn (speed : Fin 4) (width : BitVec 5) (flitMode : Bool) (cfg : PciCtl) (s : State) : Res :=
  .next (
    if !pciePowered s || !linkTrains speed.val width.toNat flitMode then s
    else
      let n := s.host.lostRst
      let first := decide (s.host.cause = 0)
      let was := s.host.down
      let s := modHost (fun h => { h with
        up := true, down := false, cfg := cfg, lostRst := 0, speed := speed.val, width := width.toNat, flitMode := flitMode }) s
      if was && !first then
        enqueue { emptyEvent s with typ := 1, sev := openSev 1 (pack [(32, n), (8, s.host.cause)]), detail := pack [(32, n), (8, s.host.cause)] } s
      else s)

/-- PCI_POWER_STATE_CHANGE (R379), with the other bits of configuration space as the host then has them: vectors that waited and
are masked no longer are sent in D0. -/
def execPciPowerStateChange (d3hot : Bool) (cfg : PciCtl) (s : State) : Res :=
  .next (if s.host.up && !s.host.down then flushVecs (modHost (fun h => { h with d3 := d3hot, cfg := cfg }) s) else s)

end Sys2Proof.Machine
end

