-- ==== Sys2Proof/Machine/Dict.lean ====
section
/-! DEFINITION. Writes of the object dictionary (R32 to R51, R55, R61, R63): staging, commits and discards, stores and
restores, USDO sessions, and NMT (R58 to R60, R62, R360). -/

namespace Sys2Proof.Machine

/-! ### Staging (R43, R44) -/

/-- The state of an answer. -/
def resState (r : Res) (s : State) : State :=
  match r with
  | .next t => t
  | _ => s

/-- The application point of an entry. -/
def pointOf (e : EntryVal) : Point :=
  match findObj e.idx.toNat e.sub.toNat with
  | some o => o.point
  | none => .now

/-- Whether the pending set is owned by another source. -/
def foreign (a : Access) (s : State) : Bool :=
  match s.dict.owner with
  | none => false
  | some o => decide (o ≠ a.src)

/-- The pending set with one more staged value: a second write of the same entry replaces the first. -/
def putPending (e : EntryVal) (ps : List EntryVal) : List EntryVal :=
  if ps.any fun p => decide (p.idx = e.idx) && decide (p.sub = e.sub) then
    ps.map fun p => if p.idx = e.idx ∧ p.sub = e.sub then e else p
  else ps ++ [e]

/-- Stage a value (R35, R43, R44). -/
def stageEntry (a : Access) (idx sub : Nat) (bs : Bytes) (s : State) : State :=
  let ps := putPending { idx := BitVec.ofNat 16 idx, sub := BitVec.ofNat 8 sub, val := bs } s.dict.pset
  if foreign a s then refuse a idx sub abState s
  else if 256 < ps.length ∨ 16384 < (ps.map (·.val.length)).sum then refuse a idx sub abFull s
  else reply a [] { s with dict := { s.dict with pset := ps, owner := some a.src } }

/-! ### Commit (R45 to R49) -/

/-- The state with every awaiting part and then the pending set in force (R46). -/
def projected (s : State) : State :=
  applyEntries s.dict.pset (s.dict.awaiting.foldl (fun s p => applyEntries p.entries s) s)

/-- The entries in conflict of the first group that fails its cross-check on the projected state. -/
def crossFails (s : State) : Option (List (Nat × Nat)) :=
  let t := projected s
  (List.range 16).findSome? fun k =>
    match groupCheck t k with
    | [] => none
    | es => some es

/-- Index and sub-index as 0x2011:03 and :04 give them. -/
def entryCode (e : Nat × Nat) : BitVec 32 := BitVec.ofNat 32 (e.1 * 256 + e.2)

/-- The failing entry, a pending one where there is one, and the entry it conflicts with; 0 where there is none (R64). -/
def failPair (s : State) (es : List (Nat × Nat)) : BitVec 32 × BitVec 32 :=
  let pend (e : Nat × Nat) : Bool := s.dict.pset.any fun p => decide (p.idx.toNat = e.1) && decide (p.sub.toNat = e.2)
  let f := (es.find? pend).getD (es.headD (0, 0))
  (entryCode f, ((es.find? fun e => decide (e ≠ f)).map entryCode).getD 0)

/-- The parts of the pending set that do not apply at once (R47): the awaiting parts, and the CAN route entries, which wait for
the response only. -/
def partsOf (gen : BitVec 32) (target : Option Nat) (es : List EntryVal) : List Part :=
  let of (p : Point) : List EntryVal := es.filter fun e => decide (pointOf e = p) && (decide (p ≠ .now) || isCanRoute e)
  ([Point.idle, Point.step, Point.plan, Point.now].map fun p =>
    ({ gen := gen, point := p, target := if p = .step then target else none, entries := of p } : Part)).filter fun x => !x.entries.isEmpty

/-- Whether the target of a step part has already opened (R49). A map part may name the running step while the ledger is
ABORTING or RESTORING; and at the boundary of a planned handover that this card has been told of, one that the coordinator's own
firmware commits (route 3 of R44), since R366 has it commit its part there (log entry 38). -/
def hasOpened (a : Access) (s : State) (t : Nat) (p : Part) : Bool :=
  let now := jobRuns s && decide (t = s.led.running)
  let mapMay := isMapPart p && now &&
    (decide (s.led.st = .aborting) || decide (s.led.st = .restoring) || reopenBarred s ||
      (s.led.waiting && !s.led.reopen && s.fab.handover.isSome && s.fab.handTold && fromCoordinator a s))
  (decide (t ≤ s.led.committed) || now) && !mapMay

/-- Why a commit is refused, if it is: the abort code, and the entries in conflict. -/
def commitError (a : Access) (gen : BitVec 32) (target : Option Nat) (s : State) : Option (Nat × List (Nat × Nat)) :=
  let parts := (partsOf gen target s.dict.pset).filter fun p => decide (p.point ≠ .now)
  let past (t : Nat) : Bool := parts.any fun p => decide (p.point = .step) && hasOpened a s t p
  if foreign a s then some (abState, [])
  else if gen ≠ s.dict.gen then some (abGen, [])
  else if s.dict.pset.isEmpty then some (abState, [])
  else if target.any past then some (abState, [])
  else if 4 ≤ (gensAwaiting s).length ∧ parts.isEmpty = false then some (abState, [])
  else (crossFails s).map fun es => (abCross, es)

/-- A commit that passes: the parts, the response, and what applies just after it. With the pair IN STEP a step part is sent to
the twin, and the response waits for PACK (R350). -/
def commitApply (a : Access) (gen : BitVec 32) (target : Option Nat) (s : State) : State :=
  let es := s.dict.pset
  let parts := partsOf gen target es
  let s := clearPending s
  let s := applyEntries (es.filter fun e => decide (pointOf e = .now) && !isCanRoute e) s
  let s : State := { s with dict := { s.dict with awaiting := s.dict.awaiting ++ parts } }
  let s := beginLoad (applyIdleParts (settleGens [gen] s))
  match parts.find? fun p => decide (p.point = .step) with
  | some p =>
    if s.twin.pair = .inStep then
      toTwin (.part gen.toNat p.target p.entries) { s with dict := { s.dict with packWait := s.dict.packWait ++ [(gen, a)] } }
    else applyCan (reply a [] s)
  | none => applyCan (reply a [] s)

/-- A commit (R45): 0x2011 keeps its outcome. -/
def commitWith (a : Access) (sub : Nat) (gen : BitVec 32) (target : Option Nat) (s : State) : State :=
  let note (code : Nat) (f : BitVec 32 × BitVec 32) (s : State) : State :=
    { s with dict := { s.dict with lastRes := BitVec.ofNat 32 code, lastGen := gen, failing := f.1, conflict := f.2 } }
  match commitError a gen target s with
  | some (code, es) => refuse a 0x2010 sub code (note code (if es.isEmpty then (0, 0) else failPair s es) s)
  | none => commitApply a gen target (note 0 (0, 0) s)

/-- COMMIT (R45). -/
def execCommit (a : Access) (gen : BitVec 32) (s : State) : Res := .next (actWrite a 0x2010 1 (commitWith a 1 gen none) s)

/-- COMMIT_AT_STEP (R45, R49). -/
def execCommitAtStep (a : Access) (gen : BitVec 32) (step : BitVec 64) (s : State) : Res :=
  .next (actWrite a 0x2010 2 (commitWith a 2 gen (some step.toNat)) s)

/-- DISCARD (R43, R44). DESIGN CHOICE: a set without an owner is discarded for any source (log entry 168). -/
def execDiscard (a : Access) (gen : BitVec 32) (s : State) : Res :=
  .next (actWrite a 0x2012 4 (fun s =>
    if foreign a s then refuse a 0x2012 4 abState s
    else if gen ≠ s.dict.gen then refuse a 0x2012 4 abGen s
    else reply a [] (clearPending s)) s)

/-- PENDING_OWNER_TIMEOUT (R44). -/
def execPendingOwnerTimeout (s : State) : Res :=
  .next (if s.dict.owner.isSome then raiseOpen 0x06 noSource s.dict.gen.toNat (clearPending s) else s)

/-! ### The objects of CiA 1301 (R61, R63) -/

/-- ERROR_FIELD_CLEAR (R61). DESIGN CHOICE: the bits of 0x1001 stand until the next boot (log entry 169). -/
def execErrorFieldClear (a : Access) (v : BitVec 8) (s : State) : Res :=
  .next (actWrite a 0x1003 0 (fun s =>
    if v ≠ 0 then refuse a 0x1003 0 abRange s else reply a [] { s with dict := { s.dict with errField := [] } }) s)

/-- STORE (R63): the values in force go to flash; the response follows with STORE_DONE. -/
def execStore (a : Access) (cls : Fin 3) (sig : BitVec 32) (s : State) : Res :=
  .next (actWrite a 0x1010 (cls.val + 1) (fun s =>
    if sig ≠ 0x65766173#32 then refuse a 0x1010 (cls.val + 1) abGen s
    else { s with dict := { s.dict with storing := s.dict.storing ++ [(a, snapshotClass s cls.val)] } }) s)

/-- STORE_DONE (R63). -/
def execStoreDone (s : State) : Res := .next (finishStore s)

/-- RESTORE_DEFAULTS (R63): the stored values of the class are erased; those in force stay. -/
def execRestoreDefaults (a : Access) (cls : Fin 3) (sig : BitVec 32) (s : State) : Res :=
  .next (actWrite a 0x1011 (cls.val + 1) (fun s =>
    if sig ≠ 0x64616F6C#32 then refuse a 0x1011 (cls.val + 1) abGen s
    else reply a [] (putStored (s.dict.stored.filter fun kv => !inClass cls.val (kv.1 / 256)) s)) s)

/-! ### A write of any entry -/

/-- A write that acts as a command of its own (R35). A load of a harvest reads the host's buffer: of bytes that the request
does not carry nothing is known. -/
def specialWrite (a : Access) (idx sub : Nat) (bs : Bytes) (s : State) : Option Res :=
  let v8 := BitVec.ofNat 8 (leNat bs)
  let v16 := BitVec.ofNat 16 (leNat bs)
  match idx, sub with
  | 0x1003, 0 => some (execErrorFieldClear a v8 s)
  | 0x1010, k => if k = 0 then none else some (execStore a (Fin.ofNat 3 (k - 1)) (BitVec.ofNat 32 (leNat bs)) s)
  | 0x1011, k => if k = 0 then none else some (execRestoreDefaults a (Fin.ofNat 3 (k - 1)) (BitVec.ofNat 32 (leNat bs)) s)
  | 0x2001, 1 => some (execStartJob a v8 s)
  | 0x2001, 2 => some (execStopJob a v8 s)
  | 0x2010, 1 => some (execCommit a (BitVec.ofNat 32 (leNat bs)) s)
  | 0x2010, 2 => some (execCommitAtStep a (BitVec.ofNat 32 (leAt bs 0 4)) (BitVec.ofNat 64 (leAt bs 4 8)) s)
  | 0x2012, 4 => some (execDiscard a (BitVec.ofNat 32 (leNat bs)) s)
  | 0x2100, 1 => some (if v8 = 0 then execWakeRequest a v8 s else execSleepRequest a v8 s)
  | 0x2140, 2 => some (execIdentify a v16 s)
  | 0x2200, 6 => some (execReboot a v8 s)
  | 0x2210, 1 => some (execStageImage a (BitVec.ofNat 64 (leNat bs)) s)
  | 0x2210, 3 => some (execNextSlot a v8 s)
  | 0x2210, 4 => some (execConfirm a v8 s)
  | 0x2804, 1 => some (execHalt a v8 s)
  | 0x2804, 2 => some (execResume a v8 s)
  | 0x2A10, 1 => some (execHarvestStep a (BitVec.ofNat 64 (leNat bs)) s)
  | 0x2A10, 6 => some (execHarvestCancel a v8 s)
  | 0x2A1C, 1 =>
    if v8 = 1 ∧ s.keep.dev = .planLoaded ∧ s.led.st = .nojob then
      (let x := unknownBytes (num s 0x2A11 2) s
       some (execHarvestLoad a v8 x.2 x.1))
    else some (execHarvestLoad a v8 [] s)
  | 0x2C20, 1 => some (execRecruit a v16 s)
  | 0x2C24, 1 => some (execReplaceCard a v16 s)
  | 0x3880, 1 => some (execActivate a v8 s)
  | 0x3880, 2 => some (execRelease a v8 s)
  | _, _ => none

/-- A rw value applies at once. RETEST and AUTOCONF are held in the flash header (R434). -/
def applyNow (idx sub : Nat) (bs : Bytes) (s : State) : State :=
  match idx, sub with
  | 0x2208, 1 => writeHeader { s with boot := { s.boot with retest := decide (leNat bs = 1) } }
  | 0x2210, 5 => writeHeader { s with boot := { s.boot with autoconf := decide (leNat bs = 1) } }
  | _, _ => putVal idx sub bs s

/-- A write of an entry (R33, R35, R39): its type and length, then what the entry does with it. 0x2001 looks at the value before
any state (R296). -/
def writeEntry (a : Access) (idx sub : Nat) (bs : Bytes) (s : State) : State :=
  if idx = 0x2001 ∧ (sub = 1 ∨ sub = 2) ∧ bs.length = 1 ∧ bs ≠ [1] then jobWrite a sub (BitVec.ofNat 8 (leNat bs)) id s
  else serve a idx sub (fun s =>
    match findObj idx sub with
    | none => refuse a idx sub (if indexDefined idx then abNoSub else abNoObject) s
    | some o =>
      if o.acc = .const ∨ o.acc = .ro then refuse a idx sub abReadOnly s
      else if !lengthOk o bs then refuse a idx sub abLength s
      else match specialWrite a idx sub bs s with
        | some r => resState r s
        | none =>
          if !valueOk s o sub bs then refuse a idx sub abRange s
          else if o.acc = .rw then reply a [] (applyNow idx sub bs s)
          else stageEntry a idx sub bs s) s

/-- Whether an entry takes part in a write by complete access: it can be written, and a write of it is no command of its own. -/
def partakes (a : Access) (o : ObjDef) (sub : Nat) (s : State) : Bool :=
  (decide (o.acc = .rw) || decide (o.acc = .rwst)) && (specialWrite a o.idx sub [] s).isNone

/-- The sub-indices of an object as a complete access lays them out: each with its definition and its length. -/
def objectParts (s : State) (idx : Nat) : List (Nat × ObjDef × Nat) :=
  (List.range 256).filterMap fun sub => match findObj idx sub with
    | none => none
    | some o => if o.acc = .wo then none else some (sub, o, ((readEntry s idx sub).toOption.map List.length).getD 0)

/-- The values that a write by complete access brings to the entries that take part in it. -/
def objectValues (a : Access) (s : State) (bs : Bytes) : List (Nat × ObjDef × Nat) → List (Nat × ObjDef × Bytes)
  | [] => []
  | (sub, o, n) :: ps =>
    let rest := objectValues a s (bs.drop n) ps
    if partakes a o sub s then (sub, o, bs.take n) :: rest else rest

/-- A write of a whole object by complete access (R52): one atomic write of the values of its writable entries, laid out as a
complete read gives the object; bytes in the place of an entry that is read only, or whose write is a command, change nothing
(DESIGN CHOICE, log entry 165). The first value that is refused refuses the write. -/
def writeObject (a : Access) (idx : Nat) (bs : Bytes) (s : State) : State :=
  serve a idx 0 (fun s =>
    let ps := objectParts s idx
    let vs := objectValues a s bs ps
    let new := (vs.filter fun v => decide (v.2.1.acc = .rwst)).foldl (fun q v =>
      putPending { idx := BitVec.ofNat 16 idx, sub := BitVec.ofNat 8 v.1, val := v.2.2 } q) s.dict.pset
    let staged := vs.any fun v => decide (v.2.1.acc = .rwst)
    if !indexDefined idx then refuse a idx 0 abNoObject s
    else if vs.isEmpty && ps.all (fun x => !partakes a x.2.1 x.1 s) then refuse a idx 0 abReadOnly s
    else if bs.length ≠ (ps.map fun x => x.2.2).sum then refuse a idx 0 abLength s
    else match vs.find? fun v => !valueOk s v.2.1 v.1 v.2.2 with
      | some v => refuse a idx v.1 abRange s
      | none =>
        if staged && foreign a s then refuse a idx 0 abState s
        else if 256 < new.length ∨ 16384 < (new.map (·.val.length)).sum then refuse a idx 0 abFull s
        else
          let s := (vs.filter fun v => decide (v.2.1.acc = .rw)).foldl (fun s v => applyNow idx v.1 v.2.2 s) s
          reply a [] (if staged then { s with dict := { s.dict with pset := new, owner := some a.src } } else s)) s

/-- ENTRY_WRITE (R35). -/
def execEntryWrite (a : Access) (idx : BitVec 16) (sub : BitVec 8) (data : Bytes) (s : State) : Res :=
  .next (writeEntry a idx.toNat sub.toNat data s)

/-- AWAITING_PARTS_READ (R64). -/
def execAwaitingPartsRead (a : Access) (s : State) : Res := .next (answerRead a 0x2011 5 s)

/-! ### USDO sessions (R51, R55) -/

/-- The open sessions of a route. -/
def sessionsOf (s : State) (r : Route) : List Session := s.dict.sessions.filter fun x => decide (x.path = r)

def findSession (s : State) (r : Route) (sid : Nat) : Option Session :=
  s.dict.sessions.find? fun x => decide (x.path = r) && decide (x.sid = sid)

/-- The session ends without effect. -/
def dropSession (r : Route) (sid : Nat) (s : State) : State :=
  { s with dict := { s.dict with sessions := s.dict.sessions.filter fun x => !(decide (x.path = r) && decide (x.sid = sid)) } }

/-- A message that is not a valid request (R51). -/
def invalid (a : Access) (idx sub : Nat) (s : State) : State := if pathServes s a.path then refuse a idx sub abInvalid s else s

/-- The index and sub-index that a message names; 0 where it names none. -/
def segIndex : SegMsg → Nat
  | .write idx _ => idx.toNat
  | .read idx _ => idx.toNat
  | .more => 0
def segSub : SegMsg → Nat
  | .write _ sub => (sub.map (·.toNat)).getD 0
  | .read _ sub => (sub.map (·.toNat)).getD 0
  | .more => 0

/-- A session of a write with its bytes so far takes its next message: the last one completes the write. -/
def writeSession (a : Access) (x : Session) (last : Bool) (s : State) : State :=
  let s := dropSession a.path x.sid s
  if last then
    (match x.sub with
    | some sub => writeEntry x.acc x.idx.toNat sub.toNat x.data s
    | none => writeObject x.acc x.idx.toNat x.data s)
  else send (.usdo a []) { s with dict := { s.dict with sessions := s.dict.sessions ++ [x] } }

/-- A session of a read sends its next bytes; with the last of them it ends. -/
def readSession (a : Access) (x : Session) (s : State) : State :=
  let s := dropSession a.path x.sid s
  let n := max 1 (Config.uploadBytes (pathNum a.path))
  if x.data.length ≤ n then reply a x.data s
  else send (.usdo a (x.data.take n)) { s with dict := { s.dict with sessions := s.dict.sessions ++ [{ x with data := x.data.drop n }] } }

/-- Open a session, of which a route holds at most 8. -/
def openSession (a : Access) (idx sub : Nat) (f : State → State) (s : State) : State :=
  if 8 ≤ (sessionsOf s a.path).length then refuse a idx sub abFull s else f s

/-- A message of a segmented or block transfer. A read takes its value whole where it is initiated (R40, log entry 165). -/
def segment (a : Access) (sid : Nat) (m : SegMsg) (data : Bytes) (last : Bool) (s : State) : State :=
  match m, findSession s a.path sid with
  | .write idx sub, none =>
    openSession a idx.toNat (segSub m)
      (writeSession a { path := a.path, sid := sid, acc := a, idx := idx, sub := sub, data := data, read := false } last) s
  | .read idx sub, none =>
    openSession a idx.toNat (segSub m)
      (serveRead a idx.toNat (sub.map (·.toNat)) fun bs =>
        readSession a { path := a.path, sid := sid, acc := a, idx := idx, sub := sub, data := bs, read := true }) s
  | .write idx _, some _ => invalid a idx.toNat (segSub m) (dropSession a.path sid s)
  | .read idx _, some _ => invalid a idx.toNat (segSub m) (dropSession a.path sid s)
  | .more, some x =>
    if x.read then readSession a x s else writeSession a { x with data := x.data ++ data } last s
  | .more, none => invalid a 0 0 s

/-- USDO_SEGMENT (R55). -/
def execUsdoSegment (a : Access) (sid : Nat) (m : SegMsg) (data : Bytes) (last : Bool) (s : State) : Res :=
  .next (if pathServes s a.path then segment a sid m data last s else s)

/-- INVALID_USDO_MESSAGE (R51). -/
def execInvalidUsdoMessage (a : Access) (carried : Option (BitVec 16 × BitVec 8)) (sid : Option Nat) (s : State) : Res :=
  .next (
    if !pathServes s a.path then s
    else
      let s := match sid with
        | none => s
        | some k => dropSession a.path k s
      match carried with
      | none => refuse a 0 0 abInvalid s
      | some e => refuse a e.1.toNat e.2.toNat abInvalid s)

/-- USDO_SESSION_TIMEOUT (R55). -/
def execUsdoSessionTimeout (path : Route) (sid : Nat) (s : State) : Res :=
  .next (match findSession s path sid with
    | none => s
    | some x => refuse x.acc x.idx.toNat ((x.sub.map (·.toNat)).getD 0) abTimeout (dropSession path sid s))

/-! ### NMT (R58 to R60, R360) -/

/-- A command that is ignored and logged. -/
def nmtIgnored (c : Nat) (s : State) : State := raiseOpen 0x07 noSource c s

/-- The settings whose change ends the sessions of the CAN route (R55). -/
def canSettings (s : State) : List Nat := [num s 0x2020 1, num s 0x2021 1, num s 0x2021 2]

/-- Boot-up, with the CAN sessions ended where the settings are no longer what they were. -/
def bootUp (old : List Nat) (s : State) : State :=
  send (.heartbeat 0) (if canSettings s = old then s else endSessions .can s)

/-- Load the stored CAN route values (R59, R60). -/
def resetComm (s : State) : State :=
  let old := canSettings s
  let node := nodeId s
  let s := [(0x2020, 1), (0x2021, 1), (0x2021, 2)].foldl (fun s e => loadEntry e s) s
  bootUp old (followNode node (nodeId s) (defaultGroup 8 s))

/-- Reset node from idle (R59). -/
def resetIdle (s : State) : State :=
  let old := canSettings s
  let s := loadStored storedEntries s
  let s := clearPending { s with dict := { s.dict with
    awaiting := [], discarded := s.dict.discarded || s.dict.awaiting.any (fun p => p.target.isSome) } }
  bootUp old s

/-- A NMT command in device state boot (R60). -/
def nmtBoot (c : Nat) (s : State) : State :=
  let held := !s.boot.booting && (s.keep.tripped || s.boot.recovery || vauxOnly s)
  if c = 0x82 ∧ held = true then resetComm s
  else if c = 0x81 ∧ held = true ∧ s.keep.v48 = true then startBoot s
  else nmtIgnored c s

/-- A NMT command: with no supply nothing receives it; in boot R60 holds; a sleeping card wakes (R423). -/
def nmt (c : Nat) (f : State → State) (s : State) : State :=
  if !keeperOn s then s
  else if s.keep.dev = .boot then nmtBoot c s
  else f (if c = 0x82 then s else wake 3 s)

/-- START_REMOTE_NODE (R59). -/
def execStartRemoteNode (s : State) : Res :=
  .next (nmt 0x01 (fun s =>
    if s.keep.mirror then nmtIgnored 0x01 s
    else match s.keep.dev with
      | .planLoaded => if mayStart s then startJob s else nmtIgnored 0x01 s
      | .halted => actResume s.fab.haltSer s.fab.haltOrg s
      | .running => s
      | _ => nmtIgnored 0x01 s) s)

/-- STOP_REMOTE_NODE (R59, R335). -/
def execStopRemoteNode (s : State) : Res :=
  .next (nmt 0x02 (fun s =>
    if s.keep.mirror then nmtIgnored 0x02 s
    else match s.keep.dev with
      | .running => raiseHalt s
      | .halted => s
      | _ => nmtIgnored 0x02 s) s)

/-- ENTER_PRE_OPERATIONAL (R59, R296): from halted the uncommitted step is abandoned, with cause 8. -/
def execEnterPreOperational (s : State) : Res :=
  .next (nmt 0x80 (fun s =>
    if s.keep.mirror then nmtIgnored 0x80 s
    else match s.keep.dev with
      | .running => { s with led := { s.led with stopPend := true } }
      | .halted => reportAbort 8 0xFFFF s
      | _ => s) s)

/-- RESET_NODE (R59, R360): a card in MIRROR SERVICE discards its mirror and leaves it. -/
def execResetNode (s : State) : Res :=
  .next (nmt 0x81 (fun s =>
    if s.keep.mirror then
      let s := releasePlan s
      resetIdle { s with
        keep := { s.keep with mirror := false, dev := .idle }
        twin := { ({} : TwinSt) with sideband := s.twin.sideband } }
    else match s.keep.dev with
      | .idle => resetIdle s
      | .planLoaded => resetIdle (releasePlan s)
      | _ => nmtIgnored 0x81 s) s)

/-- RESET_COMMUNICATION (R59, R60). -/
def execResetCommunication (s : State) : Res := .next (nmt 0x82 resetComm s)

/-- The NMT state byte of a heartbeat (R58). -/
def nmtByte (d : Dev) : Nat :=
  match d with
  | .boot => 0 | .running => 0x05 | .halted => 0x04 | _ => 0x7F

/-- PRODUCER_HEARTBEAT_TIMER (R58). -/
def execProducerHeartbeatTimer (s : State) : Res :=
  .next (if num s 0x1017 0 ≠ 0 ∧ keeperOn s = true ∧ s.keep.dev ≠ .boot then send (.heartbeat (nmtByte s.keep.dev)) s else s)

/-- TPDO_EVENT_TIMER (R62). -/
def execTpdoEventTimer (n : Fin 8) (s : State) : Res :=
  .next (
    let c := 0x1800 + n.val
    if num s c 2 = 0xFF ∧ num s c 5 ≠ 0 ∧ s.keep.dev ≠ .boot then sendTpdo n.val s else s)

end Sys2Proof.Machine
end

