-- ==== Sys2Proof/Machine/Mailbox.lean ====
section
/-! DEFINITION. The mailbox (R53, R381) and the dictionary's messages on the towpath lane (R54), and late reservoir reads
(R245). -/

namespace Sys2Proof.Machine

/-! ### The mailbox (R53) -/

/-- Serve a request as USDO gives it. -/
def serveUsdo (a : Access) (m : UsdoMsg) (s : State) : State :=
  match m with
  | .read idx sub => answerRead a idx.toNat sub.toNat s
  | .readAll idx => answerAll a idx.toNat s
  | .write idx sub data => writeEntry a idx.toNat sub.toNat data s
  | .writeAll idx data => writeObject a idx.toNat data s
  | .segment sid m data last => if pathServes s a.path then segment a sid m data last s else s
  | .response _ => s
  | .abort _ => s

/-- The source of a request written into this card's MBXREQ (R44), and the access that serves it here. -/
def mbxSource (s : State) : Source := { route := .mailbox, card := BitVec.ofNat 14 (cardId s), node := 0 }
def mbxAccess (s : State) : Access := { path := .mailbox, src := mbxSource s }

/-- A request in MBXREQ: served here, or forwarded on the towpath lane. A card that cannot carry it there answers it itself. A
disabled route answers nothing (R57). -/
def mbxRequest (dst len : Nat) (m : MbxMsg) (s : State) : State :=
  let a := mbxAccess s
  let mine := decide (dst = 0xFFFF) || decide (dst = cardId s)
  let go (idx sub : Nat) (u : UsdoMsg) : State :=
    if len = 0 ∨ 64 < len then invalid a idx sub s
    else if mine then serveUsdo a u s
    else if !pathServes s .mailbox then s
    else if s.keep.dev = .boot ∨ fabricTrained s = false then refuse a idx sub abState s
    else toCardId dst (.usdo (mbxSource s) u) { s with host := { s.host with fwd := some dst } }
  match m with
  | .read idx sub => go idx.toNat sub.toNat (.read idx sub)
  | .readAll idx => go idx.toNat 0 (.readAll idx)
  | .write idx sub data => go idx.toNat sub.toNat (.write idx sub data)
  | .writeAll idx data => go idx.toNat 0 (.writeAll idx data)
  | .segment sid q data last => go (segIndex q) (segSub q) (.segment sid q data last)
  | .invalid => invalid a 0 0 s

/-- MBXCTL_DOORBELL (R53, R381): dropped while the mailbox is busy. -/
def execMbxctlDoorbell (v : W32) (m : MbxMsg) (s : State) : Res :=
  .next (
    if !barOpen s then s
    else if s.host.busy then modHost (fun h => { h with overrun := true }) s
    else mbxRequest (bits v.toNat 15 0) (bits v.toNat 22 16) m
      (modHost (fun h => { h with busy := true, respRdy := false, overrun := false, fwd := none }) s))

/-- MAILBOX_RESPONSE (R381). -/
def execMailboxResponse (card : BitVec 16) (body : Bytes) (s : State) : Res :=
  .next (
    if s.host.busy then
      raiseVec 1 (modHost (fun h => { h with
        mbxrsp := takePad 64 (body.take 64), busy := false, respRdy := true, respLen := min 64 body.length, respCard := card.toNat, fwd := none }) s)
    else s)

/-- FORWARD_TIMEOUT (R53). -/
def execForwardTimeout (s : State) : Res :=
  .next (match s.host.fwd with
    | none => s
    | some _ => refuse (mbxAccess s) 0 0 abTimeout (modHost (fun h => { h with fwd := none }) s))

/-! ### The towpath lane (R54) -/

/-- Pass the answer of another card on to this card's mailbox, unless that route is disabled (R57). -/
def passOn (s : State) (o : Out) : State := if answers s .mailbox then send o s else s

/-- An answer from another card: to the forwarded request of the mailbox, or to a request of this card's own. -/
def takeAnswer (src : Nat) (s0 : Source) (ans : Option Bytes) (code : Nat) (s : State) : State :=
  if s0.route = .mailbox ∧ s.host.fwd = some src then
    let s := modHost (fun h => { h with fwd := none }) s
    match ans with
    | some bs => passOn s (.usdo (mbxAccess s) bs)
    | none => passOn s (.usdoAbort (mbxAccess s) 0 0 code)
  else ownAnswer src ans s

/-- A dictionary message that has arrived: `s0` is the source that it carries. -/
def takeUsdo (src : Nat) (s0 : Source) (m : UsdoMsg) (s : State) : State :=
  match m with
  | .response body => takeAnswer src s0 (some body) 0 s
  | .abort code => takeAnswer src s0 none code.toNat s
  | _ => serveUsdo { path := .towpath, src := s0 } m s

/-- TOWPATH_USDO (R54, R332). -/
def execTowpathUsdo (h : TpHdr) (s0 : Source) (m : UsdoMsg) (s : State) : Res := .next (hear h 0x01 (takeUsdo h.src.toNat s0 m) s)

/-! ### Late requests (R245) -/

/-- A late read of an engine or of the ledger: beyond the limit it counts as failed (R472). -/
def engineLate (layer again : Nat) (s : State) : State :=
  if num s 0x3408 1 ≤ again then reportAbort 7 layer s else s

/-- What follows a late read at its requester; `again`: how often it has been issued again. -/
def lateAt (r : Requester) (again : Nat) (s : State) : State :=
  match r with
  | .stream unit ctx => (match ctxRuns s unit with
    | none => s
    | some p => streamLate p ctx.val s)
  | .engine layer => engineLate layer again s
  | .loss => engineLate 0xFFFF again s
  | .lookahead e =>
    if num s 0x3408 1 ≤ again ∧ s.mem.lookLate.contains e = false then
      { s with mem := { s.mem with lookLate := s.mem.lookLate ++ [e] } }
    else s
  | .window => s
  | .copy b => if 3 ≤ again then copyFails b s else s
  | .shadow k =>
    let r := mirrorRun s k
    if num s 0x3408 1 ≤ again ∧ s.twin.shadowN ≠ 0 ∧ (r.gended && !r.done && !r.bad) = true then overwrite k s else s

/-- LATE_REQUEST (R245). -/
def execLateRequest (r : Requester) (again : Nat) (s : State) : Res := .next (lateAt r again (countRun 0x3012 2 1 s))

end Sys2Proof.Machine
end

