-- ==== Sys2Proof/Machine/Dispatch.lean ====
section
/-! DEFINITION. One arm per command: a direct call of its meaning. -/

namespace Sys2Proof.Machine

def exec (i : Instr) (s : State) : Host.Outcome State Fault Refusal :=
  match i with
  -- the object dictionary and the towpath
  | .entryWrite a idx sub data => Sys2Proof.Machine.execEntryWrite a idx sub data s
  | .usdoSegment a sid m data last => Sys2Proof.Machine.execUsdoSegment a sid m data last s
  | .invalidUsdoMessage a carried sid => Sys2Proof.Machine.execInvalidUsdoMessage a carried sid s
  | .usdoSessionTimeout path sid => Sys2Proof.Machine.execUsdoSessionTimeout path sid s
  | .forwardTimeout => Sys2Proof.Machine.execForwardTimeout s
  | .commit a gen => Sys2Proof.Machine.execCommit a gen s
  | .commitAtStep a gen step => Sys2Proof.Machine.execCommitAtStep a gen step s
  | .discard a gen => Sys2Proof.Machine.execDiscard a gen s
  | .pendingOwnerTimeout => Sys2Proof.Machine.execPendingOwnerTimeout s
  | .errorFieldClear a v => Sys2Proof.Machine.execErrorFieldClear a v s
  | .store a cls sig => Sys2Proof.Machine.execStore a cls sig s
  | .storeDone => Sys2Proof.Machine.execStoreDone s
  | .restoreDefaults a cls sig => Sys2Proof.Machine.execRestoreDefaults a cls sig s
  | .startRemoteNode => Sys2Proof.Machine.execStartRemoteNode s
  | .stopRemoteNode => Sys2Proof.Machine.execStopRemoteNode s
  | .enterPreOperational => Sys2Proof.Machine.execEnterPreOperational s
  | .resetNode => Sys2Proof.Machine.execResetNode s
  | .resetCommunication => Sys2Proof.Machine.execResetCommunication s
  | .producerHeartbeatTimer => Sys2Proof.Machine.execProducerHeartbeatTimer s
  | .tpdoEventTimer n => Sys2Proof.Machine.execTpdoEventTimer n s
  -- matrix arrays
  | .ald iss rix isel => Sys2Proof.Machine.execAld iss rix isel s
  | .abc iss rix isel => Sys2Proof.Machine.execAbc iss rix isel s
  | .aps iss rix isel => Sys2Proof.Machine.execAps iss rix isel s
  | .adr iss rix isel => Sys2Proof.Machine.execAdr iss rix isel s
  | .afl iss rix isel => Sys2Proof.Machine.execAfl iss rix isel s
  | .anop iss => Sys2Proof.Machine.execAnop iss s
  | .batchRowArrival unit row tag => Sys2Proof.Machine.execBatchRowArrival unit row tag s
  | .batchWaitExpiry unit => Sys2Proof.Machine.execBatchWaitExpiry unit s
  -- vector engine
  | .fadd iss rix isel => Sys2Proof.Machine.execFadd iss rix isel s
  | .fsub iss rix isel => Sys2Proof.Machine.execFsub iss rix isel s
  | .fmul iss rix isel => Sys2Proof.Machine.execFmul iss rix isel s
  | .fma iss rix isel => Sys2Proof.Machine.execFma iss rix isel s
  | .fneg iss rix isel => Sys2Proof.Machine.execFneg iss rix isel s
  | .fabs iss rix isel => Sys2Proof.Machine.execFabs iss rix isel s
  | .fcps iss rix isel => Sys2Proof.Machine.execFcps iss rix isel s
  | .fmax iss rix isel => Sys2Proof.Machine.execFmax iss rix isel s
  | .fmin iss rix isel => Sys2Proof.Machine.execFmin iss rix isel s
  | .fcmp iss rix isel => Sys2Proof.Machine.execFcmp iss rix isel s
  | .sel iss rix isel => Sys2Proof.Machine.execSel iss rix isel s
  | .mov iss rix isel => Sys2Proof.Machine.execMov iss rix isel s
  | .iadd iss rix isel => Sys2Proof.Machine.execIadd iss rix isel s
  | .isub iss rix isel => Sys2Proof.Machine.execIsub iss rix isel s
  | .imul iss rix isel => Sys2Proof.Machine.execImul iss rix isel s
  | .shl iss rix isel => Sys2Proof.Machine.execShl iss rix isel s
  | .shr iss rix isel => Sys2Proof.Machine.execShr iss rix isel s
  | .sar iss rix isel => Sys2Proof.Machine.execSar iss rix isel s
  | .and iss rix isel => Sys2Proof.Machine.execAnd iss rix isel s
  | .or iss rix isel => Sys2Proof.Machine.execOr iss rix isel s
  | .xor iss rix isel => Sys2Proof.Machine.execXor iss rix isel s
  | .imax iss rix isel => Sys2Proof.Machine.execImax iss rix isel s
  | .imin iss rix isel => Sys2Proof.Machine.execImin iss rix isel s
  | .icmp iss rix isel => Sys2Proof.Machine.execIcmp iss rix isel s
  | .cvt iss rix isel => Sys2Proof.Machine.execCvt iss rix isel s
  | .exp2 iss rix isel => Sys2Proof.Machine.execExp2 iss rix isel s
  | .log2 iss rix isel => Sys2Proof.Machine.execLog2 iss rix isel s
  | .rcp iss rix isel => Sys2Proof.Machine.execRcp iss rix isel s
  | .rsqrt iss rix isel => Sys2Proof.Machine.execRsqrt iss rix isel s
  | .div iss rix isel => Sys2Proof.Machine.execDiv iss rix isel s
  | .sqrt iss rix isel => Sys2Proof.Machine.execSqrt iss rix isel s
  | .kand iss rix isel => Sys2Proof.Machine.execKand iss rix isel s
  | .kor iss rix isel => Sys2Proof.Machine.execKor iss rix isel s
  | .kxor iss rix isel => Sys2Proof.Machine.execKxor iss rix isel s
  | .knot iss rix isel => Sys2Proof.Machine.execKnot iss rix isel s
  | .kset iss rix isel => Sys2Proof.Machine.execKset iss rix isel s
  | .kidx iss rix isel => Sys2Proof.Machine.execKidx iss rix isel s
  | .vtag iss rix isel => Sys2Proof.Machine.execVtag iss rix isel s
  -- reduction unit
  | .rsum iss rix isel => Sys2Proof.Machine.execRsum iss rix isel s
  | .rssum iss rix isel => Sys2Proof.Machine.execRssum iss rix isel s
  | .rmax iss rix isel => Sys2Proof.Machine.execRmax iss rix isel s
  | .rmin iss rix isel => Sys2Proof.Machine.execRmin iss rix isel s
  | .rarg iss rix isel => Sys2Proof.Machine.execRarg iss rix isel s
  | .rsmax iss rix isel => Sys2Proof.Machine.execRsmax iss rix isel s
  | .rsmin iss rix isel => Sys2Proof.Machine.execRsmin iss rix isel s
  | .rsarg iss rix isel => Sys2Proof.Machine.execRsarg iss rix isel s
  | .raddraw iss rix isel => Sys2Proof.Machine.execRaddraw iss rix isel s
  | .rrd iss rix isel => Sys2Proof.Machine.execRrd iss rix isel s
  | .rclr iss rix isel => Sys2Proof.Machine.execRclr iss rix isel s
  | .rtag iss rix isel => Sys2Proof.Machine.execRtag iss rix isel s
  -- scalar cores
  | .scalarInstruction unit core => Sys2Proof.Machine.execScalarInstruction unit core s
  | .mbxoutWrite unit core v => Sys2Proof.Machine.execMbxoutWrite unit core v s
  | .mbxinRead unit core rd => Sys2Proof.Machine.execMbxinRead unit core rd s
  | .chmarkWrite unit core v => Sys2Proof.Machine.execChmarkWrite unit core v s
  -- streams
  | .sarm iss ctx desc => Sys2Proof.Machine.execSarm iss ctx desc s
  | .srearm iss ctx field src hold => Sys2Proof.Machine.execSrearm iss ctx field src hold s
  | .sstop iss ctx => Sys2Proof.Machine.execSstop iss ctx s
  | .swait iss ctx => Sys2Proof.Machine.execSwait iss ctx s
  | .cmark iss ch isel => Sys2Proof.Machine.execCmark iss ch isel s
  | .crel iss ch isel => Sys2Proof.Machine.execCrel iss ch isel s
  | .streamBurst unit ctx => Sys2Proof.Machine.execStreamBurst unit ctx s
  | .memoryRequestComplete unit ctx ecc => Sys2Proof.Machine.execMemoryRequestComplete unit ctx ecc s
  | .lockBreak unit pool => Sys2Proof.Machine.execLockBreak unit pool s
  -- sequencer: gates, registers, branches, mailboxes, naps
  | .garr iss g => Sys2Proof.Machine.execGarr iss g s
  | .gwait iss g => Sys2Proof.Machine.execGwait iss g s
  | .gsync iss g => Sys2Proof.Machine.execGsync iss g s
  | .lset iss l v => Sys2Proof.Machine.execLset iss l v s
  | .ladd iss l v => Sys2Proof.Machine.execLadd iss l v s
  | .iset iss r v => Sys2Proof.Machine.execIset iss r v s
  | .iaddi iss r v => Sys2Proof.Machine.execIaddi iss r v s
  | .ixor iss r v => Sys2Proof.Machine.execIxor iss r v s
  | .ilen iss r ch => Sys2Proof.Machine.execIlen iss r ch s
  | .hset iss h rix => Sys2Proof.Machine.execHset iss h rix s
  | .br iss target => Sys2Proof.Machine.execBr iss target s
  | .bcnz iss l target => Sys2Proof.Machine.execBcnz iss l target s
  | .bcond iss c target invert => Sys2Proof.Machine.execBcond iss c target invert s
  | .srecv iss core r => Sys2Proof.Machine.execSrecv iss core r s
  | .ssend iss core r => Sys2Proof.Machine.execSsend iss core r s
  | .bwait iss => Sys2Proof.Machine.execBwait iss s
  | .nap iss array vec window => Sys2Proof.Machine.execNap iss array vec window s
  | .wake iss array vec => Sys2Proof.Machine.execWake iss array vec s
  | .quiet iss => Sys2Proof.Machine.execQuiet iss s
  | .stepend iss t => Sys2Proof.Machine.execStepend iss t s
  | .sequencerWatchdog unit => Sys2Proof.Machine.execSequencerWatchdog unit s
  | .gateLimitExpiry unit => Sys2Proof.Machine.execGateLimitExpiry unit s
  | .unitFault p kind => Sys2Proof.Machine.execUnitFault p kind s
  -- the plan image
  | .activate a area => Sys2Proof.Machine.execActivate a area s
  | .activationDone => Sys2Proof.Machine.execActivationDone s
  | .release a v => Sys2Proof.Machine.execRelease a v s
  -- basin, reservoir and barges
  | .promote barge lookahead => Sys2Proof.Machine.execPromote barge lookahead s
  | .evict barge => Sys2Proof.Machine.execEvict barge s
  | .copyDone barge => Sys2Proof.Machine.execCopyDone barge s
  | .copyFailed barge ecc => Sys2Proof.Machine.execCopyFailed barge ecc s
  | .lateRequest r again => Sys2Proof.Machine.execLateRequest r again s
  | .reservoirGroupFailure g => Sys2Proof.Machine.execReservoirGroupFailure g s
  | .patrolScrubRead w f => Sys2Proof.Machine.execPatrolScrubRead w f s
  -- the update engine and the step ledger
  | .layerCheckDone layer ecc => Sys2Proof.Machine.execLayerCheckDone layer ecc s
  | .updateStageStart layer => Sys2Proof.Machine.execUpdateStageStart layer s
  | .updatePieceDone layer tensor piece ecc => Sys2Proof.Machine.execUpdatePieceDone layer tensor piece ecc s
  | .refreshPass => Sys2Proof.Machine.execRefreshPass s
  | .cardReady => Sys2Proof.Machine.execCardReady s
  | .readyMessage h card step attempt => Sys2Proof.Machine.execReadyMessage h card step attempt s
  | .commitMessage h step attempt => Sys2Proof.Machine.execCommitMessage h step attempt s
  | .stepOpen => Sys2Proof.Machine.execStepOpen s
  | .abortReport h step attempt cause card layer lost => Sys2Proof.Machine.execAbortReport h step attempt cause card layer lost s
  | .abortMessage h step attempt cause card layer action => Sys2Proof.Machine.execAbortMessage h step attempt cause card layer action s
  | .enginesStopped => Sys2Proof.Machine.execEnginesStopped s
  | .normMessage h card step attempt sumA l hold => Sys2Proof.Machine.execNormMessage h card step attempt sumA l hold s
  | .applyMessage h step attempt cs => Sys2Proof.Machine.execApplyMessage h step attempt cs s
  | .startJob a v => Sys2Proof.Machine.execStartJob a v s
  | .stopJob a v => Sys2Proof.Machine.execStopJob a v s
  -- fabric, collectives and the towpath lane
  | .portTrained p lanes peer => Sys2Proof.Machine.execPortTrained p lanes peer s
  | .lossOfLock p => Sys2Proof.Machine.execLossOfLock p s
  | .retrainDone p => Sys2Proof.Machine.execRetrainDone p s
  | .retrainTimeout p => Sys2Proof.Machine.execRetrainTimeout p s
  | .nullFlit p f => Sys2Proof.Machine.execNullFlit p f s
  | .writeFlit p f => Sys2Proof.Machine.execWriteFlit p f s
  | .readRequest p f ecc => Sys2Proof.Machine.execReadRequest p f ecc s
  | .readResponse p f => Sys2Proof.Machine.execReadResponse p f s
  | .writeAcknowledge p f => Sys2Proof.Machine.execWriteAcknowledge p f s
  | .linkControl p f peer => Sys2Proof.Machine.execLinkControl p f peer s
  | .multicastData p f => Sys2Proof.Machine.execMulticastData p f s
  | .detachMessage p tree root src len landed => Sys2Proof.Machine.execDetachMessage p tree root src len landed s
  | .remoteRequestTimeout txn => Sys2Proof.Machine.execRemoteRequestTimeout txn s
  | .towpathUsdo h who m => Sys2Proof.Machine.execTowpathUsdo h who m s
  | .gateArrival h g => Sys2Proof.Machine.execGateArrival h g s
  | .gateRelease h g => Sys2Proof.Machine.execGateRelease h g s
  | .treeEdgeConfirmation h tree parent child confirmed => Sys2Proof.Machine.execTreeEdgeConfirmation h tree parent child confirmed s
  | .heartbeatMessage h => Sys2Proof.Machine.execHeartbeatMessage h s
  | .fabricHeartbeatTimer => Sys2Proof.Machine.execFabricHeartbeatTimer s
  | .suspicionTimeout card => Sys2Proof.Machine.execSuspicionTimeout card s
  | .suspect h card => Sys2Proof.Machine.execSuspect h card s
  | .probe h => Sys2Proof.Machine.execProbe h s
  | .probeAnswer h => Sys2Proof.Machine.execProbeAnswer h s
  | .probeTimeout card => Sys2Proof.Machine.execProbeTimeout card s
  | .halt a v => Sys2Proof.Machine.execHalt a v s
  | .haltMessage h serial origin => Sys2Proof.Machine.execHaltMessage h serial origin s
  | .resume a v => Sys2Proof.Machine.execResume a v s
  | .resumeMessage h serial origin => Sys2Proof.Machine.execResumeMessage h serial origin s
  -- twins, spares, replay and harvest
  | .pairTimer => Sys2Proof.Machine.execPairTimer s
  | .pair m => Sys2Proof.Machine.execPair m s
  | .seed addr data => Sys2Proof.Machine.execSeed addr data s
  | .seedEnd committed digests boundary block => Sys2Proof.Machine.execSeedEnd committed digests boundary block s
  | .seedOk => Sys2Proof.Machine.execSeedOk s
  | .image off data last => Sys2Proof.Machine.execImage off data last s
  | .input step off data => Sys2Proof.Machine.execInput step off data s
  | .grad step layer off data => Sys2Proof.Machine.execGrad step layer off data s
  | .gend step layer n cs dg ds => Sys2Proof.Machine.execGend step layer n cs dg ds s
  | .gack step layer ok => Sys2Proof.Machine.execGack step layer ok s
  | .stepm step m => Sys2Proof.Machine.execStepm step m s
  | .sack step => Sys2Proof.Machine.execSack step s
  | .part gen target entries => Sys2Proof.Machine.execPart gen target entries s
  | .pack gen => Sys2Proof.Machine.execPack gen s
  | .shadowLayerDone layer ecc => Sys2Proof.Machine.execShadowLayerDone layer ecc s
  | .sdone step escalated => Sys2Proof.Machine.execSdone step escalated s
  | .discardMessage step => Sys2Proof.Machine.execDiscardMessage step s
  | .pull w => Sys2Proof.Machine.execPull w s
  | .data w bytes reference => Sys2Proof.Machine.execData w bytes reference s
  | .digreq layer => Sys2Proof.Machine.execDigreq layer s
  | .digrsp layer stored gradDig => Sys2Proof.Machine.execDigrsp layer stored gradDig s
  | .hb p => Sys2Proof.Machine.execHb p s
  | .twinHbTimer => Sys2Proof.Machine.execTwinHbTimer s
  | .twinLinkLost fabricAlive => Sys2Proof.Machine.execTwinLinkLost fabricAlive s
  | .unpair => Sys2Proof.Machine.execUnpair s
  | .sidebandTimeout => Sys2Proof.Machine.execSidebandTimeout s
  | .cardLevelFault => Sys2Proof.Machine.execCardLevelFault s
  | .recruit a f => Sys2Proof.Machine.execRecruit a f s
  | .replaceCard a f => Sys2Proof.Machine.execReplaceCard a f s
  | .plannedHandover => Sys2Proof.Machine.execPlannedHandover s
  | .harvestStep a t => Sys2Proof.Machine.execHarvestStep a t s
  | .harvestComplete => Sys2Proof.Machine.execHarvestComplete s
  | .harvestCancel a v => Sys2Proof.Machine.execHarvestCancel a v s
  | .harvestLoad a v buffer => Sys2Proof.Machine.execHarvestLoad a v buffer s
  -- the host link
  | .mbxctlDoorbell v m => Sys2Proof.Machine.execMbxctlDoorbell v m s
  | .mailboxResponse card body => Sys2Proof.Machine.execMailboxResponse card body s
  | .registerWrite w => Sys2Proof.Machine.execRegisterWrite w s
  | .winbaseWrite w => Sys2Proof.Machine.execWinbaseWrite w s
  | .windowOpenSnapshot => Sys2Proof.Machine.execWindowOpenSnapshot s
  | .windowCloseSnapshot => Sys2Proof.Machine.execWindowCloseSnapshot s
  | .windowRead off n ecc => Sys2Proof.Machine.execWindowRead off n ecc s
  | .windowWrite off data => Sys2Proof.Machine.execWindowWrite off data s
  | .windowReadTimeout n => Sys2Proof.Machine.execWindowReadTimeout n s
  | .cqtailWrite v => Sys2Proof.Machine.execCqtailWrite v s
  | .noOpCommand entry => Sys2Proof.Machine.execNoOpCommand entry s
  | .hostToDevice entry data hostError => Sys2Proof.Machine.execHostToDevice entry data hostError s
  | .deviceToHost entry ecc => Sys2Proof.Machine.execDeviceToHost entry ecc s
  | .fence entry => Sys2Proof.Machine.execFence entry s
  | .flagOnly entry => Sys2Proof.Machine.execFlagOnly entry s
  | .commandComplete => Sys2Proof.Machine.execCommandComplete s
  | .ringputWrite v => Sys2Proof.Machine.execRingputWrite v s
  | .hostseqWrite v => Sys2Proof.Machine.execHostseqWrite v s
  | .outboundWrite => Sys2Proof.Machine.execOutboundWrite s
  | .evpopRead off n => Sys2Proof.Machine.execEvpopRead off n s
  | .dataLinkDown => Sys2Proof.Machine.execDataLinkDown s
  | .perst => Sys2Proof.Machine.execPerst s
  | .hotReset => Sys2Proof.Machine.execHotReset s
  | .flr => Sys2Proof.Machine.execFlr s
  | .linkReturn speed width flitMode cfg => Sys2Proof.Machine.execLinkReturn speed width flitMode cfg s
  | .pciPowerStateChange d3hot cfg => Sys2Proof.Machine.execPciPowerStateChange d3hot cfg s
  -- keeper, clocks and power
  | .sensorSample r => Sys2Proof.Machine.execSensorSample r s
  | .thermalTrip x reading => Sys2Proof.Machine.execThermalTrip x reading s
  | .powerAverage watts => Sys2Proof.Machine.execPowerAverage watts s
  | .idleEvaluation => Sys2Proof.Machine.execIdleEvaluation s
  | .sleepRequest a v => Sys2Proof.Machine.execSleepRequest a v s
  | .wakeRequest a v => Sys2Proof.Machine.execWakeRequest a v s
  | .autoSleepTimer => Sys2Proof.Machine.execAutoSleepTimer s
  | .wakeIn => Sys2Proof.Machine.execWakeIn s
  | .memoryWakeHoldExpiry => Sys2Proof.Machine.execMemoryWakeHoldExpiry s
  | .v48Loss volts => Sys2Proof.Machine.execV48Loss volts s
  | .v48Return volts => Sys2Proof.Machine.execV48Return volts s
  | .presentOpen => Sys2Proof.Machine.execPresentOpen s
  | .presentClose => Sys2Proof.Machine.execPresentClose s
  -- boot, flash and trust
  | .bootPhaseDone phase r => Sys2Proof.Machine.execBootPhaseDone phase r s
  | .bootWatchdog => Sys2Proof.Machine.execBootWatchdog s
  | .reboot a v => Sys2Proof.Machine.execReboot a v s
  | .stageImage a addr => Sys2Proof.Machine.execStageImage a addr s
  | .stagingDone o => Sys2Proof.Machine.execStagingDone o s
  | .nextSlot a v => Sys2Proof.Machine.execNextSlot a v s
  | .confirm a v => Sys2Proof.Machine.execConfirm a v s
  | .attestationReport a => Sys2Proof.Machine.execAttestationReport a s
  | .testDraw a => Sys2Proof.Machine.execTestDraw a s
  -- the card
  | .identify a v => Sys2Proof.Machine.execIdentify a v s
  | .identifyExpiry => Sys2Proof.Machine.execIdentifyExpiry s
  | .vauxReturn => Sys2Proof.Machine.execVauxReturn s
  | .vauxLoss => Sys2Proof.Machine.execVauxLoss s
  | .cablePresenceChange n present => Sys2Proof.Machine.execCablePresenceChange n present s
  | .hbRxEdge => Sys2Proof.Machine.execHbRxEdge s
  | .limitCrossing x reading => Sys2Proof.Machine.execLimitCrossing x reading s
  | .awaitingPartsRead a => Sys2Proof.Machine.execAwaitingPartsRead a s

end Sys2Proof.Machine
end

