-- ==== Sys2Proof/Laws/Sparse.lean ====
section
/-! SUPPORT. Sparse maps: read after write, and that every operation keeps the canonical form. -/

namespace Sys2Proof.Machine

variable {α : Type}

/-! ### Reads -/

@[simp] theorem Sparse.get_nil (d : α) (a : Nat) : Sparse.get d [] a = d := rfl

theorem Sparse.get_cons (d v : α) (m : Sparse α) (k b : Nat) :
    Sparse.get d ((k, v) :: m) b = if k = b then v else Sparse.get d m b := rfl

theorem Sparse.get_ins (d x : α) (m : Sparse α) (a b : Nat) :
    Sparse.get d (Sparse.ins a x m) b = if a = b then x else Sparse.get d m b := by
  induction m with
  | nil => rfl
  | cons kv m ih =>
    obtain ⟨k, v⟩ := kv
    by_cases h1 : a < k
    · rw [ins, if_pos h1, get_cons]
    · by_cases h2 : a = k
      · subst h2
        rw [ins, if_neg h1, if_pos rfl, get_cons, get_cons]
        by_cases h : a = b <;> simp [h]
      · rw [ins, if_neg h1, if_neg h2, get_cons, get_cons, ih]
        by_cases h : k = b
        · subst h; simp [h2]
        · simp [h]

theorem Sparse.get_filter (d : α) (m : Sparse α) (p : Nat → Bool) (b : Nat) :
    Sparse.get d (m.filter fun kv => p kv.1) b = if p b then Sparse.get d m b else d := by
  induction m with
  | nil => simp
  | cons kv m ih =>
    obtain ⟨k, v⟩ := kv
    by_cases h : p k <;> by_cases hk : k = b
    · subst hk; simp [List.filter_cons, h, get_cons]
    · simp [List.filter_cons, h, get_cons, ih, hk]
    · subst hk; simp [List.filter_cons, h, ih]
    · simp [List.filter_cons, h, get_cons, ih, hk]

theorem Sparse.get_del (d : α) (m : Sparse α) (a b : Nat) :
    Sparse.get d (Sparse.del a m) b = if b = a then d else Sparse.get d m b := by
  have := Sparse.get_filter d m (fun k => decide (k ≠ a)) b
  simp only [del]; rw [this]; by_cases h : b = a <;> simp [h]

theorem Sparse.get_set [DecidableEq α] (d x : α) (m : Sparse α) (a b : Nat) :
    Sparse.get d (Sparse.set d m a x) b = if b = a then x else Sparse.get d m b := by
  unfold set; split
  · next h => rw [get_del, h]
  · rw [get_ins]; simp only [eq_comm]

@[simp] theorem Sparse.get_set_self [DecidableEq α] (d x : α) (m : Sparse α) (a : Nat) :
    Sparse.get d (Sparse.set d m a x) a = x := by simp [get_set]

theorem Sparse.get_set_ne [DecidableEq α] (d x : α) (m : Sparse α) {a b : Nat} (h : b ≠ a) :
    Sparse.get d (Sparse.set d m a x) b = Sparse.get d m b := by simp [get_set, h]

theorem Sparse.get_modify [DecidableEq α] (d : α) (m : Sparse α) (a b : Nat) (f : α → α) :
    Sparse.get d (Sparse.modify d m a f) b = if b = a then f (Sparse.get d m a) else Sparse.get d m b := by
  simp [modify, get_set]

theorem Sparse.get_clearRange (d : α) (m : Sparse α) (lo n b : Nat) :
    Sparse.get d (Sparse.clearRange m lo n) b = if lo ≤ b ∧ b < lo + n then d else Sparse.get d m b := by
  have := Sparse.get_filter d m (fun k => decide (k < lo) || decide (lo + n ≤ k)) b
  simp only [clearRange]; rw [this]
  by_cases h1 : b < lo <;> by_cases h2 : lo + n ≤ b <;> simp [h1, h2] <;> omega

/-- Consecutive writes leave every key outside their range alone. -/
theorem Sparse.get_setMany_outside [DecidableEq α] (d : α) (xs : List α) :
    ∀ (m : Sparse α) (a b : Nat), (b < a ∨ a + xs.length ≤ b) →
      Sparse.get d (Sparse.setMany d m a xs) b = Sparse.get d m b := by
  induction xs with
  | nil => intro m a b _; rfl
  | cons x xs ih =>
    intro m a b h
    simp only [List.length_cons] at h
    have hb : b ≠ a := by omega
    simp only [setMany]
    rw [ih _ _ _ (by omega), get_set_ne d x m hb]

/-- Consecutive writes put each value at its key. -/
theorem Sparse.get_setMany_inside [DecidableEq α] (d : α) (xs : List α) :
    ∀ (m : Sparse α) (a i : Nat) (h : i < xs.length), Sparse.get d (Sparse.setMany d m a xs) (a + i) = xs[i] := by
  induction xs with
  | nil => intro m a i h; simp at h
  | cons x xs ih =>
    intro m a i h
    simp only [setMany]
    cases i with
    | zero => rw [get_setMany_outside d xs _ _ _ (by omega)]; simp
    | succ i => rw [show a + (i + 1) = (a + 1) + i by omega, ih _ _ _ (by simpa using h)]; rfl

/-! ### The canonical form -/

/-- The canonical form as a proposition: keys strictly rising, no default listed. -/
theorem Sparse.risesFrom_iff (m : Sparse α) : ∀ b : Option Nat,
    Sparse.risesFrom b m = true ↔ (∀ x ∈ b, ∀ kv ∈ m, x < kv.1) ∧ m.Pairwise fun p q => p.1 < q.1 := by
  induction m with
  | nil => intro b; simp [risesFrom]
  | cons kv m ih =>
    intro b
    obtain ⟨k, v⟩ := kv
    simp only [risesFrom, Bool.and_eq_true, ih, List.pairwise_cons, List.mem_cons, forall_eq_or_imp, Option.mem_def,
      Option.some.injEq, forall_eq']
    cases b with
    | none => simp
    | some b =>
      simp only [decide_eq_true_eq, Option.some.injEq, forall_eq']
      constructor
      · rintro ⟨h, h1, h2⟩; exact ⟨⟨h, fun x hx => lt_trans h (h1 x hx)⟩, h1, h2⟩
      · rintro ⟨⟨h, _⟩, h1, h2⟩; exact ⟨h, h1, h2⟩

theorem Sparse.wf_iff [DecidableEq α] (d : α) (m : Sparse α) :
    Sparse.wf d m = true ↔ (m.Pairwise fun p q => p.1 < q.1) ∧ ∀ kv ∈ m, kv.2 ≠ d := by
  simp [wf, risesFrom_iff]

@[simp] theorem Sparse.wf_nil [DecidableEq α] (d : α) : Sparse.wf d ([] : Sparse α) = true := rfl

theorem Sparse.wf_filter [DecidableEq α] (d : α) (m : Sparse α) (p : Nat × α → Bool) (h : Sparse.wf d m = true) :
    Sparse.wf d (m.filter p) = true := by
  rw [wf_iff] at *
  exact ⟨h.1.filter _, fun kv hk => h.2 kv (List.mem_of_mem_filter hk)⟩

theorem Sparse.mem_ins (x : α) (a : Nat) (m : Sparse α) : ∀ kv ∈ Sparse.ins a x m, kv = (a, x) ∨ kv ∈ m := by
  induction m with
  | nil => simp [ins]
  | cons p m ih =>
    obtain ⟨k, v⟩ := p
    intro kv h
    simp only [ins] at h
    split at h
    · simpa using h
    · split at h
      · simp only [List.mem_cons] at h ⊢; tauto
      · simp only [List.mem_cons] at h ⊢; rcases h with h | h
        · exact .inr (.inl h)
        · rcases ih kv h with h | h <;> tauto

theorem Sparse.pairwise_ins (x : α) (a : Nat) (m : Sparse α) (h : m.Pairwise fun p q => p.1 < q.1) :
    (Sparse.ins a x m).Pairwise fun p q => p.1 < q.1 := by
  induction m with
  | nil => simp [ins]
  | cons p m ih =>
    obtain ⟨k, v⟩ := p
    rw [List.pairwise_cons] at h
    simp only [ins]
    split
    · rw [List.pairwise_cons]
      refine ⟨fun q hq => ?_, List.pairwise_cons.mpr h⟩
      rcases List.mem_cons.mp hq with rfl | hq
      · assumption
      · exact lt_trans (by assumption) (h.1 q hq)
    · split
      · next h2 => subst h2; exact List.pairwise_cons.mpr ⟨fun q hq => h.1 q hq, h.2⟩
      · rw [List.pairwise_cons]
        refine ⟨fun q hq => ?_, ih h.2⟩
        rcases mem_ins x a m q hq with rfl | hq
        · show k < a; omega
        · exact h.1 q hq

theorem Sparse.wf_set [DecidableEq α] (d x : α) (m : Sparse α) (a : Nat) (h : Sparse.wf d m = true) :
    Sparse.wf d (Sparse.set d m a x) = true := by
  unfold set; split
  · exact wf_filter d m _ h
  · next hx =>
    rw [wf_iff] at *
    refine ⟨pairwise_ins x a m h.1, fun kv hk => ?_⟩
    rcases mem_ins x a m kv hk with rfl | hk
    · exact hx
    · exact h.2 kv hk

theorem Sparse.wf_modify [DecidableEq α] (d : α) (m : Sparse α) (a : Nat) (f : α → α) (h : Sparse.wf d m = true) :
    Sparse.wf d (Sparse.modify d m a f) = true := wf_set d _ m a h

theorem Sparse.wf_clearRange [DecidableEq α] (d : α) (m : Sparse α) (lo n : Nat) (h : Sparse.wf d m = true) :
    Sparse.wf d (Sparse.clearRange m lo n) = true := wf_filter d m _ h

theorem Sparse.wf_blit [DecidableEq α] (d : α) (src : Sparse α) (dst : Nat) : ∀ m : Sparse α, Sparse.wf d m = true →
    Sparse.wf d (Sparse.blit d m dst src) = true := by
  unfold blit
  induction src with
  | nil => intro m h; exact h
  | cons kv src ih => intro m h; exact ih _ (wf_set d _ m _ h)

theorem Sparse.wf_copyRange [DecidableEq α] (d : α) (m : Sparse α) (src dst n : Nat) (h : Sparse.wf d m = true) :
    Sparse.wf d (Sparse.copyRange d m src dst n) = true := wf_blit d _ dst _ (wf_clearRange d m dst n h)

theorem Sparse.wf_setMany [DecidableEq α] (d : α) (xs : List α) : ∀ (m : Sparse α) (a : Nat), Sparse.wf d m = true →
    Sparse.wf d (Sparse.setMany d m a xs) = true := by
  induction xs with
  | nil => intro m a h; exact h
  | cons x xs ih => intro m a h; exact ih _ _ (wf_set d x m a h)

end Sys2Proof.Machine
end

