-- ==== Sys2Proof/Laws/State.lean ====
section
/-! SUPPORT. The updates of the state: one lemma per field and update, so that no proof unfolds a record update. -/

namespace Sys2Proof.Machine

variable (s : State)

/-! ### `send` -/

@[simp] theorem send_pending (o : Out) : (send o s).pending = s.pending := rfl
@[simp] theorem send_out (o : Out) : (send o s).out = s.out ++ [o] := rfl
@[simp] theorem send_strap (o : Out) : (send o s).strap = s.strap := rfl
@[simp] theorem send_dict (o : Out) : (send o s).dict = s.dict := rfl
@[simp] theorem send_stat (o : Out) : (send o s).stat = s.stat := rfl
@[simp] theorem send_units (o : Out) : (send o s).units = s.units := rfl
@[simp] theorem send_gates (o : Out) : (send o s).gates = s.gates := rfl
@[simp] theorem send_plan (o : Out) : (send o s).plan = s.plan := rfl
@[simp] theorem send_mem (o : Out) : (send o s).mem = s.mem := rfl
@[simp] theorem send_led (o : Out) : (send o s).led = s.led := rfl
@[simp] theorem send_fab (o : Out) : (send o s).fab = s.fab := rfl
@[simp] theorem send_twin (o : Out) : (send o s).twin = s.twin := rfl
@[simp] theorem send_harv (o : Out) : (send o s).harv = s.harv := rfl
@[simp] theorem send_host (o : Out) : (send o s).host = s.host := rfl
@[simp] theorem send_keep (o : Out) : (send o s).keep = s.keep := rfl
@[simp] theorem send_boot (o : Out) : (send o s).boot = s.boot := rfl
@[simp] theorem send_free (o : Out) : (send o s).free = s.free := rfl

/-! ### `putVal` -/

@[simp] theorem putVal_pending (idx sub : Nat) (bs : Bytes) : (putVal idx sub bs s).pending = s.pending := rfl
@[simp] theorem putVal_out (idx sub : Nat) (bs : Bytes) : (putVal idx sub bs s).out = s.out := rfl
@[simp] theorem putVal_strap (idx sub : Nat) (bs : Bytes) : (putVal idx sub bs s).strap = s.strap := rfl
@[simp] theorem putVal_dict (idx sub : Nat) (bs : Bytes) : (putVal idx sub bs s).dict = { s.dict with vals := Sparse.set none s.dict.vals (ekey idx sub) (some bs) } := rfl
@[simp] theorem putVal_stat (idx sub : Nat) (bs : Bytes) : (putVal idx sub bs s).stat = s.stat := rfl
@[simp] theorem putVal_units (idx sub : Nat) (bs : Bytes) : (putVal idx sub bs s).units = s.units := rfl
@[simp] theorem putVal_gates (idx sub : Nat) (bs : Bytes) : (putVal idx sub bs s).gates = s.gates := rfl
@[simp] theorem putVal_plan (idx sub : Nat) (bs : Bytes) : (putVal idx sub bs s).plan = s.plan := rfl
@[simp] theorem putVal_mem (idx sub : Nat) (bs : Bytes) : (putVal idx sub bs s).mem = s.mem := rfl
@[simp] theorem putVal_led (idx sub : Nat) (bs : Bytes) : (putVal idx sub bs s).led = s.led := rfl
@[simp] theorem putVal_fab (idx sub : Nat) (bs : Bytes) : (putVal idx sub bs s).fab = s.fab := rfl
@[simp] theorem putVal_twin (idx sub : Nat) (bs : Bytes) : (putVal idx sub bs s).twin = s.twin := rfl
@[simp] theorem putVal_harv (idx sub : Nat) (bs : Bytes) : (putVal idx sub bs s).harv = s.harv := rfl
@[simp] theorem putVal_host (idx sub : Nat) (bs : Bytes) : (putVal idx sub bs s).host = s.host := rfl
@[simp] theorem putVal_keep (idx sub : Nat) (bs : Bytes) : (putVal idx sub bs s).keep = s.keep := rfl
@[simp] theorem putVal_boot (idx sub : Nat) (bs : Bytes) : (putVal idx sub bs s).boot = s.boot := rfl
@[simp] theorem putVal_free (idx sub : Nat) (bs : Bytes) : (putVal idx sub bs s).free = s.free := rfl

/-! ### `countBoot` -/

@[simp] theorem countBoot_pending (idx sub n : Nat) : (countBoot idx sub n s).pending = s.pending := rfl
@[simp] theorem countBoot_out (idx sub n : Nat) : (countBoot idx sub n s).out = s.out := rfl
@[simp] theorem countBoot_strap (idx sub n : Nat) : (countBoot idx sub n s).strap = s.strap := rfl
@[simp] theorem countBoot_dict (idx sub n : Nat) : (countBoot idx sub n s).dict = s.dict := rfl
@[simp] theorem countBoot_stat (idx sub n : Nat) : (countBoot idx sub n s).stat = { s.stat with boot := Sparse.modify 0 s.stat.boot (ekey idx sub) (· + n) } := rfl
@[simp] theorem countBoot_units (idx sub n : Nat) : (countBoot idx sub n s).units = s.units := rfl
@[simp] theorem countBoot_gates (idx sub n : Nat) : (countBoot idx sub n s).gates = s.gates := rfl
@[simp] theorem countBoot_plan (idx sub n : Nat) : (countBoot idx sub n s).plan = s.plan := rfl
@[simp] theorem countBoot_mem (idx sub n : Nat) : (countBoot idx sub n s).mem = s.mem := rfl
@[simp] theorem countBoot_led (idx sub n : Nat) : (countBoot idx sub n s).led = s.led := rfl
@[simp] theorem countBoot_fab (idx sub n : Nat) : (countBoot idx sub n s).fab = s.fab := rfl
@[simp] theorem countBoot_twin (idx sub n : Nat) : (countBoot idx sub n s).twin = s.twin := rfl
@[simp] theorem countBoot_harv (idx sub n : Nat) : (countBoot idx sub n s).harv = s.harv := rfl
@[simp] theorem countBoot_host (idx sub n : Nat) : (countBoot idx sub n s).host = s.host := rfl
@[simp] theorem countBoot_keep (idx sub n : Nat) : (countBoot idx sub n s).keep = s.keep := rfl
@[simp] theorem countBoot_boot (idx sub n : Nat) : (countBoot idx sub n s).boot = s.boot := rfl
@[simp] theorem countBoot_free (idx sub n : Nat) : (countBoot idx sub n s).free = s.free := rfl

/-! ### `countRun` -/

@[simp] theorem countRun_pending (idx sub n : Nat) : (countRun idx sub n s).pending = s.pending := rfl
@[simp] theorem countRun_out (idx sub n : Nat) : (countRun idx sub n s).out = s.out := rfl
@[simp] theorem countRun_strap (idx sub n : Nat) : (countRun idx sub n s).strap = s.strap := rfl
@[simp] theorem countRun_dict (idx sub n : Nat) : (countRun idx sub n s).dict = s.dict := rfl
@[simp] theorem countRun_stat (idx sub n : Nat) : (countRun idx sub n s).stat = { s.stat with run := Sparse.modify 0 s.stat.run (ekey idx sub) (· + n) } := rfl
@[simp] theorem countRun_units (idx sub n : Nat) : (countRun idx sub n s).units = s.units := rfl
@[simp] theorem countRun_gates (idx sub n : Nat) : (countRun idx sub n s).gates = s.gates := rfl
@[simp] theorem countRun_plan (idx sub n : Nat) : (countRun idx sub n s).plan = s.plan := rfl
@[simp] theorem countRun_mem (idx sub n : Nat) : (countRun idx sub n s).mem = s.mem := rfl
@[simp] theorem countRun_led (idx sub n : Nat) : (countRun idx sub n s).led = s.led := rfl
@[simp] theorem countRun_fab (idx sub n : Nat) : (countRun idx sub n s).fab = s.fab := rfl
@[simp] theorem countRun_twin (idx sub n : Nat) : (countRun idx sub n s).twin = s.twin := rfl
@[simp] theorem countRun_harv (idx sub n : Nat) : (countRun idx sub n s).harv = s.harv := rfl
@[simp] theorem countRun_host (idx sub n : Nat) : (countRun idx sub n s).host = s.host := rfl
@[simp] theorem countRun_keep (idx sub n : Nat) : (countRun idx sub n s).keep = s.keep := rfl
@[simp] theorem countRun_boot (idx sub n : Nat) : (countRun idx sub n s).boot = s.boot := rfl
@[simp] theorem countRun_free (idx sub n : Nat) : (countRun idx sub n s).free = s.free := rfl

/-! ### `maxRun` -/

@[simp] theorem maxRun_pending (idx sub n : Nat) : (maxRun idx sub n s).pending = s.pending := rfl
@[simp] theorem maxRun_out (idx sub n : Nat) : (maxRun idx sub n s).out = s.out := rfl
@[simp] theorem maxRun_strap (idx sub n : Nat) : (maxRun idx sub n s).strap = s.strap := rfl
@[simp] theorem maxRun_dict (idx sub n : Nat) : (maxRun idx sub n s).dict = s.dict := rfl
@[simp] theorem maxRun_stat (idx sub n : Nat) : (maxRun idx sub n s).stat = { s.stat with run := Sparse.modify 0 s.stat.run (ekey idx sub) (fun v => max v n) } := rfl
@[simp] theorem maxRun_units (idx sub n : Nat) : (maxRun idx sub n s).units = s.units := rfl
@[simp] theorem maxRun_gates (idx sub n : Nat) : (maxRun idx sub n s).gates = s.gates := rfl
@[simp] theorem maxRun_plan (idx sub n : Nat) : (maxRun idx sub n s).plan = s.plan := rfl
@[simp] theorem maxRun_mem (idx sub n : Nat) : (maxRun idx sub n s).mem = s.mem := rfl
@[simp] theorem maxRun_led (idx sub n : Nat) : (maxRun idx sub n s).led = s.led := rfl
@[simp] theorem maxRun_fab (idx sub n : Nat) : (maxRun idx sub n s).fab = s.fab := rfl
@[simp] theorem maxRun_twin (idx sub n : Nat) : (maxRun idx sub n s).twin = s.twin := rfl
@[simp] theorem maxRun_harv (idx sub n : Nat) : (maxRun idx sub n s).harv = s.harv := rfl
@[simp] theorem maxRun_host (idx sub n : Nat) : (maxRun idx sub n s).host = s.host := rfl
@[simp] theorem maxRun_keep (idx sub n : Nat) : (maxRun idx sub n s).keep = s.keep := rfl
@[simp] theorem maxRun_boot (idx sub n : Nat) : (maxRun idx sub n s).boot = s.boot := rfl
@[simp] theorem maxRun_free (idx sub n : Nat) : (maxRun idx sub n s).free = s.free := rfl

/-! ### `enterError` -/

@[simp] theorem enterError_pending (b code detail : Nat) : (enterError b code detail s).pending = s.pending := rfl
@[simp] theorem enterError_out (b code detail : Nat) : (enterError b code detail s).out = s.out := rfl
@[simp] theorem enterError_strap (b code detail : Nat) : (enterError b code detail s).strap = s.strap := rfl
@[simp] theorem enterError_stat (b code detail : Nat) : (enterError b code detail s).stat = s.stat := rfl
@[simp] theorem enterError_units (b code detail : Nat) : (enterError b code detail s).units = s.units := rfl
@[simp] theorem enterError_gates (b code detail : Nat) : (enterError b code detail s).gates = s.gates := rfl
@[simp] theorem enterError_plan (b code detail : Nat) : (enterError b code detail s).plan = s.plan := rfl
@[simp] theorem enterError_mem (b code detail : Nat) : (enterError b code detail s).mem = s.mem := rfl
@[simp] theorem enterError_led (b code detail : Nat) : (enterError b code detail s).led = s.led := rfl
@[simp] theorem enterError_fab (b code detail : Nat) : (enterError b code detail s).fab = s.fab := rfl
@[simp] theorem enterError_twin (b code detail : Nat) : (enterError b code detail s).twin = s.twin := rfl
@[simp] theorem enterError_harv (b code detail : Nat) : (enterError b code detail s).harv = s.harv := rfl
@[simp] theorem enterError_host (b code detail : Nat) : (enterError b code detail s).host = s.host := rfl
@[simp] theorem enterError_keep (b code detail : Nat) : (enterError b code detail s).keep = s.keep := rfl
@[simp] theorem enterError_boot (b code detail : Nat) : (enterError b code detail s).boot = s.boot := rfl
@[simp] theorem enterError_free (b code detail : Nat) : (enterError b code detail s).free = s.free := rfl

/-! ### `logEvent` -/

@[simp] theorem logEvent_pending (e : Event) : (logEvent e s).pending = s.pending := rfl
@[simp] theorem logEvent_out (e : Event) : (logEvent e s).out = s.out := rfl
@[simp] theorem logEvent_strap (e : Event) : (logEvent e s).strap = s.strap := rfl
@[simp] theorem logEvent_dict (e : Event) : (logEvent e s).dict = s.dict := rfl
@[simp] theorem logEvent_stat (e : Event) : (logEvent e s).stat = s.stat := rfl
@[simp] theorem logEvent_units (e : Event) : (logEvent e s).units = s.units := rfl
@[simp] theorem logEvent_gates (e : Event) : (logEvent e s).gates = s.gates := rfl
@[simp] theorem logEvent_plan (e : Event) : (logEvent e s).plan = s.plan := rfl
@[simp] theorem logEvent_mem (e : Event) : (logEvent e s).mem = s.mem := rfl
@[simp] theorem logEvent_led (e : Event) : (logEvent e s).led = s.led := rfl
@[simp] theorem logEvent_fab (e : Event) : (logEvent e s).fab = s.fab := rfl
@[simp] theorem logEvent_twin (e : Event) : (logEvent e s).twin = s.twin := rfl
@[simp] theorem logEvent_harv (e : Event) : (logEvent e s).harv = s.harv := rfl
@[simp] theorem logEvent_host (e : Event) : (logEvent e s).host = s.host := rfl
@[simp] theorem logEvent_keep (e : Event) : (logEvent e s).keep = s.keep := rfl
@[simp] theorem logEvent_free (e : Event) : (logEvent e s).free = s.free := rfl

/-! ### `setUnit` -/

@[simp] theorem setUnit_pending (p : Nat) (u : UnitSt) : (setUnit p u s).pending = s.pending := rfl
@[simp] theorem setUnit_out (p : Nat) (u : UnitSt) : (setUnit p u s).out = s.out := rfl
@[simp] theorem setUnit_strap (p : Nat) (u : UnitSt) : (setUnit p u s).strap = s.strap := rfl
@[simp] theorem setUnit_dict (p : Nat) (u : UnitSt) : (setUnit p u s).dict = s.dict := rfl
@[simp] theorem setUnit_stat (p : Nat) (u : UnitSt) : (setUnit p u s).stat = s.stat := rfl
@[simp] theorem setUnit_units (p : Nat) (u : UnitSt) : (setUnit p u s).units = { s.units with phys := Sparse.set {} s.units.phys p u } := rfl
@[simp] theorem setUnit_gates (p : Nat) (u : UnitSt) : (setUnit p u s).gates = s.gates := rfl
@[simp] theorem setUnit_plan (p : Nat) (u : UnitSt) : (setUnit p u s).plan = s.plan := rfl
@[simp] theorem setUnit_mem (p : Nat) (u : UnitSt) : (setUnit p u s).mem = s.mem := rfl
@[simp] theorem setUnit_led (p : Nat) (u : UnitSt) : (setUnit p u s).led = s.led := rfl
@[simp] theorem setUnit_fab (p : Nat) (u : UnitSt) : (setUnit p u s).fab = s.fab := rfl
@[simp] theorem setUnit_twin (p : Nat) (u : UnitSt) : (setUnit p u s).twin = s.twin := rfl
@[simp] theorem setUnit_harv (p : Nat) (u : UnitSt) : (setUnit p u s).harv = s.harv := rfl
@[simp] theorem setUnit_host (p : Nat) (u : UnitSt) : (setUnit p u s).host = s.host := rfl
@[simp] theorem setUnit_keep (p : Nat) (u : UnitSt) : (setUnit p u s).keep = s.keep := rfl
@[simp] theorem setUnit_boot (p : Nat) (u : UnitSt) : (setUnit p u s).boot = s.boot := rfl
@[simp] theorem setUnit_free (p : Nat) (u : UnitSt) : (setUnit p u s).free = s.free := rfl

/-! ### `modUnit` -/

@[simp] theorem modUnit_pending (p : Nat) (f : UnitSt → UnitSt) : (modUnit p f s).pending = s.pending := rfl
@[simp] theorem modUnit_out (p : Nat) (f : UnitSt → UnitSt) : (modUnit p f s).out = s.out := rfl
@[simp] theorem modUnit_strap (p : Nat) (f : UnitSt → UnitSt) : (modUnit p f s).strap = s.strap := rfl
@[simp] theorem modUnit_dict (p : Nat) (f : UnitSt → UnitSt) : (modUnit p f s).dict = s.dict := rfl
@[simp] theorem modUnit_stat (p : Nat) (f : UnitSt → UnitSt) : (modUnit p f s).stat = s.stat := rfl
@[simp] theorem modUnit_units (p : Nat) (f : UnitSt → UnitSt) : (modUnit p f s).units = { s.units with phys := Sparse.set {} s.units.phys p (f (getUnit s p)) } := rfl
@[simp] theorem modUnit_gates (p : Nat) (f : UnitSt → UnitSt) : (modUnit p f s).gates = s.gates := rfl
@[simp] theorem modUnit_plan (p : Nat) (f : UnitSt → UnitSt) : (modUnit p f s).plan = s.plan := rfl
@[simp] theorem modUnit_mem (p : Nat) (f : UnitSt → UnitSt) : (modUnit p f s).mem = s.mem := rfl
@[simp] theorem modUnit_led (p : Nat) (f : UnitSt → UnitSt) : (modUnit p f s).led = s.led := rfl
@[simp] theorem modUnit_fab (p : Nat) (f : UnitSt → UnitSt) : (modUnit p f s).fab = s.fab := rfl
@[simp] theorem modUnit_twin (p : Nat) (f : UnitSt → UnitSt) : (modUnit p f s).twin = s.twin := rfl
@[simp] theorem modUnit_harv (p : Nat) (f : UnitSt → UnitSt) : (modUnit p f s).harv = s.harv := rfl
@[simp] theorem modUnit_host (p : Nat) (f : UnitSt → UnitSt) : (modUnit p f s).host = s.host := rfl
@[simp] theorem modUnit_keep (p : Nat) (f : UnitSt → UnitSt) : (modUnit p f s).keep = s.keep := rfl
@[simp] theorem modUnit_boot (p : Nat) (f : UnitSt → UnitSt) : (modUnit p f s).boot = s.boot := rfl
@[simp] theorem modUnit_free (p : Nat) (f : UnitSt → UnitSt) : (modUnit p f s).free = s.free := rfl

/-! ### `chargeTally` -/

@[simp] theorem chargeTally_pending (tag : Nat) (c : Tally) : (chargeTally tag c s).pending = s.pending := rfl
@[simp] theorem chargeTally_out (tag : Nat) (c : Tally) : (chargeTally tag c s).out = s.out := rfl
@[simp] theorem chargeTally_strap (tag : Nat) (c : Tally) : (chargeTally tag c s).strap = s.strap := rfl
@[simp] theorem chargeTally_dict (tag : Nat) (c : Tally) : (chargeTally tag c s).dict = s.dict := rfl
@[simp] theorem chargeTally_units (tag : Nat) (c : Tally) : (chargeTally tag c s).units = s.units := rfl
@[simp] theorem chargeTally_gates (tag : Nat) (c : Tally) : (chargeTally tag c s).gates = s.gates := rfl
@[simp] theorem chargeTally_plan (tag : Nat) (c : Tally) : (chargeTally tag c s).plan = s.plan := rfl
@[simp] theorem chargeTally_mem (tag : Nat) (c : Tally) : (chargeTally tag c s).mem = s.mem := rfl
@[simp] theorem chargeTally_led (tag : Nat) (c : Tally) : (chargeTally tag c s).led = s.led := rfl
@[simp] theorem chargeTally_fab (tag : Nat) (c : Tally) : (chargeTally tag c s).fab = s.fab := rfl
@[simp] theorem chargeTally_twin (tag : Nat) (c : Tally) : (chargeTally tag c s).twin = s.twin := rfl
@[simp] theorem chargeTally_harv (tag : Nat) (c : Tally) : (chargeTally tag c s).harv = s.harv := rfl
@[simp] theorem chargeTally_host (tag : Nat) (c : Tally) : (chargeTally tag c s).host = s.host := rfl
@[simp] theorem chargeTally_keep (tag : Nat) (c : Tally) : (chargeTally tag c s).keep = s.keep := rfl
@[simp] theorem chargeTally_boot (tag : Nat) (c : Tally) : (chargeTally tag c s).boot = s.boot := rfl
@[simp] theorem chargeTally_free (tag : Nat) (c : Tally) : (chargeTally tag c s).free = s.free := rfl

/-! ### `clearPending` -/

@[simp] theorem clearPending_pending : (clearPending s).pending = s.pending := rfl
@[simp] theorem clearPending_out : (clearPending s).out = s.out := rfl
@[simp] theorem clearPending_strap : (clearPending s).strap = s.strap := rfl
@[simp] theorem clearPending_dict : (clearPending s).dict = { s.dict with pset := [], owner := none, gen := BitVec.ofNat 32 (nextGen s.dict.gen.toNat) } := rfl
@[simp] theorem clearPending_stat : (clearPending s).stat = s.stat := rfl
@[simp] theorem clearPending_units : (clearPending s).units = s.units := rfl
@[simp] theorem clearPending_gates : (clearPending s).gates = s.gates := rfl
@[simp] theorem clearPending_plan : (clearPending s).plan = s.plan := rfl
@[simp] theorem clearPending_mem : (clearPending s).mem = s.mem := rfl
@[simp] theorem clearPending_led : (clearPending s).led = s.led := rfl
@[simp] theorem clearPending_fab : (clearPending s).fab = s.fab := rfl
@[simp] theorem clearPending_twin : (clearPending s).twin = s.twin := rfl
@[simp] theorem clearPending_harv : (clearPending s).harv = s.harv := rfl
@[simp] theorem clearPending_host : (clearPending s).host = s.host := rfl
@[simp] theorem clearPending_keep : (clearPending s).keep = s.keep := rfl
@[simp] theorem clearPending_boot : (clearPending s).boot = s.boot := rfl
@[simp] theorem clearPending_free : (clearPending s).free = s.free := rfl

/-! ### `writeHeader` -/

@[simp] theorem writeHeader_pending : (writeHeader s).pending = s.pending := rfl
@[simp] theorem writeHeader_out : (writeHeader s).out = s.out ++ [.flashWrite 0] := rfl
@[simp] theorem writeHeader_strap : (writeHeader s).strap = s.strap := rfl
@[simp] theorem writeHeader_dict : (writeHeader s).dict = s.dict := rfl
@[simp] theorem writeHeader_stat : (writeHeader s).stat = s.stat := rfl
@[simp] theorem writeHeader_units : (writeHeader s).units = s.units := rfl
@[simp] theorem writeHeader_gates : (writeHeader s).gates = s.gates := rfl
@[simp] theorem writeHeader_plan : (writeHeader s).plan = s.plan := rfl
@[simp] theorem writeHeader_mem : (writeHeader s).mem = s.mem := rfl
@[simp] theorem writeHeader_led : (writeHeader s).led = s.led := rfl
@[simp] theorem writeHeader_fab : (writeHeader s).fab = s.fab := rfl
@[simp] theorem writeHeader_twin : (writeHeader s).twin = s.twin := rfl
@[simp] theorem writeHeader_harv : (writeHeader s).harv = s.harv := rfl
@[simp] theorem writeHeader_host : (writeHeader s).host = s.host := rfl
@[simp] theorem writeHeader_keep : (writeHeader s).keep = s.keep := rfl
@[simp] theorem writeHeader_boot : (writeHeader s).boot = { s.boot with
      headGen := nextGen s.boot.headGen,
      flash := { s.boot.flash with heads := putCopy (·.gen) (headNow s (nextGen s.boot.headGen)) s.boot.flash.heads } } := rfl
@[simp] theorem writeHeader_free : (writeHeader s).free = s.free := rfl

/-! ### `putStored` -/

@[simp] theorem putStored_pending (v : Sparse (Option Bytes)) : (putStored v s).pending = s.pending := rfl
@[simp] theorem putStored_out (v : Sparse (Option Bytes)) : (putStored v s).out = s.out ++ [.flashWrite 2] := rfl
@[simp] theorem putStored_strap (v : Sparse (Option Bytes)) : (putStored v s).strap = s.strap := rfl
@[simp] theorem putStored_dict (v : Sparse (Option Bytes)) : (putStored v s).dict = { s.dict with stored := v } := rfl
@[simp] theorem putStored_stat (v : Sparse (Option Bytes)) : (putStored v s).stat = s.stat := rfl
@[simp] theorem putStored_units (v : Sparse (Option Bytes)) : (putStored v s).units = s.units := rfl
@[simp] theorem putStored_gates (v : Sparse (Option Bytes)) : (putStored v s).gates = s.gates := rfl
@[simp] theorem putStored_plan (v : Sparse (Option Bytes)) : (putStored v s).plan = s.plan := rfl
@[simp] theorem putStored_mem (v : Sparse (Option Bytes)) : (putStored v s).mem = s.mem := rfl
@[simp] theorem putStored_led (v : Sparse (Option Bytes)) : (putStored v s).led = s.led := rfl
@[simp] theorem putStored_fab (v : Sparse (Option Bytes)) : (putStored v s).fab = s.fab := rfl
@[simp] theorem putStored_twin (v : Sparse (Option Bytes)) : (putStored v s).twin = s.twin := rfl
@[simp] theorem putStored_harv (v : Sparse (Option Bytes)) : (putStored v s).harv = s.harv := rfl
@[simp] theorem putStored_host (v : Sparse (Option Bytes)) : (putStored v s).host = s.host := rfl
@[simp] theorem putStored_keep (v : Sparse (Option Bytes)) : (putStored v s).keep = s.keep := rfl
@[simp] theorem putStored_free (v : Sparse (Option Bytes)) : (putStored v s).free = s.free := rfl

/-! ### `noteSeen` -/

@[simp] theorem noteSeen_pending (src msgid : Nat) : (noteSeen src msgid s).pending = s.pending := rfl
@[simp] theorem noteSeen_out (src msgid : Nat) : (noteSeen src msgid s).out = s.out := rfl
@[simp] theorem noteSeen_strap (src msgid : Nat) : (noteSeen src msgid s).strap = s.strap := rfl
@[simp] theorem noteSeen_dict (src msgid : Nat) : (noteSeen src msgid s).dict = s.dict := rfl
@[simp] theorem noteSeen_stat (src msgid : Nat) : (noteSeen src msgid s).stat = s.stat := rfl
@[simp] theorem noteSeen_units (src msgid : Nat) : (noteSeen src msgid s).units = s.units := rfl
@[simp] theorem noteSeen_gates (src msgid : Nat) : (noteSeen src msgid s).gates = s.gates := rfl
@[simp] theorem noteSeen_plan (src msgid : Nat) : (noteSeen src msgid s).plan = s.plan := rfl
@[simp] theorem noteSeen_mem (src msgid : Nat) : (noteSeen src msgid s).mem = s.mem := rfl
@[simp] theorem noteSeen_led (src msgid : Nat) : (noteSeen src msgid s).led = s.led := rfl
@[simp] theorem noteSeen_fab (src msgid : Nat) : (noteSeen src msgid s).fab = { s.fab with seen := s.fab.seen ++ [(src, msgid)] } := rfl
@[simp] theorem noteSeen_twin (src msgid : Nat) : (noteSeen src msgid s).twin = s.twin := rfl
@[simp] theorem noteSeen_harv (src msgid : Nat) : (noteSeen src msgid s).harv = s.harv := rfl
@[simp] theorem noteSeen_host (src msgid : Nat) : (noteSeen src msgid s).host = s.host := rfl
@[simp] theorem noteSeen_keep (src msgid : Nat) : (noteSeen src msgid s).keep = s.keep := rfl
@[simp] theorem noteSeen_boot (src msgid : Nat) : (noteSeen src msgid s).boot = s.boot := rfl
@[simp] theorem noteSeen_free (src msgid : Nat) : (noteSeen src msgid s).free = s.free := rfl

/-! ### `oweCredit` -/

@[simp] theorem oweCredit_pending (p vl : Nat) (f : Nat → Nat) : (oweCredit p vl f s).pending = s.pending := rfl
@[simp] theorem oweCredit_out (p vl : Nat) (f : Nat → Nat) : (oweCredit p vl f s).out = s.out := rfl
@[simp] theorem oweCredit_strap (p vl : Nat) (f : Nat → Nat) : (oweCredit p vl f s).strap = s.strap := rfl
@[simp] theorem oweCredit_dict (p vl : Nat) (f : Nat → Nat) : (oweCredit p vl f s).dict = s.dict := rfl
@[simp] theorem oweCredit_stat (p vl : Nat) (f : Nat → Nat) : (oweCredit p vl f s).stat = s.stat := rfl
@[simp] theorem oweCredit_units (p vl : Nat) (f : Nat → Nat) : (oweCredit p vl f s).units = s.units := rfl
@[simp] theorem oweCredit_gates (p vl : Nat) (f : Nat → Nat) : (oweCredit p vl f s).gates = s.gates := rfl
@[simp] theorem oweCredit_plan (p vl : Nat) (f : Nat → Nat) : (oweCredit p vl f s).plan = s.plan := rfl
@[simp] theorem oweCredit_mem (p vl : Nat) (f : Nat → Nat) : (oweCredit p vl f s).mem = s.mem := rfl
@[simp] theorem oweCredit_led (p vl : Nat) (f : Nat → Nat) : (oweCredit p vl f s).led = s.led := rfl
@[simp] theorem oweCredit_twin (p vl : Nat) (f : Nat → Nat) : (oweCredit p vl f s).twin = s.twin := rfl
@[simp] theorem oweCredit_harv (p vl : Nat) (f : Nat → Nat) : (oweCredit p vl f s).harv = s.harv := rfl
@[simp] theorem oweCredit_host (p vl : Nat) (f : Nat → Nat) : (oweCredit p vl f s).host = s.host := rfl
@[simp] theorem oweCredit_keep (p vl : Nat) (f : Nat → Nat) : (oweCredit p vl f s).keep = s.keep := rfl
@[simp] theorem oweCredit_boot (p vl : Nat) (f : Nat → Nat) : (oweCredit p vl f s).boot = s.boot := rfl
@[simp] theorem oweCredit_free (p vl : Nat) (f : Nat → Nat) : (oweCredit p vl f s).free = s.free := rfl

/-! ### `unitsOff` -/

@[simp] theorem unitsOff_pending : (unitsOff s).pending = s.pending := rfl
@[simp] theorem unitsOff_out : (unitsOff s).out = s.out := rfl
@[simp] theorem unitsOff_strap : (unitsOff s).strap = s.strap := rfl
@[simp] theorem unitsOff_dict : (unitsOff s).dict = s.dict := rfl
@[simp] theorem unitsOff_stat : (unitsOff s).stat = s.stat := rfl
@[simp] theorem unitsOff_units : (unitsOff s).units = { s.units with phys := [] } := rfl
@[simp] theorem unitsOff_gates : (unitsOff s).gates = [] := rfl
@[simp] theorem unitsOff_plan : (unitsOff s).plan = s.plan := rfl
@[simp] theorem unitsOff_mem : (unitsOff s).mem = s.mem := rfl
@[simp] theorem unitsOff_led : (unitsOff s).led = s.led := rfl
@[simp] theorem unitsOff_fab : (unitsOff s).fab = s.fab := rfl
@[simp] theorem unitsOff_twin : (unitsOff s).twin = s.twin := rfl
@[simp] theorem unitsOff_harv : (unitsOff s).harv = s.harv := rfl
@[simp] theorem unitsOff_host : (unitsOff s).host = s.host := rfl
@[simp] theorem unitsOff_keep : (unitsOff s).keep = s.keep := rfl
@[simp] theorem unitsOff_boot : (unitsOff s).boot = s.boot := rfl
@[simp] theorem unitsOff_free : (unitsOff s).free = s.free := rfl

/-! ### `setBarge` -/

@[simp] theorem setBarge_pending (b : Nat) (e : BargeEnt) : (setBarge b e s).pending = s.pending := rfl
@[simp] theorem setBarge_out (b : Nat) (e : BargeEnt) : (setBarge b e s).out = s.out := rfl
@[simp] theorem setBarge_strap (b : Nat) (e : BargeEnt) : (setBarge b e s).strap = s.strap := rfl
@[simp] theorem setBarge_dict (b : Nat) (e : BargeEnt) : (setBarge b e s).dict = s.dict := rfl
@[simp] theorem setBarge_stat (b : Nat) (e : BargeEnt) : (setBarge b e s).stat = s.stat := rfl
@[simp] theorem setBarge_units (b : Nat) (e : BargeEnt) : (setBarge b e s).units = s.units := rfl
@[simp] theorem setBarge_gates (b : Nat) (e : BargeEnt) : (setBarge b e s).gates = s.gates := rfl
@[simp] theorem setBarge_plan (b : Nat) (e : BargeEnt) : (setBarge b e s).plan = s.plan := rfl
@[simp] theorem setBarge_mem (b : Nat) (e : BargeEnt) : (setBarge b e s).mem = { s.mem with barges := Sparse.set {} s.mem.barges b e } := rfl
@[simp] theorem setBarge_led (b : Nat) (e : BargeEnt) : (setBarge b e s).led = s.led := rfl
@[simp] theorem setBarge_fab (b : Nat) (e : BargeEnt) : (setBarge b e s).fab = s.fab := rfl
@[simp] theorem setBarge_twin (b : Nat) (e : BargeEnt) : (setBarge b e s).twin = s.twin := rfl
@[simp] theorem setBarge_harv (b : Nat) (e : BargeEnt) : (setBarge b e s).harv = s.harv := rfl
@[simp] theorem setBarge_host (b : Nat) (e : BargeEnt) : (setBarge b e s).host = s.host := rfl
@[simp] theorem setBarge_keep (b : Nat) (e : BargeEnt) : (setBarge b e s).keep = s.keep := rfl
@[simp] theorem setBarge_boot (b : Nat) (e : BargeEnt) : (setBarge b e s).boot = s.boot := rfl
@[simp] theorem setBarge_free (b : Nat) (e : BargeEnt) : (setBarge b e s).free = s.free := rfl

/-! ### `setSnap` -/

@[simp] theorem setSnap_pending (k : Nat) (x : Snap) : (setSnap k x s).pending = s.pending := rfl
@[simp] theorem setSnap_out (k : Nat) (x : Snap) : (setSnap k x s).out = s.out := rfl
@[simp] theorem setSnap_strap (k : Nat) (x : Snap) : (setSnap k x s).strap = s.strap := rfl
@[simp] theorem setSnap_dict (k : Nat) (x : Snap) : (setSnap k x s).dict = s.dict := rfl
@[simp] theorem setSnap_stat (k : Nat) (x : Snap) : (setSnap k x s).stat = s.stat := rfl
@[simp] theorem setSnap_units (k : Nat) (x : Snap) : (setSnap k x s).units = s.units := rfl
@[simp] theorem setSnap_gates (k : Nat) (x : Snap) : (setSnap k x s).gates = s.gates := rfl
@[simp] theorem setSnap_plan (k : Nat) (x : Snap) : (setSnap k x s).plan = s.plan := rfl
@[simp] theorem setSnap_mem (k : Nat) (x : Snap) : (setSnap k x s).mem = { s.mem with snaps := Sparse.set {} s.mem.snaps k x } := rfl
@[simp] theorem setSnap_led (k : Nat) (x : Snap) : (setSnap k x s).led = s.led := rfl
@[simp] theorem setSnap_fab (k : Nat) (x : Snap) : (setSnap k x s).fab = s.fab := rfl
@[simp] theorem setSnap_twin (k : Nat) (x : Snap) : (setSnap k x s).twin = s.twin := rfl
@[simp] theorem setSnap_harv (k : Nat) (x : Snap) : (setSnap k x s).harv = s.harv := rfl
@[simp] theorem setSnap_host (k : Nat) (x : Snap) : (setSnap k x s).host = s.host := rfl
@[simp] theorem setSnap_keep (k : Nat) (x : Snap) : (setSnap k x s).keep = s.keep := rfl
@[simp] theorem setSnap_boot (k : Nat) (x : Snap) : (setSnap k x s).boot = s.boot := rfl
@[simp] theorem setSnap_free (k : Nat) (x : Snap) : (setSnap k x s).free = s.free := rfl

/-! ### `storeByte` -/

@[simp] theorem storeByte_pending (addr : Nat) (b : Byte) : (storeByte s addr b).pending = s.pending := rfl
@[simp] theorem storeByte_out (addr : Nat) (b : Byte) : (storeByte s addr b).out = s.out := rfl
@[simp] theorem storeByte_strap (addr : Nat) (b : Byte) : (storeByte s addr b).strap = s.strap := rfl
@[simp] theorem storeByte_dict (addr : Nat) (b : Byte) : (storeByte s addr b).dict = s.dict := rfl
@[simp] theorem storeByte_stat (addr : Nat) (b : Byte) : (storeByte s addr b).stat = s.stat := rfl
@[simp] theorem storeByte_units (addr : Nat) (b : Byte) : (storeByte s addr b).units = s.units := rfl
@[simp] theorem storeByte_gates (addr : Nat) (b : Byte) : (storeByte s addr b).gates = s.gates := rfl
@[simp] theorem storeByte_plan (addr : Nat) (b : Byte) : (storeByte s addr b).plan = s.plan := rfl
@[simp] theorem storeByte_led (addr : Nat) (b : Byte) : (storeByte s addr b).led = s.led := rfl
@[simp] theorem storeByte_fab (addr : Nat) (b : Byte) : (storeByte s addr b).fab = s.fab := rfl
@[simp] theorem storeByte_twin (addr : Nat) (b : Byte) : (storeByte s addr b).twin = s.twin := rfl
@[simp] theorem storeByte_harv (addr : Nat) (b : Byte) : (storeByte s addr b).harv = s.harv := rfl
@[simp] theorem storeByte_host (addr : Nat) (b : Byte) : (storeByte s addr b).host = s.host := rfl
@[simp] theorem storeByte_keep (addr : Nat) (b : Byte) : (storeByte s addr b).keep = s.keep := rfl
@[simp] theorem storeByte_boot (addr : Nat) (b : Byte) : (storeByte s addr b).boot = s.boot := rfl
@[simp] theorem storeByte_free (addr : Nat) (b : Byte) : (storeByte s addr b).free = s.free := rfl

/-! ### `setGate` -/

@[simp] theorem setGate_pending (k : Nat) (g : GateSt) : (setGate k g s).pending = s.pending := rfl
@[simp] theorem setGate_out (k : Nat) (g : GateSt) : (setGate k g s).out = s.out := rfl
@[simp] theorem setGate_strap (k : Nat) (g : GateSt) : (setGate k g s).strap = s.strap := rfl
@[simp] theorem setGate_dict (k : Nat) (g : GateSt) : (setGate k g s).dict = s.dict := rfl
@[simp] theorem setGate_stat (k : Nat) (g : GateSt) : (setGate k g s).stat = s.stat := rfl
@[simp] theorem setGate_units (k : Nat) (g : GateSt) : (setGate k g s).units = s.units := rfl
@[simp] theorem setGate_gates (k : Nat) (g : GateSt) : (setGate k g s).gates = Sparse.set {} s.gates k g := rfl
@[simp] theorem setGate_plan (k : Nat) (g : GateSt) : (setGate k g s).plan = s.plan := rfl
@[simp] theorem setGate_mem (k : Nat) (g : GateSt) : (setGate k g s).mem = s.mem := rfl
@[simp] theorem setGate_led (k : Nat) (g : GateSt) : (setGate k g s).led = s.led := rfl
@[simp] theorem setGate_fab (k : Nat) (g : GateSt) : (setGate k g s).fab = s.fab := rfl
@[simp] theorem setGate_twin (k : Nat) (g : GateSt) : (setGate k g s).twin = s.twin := rfl
@[simp] theorem setGate_harv (k : Nat) (g : GateSt) : (setGate k g s).harv = s.harv := rfl
@[simp] theorem setGate_host (k : Nat) (g : GateSt) : (setGate k g s).host = s.host := rfl
@[simp] theorem setGate_keep (k : Nat) (g : GateSt) : (setGate k g s).keep = s.keep := rfl
@[simp] theorem setGate_boot (k : Nat) (g : GateSt) : (setGate k g s).boot = s.boot := rfl
@[simp] theorem setGate_free (k : Nat) (g : GateSt) : (setGate k g s).free = s.free := rfl

/-! ### `setPort` -/

@[simp] theorem setPort_pending (p : Nat) (x : PortSt) : (setPort p x s).pending = s.pending := rfl
@[simp] theorem setPort_out (p : Nat) (x : PortSt) : (setPort p x s).out = s.out := rfl
@[simp] theorem setPort_strap (p : Nat) (x : PortSt) : (setPort p x s).strap = s.strap := rfl
@[simp] theorem setPort_dict (p : Nat) (x : PortSt) : (setPort p x s).dict = s.dict := rfl
@[simp] theorem setPort_stat (p : Nat) (x : PortSt) : (setPort p x s).stat = s.stat := rfl
@[simp] theorem setPort_units (p : Nat) (x : PortSt) : (setPort p x s).units = s.units := rfl
@[simp] theorem setPort_gates (p : Nat) (x : PortSt) : (setPort p x s).gates = s.gates := rfl
@[simp] theorem setPort_plan (p : Nat) (x : PortSt) : (setPort p x s).plan = s.plan := rfl
@[simp] theorem setPort_mem (p : Nat) (x : PortSt) : (setPort p x s).mem = s.mem := rfl
@[simp] theorem setPort_led (p : Nat) (x : PortSt) : (setPort p x s).led = s.led := rfl
@[simp] theorem setPort_fab (p : Nat) (x : PortSt) : (setPort p x s).fab = { s.fab with ports := Sparse.set {} s.fab.ports p x } := rfl
@[simp] theorem setPort_twin (p : Nat) (x : PortSt) : (setPort p x s).twin = s.twin := rfl
@[simp] theorem setPort_harv (p : Nat) (x : PortSt) : (setPort p x s).harv = s.harv := rfl
@[simp] theorem setPort_host (p : Nat) (x : PortSt) : (setPort p x s).host = s.host := rfl
@[simp] theorem setPort_keep (p : Nat) (x : PortSt) : (setPort p x s).keep = s.keep := rfl
@[simp] theorem setPort_boot (p : Nat) (x : PortSt) : (setPort p x s).boot = s.boot := rfl
@[simp] theorem setPort_free (p : Nat) (x : PortSt) : (setPort p x s).free = s.free := rfl

/-! ### `setTree` -/

@[simp] theorem setTree_pending (tree : Nat) (x : TreeRun) : (setTree tree x s).pending = s.pending := rfl
@[simp] theorem setTree_out (tree : Nat) (x : TreeRun) : (setTree tree x s).out = s.out := rfl
@[simp] theorem setTree_strap (tree : Nat) (x : TreeRun) : (setTree tree x s).strap = s.strap := rfl
@[simp] theorem setTree_dict (tree : Nat) (x : TreeRun) : (setTree tree x s).dict = s.dict := rfl
@[simp] theorem setTree_stat (tree : Nat) (x : TreeRun) : (setTree tree x s).stat = s.stat := rfl
@[simp] theorem setTree_units (tree : Nat) (x : TreeRun) : (setTree tree x s).units = s.units := rfl
@[simp] theorem setTree_gates (tree : Nat) (x : TreeRun) : (setTree tree x s).gates = s.gates := rfl
@[simp] theorem setTree_plan (tree : Nat) (x : TreeRun) : (setTree tree x s).plan = s.plan := rfl
@[simp] theorem setTree_mem (tree : Nat) (x : TreeRun) : (setTree tree x s).mem = s.mem := rfl
@[simp] theorem setTree_led (tree : Nat) (x : TreeRun) : (setTree tree x s).led = s.led := rfl
@[simp] theorem setTree_fab (tree : Nat) (x : TreeRun) : (setTree tree x s).fab = { s.fab with trees := Sparse.set {} s.fab.trees tree x } := rfl
@[simp] theorem setTree_twin (tree : Nat) (x : TreeRun) : (setTree tree x s).twin = s.twin := rfl
@[simp] theorem setTree_harv (tree : Nat) (x : TreeRun) : (setTree tree x s).harv = s.harv := rfl
@[simp] theorem setTree_host (tree : Nat) (x : TreeRun) : (setTree tree x s).host = s.host := rfl
@[simp] theorem setTree_keep (tree : Nat) (x : TreeRun) : (setTree tree x s).keep = s.keep := rfl
@[simp] theorem setTree_boot (tree : Nat) (x : TreeRun) : (setTree tree x s).boot = s.boot := rfl
@[simp] theorem setTree_free (tree : Nat) (x : TreeRun) : (setTree tree x s).free = s.free := rfl

/-! ### `setLayerRun` -/

@[simp] theorem setLayerRun_pending (k : Nat) (r : LayerRun) : (setLayerRun k r s).pending = s.pending := rfl
@[simp] theorem setLayerRun_out (k : Nat) (r : LayerRun) : (setLayerRun k r s).out = s.out := rfl
@[simp] theorem setLayerRun_strap (k : Nat) (r : LayerRun) : (setLayerRun k r s).strap = s.strap := rfl
@[simp] theorem setLayerRun_dict (k : Nat) (r : LayerRun) : (setLayerRun k r s).dict = s.dict := rfl
@[simp] theorem setLayerRun_stat (k : Nat) (r : LayerRun) : (setLayerRun k r s).stat = s.stat := rfl
@[simp] theorem setLayerRun_units (k : Nat) (r : LayerRun) : (setLayerRun k r s).units = s.units := rfl
@[simp] theorem setLayerRun_gates (k : Nat) (r : LayerRun) : (setLayerRun k r s).gates = s.gates := rfl
@[simp] theorem setLayerRun_plan (k : Nat) (r : LayerRun) : (setLayerRun k r s).plan = s.plan := rfl
@[simp] theorem setLayerRun_mem (k : Nat) (r : LayerRun) : (setLayerRun k r s).mem = s.mem := rfl
@[simp] theorem setLayerRun_led (k : Nat) (r : LayerRun) : (setLayerRun k r s).led = { s.led with layers := Sparse.set {} s.led.layers k r } := rfl
@[simp] theorem setLayerRun_fab (k : Nat) (r : LayerRun) : (setLayerRun k r s).fab = s.fab := rfl
@[simp] theorem setLayerRun_twin (k : Nat) (r : LayerRun) : (setLayerRun k r s).twin = s.twin := rfl
@[simp] theorem setLayerRun_harv (k : Nat) (r : LayerRun) : (setLayerRun k r s).harv = s.harv := rfl
@[simp] theorem setLayerRun_host (k : Nat) (r : LayerRun) : (setLayerRun k r s).host = s.host := rfl
@[simp] theorem setLayerRun_keep (k : Nat) (r : LayerRun) : (setLayerRun k r s).keep = s.keep := rfl
@[simp] theorem setLayerRun_boot (k : Nat) (r : LayerRun) : (setLayerRun k r s).boot = s.boot := rfl
@[simp] theorem setLayerRun_free (k : Nat) (r : LayerRun) : (setLayerRun k r s).free = s.free := rfl

/-! ### `setMirrorRun` -/

@[simp] theorem setMirrorRun_pending (k : Nat) (r : MirrorRun) : (setMirrorRun k r s).pending = s.pending := rfl
@[simp] theorem setMirrorRun_out (k : Nat) (r : MirrorRun) : (setMirrorRun k r s).out = s.out := rfl
@[simp] theorem setMirrorRun_strap (k : Nat) (r : MirrorRun) : (setMirrorRun k r s).strap = s.strap := rfl
@[simp] theorem setMirrorRun_dict (k : Nat) (r : MirrorRun) : (setMirrorRun k r s).dict = s.dict := rfl
@[simp] theorem setMirrorRun_stat (k : Nat) (r : MirrorRun) : (setMirrorRun k r s).stat = s.stat := rfl
@[simp] theorem setMirrorRun_units (k : Nat) (r : MirrorRun) : (setMirrorRun k r s).units = s.units := rfl
@[simp] theorem setMirrorRun_gates (k : Nat) (r : MirrorRun) : (setMirrorRun k r s).gates = s.gates := rfl
@[simp] theorem setMirrorRun_plan (k : Nat) (r : MirrorRun) : (setMirrorRun k r s).plan = s.plan := rfl
@[simp] theorem setMirrorRun_mem (k : Nat) (r : MirrorRun) : (setMirrorRun k r s).mem = s.mem := rfl
@[simp] theorem setMirrorRun_led (k : Nat) (r : MirrorRun) : (setMirrorRun k r s).led = s.led := rfl
@[simp] theorem setMirrorRun_fab (k : Nat) (r : MirrorRun) : (setMirrorRun k r s).fab = s.fab := rfl
@[simp] theorem setMirrorRun_twin (k : Nat) (r : MirrorRun) : (setMirrorRun k r s).twin = { s.twin with mruns := Sparse.set {} s.twin.mruns k r } := rfl
@[simp] theorem setMirrorRun_harv (k : Nat) (r : MirrorRun) : (setMirrorRun k r s).harv = s.harv := rfl
@[simp] theorem setMirrorRun_host (k : Nat) (r : MirrorRun) : (setMirrorRun k r s).host = s.host := rfl
@[simp] theorem setMirrorRun_keep (k : Nat) (r : MirrorRun) : (setMirrorRun k r s).keep = s.keep := rfl
@[simp] theorem setMirrorRun_boot (k : Nat) (r : MirrorRun) : (setMirrorRun k r s).boot = s.boot := rfl
@[simp] theorem setMirrorRun_free (k : Nat) (r : MirrorRun) : (setMirrorRun k r s).free = s.free := rfl

/-! ### `modHost` -/

@[simp] theorem modHost_pending (f : HostSt → HostSt) : (modHost f s).pending = s.pending := rfl
@[simp] theorem modHost_out (f : HostSt → HostSt) : (modHost f s).out = s.out := rfl
@[simp] theorem modHost_strap (f : HostSt → HostSt) : (modHost f s).strap = s.strap := rfl
@[simp] theorem modHost_dict (f : HostSt → HostSt) : (modHost f s).dict = s.dict := rfl
@[simp] theorem modHost_stat (f : HostSt → HostSt) : (modHost f s).stat = s.stat := rfl
@[simp] theorem modHost_units (f : HostSt → HostSt) : (modHost f s).units = s.units := rfl
@[simp] theorem modHost_gates (f : HostSt → HostSt) : (modHost f s).gates = s.gates := rfl
@[simp] theorem modHost_plan (f : HostSt → HostSt) : (modHost f s).plan = s.plan := rfl
@[simp] theorem modHost_mem (f : HostSt → HostSt) : (modHost f s).mem = s.mem := rfl
@[simp] theorem modHost_led (f : HostSt → HostSt) : (modHost f s).led = s.led := rfl
@[simp] theorem modHost_fab (f : HostSt → HostSt) : (modHost f s).fab = s.fab := rfl
@[simp] theorem modHost_twin (f : HostSt → HostSt) : (modHost f s).twin = s.twin := rfl
@[simp] theorem modHost_harv (f : HostSt → HostSt) : (modHost f s).harv = s.harv := rfl
@[simp] theorem modHost_host (f : HostSt → HostSt) : (modHost f s).host = f s.host := rfl
@[simp] theorem modHost_keep (f : HostSt → HostSt) : (modHost f s).keep = s.keep := rfl
@[simp] theorem modHost_boot (f : HostSt → HostSt) : (modHost f s).boot = s.boot := rfl
@[simp] theorem modHost_free (f : HostSt → HostSt) : (modHost f s).free = s.free := rfl

/-! ### `setLatch` -/

@[simp] theorem setLatch_pending (idx sub v : Nat) : (setLatch idx sub v s).pending = s.pending := rfl
@[simp] theorem setLatch_out (idx sub v : Nat) : (setLatch idx sub v s).out = s.out := rfl
@[simp] theorem setLatch_strap (idx sub v : Nat) : (setLatch idx sub v s).strap = s.strap := rfl
@[simp] theorem setLatch_dict (idx sub v : Nat) : (setLatch idx sub v s).dict = s.dict := rfl
@[simp] theorem setLatch_units (idx sub v : Nat) : (setLatch idx sub v s).units = s.units := rfl
@[simp] theorem setLatch_gates (idx sub v : Nat) : (setLatch idx sub v s).gates = s.gates := rfl
@[simp] theorem setLatch_plan (idx sub v : Nat) : (setLatch idx sub v s).plan = s.plan := rfl
@[simp] theorem setLatch_mem (idx sub v : Nat) : (setLatch idx sub v s).mem = s.mem := rfl
@[simp] theorem setLatch_led (idx sub v : Nat) : (setLatch idx sub v s).led = s.led := rfl
@[simp] theorem setLatch_fab (idx sub v : Nat) : (setLatch idx sub v s).fab = s.fab := rfl
@[simp] theorem setLatch_twin (idx sub v : Nat) : (setLatch idx sub v s).twin = s.twin := rfl
@[simp] theorem setLatch_harv (idx sub v : Nat) : (setLatch idx sub v s).harv = s.harv := rfl
@[simp] theorem setLatch_host (idx sub v : Nat) : (setLatch idx sub v s).host = s.host := rfl
@[simp] theorem setLatch_keep (idx sub v : Nat) : (setLatch idx sub v s).keep = s.keep := rfl
@[simp] theorem setLatch_boot (idx sub v : Nat) : (setLatch idx sub v s).boot = s.boot := rfl
@[simp] theorem setLatch_free (idx sub v : Nat) : (setLatch idx sub v s).free = s.free := rfl

/-! ### `dropStats` -/

@[simp] theorem dropStats_pending : (dropStats s).pending = s.pending := rfl
@[simp] theorem dropStats_out : (dropStats s).out = s.out := rfl
@[simp] theorem dropStats_strap : (dropStats s).strap = s.strap := rfl
@[simp] theorem dropStats_dict : (dropStats s).dict = s.dict := rfl
@[simp] theorem dropStats_stat : (dropStats s).stat = { s.stat with run := [], tRun := [] } := rfl
@[simp] theorem dropStats_units : (dropStats s).units = s.units := rfl
@[simp] theorem dropStats_gates : (dropStats s).gates = s.gates := rfl
@[simp] theorem dropStats_plan : (dropStats s).plan = s.plan := rfl
@[simp] theorem dropStats_mem : (dropStats s).mem = s.mem := rfl
@[simp] theorem dropStats_led : (dropStats s).led = s.led := rfl
@[simp] theorem dropStats_fab : (dropStats s).fab = s.fab := rfl
@[simp] theorem dropStats_twin : (dropStats s).twin = s.twin := rfl
@[simp] theorem dropStats_harv : (dropStats s).harv = s.harv := rfl
@[simp] theorem dropStats_host : (dropStats s).host = s.host := rfl
@[simp] theorem dropStats_keep : (dropStats s).keep = s.keep := rfl
@[simp] theorem dropStats_boot : (dropStats s).boot = s.boot := rfl
@[simp] theorem dropStats_free : (dropStats s).free = s.free := rfl

/-! ### Responses (R51, R57, R58) -/

/-- A response is put out on a route that answers, and on no other. -/
@[simp] theorem respond_out (a : Access) (k : Nat) (o : Out) :
    (respond a k o s).out = if answers s a.path then s.out ++ [o] else s.out := by unfold respond; split <;> rfl

@[simp] theorem respond_pending (a : Access) (k : Nat) (o : Out) : (respond a k o s).pending = s.pending := by unfold respond; split <;> rfl
@[simp] theorem respond_strap (a : Access) (k : Nat) (o : Out) : (respond a k o s).strap = s.strap := by unfold respond; split <;> rfl
@[simp] theorem respond_dict (a : Access) (k : Nat) (o : Out) : (respond a k o s).dict = s.dict := by unfold respond; split <;> rfl
@[simp] theorem respond_units (a : Access) (k : Nat) (o : Out) : (respond a k o s).units = s.units := by unfold respond; split <;> rfl
@[simp] theorem respond_gates (a : Access) (k : Nat) (o : Out) : (respond a k o s).gates = s.gates := by unfold respond; split <;> rfl
@[simp] theorem respond_plan (a : Access) (k : Nat) (o : Out) : (respond a k o s).plan = s.plan := by unfold respond; split <;> rfl
@[simp] theorem respond_mem (a : Access) (k : Nat) (o : Out) : (respond a k o s).mem = s.mem := by unfold respond; split <;> rfl
@[simp] theorem respond_led (a : Access) (k : Nat) (o : Out) : (respond a k o s).led = s.led := by unfold respond; split <;> rfl
@[simp] theorem respond_fab (a : Access) (k : Nat) (o : Out) : (respond a k o s).fab = s.fab := by unfold respond; split <;> rfl
@[simp] theorem respond_twin (a : Access) (k : Nat) (o : Out) : (respond a k o s).twin = s.twin := by unfold respond; split <;> rfl
@[simp] theorem respond_harv (a : Access) (k : Nat) (o : Out) : (respond a k o s).harv = s.harv := by unfold respond; split <;> rfl
@[simp] theorem respond_host (a : Access) (k : Nat) (o : Out) : (respond a k o s).host = s.host := by unfold respond; split <;> rfl
@[simp] theorem respond_keep (a : Access) (k : Nat) (o : Out) : (respond a k o s).keep = s.keep := by unfold respond; split <;> rfl
@[simp] theorem respond_boot (a : Access) (k : Nat) (o : Out) : (respond a k o s).boot = s.boot := by unfold respond; split <;> rfl
@[simp] theorem respond_free (a : Access) (k : Nat) (o : Out) : (respond a k o s).free = s.free := by unfold respond; split <;> rfl

@[simp] theorem reply_pending (a : Access) (body : Bytes) : (reply a body s).pending = s.pending := respond_pending s _ _ _
@[simp] theorem reply_strap (a : Access) (body : Bytes) : (reply a body s).strap = s.strap := respond_strap s _ _ _
@[simp] theorem reply_dict (a : Access) (body : Bytes) : (reply a body s).dict = s.dict := respond_dict s _ _ _
@[simp] theorem reply_units (a : Access) (body : Bytes) : (reply a body s).units = s.units := respond_units s _ _ _
@[simp] theorem reply_gates (a : Access) (body : Bytes) : (reply a body s).gates = s.gates := respond_gates s _ _ _
@[simp] theorem reply_plan (a : Access) (body : Bytes) : (reply a body s).plan = s.plan := respond_plan s _ _ _
@[simp] theorem reply_mem (a : Access) (body : Bytes) : (reply a body s).mem = s.mem := respond_mem s _ _ _
@[simp] theorem reply_led (a : Access) (body : Bytes) : (reply a body s).led = s.led := respond_led s _ _ _
@[simp] theorem reply_fab (a : Access) (body : Bytes) : (reply a body s).fab = s.fab := respond_fab s _ _ _
@[simp] theorem reply_twin (a : Access) (body : Bytes) : (reply a body s).twin = s.twin := respond_twin s _ _ _
@[simp] theorem reply_harv (a : Access) (body : Bytes) : (reply a body s).harv = s.harv := respond_harv s _ _ _
@[simp] theorem reply_host (a : Access) (body : Bytes) : (reply a body s).host = s.host := respond_host s _ _ _
@[simp] theorem reply_keep (a : Access) (body : Bytes) : (reply a body s).keep = s.keep := respond_keep s _ _ _
@[simp] theorem reply_boot (a : Access) (body : Bytes) : (reply a body s).boot = s.boot := respond_boot s _ _ _
@[simp] theorem reply_free (a : Access) (body : Bytes) : (reply a body s).free = s.free := respond_free s _ _ _

@[simp] theorem refuse_pending (a : Access) (idx sub code : Nat) : (refuse a idx sub code s).pending = s.pending := respond_pending s _ _ _
@[simp] theorem refuse_strap (a : Access) (idx sub code : Nat) : (refuse a idx sub code s).strap = s.strap := respond_strap s _ _ _
@[simp] theorem refuse_dict (a : Access) (idx sub code : Nat) : (refuse a idx sub code s).dict = s.dict := respond_dict s _ _ _
@[simp] theorem refuse_units (a : Access) (idx sub code : Nat) : (refuse a idx sub code s).units = s.units := respond_units s _ _ _
@[simp] theorem refuse_gates (a : Access) (idx sub code : Nat) : (refuse a idx sub code s).gates = s.gates := respond_gates s _ _ _
@[simp] theorem refuse_plan (a : Access) (idx sub code : Nat) : (refuse a idx sub code s).plan = s.plan := respond_plan s _ _ _
@[simp] theorem refuse_mem (a : Access) (idx sub code : Nat) : (refuse a idx sub code s).mem = s.mem := respond_mem s _ _ _
@[simp] theorem refuse_led (a : Access) (idx sub code : Nat) : (refuse a idx sub code s).led = s.led := respond_led s _ _ _
@[simp] theorem refuse_fab (a : Access) (idx sub code : Nat) : (refuse a idx sub code s).fab = s.fab := respond_fab s _ _ _
@[simp] theorem refuse_twin (a : Access) (idx sub code : Nat) : (refuse a idx sub code s).twin = s.twin := respond_twin s _ _ _
@[simp] theorem refuse_harv (a : Access) (idx sub code : Nat) : (refuse a idx sub code s).harv = s.harv := respond_harv s _ _ _
@[simp] theorem refuse_host (a : Access) (idx sub code : Nat) : (refuse a idx sub code s).host = s.host := respond_host s _ _ _
@[simp] theorem refuse_keep (a : Access) (idx sub code : Nat) : (refuse a idx sub code s).keep = s.keep := respond_keep s _ _ _
@[simp] theorem refuse_boot (a : Access) (idx sub code : Nat) : (refuse a idx sub code s).boot = s.boot := respond_boot s _ _ _
@[simp] theorem refuse_free (a : Access) (idx sub code : Nat) : (refuse a idx sub code s).free = s.free := respond_free s _ _ _

@[simp] theorem reply_out (a : Access) (body : Bytes) :
    (reply a body s).out = if answers s a.path then s.out ++ [.usdo a body] else s.out := respond_out s _ _ _

@[simp] theorem refuse_out (a : Access) (idx sub code : Nat) :
    (refuse a idx sub code s).out = if answers s a.path then s.out ++ [.usdoAbort a idx sub code] else s.out := respond_out s _ _ _

/-! ### Lane-0 messages that arrive (R330, R332) -/

/-- A new message of its kind is noted and acts. -/
theorem hear_new {h : TpHdr} {k : Nat} {f : State → State} {s : State} (n : isNew h k s = true) :
    hear h k f s = f (noteSeen h.src.toNat h.msgid.toNat s) := if_pos n

/-- Every other is dropped. -/
theorem hear_old {h : TpHdr} {k : Nat} {f : State → State} {s : State} (n : isNew h k s = false) : hear h k f s = s := by
  unfold hear; rw [n]; rfl

/-! ### Messages on lane 0 and to the twin -/

/-- What no step of a fold changes, the fold does not change. -/
theorem foldl_same {α β : Type} (f : State → α → State) (g : State → β) (h : ∀ s a, g (f s a) = g s) (l : List α) (s : State) :
    g (l.foldl f s) = g s := by
  induction l generalizing s with
  | nil => rfl
  | cons a l ih => rw [List.foldl_cons, ih, h]

@[simp] theorem lane0_pending (ps : List Nat) (d : Option Nat) (m : TpMsg) : (lane0 ps d m s).pending = s.pending :=
  foldl_same (fun s p => countPort 0 _ p s) (·.pending) (fun _ _ => rfl) ps s
@[simp] theorem lane0_strap (ps : List Nat) (d : Option Nat) (m : TpMsg) : (lane0 ps d m s).strap = s.strap :=
  foldl_same (fun s p => countPort 0 _ p s) (·.strap) (fun _ _ => rfl) ps s
@[simp] theorem lane0_dict (ps : List Nat) (d : Option Nat) (m : TpMsg) : (lane0 ps d m s).dict = s.dict :=
  foldl_same (fun s p => countPort 0 _ p s) (·.dict) (fun _ _ => rfl) ps s
@[simp] theorem lane0_units (ps : List Nat) (d : Option Nat) (m : TpMsg) : (lane0 ps d m s).units = s.units :=
  foldl_same (fun s p => countPort 0 _ p s) (·.units) (fun _ _ => rfl) ps s
@[simp] theorem lane0_gates (ps : List Nat) (d : Option Nat) (m : TpMsg) : (lane0 ps d m s).gates = s.gates :=
  foldl_same (fun s p => countPort 0 _ p s) (·.gates) (fun _ _ => rfl) ps s
@[simp] theorem lane0_plan (ps : List Nat) (d : Option Nat) (m : TpMsg) : (lane0 ps d m s).plan = s.plan :=
  foldl_same (fun s p => countPort 0 _ p s) (·.plan) (fun _ _ => rfl) ps s
@[simp] theorem lane0_mem (ps : List Nat) (d : Option Nat) (m : TpMsg) : (lane0 ps d m s).mem = s.mem :=
  foldl_same (fun s p => countPort 0 _ p s) (·.mem) (fun _ _ => rfl) ps s
@[simp] theorem lane0_led (ps : List Nat) (d : Option Nat) (m : TpMsg) : (lane0 ps d m s).led = s.led :=
  foldl_same (fun s p => countPort 0 _ p s) (·.led) (fun _ _ => rfl) ps s
@[simp] theorem lane0_twin (ps : List Nat) (d : Option Nat) (m : TpMsg) : (lane0 ps d m s).twin = s.twin :=
  foldl_same (fun s p => countPort 0 _ p s) (·.twin) (fun _ _ => rfl) ps s
@[simp] theorem lane0_harv (ps : List Nat) (d : Option Nat) (m : TpMsg) : (lane0 ps d m s).harv = s.harv :=
  foldl_same (fun s p => countPort 0 _ p s) (·.harv) (fun _ _ => rfl) ps s
@[simp] theorem lane0_host (ps : List Nat) (d : Option Nat) (m : TpMsg) : (lane0 ps d m s).host = s.host :=
  foldl_same (fun s p => countPort 0 _ p s) (·.host) (fun _ _ => rfl) ps s
@[simp] theorem lane0_keep (ps : List Nat) (d : Option Nat) (m : TpMsg) : (lane0 ps d m s).keep = s.keep :=
  foldl_same (fun s p => countPort 0 _ p s) (·.keep) (fun _ _ => rfl) ps s
@[simp] theorem lane0_boot (ps : List Nat) (d : Option Nat) (m : TpMsg) : (lane0 ps d m s).boot = s.boot :=
  foldl_same (fun s p => countPort 0 _ p s) (·.boot) (fun _ _ => rfl) ps s
@[simp] theorem lane0_free (ps : List Nat) (d : Option Nat) (m : TpMsg) : (lane0 ps d m s).free = s.free :=
  foldl_same (fun s p => countPort 0 _ p s) (·.free) (fun _ _ => rfl) ps s

/-- A lane-0 message steps the card's message identifier, and nothing else of the fabric. -/
@[simp] theorem lane0_fab (ps : List Nat) (d : Option Nat) (m : TpMsg) :
    (lane0 ps d m s).fab = { s.fab with msgid := (s.fab.msgid + 1) % 65536 } := by
  unfold lane0; exact congrArg (fun x : FabricSt => { x with msgid := (x.msgid + 1) % 65536 }) (foldl_same (fun s p => countPort 0 _ p s) (·.fab) (fun _ _ => rfl) ps s)

@[simp] theorem lane0_out (ps : List Nat) (d : Option Nat) (m : TpMsg) :
    (lane0 ps d m s).out = s.out ++ [.towpath { ports := ps, dst := d, src := cardId s, msgid := s.fab.msgid } m] := by
  unfold lane0; exact congrArg (· ++ _) (foldl_same (fun s p => countPort 0 _ p s) (·.out) (fun _ _ => rfl) ps s)

theorem toCard_some {l c : Nat} (m : TpMsg) (h : cardOf s l = some c) : toCard l m s = toCardId c m s := by simp [toCard, h]

theorem toCard_none {l : Nat} (m : TpMsg) (h : cardOf s l = none) : toCard l m s = s := by simp [toCard, h]

@[simp] theorem toCardId_pending (c : Nat) (m : TpMsg) : (toCardId c m s).pending = s.pending := lane0_pending _ _ _ _
@[simp] theorem toCardId_strap (c : Nat) (m : TpMsg) : (toCardId c m s).strap = s.strap := lane0_strap _ _ _ _
@[simp] theorem toCardId_dict (c : Nat) (m : TpMsg) : (toCardId c m s).dict = s.dict := lane0_dict _ _ _ _
@[simp] theorem toCardId_units (c : Nat) (m : TpMsg) : (toCardId c m s).units = s.units := lane0_units _ _ _ _
@[simp] theorem toCardId_gates (c : Nat) (m : TpMsg) : (toCardId c m s).gates = s.gates := lane0_gates _ _ _ _
@[simp] theorem toCardId_plan (c : Nat) (m : TpMsg) : (toCardId c m s).plan = s.plan := lane0_plan _ _ _ _
@[simp] theorem toCardId_mem (c : Nat) (m : TpMsg) : (toCardId c m s).mem = s.mem := lane0_mem _ _ _ _
@[simp] theorem toCardId_led (c : Nat) (m : TpMsg) : (toCardId c m s).led = s.led := lane0_led _ _ _ _
@[simp] theorem toCardId_twin (c : Nat) (m : TpMsg) : (toCardId c m s).twin = s.twin := lane0_twin _ _ _ _
@[simp] theorem toCardId_harv (c : Nat) (m : TpMsg) : (toCardId c m s).harv = s.harv := lane0_harv _ _ _ _
@[simp] theorem toCardId_host (c : Nat) (m : TpMsg) : (toCardId c m s).host = s.host := lane0_host _ _ _ _
@[simp] theorem toCardId_keep (c : Nat) (m : TpMsg) : (toCardId c m s).keep = s.keep := lane0_keep _ _ _ _
@[simp] theorem toCardId_boot (c : Nat) (m : TpMsg) : (toCardId c m s).boot = s.boot := lane0_boot _ _ _ _
@[simp] theorem toCardId_free (c : Nat) (m : TpMsg) : (toCardId c m s).free = s.free := lane0_free _ _ _ _

@[simp] theorem toCard_pending (l : Nat) (m : TpMsg) : (toCard l m s).pending = s.pending := by unfold toCard; split <;> simp
@[simp] theorem toCard_strap (l : Nat) (m : TpMsg) : (toCard l m s).strap = s.strap := by unfold toCard; split <;> simp
@[simp] theorem toCard_dict (l : Nat) (m : TpMsg) : (toCard l m s).dict = s.dict := by unfold toCard; split <;> simp
@[simp] theorem toCard_units (l : Nat) (m : TpMsg) : (toCard l m s).units = s.units := by unfold toCard; split <;> simp
@[simp] theorem toCard_gates (l : Nat) (m : TpMsg) : (toCard l m s).gates = s.gates := by unfold toCard; split <;> simp
@[simp] theorem toCard_plan (l : Nat) (m : TpMsg) : (toCard l m s).plan = s.plan := by unfold toCard; split <;> simp
@[simp] theorem toCard_mem (l : Nat) (m : TpMsg) : (toCard l m s).mem = s.mem := by unfold toCard; split <;> simp
@[simp] theorem toCard_led (l : Nat) (m : TpMsg) : (toCard l m s).led = s.led := by unfold toCard; split <;> simp
@[simp] theorem toCard_twin (l : Nat) (m : TpMsg) : (toCard l m s).twin = s.twin := by unfold toCard; split <;> simp
@[simp] theorem toCard_harv (l : Nat) (m : TpMsg) : (toCard l m s).harv = s.harv := by unfold toCard; split <;> simp
@[simp] theorem toCard_host (l : Nat) (m : TpMsg) : (toCard l m s).host = s.host := by unfold toCard; split <;> simp
@[simp] theorem toCard_keep (l : Nat) (m : TpMsg) : (toCard l m s).keep = s.keep := by unfold toCard; split <;> simp
@[simp] theorem toCard_boot (l : Nat) (m : TpMsg) : (toCard l m s).boot = s.boot := by unfold toCard; split <;> simp
@[simp] theorem toCard_free (l : Nat) (m : TpMsg) : (toCard l m s).free = s.free := by unfold toCard; split <;> simp

/-- A twin message is counted on the ports it leaves on and put out: what neither changes, it does not change. -/
theorem toTwin_put (m : TwMsg) : ∃ t : State, toTwin m s = send (.twin m) t ∧
    ∀ {β : Type} (g : State → β), (∀ l n p s, g (countPort l n p s) = g s) → g t = g s := by
  refine ⟨_, rfl, fun g h => ?_⟩
  repeat' split
  all_goals exact foldl_same _ g (fun s p => h _ _ _ s) _ s

@[simp] theorem toTwin_pending (m : TwMsg) : (toTwin m s).pending = s.pending := by
  obtain ⟨t, e, k⟩ := toTwin_put s m
  rw [e, send_pending, k (·.pending) (fun _ _ _ _ => rfl)]
@[simp] theorem toTwin_out (m : TwMsg) : (toTwin m s).out = s.out ++ [.twin m] := by
  obtain ⟨t, e, k⟩ := toTwin_put s m
  rw [e, send_out, k (·.out) (fun _ _ _ _ => rfl)]
@[simp] theorem toTwin_strap (m : TwMsg) : (toTwin m s).strap = s.strap := by
  obtain ⟨t, e, k⟩ := toTwin_put s m
  rw [e, send_strap, k (·.strap) (fun _ _ _ _ => rfl)]
@[simp] theorem toTwin_dict (m : TwMsg) : (toTwin m s).dict = s.dict := by
  obtain ⟨t, e, k⟩ := toTwin_put s m
  rw [e, send_dict, k (·.dict) (fun _ _ _ _ => rfl)]
@[simp] theorem toTwin_units (m : TwMsg) : (toTwin m s).units = s.units := by
  obtain ⟨t, e, k⟩ := toTwin_put s m
  rw [e, send_units, k (·.units) (fun _ _ _ _ => rfl)]
@[simp] theorem toTwin_gates (m : TwMsg) : (toTwin m s).gates = s.gates := by
  obtain ⟨t, e, k⟩ := toTwin_put s m
  rw [e, send_gates, k (·.gates) (fun _ _ _ _ => rfl)]
@[simp] theorem toTwin_plan (m : TwMsg) : (toTwin m s).plan = s.plan := by
  obtain ⟨t, e, k⟩ := toTwin_put s m
  rw [e, send_plan, k (·.plan) (fun _ _ _ _ => rfl)]
@[simp] theorem toTwin_mem (m : TwMsg) : (toTwin m s).mem = s.mem := by
  obtain ⟨t, e, k⟩ := toTwin_put s m
  rw [e, send_mem, k (·.mem) (fun _ _ _ _ => rfl)]
@[simp] theorem toTwin_led (m : TwMsg) : (toTwin m s).led = s.led := by
  obtain ⟨t, e, k⟩ := toTwin_put s m
  rw [e, send_led, k (·.led) (fun _ _ _ _ => rfl)]
@[simp] theorem toTwin_fab (m : TwMsg) : (toTwin m s).fab = s.fab := by
  obtain ⟨t, e, k⟩ := toTwin_put s m
  rw [e, send_fab, k (·.fab) (fun _ _ _ _ => rfl)]
@[simp] theorem toTwin_twin (m : TwMsg) : (toTwin m s).twin = s.twin := by
  obtain ⟨t, e, k⟩ := toTwin_put s m
  rw [e, send_twin, k (·.twin) (fun _ _ _ _ => rfl)]
@[simp] theorem toTwin_harv (m : TwMsg) : (toTwin m s).harv = s.harv := by
  obtain ⟨t, e, k⟩ := toTwin_put s m
  rw [e, send_harv, k (·.harv) (fun _ _ _ _ => rfl)]
@[simp] theorem toTwin_host (m : TwMsg) : (toTwin m s).host = s.host := by
  obtain ⟨t, e, k⟩ := toTwin_put s m
  rw [e, send_host, k (·.host) (fun _ _ _ _ => rfl)]
@[simp] theorem toTwin_keep (m : TwMsg) : (toTwin m s).keep = s.keep := by
  obtain ⟨t, e, k⟩ := toTwin_put s m
  rw [e, send_keep, k (·.keep) (fun _ _ _ _ => rfl)]
@[simp] theorem toTwin_boot (m : TwMsg) : (toTwin m s).boot = s.boot := by
  obtain ⟨t, e, k⟩ := toTwin_put s m
  rw [e, send_boot, k (·.boot) (fun _ _ _ _ => rfl)]
@[simp] theorem toTwin_free (m : TwMsg) : (toTwin m s).free = s.free := by
  obtain ⟨t, e, k⟩ := toTwin_put s m
  rw [e, send_free, k (·.free) (fun _ _ _ _ => rfl)]

/-! ### Reads after the named writes -/

@[simp] theorem getUnit_setUnit_self (p : Nat) (u : UnitSt) : getUnit (setUnit p u s) p = u := by simp [getUnit]

theorem getUnit_setUnit_ne {p q : Nat} (u : UnitSt) (h : q ≠ p) : getUnit (setUnit p u s) q = getUnit s q := by
  simp [getUnit, Sparse.get_set_ne _ _ _ h]

@[simp] theorem getUnit_modUnit_self (p : Nat) (f : UnitSt → UnitSt) : getUnit (modUnit p f s) p = f (getUnit s p) := by
  simp [getUnit]

theorem getUnit_modUnit_ne {p q : Nat} (f : UnitSt → UnitSt) (h : q ≠ p) : getUnit (modUnit p f s) q = getUnit s q := by
  simp [getUnit, Sparse.get_set_ne _ _ _ h]

/-- A unit read depends on the units alone. -/
theorem getUnit_congr {s t : State} (h : t.units = s.units) (p : Nat) : getUnit t p = getUnit s p := by simp [getUnit, h]

@[simp] theorem getCh_setCh_self (u : UnitSt) (k : Nat) (c : Chamber) : getCh (setCh u k c) k = c := by simp [getCh, setCh]

theorem getCh_setCh_ne (u : UnitSt) {k j : Nat} (c : Chamber) (h : j ≠ k) : getCh (setCh u k c) j = getCh u j := by
  simp [getCh, setCh, Sparse.get_set_ne _ _ _ h]

@[simp] theorem getGate_setGate_self (k : Nat) (g : GateSt) : getGate (setGate k g s) k = g := by simp [getGate]

theorem getGate_setGate_ne {k j : Nat} (g : GateSt) (h : j ≠ k) : getGate (setGate k g s) j = getGate s j := by
  simp [getGate, Sparse.get_set_ne _ _ _ h]

@[simp] theorem getPort_setPort_self (p : Nat) (x : PortSt) : getPort (setPort p x s) p = x := by simp [getPort]

@[simp] theorem getSnap_setSnap_self (k : Nat) (x : Snap) : getSnap (setSnap k x s) k = x := by simp [getSnap]

/-- An entry of the dictionary just put in force reads so. -/
@[simp] theorem valBytes_putVal_self (idx sub : Nat) (bs : Bytes) : valBytes (putVal idx sub bs s) idx sub = bs := by
  simp [valBytes]

/-- The key of an entry tells its index and sub-index. -/
theorem ekey_inj {i j k l : Nat} (hk : k < 256) (hl : l < 256) : ekey i k = ekey j l ↔ i = j ∧ k = l := by
  unfold ekey; omega

end Sys2Proof.Machine
end

