-- ==== Sys2Proof/Certificates/Slice0/Obligations.lean ====
section
/-! DEFINITION. The statements for the provers. Names in `Sys2Proof.Claims` are the vocabulary they share. -/

section Statements

namespace Sys2Proof.Claims

end Sys2Proof.Claims

open Sys2Proof Sys2Proof.Machine Sys2Proof.Claims

namespace Sys2Proof.Claims

/-- The command's effect completes: it answers a next state of which `P` holds. -/
def Completes (c : Instr) (s : State) (P : State → Prop) : Prop := ∃ t, exec c s = .next t ∧ P t

/-- A lane-0 message is one of a kind (R330), and no message of its SRC and MSGID has come lately (R332). -/
def Fresh (s : State) (h : TpHdr) (kind : Nat) : Prop :=
  h.kind.toNat = kind ∧ (h.src.toNat, h.msgid.toNat) ∉ s.fab.seen ++ s.fab.seenOld

/-- The card has noted the SRC and MSGID of a lane-0 message (R332). -/
def heard (s : State) (h : TpHdr) : State :=
  { s with fab := { s.fab with seen := s.fab.seen ++ [(h.src.toNat, h.msgid.toNat)] } }

/-- The canonical form of device memory: addresses strictly rising, no zero byte listed. -/
def MemoryForm (s : State) : Prop := Memory.wf s.mem.cells

/-- An event has been raised: its count, and its entry at the end of the queue where the queue takes one. -/
def Raised (typ source detail : Nat) (s t : State) : Prop :=
  t.stat.eseq = s.stat.eseq + 1 ∧
  (s.host.down = false → s.host.events.length < 4095 →
    ∃ e, t.host.events = s.host.events ++ [e] ∧ e.typ = typ ∧ e.source = source ∧ e.detail = detail % 2 ^ 128 ∧
      e.eseq = (s.stat.eseq + 1) % 2 ^ 32)

/-- The pending set within its bounds, and a generation that is never 0 (R43). -/
def SetBounds (s : State) : Prop :=
  s.dict.gen ≠ 0 ∧ s.dict.pset.length ≤ 256 ∧ (s.dict.pset.map (·.val.length)).sum ≤ 16384

/-- At most 4 generations have awaiting parts (R47). -/
def FewAwait (s : State) : Prop := (gensAwaiting s).length ≤ 4

/-- While a job runs the running step is the committed step + 1 (R286); a card in MIRROR SERVICE runs none (R360). -/
def RunsNext (s : State) : Prop :=
  (jobRuns s = true → s.led.running = s.led.committed + 1) ∧ (s.keep.mirror = true → jobRuns s = false)

/-- No layer is touched while a step waits to open, nor in deferred mode before apply(N) (R287, R293). -/
def TouchesInTurn (s : State) : Prop :=
  (s.led.st = .opened → s.led.waiting = true → s.led.touched = []) ∧
  (s.plan.plan.lt.mode = true → s.led.applyCs = none → (s.led.st = .opened ∨ s.led.st = .updating ∨ s.led.st = .ready) →
    s.led.touched = [])

end Sys2Proof.Claims

/-- A step takes the command at the front of the queue and runs it on the card with the rest of the queue. Derived
from spec 95_what_each_step_holds, notes/assumptions/1. -/
def Obligations.StepRunsFrontCommand : Prop :=
  (∀ s c cs, s.pending = c :: cs → step s = exec c { s with pending := cs }) ∧
  (∀ s, s.pending = [] → step s = .next s)

/-- No command of the table stops the card, and none changes the queue of waiting commands. Derived from spec
00_scope, spec 95_what_each_step_holds. -/
def Obligations.EveryCommandAnswers : Prop :=
  ∀ c s, ∃ t, exec c s = .next t ∧ t.pending = s.pending

/-- No command changes what is fused, strapped or set at manufacture: variant, serial number, root hash, identity key.
Derived from R3, R61, R379, R438, R445. -/
def Obligations.IdentityNeverChanges : Prop :=
  ∀ s t, step s = .next t → t.strap = s.strap

/-- Every step keeps device memory in its canonical form. Derived from R222, R227, R256. -/
def Obligations.MemoryFormKept : Prop :=
  ∀ s t, MemoryForm s → step s = .next t → MemoryForm t

/-- Every step keeps the generation off 0, the sets within their bounds, the running step at committed + 1, and no
layer touched before apply(N). Derived from R43, R47, R286, R287, R293. -/
def Obligations.LedgerInvariants : Prop :=
  ∀ s t, step s = .next t →
    (SetBounds s → SetBounds t) ∧ (FewAwait s → FewAwait t) ∧
    (RunsNext s → s.fab.joining = false → RunsNext t) ∧ (TouchesInTurn s → TouchesInTurn t)

/-- What reset leaves, with every invariant of the model; mask bits and tags at power-up are the choice of the model,
notes/assumptions/10. Derived from R12, R43, R80, R139, R157, R217, R222, R227, R287, notes/assumptions/10. -/
def Obligations.ResetState : Prop :=
  MemoryForm State.reset ∧ SetBounds State.reset ∧ FewAwait State.reset ∧ RunsNext State.reset ∧ TouchesInTurn State.reset ∧
  State.reset.led.st = .nojob ∧ State.reset.dict.gen = 1 ∧ State.reset.dict.genForce = 1 ∧
  State.reset.dict.awaiting = [] ∧ State.reset.plan.active = none ∧ State.reset.plan.area0 = 0 ∧
  State.reset.plan.area1 = 0 ∧
  (∀ p < 72, logicalUnit State.reset p = if p % 9 = 8 then 0xFE else 8 * (p / 9) + p % 9) ∧
  (∀ p a row col, panGet (getUnit State.reset p) a row col = 0x800000000000#48) ∧
  (∀ p k i, maskBit (getUnit State.reset p).cur k i = true) ∧
  (∀ p x, Sparse.get 0 (getUnit State.reset p).cur.lock x = 0) ∧
  (∀ p, (getUnit State.reset p).vtag = 0xFFFF#16 ∧ (getUnit State.reset p).rtag = 0xFFFF#16) ∧
  (∀ b < planBarge State.reset.strap.variant, (barge State.reset b).state = 0 ∧ (barge State.reset b).epoch = 0xFFFFFFFF)

namespace Sys2Proof.Claims

/-- A write of an entry reaches what the entry does: its route serves it, and neither MIRROR SERVICE nor sleep refuses
it. -/
def Takes (s : State) (a : Access) (idx sub : Nat) : Prop :=
  pathServes s a.path = true ∧ idxServed s a.path idx = true ∧
  ¬ (s.keep.mirror = true ∧ mirrorRefuses idx = true) ∧ ¬ (s.keep.dev = .asleep ∧ wakeRefuses idx sub = true)

/-- Frame of a dictionary exchange: only the dictionary, what is sent, and the counts since boot may differ. -/
def OnlyDict (s t : State) : Prop :=
  t = { s with dict := t.dict, out := t.out, stat := { s.stat with boot := t.stat.boot } }

/-- Frame of an exchange that also raises an event: the event's queue, log and interrupt may differ as well. -/
def OnlyDictEvent (s t : State) : Prop :=
  t = { s with dict := t.dict, out := t.out, host := t.host, boot := { s.boot with log := t.boot.log, logSeq := t.boot.logSeq },
               stat := { s.stat with boot := t.stat.boot, eseq := t.stat.eseq } }

/-- Frame of an exchange that also writes the stored dictionary: the flash's copies of it may differ as well. -/
def OnlyStored (s t : State) : Prop :=
  t = { s with dict := t.dict, out := t.out, boot := { s.boot with flash := { s.boot.flash with dicts := t.boot.flash.dicts } },
               stat := { s.stat with boot := t.stat.boot } }

/-- A route that carries responses: it is not disabled (R57), and the CAN route's node is not Stopped (R58). -/
def RouteAnswers (s : State) (r : Route) : Prop :=
  num s 0x2022 (match r with | .can => 1 | .mailbox => 2 | .towpath => 3) ≠ 0 ∧ (r = .can → s.keep.dev ≠ .halted)

/-- An entry of a list that no later one of the list names again. -/
def LastIn (e : EntryVal) (es : List EntryVal) : Prop :=
  ∃ xs ys, es = xs ++ e :: ys ∧ ∀ f ∈ ys, ¬ (f.idx = e.idx ∧ f.sub = e.sub)

/-- A list of values has applied, the latest of an entry last, and no other entry has changed (R47). -/
def AppliedTo (es : List EntryVal) (s t : State) : Prop :=
  (∀ e, LastIn e es → valBytes t e.idx.toNat e.sub.toNat = e.val) ∧
  (∀ i k, k < 256 → (∀ e ∈ es, ¬ (e.idx.toNat = i ∧ e.sub.toNat = k)) → valBytes t i k = valBytes s i k)

/-- No value is one of the CAN route's, whose change has effects of its own (R37, R62). -/
def NoCan (es : List EntryVal) : Prop := ∀ e ∈ es, e.idx ≠ 0x2020#16 ∧ e.idx ≠ 0x2021#16

/-- The values of a list that have an application point. -/
def atPoint (p : Point) (es : List EntryVal) : List EntryVal := es.filter fun e => decide (pointOf e = p)

/-- The parts that a commit leaves to await (R47). -/
def partsLeft (gen : BitVec 32) (target : Option Nat) (es : List EntryVal) : List Part :=
  ([(⟨gen, .idle, none, atPoint .idle es⟩ : Part), ⟨gen, .step, target, atPoint .step es⟩, ⟨gen, .plan, none, atPoint .plan es⟩]).filter
    fun p => !p.entries.isEmpty

/-- The awaiting parts that apply at the boundary that opens a step (R49). -/
def dueAt (n : Nat) (p : Part) : Bool := decide (p.point = .step) && (decide (p.target = none) || decide (p.target = some n))

/-- The set belongs to nobody, or to the source of the access. -/
def Owns (s : State) (a : Access) : Prop := s.dict.owner = none ∨ s.dict.owner = some a.src

/-- The generation that follows (R43). -/
def genAfter (g : BitVec 32) : BitVec 32 := if g = 0xFFFFFFFF#32 then 1#32 else g + 1#32

/-- A TPDO may be sent: enabled, mapped, the CAN route enabled, and its inhibit time over. -/
def TpdoMay (s : State) (n : Nat) : Prop :=
  num s (0x1800 + n) 1 < 2 ^ 31 ∧ num s (0x1A00 + n) 0 ≠ 0 ∧ num s 0x2022 1 ≠ 0 ∧ num s (0x1800 + n) 3 = 0

end Sys2Proof.Claims

/-- A served write of a rw entry puts its value in force at once, answers, and changes no other entry. Derived from
R35, R37, R39, R434. -/
def Obligations.EntryWriteApplies : Prop :=
  (∀ s a (idx : BitVec 16) (sub : BitVec 8) data o,
    pathServes s a.path = true → idxServed s a.path idx.toNat = true →
    findObj idx.toNat sub.toNat = some o → o.acc = .rw → lengthOk o data = true → valueOk s o sub.toNat data = true →
    specialWrite a idx.toNat sub.toNat data s = none → idx ≠ 0x2208#16 → idx ≠ 0x2210#16 →
    Completes (.entryWrite a idx sub data) s fun t =>
      valBytes t idx.toNat sub.toNat = data ∧
      (∀ i k, k < 256 → (i, k) ≠ (idx.toNat, sub.toNat) → valBytes t i k = valBytes s i k) ∧
      t.dict = { s.dict with vals := t.dict.vals } ∧ t.out = s.out ++ [.usdo a []] ∧ OnlyDict s t) ∧
  (∀ s a (v : Byte), pathServes s a.path = true → idxServed s a.path 0x2208 = true → v.toNat ≤ 1 →
    (Completes (.entryWrite a 0x2208 1 [v]) s fun t => t.boot.retest = decide (v = 1) ∧ t.dict = s.dict ∧ t.mem = s.mem) ∧
    (Completes (.entryWrite a 0x2210 5 [v]) s fun t => t.boot.autoconf = decide (v = 1) ∧ t.dict = s.dict ∧ t.mem = s.mem)) ∧
  (∀ s a (idx : BitVec 16) (sub : BitVec 8) data o t,
    pathServes s a.path = true → idxServed s a.path idx.toNat = true →
    findObj idx.toNat sub.toNat = some o → o.acc ≠ .const → o.acc ≠ .ro → lengthOk o data = true →
    specialWrite a idx.toNat sub.toNat data s = some (.next t) → exec (.entryWrite a idx sub data) s = .next t)

/-- A served write of a rwst entry enters the pending set, makes its source the owner and changes no value in force.
Derived from R35, R43, R44. -/
def Obligations.EntryWriteStages : Prop :=
  ∀ s a (idx : BitVec 16) (sub : BitVec 8) data o,
    pathServes s a.path = true → idxServed s a.path idx.toNat = true →
    findObj idx.toNat sub.toNat = some o → o.acc = .rwst → lengthOk o data = true → valueOk s o sub.toNat data = true →
    specialWrite a idx.toNat sub.toNat data s = none → Owns s a →
    (putPending ⟨idx, sub, data⟩ s.dict.pset).length ≤ 256 →
    ((putPending ⟨idx, sub, data⟩ s.dict.pset).map (·.val.length)).sum ≤ 16384 →
    Completes (.entryWrite a idx sub data) s fun t =>
      (∀ e, e ∈ t.dict.pset ↔ e = ⟨idx, sub, data⟩ ∨ (e ∈ s.dict.pset ∧ ¬ (e.idx = idx ∧ e.sub = sub))) ∧
      t.dict.owner = some a.src ∧ t.dict = { s.dict with pset := t.dict.pset, owner := some a.src } ∧
      t.out = s.out ++ [.usdo a []] ∧ OnlyDict s t

namespace Sys2Proof.Claims

/-- The range of an entry whose write acts as a command. -/
def commandRange (idx sub v : Nat) : Bool :=
  match idx, sub with
  | 0x1003, 0 => decide (v = 0)
  | 0x2100, 1 => decide (v ≤ 1)
  | 0x2140, 2 => decide (v ≤ 3600)
  | 0x2210, 3 => decide (v ≤ 1)
  | 0x3880, 1 => decide (v ≤ 1)
  | 0x2001, 1 | 0x2001, 2 | 0x2200, 6 | 0x2210, 4 | 0x2804, 1 | 0x2804, 2 | 0x2A10, 6 | 0x2A1C, 1 | 0x3880, 2 => decide (v = 1)
  | _, _ => true

end Sys2Proof.Claims

/-- Accesses that the dictionary refuses: an index or sub-index that does not exist, a wrong length, a value out of
range; a refused write changes nothing. Stated by R33, R39. -/
def Obligations.EntryWriteRefusals : Prop :=
  (∀ s a (idx : BitVec 16) (sub : BitVec 8) data, pathServes s a.path = true → idxServed s a.path idx.toNat = true →
    let refused (code : Nat) : Prop := Completes (.entryWrite a idx sub data) s fun t =>
      t.out = s.out ++ [.usdoAbort a idx.toNat sub.toNat code] ∧ t.dict = s.dict ∧ OnlyDict s t
    (indexDefined idx.toNat = false → refused 0x06020000) ∧
    (indexDefined idx.toNat = true → findObj idx.toNat sub.toNat = none → refused 0x06090011) ∧
    (∀ o, findObj idx.toNat sub.toNat = some o →
      ((o.acc = .const ∨ o.acc = .ro) → refused 0x06010002) ∧
      ((o.acc = .rw ∨ o.acc = .rwst ∨ o.acc = .wo) → lengthOk o data = false → refused 0x06070010) ∧
      ((o.acc = .rw ∨ o.acc = .rwst) → lengthOk o data = true → specialWrite a idx.toNat sub.toNat data s = none →
        valueOk s o sub.toNat data = false → refused 0x06090030) ∧
      (Takes s a idx.toNat sub.toNat → lengthOk o data = true → commandRange idx.toNat sub.toNat (leNat data) = false →
        refused 0x06090030))) ∧
  (∀ s (h : TpHdr) (s0 : Source) (idx : BitVec 16) (sub : BitVec 8), pathServes s .towpath = true →
    idxServed s .towpath idx.toNat = true → Fresh s h 1 →
    let refused (code : Nat) : Prop := Completes (.towpathUsdo h s0 (.read idx sub)) s fun t =>
      t.out = s.out ++ [.usdoAbort ⟨.towpath, s0⟩ idx.toNat sub.toNat code] ∧ t.dict = s.dict ∧ OnlyDict (noteSeen h.src.toNat h.msgid.toNat s) t
    (indexDefined idx.toNat = false → refused 0x06020000) ∧
    (indexDefined idx.toNat = true → findObj idx.toNat sub.toNat = none → refused 0x06090011))

/-- A discard, and the owner timeout, empty the pending set and take the next generation. Derived from R43, R44, R51. -/
def Obligations.DiscardEmptiesPendingSet : Prop :=
  (∀ s a gen, Takes s a 0x2012 4 → Owns s a →
    (gen = s.dict.gen → Completes (.discard a gen) s fun t =>
      t.dict = { s.dict with pset := [], owner := none, gen := genAfter s.dict.gen } ∧
      t.out = s.out ++ [.usdo a []] ∧ OnlyDict s t) ∧
    (gen ≠ s.dict.gen → Completes (.discard a gen) s fun t =>
      t.dict = s.dict ∧ t.out = s.out ++ [.usdoAbort a 0x2012 4 0x08000020] ∧ OnlyDict s t)) ∧
  (∀ s, s.dict.owner ≠ none → Completes .pendingOwnerTimeout s fun t =>
      t.dict = { s.dict with pset := [], owner := none, gen := genAfter s.dict.gen } ∧
      Raised 0x06 0xFFFF s.dict.gen.toNat s t ∧ OnlyDictEvent s t)

/-- A commit empties the pending set, takes the next generation, applies its now part and leaves the others to await;
they apply at their points. Derived from R37, R41, R45, R46, R47, R49, R55, R57, R64, notes/assumptions/188. -/
def Obligations.CommitTakesPendingSet : Prop :=
  (∀ s a gen (target : Option (BitVec 64)),
    let c : Instr := match target with | none => .commit a gen | some n => .commitAtStep a gen n
    let sub : Nat := if target = none then 1 else 2
    Takes s a 0x2010 sub → commitError a gen (target.map (·.toNat)) s = none →
    (Completes c s fun t => t.dict.pset = [] ∧ t.dict.owner = none ∧ t.dict.gen = genAfter s.dict.gen ∧
      t.dict.lastRes = 0 ∧ t.dict.lastGen = gen ∧ t.mem = s.mem ∧ t.units = s.units) ∧
    (s.dict.pset ≠ [] → (∀ e ∈ s.dict.pset, pointOf e = .step) → (∀ p ∈ s.dict.awaiting, p.point ≠ .now) →
      s.keep.dev ≠ .idle → s.twin.pair ≠ .inStep → spareNamed s = none → target.map (·.toNat) ≠ some s.led.running → s.dict.gen = gen →
      Completes c s fun t =>
        t.dict.vals = s.dict.vals ∧
        t.dict.awaiting = s.dict.awaiting ++ [⟨gen, .step, target.map (·.toNat), s.dict.pset⟩] ∧
        t.out = s.out ++ [.usdo a []] ∧ OnlyDict s t) ∧
    (NoCan s.dict.pset → (∀ p ∈ s.dict.awaiting, p.point ≠ .now) →
      let parts := s.dict.awaiting ++ partsLeft gen (target.map (·.toNat)) s.dict.pset
      (s.keep.dev ≠ .idle → Completes c s fun t =>
        AppliedTo (atPoint .now s.dict.pset) s t ∧ t.dict.awaiting = parts) ∧
      (s.keep.dev = .idle →
        let es := (parts.filter fun p => decide (p.point = .idle)).flatMap (·.entries)
        NoCan es → Completes c s fun t =>
          AppliedTo (atPoint .now s.dict.pset ++ es) s t ∧ t.dict.awaiting = parts.filter fun p => decide (p.point ≠ .idle))) ∧
    (s.dict.pset ≠ [] → (∀ e ∈ s.dict.pset, pointOf e = .now ∧ (e.idx = 0x2020#16 ∨ e.idx = 0x2021#16)) →
      (∀ p ∈ s.dict.awaiting, p.point ≠ .now) → s.keep.dev ≠ .idle → spareNamed s = none → Completes c s fun t =>
        t.out = s.out ++ [.usdo a []] ++ (if ∃ e ∈ s.dict.pset, e.idx = 0x2020#16 then [.heartbeat 0] else []) ∧
        t.dict.awaiting = s.dict.awaiting ∧ (∀ x ∈ t.dict.sessions, x.path ≠ .can) ∧
        ((∀ e ∈ s.dict.pset, e.idx = 0x2021#16) → AppliedTo s.dict.pset s t)) ∧
    (s.dict.pset = [⟨0x2022, BitVec.ofNat 8 (1 + pathNum a.path), [0]⟩] → (∀ p ∈ s.dict.awaiting, p.point ≠ .now) →
      s.keep.dev ≠ .idle → spareNamed s = none → Completes c s fun t =>
        t.out = s.out ∧ ¬ RouteAnswers t a.path ∧ t.dict.awaiting = s.dict.awaiting)) ∧
  (∀ s (h : TpHdr), Fresh s h 4 → s.led.st = .ready →
    s.led.running < 2 ^ 64 →
    let es := (s.dict.awaiting.filter (dueAt (s.led.running + 1))).flatMap (·.entries)
    NoCan es → Completes (.commitMessage h (BitVec.ofNat 64 s.led.running) (attempt s)) s fun t =>
      t.dict.awaiting = s.dict.awaiting.filter (fun p => !dueAt (s.led.running + 1) p) ∧ AppliedTo es s t ∧
      t.stat.tLatch = s.stat.tRun ∧ t.stat.tRun = [] ∧
      (∀ k, (∀ i ∈ [0x3030, 0x3032], k / 256 ≠ i) → k ≠ ekey 0x3811 1 → k ≠ ekey 0x2101 3 → k ≠ ekey 0x3890 1 → k ≠ ekey 0x3890 2 →
        k ≠ ekey 0x3C30 2 → k ≠ ekey 0x3C30 3 → Sparse.get 0 t.stat.latch k = Sparse.get 0 s.stat.run k)) ∧
  (∀ s a, Takes s a 0x2001 1 → mayStart s = true →
    let es := (s.dict.awaiting.filter (dueAt (s.led.committed + 1))).flatMap (·.entries)
    NoCan es → Completes (.startJob a 1) s fun t =>
      t.dict.awaiting = s.dict.awaiting.filter (fun p => !dueAt (s.led.committed + 1) p) ∧ AppliedTo es s t)

/-- What refuses a commit, and what it then leaves. Derived from R44, R45, R46, R47, R49, R51. -/
def Obligations.CommitRefusals : Prop :=
  ∀ s a gen (target : Option (BitVec 64)),
    let c : Instr := match target with | none => .commit a gen | some n => .commitAtStep a gen n
    let sub : Nat := if target = none then 1 else 2
    let refused (code : Nat) : Prop := Completes c s fun t =>
      t.out = s.out ++ [.usdoAbort a 0x2010 sub code] ∧ OnlyDict s t ∧ t.dict.lastRes = BitVec.ofNat 32 code ∧
      t.dict = { s.dict with lastRes := t.dict.lastRes, lastGen := gen, failing := t.dict.failing, conflict := t.dict.conflict }
    Takes s a 0x2010 sub →
    (¬ Owns s a → refused 0x08000022) ∧
    (Owns s a → gen ≠ s.dict.gen → refused 0x08000020) ∧
    (Owns s a → gen = s.dict.gen → s.dict.pset = [] → refused 0x08000022) ∧
    (∀ n, target = some n → Owns s a → gen = s.dict.gen → (∃ e ∈ s.dict.pset, pointOf e = .step) →
      n.toNat ≤ s.led.committed → s.led.committed < s.led.running → refused 0x08000022) ∧
    (∀ n, target = some n → Owns s a → gen = s.dict.gen → s.led.st ≠ .nojob → s.led.st ≠ .lost → n.toNat = s.led.running →
      (∃ e ∈ s.dict.pset, pointOf e = .step ∧ e.idx ≠ 0x2810#16 ∧ e.idx ≠ 0x2811#16) → refused 0x08000022) ∧
    (Owns s a → gen = s.dict.gen → 4 ≤ (gensAwaiting s).length → (∃ e ∈ s.dict.pset, pointOf e ≠ .now) → refused 0x08000022) ∧
    (∀ es, commitError a gen (target.map (·.toNat)) s = some (0x06040043, es) → refused 0x06040043)

/-- Clearing the error field, storing, and restoring defaults. Derived from R57, R58, R61, R63. -/
def Obligations.StoresAndErrorField : Prop :=
  (∀ s a, Takes s a 0x1003 0 → Completes (.errorFieldClear a 0) s fun t =>
    t.dict = { s.dict with errField := [] } ∧ t.out = s.out ++ [.usdo a []] ∧ OnlyDict s t) ∧
  (∀ s a (cls : Fin 3), Takes s a 0x1010 (cls.val + 1) → s.dict.storing = [] →
    Completes (.store a cls 0x65766173#32) s fun t =>
      t.out = s.out ∧ t.dict = { s.dict with storing := t.dict.storing } ∧ OnlyDict s t ∧
      Completes .storeDone t fun v =>
        v.out = s.out ++ [.flashWrite 2, .usdo a []] ∧ v.dict = { s.dict with stored := v.dict.stored } ∧ OnlyStored s v ∧
        ∀ e ∈ storedEntries, inClass cls.val e.1 = true →
          Sparse.get none v.dict.stored (ekey e.1 e.2) = some (valBytes s e.1 e.2)) ∧
  (∀ s a (cls : Fin 3), Takes s a 0x1011 (cls.val + 1) →
    Completes (.restoreDefaults a cls 0x64616F6C#32) s fun t =>
      (∀ k, Sparse.get none t.dict.stored k = if inClass cls.val (k / 256) then none else Sparse.get none s.dict.stored k) ∧
      t.dict = { s.dict with stored := t.dict.stored } ∧ t.out = s.out ++ [.flashWrite 2, .usdo a []] ∧ OnlyStored s t) ∧
  (∀ s x xs, s.dict.storing = x :: xs → ¬ RouteAnswers s x.1.path →
    Completes .storeDone s fun t => t.out = s.out ++ [.flashWrite 2] ∧ t.dict.storing = xs) ∧
  (∀ s a (cls : Fin 3) sig, Takes s a 0x1010 (cls.val + 1) → sig ≠ 0x65766173#32 →
    Completes (.store a cls sig) s fun t =>
      t.dict = s.dict ∧ t.out = s.out ++ [.usdoAbort a 0x1010 (cls.val + 1) 0x08000020] ∧ OnlyDict s t)

/-- A segmented write applies only with its last segment, a segmented read sends the value it took where it began; an
invalid message or a timeout ends a session. Derived from R40, R51, R52, R55, R57, R58, notes/assumptions/165. -/
def Obligations.UsdoSessions : Prop :=
  (∀ s a sid (e : BitVec 16 × Option (BitVec 8)) data, pathServes s a.path = true → findSession s a.path sid = none →
    ((sessionsOf s a.path).length < 8 → Completes (.usdoSegment a sid (.write e.1 e.2) data false) s fun t =>
      t.dict = { s.dict with sessions := s.dict.sessions ++ [⟨a.path, sid, a, e.1, e.2, data, false⟩] } ∧
      t.out = s.out ++ [.usdo a []] ∧ OnlyDict s t) ∧
    (8 ≤ (sessionsOf s a.path).length → Completes (.usdoSegment a sid (.write e.1 e.2) data false) s fun t =>
      t.dict = s.dict ∧ t.out = s.out ++ [.usdoAbort a e.1.toNat ((e.2.map (·.toNat)).getD 0) 0x05040005] ∧ OnlyDict s t)) ∧
  (∀ s a sid x k data, pathServes s a.path = true → findSession s a.path sid = some x → x.read = false → x.sub = some k →
    exec (.usdoSegment a sid .more data true) s =
      exec (.entryWrite x.acc x.idx k (x.data ++ data)) (dropSession a.path sid s)) ∧
  (∀ s a sid (idx : BitVec 16) (vs : List Bytes), pathServes s a.path = true → idxServed s a.path idx.toNat = true →
    findSession s a.path sid = none → (sessionsOf s a.path).length < 8 → indexDefined idx.toNat = true → Owns s a →
    let ps := objectParts s idx.toNat
    let ws := (ps.zip vs).filter fun x => partakes a x.1.2.1 x.1.1 s
    let new := ws.foldl (fun q x => putPending ⟨idx, BitVec.ofNat 8 x.1.1, x.2⟩ q) s.dict.pset
    vs.map List.length = ps.map (fun x => x.2.2) → ws ≠ [] →
    (∀ x ∈ ws, x.1.2.1.acc = .rwst ∧ valueOk s x.1.2.1 x.1.1 x.2 = true) →
    new.length ≤ 256 → (new.map (·.val.length)).sum ≤ 16384 →
    Completes (.usdoSegment a sid (.write idx none) vs.flatten true) s fun t =>
      t.dict = { s.dict with pset := new, owner := some a.src } ∧ t.out = s.out ++ [.usdo a []] ∧ OnlyDict s t) ∧
  (∀ s a sid (idx : BitVec 16) (sub : Option (BitVec 8)) bs data last, pathServes s a.path = true → idxServed s a.path idx.toNat = true →
    findSession s a.path sid = none → (sessionsOf s a.path).length < 8 → readValue s idx.toNat (sub.map (·.toNat)) = .ok bs →
    let n := max 1 (Config.uploadBytes (pathNum a.path))
    Completes (.usdoSegment a sid (.read idx sub) data last) s fun t =>
      t.out = s.out ++ [.usdo a (bs.take n)] ∧ OnlyDict s t ∧
      (bs.length ≤ n → findSession t a.path sid = none) ∧
      (n < bs.length → ∃ x, findSession t a.path sid = some x ∧ x.read = true ∧ x.data = bs.drop n)) ∧
  (∀ s a sid x data last, pathServes s a.path = true → findSession s a.path sid = some x → x.read = true →
    let n := max 1 (Config.uploadBytes (pathNum a.path))
    Completes (.usdoSegment a sid .more data last) s fun t =>
      t.out = s.out ++ [.usdo a (x.data.take n)] ∧ OnlyDict s t ∧
      (x.data.length ≤ n → findSession t a.path sid = none)) ∧
  (∀ s a e sid, pathServes s a.path = true → Completes (.invalidUsdoMessage a (some e) (some sid)) s fun t =>
    t.dict = { s.dict with sessions := s.dict.sessions.filter fun x => !(decide (x.path = a.path) && decide (x.sid = sid)) } ∧
    t.out = s.out ++ [.usdoAbort a e.1.toNat e.2.toNat 0x05040001] ∧ OnlyDict s t) ∧
  (∀ s a, pathServes s a.path = true → Completes (.invalidUsdoMessage a none none) s fun t =>
    t.dict = s.dict ∧ t.out = s.out ++ [.usdoAbort a 0 0 0x05040001] ∧ OnlyDict s t) ∧
  (∀ s r sid x, findSession s r sid = some x → Completes (.usdoSessionTimeout r sid) s fun t =>
    findSession t r sid = none ∧ t.dict = { s.dict with sessions := t.dict.sessions } ∧ OnlyDict s t ∧
    (RouteAnswers s x.acc.path →
      t.out = s.out ++ [.usdoAbort x.acc x.idx.toNat ((x.sub.map (·.toNat)).getD 0) 0x05040000]) ∧
    (¬ RouteAnswers s x.acc.path → t.out = s.out))

namespace Sys2Proof.Claims

/-- A sequencer takes an operation on the physical unit `p` that carries its logical unit: a step is open, the card runs,
and the unit has neither ended its step nor stopped. -/
def MayIssue (s : State) (i : Issue) (p : Nat) : Prop :=
  physUnit s i.unit.val = some p ∧ (s.led.st = .opened ∨ s.led.st = .updating) ∧ s.led.waiting = false ∧
  s.keep.dev = .running ∧ (getUnit s p).ended = false ∧ (getUnit s p).stopped = false

/-- An operation is a whole bundle of its own, which issues on the physical unit `p` (the bundles of several operations:
`BundlesIssueWhole`). -/
def Issues (s : State) (i : Issue) (p : Nat) : Prop := MayIssue s i p ∧ i.last = true ∧ (getUnit s p).slots = []

/-- The unit after a bundle whose operations left it as `u`: its writes become what the next bundle reads, and the next
bundle, or the target of a taken branch, comes (R133, R187). -/
def Finished (u : UnitSt) : UnitSt :=
  { u with hold := none, slots := [], old := u.cur, tap := none, vp1New := 0, branch := none, bundle := u.branch.getD ((u.bundle + 1) % 4096) }

/-- A bundle has issued: its unit is what the effect made of it, every other unit is as before, and
nothing else but statistics of the step and tallies differ. -/
def Issued (s t : State) (p : Nat) (u : UnitSt) : Prop :=
  getUnit t p = Finished u ∧ (∀ q, q ≠ p → getUnit t q = getUnit s q) ∧
  t = { s with units := { s.units with phys := t.units.phys }, stat := { s.stat with run := t.stat.run, tRun := t.stat.tRun } }

/-- A bundle of one operation waits: its unit is as before but for the hold and the bundle, and nothing else differs. -/
def Waits (c : Instr) (s : State) (p : Nat) (h : Hold) : Prop :=
  Completes c s fun t => getUnit t p = { getUnit s p with slots := [c], hold := some h } ∧ (∀ q, q ≠ p → getUnit t q = getUnit s q) ∧
    t = { s with units := { s.units with phys := t.units.phys } }

/-- What a control operation that never waits makes of its unit (R200, R209). -/
def controlEffect : Instr → Option (Issue × (UnitSt → UnitSt))
  | .lset i l v => some (i, fun u => { u with l := Sparse.set 0 u.l l.val v })
  | .ladd i l v => some (i, fun u => { u with l := Sparse.set 0 u.l l.val (Sparse.get 0 u.l l.val + v) })
  | .iset i r v => some (i, fun u => if r = 0 then u else { u with i := Sparse.set 0 u.i r.val v })
  | .iaddi i r v => some (i, fun u => if r = 0 then u else { u with i := Sparse.set 0 u.i r.val (Sparse.get 0 u.i r.val + v) })
  | .ixor i r v => some (i, fun u => if r = 0 then u else { u with i := Sparse.set 0 u.i r.val (Sparse.get 0 u.i r.val ^^^ v) })
  | .hset i h rix => some (i, fun u => { u with h := Sparse.set 0 u.h h.val ((Sparse.get 0 u.recs rix.toNat).setWidth 64) })
  | .br i target => some (i, fun u => { u with branch := some target.toNat })
  | .bcnz i l target => some (i, fun u =>
      { u with l := Sparse.set 0 u.l l.val (Sparse.get 0 u.l l.val - 1),
               branch := if Sparse.get 0 u.l l.val = 1 then u.branch else some target.toNat })
  | .nap i array vec _ => some (i, fun u =>
      let lost (e : Eng) : Eng := { e with v := [], k := [], acc := [], ext := [] }
      let u := if array then { u with napArr := true, arrays := [] } else u
      if vec then { u with napVec := true, old := lost u.old, cur := lost u.cur, vtag := 0xFFFF } else u)
  | .wake i array vec => some (i, fun u => { u with napArr := u.napArr && !array, napVec := u.napVec && !vec })
  | .quiet i => some (i, id)
  | .anop i => some (i, id)
  | _ => none

/-- Whether a branch condition holds on a unit (R201): none while its chamber is not FULL. -/
def branchOn (u : UnitSt) : Cond → Option Bool
  | .always => some true
  | .lZero n => some (decide (Sparse.get 0 u.l n.val = 0))
  | .iZero n => some (decide (n = 0) || decide (Sparse.get 0 u.i n.val = 0))
  | .saturated => some u.fSat
  | .nonFinite => some u.fNonfin
  | .underflow => some u.fUnder
  | .chEnd k => if (getCh u k.val).full then some (getCh u k.val).isEnd else none
  | .chFault k => if (getCh u k.val).full then some (getCh u k.val).fault else none

/-- The operation of a bundle that a command gives, with its unit and whether it is the bundle's last. -/
def bundleOp (c : Instr) : Option Issue :=
  match c with
  | .ald i _ _ | .abc i _ _ | .aps i _ _ | .adr i _ _ | .afl i _ _ | .anop i => some i
  | .fadd i _ _ | .fsub i _ _ | .fmul i _ _ | .fma i _ _ | .fneg i _ _ | .fabs i _ _ | .fcps i _ _ | .fmax i _ _ | .fmin i _ _
  | .fcmp i _ _ | .sel i _ _ | .mov i _ _ | .iadd i _ _ | .isub i _ _ | .imul i _ _ | .shl i _ _ | .shr i _ _ | .sar i _ _
  | .and i _ _ | .or i _ _ | .xor i _ _ | .imax i _ _ | .imin i _ _ | .icmp i _ _ | .cvt i _ _ | .exp2 i _ _ | .log2 i _ _
  | .rcp i _ _ | .rsqrt i _ _ | .div i _ _ | .sqrt i _ _ | .kand i _ _ | .kor i _ _ | .kxor i _ _ | .knot i _ _ | .kset i _ _
  | .kidx i _ _ | .vtag i _ _ => some i
  | .rsum i _ _ | .rssum i _ _ | .rmax i _ _ | .rmin i _ _ | .rarg i _ _ | .rsmax i _ _ | .rsmin i _ _ | .rsarg i _ _
  | .raddraw i _ _ | .rrd i _ _ | .rclr i _ _ | .rtag i _ _ => some i
  | .sarm i _ _ | .srearm i _ _ _ _ | .sstop i _ | .swait i _ | .cmark i _ _ | .crel i _ _ => some i
  | .garr i _ | .gwait i _ | .gsync i _ | .lset i _ _ | .ladd i _ _ | .iset i _ _ | .iaddi i _ _ | .ixor i _ _ | .ilen i _ _
  | .hset i _ _ | .br i _ | .bcnz i _ _ | .bcond i _ _ _ | .srecv i _ _ | .ssend i _ _ | .bwait i | .nap i _ _ _ | .wake i _ _
  | .quiet i | .stepend i _ => some i
  | _ => none

/-- What a message to a logical card puts out: one lane-0 flit on the ports of the route, if a card carries that ID (R330). -/
def towardCard (s : State) (l : Nat) (m : TpMsg) : List Out :=
  match cardOf s l with
  | none => []
  | some c => [.towpath { ports := hopPorts s c none, dst := some c, src := cardId s, msgid := s.fab.msgid } m]

/-- A command is a fault of physical unit `p` (R22, R204, R368): the unit is stopped and no longer held, its retirement with
condition 4 is owed, once, a sequencer fault is recorded in 0x3892, and while a step is open an abort report with cause 5 goes to
the coordinator; nothing else differs but counts. -/
def Faulted (c : Instr) (s : State) (p cause : Nat) : Prop :=
  Completes c s fun t =>
    getUnit t p = { getUnit s p with stopped := true, hold := none } ∧ (∀ q, q ≠ p → getUnit t q = getUnit s q) ∧
    ((∀ x ∈ s.units.owed, x.1 ≠ p) → t.units.owed = s.units.owed ++ [(p, 4)]) ∧
    ((∃ x ∈ s.units.owed, x.1 = p) → t.units.owed = s.units.owed) ∧
    t = { s with units := { s.units with phys := t.units.phys, owed := t.units.owed }, stat := t.stat, out := t.out,
                 fab := { s.fab with msgid := t.fab.msgid } } ∧
    (cause ≠ 0 → t.stat.faultStep = stepNow s ∧ t.stat.faultUnit = p ∧ t.stat.faultAddr = (getUnit s p).bundle ∧
      t.stat.faultCause = cause) ∧
    ((s.led.st = .opened ∨ s.led.st = .updating ∨ s.led.st = .ready) → t.out = s.out ++ towardCard s (coordinator s)
      (.abortRep s.led.running (attempt s) 5 ((myLogical s).getD 0xFFFF) 0xFFFF false)) ∧
    (s.led.st ≠ .opened → s.led.st ≠ .updating → s.led.st ≠ .ready → t.out = s.out)

/-- `t` is `u` with one message to a logical card: its flit, counted on its ports, and the next MSGID (R330, R332). -/
def Told (u t : State) (l : Nat) (m : TpMsg) : Prop :=
  t = { u with out := u.out ++ towardCard u l m, fab := { u.fab with msgid := t.fab.msgid }, stat := { u.stat with run := t.stat.run } }

/-- What a message to each of a list of logical cards puts out, their MSGIDs in order. -/
def towardEach (s : State) (ls : List Nat) (m : TpMsg) : List Out :=
  ls.zipIdx.flatMap fun li => towardCard { s with fab := { s.fab with
    msgid := if li.2 = 0 then s.fab.msgid else (s.fab.msgid + li.2) % 65536 } } li.1 m

/-- `t` is `u` with one message to every working card. -/
def ToldAll (u t : State) (m : TpMsg) : Prop :=
  t = { u with out := u.out ++ towardEach u (liveCards u) m, fab := { u.fab with msgid := t.fab.msgid },
               stat := { u.stat with run := t.stat.run } }

/-- A message to the cards at the other end of every port in service. -/
def toNeighbours (s : State) (m : TpMsg) : Out :=
  .towpath { ports := (List.range 20).filter (portUp s), dst := none, src := cardId s, msgid := s.fab.msgid } m

end Sys2Proof.Claims

/-- LSET, LADD, ISET, IADDI, IXOR, HSET, BR, BCNZ, NAP, WAKE, QUIET and ANOP complete with the effect of the table, on
their unit alone. Derived from R133, R187, R200, R208, R209. -/
def Obligations.ControlOperations : Prop :=
  ∀ c i f s p, controlEffect c = some (i, f) → Issues s i p →
    Completes c s fun t => Issued s t p (f (getUnit s p))

/-- The operations of a bundle issue together, in slot order, with the last of them, or the bundle is held; a control
operation acts on what the others have left. Derived from R133, R186, R187, R189, R202. -/
def Obligations.BundlesIssueWhole : Prop :=
  (∀ c o s (i : Issue) p, bundleOp c = some i → slotOp (getUnit s p) c = some o → MayIssue s i p → i.last = false → Completes c s fun t =>
    getUnit t p = { getUnit s p with slots := placeOp c (getUnit s p).slots } ∧ (∀ q, q ≠ p → getUnit t q = getUnit s q) ∧
    t = { s with units := { s.units with phys := t.units.phys } }) ∧
  (∀ c o s (i : Issue) p, bundleOp c = some i → slotOp (getUnit s p) c = some o → MayIssue s i p → i.last = true →
    let u0 := getUnit s p
    let cs := placeOp c (getUnit s p).slots
    (∀ v, runSlots u0 p cs s = .ok v → Completes c s fun t => Issued v t p (getUnit v p)) ∧
    (∀ h, runSlots u0 p cs s = .wait h → Completes c s fun t => (∃ h, getUnit t p = { getUnit s p with slots := cs, hold := some h }) ∧
      (∀ q, q ≠ p → getUnit t q = getUnit s q) ∧ t = { s with units := { s.units with phys := t.units.phys } }) ∧
    (∀ k, runSlots u0 p cs s = .fault k → Completes c s fun t => t = unitFaultAt p k s)) ∧
  (∀ c f s (i : Issue) p v, controlEffect c = some (i, f) → (∃ o, slotOp (getUnit s p) c = some o ∧ o.slot = 4) → MayIssue s i p → i.last = true →
    (∀ d ∈ (getUnit s p).slots, ∃ o, slotOp (getUnit s p) d = some o ∧ o.slot < 4) → runSlots (getUnit s p) p (getUnit s p).slots s = .ok v →
    Completes c s fun t => Issued v t p (f (getUnit v p))) ∧
  (∀ c s i, bundleOp c = some i → (∀ p, ¬ MayIssue s i p) → exec c s = .next s)

/-- ILEN, BCOND, SRECV, SSEND, BWAIT and STEPEND complete when what they wait for is there, and else only hold their
unit. Derived from R92, R133, R150, R161, R188, R200, R201. -/
def Obligations.ControlWaits : Prop :=
  (∀ s i p (r : Fin 8) (ch : Fin 64), Issues s i p → let u := getUnit s p
    ((getCh u ch.val).full = true → Completes (.ilen i r ch) s fun t => Issued s t p
      (if r = 0 then u else { u with i := Sparse.set 0 u.i r.val (BitVec.ofNat 32 (getCh u ch.val).len) })) ∧
    ((getCh u ch.val).full = false → Waits (.ilen i r ch) s p .notReady)) ∧
  (∀ s i p c (target : BitVec 12) (inv b : Bool), Issues s i p → let u := getUnit s p
    (branchOn u c = some b → Completes (.bcond i c target inv) s fun t => Issued s t p
      (if b = inv then u else { u with branch := some target.toNat })) ∧
    (branchOn u c = none → Waits (.bcond i c target inv) s p .notReady)) ∧
  (∀ s i p (core : Fin 4) (n : Fin 16) (r : Fin 8) v vs, Issues s i p →
    let s0 := drainOut p core.val 16 s
    let u := getUnit s0 p
    let k := getCore u core.val
    let u' : UnitSt := { u with cores := Sparse.set {} u.cores core.val { k with outbox := vs } }
    let rest (x : UnitSt) : UnitSt := getUnit (drainOut p core.val 16 (setUnit p x s0)) p
    k.outbox = v :: vs → v.msb = false →
    (Completes (.srecv i core (.l n)) s fun t => Issued s0 t p (rest { u' with l := Sparse.set 0 u.l n.val (v.setWidth 32) })) ∧
    (Completes (.srecv i core (.i r)) s fun t => Issued s0 t p
      (rest (if r = 0 then u' else { u' with i := Sparse.set 0 u.i r.val (v.setWidth 32) }))) ∧
    (Completes (.srecv i core (.h r)) s fun t => Issued s0 t p (rest { u' with h := Sparse.set 0 u.h r.val v })) ∧
    (∀ x, vs = [] ∨ (∃ w ws, vs = w :: ws ∧ w.msb = false) → getCore x core.val = { k with outbox := vs } → rest x = x)) ∧
  (∀ s p (core : Fin 4), let b := Sparse.get {} (getUnit s p).batch (getUnit s p).bopen
    ((getCore (getUnit s p) core.val).outbox = [] ∨
      (∃ v vs, (getCore (getUnit s p) core.val).outbox = v :: vs ∧ (v.msb = false ∨ b.closed = true))) →
    drainOut p core.val 16 s = s) ∧
  (∀ s i p (core : Fin 4) r, Issues s i p →
    let s0 := drainOut p core.val 16 s
    ((getCore (getUnit s0 p) core.val).outbox = [] ∨ ∃ v vs, (getCore (getUnit s0 p) core.val).outbox = v :: vs ∧ v.msb = true) →
    Waits (.srecv i core r) s p .notReady) ∧
  (∀ s i p (core : Fin 4) r, Issues s i p →
    let u := getUnit s p
    let k := getCore u core.val
    (k.inbox.length < 16 → Completes (.ssend i core r) s fun t => Issued s t p
      { u with cores := Sparse.set {} u.cores core.val { k with inbox := k.inbox ++ [getCtl u r] } }) ∧
    (16 ≤ k.inbox.length → Waits (.ssend i core r) s p .notReady)) ∧
  (∀ s i p, Issues s i p →
    ((closedBuf (getUnit s p)).isSome → Completes (.bwait i) s fun t => Issued s t p (getUnit s p)) ∧
    (closedBuf (getUnit s p) = none → Waits (.bwait i) s p .batch)) ∧
  (∀ s i p tm, Issues s i p →
    ((∀ kc ∈ (getUnit s p).ctxs, kc.2.st = .idle ∨ kc.2.st = .parked) →
      Completes (.stepend i tm) s fun t =>
        Issued { s with stat := { s.stat with boot := t.stat.boot } } t p { getUnit s p with ended := true }) ∧
    ((∃ kc ∈ (getUnit s p).ctxs, kc.2.st ≠ .idle ∧ kc.2.st ≠ .parked) → Waits (.stepend i tm) s p .notReady))

/-- GARR counts an arrival and opens the gate with the last one; GWAIT and GSYNC pass when the gate has opened for
them. Derived from R205, R206. -/
def Obligations.GateArrivalsOfUnits : Prop :=
  ∀ s i p (g : Fin 1024), Issues s i p →
    let u := getUnit s p
    let d := gateDef u g.val
    let k := gateKey i.unit.val d
    let x := getGate s k
    let arrived : BitVec 64 := x.arrived ||| BitVec.ofNat 64 (1 <<< i.unit.val)
    let all : Bool := decide (d.members &&& arrived = d.members)
    let after (t : State) : Prop :=
      (getGate t k).count i.unit.val = x.count i.unit.val + 1 ∧
      (getGate t k).phase = (if all then x.phase + 1 else x.phase) ∧ (getGate t k).arrived = (if all then 0 else arrived) ∧
      (∀ j, j ≠ k → getGate t j = getGate s j) ∧ (d.scope < 3 → t.mem = s.mem ∧ t.led = s.led ∧ t.out = s.out) ∧
      t.plan = s.plan
    (d.scope ≤ 3 → x.has i.unit.val = false → Completes (.garr i g) s fun t => after t ∧ getUnit t p = Finished u) ∧
    (d.scope = 4 → x.has i.unit.val = false → Completes (.garr i g) s fun t => t =
      (let v := setGate k { x with arrived := arrived, counts := Sparse.modify 0 x.counts i.unit.val (· + 1) } s
       finishBundle p (if all then systemGate d.home d.num v else v))) ∧
    (x.has i.unit.val = true → Waits (.garr i g) s p (.gate g.val)) ∧
    (x.phase = x.count i.unit.val → Completes (.gwait i g) s fun t => Issued s t p u) ∧
    (x.phase ≠ x.count i.unit.val → Waits (.gwait i g) s p (.gate g.val)) ∧
    (d.scope ≤ 3 → x.has i.unit.val = false → u.hold ≠ some (.sync g.val) → all = true →
      x.phase = x.count i.unit.val → Completes (.gsync i g) s fun t => after t ∧ getUnit t p = Finished u) ∧
    (d.scope ≤ 3 → x.has i.unit.val = false → u.hold ≠ some (.sync g.val) → all = false →
      x.phase ≠ x.count i.unit.val + 1 → Completes (.gsync i g) s fun t => after t ∧
        getUnit t p = { u with slots := [.gsync i g], hold := some (.sync g.val) }) ∧
    (x.has i.unit.val = true → u.hold ≠ some (.sync g.val) → Waits (.gsync i g) s p (.gate g.val)) ∧
    (u.hold = some (.sync g.val) → x.phase = x.count i.unit.val → Completes (.gsync i g) s fun t => Issued s t p u)

/-- The watchdogs and a fault stop their unit, owe its retirement to the next boundary and report cause 5. Derived
from R22, R92, R204, R336, R368. -/
def Obligations.UnitFaults : Prop :=
  (∀ s (l : Fin 64) p, physUnit s l.val = some p → s.keep.dev ≠ .halted →
    ((getUnit s p).hold = some .notReady ∨ ∃ n, (getUnit s p).hold = some (.port n)) →
    Faulted (.sequencerWatchdog l) s p 1) ∧
  (∀ s (l : Fin 64), (s.keep.dev = .halted ∨ physUnit s l.val = none) →
    exec (.sequencerWatchdog l) s = .next s ∧ exec (.gateLimitExpiry l) s = .next s) ∧
  (∀ s (l : Fin 64) p, physUnit s l.val = some p →
    ((getUnit s p).hold = none ∨ (∃ g, (getUnit s p).hold = some (.gate g)) ∨ (∃ g, (getUnit s p).hold = some (.sync g))) →
    exec (.sequencerWatchdog l) s = .next s) ∧
  (∀ s (l : Fin 64), num s 0x3888 2 = 0 → exec (.gateLimitExpiry l) s = .next s) ∧
  (∀ s (l : Fin 64) p, physUnit s l.val = some p → s.keep.dev ≠ .halted → (getUnit s p).hold = some .batch →
    let b := Sparse.get {} (getUnit s p).batch (getUnit s p).bopen
    (b.rows ≠ [] → Faulted (.sequencerWatchdog l) s p 1) ∧ (b.rows = [] → exec (.sequencerWatchdog l) s = .next s)) ∧
  (∀ s (l : Fin 64) p g, physUnit s l.val = some p → s.keep.dev ≠ .halted → num s 0x3888 2 ≠ 0 →
    ((getUnit s p).hold = some (.gate g) ∨ (getUnit s p).hold = some (.sync g)) →
    Faulted (.gateLimitExpiry l) s p 3) ∧
  (∀ s (p : Fin 72) kind, logicalUnit s p.val < 64 → Faulted (.unitFault p kind) s p.val (if kind = .sequencerEcc then 4 else 0))

namespace Sys2Proof.Claims

/-- What an element-wise vector instruction computes: how many sources, which formats, and the result of one element from
its source codes, given how it rounds. -/
structure ElemOp where
  ar    : Nat
  inF   : VRec → Nat
  outF  : VRec → Nat
  valid : VRec → Bool
  f     : VRec → Rnd → List Nat → Nat × Tally

/-- The source values of a floating operation. -/
def srcVals (r : VRec) (cs : List Nat) : List Machine.Num := cs.map fun c => elemVal r.inF c 127

/-- An exact result rounded once into the output format (R134). -/
def rounded (r : VRec) (rnd : Rnd) (x : Machine.Num × Tally) : Nat × Tally :=
  let c := if r.outF = 0 then fp32.convert .rne false x.1 else convertPlain r.outF rnd r.sat x.1
  (c.1, x.2.add c.2)

/-- A floating operation of R134: fp32, bf16 or fp16 in and out. -/
def floatOp (ar : Nat) (f : List Machine.Num → Machine.Num × Tally) : ElemOp :=
  ⟨ar, VRec.inF, VRec.outF, fun r => vecFmt r.inF && vecFmt r.outF, fun r rnd cs => rounded r rnd (f (srcVals r cs))⟩

/-- A transcendental function of fp32, rounded again for a packed output (R135). -/
def transOp (f : Machine.Num → Nat × Tally) : ElemOp :=
  ⟨1, VRec.inF, VRec.outF, fun r => vecFmt r.inF && vecFmt r.outF, fun r rnd cs =>
    let y := f (elemVal r.inF (cs.getD 0 0) 127)
    if r.outF = 0 then y
    else
      let c := convertPlain r.outF rnd r.sat (fp32.decode y.1)
      (c.1, y.2.add c.2)⟩

/-- A 32-bit integer operation (R134). -/
def intOp (f : W32 → W32 → W32) : ElemOp :=
  ⟨2, fun _ => 12, fun _ => 12, fun _ => true, fun _ _ cs =>
    ((f (BitVec.ofNat 32 (cs.getD 0 0)) (BitVec.ofNat 32 (cs.getD 1 0))).toNat, {})⟩

/-- A shift: by 32 or more the result is free (the spec states none). -/
def shiftOp (op : Nat) (f : W32 → Nat → W32) : ElemOp :=
  intOp fun a b => if b.toNat < 32 then f a b.toNat else Config.shiftBeyond op a b

/-- The element-wise vector instructions (R134). -/
def elemOp : Instr → Option (Issue × BitVec 11 × Fin 8 × ElemOp)
  | .fadd i r x => some (i, r, x, floatOp 2 fun v => countInvalid v ((numAt v 0).add (numAt v 1)))
  | .fsub i r x => some (i, r, x, floatOp 2 fun v => countInvalid v ((numAt v 0).add (numAt v 1).neg))
  | .fmul i r x => some (i, r, x, floatOp 2 fun v => countInvalid v ((numAt v 0).mul (numAt v 1)))
  | .fma i r x => some (i, r, x, floatOp 3 fun v => countInvalid v (((numAt v 0).mul (numAt v 1)).add (numAt v 2)))
  | .fneg i r x => some (i, r, x, floatOp 1 fun v => ((numAt v 0).neg, {}))
  | .fabs i r x => some (i, r, x, floatOp 1 fun v => ((numAt v 0).abs, {}))
  | .fcps i r x => some (i, r, x, ⟨2, VRec.inF, VRec.outF, fun r => vecFmt r.inF && vecFmt r.outF,
      fun r rnd cs => rounded r rnd (copySign r.inF cs, {})⟩)
  | .fmax i r x => some (i, r, x, floatOp 2 fun v =>
      (if (numAt v 0).isNan || (numAt v 1).isNan then .nan
       else if (numAt v 0).aboveEq (numAt v 1) then numAt v 0 else numAt v 1, {}))
  | .fmin i r x => some (i, r, x, floatOp 2 fun v =>
      (if (numAt v 0).isNan || (numAt v 1).isNan then .nan
       else if (numAt v 0).aboveEq (numAt v 1) then numAt v 1 else numAt v 0, {}))
  | .div i r x => some (i, r, x, floatOp 2 fun v => divNum (numAt v 0) (numAt v 1))
  | .sqrt i r x => some (i, r, x, floatOp 1 fun v => sqrtNum (numAt v 0))
  | .exp2 i r x => some (i, r, x, transOp exp2Code)
  | .log2 i r x => some (i, r, x, transOp log2Code)
  | .rcp i r x => some (i, r, x, transOp rcpCode)
  | .rsqrt i r x => some (i, r, x, transOp rsqrtCode)
  | .iadd i r x => some (i, r, x, intOp fun a b => a + b)
  | .isub i r x => some (i, r, x, intOp fun a b => a - b)
  | .imul i r x => some (i, r, x, intOp fun a b => a * b)
  | .and i r x => some (i, r, x, intOp fun a b => a &&& b)
  | .or i r x => some (i, r, x, intOp fun a b => a ||| b)
  | .xor i r x => some (i, r, x, intOp fun a b => a ^^^ b)
  | .imax i r x => some (i, r, x, intOp fun a b => if a.toInt < b.toInt then b else a)
  | .imin i r x => some (i, r, x, intOp fun a b => if a.toInt < b.toInt then a else b)
  | .shl i r x => some (i, r, x, shiftOp 0 fun a n => a <<< n)
  | .shr i r x => some (i, r, x, shiftOp 1 fun a n => a >>> n)
  | .sar i r x => some (i, r, x, shiftOp 2 fun a n => a.sshiftRight n)
  | _ => none

/-- What a unit becomes behind a vector or reduction instruction that names a mailbox: entries for the batcher that then stand at
the front of its mailboxes enter the batcher while it has room (R150). -/
def Drained (s : State) (p : Nat) (w : List Nat) (u : UnitSt) : UnitSt :=
  if (w.take 4).any (fun x => decide (x % 16 = 8)) then getUnit (drainAll p (setUnit p u s)) p else u

/-- A vector instruction is ready: its unit may issue it, its record is valid, the domain is awake. -/
def VecReady (s : State) (i : Issue) (rix : BitVec 11) (isel : Fin 8) (p : Nat) (w : List Nat) (r : VRec) : Prop :=
  Issues s i p ∧ recWords (getUnit s p) rix.toNat isel.val = some w ∧ vrec w = some r ∧ (getUnit s p).napVec = false

/-- The code and participation of every element: an element takes part where its mask bit is set (R131). -/
def results (op : ElemOp) (r : VRec) (s : State) (u : UnitSt) (ess : List (List (Nat × Nat))) : List ((Nat × Tally) × Bool) :=
  (List.range r.n).map fun e =>
    if maskBit u.old r.k e then
      (op.f r (rndOf s r.stoch u.vtag.toNat (r.idx e)) (ess.map fun es => (es.getD e (0, 127)).1), true)
    else ((0, {}), false)

/-- The counts of a list of results. -/
def tallyOf (rs : List ((Nat × Tally) × Bool)) : Tally := rs.foldl (fun t x => t.add x.1.2) {}

/-- A mask instruction's new masks: under its own mask, the others kept, or cleared under zero (R131); k0 is never
written. -/
def MasksWritten (r : VRec) (k : Nat) (vals : Nat → Bool) (u v : UnitSt) : Prop :=
  (∀ j e, e < 16384 → maskBit v.cur j e = if j = k ∧ k ≠ 0 ∧ e < r.n then
      (if maskBit u.old r.k e then vals e else if r.zero then false else maskBit u.cur k e) else maskBit u.cur j e) ∧
  v = { u with cur := { u.cur with k := v.cur.k } }

end Sys2Proof.Claims

/-- Every element-wise vector instruction writes, to the elements that take part, the result of its operation on its
sources, with its tally. Derived from R122, R128, R129, R130, R131, R134, R135, R150, R193, R197. -/
def Obligations.VectorElementwise : Prop :=
  ∀ c i rix isel op s p w r u1 ess d u2, elemOp c = some (i, rix, isel, op) → VecReady s i rix isel p w r →
    op.valid r = true →
    fetchAll (op.inF r) r.n r.w5 ((List.range op.ar).map fun k => decodeOw (wd w (k + 1))) (getUnit s p) = .ok u1 ess →
    decodeOw (wd w 0) = some d →
    let rs := results op r s u1 ess
    storeElems u1 .vector d r.zero ⟨op.outF r, rs.map fun x => (x.1.1, x.2), []⟩ = .ok u2 () →
    Completes c s fun t => ∃ cycles, Issued s t p (Drained s p w (UnitSt.flag { u2 with
        tap := some { fmt := op.outF r, elems := rs.map fun x => (BitVec.ofNat 32 x.1.1, x.2), cycles := cycles } } (tallyOf rs)))

/-- Integer vector instructions on registers: each lane wraps at 32 bits, masked-off lanes keep their words, other
registers are unchanged. Derived from R128, R131, R133, R134. -/
def Obligations.VectorIntegerRegisters : Prop :=
  ∀ c i rix isel op s p w r a b d, elemOp c = some (i, rix, isel, op) → VecReady s i rix isel p w r → op.ar = 2 →
    (∀ r, op.inF r = 12) →
    decodeOw (wd w 0) = some (.reg d) → decodeOw (wd w 1) = some (.reg a) → decodeOw (wd w 2) = some (.reg b) →
    a * 512 + r.n ≤ 32 * 512 → b * 512 + r.n ≤ 32 * 512 → d * 512 + r.n ≤ 32 * 512 →
    let u := getUnit s p
    let lane (e : Eng) (v x : Nat) : W32 := Sparse.get 0 e.v (v * 512 + x)
    Completes c s fun t => ∃ v, getUnit t p = Finished v ∧
      (∀ e < r.n, lane v.cur d e =
        if maskBit u.old r.k e then BitVec.ofNat 32 (op.f r .rne [(lane u.old a e).toNat, (lane u.old b e).toNat]).1
        else if r.zero then 0 else lane u.cur d e) ∧
      (∀ x, (x < d * 512 ∨ d * 512 + r.n ≤ x) → Sparse.get 0 v.cur.v x = Sparse.get 0 u.cur.v x) ∧
      v.cur = { u.cur with v := v.cur.v } ∧ v.old = u.old

/-- FCMP, ICMP, KAND, KOR, KXOR, KNOT, KSET and KIDX write mask registers under their own mask; k0 is never written.
Derived from R100, R131, R134, R197. -/
def Obligations.VectorMaskWriters : Prop :=
  (∀ s i rix isel p w r k u1 ess (int : Bool), VecReady s i rix isel p w r → r.cmp ≤ 4 → decodeOw (wd w 0) = some (.mask k) →
    (int = false → vecFmt r.inF = true) →
    let f := if int then 12 else r.inF
    let c : Instr := if int then .icmp i rix isel else .fcmp i rix isel
    fetchAll f r.n r.w5 [decodeOw (wd w 1), decodeOw (wd w 2)] (getUnit s p) = .ok u1 ess →
    let val (j e : Nat) : Machine.Num := elemVal f (((ess.getD j []).getD e (0, 127)).1) 127
    Completes c s fun t => ∃ v, Issued s t p (Drained s p w v) ∧ MasksWritten r k (fun e => compareNum r.cmp (val 0 e) (val 1 e)) u1 v) ∧
  (∀ s i rix isel p w r k a b, VecReady s i rix isel p w r → decodeOw (wd w 0) = some (.mask k) →
    decodeOw (wd w 1) = some (.mask a) → decodeOw (wd w 2) = some (.mask b) →
    let u := getUnit s p
    let ma := maskBit u.old a
    let mb := maskBit u.old b
    (Completes (.kand i rix isel) s fun t => ∃ v, Issued s t p (Drained s p w v) ∧ MasksWritten r k (fun e => ma e && mb e) u v) ∧
    (Completes (.kor i rix isel) s fun t => ∃ v, Issued s t p (Drained s p w v) ∧ MasksWritten r k (fun e => ma e || mb e) u v) ∧
    (Completes (.kxor i rix isel) s fun t => ∃ v, Issued s t p (Drained s p w v) ∧ MasksWritten r k (fun e => ma e != mb e) u v) ∧
    (Completes (.knot i rix isel) s fun t => ∃ v, Issued s t p (Drained s p w v) ∧ MasksWritten r k (fun e => !ma e) u v) ∧
    (Completes (.kset i rix isel) s fun t => ∃ v, Issued s t p (Drained s p w v) ∧ MasksWritten r k (fun _ => true) u v)) ∧
  (∀ s i rix isel p w r k u1 es, VecReady s i rix isel p w r → decodeOw (wd w 0) = some (.mask k) →
    fetchAll 12 r.n r.w5 [decodeOw (wd w 1)] (getUnit s p) = .ok u1 [es] →
    let width := r.w5 % 2 ^ 14 + 1
    Completes (.kidx i rix isel) s fun t => ∃ v, Issued s t p (Drained s p w v) ∧ v = { u1 with cur := { u1.cur with k := v.cur.k } } ∧
      ∀ j b, b < 16384 → maskBit v.cur j b = (maskBit u1.cur j b && !(decide (j = k) && decide (k ≠ 0) && decide (b < 16384) &&
        (List.range r.n).any fun e =>
          maskBit u1.old r.k e && decide ((es.getD e (0, 127)).1 < width) && decide (e * width + (es.getD e (0, 127)).1 = b))))

/-- MOV and SEL store codes unchanged, CVT converts and tallies, VTAG sets the vector tag. Derived from R106, R131,
R134, R137, notes/assumptions/8. -/
def Obligations.VectorMoves : Prop :=
  (∀ s i rix isel p w r u1 es d u2, VecReady s i rix isel p w r → fmtWidth r.inF ≠ 0 → r.inF ≠ 13 →
    fetchAll r.inF r.n r.w5 [decodeOw (wd w 1)] (getUnit s p) = .ok u1 [es] → decodeOw (wd w 0) = some d →
    let codes := es.zipIdx.map fun x => (x.1.1, maskBit u1.old r.k x.2)
    let scales := if isMx r.inF then (List.range (cdiv r.n 32)).map fun b => (es.getD (32 * b) (0, 127)).2 else []
    storeElems u1 .vector d r.zero ⟨r.inF, codes, scales⟩ = .ok u2 () →
    Completes (.mov i rix isel) s fun t => ∃ tap, Issued s t p (Drained s p w { u2 with tap := some tap })) ∧
  (∀ s i rix isel p w r u1 ea eb d u2, VecReady s i rix isel p w r → fmtWidth r.inF ≠ 0 → r.inF < 13 → isMx r.inF = false →
    fetchAll r.inF r.n r.w5 [decodeOw (wd w 1), decodeOw (wd w 2)] (getUnit s p) = .ok u1 [ea, eb] →
    decodeOw (wd w 0) = some d →
    let m : Option Nat := match decodeOw (wd w 3) with | some (.mask k) => some k | _ => none
    let codes := (List.range r.n).map fun e =>
      ((if maskBit u1.old (m.getD r.k) e then (ea.getD e (0, 127)).1 else (eb.getD e (0, 127)).1),
       m.isNone || maskBit u1.old r.k e)
    storeElems u1 .vector d r.zero ⟨r.inF, codes, []⟩ = .ok u2 () →
    Completes (.sel i rix isel) s fun t => ∃ tap, Issued s t p (Drained s p w { u2 with tap := some tap })) ∧
  (∀ s i rix isel p w r u1 es d u2, VecReady s i rix isel p w r → r.inF < 13 → r.outF < 13 →
    fetchAll r.inF r.n r.w5 [decodeOw (wd w 1)] (getUnit s p) = .ok u1 [es] → decodeOw (wd w 0) = some d →
    let xs : List ConvIn := es.zipIdx.map fun x =>
      { val := if maskBit u1.old r.k x.2 then elemVal r.inF x.1.1 x.1.2 else Machine.Num.fin false 0 0,
        rnd := rndOf s r.stoch u1.vtag.toNat (r.idx x.2), idx := r.idx x.2, on := maskBit u1.old r.k x.2 }
    let cv := (convElems r.outF u1.vtag.toNat r.sat false xs s).2
    storeElems u1 .vector d r.zero ⟨r.outF, cv.codes.zipIdx.map fun x => (x.1, maskBit u1.old r.k x.2), cv.scales⟩ = .ok u2 () →
    Completes (.cvt i rix isel) s fun t => ∃ tap, Issued s t p (Drained s p w (UnitSt.flag { u2 with tap := some tap } cv.tally))) ∧
  (∀ s i rix isel p w, Issues s i p → recWords (getUnit s p) rix.toNat isel.val = some w → (getUnit s p).napVec = false →
    Completes (.vtag i rix isel) s fun t => Issued s t p (Drained s p w { getUnit s p with vtag := BitVec.ofNat 16 (wd w 5) }))

namespace Sys2Proof.Claims

/-- The two words of a record that name a mask register. -/
def namesMask (w : List Nat) (k : Nat) : Prop := ∃ m, decodeOw (wd w k) = some (.mask m)

/-- The operations of the array, vector and reduction slots that have a record. The number is the group that one belongs to: 0
array, 1 vector, 2 reduction, 3 VTAG, which has none of the vector record's fields. The proposition says that its words name an
operation: formats, arrays and operands that it has, no reserved bit set. -/
def recorded (c : Instr) : Option (Issue × BitVec 11 × Fin 8 × Nat × (State → UnitSt → List Nat → Prop)) :=
  let vec (ok : VRec → List Nat → Prop) : Nat × (State → UnitSt → List Nat → Prop) := (1, fun _ _ w => ∃ r, vrec w = some r ∧ ok r w)
  let red (ok : RRec → List Nat → Prop) : Nat × (State → UnitSt → List Nat → Prop) := (2, fun _ _ w => ∃ r, rrec w = some r ∧ ok r w)
  match c with
  | .ald i r x => some (i, r, x, 0, fun s _ w => pairClass (bits (wd w 1) 7 4) ≠ none ∧ wd w 1 < 2 ^ 8 ∧ maskOk s (wd w 1 % 16) = true)
  | .abc i r x => some (i, r, x, 0, fun _ u w => let f := bits (wd w 1) 7 4
      pairClass f ≠ none ∧ fmtWidth f ≠ 32 ∧ fmtWidth f ≠ 6 ∧ wd w 1 < 2 ^ 8 ∧ bits (wd w 1) 3 1 = 0 ∧ (chDef u (30 + wd w 1 % 2)).kind = 4)
  | .aps i r x => some (i, r, x, 0, fun s _ w => let c := wd w 4
      c < 2 ^ 30 ∧ maskOk s (c % 16) = true ∧ pairOk (bits c 24 21) (bits c 28 25) = true ∧
      (bit c 29 = true → epmanOk (bits c 24 21) (bits c 28 25) = true))
  | .adr i r x => some (i, r, x, 0, fun s _ w => wd w 1 < 2 ^ 26 ∧ wd w 2 < 2 ^ 24 ∧ wd w 4 < 2 ^ 16 ∧
      wd w 1 % 4 < s.strap.variant.arrays ∧ drainFmt (bits (wd w 1) 21 18) = true)
  | .afl i r x => some (i, r, x, 0, fun s _ w => wd w 1 < 2 ^ 18 ∧ wd w 1 % 4 < s.strap.variant.arrays)
  | .fcmp i r x => some (i, r, x, vec fun v _ => v.cmp ≤ 4 ∧ v.inF ≤ 2)
  | .icmp i r x => some (i, r, x, vec fun v _ => v.cmp ≤ 4)
  | .mov i r x => some (i, r, x, vec fun v _ => fmtWidth v.inF ≠ 0 ∧ v.inF ≠ 13)
  | .sel i r x => some (i, r, x, vec fun v _ => fmtWidth v.inF ≠ 0 ∧ v.inF < 13 ∧ isMx v.inF = false)
  | .cvt i r x => some (i, r, x, vec fun v _ => v.inF < 13 ∧ v.outF < 13)
  | .kand i r x => some (i, r, x, vec fun _ _ => True)
  | .kor i r x => some (i, r, x, vec fun _ _ => True)
  | .kxor i r x => some (i, r, x, vec fun _ _ => True)
  | .knot i r x => some (i, r, x, vec fun _ _ => True)
  | .kset i r x => some (i, r, x, vec fun _ _ => True)
  | .kidx i r x => some (i, r, x, vec fun _ w => namesMask w 0)
  | .vtag i r x => some (i, r, x, 3, fun _ _ _ => True)
  | .rsum i r x => some (i, r, x, red fun _ _ => True)
  | .rmax i r x => some (i, r, x, red fun _ _ => True)
  | .rmin i r x => some (i, r, x, red fun _ _ => True)
  | .rarg i r x => some (i, r, x, red fun _ _ => True)
  | .rssum i r x => some (i, r, x, red fun _ _ => True)
  | .rsmax i r x => some (i, r, x, red fun _ _ => True)
  | .rsmin i r x => some (i, r, x, red fun _ _ => True)
  | .rsarg i r x => some (i, r, x, red fun _ _ => True)
  | .raddraw i r x => some (i, r, x, red fun _ w => ∃ pair off, decodeOw (wd w 0) = some (.lock pair off))
  | .rrd i r x => some (i, r, x, red fun v w => (v.raw = true ∨ v.fmt ≤ 2 ∨ (v.ext = true ∧ v.fmt = 12)) ∧ decodeOw (wd w 1) ≠ none)
  | .rclr i r x => some (i, r, x, red fun _ _ => True)
  | .rtag i r x => some (i, r, x, red fun _ _ => True)
  | c => (elemOp c).map fun e => (e.1, e.2.1, e.2.2.1, vec fun v _ => e.2.2.2.valid v = true)

end Sys2Proof.Claims

/-- An array, vector or reduction instruction with an invalid record is a unit fault; a napping domain holds it.
Derived from R86, R139, R192, R196, R197, R198, R202, R208. -/
def Obligations.EngineHoldsAndFaults : Prop :=
  ∀ c i rix isel g (ok : State → UnitSt → List Nat → Prop) s p, recorded c = some (i, rix, isel, g, ok) → Issues s i p →
    let u := getUnit s p
    (recWords u rix.toNat isel.val = none → Faulted c s p 2) ∧
    (∀ w, recWords u rix.toNat isel.val = some w →
      ((g = 1 ∧ vrec w = none) ∨ (g = 2 ∧ rrec w = none) → Faulted c s p 2) ∧
      (g = 0 → ¬ ok s u w → Faulted c s p 2 ∨ Faulted c s p 0) ∧
      (ok s u w → (if g = 0 then u.napArr else u.napVec) = true → Waits c s p .notReady))

namespace Sys2Proof.Claims

/-- A reduction instruction is ready: its unit may issue it, its record is valid, the domain is awake. -/
def RedReady (s : State) (i : Issue) (rix : BitVec 11) (isel : Fin 8) (p : Nat) (w : List Nat) (r : RRec) : Prop :=
  Issues s i p ∧ recWords (getUnit s p) rix.toNat isel.val = some w ∧ rrec w = some r ∧ (getUnit s p).napVec = false

/-- An extremum converted to a format, with the counts of the conversion other than underflow (R119, R143). -/
def extremeCode (f : Nat) (x : Ext) : Nat × Tally :=
  let c := convertPlain f .rne false (fp32.decode x.v.toNat)
  (c.1, { sat := c.2.sat, nonfin := c.2.nonfin, under := 0 })

/-- The extremum register that an operation finds: after a clear the start of its kind, -∞ or +∞ (R144). -/
def startOf (max : Bool) (x : Ext) : Ext :=
  if x.cleared then { v := if max then 0xFF800000#32 else 0x7F800000#32, x := 0x7FFFFFFF#32 } else x

/-- An accumulator raw, in 48 B (R143; the order of the flags in byte 40: log entry 159). -/
def accBytes (a : Acc) : Bytes :=
  let b (x : Bool) (n : Nat) : Nat := if x then n else 0
  leBytes 40 a.sum.toNat ++ [BitVec.ofNat 8 (b a.nan 1 + b a.pinf 2 + b a.ninf 4 + b a.neg0 8)] ++ leBytes 6 a.count.toNat ++ [0]

/-- What RRD gives of its register, and counts: an accumulator raw or converted; an extremum raw (value, then index; log entry 9),
its index in format INT32, or its value converted (R143, R144). -/
def regRead (r : RRec) (e : Eng) : Bytes × Tally :=
  let code (c : Nat × Tally) : Bytes × Tally := (leBytes (if r.fmt = 0 then 4 else 2) c.1, c.2)
  if r.ext then
    let x := startOf true (getExt e r.reg)
    if r.raw then (leBytes 4 x.v.toNat ++ leBytes 4 x.x.toNat, {})
    else if r.fmt = 12 then (leBytes 4 x.x.toNat, {}) else code (extremeCode r.fmt x)
  else if r.raw then (accBytes (getAcc e r.reg), {}) else code ((getAcc e r.reg).read r.fmt)

/-- A finite value ± m × 2^e. -/
abbrev Finite := Bool × Nat × Int
def Finite.num (x : Finite) : Machine.Num := .fin x.1 x.2.1 x.2.2

/-- Its multiple of 2^-149, for an exponent of -149 or more. -/
def Finite.units (x : Finite) : Int := (if x.1 then -1 else 1) * (x.2.1 * 2 ^ (x.2.2 + 149).toNat : Nat)

/-- The codes of infinity and of NaN, and the sign bit, in fp32, bf16 and fp16. -/
def infCode : Nat → Nat | 0 => 0x7F800000 | 1 => 0x7F80 | _ => 0x7C00
def nanCode : Nat → Nat | 0 => 0x7FC00000 | 1 => 0x7FC0 | _ => 0x7E00
def signBit : Nat → Nat | 0 => 0x80000000 | _ => 0x8000

/-- What a segmented reduction gives for one segment, and its output format (R145). -/
def segOp : Instr → Option (Issue × BitVec 11 × Fin 8 × (RRec → Nat) × (RRec → List (Machine.Num × Bool) → Nat × Tally))
  | .rssum i r x => some (i, r, x, RRec.fmt, fun r es => Acc.read ((es.filter (·.2)).foldl (fun a x => a.add x.1) {}) r.fmt)
  | .rsmax i r x => some (i, r, x, RRec.fmt, fun r es => extremeCode r.fmt (segExt true es))
  | .rsmin i r x => some (i, r, x, RRec.fmt, fun r es => extremeCode r.fmt (segExt false es))
  | .rsarg i r x => some (i, r, x, fun _ => 12, fun _ es => ((segExt true es).x.toNat, {}))
  | _ => none

/-- A matrix-array operation is ready: its unit may issue it, its record's words are valid, the group is awake. -/
def ArrReady (s : State) (i : Issue) (rix : BitVec 11) (isel : Fin 8) (p : Nat) (w : List Nat) : Prop :=
  Issues s i p ∧ recWords (getUnit s p) rix.toNat isel.val = some w ∧ (getUnit s p).napArr = false

/-- The exact column sum of R104 and R124 over one activation row: the new pan entry. -/
def columnSum (epman : Bool) (base : Machine.Num) (acts weights : List Machine.Num) : W48 :=
  let ps := (acts.zip weights).map fun aw => aw.1.mul aw.2
  BitVec.ofNat 48 (if epman then epmanColumnAdd base ps else columnAdd base ps)

/-- A scalar core may execute: its unit's step runs, and it has not stopped. -/
def CoreRuns (s : State) (l : Fin 64) (k : Fin 4) (p : Nat) : Prop := coreRuns s l k.val = some p

/-- A core took effect: its own state is `c`, and every other core, unit and part of the card is as before. -/
def CoreIs (s t : State) (p : Nat) (k : Fin 4) (c : CoreSt) : Prop :=
  getUnit t p = { getUnit s p with cores := Sparse.set {} (getUnit s p).cores k.val c } ∧
  (∀ q, q ≠ p → getUnit t q = getUnit s q) ∧ t = { s with units := { s.units with phys := t.units.phys } }

end Sys2Proof.Claims

/-- RSUM, RMAX, RMIN, RARG, RADDRAW, RCLR and RTAG change their register, or the tag, and nothing else. Derived from
R142, R143, R144, R145, R198. -/
def Obligations.ReductionRegisters : Prop :=
  (∀ s i rix isel p w r u1 es, RedReady s i rix isel p w r → redSource r (decodeOw (wd w 0)) (getUnit s p) = .ok u1 es →
    let a := (es.1.filter (·.2)).foldl (fun (a : Acc) x => a.add x.1) (getAcc u1.cur r.reg)
    (Completes (.rsum i rix isel) s fun t => Issued s t p (Drained s p w { u1 with cur := setAcc u1.cur r.reg a })) ∧
    (∀ c max, ((c = .rmax i rix isel ∧ max = true) ∨ (c = .rarg i rix isel ∧ max = true) ∨ (c = .rmin i rix isel ∧ max = false)) →
      let e := (es.1.zipIdx.filter (·.1.2)).foldl (fun a x => a.add max x.1.1 (BitVec.ofNat 32 (r.base + x.2)))
        (startOf max (getExt u1.cur r.reg))
      Completes c s fun t => Issued s t p (Drained s p w { u1 with cur := setExt u1.cur r.reg e }))) ∧
  (∀ s i rix isel p w r u1 pair off bs, RedReady s i rix isel p w r → decodeOw (wd w 0) = some (.lock pair off) →
    fetchLock (getUnit s p) pair off 48 = .ok u1 bs →
    Completes (.raddraw i rix isel) s fun t => Issued s t p
      (Drained s p w { u1 with cur := setAcc u1.cur r.reg ((getAcc u1.cur r.reg).addRaw bs) })) ∧
  (∀ s i rix isel p w r, RedReady s i rix isel p w r → let u := getUnit s p
    (Completes (.rclr i rix isel) s fun t => Issued s t p
      (Drained s p w { u with cur := if r.ext then setExt u.cur r.reg { cleared := true } else setAcc u.cur r.reg {} })) ∧
    (Completes (.rtag i rix isel) s fun t => Issued s t p (Drained s p w { u with rtag := BitVec.ofNat 16 (wd w 5) })))

/-- RSSUM, RSMAX, RSMIN and RSARG store one result per segment; RRD reads its register into its destination. Derived
from R133, R143, R144, R145, R150, R198, notes/assumptions/9, notes/assumptions/159. -/
def Obligations.ReductionStores : Prop :=
  (∀ c i rix isel outF f s p w r u1 es d u2, segOp c = some (i, rix, isel, outF, f) → RedReady s i rix isel p w r →
    redSource r (decodeOw (wd w 0)) (getUnit s p) = .ok u1 es → decodeOw (wd w 1) = some d →
    let rs := (segments r.w (cdiv es.1.length r.w) es.1).map (f r)
    let tally := rs.foldl (fun (a : Tally) x => a.add x.2) {}
    storeElems u1 .reduction d false ⟨outF r, rs.map fun x => (x.1, true), []⟩ = .ok u2 () →
    Completes c s fun t => Issued s t p (Drained s p w (UnitSt.flag u2 tally))) ∧
  (∀ s i rix isel p w r d u2, RedReady s i rix isel p w r → decodeOw (wd w 1) = some d →
    (r.raw = true ∨ vecFmt r.fmt = true ∨ (r.ext = true ∧ r.fmt = 12)) →
    let u := getUnit s p
    let b := regRead r u.old
    ((∃ v, d = .reg v ∧ v * 2048 + b.1.length ≤ 32 * 2048 ∧ u2 = { u with cur := setRegBytes v 0 b.1 u.cur }) ∨
     (∃ pair off, d = .lock pair off ∧ storeLock u .reduction pair off b.1.length (fun _ => b.1) = .ok u2 ()) ∨
     (d = .vout ∧ u2 = { u with vout := { u.vout with data := u.vout.data ++ b.1 } }) ∨
     (∃ c, d = .mbx c ∧ postIn u c ((chunks 8 6 b.1).map fun x => BitVec.ofNat 64 (leNat x)) = some u2)) →
    Completes (.rrd i rix isel) s fun t => Issued s t p (Drained s p w (UnitSt.flag u2 b.2)))

/-- An accumulator holds the exact sum: adding values in any order gives the same register, and its reads obey R143.
Derived from R106, R142, R143, R145. -/
def Obligations.AccumulatorExact : Prop :=
  (∀ (a : Acc) (xs ys : List Machine.Num), xs.Perm ys →
    xs.foldl Acc.add a = ys.foldl Acc.add a) ∧
  (∀ (a : Acc) x, (a.add x).count.toNat = min (a.count.toNat + 1) (2 ^ 42 - 1)) ∧
  (∀ (a : Acc) f, f ≤ 2 → (a.nan = true ∨ (a.pinf = true ∧ a.ninf = true)) →
    (a.read f).1 = nanCode f ∧ (a.read f).2 = {}) ∧
  (∀ (a : Acc) (x : Finite), -149 ≤ x.2.2 → a.add x.num = { a with
    sum := a.sum + BitVec.ofInt 320 x.units, count := (a.add x.num).count, neg0 := a.neg0 && x.1 && decide (x.2.1 = 0) }) ∧
  (∀ a : Acc, (a.add .nan).sum = a.sum ∧ (a.add .nan).nan = true ∧ (a.add (.inf false)).sum = a.sum ∧ (a.add (.inf false)).pinf = true ∧
    (a.add (.inf false)).ninf = a.ninf ∧ (a.add (.inf true)).sum = a.sum ∧ (a.add (.inf true)).ninf = true ∧
    (a.add (.inf true)).pinf = a.pinf ∧ (a.add .nan).neg0 = false ∧ ∀ b, (a.add (.inf b)).neg0 = false ∧ (a.add (.inf b)).nan = a.nan) ∧
  (∀ xs : List Finite, xs.length < 2 ^ 42 → (∀ x ∈ xs, -149 ≤ x.2.2 ∧ x.2.1 * 2 ^ (x.2.2 + 149).toNat < 2 ^ 277) →
    ((xs.map Finite.num).foldl Acc.add {}).sum.toInt = (xs.map Finite.units).sum) ∧
  (∀ (a : Acc) f, f ≤ 2 → a.nan = false → ¬ (a.pinf = true ∧ a.ninf = true) →
    (a.count.toNat = 2 ^ 42 - 1 → (a.read f).1 = nanCode f ∧
      (a.pinf = false → a.ninf = false → (a.read f).2 = { sat := 0, nonfin := 1, under := 0 })) ∧
    (a.count.toNat ≠ 2 ^ 42 - 1 →
      (a.pinf = true → a.read f = (infCode f, {})) ∧ (a.ninf = true → a.read f = (signBit f + infCode f, {})) ∧
      (a.pinf = false → a.ninf = false → a.sum = 0 →
        a.read f = (if a.neg0 = true ∧ a.count.toNat ≠ 0 then signBit f else 0, {})) ∧
      (a.pinf = false → a.ninf = false → a.sum ≠ 0 →
        let c := convertPlain f .rne false (.fin (decide (a.sum.toInt < 0)) a.sum.toInt.natAbs (-149))
        a.read f = (c.1, { sat := c.2.sat, nonfin := c.2.nonfin, under := 0 })))) ∧
  (∀ a b : Acc, a.addRaw (accBytes b) =
    { sum := a.sum + b.sum, nan := a.nan || b.nan, pinf := a.pinf || b.pinf, ninf := a.ninf || b.ninf,
      neg0 := a.neg0 && b.neg0, count := BitVec.ofNat 42 (min (a.count.toNat + b.count.toNat) (2 ^ 42 - 1)) })

/-- ALD, ABC, ADR and AFL complete with their effect on the unit's tiles, pans and chambers. Derived from R74, R77,
R78, R79, R82, R83, R85, R93, R161, R196, notes/assumptions/184. -/
def Obligations.ArrayOperations : Prop :=
  (∀ s i rix isel p w, ArrReady s i rix isel p w →
    let u := getUnit s p
    let mask := wd w 1 % 16
    pairClass (bits (wd w 1) 7 4) ≠ none → wd w 1 < 2 ^ 8 → maskOk s mask = true →
    (∀ a ∈ maskArrays mask, (getArr u a).fresh = false) → decodeOw (wd w 0) = some .arrPort →
    Completes (.ald i rix isel) s fun t => ∃ v, Issued s t p v ∧
      (∀ a, getArr v a = if a ∈ maskArrays mask then { getArr u a with
        shadow := some ⟨bits (wd w 1) 7 4, []⟩, fresh := true, port := some ((maskArrays mask).headD 0) } else getArr u a) ∧
      v = { u with arrays := v.arrays }) ∧
  (∀ s i rix isel p w pair off k u1 bs, ArrReady s i rix isel p w →
    let u := getUnit s p
    let mask := wd w 1 % 16
    let wf := bits (wd w 1) 7 4
    pairClass wf ≠ none → wd w 1 < 2 ^ 8 → maskOk s mask = true → (∀ a ∈ maskArrays mask, (getArr u a).fresh = false) →
    decodeOw (wd w 0) = some (.lock pair off) → chamberAt u off = some k →
    fetchLock u pair off (min (tileBytes wf (ktOf wf wf)) ((chDef u k).size - (chDef u k).byteOf off)) = .ok u1 bs →
    Completes (.ald i rix isel) s fun t => ∃ v, Issued s t p v ∧
      (∀ a, getArr v a = if a ∈ maskArrays mask then { getArr u a with shadow := some ⟨wf, bs⟩, fresh := true, port := none }
        else getArr u a) ∧ v = { u1 with arrays := v.arrays }) ∧
  (∀ s i rix isel p w, ArrReady s i rix isel p w →
    let u := getUnit s p
    let wf := bits (wd w 1) 7 4
    let slot := wd w 1 % 2
    let k := 30 + slot
    let c := getCh u k
    let n := tileBytes wf (tileKt u u.bundle 0 wf)
    pairClass wf ≠ none → fmtWidth wf ≠ 32 → fmtWidth wf ≠ 6 → wd w 1 < 2 ^ 8 → bits (wd w 1) 3 1 = 0 →
    (chDef u k).kind = 4 → c.fault = false →
    ((c.full = false ∧ c.filled < n → Waits (.abc i rix isel) s p .notReady) ∧
    ((c.full = true ∨ n ≤ c.filled) → ((getArr u 0).fresh = false ∨ (getArr u 0).port = none) →
    Completes (.abc i rix isel) s fun t => ∃ v, Issued s t p v ∧
      getArr v 0 = { getArr u 0 with
        bcast := some ⟨wf, slotBytes u u.old slot (min n c.filled)⟩, later := (getArr u 0).fresh } ∧
      (∀ a, a ≠ 0 → getArr v a = getArr u a) ∧
      (c.releases + 1 < (chDef u k).readers → getCh v k = { c with full := true, releases := c.releases + 1 } ∧
        v = { u with arrays := v.arrays, chs := v.chs }) ∧
      ((chDef u k).readers ≤ c.releases + 1 → c.filled ≤ n → getCh v k = {} ∧ v = { u with arrays := v.arrays, chs := v.chs }) ∧
      ((chDef u k).readers ≤ c.releases + 1 → n < c.filled →
        v = { landSlot (setCh u k {}) slot ((slotBytes u u.cur slot c.filled).drop n) c.isEnd with arrays := v.arrays })))) ∧
  (∀ s i rix isel p w pair off u1 bs, ArrReady s i rix isel p w →
    let a := wd w 1 % 4
    let base := bits (wd w 1) 9 2
    let n := bits (wd w 1) 17 10 + 1
    wd w 1 < 2 ^ 18 → a < s.strap.variant.arrays → decodeOw (wd w 0) = some (.lock pair off) →
    fetchLock (getUnit s p) pair off (n * 384) = .ok u1 bs →
    Completes (.afl i rix isel) s fun t => ∃ v, Issued s t p v ∧
      (∀ j < n, ∀ col < 64, panGet v a ((base + j) % 256) col = BitVec.ofNat 48 (leAt bs (j * 384 + col * 6) 6)) ∧
      (∀ j < n, rowMark v a ((base + j) % 256) = false) ∧
      (∀ b row col, row < 256 → col < 64 → (b ≠ a ∨ ∀ j < n, row ≠ (base + j) % 256) → panGet v b row col = panGet u1 b row col) ∧
      v = { u1 with pans := v.pans, marks := v.marks, rowTags := v.rowTags }) ∧
  (∀ s i rix isel p w d u2, ArrReady s i rix isel p w → decodeOw (wd w 0) = some d →
    let u := getUnit s p
    let c := wd w 1
    let a := c % 4
    let base := bits c 9 2
    let n := bits c 17 10 + 1
    let f := bits c 21 18
    let out := (drainRows u a base n f (bit c 22) (bit c 23) (bit c 25) (decide (d = .vp1)) (signed 8 (wd w 2)) (bits (wd w 2) 23 8)
      (wd w 3 + 2 ^ 32 * (wd w 4 % 2 ^ 16)) (wd w 5) s).2.1
    c < 2 ^ 26 → wd w 2 < 2 ^ 24 → wd w 4 < 2 ^ 16 → a < s.strap.variant.arrays → drainFmt f = true →
    ((d = .vout ∧ u2 = { u with dout := { u.dout with data := u.dout.data ++ out } }) ∨
     (d = .vp1 ∧ drainWaits u.vp1 a = false ∧ u2 = { u with
        vp1 := { u.vp1 with data := u.vp1.data ++ out, owners := u.vp1.owners ++ [(a, out.length)] }, vp1New := out.length }) ∨
     (∃ pair off v, d = .lock pair off ∧ storeLock u .drain pair off out.length (fun _ => out) = .ok v () ∧
       (((Config.drainTags w = none ∨ ∃ j < n, tagOf u a ((base + j) % 256) = 0) ∧ u2 = v) ∨
        (∃ at_, Config.drainTags w = some at_ ∧ (∀ j < n, tagOf u a ((base + j) % 256) ≠ 0) ∧
          storeLock v .drain false at_ (4 * n) (fun _ => (List.range n).flatMap fun j =>
            leBytes 4 (tagOf u a ((base + j) % 256) - 1)) = .ok u2 ())))) →
    out.length = n * (if d = .vp1 then elemBytes f 64 else roundUp (elemBytes f 64) 16) ∧
    (f = 13 → ∀ j < n, ∀ col < 64, leAt out (j * 384 + col * 6) 6 = (panGet u a ((base + j) % 256) col).toNat) ∧
    Completes (.adr i rix isel) s fun t => ∃ v, getUnit t p = Finished v ∧
      (∀ b row col, row < 256 → col < 64 → panGet v b row col =
        if bit c 24 = true ∧ b = a ∧ (∃ j < n, row = (base + j) % 256) then 0x800000000000#48 else panGet u b row col) ∧
      v.cur = u2.cur ∧ v.chs = u2.chs ∧ v.dout = u2.dout ∧ v.vp1 = u2.vp1 ∧ t.led = s.led ∧ t.plan = s.plan)

/-- A pass adds the exact column sums of its rows into the pan rows, array by array. Derived from R68, R80, R85, R92,
R104, R124, R196. -/
def Obligations.ArrayPass : Prop :=
  (∀ s i rix isel p w ops v k, ArrReady s i rix isel p w →
    let c := wd w 4
    let af := bits c 24 21
    let wf := bits c 28 25
    c < 2 ^ 30 → maskOk s (c % 16) = true → pairOk af wf = true → (bit c 29 = true → epmanOk af wf = true) →
    (maskArrays (c % 16)).map (fun a => (a, decodeOw (wd w a))) = ops.map (fun (ao : Nat × Operand) => (ao.1, some ao.2)) →
    passAll ops (bits c 11 4 + 1) (bits c 19 12) (bit c 20) (bit c 29) af wf (getUnit s p) 0 = .ok v k →
    Completes (.aps i rix isel) s fun t => Issued s t p
      (if ∃ ao ∈ ops, ao.2 = .batch then
        (match closedBuf v with
          | some b => getUnit (drainAll p (setUnit p { v with batch := Sparse.set {} v.batch b {} } s)) p
          | none => v) else v)) ∧
  (∀ u o a base write epman af wf u1 u2 row tag,
    let kt := ktOf af wf
    passRows u o a 1 (rowPitch af kt) = .ok u1 [(row, tag)] → takeTile kt wf a u1 = some u2 → base < 256 →
    ∃ v, passOne o a 1 base write epman af wf u = .ok v 1 ∧
      (∀ col < 64, panGet v a base col = columnSum epman
        (if write then .fin true 0 0 else w48.decode (panGet u a base col).toNat) (valuesOf af kt row)
        ((tileRows (getArr u2 a).active wf kt).map fun r => r.getD col (.fin false 0 0))) ∧
      (∀ b r col, r < 256 → col < 64 → (b, r) ≠ (a, base) → panGet v b r col = panGet u b r col))

/-- A row enters the open buffer of the batcher with its tag; the fill target and the batch wait close it. Derived
from R91, R92. -/
def Obligations.Batcher : Prop :=
  (∀ s (l : Fin 64) p row tag, physUnit s l.val = some p →
    let u := getUnit s p
    let b := Sparse.get {} u.batch u.bopen
    u.bopen ≤ 1 → b.closed = false → Completes (.batchRowArrival l row tag) s fun t =>
      let full := decide (fillTarget s ≤ b.rows.length + 1)
      Sparse.get {} (getUnit t p).batch u.bopen = ⟨b.rows ++ [(row, tag)], full⟩ ∧
      (getUnit t p).bopen = (if full then 1 - u.bopen else u.bopen) ∧
      (∀ k, k ≠ u.bopen → Sparse.get {} (getUnit t p).batch k = Sparse.get {} u.batch k) ∧
      getUnit t p = { u with batch := (getUnit t p).batch, bopen := (getUnit t p).bopen } ∧ t.mem = s.mem) ∧
  (∀ s (l : Fin 64) p row tag, physUnit s l.val = some p →
    (Sparse.get {} (getUnit s p).batch (getUnit s p).bopen).closed = true → exec (.batchRowArrival l row tag) s = .next s) ∧
  (∀ s (l : Fin 64) p, physUnit s l.val = some p →
    let u := getUnit s p
    let b := Sparse.get {} u.batch u.bopen
    (b.closed = false → b.rows ≠ [] → Completes (.batchWaitExpiry l) s fun t =>
      Sparse.get {} (getUnit t p).batch u.bopen = ⟨b.rows, true⟩ ∧ (getUnit t p).bopen = 1 - u.bopen ∧ t.mem = s.mem) ∧
    (b.rows = [] → exec (.batchWaitExpiry l) s = .next s))

/-- A scalar core executes one instruction, posts and takes mailbox entries, and marks chambers. Derived from R91,
R146, R147, R148, R150, R161, R164, notes/assumptions/21. -/
def Obligations.ScalarCores : Prop :=
  (∀ s l k p (rd rs1 rs2 : Fin 32) (imm : BitVec 12), CoreRuns s l k p →
    let c := getCore (getUnit s p) k.val
    let x (r : Fin 32) : W64 := if r = 0 then 0 else Sparse.get 0 c.x r.val
    let wrote (v : W64) : CoreSt :=
      { (if rd = 0 then c else { c with x := Sparse.set 0 c.x rd.val v }) with pc := c.pc + 4, retired := c.retired + 1 }
    let at_ (word : Nat) : Prop := Sparse.getMany 0 c.imem c.pc.toNat 4 = leBytes 4 word
    c.pc.toNat % 4 = 0 → c.pc.toNat + 4 ≤ 0x8000 →
    (at_ (imm.toNat * 1048576 + rs1.val * 32768 + rd.val * 128 + 0x13) →
      Completes (.scalarInstruction l k) s fun t => CoreIs s t p k (wrote (x rs1 + imm.signExtend 64))) ∧
    (at_ (rs2.val * 1048576 + rs1.val * 32768 + rd.val * 128 + 0x33) →
      Completes (.scalarInstruction l k) s fun t => CoreIs s t p k (wrote (x rs1 + x rs2))) ∧
    (at_ (0x40000000 + rs2.val * 1048576 + rs1.val * 32768 + rd.val * 128 + 0x33) →
      Completes (.scalarInstruction l k) s fun t => CoreIs s t p k (wrote (x rs1 - x rs2)))) ∧
  (∀ s l k p v, CoreRuns s l k p →
    let c := getCore (getUnit s p) k.val
    v.getLsbD 63 = false → c.outbox.length < 16 → (∀ y ∈ c.outbox.head?, y.msb = false) →
    Completes (.mbxoutWrite l k v) s fun t => CoreIs s t p k { c with outbox := c.outbox ++ [v], posted := c.posted + 1 }) ∧
  (∀ s l k p (v : W64), CoreRuns s l k p →
    let u := getUnit s p
    let c := getCore u k.val
    let b := Sparse.get {} u.batch u.bopen
    v.getLsbD 63 = true → c.outbox = [] → b.closed = false → u.bopen ≤ 1 →
    Completes (.mbxoutWrite l k v) s fun t =>
      (Sparse.get {} (getUnit t p).batch u.bopen).rows =
        b.rows ++ [(stagedRow u (bits v.toNat 17 6 * 64), BitVec.ofNat 32 (bits v.toNat 49 18))] ∧
      getCore (getUnit t p) k.val = { c with posted := c.posted + 1 } ∧ t.mem = s.mem) ∧
  (∀ s l k p (v : W64), CoreRuns s l k p → (getCore (getUnit s p) k.val).outbox.length = 16 →
    exec (.mbxoutWrite l k v) s = .next s) ∧
  (∀ s l k p (rd : Fin 32) v vs, CoreRuns s l k p →
    let c := getCore (getUnit s p) k.val
    c.inbox = v :: vs →
    Completes (.mbxinRead l k rd) s fun t => CoreIs s t p k
      { c with inbox := vs, x := if rd = 0 then c.x else Sparse.set 0 c.x rd.val v }) ∧
  (∀ s l k p (v : W64) (ch : Fin 64), CoreRuns s l k p →
    let u := getUnit s p
    (v.toNat = 256 + ch.val → (chDef u ch.val).kind = 1 → (getCh u ch.val).full = false →
      Completes (.chmarkWrite l k v) s fun t =>
        getCh (getUnit t p) ch.val = { getCh u ch.val with full := true, isEnd := false, fault := false,
                                                           len := (getCh u ch.val).filled, releases := 0 } ∧
        (∀ b, (getCh u ch.val).filled ≤ b → b < roundUp (getCh u ch.val).filled 64 →
          chBytes (getUnit t p) (getUnit t p).old ch.val b 1 = [0]) ∧
        (∀ q, q ≠ p → getUnit t q = getUnit s q) ∧ t = { s with units := { s.units with phys := t.units.phys } }) ∧
    (v.toNat = ch.val → (chDef u ch.val).kind = 1 → (chDef u ch.val).pair = false → (getCh u ch.val).full = true →
    Completes (.chmarkWrite l k v) s fun t =>
      getUnit t p = setCh u ch.val (if (chDef u ch.val).readers ≤ (getCh u ch.val).releases + 1 then {}
        else { getCh u ch.val with releases := (getCh u ch.val).releases + 1 }) ∧
      (∀ q, q ≠ p → getUnit t q = getUnit s q) ∧ t = { s with units := { s.units with phys := t.units.phys } }))

namespace Sys2Proof.Claims

/-- The context as SARM starts it on a descriptor (R167); a stream that reads a chamber starts at the offset of SADDR. -/
def started (d num : Nat) : Ctx :=
  { st := .run, desc := BitVec.ofNat 512 d, dnum := num, srcPos := if dSrc d = 2 then bits (dSaddr d) 17 0 else 0 }

/-- The bits of a descriptor that a field of SREARM occupies (R199, R173, R178). -/
def fieldBits : RearmField → List (Nat × Nat)
  | .saddr => [(64, 119)]
  | .daddr => [(128, 183)]
  | .count => [(256, 287)]
  | .tap => [(290, 293), (328, 331), (366, 369)]
  | .cblk => [(240, 255)]
  | .ostart => [(370, 409)]

/-- A stream context may take a burst on the physical unit `p`: the unit runs in an open step of a running card, the
context runs or waits, and no burst of it is in flight. -/
def Bursts (s : State) (l : Fin 64) (p : Nat) (k : Fin 512) : Prop :=
  physUnit s l.val = some p ∧ (s.led.st = .opened ∨ s.led.st = .updating) ∧ s.keep.dev = .running ∧
  (getUnit s p).stopped = false ∧ (getCtx (getUnit s p) k.val).flight = none ∧
  ((getCtx (getUnit s p) k.val).st = .run ∨ (getCtx (getUnit s p) k.val).st = .space ∨
    (getCtx (getUnit s p) k.val).st = .data)

/-- The unit `p` of `t` is `u`, every other unit and the rest of the card are as in `s`, but for statistics of the step. -/
def OnlyUnit (s t : State) (p : Nat) (u : UnitSt) : Prop :=
  getUnit t p = u ∧ (∀ q, q ≠ p → getUnit t q = getUnit s q) ∧
  t = { s with units := { s.units with phys := t.units.phys }, stat := { s.stat with run := t.stat.run } }

/-- A range of device memory can be read: backed, in no failed group, with no uncorrectable block. -/
def Readable (s : State) (addr n : Nat) : Prop :=
  rangeBacked s addr n = true ∧ rangeGroupBad s addr n = none ∧ ∀ a ∈ blocksOf addr n, blockBad s a = false

/-- The barges of a range share no frame with another backed barge, no two of their bytes one place (R226, R233), and the
target frame of a copy of one of them that runs is in force for no barge (R230). -/
def Apart (s : State) (addr n : Nat) : Prop :=
  (∀ x y, x / bargeBytes ∈ bargesOf addr n → backed s (y / bargeBytes) = true →
    (place s x).key = (place s y).key → x = y) ∧
  (∀ b ∈ bargesOf addr n, (copyOf s b).isSome → ∀ y, backed s (y / bargeBytes) = true →
    (place s y).key < copyDst (barge s b) ∨ copyDst (barge s b) + bargeBytes ≤ (place s y).key)

/-- Bytes have been stored: they read back, and every other backed byte reads as before. -/
def Stored (s t : State) (addr : Nat) (bs : Bytes) : Prop :=
  (∀ i, i < bs.length → devByte t (addr + i) = bs.getD i 0) ∧
  (∀ a, a < addr ∨ addr + bs.length ≤ a → backed s (a / bargeBytes) = true → devByte t a = devByte s a)

/-- A linear descriptor's stream of `total` bytes. -/
def Linear (d total : Nat) : Prop := dKind d = 0 ∧ bits d 231 192 = total

/-- A context after its burst `f` has come through, before a stream's end: the credits have returned, the position is
behind the burst. -/
def passed (u : UnitSt) (k : Nat) (f : Flight) : UnitSt :=
  let c := getCtx u k
  setCtxU (returnCredits u c.desc.toNat f.credits) k
    { c with st := .run, flight := none, pos := f.pos + f.len, cur := c.cur }

end Sys2Proof.Claims

/-- SARM, SREARM, SSTOP, SWAIT, CMARK and CREL complete where the table of R167 lets them, and else only hold their
unit. Derived from R161, R164, R165, R167, R180, R195, R199. -/
def Obligations.StreamControls : Prop :=
  (∀ s i p (k : Fin 512) (n : BitVec 12), Issues s i p →
    let u := getUnit s p
    let d := (Sparse.get 0 u.descs n.toNat).toNat
    let st := (getCtx u k.val).st
    (st = .idle ∨ st = .parked → Completes (.sarm i k n) s fun t =>
      Issued s t p (setCtxU (openPort u d) k.val (started d n.toNat))) ∧
    (st ≠ .idle → st ≠ .parked → Waits (.sarm i k n) s p .notReady)) ∧
  (∀ s i p (k : Fin 512) f src hold, Issues s i p →
    let u := getUnit s p
    let c := getCtx u k.val
    let v := match src with
      | .record rix => (Sparse.get 0 u.recs rix.toNat).toNat % 2 ^ 64
      | .base h => (Sparse.get 0 u.h h.val).toNat
    let d := rearm c.desc.toNat f v
    (c.st = .parked → Completes (.srearm i k f src hold) s fun t => Issued s t p
      (if hold then setCtxU u k.val { c with desc := BitVec.ofNat 512 d }
       else setCtxU (openPort u d) k.val (started d c.dnum))) ∧
    (c.st ≠ .parked → Waits (.srearm i k f src hold) s p .notReady)) ∧
  (∀ d v, d < 2 ^ 512 →
    dSaddr (rearm d .saddr v) = v % 2 ^ 56 ∧ dDaddr (rearm d .daddr v) = v % 2 ^ 56 ∧
    dCount (rearm d .count v) = v % 2 ^ 32 ∧ bits (rearm d .cblk v) 255 240 = v % 2 ^ 16 ∧
    bits (rearm d .ostart v) 409 370 = v % 2 ^ 40 ∧ (∀ i < 3, cTap (rearm d .tap v) i = v / 2 ^ (4 * i) % 16) ∧
    (∀ f j, (∀ r ∈ fieldBits f, j < r.1 ∨ r.2 < j) → (rearm d f v).testBit j = d.testBit j)) ∧
  (∀ s i p (k : Fin 512), Issues s i p →
    let u := getUnit s p
    let c := getCtx u k.val
    (Completes (.sstop i k) s fun t => Issued s t p
      (if c.st = .run ∨ c.st = .space ∨ c.st = .data then setCtxU u k.val { c with stop := true } else u)) ∧
    (c.st = .idle ∨ c.st = .parked → Completes (.swait i k) s fun t => Issued s t p u) ∧
    (c.st ≠ .idle → c.st ≠ .parked → Waits (.swait i k) s p .notReady)) ∧
  (∀ s i p (ch : Fin 64) (x : Fin 8), Issues s i p →
    let u := getUnit s p
    let k0 := markTarget u ch x
    let paired := (chDef u k0).pair
    k0 < 64 → (chDef u k0).kind = 1 → (paired = true → (chDef u (k0 / 2 * 2)).pair = true ∧ (chDef u (k0 / 2 * 2 + 1)).pair = true) →
    let w := if k0 % 2 = 0 then member u k0 u.wptr else k0
    let r := if k0 % 2 = 0 then member u k0 u.rptr else k0
    ((getCh u w).full = false → Completes (.cmark i ch x) s fun t => Issued s t p
      { setCh (padRow u w (getCh u w).filled) w { getCh u w with full := true, isEnd := false, fault := false, len := (getCh u w).filled, releases := 0 } with
        wptr := if paired = true ∧ member u k0 u.wptr = w then flipPtr u.wptr k0 else u.wptr }) ∧
    ((getCh u r).full = true → Completes (.crel i ch x) s fun t => Issued s t p
      (if (chDef u r).readers ≤ (getCh u r).releases + 1 then
        { setCh u r {} with rptr := if paired = true ∧ member u k0 u.rptr = r then flipPtr u.rptr k0 else u.rptr }
       else setCh u r { getCh u r with releases := (getCh u r).releases + 1 })))

/-- STREAM_BURST claims space and credits and puts the next burst of a stream in flight, or the context waits;
LOCK_BREAK frees a stuck pool. Derived from R132, R163, R165, R168, R172, R174, R181. -/
def Obligations.StreamBursts : Prop :=
  (∀ s l p k total, Bursts s l p k →
    let u := getUnit s p
    let c := getCtx u k.val
    let d := c.desc.toNat
    let ch := dstMember u c d
    Linear d total → dSrc d = 0 → dDst d = 0 → (chDef u (dDch d)).kind = 1 → (chDef u ch).kind = 1 → (chDef u ch).writer = 0 →
    c.stop = false → c.pos < total →
    let start := if (getCh u ch).filled = 0 then bits (dDaddr d) 17 0 else (getCh u ch).filled
    let n := min (min (64 * dBurst d) (total - c.pos)) ((chDef u ch).size - start)
    let f : Flight := { pos := c.pos, len := n, index := 0, hole := false, credits := cdiv n 64, data := [], txns := [],
                        retries := 0 }
    ((getCh u ch).full = false → (creditsOf u d).1 + cdiv n 64 ≤ (creditsOf u d).2 →
      Completes (.streamBurst l k) s fun t => OnlyUnit s t p
        (setCtxU (takeCredits u d (cdiv n 64)) k.val { c with st := .run, flight := some f })) ∧
    ((getCh u ch).full = false → (creditsOf u d).2 < (creditsOf u d).1 + cdiv n 64 →
      Completes (.streamBurst l k) s fun t => OnlyUnit s t p (setCtxU u k.val { c with st := .data })) ∧
    ((getCh u ch).full = true →
      Completes (.streamBurst l k) s fun t => OnlyUnit s t p (setCtxU u k.val { c with st := .space }))) ∧
  (∀ s l p k total, Bursts s l p k →
    let u := getUnit s p
    let c := getCtx u k.val
    let d := c.desc.toNat
    let n := min (64 * dBurst d) (total - c.pos)
    let f : Flight := { pos := c.pos, len := n, index := 0, hole := false, credits := cdiv n 64, data := [], txns := [],
                        retries := 0 }
    let held := u.vp0.data.length + comingTo u 3
    let cap := 16384 + (match u.hold with | some (.port m) => m | _ => 0)
    Linear d total → dSrc d = 0 → dDst d = 3 → c.stop = false → c.pos < total →
    (held + n ≤ cap → (creditsOf u d).1 + cdiv n 64 ≤ (creditsOf u d).2 →
      Completes (.streamBurst l k) s fun t => OnlyUnit s t p
        (setCtxU (takeCredits u d (cdiv n 64)) k.val { c with st := .run, flight := some f })) ∧
    (cap < held + n →
      Completes (.streamBurst l k) s fun t => OnlyUnit s t p (setCtxU u k.val { c with st := .space }))) ∧
  (∀ s l p k total, Bursts s l p k →
    let u := getUnit s p
    let c := getCtx u k.val
    let d := c.desc.toNat
    Linear d total → dDst d = 3 → total ≤ c.pos →
    Completes (.streamBurst l k) s fun t => OnlyUnit s t p
      (setCtxU { u with vp0 := { u.vp0 with ended := true } } k.val
        { c with st := if dPersist d then .parked else .idle, stop := false, flight := none })) ∧
  (∀ s (l : Fin 64) (k : Fin 512) p, physUnit s l.val = some p → (getCtx (getUnit s p) k.val).flight.isSome →
    exec (.streamBurst l k) s = .next s) ∧
  (∀ s (l : Fin 64) p (k : Fin 64), physUnit s l.val = some p →
    let u := getUnit s p
    let c := getCh u k.val
    let stuck (x : Nat) : Prop := ∃ b ∈ c.bursts, b.ctx = x ∧ b.done = false ∧ 0 < b.claimed ∧ b.claimed < b.rows + 1 ∧
      (getCtx u x).st = .space
    ((chDef u k.val).kind = 3 → 2 ≤ (stuckSet u k.val).length → (∀ b ∈ c.bursts, b.done = false) →
      Completes (.lockBreak l k) s fun t => ∃ top, stuck top ∧ (∀ x, stuck x → x ≤ top) ∧
        OnlyUnit s t p (poolGrant (setCh u k.val { c with bursts := c.bursts.map fun b =>
          if b.ctx = top then { b with claimed := 0 } else b }) k.val) ∧
        Sparse.get 0 t.stat.run (ekey 0x3410 6) = Sparse.get 0 s.stat.run (ekey 0x3410 6) + 1 ∧
        Sparse.get 0 t.stat.run (ekey 0x5031 (p + 1)) = Sparse.get 0 s.stat.run (ekey 0x5031 (p + 1)) + 1) ∧
    ((stuckSet u k.val).length < 2 ∨ (∃ b ∈ c.bursts, b.done = true) → exec (.lockBreak l k) s = .next s))

/-- A completed read lands in its destination, a completed write is in memory; credits return and the position
advances. Derived from R169, R172, R182, R224, R226, R232. -/
def Obligations.StreamCompletion : Prop :=
  (∀ s (l : Fin 64) p (k : Fin 512) f total, physUnit s l.val = some p →
    let u := getUnit s p
    let c := getCtx u k.val
    let d := c.desc.toNat
    c.flight = some f → f.hole = false → f.txns = [] → Linear d total → dSrc d = 0 → dDst d = 3 → f.len ≠ 0 →
    f.pos + f.len < total → c.stop = false → Readable s (dSaddr d + f.pos) f.len →
    Completes (.memoryRequestComplete l k .clean) s fun t =>
      OnlyUnit s t p (passed { u with vp0 := { u.vp0 with data := u.vp0.data ++ devBytes s (dSaddr d + f.pos) f.len } } k.val f)) ∧
  (∀ s (l : Fin 64) p (k : Fin 512) f total, physUnit s l.val = some p →
    let u := getUnit s p
    let c := getCtx u k.val
    let d := c.desc.toNat
    let a := dDaddr d + f.pos
    c.flight = some f → f.hole = false → f.txns = [] → Linear d total → dSrc d = 2 → dDst d = 4 → f.len = f.data.length →
    f.len ≠ 0 → f.pos + f.len < total → c.stop = false → Readable s a f.len → (∀ x, a ≤ x → x < a + f.len → planArea s.strap.variant x = none) →
    Apart s a f.len →
    Completes (.memoryRequestComplete l k .clean) s fun t =>
      Stored s t a f.data ∧ getUnit t p = passed u k.val f ∧ (∀ q, q ≠ p → getUnit t q = getUnit s q)) ∧
  (∀ s (l : Fin 64) p (k : Fin 512) f total, physUnit s l.val = some p →
    let u := getUnit s p
    let c := getCtx u k.val
    let d := c.desc.toNat
    c.flight = some f → f.hole = false → f.txns = [] → Linear d total → dSrc d = 0 → dDst d = 3 → f.len ≠ 0 →
    rangeBacked s (dSaddr d + f.pos) f.len = false →
    Completes (.memoryRequestComplete l k .clean) s fun t =>
      getCtx (getUnit t p) k.val = { c with st := .fault, flight := none } ∧ t.mem = s.mem ∧
      t.stat.sfStep = stepNow s ∧ t.stat.sfUnit = p ∧ t.stat.sfCtx = k.val ∧ t.stat.sfCause = 4 ∧
      (s.led.st = .opened → ∃ os, t.out = os ++ towardCard s (coordinator s)
        (.abortRep s.led.running (attempt s) 4 ((myLogical s).getD 0xFFFF) 0xFFFF false))) ∧
  (∀ s (l : Fin 64) p (k : Fin 512) ecc, physUnit s l.val = some p → (getCtx (getUnit s p) k.val).flight = none →
    exec (.memoryRequestComplete l k ecc) s = .next s)

namespace Sys2Proof.Claims

/-- A statistic of the running step has grown by `n`. -/
def Grew (s t : State) (idx sub n : Nat) : Prop :=
  Sparse.get 0 t.stat.run (ekey idx sub) = Sparse.get 0 s.stat.run (ekey idx sub) + n

/-- Barge `b` has the entry `e`; every other barge, the bytes of the frames and the rest of the card are as before, but for
copies, the rotation over the groups and statistics of the step. -/
def OnlyBarge (s t : State) (b : Nat) (e : BargeEnt) : Prop :=
  barge t b = e ∧ (∀ x, x ≠ b → barge t x = barge s x) ∧
  t = { s with mem := { s.mem with barges := t.mem.barges, copies := t.mem.copies, rot := t.mem.rot },
               stat := { s.stat with run := t.stat.run } }

/-- The owner of a barge outside the plan areas can act on a request at once: none waits at its region's engine, or where
it was raised. -/
def OwnerFree (s : State) (b : Nat) : Prop :=
  b < planBarge s.strap.variant ∧ queued s (stackOf b (barge s b)) = 0 ∧ s.mem.raised = []

/-- The reservoir frame of a promoted barge is freed unless KEEP or LA (R231). -/
def unlessKept (e : BargeEnt) : BargeEnt := if e.keep = true ∨ e.la = true then e else { e with rfv := false, rframe := 0 }

/-- A copy of barge `b` runs, with so many of its 32 chunks of 64 KiB copied, and nothing waits for its region's engine. -/
def Copying (s : State) (b : Nat) (took : Bool) (chunks : Nat) : Prop :=
  b < planBarge s.strap.variant ∧ chunks ≤ 32 ∧ s.mem.raised = [] ∧
  s.mem.copies.find? (fun c => decide (c.barge = b)) =
    some { barge := b, took := took, region := stackOf b (barge s b), chunks := chunks } ∧
  (∀ r ∈ s.mem.queue, stackOf r.barge (barge s r.barge) ≠ stackOf b (barge s b)) ∧
  (∀ r ∈ s.mem.queue, r.barge ≠ b)

/-- A barge copy has ended: the barge has the entry `e`, its copy is gone, every other barge is as before. -/
def CopyEnded (s t : State) (b : Nat) (e : BargeEnt) : Prop :=
  barge t b = e ∧ (∀ x, x ≠ b → barge t x = barge s x) ∧ t.mem.copies = s.mem.copies.filter (fun c => decide (c.barge ≠ b)) ∧
  t.units = s.units ∧ t.led = s.led ∧ t.out = s.out

/-- From byte `from_` on, the frame at key `dst` holds what the frame at key `src` held, and the bytes of every other place
are as before. -/
def Copied (s t : State) (src dst from_ : Nat) : Prop :=
  (∀ o, from_ ≤ o → o < bargeBytes → Sparse.get memDefault t.mem.cells (dst + o) = Sparse.get memDefault s.mem.cells (src + o)) ∧
  (∀ k, k < dst + from_ ∨ dst + bargeBytes ≤ k → Sparse.get memDefault t.mem.cells k = Sparse.get memDefault s.mem.cells k)

/-- What a copy still has to read is good: no uncorrectable block there, and the group of its reservoir frame in service. -/
def SourceGood (s : State) (b src from_ : Nat) : Prop :=
  Sparse.get 0 s.mem.group (groupOf (barge s b).rframe) ≠ 2 ∧
  ∀ k ∈ s.mem.badBlk, ¬ ((src + from_) / 64 ≤ k ∧ k < (src + bargeBytes) / 64)

end Sys2Proof.Claims

/-- PROMOTE and EVICT: the owner acts by the migration state table of R231. Derived from R229, R231, R233, R239, R241. -/
def Obligations.BargeOwner : Prop :=
  (∀ s b la, OwnerFree s b →
    let e : BargeEnt := { barge s b with la := la || (barge s b).la }
    let s1 := if la then setBarge b e s else s
    let free := freeBasin s1 (stackOf b e) la
    (e.state = 2 → free = none → Completes (.promote b la) s fun t => OnlyBarge s t b e ∧ Grew s t 0x3010 4 1) ∧
    (∀ f, e.state = 2 → free = some f → e.zero = true → Completes (.promote b la) s fun t =>
      OnlyBarge s t b (unlessKept { e with state := 1, tier := false, bframe := f, bfv := true }) ∧ Grew s t 0x3010 1 1 ∧
      t.mem.copies = s.mem.copies) ∧
    (∀ f, e.state = 2 → free = some f → e.zero = false → copiesOf s (stackOf b e) < 4 → Completes (.promote b la) s fun t =>
      OnlyBarge s t b { e with state := 3, bframe := f, bfv := true } ∧
      t.mem.copies = s.mem.copies ++ [{ barge := b, took := false, region := stackOf b e }]) ∧
    (∀ f, e.state = 2 → free = some f → e.zero = false → 4 ≤ copiesOf s (stackOf b e) → Completes (.promote b la) s fun t =>
      t = { s1 with mem := { s1.mem with queue := s.mem.queue ++ [⟨b, true, la⟩] } }) ∧
    (e.state = 4 → Completes (.promote b la) s fun t => OnlyBarge s t b { e with pend := true } ∧ Grew s t 0x3010 8 1) ∧
    (e.state ≠ 2 → e.state ≠ 4 → Completes (.promote b la) s fun t => OnlyBarge s t b e ∧ t.mem.copies = s.mem.copies)) ∧
  (∀ s b, OwnerFree s b →
    let e := barge s b
    let gone (x : BargeEnt) : BargeEnt := { x with state := 2, tier := true, bfv := false, bframe := 0 }
    let cancelled : Prop := Completes (.evict b) s fun t => OnlyBarge s t b e ∧ Grew s t 0x3010 3 1 ∧ t.mem.copies = s.mem.copies
    let idle : Prop := e.state = 1 ∧ e.users = 0 ∧ inHorizon s b = false
    (e.state = 3 ∨ (e.state = 1 ∧ (0 < e.users ∨ inHorizon s b = true)) → cancelled) ∧
    (idle → e.rfv = true → e.dirty = false ∨ e.zero = true →
      Completes (.evict b) s fun t => OnlyBarge s t b (gone e) ∧ Grew s t 0x3010 2 1 ∧ t.mem.copies = s.mem.copies) ∧
    (∀ r, idle → e.rfv = false → freeResv s = some r → e.zero = true →
      Completes (.evict b) s fun t =>
        OnlyBarge s t b (gone { e with rframe := r, rfv := true }) ∧ Grew s t 0x3010 2 1 ∧ t.mem.rot = groupOf r) ∧
    (idle → e.rfv = false → freeResv s = none → cancelled) ∧
    (idle → e.rfv = true → e.dirty = true → e.zero = false → copiesOf s (stackOf b e) < 4 →
      Completes (.evict b) s fun t => OnlyBarge s t b { e with state := 4 } ∧
        t.mem.copies = s.mem.copies ++ [{ barge := b, took := false, region := stackOf b e }]) ∧
    (∀ r, idle → e.rfv = false → freeResv s = some r → e.zero = false → copiesOf s (stackOf b e) < 4 →
      Completes (.evict b) s fun t => OnlyBarge s t b { e with state := 4, rframe := r, rfv := true } ∧
        t.mem.copies = s.mem.copies ++ [{ barge := b, took := true, region := stackOf b e }] ∧ t.mem.rot = groupOf r) ∧
    (e.state ≠ 1 → e.state ≠ 3 → exec (.evict b) s = .next s))

/-- COPY_DONE and COPY_FAILED end a barge copy by the migration state table of R231. Derived from R229, R230, R231,
R232, R246, R247. -/
def Obligations.CopyEndsByTheTable : Prop :=
  (∀ s b took chunks, MemoryForm s → Copying s b took chunks →
    let e := barge s b
    let done := chunks * 65536
    let basin := basinKey e.bframe 0
    let resv := resvKey e.rframe 0
    (e.state = 3 → SourceGood s b resv done → Completes (.copyDone b) s fun t =>
      CopyEnded s t b (unlessKept { e with state := 1, tier := false, dirty := false }) ∧ Copied s t resv basin done ∧
      Grew s t 0x3010 1 1 ∧ Grew s t 0x3010 9 (bargeBytes - done)) ∧
    (e.state = 4 → e.pend = false → SourceGood s b basin done → Completes (.copyDone b) s fun t =>
      CopyEnded s t b { e with state := 2, tier := true, dirty := false, bframe := 0, bfv := false } ∧ Copied s t basin resv done ∧
      Grew s t 0x3010 2 1 ∧ Grew s t 0x3010 9 (bargeBytes - done)) ∧
    (e.state = 4 → e.pend = true → SourceGood s b basin done → Completes (.copyDone b) s fun t =>
      CopyEnded s t b { e with state := 1, dirty := false, pend := false } ∧ Copied s t basin resv done) ∧
    ((∃ k ∈ s.mem.badBlk, (copySrc e + done) / 64 ≤ k ∧ k < (copySrc e + bargeBytes) / 64) → e.state = 3 →
      Sparse.get 0 s.mem.group (groupOf e.rframe) ≠ 2 → Completes (.copyDone b) s fun t =>
        barge t b = { e with state := 2, bframe := 0, bfv := false } ∧ t.mem.dmgCause = 2 ∧ t.mem.cells = s.mem.cells ∧
        Grew s t 0x3010 0xA 1) ∧
    (e.state = 3 → Completes (.copyFailed b .clean) s fun t =>
      CopyEnded s t b { e with state := 2, bframe := 0, bfv := false } ∧ t.mem.cells = s.mem.cells ∧ Grew s t 0x3010 0xA 1) ∧
    (e.state = 4 → Completes (.copyFailed b .clean) s fun t =>
      CopyEnded s t b (if took then { e with state := 1, pend := false, rframe := 0, rfv := false }
        else { e with state := 1, pend := false, dirty := true }) ∧
      t.mem.cells = s.mem.cells ∧ Grew s t 0x3010 0xA 1)) ∧
  (∀ s b ecc, (∀ c ∈ s.mem.copies, c.barge ≠ b) → exec (.copyDone b) s = .next s ∧ exec (.copyFailed b ecc) s = .next s)

/-- LATE_REQUEST, RESERVOIR_GROUP_FAILURE and PATROL_SCRUB_READ count and record what R245 to R251 say and change no
byte. Derived from R245, R247, R248, R249, R251, R472. -/
def Obligations.MemoryUpkeep : Prop :=
  (∀ s again, Completes (.lateRequest .window again) s fun t => t = countRun 0x3012 2 1 s) ∧
  (∀ s (l : Fin 64) p (k : Fin 512) f again, physUnit s l.val = some p → s.led.st = .opened → s.keep.dev = .running →
    (getUnit s p).stopped = false → (getCtx (getUnit s p) k.val).flight = some f →
    (f.retries < num s 0x3408 1 → Completes (.lateRequest (.stream l k) again) s fun t =>
      OnlyUnit s t p (setCtxU (getUnit s p) k.val
        { getCtx (getUnit s p) k.val with flight := some { f with retries := f.retries + 1 } }) ∧
      Grew s t 0x3012 2 1 ∧ Grew s t 0x3410 7 1) ∧
    (num s 0x3408 1 ≤ f.retries → Completes (.lateRequest (.stream l k) again) s fun t =>
      (getCtx (getUnit t p) k.val).st = .fault ∧ t.stat.sfCause = 1 ∧ Grew s t 0x3012 2 1 ∧ t.mem = s.mem)) ∧
  (∀ s layer again, s.led.st = .updating → num s 0x3408 1 ≤ again →
    Completes (.lateRequest (.engine layer) again) s fun t =>
      t.out = s.out ++ towardCard s (coordinator s)
        (.abortRep s.led.running (attempt s) 7 ((myLogical s).getD 0xFFFF) layer false) ∧ t.mem = s.mem) ∧
  (∀ s (g : Fin 8), Sparse.get 0 s.mem.group g.val ≠ 2 → Completes (.reservoirGroupFailure g) s fun t =>
    Sparse.get 0 t.mem.group g.val = 2 ∧ t.mem.dmgCause = 4 ∧ t.mem.dmgStep = stepNow s ∧ t.mem.cells = s.mem.cells) ∧
  (∀ s (w : ScrubAt),
    let key := (if w.reservoir then resvKey w.frame 0 else basinKey w.frame 0) + w.row * 2048
    exec (.patrolScrubRead w .clean) s = .next s ∧
    (Completes (.patrolScrubRead w .corrected) s fun t =>
      Sparse.get 0 t.stat.boot (ekey 0x3020 (if w.reservoir then 2 else 1)) =
        Sparse.get 0 s.stat.boot (ekey 0x3020 (if w.reservoir then 2 else 1)) + 1 ∧
      Sparse.get 0 t.mem.rowErr (key / 2048) = Sparse.get 0 s.mem.rowErr (key / 2048) + 1 ∧
      (16 ≤ Sparse.get 0 t.mem.rowErr (key / 2048) → w.frame ∈ (if w.reservoir then t.mem.retR else t.mem.retB)) ∧
      t.mem.cells = s.mem.cells ∧ t.units = s.units) ∧
    (∀ blk, Completes (.patrolScrubRead w (.uncorrectable blk)) s fun t =>
      Sparse.get 0 t.stat.boot (ekey 0x3020 (if w.reservoir then 4 else 3)) =
        Sparse.get 0 s.stat.boot (ekey 0x3020 (if w.reservoir then 4 else 3)) + 1 ∧
      key / 64 + blk ∈ t.mem.badBlk ∧ w.frame ∈ (if w.reservoir then t.mem.retR else t.mem.retB) ∧
      t.mem.dmgCause = 3 ∧ t.mem.cells = s.mem.cells ∧ t.units = s.units))

namespace Sys2Proof.Claims

/-- No part awaits, no failure is declared, and the card is neither failed nor in MIRROR SERVICE. -/
def Sound (s : State) : Prop :=
  s.dict.awaiting = [] ∧ s.fab.declared = [] ∧ s.keep.mirror = false ∧ (failedCards s).contains (cardId s) = false

/-- Nothing else than the command itself changes at a boundary: in a sound card no retirement is owed and no map change waits
to be written. -/
def Quiet (s : State) : Prop := Sound s ∧ s.units.owed = [] ∧ s.boot.pendMap = false

/-- The region of the unit `p` has one standing spare, `q`. -/
def SpareIs (s : State) (p q : Nat) : Prop :=
  p < 72 ∧ q / 9 = p / 9 ∧ logicalUnit s q = 0xFE ∧ ∀ x, x / 9 = p / 9 → logicalUnit s x = 0xFE → x = q

/-- The region of the unit `p` has no standing spare. -/
def NoSpare (s : State) (p : Nat) : Prop := ∀ x, x / 9 = p / 9 → logicalUnit s x ≠ 0xFE

/-- The spare `q` has taken the logical unit of `p`, loaded as `p` was from the active plan; `p` is retired with a condition, its
record stands in the map, which is written, and the swap is counted (R13, R14, R367, R368). -/
def Swapped (s t : State) (p q cond : Nat) : Prop :=
  logicalUnit t q = logicalUnit s p ∧ logicalUnit t p = 0xFF ∧ (∀ x, x ≠ p → x ≠ q → logicalUnit t x = logicalUnit s x) ∧
  Sparse.get 0 t.units.cond p = cond ∧ Sparse.get 0 t.units.cond q = 0 ∧ getUnit t p = {} ∧
  (s.plan.active ≠ none → getUnit t q = loadedUnit (getUnit s p)) ∧ t.units.owed = [] ∧
  (∃ step, t.boot.repair = s.boot.repair ++ [{ typ := 1, cause := cond, pos := p, step := step }]) ∧
  t.boot.pendMap = false ∧ t.boot.repGen = nextGen s.boot.repGen ∧ .flashWrite 1 ∈ t.out ∧
  Sparse.get 0 t.stat.boot (ekey 0x2C01 1) = Sparse.get 0 s.stat.boot (ekey 0x2C01 1) + 1

/-- Twice the median slip of the units that carry a logical unit, in the step that ends (R367; of an even number of units the mean
of the middle two, notes/assumptions/30). -/
def MedianIs (s : State) (med2 : Nat) : Prop :=
  ∃ ys : List Nat, ys.Pairwise (· ≤ ·) ∧
    ys.Perm (((List.range 72).filter fun x => decide (logicalUnit s x < 64)).map fun x => Sparse.get 0 s.stat.run (ekey 0x5040 (x + 1))) ∧
    med2 = ys.getD ((ys.length - 1) / 2) 0 + ys.getD (ys.length / 2) 0

/-- The unit's slip exceeds the median by more than 0x2C00:01 per mille of its step's cycles (R367). -/
def Above (s : State) (med2 p : Nat) : Prop :=
  1000 * med2 + 2 * num s 0x2C00 1 * Sparse.get 0 s.stat.run (cyclesKey p) < 2000 * Sparse.get 0 s.stat.run (ekey 0x5040 (p + 1))

/-- The report of an abort cause that the card sends to the coordinator. -/
def abortReportOf (s : State) (cause layer : Nat) : List Out :=
  towardCard s (coordinator s) (.abortRep s.led.running (attempt s) cause ((myLogical s).getD 0xFFFF) layer false)

/-- A refused dictionary write: its abort code is the answer, and nothing else changes. -/
def Refused (c : Instr) (a : Access) (idx sub code : Nat) (s : State) : Prop :=
  Completes c s fun t => t.out = s.out ++ [.usdoAbort a idx sub code] ∧ t.dict = s.dict ∧ OnlyDict s t

/-- An update engine may end a piece: while the step updates; while the card is halted or ABORTING, the one piece that it had
begun (R285, R336). -/
def MayEnd (s : State) (g : Nat) : Prop :=
  (s.led.st = .updating ∧ s.keep.dev = .running) ∨ ((s.led.st = .updating ∨ s.led.st = .aborting) ∧ g ∉ s.led.engStop)

end Sys2Proof.Claims

/-- ACTIVATE starts the checks of a LOADED area, ACTIVATION_DONE makes the plan active or reports the first failed
check, RELEASE lets it go. Derived from R210, R216, R217, R219, R246, R359, R414. -/
def Obligations.PlanActivation : Prop :=
  (∀ s a (k : BitVec 8), Takes s a 0x3880 1 →
    let may : Prop := (s.keep.dev = .idle ∨ (s.keep.dev = .planLoaded ∧ jobRuns s = false)) ∧ s.plan.checking = none ∧
      areaState s k.toNat = 1
    (k.toNat < 2 → may → Completes (.activate a k) s fun t =>
      areaState t k.toNat = 2 ∧ areaState t (1 - k.toNat) = areaState s (1 - k.toNat) ∧ t.plan.checking = some k.toNat ∧
      t.plan.result = 1 ∧ t.plan.resArea = k.toNat ∧ t.plan.active = s.plan.active ∧ t.plan.plan = s.plan.plan ∧
      t.out = s.out ++ [.usdo a []] ∧ t.mem = s.mem ∧ t.units = s.units ∧ t.led = s.led ∧ t.keep = s.keep) ∧
    (k.toNat < 2 → ¬ may → Refused (.activate a k) a 0x3880 1 0x08000022 s) ∧
    (2 ≤ k.toNat → Refused (.activate a k) a 0x3880 1 0x06090030 s)) ∧
  (∀ s k e, s.plan.checking = some k → k < 2 → (s.plan.active ≠ none ∨ (s.units.owed = [] ∧ s.boot.pendMap = false)) →
    planErr s k = some e → Completes .activationDone s fun t =>
      areaState t k = 1 ∧ t.plan.checking = none ∧ t.plan.result = e.code ∧ t.plan.resArea = k ∧ t.plan.resUnit = e.unit ∧
      t.plan.resItem = e.item ∧ t.plan.resDet = e.detail ∧ t.plan.active = s.plan.active ∧ t.plan.plan = s.plan.plan ∧
      t.mem.cells = s.mem.cells ∧ t.units = s.units ∧ t.led = s.led ∧
      (damageMet s k e = none → t.mem = s.mem ∧ t.stat.eseq = s.stat.eseq + 1) ∧
      (∀ a, damageMet s k e = some a → t.mem.dmgAddr = a / 64 * 64 ∧ t.stat.eseq = s.stat.eseq + 2)) ∧
  (∀ s k, s.plan.checking = some k → k < 2 → Quiet s → Completes .activationDone s fun t =>
    t.plan.checking = none ∧ (planErr s k = none →
      areaState t k = 3 ∧ areaState t (1 - k) ≠ 3 ∧ t.plan.active = some k ∧ t.plan.result = 0 ∧
      t.keep.dev = .planLoaded ∧ t.led.st = .nojob ∧ t.led.committed = s.led.committed ∧
      (∀ p < 72, logicalUnit s p < 64 → getUnit t p = loadUnit (unitImg s k (logicalUnit s p))))) ∧
  (∀ s, s.plan.checking = none → exec .activationDone s = .next s) ∧
  (∀ s a k, Takes s a 0x3880 2 →
    (s.keep.dev = .planLoaded → jobRuns s = false → s.dict.awaiting = [] → s.plan.active = some k → k < 2 →
      Completes (.release a 1) s fun t =>
        t.plan.active = none ∧ areaState t k = 1 ∧ t.keep.dev = .idle ∧ t.led.committed = s.led.committed ∧
        t.mem.cells = s.mem.cells ∧ t.units.phys = [] ∧ t.gates = [] ∧ .usdo a [] ∈ t.out) ∧
    (¬ (s.keep.dev = .planLoaded ∧ jobRuns s = false) → Refused (.release a 1) a 0x3880 2 0x08000022 s))

/-- START_JOB opens the running step committed + 1 of an active plan, STOP_JOB asks for the stop at the next boundary.
Derived from R24, R286, R288, R296. -/
def Obligations.JobStartAndStop : Prop :=
  (∀ s a, Takes s a 0x2001 1 →
    (s.keep.dev = .planLoaded → s.led.st = .nojob → s.plan.active ≠ none → s.plan.checking = none → anyShort s = false →
      Quiet s → Completes (.startJob a 1) s fun t =>
        t.keep.dev = .running ∧ t.led.st = .opened ∧ t.led.running = s.led.committed + 1 ∧
        t.led.committed = s.led.committed ∧ t.led.waiting = true ∧
        t.led.run.attempts = (if s.led.run.step = s.led.committed + 1 then s.led.run.attempts else 0) ∧ t.led.abJob = 0 ∧
        t.led.startGate = decide (1 < s.plan.plan.cards) ∧ t.led.touched = [] ∧ t.mem = s.mem ∧ t.plan = s.plan ∧
        t.units = s.units) ∧
    (¬ (s.keep.dev = .planLoaded ∧ s.led.st = .nojob ∧ s.plan.active ≠ none ∧ s.plan.checking = none ∧ anyShort s = false) →
      Refused (.startJob a 1) a 0x2001 1 0x08000022 s)) ∧
  (∀ s a, Takes s a 0x2001 2 →
    ((s.keep.dev = .running ∨ s.keep.dev = .halted) → jobRuns s = true → Completes (.stopJob a 1) s fun t =>
      t.led = { s.led with stopPend := true } ∧ t.out = s.out ++ [.usdo a []] ∧
      t = { s with led := t.led, out := t.out, stat := { s.stat with boot := t.stat.boot } }) ∧
    (¬ ((s.keep.dev = .running ∨ s.keep.dev = .halted) ∧ jobRuns s = true) →
      Refused (.stopJob a 1) a 0x2001 2 0x08000022 s)) ∧
  (∀ s a (v : BitVec 8), v ≠ 1 → pathServes s a.path = true →
    Refused (.startJob a v) a 0x2001 1 0x06090030 s ∧ Refused (.stopJob a v) a 0x2001 2 0x06090030 s)

/-- A layer is checked, its stage starts, its pieces are updated and stale working copies are refreshed. Derived from
R272, R273, R281, R283, R284, R285, R287, R336, R472. -/
def Obligations.LayerUpdates : Prop :=
  (∀ s k e ecc g s1 r s2, layerEnt (ownLt s) k = some e → enginesRun s = true → (layerRun s k).checking = true →
    let run := { layerRun s k with checking := false }
    sumTensors false s.led.run.l ((ownLt s).tensorsOf e) {} ecc (setLayerRun k run s) = (s1, some g) →
    readRec (ownLt s) k s1 = (s2, some r) →
    let c := clipOf (ownLt s) e r (stepIn s) g
    (c.abort = 0 → Completes (.layerCheckDone k ecc) s fun t =>
      layerRun t k = { layerRun s k with checking := false, checked := true, sumA := g.a, n := c.n, cs := c.cs, lim := c.lim,
                                         surged := c.surged, clipped := c.clipped } ∧
      (∀ j, j ≠ k → layerRun t j = layerRun s j) ∧ t.led.chkOrder = s.led.chkOrder ++ [k] ∧ t.mem = s2.mem) ∧
    (c.abort ≠ 0 → Completes (.layerCheckDone k ecc) s fun t =>
      t.out = s2.out ++ abortReportOf s2 c.abort k ∧ (layerRun t k).checked = (layerRun s k).checked ∧ t.mem = s2.mem)) ∧
  (∀ s k e s1 rec, layerEnt (ownLt s) k = some e → enginesRun s = true → twinAllows s = true →
    (nextStage s = some k → readRec (ownLt s) k s = (s1, none) → Completes (.updateStageStart k) s fun t =>
      t.out = s1.out ++ abortReportOf s1 7 k ∧ t.led = s.led) ∧
    (nextStage s = some k → readRec (ownLt s) k s = (s1, some rec) → Completes (.updateStageStart k) s fun t =>
      t.led.st = .updating ∧ k ∈ t.led.touched ∧ (∀ j ∈ s.led.touched, j ∈ t.led.touched) ∧
      layerRun t k = { layerRun s k with started := true, csUse := stageCs s k, lrec := rec.toBytes } ∧
      (∀ j, j ≠ k → layerRun t j = layerRun s j) ∧ t.led.order = s.led.order ++ [k]) ∧
    (nextStage s ≠ some k → exec (.updateStageStart k) s = .next s)) ∧
  (∀ s k j piece e t0 ecc s1 o, layerEnt (ownLt s) k = some e → ((ownLt s).tensorsOf e)[j]? = some t0 →
    let g := pieceEngine s t0 piece
    let halts : Bool := !(decide (s.led.st = .updating) && decide (s.keep.dev = .running))
    let s0 : State := if halts then { s with led := { s.led with engStop := s.led.engStop ++ [g] } } else s
    (layerRun s k).started = true → piece < pieces t0 → (layerRun s k).done.contains (j, piece) = false →
    (¬ MayEnd s g → exec (.updatePieceDone k j piece ecc) s = .next s) ∧ (MayEnd s g →
    updatePiece false (updConsts e (layerRun s k).record (stepIn s) (layerRun s k).csUse).1 t0 piece ecc s0 = (s1, o) →
    o.ok = true → Completes (.updatePieceDone k j piece ecc) s fun t =>
      (layerRun t k).done = (layerRun s k).done ++ [(j, piece)] ∧
      (layerRun t k).amax = BitVec.ofNat 32 (max (layerRun s k).amax.toNat o.amax) ∧
      (layerRun t k).n = (layerRun s k).n ∧ (∀ x, x ≠ k → layerRun t x = layerRun s x) ∧
      t.led.committed = s.led.committed ∧ t.led.touched = s.led.touched ∧ t.led.engStop = s0.led.engStop)) ∧
  (∀ s k j piece ecc, (layerRun s k).started = false → exec (.updatePieceDone k j piece ecc) s = .next s) ∧
  (∀ s, (enginesRun s = true → allUpdated s = true → Completes .refreshPass s fun t =>
      t.led = { s.led with stale := [], refreshed := true } ∧ t.units = s.units) ∧
    (allUpdated s = false → exec .refreshPass s = .next s))

/-- SGD with momentum, full state: m = fma(B1, m, gi); p = fma(-lr, fma(WD, p, m), p); w = bf16_rne_sat(p). Stated by
R276. -/
def Obligations.SgdWithMomentum : Prop :=
  ∀ (c : UpdC) (f : Option Factors) rnd (x : PIn), c.e.opt = 1 → c.e.lean = false →
    let gi := (opMul (opScale x.g (-c.cin.l)).1 c.cs).1
    let o := updateParam c f rnd x
    let m := (opFma c.e.b1 (BitVec.ofNat 32 x.m) gi).1
    o.m = m.toNat ∧ o.p = (opFma (negCode c.lr) (opFma c.wd x.p m).1 x.p).1 ∧
    o.w = (bf16.convert .rne true (f32 o.p)).1

/-- CARD_READY makes a card whose pair is IN STEP ready for step N only with SACK(N), every layer updated and every
unit ended. Derived from R25, R188, R285, R351. -/
def Obligations.TwinReceiptBeforeReady : Prop :=
  ∀ s t, exec .cardReady s = .next t → s.twin.pair = .inStep → s.led.st ≠ .ready → t.led.st = .ready →
    s.twin.sacked = s.led.running ∧ allUpdated s = true ∧ (∀ k ∈ layerNumbers (ownLt s), (layerRun s k).gok = true) ∧
    (∀ l < 64, ∀ p, physUnit s l = some p → (getUnit s p).ended = true)

/-- CARD_READY, COMMIT_MESSAGE, STEP_OPEN, ABORT_MESSAGE, ENGINES_STOPPED and APPLY_MESSAGE move the ledger of a card
as R287 to R294 say. Derived from R25, R26, R30, R287, R288, R289, R291, R293, R332, R351, R367, R368. -/
def Obligations.LedgerOfACard : Prop :=
  (∀ s, isReady s = true → s.twin.pair ≠ .inStep → Completes .cardReady s fun t =>
    Told { s with led := { s.led with st := .ready } } t (coordinator s) (.ready s.led.running (attempt s))) ∧
  (∀ s, isReady s = true → s.twin.pair = .inStep → allAcked s = true →
    (∀ s1 bs, s.twin.stepmSent = false → readRanges (heldRanges s) .clean s = (s1, some bs) → Completes .cardReady s fun t =>
      t = { s1 with twin := { s1.twin with stepmSent := true, sacked := 0 }, stat := { s1.stat with run := t.stat.run },
                    out := s1.out ++ [.twin (.stepm s.led.running (measBlock (heldOf bs) s1))] }) ∧
    (s.twin.stepmSent = true → s.twin.sacked = s.led.running → Completes .cardReady s fun t =>
      Told { s with led := { s.led with st := .ready } } t (coordinator s) (.ready s.led.running (attempt s)))) ∧
  (∀ s, isReady s = false → exec .cardReady s = .next s) ∧
  (∀ s h (n : BitVec 64), Fresh s h 4 → s.led.st = .ready → n.toNat = s.led.running → Sound s →
    Completes (.commitMessage h n (attempt s)) s fun t =>
      t.led.committed = s.led.running ∧ t.led.touched = [] ∧ t.led.consec = 0 ∧
      t.host.ringget = (s.host.ringget + 1) % 2 ^ 32 ∧
      (s.led.stopPend = false → t.led.st = .opened ∧ t.led.running = s.led.running + 1 ∧ t.led.waiting = true ∧
        t.keep.dev = s.keep.dev) ∧
      (s.led.stopPend = true → t.led.st = .nojob ∧ t.keep.dev = .planLoaded ∧ t.led.stopPend = false) ∧
      (s.boot.pendMap = true ∨ s.units.owed ≠ [] → t.boot.pendMap = false ∧ t.units.owed = [] ∧
        t.boot.repGen = nextGen s.boot.repGen ∧ .flashWrite 1 ∈ t.out ∧ s.boot.repair <+: t.boot.repair)) ∧
  (∀ s h (n : BitVec 64) p q cond, Fresh s h 4 → s.led.st = .ready → n.toNat = s.led.running → Sound s → num s 0x2C00 3 = 0 →
    s.units.owed = [(p, cond)] → logicalUnit s p < 64 →
    (SpareIs s p q → Completes (.commitMessage h n (attempt s)) s fun t => Swapped s t p q cond) ∧
    (NoSpare s p → Completes (.commitMessage h n (attempt s)) s fun t =>
      logicalUnit t p = 0xFF ∧ (∀ x, x ≠ p → logicalUnit t x = logicalUnit s x) ∧ Sparse.get 0 t.units.cond p = cond ∧
      getUnit t p = {} ∧ t.units.owed = [])) ∧
  (∀ s h (n : BitVec 64) med2, Fresh s h 4 → s.led.st = .ready → n.toNat = s.led.running → Sound s → s.units.owed = [] →
    MedianIs s med2 →
    (num s 0x2C00 3 = 0 → Completes (.commitMessage h n (attempt s)) s fun t => t.units.map = s.units.map ∧
      ∀ p < 72, logicalUnit s p < 64 →
        (Above s med2 p → Sparse.get 0 t.units.slipRun p = min 65535 (Sparse.get 0 s.units.slipRun p + 1)) ∧
        (¬ Above s med2 p → Sparse.get 0 t.units.slipRun p = 0)) ∧
    (∀ p < 72, num s 0x2C00 3 ≠ 0 → logicalUnit s p < 64 → Above s med2 p →
      num s 0x2C00 2 ≤ min 65535 (Sparse.get 0 s.units.slipRun p + 1) →
      (∀ x, x ≠ p → Sparse.get 0 s.units.slipRun x + 1 < num s 0x2C00 2) →
      (∀ q, SpareIs s p q → Completes (.commitMessage h n (attempt s)) s fun t => Swapped s t p q 3) ∧
      (NoSpare s p → Completes (.commitMessage h n (attempt s)) s fun t => t.units.map = s.units.map ∧
        Sparse.get 0 t.stat.boot (ekey 0x2C01 3) = Sparse.get 0 s.stat.boot (ekey 0x2C01 3) + 1))) ∧
  (∀ s h (n : BitVec 64) att, (¬ Fresh s h 4 → exec (.commitMessage h n att) s = .next s) ∧
    (Fresh s h 4 → (s.led.st ≠ .ready ∨ n.toNat ≠ s.led.running ∨ att ≠ attempt s) →
      exec (.commitMessage h n att) s = .next (heard s h))) ∧
  (∀ s, s.led.waiting = true → s.led.st = .opened → s.keep.dev = .running → openHeld s = false → takeSlot s = none →
    (s.led.waitSaid = s.led.running → exec .stepOpen s = .next s) ∧
    (s.led.waitSaid ≠ s.led.running → Completes .stepOpen s fun t => t.led = { s.led with waitSaid := s.led.running } ∧
      Raised 0x05 0xFFFF 0 s t ∧ t.units = s.units ∧ t.mem = s.mem)) ∧
  (∀ s slot take, s.led.waiting = true → s.led.st = .opened → s.keep.dev = .running → openHeld s = false →
    takeSlot s = some (slot, take) → Quiet s → anyShort s = false → Completes .stepOpen s fun t =>
      t.led.st = .opened ∧ t.led.waiting = false ∧ t.led.running = s.led.running ∧ t.led.committed = s.led.committed ∧
      t.led.run.step = s.led.running ∧ t.led.run.ring = slot ∧
      t.led.run.gen = (if s.led.reopen then s.led.run.gen else s.dict.genForce) ∧ t.led.run.attempts = s.led.run.attempts ∧
      t.host.ringtake = take ∧ t.gates = [] ∧ (∀ p, getUnit t p = resetUnit (getUnit s p)) ∧
      t.keep.inForce = clockCodes s.led.run.clocks ∧ t.keep.forced = [] ∧ t.mem.refresh = s.led.run.refresh) ∧
  (∀ s slot take p q cond, s.led.waiting = true → s.led.st = .opened → s.keep.dev = .running → openHeld s = false →
    takeSlot s = some (slot, take) → Sound s → s.units.owed = [(p, cond)] → logicalUnit s p < 64 → SpareIs s p q → anyShort s = false →
    Completes .stepOpen s fun t => t.led.waiting = false ∧ Swapped s t p q cond) ∧
  (∀ s, (s.led.waiting = false ∨ s.keep.dev ≠ .running) → exec .stepOpen s = .next s) ∧
  (∀ s h (n : BitVec 64) (cause : BitVec 8) (card layer : BitVec 16) (act : BitVec 8), Fresh s h 5 →
    (s.led.st = .opened ∨ s.led.st = .updating ∨ s.led.st = .ready) → n.toNat = s.led.running → cause ≠ 6 →
    Completes (.abortMessage h n (attempt s) cause card layer act) s fun t =>
      t.led.st = .aborting ∧ t.led.waiting = false ∧ t.led.abCause = cause.toNat ∧ t.led.abStep = n.toNat ∧
      t.led.abCard = card.toNat ∧ t.led.abLayer = layer.toNat ∧ t.led.abAction = act.toNat ∧
      t.led.abJob = s.led.abJob + 1 ∧ t.led.committed = s.led.committed ∧ t.led.running = s.led.running ∧
      (s.twin.pair ≠ .inStep → t.stat.run = []) ∧ t.stat.tRun = [] ∧ (∀ pu ∈ t.units.phys, pu.2.stopped = true ∧ pu.2.hold = none) ∧
      t.mem.cells = s.mem.cells) ∧
  (∀ s h (n : BitVec 64) att cause card layer act, (¬ Fresh s h 5 → exec (.abortMessage h n att cause card layer act) s = .next s) ∧
    (Fresh s h 5 → (n.toNat ≠ s.led.running ∨ att ≠ attempt s ∨ s.led.st = .aborting) →
      exec (.abortMessage h n att cause card layer act) s = .next (heard s h))) ∧
  (∀ s, s.led.st = .aborting → s.mem.dmgRun = [] → s.plan.plan.held = [] → s.led.abCause ≠ 6 → s.led.abCause ≠ 10 →
    (s.led.touched = [] → s.led.abAction ≤ 1 → s.led.stopPend = false → Completes .enginesStopped s fun t =>
      t.led.st = .opened ∧ t.led.waiting = true ∧ t.led.reopen = true ∧ t.led.running = s.led.running ∧
      t.led.committed = s.led.committed ∧ t.led.run.attempts = s.led.run.attempts + 1 ∧ t.led.run.l = s.led.run.l ∧
      t.led.slotHeld = s.led.slotHeld ∧ t.mem = s.mem ∧
      (∀ pu ∈ t.units.phys, pu.2.stopped = true ∧ pu.2.slots = [] ∧ ∀ kc ∈ pu.2.ctxs, kc.2.flight = none) ∧
      (∀ p, (getUnit t p).cur = (getUnit s p).cur ∧ (getUnit t p).pans = (getUnit s p).pans)) ∧
    (s.led.touched ≠ [] → s.twin.pair = .inStep → Completes .enginesStopped s fun t =>
      t.led.st = .restoring ∧ t.led.touched = s.led.touched ∧ t.mem = s.mem ∧
      t.twin.restore = (layerNumbers (ownLt s)).filter fun k => s.led.touched.contains k) ∧
    (s.led.touched ≠ [] → s.twin.pair ≠ .inStep → (s.twin.pair = .solo → (ownLt s).mode = true → s.led.applyCs ≠ none) →
      Completes .enginesStopped s fun t =>
      t.led.st = .lost ∧ t.keep.dev = .planLoaded ∧ t.mem.cells = s.mem.cells)) ∧
  (∀ s, s.led.st ≠ .aborting → exec .enginesStopped s = .next s) ∧
  (∀ s h (n : BitVec 64) cs, Fresh s h 6 → (s.led.st = .opened ∨ s.led.st = .updating) → n.toNat = s.led.running →
    (s.led.applyCs = none →
      exec (.applyMessage h n (attempt s) cs) s = .next { heard s h with led := { s.led with applyCs := some cs } }) ∧
    (s.led.applyCs ≠ none → exec (.applyMessage h n (attempt s) cs) s = .next (heard s h))) ∧
  (∀ s h n att cs, ¬ Fresh s h 6 → exec (.applyMessage h n att cs) s = .next s)

/-- READY_MESSAGE, ABORT_REPORT and NORM_MESSAGE: the coordinator sends commit with the last ready, abort with the
first report, and apply with the last norm. Derived from R26, R27, R282, R291, R294, R313. -/
def Obligations.Coordinator : Prop :=
  (∀ s h (card : BitVec 14) (n : BitVec 64), Fresh s h 4 → amCoordinator s = true → jobRuns s = true → n.toNat = s.led.running →
    s.led.decided ≠ some (s.led.running, attempt s) → s.led.norms = [] →
    let x := (card.toNat, s.led.running, attempt s)
    let rs := if s.led.readies.contains x then s.led.readies else s.led.readies ++ [x]
    let all : Prop := ∀ l ∈ liveCards s, (l, s.led.running, attempt s) ∈ rs
    (¬ all → exec (.readyMessage h card n (attempt s)) s = .next { heard s h with led := { s.led with readies := rs } }) ∧
    (all → Completes (.readyMessage h card n (attempt s)) s fun t =>
      ToldAll { heard s h with led := { s.led with readies := rs, decided := some (s.led.running, attempt s), decCommit := true } } t
        (.commit s.led.running (attempt s)))) ∧
  (∀ s h (n : BitVec 64) (cause : BitVec 8) (card layer : BitVec 16), Fresh s h 5 → amCoordinator s = true → jobRuns s = true →
    n.toNat = s.led.running →
    (s.led.decided ≠ some (s.led.running, attempt s) →
      Completes (.abortReport h n (attempt s) cause card layer false) s fun t =>
        ToldAll { heard s h with led := { s.led with decided := some (s.led.running, attempt s), decCommit := false } } t
          (.abort s.led.running (attempt s) cause.toNat card.toNat layer.toNat (abortAction s cause.toNat (attempt s)))) ∧
    (s.led.decided = some (s.led.running, attempt s) →
      exec (.abortReport h n (attempt s) cause card layer false) s = .next (heard s h))) ∧
  (∀ s h (n : BitVec 64) att (cause : BitVec 8) (card layer : BitVec 16) lost, Fresh s h 5 → amCoordinator s = true → jobRuns s = true →
    s.led.decided = some (s.led.running, attempt s) →
    ((n.toNat = s.led.running ∧ att = attempt s + 1) ∨ (n.toNat = s.led.running + 1 ∧ att = 1)) →
    exec (.abortReport h n att cause card layer lost) s =
      .next { heard s h with led := { s.led with early := s.led.early ++ [(n.toNat, att, cause.toNat, card.toNat, layer.toNat, lost)] } }) ∧
  (∀ s h (card : BitVec 14) (n : BitVec 64) (a : BitVec 640) (l : BitVec 8) hold, Fresh s h 6 → amCoordinator s = true → jobRuns s = true →
    n.toNat = s.led.running → (ownLt s).mode = true → s.led.decided ≠ some (s.led.running, attempt s) →
    (∀ x ∈ s.led.norms, x.1 ≠ card.toNat) →
    let ns := s.led.norms ++ [(card.toNat, a.toNat, l.toInt, hold)]
    let g := globalNorm ns
    let cs := if (ownLt s).clipg &&& 0x7FFFFFFF ≠ 0 ∧ lt32 (ownLt s).clipg g = true then (opDiv (ownLt s).clipg g).1 else one32
    ((∀ c ∈ liveCards s, ∃ x ∈ ns, x.1 = c) → Completes (.normMessage h card n (attempt s) a l hold) s fun t =>
      t.out = s.out ++ towardEach s (liveCards s) (.apply s.led.running (attempt s) cs) ∧ t.led = { s.led with norms := [] } ∧ t.mem = s.mem) ∧
    (¬ (∀ c ∈ liveCards s, ∃ x ∈ ns, x.1 = c) →
      exec (.normMessage h card n (attempt s) a l hold) s = .next { heard s h with led := { s.led with norms := ns } })) ∧
  (∀ s h card n att cause (c2 layer : BitVec 16) lost a l hold,
    (amCoordinator s = false →
      (Fresh s h 4 → exec (.readyMessage h card n att) s = .next (heard s h)) ∧
      (Fresh s h 5 → exec (.abortReport h n att cause c2 layer lost) s = .next (heard s h)) ∧
      (Fresh s h 6 → exec (.normMessage h card n att a l hold) s = .next (heard s h))) ∧
    (¬ Fresh s h 4 → exec (.readyMessage h card n att) s = .next s) ∧
    (¬ Fresh s h 5 → exec (.abortReport h n att cause c2 layer lost) s = .next s) ∧
    (¬ Fresh s h 6 → exec (.normMessage h card n att a l hold) s = .next s))

namespace Sys2Proof.Claims

/-- A port may send `n` new flits on a lane at once: in service, the lane one of its own, nothing before them, room in the replay
buffer, and credits in every class of the lane. -/
def Clear (s : State) (p vl n : Nat) : Prop :=
  portUp s p = true ∧ vl ∈ portLanes p ∧ (getPort s p).queue = [] ∧ (getPort s p).retrain = false ∧
  (getPort s p).replay.length + n ≤ 1024 ∧ ∀ c, usedOf (getPort s p) vl c + n ≤ classCredits vl

/-- The lane `k` of a port trained, and the repair map does not hold it as dropped (R442). -/
def LaneOk (s : State) (p : Nat) (lanes : BitVec 4) (k : Nat) : Prop :=
  lanes.getLsbD k = true ∧ ∀ r ∈ s.boot.repair, ¬ (r.typ = 4 ∧ r.pos = p + 32 * k)

/-- The lanes that a port runs on (R301): all four, else a healthy pair, 0-1 or 2-3, else none. -/
def Width (s : State) (p : Nat) (lanes : BitVec 4) (w : Nat) : Prop :=
  let pair : Prop := (LaneOk s p lanes 0 ∧ LaneOk s p lanes 1) ∨ (LaneOk s p lanes 2 ∧ LaneOk s p lanes 3)
  (w = 4 ∧ ∀ k < 4, LaneOk s p lanes k) ∨ (w = 2 ∧ pair ∧ ¬ ∀ k < 4, LaneOk s p lanes k) ∨ (w = 0 ∧ ¬ pair)

/-- A good flit of type `typ` for this card has been received on port `p`: the link left the state `s1`, the header fields are
`h`, the payload `pl`; no tree holds a flit back. -/
def Arrives (s : State) (p : Fin 20) (f : Flit) (typ : Nat) (s1 : State) (h : Hdr) (pl : Bytes) : Prop :=
  recvFlit p.val f s = (s1, some (f.hdr.toNat, pl)) ∧ h = Hdr.of f.hdr.toNat ∧ h.typ = typ ∧ (getPort s1 p.val).retries < 64 ∧
  s1.keep.mirror = false ∧ (h.dst = cardId s1 ∨ 16 ≤ p.val) ∧ ∀ x, (getTree s1 x).held = []

/-- Only null flits have gone out since. -/
def Nulls (s t : State) : Prop := ∃ os, t.out = s.out ++ os ∧ ∀ o ∈ os, ∃ q hb, o = .flit q (wireFlit hb []) ∧ bits hb 3 0 = 0

/-- The links may have sent null flits, to take the acknowledgement and the credits due back (R303); nothing else differs. -/
def LinkAnswer (s t : State) : Prop :=
  t = { s with fab := { s.fab with ports := t.fab.ports }, out := t.out } ∧ Nulls s t ∧
  ∀ q, getPort t q = { getPort s q with owe := (getPort t q).owe }

/-- A range of device memory can be written: it can be read, and no byte of it lies in a plan area. -/
def Writable (s : State) (addr n : Nat) : Prop :=
  Readable s addr n ∧ (∀ x, addr ≤ x → x < addr + n → planArea s.strap.variant x = none) ∧ Apart s addr n

/-- Only the fabric's state, what is sent and the counts of it differ. -/
def OnlyFabric (s t : State) : Prop := t = { s with fab := t.fab, out := t.out, stat := { s.stat with run := t.stat.run } }

/-- `t` is `u` with one message to a card: its flit, counted on its ports, and the next MSGID (R330, R332). -/
def ToldId (u t : State) (c : Nat) (avoid : Option Nat) (m : TpMsg) : Prop :=
  t = { u with out := u.out ++ [.towpath { ports := hopPorts u c avoid, dst := some c, src := cardId u, msgid := u.fab.msgid } m],
               fab := { u.fab with msgid := t.fab.msgid }, stat := { u.stat with run := t.stat.run } }

/-- `t` is `u` with one message to each of a list of cards. -/
def ToldIds (u t : State) (cs : List Nat) (m : TpMsg) : Prop :=
  let lane (ci : Nat × Nat) : Lane0 :=
    { ports := hopPorts u ci.1 none, dst := some ci.1, src := cardId u,
      msgid := if ci.2 = 0 then u.fab.msgid else (u.fab.msgid + ci.2) % 65536 }
  t = { u with out := u.out ++ cs.zipIdx.map (fun ci => .towpath (lane ci) m), fab := { u.fab with msgid := t.fab.msgid },
               stat := { u.stat with run := t.stat.run } }

/-- No request that is not over goes through the port `p`. -/
def NoneOn (s : State) (p : Nat) : Prop := ∀ r ∈ s.fab.remotes, r.done = true ∨ (r.port ≠ p ∧ r.tree = none)

/-- The 16 payload bytes by which a port tells its peer card ID, coordinates, port number and geometry (R301). -/
def peerTold (s : State) (p : Nat) : Bytes :=
  leBytes 16 (pack [(16, cardId s), (8, num s 0x2800 4), (8, num s 0x2800 5), (8, num s 0x2800 6), (8, p),
    (1, if fourPort s then 1 else 0)])

/-- The bits of a flit's header: its type, lane, destination, transaction, address and LAST (R303). -/
def HdrIs (hb typ vl dst txn addr : Nat) (last : Bool) : Prop :=
  bits hb 3 0 = typ ∧ bits hb 6 4 = vl ∧ bits hb 61 48 = dst ∧ bits hb 167 152 = txn ∧ bits hb 129 88 = addr % 2 ^ 42 ∧
  bit hb 9 = last

end Sys2Proof.Claims

/-- PORT_TRAINED, LOSS_OF_LOCK, RETRAIN_DONE, RETRAIN_TIMEOUT and LINK_CONTROL set the condition of a port. Derived
from R22, R299, R301, R302, R307, R442, R460, notes/assumptions/202. -/
def Obligations.FabricPorts : Prop :=
  (∀ s (p : Fin 20) lanes i w, trains s = true → portUsed s p.val = true → (getPort s p.val).cable = true → Width s p.val lanes w →
    portUp s p.val = false →
    let recorded (t : State) : Prop := s.boot.repair <+: t.boot.repair ∧
      ∀ k < 4, lanes.getLsbD k = false → ∃ r ∈ t.boot.repair, r.typ = 4 ∧ r.pos = p.val + 32 * k
    let frame (t : State) : Prop := (∀ q, q ≠ p.val → getPort t q = getPort s q) ∧ t.mem = s.mem ∧ t.units = s.units ∧
      (lanes = 15#4 → t = { s with fab := { s.fab with ports := t.fab.ports }, out := t.out, stat := { s.stat with run := t.stat.run } })
    let entered (c : Nat) : PortSt := { cond := c, peer := some (i.card.toNat, i.port.val), cable := true }
    (0 < w → peerOk s p.val i = true → Completes (.portTrained p lanes i) s fun t =>
      getPort t p.val = entered (if w = 4 then 2 else 3) ∧ recorded t ∧ frame t ∧
      ∃ hb, .flit p.val (wireFlit hb (peerTold s p.val)) ∈ t.out ∧ bits hb 3 0 = 8 ∧ bits hb 77 64 = cardId s) ∧
    (w = 0 → Completes (.portTrained p lanes i) s fun t =>
      getPort t p.val = entered 4 ∧ recorded t ∧ frame t)) ∧
  (∀ s (p : Fin 20) i, trains s = true → portUsed s p.val = true → (getPort s p.val).cable = true → Width s p.val 15 4 →
    (peerOk s p.val i = false → (portUp s p.val = false ∨ NoneOn s p.val ∧ (getPort s p.val).queue = []) →
      Completes (.portTrained p 15 i) s fun t =>
        (getPort t p.val).cond = 5 ∧ (∀ q, q ≠ p.val → getPort t q = getPort s q) ∧
        Raised 0x14 0xFFFF (pack [(8, 3), (8, p.val)]) s t ∧ t.mem = s.mem ∧ t.units = s.units) ∧
    (peerOk s p.val i = true → portUp s p.val = true → (getPort s p.val).queue = [] → Completes (.portTrained p 15 i) s fun t =>
      getPort t p.val = { getPort s p.val with
        cond := 2, peer := some (i.card.toNat, i.port.val), retrain := false, nakSent := false, owe := (getPort t p.val).owe } ∧
      (∀ q, q ≠ p.val → getPort t q = getPort s q) ∧
      t = { s with fab := { s.fab with ports := t.fab.ports }, out := t.out, stat := { s.stat with run := t.stat.run } } ∧
      ∃ hb, bits hb 3 0 = 8 ∧ t.out = s.out ++ .flit p.val (wireFlit hb (peerTold s p.val)) ::
        (getPort s p.val).replay.map (fun f => .flit p.val (wireFlit f.2.1 f.2.2)))) ∧
  (∀ s (p : Fin 20) lanes i m, trains s = true → portUsed s p.val = true → (getPort s p.val).cable = true → portUp s p.val = true →
    s.fab.remotes = [m] → m.port = p.val → m.done = false → m.unit < 72 → (Width s p.val lanes 0 ∨ peerOk s p.val i = false) →
    Completes (.portTrained p lanes i) s fun t => portUp t p.val = false ∧ t.fab.remotes = [] ∧ t.mem = s.mem ∧
      Sparse.get 0 t.stat.boot (ekey 0x2820 0xC) = Sparse.get 0 s.stat.boot (ekey 0x2820 0xC) + 1) ∧
  (∀ s (p : Fin 20) lanes i, (trains s = false ∨ portUsed s p.val = false ∨ (getPort s p.val).cable = false) →
    exec (.portTrained p lanes i) s = .next s) ∧
  (∀ s (p : Fin 20),
    (portUp s p.val = false → exec (.lossOfLock p) s = .next s) ∧
    (portUp s p.val = true → (getPort s p.val).retrain = false → Completes (.lossOfLock p) s fun t =>
      getPort t p.val = { getPort s p.val with retrain := true, retries := 0 } ∧
      Sparse.get 0 t.stat.boot (ekey 0x2801 4) = Sparse.get 0 s.stat.boot (ekey 0x2801 4) + 1 ∧
      (∀ q, q ≠ p.val → getPort t q = getPort s q) ∧ t.out = s.out ∧ t.mem = s.mem ∧ t.units = s.units) ∧
    ((getPort s p.val).retrain = true → (getPort s p.val).queue = [] → Completes (.retrainDone p) s fun t =>
      getPort t p.val = { getPort s p.val with retrain := false, nakSent := false } ∧
      t.out = s.out ++ (getPort s p.val).replay.map (fun f => .flit p.val (wireFlit f.2.1 f.2.2)) ∧ t.mem = s.mem ∧ t.units = s.units) ∧
    ((getPort s p.val).retrain = true → NoneOn s p.val → (getPort s p.val).queue = [] →
      Completes (.retrainTimeout p) s fun t =>
        getPort t p.val = { ({} : PortSt) with cond := 4, peer := (getPort s p.val).peer, cable := (getPort s p.val).cable } ∧
        t = { s with fab := { s.fab with ports := t.fab.ports } }) ∧
    (∀ m, (getPort s p.val).retrain = true → s.fab.remotes = [m] → m.port = p.val → m.done = false → m.unit < 72 →
      Completes (.retrainTimeout p) s fun t =>
        t.fab.remotes = [] ∧ t.mem = s.mem ∧
        Sparse.get 0 t.stat.boot (ekey 0x2820 0xC) = Sparse.get 0 s.stat.boot (ekey 0x2820 0xC) + 1) ∧
    ((getPort s p.val).retrain = false → exec (.retrainDone p) s = .next s ∧ exec (.retrainTimeout p) s = .next s)) ∧
  (∀ s (p : Fin 20) f i, portUp s p.val = false → trains s = true → portUsed s p.val = true → f.fecOk = true →
    s.keep.mirror = false →
    (peerOk s p.val i = true → portCond s p.val = 1 → (getPort s p.val).cable = true → Completes (.linkControl p f i) s fun t =>
      getPort t p.val = { getPort s p.val with peer := some (i.card.toNat, i.port.val) } ∧
      t = { s with fab := { s.fab with ports := t.fab.ports } }) ∧
    (peerOk s p.val i = false → portCond s p.val ≠ 5 → (getPort s p.val).cable = true →
      Completes (.linkControl p f i) s fun t => (getPort t p.val).cond = 5 ∧ t.mem = s.mem ∧ t.units = s.units) ∧
    ((getPort s p.val).cable = false → exec (.linkControl p f i) s = .next s))

/-- The link takes good flits in order, answers a bad one with NAK, and frees what an ACK names. Derived from R303,
R304, R305, R306. -/
def Obligations.LinkLayer : Prop :=
  (∀ s (p : Fin 20) f, (portUp s p.val = false ∨ (getPort s p.val).retrain = true) → (getPort s p.val).retries < 64 →
    exec (.nullFlit p f) s = .next s ∧ exec (.writeFlit p f) s = .next s ∧ exec (.readResponse p f) s = .next s) ∧
  (∀ s (p : Fin 20) (f : Flit), portUp s p.val = true → (getPort s p.val).retrain = false → (getPort s p.val).retries < 64 →
    (f.fecOk = false ∨ f.crc.toNat ≠ crc32 (leBytes 28 f.hdr.toNat ++ takePad 224 f.payload)) →
    Completes (.writeFlit p f) s fun t =>
      (getPort t p.val).nakSent = true ∧ (getPort t p.val).rxSeq = (getPort s p.val).rxSeq ∧
      (∃ hb, t.out = s.out ++ [.flit p.val (wireFlit hb [])] ∧ bits hb 3 0 = 0 ∧ bit hb 10 = true) ∧
      t.mem = s.mem ∧ t.units = s.units) ∧
  (∀ s (p : Fin 20) (f : Flit), portUp s p.val = true → (getPort s p.val).retrain = false → (getPort s p.val).queue = [] →
    (getPort s p.val).retries < 64 →
    f.fecOk = true → f.crc.toNat = crc32 (leBytes 28 f.hdr.toNat ++ takePad 224 f.payload) →
    bits f.hdr.toNat 3 0 = 0 → bit f.hdr.toNat 10 = false → (∀ x, (getTree s x).held = []) →
    Completes (.nullFlit p f) s fun t =>
      let x := getPort s p.val
      let ack := bits f.hdr.toNat 35 24
      (getPort t p.val).replay = (if x.replay.any (fun r => decide (r.1 = ack)) then
        (x.replay.dropWhile fun r => decide (r.1 ≠ ack)).drop 1 else x.replay) ∧
      (∀ vl, Sparse.get [] (getPort t p.val).used vl = if vl = bits f.hdr.toNat 38 36
        then (Sparse.get [] x.used vl).drop (bits f.hdr.toNat 47 39) else Sparse.get [] x.used vl) ∧
      (getPort t p.val).rxSeq = x.rxSeq ∧ Nulls s t ∧ OnlyFabric s t) ∧
  (∀ s (p : Fin 20) (f : Flit), portUp s p.val = true → (getPort s p.val).retrain = false → (getPort s p.val).retries < 64 →
    f.fecOk = true → f.crc.toNat = crc32 (leBytes 28 f.hdr.toNat ++ takePad 224 f.payload) →
    bits f.hdr.toNat 3 0 = 1 → bits f.hdr.toNat 23 12 ≠ ((getPort s p.val).rxSeq + 1) % 4096 →
    Completes (.writeFlit p f) s fun t => (getPort t p.val).rxSeq = (getPort s p.val).rxSeq ∧ (getPort t p.val).nakSent = true ∧
      (t.out = s.out ↔ (getPort s p.val).nakSent = true) ∧ t.mem = s.mem ∧ t.units = s.units) ∧
  (∀ s (p : Fin 20) (f : Flit), portUp s p.val = true → (getPort s p.val).retrain = false → (getPort s p.val).retries < 64 →
    f.fecOk = true → f.crc.toNat = crc32 (leBytes 28 f.hdr.toNat ++ takePad 224 f.payload) →
    bits f.hdr.toNat 3 0 = 1 → bits f.hdr.toNat 23 12 = ((getPort s p.val).rxSeq + 1) % 4096 → bit f.hdr.toNat 10 = false →
    bits f.hdr.toNat 6 4 ∉ (if p.val < 16 then [0, 1, 2, 3, 5] else [0, 4]) →
    Completes (.writeFlit p f) s fun t => (getPort t p.val).rxSeq = bits f.hdr.toNat 23 12 ∧
      Sparse.get 0 t.stat.boot (ekey 0x5082 (p.val + 1)) = Sparse.get 0 s.stat.boot (ekey 0x5082 (p.val + 1)) + 1 ∧
      t.mem = s.mem ∧ t.units = s.units) ∧
  (∀ hb pl, hb < 2 ^ 224 → pl.length ≤ 224 →
    (wireFlit hb pl).length = 256 ∧ leAt (wireFlit hb pl) 0 28 = hb ∧
    ((wireFlit hb pl).drop 28).take 224 = pl ++ List.replicate (224 - pl.length) 0 ∧ leAt (wireFlit hb pl) 252 4 = crc32 ((wireFlit hb pl).take 252))

/-- WRITE_FLIT, READ_REQUEST, READ_RESPONSE, WRITE_ACKNOWLEDGE and REMOTE_REQUEST_TIMEOUT serve and end remote
requests. Derived from R303, R307, R308, R335. -/
def Obligations.FabricRequests : Prop :=
  (∀ s (p : Fin 20) f s1 h pl q, Arrives s p f 1 s1 h pl → h.vl ≠ 5 → h.last = true → pl ≠ [] →
    (h.src, h.txn) ∉ s1.fab.badWr → Writable s1 h.addr pl.length → nextPort s1 h.src h.unit none = some q → Clear s1 q h.vl 1 →
    Completes (.writeFlit p f) s fun t => Stored s1 t h.addr pl ∧ t.units = s1.units ∧
      ∃ hb, .flit q (wireFlit hb []) ∈ t.out ∧ bits hb 3 0 = 4 ∧ bits hb 61 48 = h.src ∧ bits hb 167 152 = h.txn) ∧
  (∀ s (p : Fin 20) f ecc s1 h pl, Arrives s p f 2 s1 h pl →
    let n := leAt pl 0 4
    ((n = 0 ∨ 16128 < n ∨ n % 16 ≠ 0) → Completes (.readRequest p f ecc) s fun t => LinkAnswer s1 t) ∧
    (∀ q, 0 < n → n ≤ 16128 → n % 16 = 0 → Readable s1 h.addr n → nextPort s1 h.src h.unit none = some q →
      Clear s1 q h.vl (cdiv n 224) → Completes (.readRequest p f .clean) s fun t => ∃ u, ∃ hbs : List Nat,
        hbs.length = cdiv n 224 ∧
        u.out = s1.out ++ hbs.zipIdx.map (fun x => .flit q (wireFlit x.1 (((devBytes s1 h.addr n).drop (224 * x.2)).take 224))) ∧
        (∀ i hb, hbs[i]? = some hb → HdrIs hb 3 h.vl h.src h.txn (h.addr + 224 * i) (decide (i + 1 = hbs.length))) ∧
        u.mem = s1.mem ∧ u.units = s1.units ∧ LinkAnswer u t)) ∧
  (∀ s (p : Fin 20) f s1 h pl m, Arrives s p f 3 s1 h pl → findRemote s1 h.txn = some m → m.write = false → m.done = false →
    m.unit < 72 → Completes (.readResponse p f) s fun t => ∃ u,
      findRemote u h.txn = some { m with got := m.got ++ pl, done := h.last } ∧
      (∀ x, x ≠ h.txn → findRemote u x = findRemote s1 x) ∧ u = { s1 with fab := { s1.fab with remotes := u.fab.remotes } } ∧
      LinkAnswer u t) ∧
  (∀ s (p : Fin 20) f s1 h pl m, Arrives s p f 4 s1 h pl → h.len = 0 → findRemote s1 h.txn = some m → m.write = true →
    m.unit < 72 → Completes (.writeAcknowledge p f) s fun t => ∃ u,
      findRemote u h.txn = some { m with done := true } ∧
      (∀ x, x ≠ h.txn → findRemote u x = findRemote s1 x) ∧ u = { s1 with fab := { s1.fab with remotes := u.fab.remotes } } ∧
      LinkAnswer u t) ∧
  (∀ s (txn : BitVec 16) m, findRemote s txn.toNat = some m →
    ((m.done = true ∨ s.keep.dev = .halted) → exec (.remoteRequestTimeout txn) s = .next s) ∧
    (m.done = false → s.keep.dev ≠ .halted → m.unit < 72 → Completes (.remoteRequestTimeout txn) s fun t =>
      findRemote t txn.toNat = none ∧ t.mem = s.mem ∧
      Sparse.get 0 t.stat.boot (ekey 0x2820 0xC) = Sparse.get 0 s.stat.boot (ekey 0x2820 0xC) + 1 ∧
      ((getCtx (getUnit s m.unit) m.ctx).flight.isSome →
        (getCtx (getUnit t m.unit) m.ctx).st = .fault ∧ t.stat.sfCause = if m.write then 3 else 2))) ∧
  (∀ s (txn : BitVec 16), findRemote s txn.toNat = none → exec (.remoteRequestTimeout txn) s = .next s)

/-- MULTICAST_DATA lands at a node of a tree; DETACH_MESSAGE makes it fetch the rest itself. Derived from R325, R326,
R327, R329, notes/assumptions/24. -/
def Obligations.MulticastAtANode : Prop :=
  (∀ s (p : Fin 20) f s1 h pl t0, Arrives s p f 6 s1 h pl → treeRec s1 h.tree = some t0 → t0.tree = h.tree → t0.role ≠ 0 →
    t0.child = [] → leAt pl 0 2 = 0 → Completes (.multicastData p f) s fun t => ∃ u,
      getTree u h.tree = { root := leAt pl 2 2, src := leAt pl 4 8, len := leAt pl 12 8, dst := h.addr, txn := h.txn,
                               unit := h.unit, vl := h.vl, up := some h.src } ∧
      (∀ x, x ≠ h.tree → getTree u x = getTree s1 x) ∧ u = { s1 with fab := { s1.fab with trees := u.fab.trees } } ∧
      LinkAnswer u t) ∧
  (∀ s (p : Fin 20) f s1 h pl t0, Arrives s p f 5 s1 h pl → treeRec s1 h.tree = some t0 → t0.tree = h.tree → t0.role ≠ 0 →
    attached s1 t0 = [] → h.last = false → pl ≠ [] →
    let r := getTree s1 h.tree
    r.own = false → r.ended = false → r.dst ≤ h.addr → Writable s1 h.addr pl.length → Completes (.multicastData p f) s fun t =>
      Stored s1 t h.addr pl ∧ getTree t h.tree = { r with landed := max r.landed (h.addr - r.dst + pl.length), ended := false } ∧
      t.units = s1.units) ∧
  (∀ s (p : Fin 20) (tree : BitVec 12) (root : BitVec 14) (src : BitVec 42) len landed t0, s.keep.mirror = false →
    treeRec s tree.toNat = some t0 →
    ((getTree s tree.toNat).own = true → exec (.detachMessage p tree root src len landed) s = .next s) ∧
    ((getTree s tree.toNat).own = false → Completes (.detachMessage p tree root src len landed) s fun t =>
      tree.toNat ∈ t.fab.detUp ∧ (getTree t tree.toNat).own = true ∧ (getTree t tree.toNat).root = root.toNat ∧
      (getTree t tree.toNat).src = src.toNat ∧ (getTree t tree.toNat).len = len ∧
      (getTree t tree.toNat).landed = max (getTree s tree.toNat).landed landed)) ∧
  (∀ s p tree root src len landed, treeRec s tree.toNat = none →
    exec (.detachMessage p tree root src len landed) s = .next s)

/-- System-scope gates: arrivals are noted, the last one opens the gate at HOME, a release opens it elsewhere; the
start gate compares the cards. Derived from R205, R206, R218, R321, R332, R334. -/
def Obligations.SystemGates : Prop :=
  (∀ s i p (g : Fin 1024), Issues s i p →
    let d := gateDef (getUnit s p) g.val
    let k := gateKey i.unit.val d
    let x := getGate s k
    let arrived : BitVec 64 := x.arrived ||| BitVec.ofNat 64 (1 <<< i.unit.val)
    d.scope = 4 → x.has i.unit.val = false → d.members &&& arrived ≠ d.members → Completes (.garr i g) s fun t =>
      (getGate t k).arrived = arrived ∧ (getGate t k).count i.unit.val = x.count i.unit.val + 1 ∧
      (getGate t k).phase = x.phase ∧ (∀ j, j ≠ k → getGate t j = getGate s j) ∧ getUnit t p = Finished (getUnit s p) ∧
      t.out = s.out ∧ t.mem = s.mem) ∧
  (∀ s h (home : BitVec 14) (num : BitVec 8) (want : BitVec 15) d, Fresh s h 2 → s.keep.dev ≠ .halted →
    let src := h.src
    let k := sysKey home.toNat num.toNat
    let x := getGate s k
    let cs := if x.cards.contains src.toNat then x.cards else x.cards ++ [src.toNat]
    sysGate s home.toNat num.toNat = some d →
    (d.members &&& x.arrived ≠ d.members → Completes (.gateArrival h (.gate home num want)) s fun t =>
      getGate t k = { x with cards := cs, want := want.toNat } ∧ (∀ j, j ≠ k → getGate t j = getGate s j) ∧
      t = { heard s h with gates := t.gates }) ∧
    (d.members &&& x.arrived = d.members → x.sent = false → d.scope = 4 →
      (d.cards = logicalCards s ∧ cardOf s home.toNat = some (cardId s) ∧ (∀ c ∈ treeBelow s (cardId s), c ∈ cs) ∨
        d.cards ≠ logicalCards s ∧ some home.toNat = myLogical s ∧ d.cards ≤ cs.length + 1) →
      Completes (.gateArrival h (.gate home num want)) s fun t =>
        getGate t k = { x with phase := x.phase + 1, arrived := 0, cards := [], sent := false, want := want.toNat } ∧
        (∀ j, j ≠ k → getGate t j = getGate s j) ∧
        ToldIds { heard s h with gates := t.gates } t cs (.gateRelease home.toNat num.toNat))) ∧
  (∀ s h (home : BitVec 14) (num : BitVec 8) want, Fresh s h 3 → s.keep.dev ≠ .halted →
    let k := sysKey home.toNat num.toNat
    let x := getGate s k
    (x.sent = false → exec (.gateRelease h (.gate home num want)) s = .next (heard s h)) ∧
    (∀ d, x.sent = true → sysGate s home.toNat num.toNat = some d → d.scope = 4 →
      Completes (.gateRelease h (.gate home num want)) s fun t =>
        getGate t k = { x with phase := x.phase + 1, arrived := 0, cards := [], sent := false } ∧
        (∀ j, j ≠ k → getGate t j = getGate s j) ∧
        ToldIds { heard s h with gates := t.gates } t x.cards (.gateRelease home.toNat num.toNat))) ∧
  (∀ s h (sysid : BitVec 128) (cards : BitVec 16) (n : BitVec 64) l, Fresh s h 2 → s.keep.dev ≠ .halted → amCoordinator s = true →
    logicalOf s h.src.toNat = some l → s.fab.badEdge = none →
    let xs := s.led.startArr.filter (fun x => decide (x.1 ≠ l)) ++ [(l, sysid.toNat, cards.toNat, n.toNat)]
    ((∀ c ∈ liveCards s, ∃ x ∈ xs, x.1 = c) → (∀ x ∈ xs, x.2 = (sysid.toNat, cards.toNat, n.toNat)) →
      Completes (.gateArrival h (.start sysid cards n none)) s fun t =>
        ToldAll { heard s h with led := { s.led with startArr := [] } } t (.startRelease none)) ∧
    (¬ (∀ c ∈ liveCards s, ∃ x ∈ xs, x.1 = c) → exec (.gateArrival h (.start sysid cards n none)) s =
      .next { heard s h with led := { s.led with startArr := xs } })) ∧
  (∀ s h, Fresh s h 3 → s.led.startGate = true → s.keep.dev ≠ .halted →
    (exec (.gateRelease h (.startOpen none)) s = .next { heard s h with led := { s.led with startGate := false } }) ∧
    (∀ c : BitVec 16, Completes (.gateRelease h (.startOpen (some c))) s fun t =>
      t.plan.result = 18 ∧ t.plan.resItem = c.toNat ∧ t.led.st = .nojob ∧ t.keep.dev = .planLoaded ∧ t.mem.cells = s.mem.cells)) ∧
  (∀ s h (tree : BitVec 12) (a b : BitVec 14), Fresh s h 10 → s.led.startGate = false →
    (Completes (.treeEdgeConfirmation h tree a b true) s fun t =>
      (tree.toNat, a.toNat, b.toNat) ∈ t.fab.edges ∧ (∀ e ∈ s.fab.edges, e ∈ t.fab.edges) ∧
      t = { s with fab := { (heard s h).fab with edges := t.fab.edges } }) ∧
    (Completes (.treeEdgeConfirmation h tree a b false) s fun t =>
      (tree.toNat, a.toNat, b.toNat) ∈ t.fab.badEdges ∧ (∀ e ∈ s.fab.badEdges, e ∈ t.fab.badEdges) ∧
      t = { s with fab := { (heard s h).fab with
        badEdge := some (match s.fab.badEdge with | none => b.toNat | some c => min c b.toNat), badEdges := t.fab.badEdges } })) ∧
  (∀ s h g tree a b ok, (¬ Fresh s h 2 → exec (.gateArrival h g) s = .next s) ∧ (¬ Fresh s h 3 → exec (.gateRelease h g) s = .next s) ∧
    (¬ Fresh s h 10 → exec (.treeEdgeConfirmation h tree a b ok) s = .next s))

/-- Heartbeats, suspicion and probes: a silent neighbour is suspected, a suspect is probed, a probe without answer
declares the card failed. Derived from R27, R330, R331, R332, R360. -/
def Obligations.HeartbeatsAndProbes : Prop :=
  (∀ s (h : TpHdr), Fresh s h 8 → Completes (.heartbeatMessage h) s fun t =>
    h.port.val ∈ t.fab.alive ∧ (∀ q, q ≠ h.port.val → (q ∈ t.fab.alive ↔ q ∈ s.fab.alive)) ∧
    t = { s with fab := { (heard s h).fab with alive := t.fab.alive } }) ∧
  (∀ s, Completes .fabricHeartbeatTimer s fun t =>
    t = { s with fab := { s.fab with seen := [], seenOld := s.fab.seen, msgid := t.fab.msgid }, stat := { s.stat with run := t.stat.run },
                 out := if fabricTrained s then s.out ++ [toNeighbours s .heartbeat] else s.out }) ∧
  (∀ s (c : BitVec 14), c.toNat ∉ failedCards s → c.toNat ∉ s.fab.declared → Completes (.suspicionTimeout c) s fun t =>
    (silent s c.toNat = true → t.out = s.out ++ towardCard s (judgeOf s c.toNat) (.suspect c.toNat)) ∧
    (silent s c.toNat = false → t.out = s.out) ∧ (∀ p ∈ portsTo s c.toNat, p ∉ t.fab.alive) ∧ OnlyFabric s t) ∧
  (∀ s (h : TpHdr) (c : BitVec 14), Fresh s h 9 → some (judgeOf s c.toNat) = myLogical s → c.toNat ∉ failedCards s → c.toNat ∉ s.fab.declared →
    (h.src ≠ c → c.toNat ∉ s.fab.probing → Completes (.suspect h c) s fun t =>
      ToldId { s with fab := { (heard s h).fab with probing := s.fab.probing ++ [c.toNat] } } t c.toNat (some h.src.toNat)
        (.probe h.src.toNat)) ∧
    (h.src ≠ c → c.toNat ∈ s.fab.probing → exec (.suspect h c) s = .next (heard s h)) ∧
    (h.src = c → Completes (.suspect h c) s fun t => c.toNat ∈ t.fab.declared)) ∧
  (∀ s (h : TpHdr), Fresh s h 9 →
    (s.keep.mirror = false → Completes (.probe h) s fun t => ToldId (heard s h) t h.src.toNat none .probeAnswer) ∧
    (s.keep.mirror = true → exec (.probe h) s = .next (heard s h)) ∧
    exec (.probeAnswer h) s =
      .next { s with fab := { (heard s h).fab with probing := s.fab.probing.filter (· ≠ h.src.toNat) } }) ∧
  (∀ s (h : TpHdr) c, (¬ Fresh s h 8 → exec (.heartbeatMessage h) s = .next s) ∧
    (¬ Fresh s h 9 → exec (.suspect h c) s = .next s ∧ exec (.probe h) s = .next s ∧ exec (.probeAnswer h) s = .next s)) ∧
  (∀ s (c : BitVec 14),
    (c.toNat ∉ s.fab.probing → exec (.probeTimeout c) s = .next s) ∧
    (c.toNat ∈ s.fab.probing → c.toNat ∉ failedCards s → c.toNat ∉ s.fab.declared →
      (∀ r ∈ s.fab.remotes, r.done = true ∨ (r.dst ≠ c.toNat ∧ r.tree = none)) → Completes (.probeTimeout c) s fun t =>
      c.toNat ∈ t.fab.declared ∧ c.toNat ∉ t.fab.probing ∧ t.mem = s.mem ∧ t.units = s.units ∧
      (∀ f, logicalOf s c.toNat = some f → f ≠ coordinator s → jobRuns s = true →
        s.led.decided ≠ some (s.led.running, attempt s) →
        t.led.decided = some (s.led.running, attempt s) ∧ t.led.decCommit = false)))

/-- HALT and RESUME: each card acts on the latest halt once, spreads it, and goes on with the resume that carries it.
Derived from R332, R335, R336, R337, notes/assumptions/188. -/
def Obligations.HaltAndResume : Prop :=
  let halted (s t : State) (serial origin : Nat) : Prop :=
    let later := laterHalt (serial, origin) (s.fab.haltSer, s.fab.haltOrg)
    t.fab = { s.fab with haltSer := if later then serial else s.fab.haltSer, haltOrg := if later then origin else s.fab.haltOrg,
                         acted := s.fab.acted ++ [(serial, origin)], seenSer := max s.fab.seenSer serial, msgid := t.fab.msgid } ∧
    t.keep = (if s.keep.dev = .running then { s.keep with dev := .halted } else s.keep) ∧
    t.mem = s.mem ∧ t.units = s.units ∧ t.led = s.led ∧ t.dict = s.dict
  let resumed (s t : State) (serial origin : Nat) : Prop :=
    let goes := s.keep.dev = .halted ∧ s.keep.mirror = false ∧ laterHalt (s.fab.haltSer, s.fab.haltOrg) (serial, origin) = false
    t.fab = { s.fab with resSer := serial, resOrg := origin, seenSer := max s.fab.seenSer serial, msgid := t.fab.msgid } ∧
    t.keep = (if goes then { s.keep with dev := .running } else s.keep) ∧ t.mem = s.mem ∧ t.units = s.units ∧
    t.led = (if goes ∧ s.led.st ≠ .aborting then { s.led with engStop := [] } else s.led) ∧ t.dict = s.dict
  (∀ s a, Takes s a 0x2804 1 → Completes (.halt a 1) s fun t => halted s t (s.fab.seenSer + 1) (cardId s) ∧
    t.out = s.out ++ [.usdo a [], toNeighbours s (.halt (s.fab.seenSer + 1) (cardId s)), .nmtStop]) ∧
  (∀ s h (n : BitVec 32) (o : BitVec 14), Fresh s h 7 →
    ((n.toNat, o.toNat) ∉ s.fab.acted → Completes (.haltMessage h n o) s fun t =>
      halted (heard s h) t n.toNat o.toNat ∧ t.out = s.out ++ [toNeighbours s (.halt n.toNat o.toNat)]) ∧
    ((n.toNat, o.toNat) ∈ s.fab.acted → exec (.haltMessage h n o) s = .next (heard s h))) ∧
  (∀ s a, Takes s a 0x2804 2 → s.fab.recorded = [] → Completes (.resume a 1) s fun t => resumed s t s.fab.haltSer s.fab.haltOrg ∧
    t.out = s.out ++ [toNeighbours s (.resume s.fab.haltSer s.fab.haltOrg), .usdo a []]) ∧
  (∀ s h (n : BitVec 32) (o : BitVec 14), Fresh s h 7 →
    let goes := s.keep.dev = .halted ∧ s.keep.mirror = false ∧ laterHalt (s.fab.haltSer, s.fab.haltOrg) (n.toNat, o.toNat) = false
    let new := laterHalt (n.toNat, o.toNat) (s.fab.resSer, s.fab.resOrg) = true
    (new ∨ goes → s.fab.recorded = [] → Completes (.resumeMessage h n o) s fun t =>
      resumed (heard s h) t n.toNat o.toNat ∧ t.out = s.out ++ [toNeighbours s (.resume n.toNat o.toNat)]) ∧
    (¬ new → ¬ goes → exec (.resumeMessage h n o) s = .next (heard s h)) ∧
    (∀ es e v h' c, goes → s.fab.recorded = es ++ [e] → v.keep.dev ≠ .halted →
      exec (.resumeMessage h n o) { s with fab := { s.fab with recorded := es } } = .next v →
      (match e with
        | .arrival src g => h'.src = src ∧ Fresh v h' 2 ∧ c = .gateArrival h' g
        | .release g => Fresh v h' 3 ∧ c = .gateRelease h' g) →
      Completes c v fun t => exec (.resumeMessage h n o) s = .next { t with fab := { t.fab with seen := v.fab.seen } })) ∧
  (∀ s h g, s.keep.dev = .halted → s.keep.mirror = false →
    (Fresh s h 2 → exec (.gateArrival h g) s =
      .next { s with fab := { (heard s h).fab with recorded := s.fab.recorded ++ [.arrival h.src g] } }) ∧
    (Fresh s h 3 → exec (.gateRelease h g) s =
      .next { s with fab := { (heard s h).fab with recorded := s.fab.recorded ++ [.release g] } })) ∧
  (∀ s h n o, ¬ Fresh s h 7 → exec (.haltMessage h n o) s = .next s ∧ exec (.resumeMessage h n o) s = .next s) ∧
  (∀ s a (v : BitVec 8), v ≠ 1 → Takes s a 0x2804 1 → Refused (.halt a v) a 0x2804 1 0x06090030 s)

namespace Sys2Proof.Claims

/-- `t` is `u` with one message to the twin, counted on the port that carries it (R349). -/
def TwinTold (u t : State) (m : TwMsg) : Prop := t = { u with out := u.out ++ [.twin m], stat := { u.stat with run := t.stat.run } }

/-- The card with the next MSGID behind `k` lane-0 messages (R332). -/
def afterMsgs (s : State) (k : Nat) : State :=
  { s with fab := { s.fab with msgid := if k = 0 then s.fab.msgid else (s.fab.msgid + k) % 65536 } }

/-- The touched layers cannot be restored any more: the card is plan-loaded and LOST, and behind `k` other lane-0 messages it has told
the coordinator, where that is a card (R288). -/
def GoesLost (s t : State) (k : Nat) : Prop :=
  t.led.st = .lost ∧ t.keep.dev = .planLoaded ∧
  ∀ o ∈ towardCard (afterMsgs s k) (coordinator s)
    (.abortRep s.led.running (attempt s) s.led.abCause ((myLogical s).getD 0xFFFF) s.led.abLayer true), o ∈ t.out

/-- No part awaits that a commit applies at once: those of the CAN route, which wait for their response (R37). -/
def NoNow (s : State) : Prop := ∀ p ∈ s.dict.awaiting, p.point ≠ .now

/-- Bytes of the side pond lie in groups in service, and no block of them is uncorrectable (R247, R248). -/
def PondGood (s : State) (off n : Nat) : Prop := pondDown s off n = false ∧ pondBlocks s off n = []

/-- The partner still lives: the sideband of a pair on twin ports shows its keeper, or its fabric heartbeats continue (R347). -/
def KeeperLives (s : State) (beats : Bool) : Prop := (s.twin.sideband = true ∧ s.twin.link ≠ 2) ∨ beats = true

/-- Every one of a list of ranges can be read. -/
def AllReadable (s : State) (rs : List (Nat × Nat)) : Prop := ∀ r ∈ rs, Readable s r.1 r.2

end Sys2Proof.Claims

/-- PAIR to SEEDOK bring a pair IN STEP; HB, the sideband, UNPAIR and TWIN_LINK_LOST keep or end it; a card-level
fault ends the card's part. Derived from R288, R331, R343, R344, R345, R346, R347, R349, R360, R461. -/
def Obligations.TwinPairing : Prop :=
  (∀ s, s.keep.mirror = false → (s.twin.pair = .waiting ∨ s.twin.pair = .solo ∧ seedPhase s ≠ 0) →
    ((s.twin.sawPair = false ∨ s.twin.pAccepts = false ∨ maySeed s = false) → Completes .pairTimer s fun t =>
      TwinTold { s with twin := { s.twin with pairSent := true } } t (.pair (myPair s))) ∧
    (s.twin.sawPair = true → s.twin.pAccepts = true → maySeed s = true → Completes .pairTimer s fun t => t.twin.pair = .seeding ∧
      t.mem.cells = s.mem.cells ∧ t.units = s.units)) ∧
  (∀ s, (s.keep.mirror = true ∨ s.twin.pair ≠ .waiting ∧ (s.twin.pair ≠ .solo ∨ seedPhase s = 0)) → exec .pairTimer s = .next s) ∧
  (∀ s m, s.keep.mirror = false →
    (pairMatches m s = false → exec (.pair m) s = .next s) ∧
    (pairMatches m s = true → (s.twin.pair = .waiting ∨ s.twin.pair = .solo) → Completes (.pair m) s fun t =>
      t.twin.sawPair = true ∧ t.mem.cells = s.mem.cells ∧ t.units = s.units ∧
      (m.accepted = false → ∃ w : PairMsg, w.accepted = true ∧ .twin (.pair w) ∈ t.out) ∧
      t.twin.pair = if m.accepted = true ∧ maySeed { s with twin := { s.twin with pLedger := m.ledger } } = true
        then .seeding else s.twin.pair) ∧
    (pairMatches m s = true → s.twin.pair = .seeding → s.twin.seeded = true → m.state = 1 → m.accepted = false →
      Completes (.pair m) s fun t => t.twin.pair = .waiting ∧ t.twin.sentOk = false ∧ t.mem.cells = s.mem.cells ∧ t.units = s.units) ∧
    (s.twin.pair ≠ .waiting → s.twin.pair ≠ .solo → ¬ (s.twin.pair = .seeding ∧ s.twin.seeded = true ∧ m.state = 1) →
      exec (.pair m) s = .next s)) ∧
  (∀ s m, s.keep.mirror = true → exec (.pair m) s = .next s) ∧
  (∀ s (a : BitVec 42) data, s.twin.pair = .seeding →
    (∃ r ∈ mirrorRanges s, r.1 ≤ a.toNat ∧ a.toNat + data.length ≤ r.1 + r.2) → Writable s a.toNat data.length →
    Completes (.seed a data) s fun t => Stored s t a.toNat data ∧ t.units = s.units ∧ t.twin = { s.twin with seeded := true }) ∧
  (∀ s a data, s.twin.pair ≠ .seeding → exec (.seed a data) s = .next s ∧ exec .seedOk s = .next s) ∧
  (∀ s (n : BitVec 64) ds bd block, s.twin.pair = .seeding → s.fab.joining = false → Completes (.seedEnd n ds bd block) s fun t =>
    t.twin.seedStep = n.toNat ∧ t.units = s.units ∧
    (t.twin.seedLeft = [] → t.twin.sentOk = true ∧ t.twin.mirror = n.toNat ∧ .twin .seedOk ∈ t.out) ∧
    (t.twin.seedLeft ≠ [] → t.twin.sentOk = s.twin.sentOk ∧ t.twin.pair = .seeding)) ∧
  (∀ s, s.twin.pair = .seeding → s.fab.joining = false → s.twin.loading = none →
    (s.twin.sentOk = true → Completes .seedOk s fun t => t.twin.pair = .inStep ∧ t.led.shadowOf = s.led.committed ∧
      t.mem = s.mem ∧ t.units = s.units) ∧
    (s.twin.sentOk = false → exec .seedOk s = .next { s with twin := { s.twin with gotOk := true } })) ∧
  (∀ s off data last, twinOn s = true → s.plan.plan.tw.custody = true → off + data.length ≤ 4294967296 →
    Writable s (s.plan.plan.tw.custAddr + off) data.length → Completes (.image off data last) s fun t =>
      Stored s t (s.plan.plan.tw.custAddr + off) data ∧ bit t.twin.custody 1 = last ∧ t.units = s.units) ∧
  (∀ s (p : Fin 20), exec (.hb p) s = .next { s with twin := { s.twin with hbSeen := true } } ∧
    exec .sidebandTimeout s = .next { s with twin := { s.twin with sideband := false } } ∧
    ((s.twin.pair = .seeding ∨ s.twin.pair = .inStep) → s.keep.mirror = false → Completes .twinHbTimer s fun t => TwinTold s t .hb) ∧
    (¬ ((s.twin.pair = .seeding ∨ s.twin.pair = .inStep) ∧ s.keep.mirror = false) → exec .twinHbTimer s = .next s)) ∧
  (∀ s alive,
    (s.twin.hbSeen = true ∨ s.keep.mirror = true ∨ (s.twin.pair ≠ .inStep ∧ s.twin.pair ≠ .seeding) ∨
        (partnerServes s = true ∧ KeeperLives s alive) →
      exec (.twinLinkLost alive) s = .next { s with twin := { s.twin with hbSeen := false } }) ∧
    (s.twin.hbSeen = false → s.keep.mirror = false → (s.twin.pair = .inStep ∨ s.twin.pair = .seeding) →
      (s.led.st = .restoring → partnerServes s = false → NoNow s → Completes (.twinLinkLost alive) s fun t =>
        (KeeperLives s alive → t.twin.pair = .solo ∧ GoesLost s t (if ((partner s).bind (cardOf s)).isSome then 1 else 0)) ∧
        (¬ KeeperLives s alive → GoesLost s t (match (partner s).bind (cardOf s) with
          | none => 0
          | some c => if (cardOf s (judgeOf s c)).isSome then 1 else 0)) ∧
        t.mem.cells = s.mem.cells ∧ t.units = s.units) ∧
      (KeeperLives s alive → s.led.st ≠ .restoring → partnerServes s = false → Completes (.twinLinkLost alive) s fun t =>
        t.twin.pair = .solo ∧ t.twin.cause = 1 ∧ t.twin.pcard = 0xFFFF ∧ t.twin.link = 0 ∧ (∃ o, t.out = s.out ++ .twin (.unpair 1) :: o) ∧
        (∀ c, (partner s).bind (cardOf s) = some c →
          .towpath { ports := hopPorts s c none, dst := some c, src := cardId s, msgid := s.fab.msgid } (.unpair 1) ∈ t.out) ∧
        t.mem = s.mem ∧ t.units = s.units) ∧
      (¬ KeeperLives s alive → s.led.st ≠ .restoring → ∀ c, (partner s).bind (cardOf s) = some c →
        Completes (.twinLinkLost alive) s fun t => t.twin.pair = s.twin.pair ∧
          t.out = s.out ++ towardCard s (judgeOf s c) (.suspect c)))) ∧
  (∀ s, s.keep.mirror = false → (s.twin.pair = .inStep ∨ s.twin.pair = .seeding) →
    (s.led.st ≠ .restoring → Completes .unpair s fun t => t.twin.pair = .solo ∧ t.twin.cause = 1 ∧ t.mem = s.mem ∧ t.units = s.units) ∧
    (s.led.st = .restoring → NoNow s → Completes .unpair s fun t =>
      t.twin.pair = .solo ∧ t.twin.cause = 1 ∧ GoesLost s t 0 ∧ t.units = s.units)) ∧
  (∀ s, (s.keep.mirror = true ∨ s.twin.pair ≠ .inStep ∧ s.twin.pair ≠ .seeding) → exec .unpair s = .next s) ∧
  (∀ s, (s.keep.mirror = true → exec .cardLevelFault s = .next s) ∧
    (s.keep.mirror = false → Completes .cardLevelFault s fun t =>
      t.keep.mirror = true ∧ t.keep.dev = .halted ∧ t.led.st = .nojob ∧
      (∀ o ∈ towardCard s (judgeOf s (cardId s)) (.suspect (cardId s)), o ∈ t.out) ∧
      (∀ pu ∈ t.units.phys, pu.2.stopped = true) ∧ t.mem = s.mem ∧
      (canServeMirror s = true → t.twin.pair = .mirrorService)))

/-- The messages of a step between twins: gradients and inputs are held, the shadow update agrees or goes to
resolution, and mirrors are served. Derived from R29, R349, R350, R351, R352, R353, R355, R356, R357, R358. -/
def Obligations.TwinStep : Prop :=
  (∀ s (n : BitVec 64) off data, twinOn s = true → off + data.length < s.plan.plan.tw.ringBytes →
    PondGood s (pondPend s off) data.length →
    Completes (.input n off data) s fun t =>
      (∀ i, i < data.length → Sparse.get 0 t.mem.pend (off + i) = data.getD i 0) ∧
      (∀ k, k < off ∨ off + data.length ≤ k → Sparse.get 0 t.mem.pend k = Sparse.get 0 s.mem.pend k) ∧
      t = { s with mem := { s.mem with pend := t.mem.pend } }) ∧
  (∀ s (n : BitVec 64) k e t0 off data, twinOn s = true → n.toNat = s.led.running → layerEnt (partnerLt s) k = some e →
    (partnerLt s).tensorsOf e = [t0] → off + data.length ≤ 4 * t0.size → data ≠ [] →
    PondGood s (pondPend s (t0.grad + off)) data.length → Completes (.grad n k off data) s fun t =>
      (∀ i, i < data.length → Sparse.get 0 t.mem.pend (t0.grad + off + i) = data.getD i 0) ∧
      (∀ x, x < t0.grad + off ∨ t0.grad + off + data.length ≤ x → Sparse.get 0 t.mem.pend x = Sparse.get 0 s.mem.pend x) ∧
      t = { s with mem := { s.mem with pend := t.mem.pend }, twin := { s.twin with shadowB := s.twin.shadowB + data.length } }) ∧
  (∀ s (st : BitVec 64) k e n cs dg ds, twinOn s = true → st.toNat = s.led.running → layerEnt (partnerLt s) k = some e →
    let good : Prop := ∀ x ∈ (partnerLt s).tensorsOf e, PondGood s (pondPend s x.grad) (4 * x.size)
    let answered (t : State) (ok : Bool) : Prop :=
      mirrorRun t k = { mirrorRun s k with n := n, cs := cs, dg := dg, ds := ds, gended := ok } ∧
      .twin (.gack s.led.running k ok) ∈ t.out ∧ t.mem.cells = s.mem.cells ∧ t.mem.pend = s.mem.pend ∧ t.units = s.units
    (good → Completes (.gend st k n cs dg ds) s fun t =>
      answered t (decide ((gradBytes true (partnerLt s) e s).map twinDigest = some dg)) ∧ t.mem = s.mem) ∧
    (¬ good → Completes (.gend st k n cs dg ds) s fun t => answered t false ∧ Grew s t 0x3012 3 1)) ∧
  (∀ s (st : BitVec 64) k e, twinOn s = true → st.toNat = s.led.running → layerEnt (ownLt s) k = some e →
    (Completes (.gack st k true) s fun t => layerRun t k = { layerRun s k with gok := true } ∧
      (∀ j, j ≠ k → layerRun t j = layerRun s j) ∧ t = { s with led := { s.led with layers := t.led.layers } }) ∧
    (let r := layerRun s k
     let gs := (ownLt s).tensorsOf e |>.map fun x => (x.grad, 4 * x.size)
     r.gacks < 3 → AllReadable s gs → Completes (.gack st k false) s fun t => layerRun t k = { r with gacks := r.gacks + 1 } ∧
      t.out = s.out ++ [.twin (.grad s.led.running k (rangeBytes s gs)),
        .twin (.gend s.led.running k r.n r.csUse (twinDigest (rangeBytes s gs)) r.ds)] ∧ t.mem = s.mem ∧ t.units = s.units) ∧
    (3 ≤ (layerRun s k).gacks → s.led.st ≠ .restoring → partnerServes s = false → KeeperLives s (partnerBeats s) →
      Completes (.gack st k false) s fun t => t.twin.pair = .solo ∧ t.twin.cause = 1 ∧ t.mem = s.mem ∧ t.units = s.units)) ∧
  (∀ s (n : BitVec 64) m, twinOn s = true →
    (Completes (.stepm n m) s fun t =>
      let u : State := { s with twin := { s.twin with meas := some m, measStep := n.toNat, precord :=
        if n.toNat = s.twin.mirror + 1 then { s.twin.precord with repair := (StepRec.ofNat m.record.toNat).repair } else s.twin.precord } }
      if s.twin.inputStep = n.toNat ∨ s.plan.plan.tw.ringBytes = 0 then TwinTold u t (.sack n.toNat) else t = u) ∧
    exec (.sack n) s = .next { s with twin := { s.twin with sacked := n.toNat } }) ∧
  (∀ s gen (target : Option (BitVec 64)) es, twinOn s = true → Completes (.part gen target es) s fun t => TwinTold { s with
    twin := { s.twin with pparts := s.twin.pparts ++ [⟨gen, .step, target.map (·.toNat), es⟩] } } t (.pack gen.toNat)) ∧
  (∀ s gen,
    (∀ x, s.dict.packWait.find? (fun x => decide (x.1 = gen)) = some x → s.dict.awaiting = [] →
      RouteAnswers s x.2.path → Completes (.pack gen) s fun t =>
      .usdo x.2 [] ∈ t.out ∧ t.dict.packWait = s.dict.packWait.erase x ∧ t.mem = s.mem ∧ t.units = s.units) ∧
    (s.dict.packWait.find? (fun x => decide (x.1 = gen)) = none → exec (.pack gen) s = .next s)) ∧
  (∀ s k e m, layerEnt (partnerLt s) k = some e → s.twin.meas = some m → s.twin.shadowN ≠ 0 → s.keep.dev ≠ .halted →
    let r := mirrorRun s k
    r.gended = true → r.done = false → r.bad = false → r.refetch = false →
    let held : Prop := ∀ x ∈ (partnerLt s).tensorsOf e, PondGood s (pondPend s x.grad) (4 * x.size)
    let others : Prop := ∃ j ∈ layerNumbers (partnerLt s), j ≠ k ∧ (mirrorRun s j).done = false
    (∀ s1 d, held → shadowLayer k e m s = (s1, some d) →
      (d = r.ds → others → r.fetched = false → Completes (.shadowLayerDone k .clean) s fun t =>
        mirrorRun t k = { r with done := true, dc := d } ∧ mirrorRef t k = d ∧ t.mem = s1.mem) ∧
      (d = r.ds → others → r.fetched = true → Completes (.shadowLayerDone k .clean) s fun t =>
        (mirrorRun t k).done = true ∧ mirrorRef t k = d ∧ t.twin.resLayer = k ∧ t.twin.resOut = 4 ∧
        Sparse.get 0 t.stat.boot (ekey 0x2A04 6) = Sparse.get 0 s1.stat.boot (ekey 0x2A04 6) + 1 ∧ t.mem = s1.mem) ∧
      (d ≠ r.ds → Completes (.shadowLayerDone k .clean) s fun t => mirrorRun t k = { r with dc := d, bad := true } ∧
        t.out = s1.out ++ [.twin (.digreq k)] ∧ t.mem = s1.mem)) ∧
    (∀ s1, held → shadowLayer k e m s = (s1, none) → Completes (.shadowLayerDone k .clean) s fun t =>
      (mirrorRun t k).bad = true ∧ (mirrorRun t k).overw = true ∧ (mirrorRun t k).done = false ∧
      t.out = s1.out ++ [.twin (.pull (.layer k true))] ∧ t.mem = s1.mem) ∧
    (∀ ecc, gradientLost s k ecc = true → r.pulls < 3 → Completes (.shadowLayerDone k ecc) s fun t =>
      mirrorRun t k = { r with pulls := r.pulls + 1, refetch := true, fetched := true } ∧ .twin (.pull (.grad k)) ∈ t.out ∧
      t.mem.cells = s.mem.cells ∧ t.mem.pend = s.mem.pend ∧ Grew s t 0x3012 3 1) ∧
    (∀ ecc, gradientLost s k ecc = true → 3 ≤ r.pulls → Completes (.shadowLayerDone k ecc) s fun t =>
      (mirrorRun t k).bad = true ∧ (mirrorRun t k).overw = true ∧ (mirrorRun t k).done = false ∧
      .twin (.pull (.layer k true)) ∈ t.out ∧ t.mem.cells = s.mem.cells)) ∧
  (∀ s k e t0 bs ref, s.keep.mirror = false → layerEnt (partnerLt s) k = some e → (partnerLt s).tensorsOf e = [t0] →
    bs.length = 4 * t0.size → (mirrorRun s k).refetch = true → PondGood s (pondPend s t0.grad) bs.length → Completes (.data (.grad k) bs ref) s fun t =>
      mirrorRun t k = { mirrorRun s k with refetch := false } ∧ t.out = s.out ∧
      (∀ i, i < bs.length → Sparse.get 0 t.mem.pend (t0.grad + i) = bs.getD i 0) ∧
      (∀ x, x < t0.grad ∨ t0.grad + bs.length ≤ x → Sparse.get 0 t.mem.pend x = Sparse.get 0 s.mem.pend x)) ∧
  (∀ s (n : BitVec 64), twinOn s = true → s.led.st ≠ .restoring → compares (num s) n.toNat = false →
    exec (.sdone n false) s = .next { s with led := { s.led with shadowOf := max s.led.shadowOf n.toNat },
                                             twin := { s.twin with compare := false, digFix := [] } }) ∧
  (∀ s (n : BitVec 64), twinOn s = true → s.twin.shadowN = 0 → n.toNat = s.led.running →
    exec (.discardMessage n) s = .next { s with twin := { s.twin with mruns := [], meas := none, shadowB := 0 } }) ∧
  (∀ s k, s.keep.mirror = false → AllReadable s (stateRanges (partnerLt s) k) → Completes (.pull (.layer k false)) s fun t =>
    t.out = s.out ++ [.twin (.data (.layer k false) (rangeBytes s (stateRanges (partnerLt s) k)) (mirrorRef s k))] ∧
    t = { s with out := t.out, stat := { s.stat with boot := t.stat.boot, run := t.stat.run } }) ∧
  (∀ s k e bs ref, s.keep.mirror = false → s.led.st = .restoring → s.fab.joining = false → layerEnt (ownLt s) k = some e →
    s.twin.restore.contains k = true → s.twin.restore.filter (· ≠ k) ≠ [] →
    (storedDigest (ownLt s) k (pokeRanges (stateRanges (ownLt s) k) bs s)).2 = ref →
    Completes (.data (.layer k false) bs ref) s fun t => t.twin.restore = s.twin.restore.filter (· ≠ k) ∧
      ownRef t k = ref ∧ t.led = s.led) ∧
  (∀ s k e, twinOn s = true → layerEnt (ownLt s) k = some e → AllReadable s (layerRanges (ownLt s) k) → Completes (.digreq k) s fun t =>
    t.out = s.out ++ [.twin (.digrsp k (twinDigest (rangeBytes s (layerRanges (ownLt s) k))) ((gradBytes false (ownLt s) e s).map twinDigest))] ∧
    (∃ x ∈ t.twin.digFix, x.1 = k) ∧ t.mem = s.mem ∧ t.units = s.units) ∧
  (∀ s k d g, twinOn s = true → k ≠ 0xFFFF → (mirrorRun s k).bad = false → s.twin.cmpLeft.contains k = true →
    AllReadable s (layerRanges (partnerLt s) k) → d = twinDigest (rangeBytes s (layerRanges (partnerLt s) k)) → Completes (.digrsp k d g) s fun t =>
      t.twin = { s.twin with cmpLeft := s.twin.cmpLeft.filter (· ≠ k) } ∧ t.mem = s.mem ∧
      t.out = if s.twin.cmpLeft.filter (· ≠ k) = [] then s.out ++ [.twin (.sdone s.twin.mirror false)] else s.out)

/-- RECRUIT, REPLACE_CARD and PLANNED_HANDOVER take in a spare; HARVEST_STEP, HARVEST_COMPLETE, HARVEST_CANCEL and
HARVEST_LOAD run a harvest. Derived from R361, R366, R370, R371, R373, R374, R375, notes/assumptions/185. -/
def Obligations.SparesAndHarvest : Prop :=
  (∀ s a (f : BitVec 16), Takes s a 0x2C20 1 →
    (eligibleSpare s = true → s.plan.active = none → Completes (.recruit a f) s fun t =>
      t.plan = { s.plan with recruitAs := some f.toNat } ∧ t.fab = { s.fab with joining := true } ∧
      t.out = s.out ++ [.usdo a []] ∧ t.mem = s.mem ∧ t.led = s.led ∧ t.units = s.units) ∧
    (eligibleSpare s = true → s.plan.active ≠ none → Completes (.recruit a f) s fun t =>
      t.plan.active = none ∧ t.plan.recruitAs = some f.toNat ∧ t.fab.joining = true ∧ .usdo a [] ∈ t.out ∧ t.mem.cells = s.mem.cells) ∧
    (eligibleSpare s = false → Refused (.recruit a f) a 0x2C20 1 0x08000022 s)) ∧
  (∀ s a (f : BitVec 16), Takes s a 0x2C24 1 →
    (s.plan.plan.cards ≤ f.toNat → Refused (.replaceCard a f) a 0x2C24 1 0x06090030 s) ∧
    (f.toNat < s.plan.plan.cards → s.plan.active = none → Refused (.replaceCard a f) a 0x2C24 1 0x08000022 s) ∧
    (f.toNat < s.plan.plan.cards → s.plan.active ≠ none → amCoordinator s = true →
      let told : Prop := s.fab.handTold = false ∧ jobRuns s = true ∧ s.led.waiting = false
      let others := ((liveCards s).filterMap (cardOf s)).filter fun c => decide (c ≠ cardId s)
      (¬ told → Completes (.replaceCard a f) s fun t =>
        t.fab = { s.fab with handover := some f.toNat } ∧ t.out = s.out ++ [.usdo a []] ∧ t.led = s.led ∧ t.mem = s.mem) ∧
      (told → Completes (.replaceCard a f) s fun t => ∃ u,
        ToldIds { s with fab := { s.fab with handover := some f.toNat, handTold := true } } u others
          (.usdo (ownSource s) (.write 0x2C24 1 (leBytes 2 f.toNat))) ∧
        t.fab = u.fab ∧ t.out = u.out ++ [.usdo a []] ∧ t.led = s.led ∧ t.mem = s.mem)) ∧
    (f.toNat < s.plan.plan.cards → s.plan.active ≠ none → amCoordinator s = false → fromCoordinator a s = true →
      Completes (.replaceCard a f) s fun t => t.fab = { s.fab with handover := some f.toNat, handTold := true } ∧
        t.out = s.out ++ [.usdo a []] ∧ t.led = s.led ∧ t.mem = s.mem) ∧
    (f.toNat < s.plan.plan.cards → s.plan.active ≠ none → amCoordinator s = false → fromCoordinator a s = false →
      Completes (.replaceCard a f) s fun t =>
      t.out = s.out ++ towardCard s (coordinator s) (.usdo a.src (.write 0x2C24 1 (leBytes 2 f.toNat))) ++ [.usdo a []] ∧
      t.led = s.led ∧ t.mem = s.mem)) ∧
  (∀ s, (s.fab.handover = none → exec .plannedHandover s = .next s) ∧
    (∀ f, s.fab.handover = some f → amCoordinator s = true → s.fab.handTold = true → (s.fab.recState = 0 ∨ 4 ≤ s.fab.recState) →
      s.led.st = .opened → s.led.waiting = true → s.led.reopen = false →
      Completes .plannedHandover s fun t => t.fab.handover = some f ∧ f ∈ t.fab.recFs ∧ t.fab.recState = 1 ∧
        t.fab.recStep = s.led.running ∧
        (∀ l < s.plan.plan.cards, ∀ c, cardOf s l = some c → c ∉ s.fab.declared → (c, 6) ∈ t.fab.recAsk) ∧
        t.mem = s.mem ∧ t.units = s.units ∧ t.led = s.led) ∧
    ((s.led.waiting = false ∨ s.fab.handTold = false) → exec .plannedHandover s = .next s)) ∧
  (∀ s a (n : BitVec 64), Takes s a 0x2A10 1 →
    (harvRefused s n.toNat = true → Refused (.harvestStep a n) a 0x2A10 1 0x08000022 s) ∧
    (harvRefused s n.toNat = false → s.led.committed < n.toNat → Completes (.harvestStep a n) s fun t =>
      t.harv = { s.harv with step := n.toNat, cause := 0, state := 1 } ∧ .usdo a [] ∈ t.out ∧ t.mem = s.mem ∧ t.led = s.led) ∧
    (harvRefused s n.toNat = false → n.toNat = s.led.committed → Completes (.harvestStep a n) s fun t =>
      (t.harv.state = 2 ∨ t.harv.state = 4) ∧ t.harv.step = n.toNat ∧ .usdo a [] ∈ t.out ∧ t.mem.cells = s.mem.cells ∧
      t.led = s.led)) ∧
  (∀ s, s.harv.state = 2 → s.harv.left = [] → s.harv.head ≠ [] → num s 0x2A10 3 = 0 →
    (∀ w ∈ s.host.waitWr, w.mine = false) → mayWriteHost s = true → Completes .harvestComplete s fun t =>
      t.harv.state = 3 ∧ t.harv.lastOk = s.harv.step ∧ t.host.olseq = s.host.olseq + 1 ∧
      .hostWrite (num s 0x2A11 1) (s.harv.head.take 256) false ∈ t.out ∧ t.mem.cells = s.mem.cells ∧ t.led = s.led) ∧
  (∀ s, (s.harv.state ≠ 2 ∨ s.harv.left ≠ []) → exec .harvestComplete s = .next s) ∧
  (∀ s a, Takes s a 0x2A10 6 →
    ((s.harv.state = 1 ∨ s.harv.state = 2) → Completes (.harvestCancel a 1) s fun t =>
      t.harv.state = 4 ∧ t.harv.cause = 4 ∧ t.harv.snap = none ∧ .usdo a [] ∈ t.out ∧ t.mem.cells = s.mem.cells ∧ t.led = s.led) ∧
    (s.harv.state ≠ 1 → s.harv.state ≠ 2 → Completes (.harvestCancel a 1) s fun t =>
      t.harv = s.harv ∧ t.out = s.out ++ [.usdo a []] ∧ OnlyDict s t)) ∧
  (∀ s a buf, Takes s a 0x2A1C 1 →
    (s.keep.dev = .planLoaded → s.led.st = .nojob →
      (loadCode s buf ≠ 0 → Completes (.harvestLoad a 1 buf) s fun t =>
        t = { s with harv := { s.harv with load := loadCode s buf }, out := s.out ++ [.usdo a []],
                     stat := { s.stat with boot := t.stat.boot } }) ∧
      (loadCode s buf = 0 → Completes (.harvestLoad a 1 buf) s fun t =>
        t.harv.load = 0 ∧ t.harv.loaded = leAt buf 8 8 ∧ t.led.committed = leAt buf 8 8 ∧ t.led.st = .nojob ∧
        t.units = s.units ∧ .usdo a [] ∈ t.out)) ∧
    (¬ (s.keep.dev = .planLoaded ∧ s.led.st = .nojob) → Refused (.harvestLoad a 1 buf) a 0x2A1C 1 0x08000022 s))

namespace Sys2Proof.Claims

/-- A count since boot has grown by `n`. -/
def Counted (s t : State) (idx sub n : Nat) : Prop :=
  Sparse.get 0 t.stat.boot (ekey idx sub) = Sparse.get 0 s.stat.boot (ekey idx sub) + n

/-- Only the host link's registers and buffers, what is sent, and counts since boot differ. -/
def OnlyHost (s t : State) : Prop := t = { s with host := t.host, out := t.out, stat := { s.stat with boot := t.stat.boot } }

/-- The keeper works with the card out of boot, and no MIRROR SERVICE takes the command's place. -/
def NmtTaken (s : State) : Prop := keeperOn s = true ∧ s.keep.dev ≠ .boot ∧ s.keep.mirror = false

/-- A NMT command has been ignored and logged: event 0x07, and nothing else. -/
def NmtIgnored (c : Instr) (byte : Nat) (s : State) : Prop :=
  Completes c s fun t => Raised 0x07 0xFFFF byte s t ∧ t.dict = s.dict ∧ OnlyDictEvent s t

/-- Every one of the 285 domains is off: device memory, the units' contents and the boot are gone, and the card is in
device state boot. -/
def DomainsOff (t : State) : Prop :=
  t.keep.dev = .boot ∧ t.mem = {} ∧ t.units.phys = [] ∧ t.gates = [] ∧ t.led = {} ∧ t.plan = {} ∧ t.boot.phases = [] ∧
  ∀ d ∈ allDomains, domainOn t d = false

/-- A boot has begun: the card is in device state boot with no phase done, and the boot is counted. -/
def BootBegun (s t : State) : Prop :=
  DomainsOff t ∧ t.boot.booting = true ∧ t.boot.boots = s.boot.boots + 1 ∧ t.keep.v48 = true ∧ t.dict.stored = s.dict.stored

/-- The entries of the CAN route that Reset communication loads (R59). -/
def canEntries : List (Nat × Nat) := [(0x2020, 1), (0x2021, 1), (0x2021, 2)]

/-- Reset communication (R59, R60): the CAN route takes its stored values, or the defaults of those that are not stored, and where the
stored ones pass their check they stand; no other entry changes but the COB-IDs of TPDOs, which follow the node-ID; boot-up is sent,
and a job is unaffected. -/
def ResetsComm (s : State) : Prop :=
  Completes .resetCommunication s fun t =>
    (groupCheck (canEntries.foldl (fun s e => loadEntry e s) s) 8 = [] →
      ∀ e ∈ canEntries, Sparse.get none t.dict.vals (ekey e.1 e.2) = Sparse.get none s.dict.stored (ekey e.1 e.2)) ∧
    (∀ i k, k < 256 → i ∉ [0x2020, 0x2021, 0x1800, 0x1801, 0x1802, 0x1803] → valBytes t i k = valBytes s i k) ∧
    t.out.getLast? = some (.heartbeat 0) ∧ t.dict.pset = s.dict.pset ∧ t.dict.gen = s.dict.gen ∧ t.dict.awaiting = s.dict.awaiting ∧
    t.mem = s.mem ∧ t.units = s.units ∧ t.led = s.led ∧ t.keep = s.keep

/-- A boot is not in progress, and the card is held in device state boot: after a trip, in recovery, or on 3.3 Vaux alone (R60). -/
def HeldInBoot (s : State) : Prop :=
  s.boot.booting = false ∧ (s.keep.tripped = true ∨ s.boot.recovery = true ∨ (s.keep.v48 = false ∧ s.keep.vaux = true))

/-- The request of a mailbox message as the towpath lane carries it (R53, R54). -/
def laneForm : MbxMsg → Option UsdoMsg
  | .read i k => some (.read i k)
  | .readAll i => some (.readAll i)
  | .write i k bs => some (.write i k bs)
  | .writeAll i bs => some (.writeAll i bs)
  | .segment x m bs l => some (.segment x m bs l)
  | .invalid => none

/-- Every persisted entry has its stored value, or its default where none is stored, where no group of the stored values fails its
check. -/
def LoadsStored (s t : State) : Prop :=
  (∀ k < 16, groupCheck (storedEntries.foldl (fun s e => loadEntry e s) s) k = []) →
  ∀ e ∈ storedEntries, Sparse.get none t.dict.vals (ekey e.1 e.2) = Sparse.get none s.dict.stored (ekey e.1 e.2)

/-- The next command of the queue may start, and its entry is a valid one of this OP. -/
def Starts (s : State) (op : Nat) (e : BitVec 512) : Prop :=
  mayStartCmd s = true ∧ entryOp e.toNat = op ∧ entryValid e.toNat = true

/-- The command of the entry has started with a status: its count is the next one, and it stands last among those in progress. -/
def CmdStarted (s t : State) (e : BitVec 512) (status : Nat) : Prop :=
  t.host.cqnext = (s.host.cqnext + 1) % 2 ^ 32 ∧
  t.host.cmds = s.host.cmds ++ [{ entryCmd s.host.cqnext e.toNat with status := status }]

/-- A host reset of the host-interface domain leaves it in reset, with an empty queue and no drop counted but an event that the
reset itself raises: a harvest into host memory that it ends. -/
def DomainReset (c : Instr) (cause : Nat) (stays : Bool) : Prop :=
  ∀ s, s.keep.v48 = true → Completes c s fun t =>
    t.host.cfg = {} ∧ t.host.events = [] ∧ t.host.down = true ∧ t.host.cause = cause ∧ t.host.resets = s.host.resets + 1 ∧
    t.host.up = (s.host.up && stays) ∧ t.host.cmds = [] ∧ t.host.cqdone = s.host.cqdone ∧ t.host.ringget = s.host.ringget ∧
    t.host.hostseq = s.host.hostseq ∧ t.host.olseq = s.host.olseq ∧ t.units = s.units ∧ t.led = s.led ∧
    (s.host.down = false → t.host.lostRst = if s.harv.state = 2 ∧ num s 0x2A10 3 = 0 then 1 else 0)

end Sys2Proof.Claims

/-- NMT commands, heartbeat and TPDO timers, the mailbox doorbell and its response, requests on the towpath lane, and
0x2011:05. Derived from R33, R53, R54, R57, R58, R59, R60, R64, R332, R360, R381, R423. -/
def Obligations.NmtMailboxAndTowpath : Prop :=
  (∀ s, NmtTaken s → ResetsComm s ∧
    (s.keep.dev = .running → exec .startRemoteNode s = .next s) ∧
    (s.keep.dev = .idle → NmtIgnored .startRemoteNode 1 s ∧ NmtIgnored .stopRemoteNode 2 s ∧ exec .enterPreOperational s = .next s) ∧
    (s.keep.dev = .planLoaded → NmtIgnored .stopRemoteNode 2 s ∧ exec .enterPreOperational s = .next s ∧
      (mayStart s = false → NmtIgnored .startRemoteNode 1 s)) ∧
    (∀ k, s.keep.dev = .planLoaded → s.plan.active = some k → k < 2 → s.dict.awaiting = [] → Completes .resetNode s fun t =>
      LoadsStored s t ∧ t.plan.active = none ∧ areaState t k = 1 ∧ t.keep.dev = .idle ∧ t.led.st = .nojob ∧
      t.led.committed = s.led.committed ∧ t.units.phys = [] ∧ t.gates = [] ∧ t.dict.pset = [] ∧ t.dict.owner = none ∧
      t.dict.awaiting = [] ∧ t.dict.gen = genAfter s.dict.gen ∧ t.out.getLast? = some (.heartbeat 0) ∧ t.mem.cells = s.mem.cells) ∧
    (s.keep.dev = .planLoaded → mayStart s = true → Quiet s → Completes .startRemoteNode s fun t =>
      t.keep.dev = .running ∧ t.led.st = .opened ∧ t.led.running = s.led.committed + 1 ∧ t.led.committed = s.led.committed ∧
      t.led.waiting = true ∧ t.mem = s.mem ∧ t.units = s.units) ∧
    (s.keep.dev = .halted → s.fab.recorded = [] →
      Completes .startRemoteNode s fun t => t.keep.dev = .running ∧
        t.out = s.out ++ [toNeighbours s (.resume s.fab.haltSer s.fab.haltOrg)] ∧ t.mem = s.mem ∧ t.units = s.units ∧
        t.led.st = s.led.st ∧ t.led.running = s.led.running ∧ t.led.layers = s.led.layers) ∧
    (s.keep.dev = .halted → exec .stopRemoteNode s = .next s ∧ NmtIgnored .resetNode 0x81 s ∧
      ((s.led.st = .opened ∨ s.led.st = .updating ∨ s.led.st = .ready) →
        Completes .enterPreOperational s fun t => Told s t (coordinator s)
          (.abortRep s.led.running (attempt s) 8 ((myLogical s).getD 0xFFFF) 0xFFFF false))) ∧
    (s.keep.dev = .running → Completes .stopRemoteNode s (fun t => t.keep.dev = .halted ∧
        t.out = s.out ++ [toNeighbours s (.halt (s.fab.seenSer + 1) (cardId s))] ∧ t.mem = s.mem ∧ t.units = s.units ∧ t.led = s.led) ∧
      exec .enterPreOperational s = .next { s with led := { s.led with stopPend := true } } ∧
      NmtIgnored .resetNode 0x81 s) ∧
    (s.keep.dev = .idle → Completes .resetNode s fun t => LoadsStored s t ∧
      t.dict.pset = [] ∧ t.dict.owner = none ∧ t.dict.awaiting = [] ∧ t.dict.gen = genAfter s.dict.gen ∧
      t.out.getLast? = some (.heartbeat 0) ∧ t.keep = s.keep ∧ t.mem = s.mem ∧ t.units = s.units)) ∧
  (∀ s, keeperOn s = true → s.keep.mirror = true → s.keep.dev = .halted →
    NmtIgnored .startRemoteNode 1 s ∧ NmtIgnored .stopRemoteNode 2 s ∧ NmtIgnored .enterPreOperational 0x80 s ∧ ResetsComm s ∧
    Completes .resetNode s fun t => t.keep.mirror = false ∧ t.keep.dev = .idle ∧ t.plan.active = none ∧ t.twin.pair = .none ∧
      t.units.phys = [] ∧ t.dict.pset = [] ∧ t.dict.awaiting = [] ∧ t.out.getLast? = some (.heartbeat 0)) ∧
  (∀ s, keeperOn s = true → s.keep.dev = .asleep → (s.keep.sleptFrom = .idle ∨ s.keep.sleptFrom = .planLoaded) → ResetsComm s ∧
    ∀ c ∈ [Instr.startRemoteNode, .stopRemoteNode, .enterPreOperational, .resetNode],
      (wake 3 s).keep.dev = s.keep.sleptFrom ∧ exec c s = exec c (wake 3 s)) ∧
  (∀ s, keeperOn s = true → s.keep.dev = .boot →
    NmtIgnored .startRemoteNode 1 s ∧ NmtIgnored .stopRemoteNode 2 s ∧ NmtIgnored .enterPreOperational 0x80 s ∧
    (HeldInBoot s → ResetsComm s ∧ (s.keep.v48 = true → Completes .resetNode s (BootBegun s)) ∧
      (s.keep.v48 = false → NmtIgnored .resetNode 0x81 s)) ∧
    (¬ HeldInBoot s → NmtIgnored .resetCommunication 0x82 s ∧ NmtIgnored .resetNode 0x81 s)) ∧
  (∀ s, keeperOn s = false → exec .startRemoteNode s = .next s ∧ exec .stopRemoteNode s = .next s ∧
    exec .enterPreOperational s = .next s ∧ exec .resetNode s = .next s ∧ exec .resetCommunication s = .next s) ∧
  (∀ s, exec .producerHeartbeatTimer s = .next (
    if num s 0x1017 0 ≠ 0 ∧ keeperOn s = true ∧ s.keep.dev ≠ .boot then
      { s with out := s.out ++ [.heartbeat (if s.keep.dev = .running then 0x05 else if s.keep.dev = .halted then 0x04 else 0x7F)] }
    else s)) ∧
  (∀ s (n : Fin 8), TpdoMay s n.val → num s (0x1800 + n.val) 2 = 0xFF → num s (0x1800 + n.val) 5 ≠ 0 → s.keep.dev ≠ .boot →
    Completes (.tpdoEventTimer n) s fun t =>
      t = { s with out := s.out ++ [.tpdo n.val (num s (0x1800 + n.val) 1 % 2048) (tpdoData s n.val)],
                   keep := { s.keep with tpdoSent := t.keep.tpdoSent } }) ∧
  (∀ s (v : W32) idx sub data, barOpen s = true →
    (s.host.busy = true → exec (.mbxctlDoorbell v (.write idx sub data)) s = .next { s with host := { s.host with overrun := true } }) ∧
    (s.host.busy = false → 1 ≤ bits v.toNat 22 16 → bits v.toNat 22 16 ≤ 64 →
      let s' : State := { s with host := { s.host with busy := true, respRdy := false, overrun := false, fwd := none } }
      (bits v.toNat 15 0 = 0xFFFF ∨ bits v.toNat 15 0 = cardId s →
        exec (.mbxctlDoorbell v (.write idx sub data)) s = exec (.entryWrite (mbxAccess s) idx sub data) s') ∧
      (bits v.toNat 15 0 ≠ 0xFFFF → bits v.toNat 15 0 ≠ cardId s → pathServes s .mailbox = true → s.keep.dev ≠ .boot →
        fabricTrained s = true → ∀ m u, laneForm m = some u → Completes (.mbxctlDoorbell v m) s fun t =>
          ToldId { s' with host := { s'.host with fwd := some (bits v.toNat 15 0) } } t (bits v.toNat 15 0) none
            (.usdo (mbxSource s) u))) ∧
    (s.host.busy = false → pathServes s .mailbox = true → (bits v.toNat 22 16 = 0 ∨ 64 < bits v.toNat 22 16) →
      Completes (.mbxctlDoorbell v (.write idx sub data)) s fun t => t.dict = s.dict ∧
        t.out = s.out ++ [.usdoAbort (mbxAccess s) idx.toNat sub.toNat 0x05040001]) ∧
    (s.host.busy = false → pathServes s .mailbox = true → Completes (.mbxctlDoorbell v .invalid) s fun t => t.dict = s.dict ∧
        t.out = s.out ++ [.usdoAbort (mbxAccess s) 0 0 0x05040001])) ∧
  (∀ s (v : W32) idx, barOpen s = true → s.host.busy = false → 1 ≤ bits v.toNat 22 16 → bits v.toNat 22 16 ≤ 64 →
    bits v.toNat 15 0 = 0xFFFF → pathServes s .mailbox = true → idxServed s .mailbox idx.toNat = true →
    ∀ bs, readValue s idx.toNat none = .ok bs → Completes (.mbxctlDoorbell v (.readAll idx)) s fun t =>
      t.out = s.out ++ [.usdo (mbxAccess s) bs] ∧ t.mem = s.mem ∧ t.units = s.units) ∧
  (∀ s card body,
    (s.host.busy = true → Completes (.mailboxResponse card body) s fun t =>
      t.host.mbxrsp = takePad 64 (body.take 64) ∧ t.host.respLen = min 64 body.length ∧ t.host.respCard = card.toNat ∧
      t.host.busy = false ∧ t.host.respRdy = true ∧ t.host.fwd = none ∧ t = { s with host := t.host, out := t.out }) ∧
    (s.host.busy = false → exec (.mailboxResponse card body) s = .next s)) ∧
  (∀ s, (s.host.fwd = none → exec .forwardTimeout s = .next s) ∧
    (s.host.fwd ≠ none → Completes .forwardTimeout s fun t => t.host = { s.host with fwd := none } ∧ OnlyHost s t ∧
      (RouteAnswers s .mailbox → t.out = s.out ++ [.usdoAbort (mbxAccess s) 0 0 0x05040000]) ∧
      (¬ RouteAnswers s .mailbox → t.out = s.out))) ∧
  (∀ s (h : TpHdr) s0 m, ¬ Fresh s h 1 → exec (.towpathUsdo h s0 m) s = .next s) ∧
  (∀ s (h : TpHdr) s0 idx sub data, Fresh s h 1 →
    exec (.towpathUsdo h s0 (.write idx sub data)) s = exec (.entryWrite ⟨.towpath, s0⟩ idx sub data) (heard s h)) ∧
  (∀ s (h : TpHdr) s0 idx, Fresh s h 1 → pathServes s .towpath = true →
    ∀ bs, readValue s idx.toNat none = .ok bs → Completes (.towpathUsdo h s0 (.readAll idx)) s fun t =>
      t.out = s.out ++ [.usdo ⟨.towpath, s0⟩ bs] ∧ t.mem = s.mem ∧ t.units = s.units) ∧
  (∀ s (h : TpHdr) s0 body, Fresh s h 1 → s0.route = .mailbox → s.host.fwd = some h.src.toNat →
    Completes (.towpathUsdo h s0 (.response body)) s fun t =>
      t = { heard s h with host := { s.host with fwd := none }, out := t.out } ∧
      (RouteAnswers s .mailbox → t.out = s.out ++ [.usdo (mbxAccess s) body]) ∧ (¬ RouteAnswers s .mailbox → t.out = s.out)) ∧
  (∀ s a, pathServes s a.path = true → idxServed s a.path 0x2011 = true → Completes (.awaitingPartsRead a) s fun t =>
    t.dict = { s.dict with discarded := false } ∧ OnlyDict s t ∧
    ∃ bs, t.out = s.out ++ [.usdo a bs] ∧ bs.length = 4 ∧
      (bit (leNat bs) 0 = s.dict.awaiting.any fun p => decide (p.point = .idle)) ∧
      (bit (leNat bs) 1 = s.dict.awaiting.any fun p => decide (p.point = .step)) ∧
      (bit (leNat bs) 2 = s.dict.awaiting.any fun p => decide (p.point = .plan)) ∧
      bit (leNat bs) 8 = s.dict.discarded)

/-- Registers of BAR0, the window and its snapshot, the ring counters, the event queue, and the power state. Derived
from R254, R256, R379, R381, R382, R383, R384, R389, R396, R400, R401. -/
def Obligations.HostRegistersAndWindow : Prop :=
  (∀ s w off n ecc data v v64 eo, barOpen s = false →
    exec (.registerWrite w) s = .next s ∧ exec (.winbaseWrite w) s = .next s ∧ exec .windowOpenSnapshot s = .next s ∧
    exec .windowCloseSnapshot s = .next s ∧ exec (.windowRead off n ecc) s = .next s ∧ exec (.windowWrite off data) s = .next s ∧
    exec (.windowReadTimeout n) s = .next s ∧ exec (.ringputWrite v) s = .next s ∧ exec (.hostseqWrite v64) s = .next s ∧
    exec (.evpopRead eo n) s = .next s) ∧
  (∀ s data, barOpen s = true → data.length = 8 →
    let v := leNat data
    exec (.winbaseWrite ⟨0x0200, 8, data⟩) s = .next { s with host :=
      if v % 2097152 = 0 ∧ v < s.strap.variant.barges * 2097152 then { s.host with winbase := v } else { s.host with winref := 1 } }) ∧
  (∀ s w, barOpen s = true → w.size ≠ 4 → w.size ≠ 8 → ¬ (0x0100 ≤ w.off.toNat ∧ w.off.toNat < 0x0140) →
    exec (.registerWrite w) s = .next s) ∧
  (∀ s off n, 0x0180 ≤ off → off < 0x0700 → ¬ ((n = 4 ∨ n = 8) ∧ off % n = 0) → regRead off n s = List.replicate n 0xFF) ∧
  (∀ s, regRead 0x0200 8 s = leBytes 8 s.host.winbase ∧ regRead 0x0400 4 s = leBytes 4 s.host.ringput ∧
    regRead 0x0608 8 s = leBytes 8 s.host.olseq ∧ regRead 0x0720 8 s = leBytes 8 s.host.events.length) ∧
  (∀ s data, barOpen s = true → data.length = 8 →
    let f : HostSt := if leNat data % 16 = 0 then { s.host with ringflag := leNat data } else s.host
    let g : HostSt := if leNat data % 16 = 0 then { s.host with commitflag := leNat data } else s.host
    let q : HostSt := if leNat data % 4096 = 0 ∧ s.host.cqtail = s.host.cqdone then { s.host with cqbase := leNat data } else s.host
    exec (.registerWrite ⟨0x0418, 8, data⟩) s = .next { s with host := f } ∧
    exec (.registerWrite ⟨0x0420, 8, data⟩) s = .next { s with host := g } ∧
    exec (.registerWrite ⟨0x0300, 8, data⟩) s = .next { s with host := q }) ∧
  (∀ s, barOpen s = true →
    (s.host.winmode = true → exec .windowOpenSnapshot s = .next s) ∧
    (s.host.winmode = false → freeSnap s = none → exec .windowOpenSnapshot s = .next { s with host := { s.host with winref := 2 } }) ∧
    (∀ k, s.host.winmode = false → freeSnap s = some k → Completes .windowOpenSnapshot s fun t =>
      t.host.winmode = true ∧ t.host.winsnap = some k ∧ (getSnap t k).opener = 1 ∧ t.mem.cells = s.mem.cells ∧
      (getSnap t k).state = (if noStepRuns s = true then 2 else 1) ∧ t.host.winst = (if noStepRuns s = true then 2 else 1) ∧
      t.units = s.units) ∧
    (∀ k, s.host.winsnap = some k → Completes .windowCloseSnapshot s fun t =>
      t.host = { s.host with winmode := false, winst := 0, winsnap := none, winstep := 0 } ∧ getSnap t k = {} ∧
      (∀ j, j ≠ k → getSnap t j = getSnap s j) ∧ t.mem.cells = s.mem.cells ∧ t.units = s.units)) ∧
  (∀ s (off : BitVec 29) n, barOpen s = true →
    let addr := s.host.winbase + off.toNat
    (memReady s addr n = true → s.host.winmode = false → Readable s addr n → Completes (.windowRead off n .clean) s fun t =>
      t.out = s.out ++ [.windowData (devBytes s addr n)] ∧ t.host = s.host ∧ t.mem.cells = s.mem.cells ∧ t.units = s.units) ∧
    (memReady s addr n = false → Completes (.windowRead off n .clean) s fun t =>
      t.out = s.out ++ [.windowData (List.replicate n 0xFF)] ∧ t.host = { s.host with winerr := (s.host.winerr + 1) % 2 ^ 32 } ∧
      Counted s t 0x2408 1 1 ∧ OnlyHost s t) ∧
    (Completes (.windowReadTimeout n) s fun t =>
      t.out = s.out ++ [.windowData (List.replicate n 0xFF)] ∧ t.host = { s.host with winerr := (s.host.winerr + 1) % 2 ^ 32 } ∧
      Counted s t 0x2408 1 1 ∧ OnlyHost s t)) ∧
  (∀ s (off : BitVec 29) data, barOpen s = true →
    let addr := s.host.winbase + off.toNat
    (memReady s addr data.length = true → s.host.winmode = false → Writable s addr data.length → Completes (.windowWrite off data) s fun t =>
      Stored s t addr data ∧ t.units = s.units ∧ t.led = s.led) ∧
    ((memReady s addr data.length = false ∨ s.host.winmode = true) → Completes (.windowWrite off data) s fun t =>
      Counted s t 0x2408 2 1 ∧ t.host = s.host ∧ t.out = s.out ∧ OnlyHost s t)) ∧
  (∀ s (v : W32), barOpen s = true →
    let ok : Prop := since32 v.toNat s.host.ringget ≤ s.plan.plan.ringSlots ∧ since32 v.toNat s.host.ringput ≤ s.plan.plan.ringSlots
    (ok → exec (.ringputWrite v) s = .next { s with host := { s.host with ringput := v.toNat } }) ∧
    (¬ ok → Completes (.ringputWrite v) s fun t => Counted s t 0x2414 4 1 ∧ t.host = s.host ∧ t.out = s.out ∧ OnlyHost s t)) ∧
  (∀ s (v : W64), barOpen s = true →
    (s.host.hostseq ≤ v.toNat → v.toNat ≤ s.host.olseq → exec (.hostseqWrite v) s = .next { s with host := { s.host with hostseq := v.toNat } }) ∧
    (¬ (s.host.hostseq ≤ v.toNat ∧ v.toNat ≤ s.host.olseq) → Completes (.hostseqWrite v) s fun t =>
      Counted s t 0x2410 3 1 ∧ t.host = s.host ∧ t.out = s.out ∧ OnlyHost s t)) ∧
  (∀ s (eo : Fin 32) n, barOpen s = true →
    (s.host.events = [] → Completes (.evpopRead eo n) s fun t => t = { s with out := t.out } ∧
      ∃ e : Event, e.typ = 0 ∧ t.out = s.out ++ [.event ((e.toBytes.drop eo.val).take n)]) ∧
    (∀ e es, s.host.events = e :: es → s.host.lost = 0 → exec (.evpopRead eo n) s =
      .next { s with host := { s.host with events := es }, out := s.out ++ [.event ((e.toBytes.drop eo.val).take n)] }) ∧
    (∀ e es, s.host.events = e :: es → s.host.lost ≠ 0 → Completes (.evpopRead eo n) s fun t =>
      (∃ m, t.host.events = es ++ [m] ∧ m.typ = 2 ∧ m.detail = s.host.lost % 2 ^ 32) ∧ t.host.lost = 0 ∧
      (∃ rest, t.out = s.out ++ .event ((e.toBytes.drop eo.val).take n) :: rest) ∧ t = { s with host := t.host, out := t.out })) ∧
  (∀ s d3 (cfg : PciCtl), ¬ (s.host.up = true ∧ s.host.down = false) → exec (.pciPowerStateChange d3 cfg) s = .next s) ∧
  (∀ s d3 (cfg : PciCtl), s.host.up = true → s.host.down = false → Completes (.pciPowerStateChange d3 cfg) s fun t =>
    let kept (v : Nat) : Bool := d3 || cfg.msixMask || !cfg.msixEn || bit (msixByte s (16 * v + 12)).toNat 0
    t.host = { s.host with d3 := d3, cfg := cfg, pba := t.host.pba } ∧ t = { s with host := t.host, out := t.out } ∧
    (∀ v < 64, bit t.host.pba v = (bit s.host.pba v && kept v)) ∧
    t.out = s.out ++ (((List.range 64).filter fun v => bit s.host.pba v && !kept v).map Out.msix))

/-- The command queue: its tail, the five operations, completion in order, and the outbound writes with their ledger.
Derived from R379, R386, R387, R391, R393, R396. -/
def Obligations.HostCommandQueue : Prop :=
  (∀ s (v : W32), barOpen s = true →
    (since32 v.toNat s.host.cqdone ≤ s.host.cqsize → Completes (.cqtailWrite v) s fun t =>
      t.host = { s.host with cqtail := v.toNat } ∧ t = { s with host := t.host, mem := { s.mem with memAwake := t.mem.memAwake } }) ∧
    (s.host.cqsize < since32 v.toNat s.host.cqdone → Completes (.cqtailWrite v) s fun t =>
      Counted s t 0x240C 5 1 ∧ t.host = s.host ∧ t.out = s.out ∧ OnlyHost s t)) ∧
  (∀ s (e : BitVec 512),
    let moves (t : State) : Prop := t = { s with host := { s.host with cqnext := t.host.cqnext, cmds := t.host.cmds },
                                                 mem := { s.mem with memAwake := t.mem.memAwake } }
    (Starts s 0 e → Completes (.noOpCommand e) s fun t => CmdStarted s t e 0 ∧ moves t) ∧
    (Starts s 3 e → Completes (.fence e) s fun t => CmdStarted s t e 0 ∧ moves t) ∧
    (Starts s 4 e → Completes (.flagOnly e) s fun t => CmdStarted s t e 0 ∧ moves t) ∧
    (mayStartCmd s = true → entryOp e.toNat = 4 → entryValid e.toNat = false → Completes (.flagOnly e) s fun t =>
      CmdStarted s t e 4 ∧ moves t) ∧
    (mayStartCmd s = false → exec (.noOpCommand e) s = .next s ∧ exec (.fence e) s = .next s ∧ exec (.flagOnly e) s = .next s)) ∧
  (∀ s (e : BitVec 512) data, Starts s 1 e → s.boot.phases.contains 5 = true → s.boot.recovery = false →
    let c := entryCmd s.host.cqnext e.toNat
    data.length = c.len → Writable s c.daddr c.len → Completes (.hostToDevice e data false) s fun t =>
      CmdStarted s t e 0 ∧ Stored s t c.daddr data ∧ Counted s t 0x240C 1 c.len ∧ t.units = s.units ∧ t.led = s.led) ∧
  (∀ s (e : BitVec 512), Starts s 2 e → s.boot.phases.contains 5 = true → s.boot.recovery = false →
    let c := entryCmd s.host.cqnext e.toNat
    (bit e.toNat 5 = false → Readable s c.daddr c.len → c.len ≠ 0 → Completes (.deviceToHost e .clean) s fun t =>
      CmdStarted s t e 0 ∧ Counted s t 0x240C 2 c.len ∧ t.mem.cells = s.mem.cells ∧ t.units = s.units ∧
      t.host.waitWr = s.host.waitWr ++ [{ kind := 1, addr := c.haddr, data := devBytes s c.daddr c.len, ref := c.count }]) ∧
    (bit e.toNat 5 = true → s.host.winst < 2 → Completes (.deviceToHost e .clean) s fun t =>
      CmdStarted s t e 6 ∧ t.host.waitWr = s.host.waitWr ∧ t.mem.cells = s.mem.cells)) ∧
  (∀ s, (s.host.cmds = [] → exec .commandComplete s = .next s) ∧
    (∀ c cs, s.host.cmds = c :: cs → (∃ w ∈ s.host.waitWr, w.kind = 1 ∧ w.ref = c.count) → exec .commandComplete s = .next s) ∧
    (∀ c cs, s.host.cmds = c :: cs → (∀ w ∈ s.host.waitWr, w.kind = 1 → w.ref ≠ c.count) → Completes .commandComplete s fun t =>
      t.host.cmds = cs ∧ t.host.cqdone = (s.host.cqdone + 1) % 2 ^ 32 ∧ Counted s t 0x240C 3 1 ∧ OnlyHost s t ∧
      (c.flag = true → c.faddr % 16 = 0 → s.host.down = false → t.out = s.out ∧
        let bs := leBytes 8 (pack [(16, c.tag), (8, c.status), (8, 0), (32, c.count)])
        t.host.waitWr = s.host.waitWr ++ [⟨2, c.faddr, bs, c.count, if c.intr = true then some 2 else none, false⟩]) ∧
      (c.flag = false → c.intr = false → t.out = s.out ∧ t.host.waitWr = s.host.waitWr))) ∧
  (∀ s, (mayWriteHost s = false → exec .outboundWrite s = .next s) ∧
    (mayWriteHost s = true → s.host.waitWr = [] → exec .outboundWrite s = .next s) ∧
    (∀ w ws, mayWriteHost s = true → s.host.waitWr = w :: ws → w.mine = false → Completes .outboundWrite s fun t =>
      let n := s.host.olseq + 1
      let data := if 2 ≤ w.kind ∧ w.kind ≤ 4 then takePad 8 w.data ++ leBytes 8 n else w.data
      t.host.waitWr = ws ∧ t.host.olseq = n ∧
      Sparse.get none t.host.ol (n % 1024) = some ⟨n, w.addr, data.length, w.kind, w.ref⟩ ∧
      (∃ rest, t.out = s.out ++ .hostWrite w.addr data (s.host.cfg.relaxed && (decide (w.kind = 1) || decide (w.kind = 5))) :: rest) ∧ t = { s with host := t.host, out := t.out }))

/-- A host-interface reset empties the event queue; events in reset are dropped; the first entry after it is a reset
marker with their count. Stated by R402. -/
def Obligations.HostInterfaceReset : Prop :=
  DomainReset .dataLinkDown 1 false ∧ DomainReset .perst 2 false ∧ DomainReset .hotReset 3 false ∧ DomainReset .flr 4 true ∧
  (∀ s, s.keep.v48 = false → exec .dataLinkDown s = .next s ∧ exec .perst s = .next s ∧ exec .hotReset s = .next s ∧
    exec .flr s = .next s) ∧
  (∀ s typ sev source detail, s.host.down = true →
    (raise typ sev source detail s).host = { s.host with lostRst := s.host.lostRst + 1 }) ∧
  (∀ s (speed : Fin 4) (width : BitVec 5) flit (cfg : PciCtl),
    let trains : Prop := pciePowered s = true ∧
      ((speed = 3 ∧ flit = true) ∨ ((speed = 1 ∨ speed = 2) ∧ flit = false)) ∧ (width = 16 ∨ width = 8 ∨ width = 4)
    (trains → s.host.down = true → s.host.cause ≠ 0 → s.host.events = [] →
      Completes (.linkReturn speed width flit cfg) s fun t => t.host.cfg = cfg ∧
        (∃ m, t.host.events = [m] ∧ m.typ = 1 ∧ bits m.detail 31 0 = s.host.lostRst % 2 ^ 32 ∧ bits m.detail 39 32 = s.host.cause % 256) ∧
        t.host.down = false ∧ t.host.up = true ∧ t.host.lostRst = 0 ∧ t.host.speed = speed.val ∧ t.host.width = width.toNat ∧
        t = { s with host := t.host, out := t.out }) ∧
    (trains → s.host.down = false → exec (.linkReturn speed width flit cfg) s = .next { s with host :=
      { s.host with up := true, down := false, cfg := cfg, lostRst := 0, speed := speed.val, width := width.toNat, flitMode := flit } }) ∧
    (¬ trains → exec (.linkReturn speed width flit cfg) s = .next s))

namespace Sys2Proof.Claims

/-- The last record of the log is of an event of this type and detail. -/
def LastLogged (t : State) (typ detail : Nat) : Prop :=
  ∃ x, t.boot.log.getLast? = some x ∧ x.ev.typ = typ ∧ x.ev.detail = detail % 2 ^ 128

/-- The card sleeps, with the state it slept from kept, its ports down, its units and cluster switches off, and device memory as it
was. -/
def Sleeps (s t : State) : Prop :=
  t.keep.dev = .asleep ∧ t.keep.sleptFrom = s.keep.dev ∧ t.mem = s.mem ∧ t.plan = s.plan ∧ t.units.phys = [] ∧ t.gates = [] ∧
  (∀ p, (getPort t p).cond = 1 ∧ (getPort t p).cable = (getPort s p).cable)

/-- A card with no idle part that awaits has woken into the state it slept from; with a plan its units hold the unit sections again,
measured anew (R423). -/
def Woken (s t : State) (cause : Nat) : Prop :=
  t.keep = { s.keep with dev := s.keep.sleptFrom } ∧ Raised 0x26 0xFFFF cause s t ∧ t.mem.cells = s.mem.cells ∧
  (s.plan.active = none → t.units = s.units) ∧
  ∀ k, s.plan.active = some k → (∀ x ∈ imgSections s k, unitKinds.contains x.kind = true → x.good s k = true) →
    ∀ p < 72, logicalUnit s p < 64 → getUnit t p = loadUnit (unitImg s k (logicalUnit s p))

/-- A command has made the card trip: its record is logged before the domains go off, and the error is one of temperature (R419). -/
def Trips (c : Instr) (s : State) (reading : Nat) : Prop :=
  Completes c s fun t =>
    DomainsOff t ∧ t.keep.tripped = true ∧ t.boot.trips = s.boot.trips + 1 ∧ LastLogged t 0x22 reading ∧
    t.dict.vals = s.dict.vals ∧ t.dict.errReg = s.dict.errReg ||| 9 ∧
    (fabricTrained s = true → s.plan.active ≠ none → ∀ o ∈ towardCard s (coordinator s) (.suspect (cardId s)), o ∈ t.out)

/-- The 128 MiB that the flash must have, found with its SFDP tables (R432). -/
def FlashFound (s : State) (r : BootReport) : Prop := r.flashOk = true ∧ 128 * 2 ^ 20 ≤ s.strap.flashSize

end Sys2Proof.Claims

/-- Samples, limits, trip, power average, idle evaluation, sleep and wake, supplies, cables, sideband and identify.
Derived from R17, R18, R37, R415, R416, R419, R420, R421, R422, R423, R424, R454. -/
def Obligations.KeeperPowerAndCard : Prop :=
  (∀ s r, keeperOn s = false → exec (.sensorSample r) s = .next s) ∧
  (∀ s r, s.keep.v48 = false → s.keep.vaux = true → s.fab.recAsk = [] → Completes (.sensorSample r) s fun t =>
    t = { s with keep := { s.keep with samples := s.keep.samples + 1, volts := r.volts.toNat }, stat := t.stat }) ∧
  (∀ s r, s.keep.v48 = true → s.fab.recAsk = [] → (∀ v ∈ r.logic, v.toNat < 110) → (∀ v ∈ r.stackT, v.toNat ≤ 85) → r.iodie.toNat < 120 →
    15 ≤ r.inlet.toNat → r.inlet.toNat ≤ 45 → Completes (.sensorSample r) s fun t =>
      t.keep.samples = s.keep.samples + 1 ∧ t.keep.volts = r.volts.toNat ∧ t.keep.inlet = r.inlet.toNat ∧ t.keep.outlet = r.outlet.toNat ∧
      (∀ n < 16, ∀ v, r.logic[n]? = some v → t.keep.logicNow.getD n 0 = v.toNat) ∧
      (∀ n < 8, ∀ v, r.stackT[n]? = some v → t.keep.stackNow.getD n 0 = v.toNat) ∧
      t.keep.mr4 = r.mr4.map (·.toNat) ∧ Counted s t 0x2120 1 r.wakes ∧ Counted s t 0x2120 2 r.awake ∧
      Sparse.get 0 t.stat.run (ekey 0x2118 1) = Sparse.get 0 s.stat.run (ekey 0x2118 1) + r.overruns ∧
      t = { s with keep := t.keep, mem := { s.mem with rowErr := t.mem.rowErr }, stat := { s.stat with run := t.stat.run, boot := t.stat.boot } }) ∧
  (∀ s (n : Fin 16) (v : BitVec 8), s.keep.v48 = true →
    (110 ≤ v.toNat → v.toNat < 120 → s.keep.forced.contains (n.val / 4) = false → Completes (.limitCrossing (.logic n) v) s fun t =>
      t.keep.forced = s.keep.forced ++ [n.val / 4] ∧ Raised 0x21 (n.val / 4) v.toNat s t ∧ t.mem = s.mem ∧ t.units = s.units) ∧
    (120 ≤ v.toNat → s.keep.tripped = false → Trips (.thermalTrip (.logic n) v) s v.toNat ∧ Trips (.thermalTrip .iodie v) s v.toNat ∧
      Trips (.limitCrossing (.logic n) v) s v.toNat ∧ Trips (.limitCrossing .iodie v) s v.toNat) ∧
    (120 ≤ v.toNat → s.keep.tripped = true → Completes (.thermalTrip (.logic n) v) s fun t =>
      t = { s with keep := t.keep } ∧ t.keep.tripped = true) ∧
    (v.toNat < 120 → exec (.thermalTrip (.logic n) v) s = .next s)) ∧
  (∀ s (n : Fin 8) v, exec (.thermalTrip (.stack n) v) s = .next s) ∧
  (∀ s x v, s.keep.v48 = false → exec (.limitCrossing x v) s = .next s ∧ exec (.thermalTrip x v) s = .next s) ∧
  (∀ s (w : BitVec 16), (s.keep.v48 = false → exec (.powerAverage w) s = .next s) ∧
    (s.keep.v48 = true → w.toNat ≤ num s 0x2104 1 → Completes (.powerAverage w) s fun t =>
      t.keep.watts = w.toNat ∧ t.keep.forced = s.keep.forced ∧ t.mem = s.mem ∧ t.units = s.units ∧ t.host = s.host) ∧
    (∀ d, s.keep.v48 = true → num s 0x2104 1 < w.toNat → diesOn s = true → hottestDie s = some d →
      Completes (.powerAverage w) s fun t => t.keep.watts = w.toNat ∧ t.keep.forced = s.keep.forced ++ [d] ∧
        Raised 0x23 d w.toNat s t ∧ t.mem = s.mem ∧ t.units = s.units)) ∧
  (∀ s, ((jobRuns s = true ∨ diesOn s = false) → exec .idleEvaluation s = .next s) ∧
    (jobRuns s = false → diesOn s = true → Completes .idleEvaluation s fun t =>
      t.keep.codes = nextCodes (num s) s.keep.codes (logicReadings s) (stackReadings s) ∧ t.keep.inForce = t.keep.codes ∧
      t.keep.forced = [] ∧ t.mem = { s.mem with refresh := nextRefresh (num s) s.mem.refresh (stackReadings s) } ∧ t.units = s.units)) ∧
  (∀ s a, Takes s a 0x2100 1 →
    (maySleep s = true → Completes (.sleepRequest a 1) s fun t => Sleeps s t ∧ .usdo a [] ∈ t.out) ∧
    (maySleep s = false → Refused (.sleepRequest a 1) a 0x2100 1 0x08000022 s) ∧
    (s.keep.dev = .asleep → s.dict.awaiting = [] → Completes (.wakeRequest a 0) s fun t => Woken s t 1 ∧ .usdo a [] ∈ t.out) ∧
    (s.keep.dev ≠ .asleep → Completes (.wakeRequest a 0) s fun t => t.out = s.out ++ [.usdo a []] ∧ t.dict = s.dict ∧ OnlyDict s t)) ∧
  (∀ s, (num s 0x2100 2 ≠ 0 → maySleep s = true → Completes .autoSleepTimer s (Sleeps s)) ∧
    ((num s 0x2100 2 = 0 ∨ maySleep s = false) → exec .autoSleepTimer s = .next s)) ∧
  (∀ s, (s.keep.dev = .asleep → s.dict.awaiting = [] → Completes .wakeIn s (fun t => Woken s t 2) ∧
      exec .memoryWakeHoldExpiry s = .next { s with mem := { s.mem with memAwake := false } }) ∧
    (s.keep.dev ≠ .asleep → exec .wakeIn s = .next s ∧ exec .memoryWakeHoldExpiry s = .next s)) ∧
  (∀ s, s.keep.dev = .asleep → s.keep.sleptFrom = .idle → Completes .wakeIn s fun t =>
    ∀ p ∈ t.dict.awaiting, p.point ≠ .idle) ∧
  (∀ s (v : BitVec 16),
    (s.keep.v48 = true → v.toNat < 380 → Completes (.v48Loss v) s fun t => DomainsOff t ∧ t.keep.v48 = false ∧
      t.dict.stored = s.dict.stored ∧
      ((s.keep.vaux = false ∨ s.boot.fw = true) → LastLogged t 0x27 (pack [(8, 0), (8, 0), (16, v.toNat)])) ∧
      (s.keep.vaux = true → t.out.getLast? = some (.heartbeat 0)) ∧
      (s.keep.vaux = true → s.boot.fw = true → t.dict.vals = s.dict.vals ∧ t.dict.errReg = s.dict.errReg ||| 5)) ∧
    ((s.keep.v48 = false ∨ 380 ≤ v.toNat) → exec (.v48Loss v) s = .next s) ∧
    (s.keep.v48 = false → s.keep.present = true → 400 < v.toNat → Completes (.v48Return v) s fun t => BootBegun s t ∧
      LastLogged t 0x27 (pack [(8, 1), (8, 0), (16, v.toNat)])) ∧
    ((s.keep.v48 = true ∨ s.keep.present = false ∨ v.toNat ≤ 400) → exec (.v48Return v) s = .next s)) ∧
  (∀ s, (s.keep.v48 = true → Completes .presentOpen s fun t => DomainsOff t ∧ t.keep.v48 = false ∧ t.keep.present = false) ∧
    (s.keep.v48 = false → exec .presentOpen s = .next { s with keep := { s.keep with present := false } }) ∧
    exec .presentClose s = .next { s with keep := { s.keep with present := true } }) ∧
  (∀ s, (s.keep.v48 = true → exec .vauxLoss s = .next { s with keep := { s.keep with vaux := false } } ∧
      (s.keep.vaux = false → exec .vauxReturn s = .next { s with keep := { s.keep with vaux := true } })) ∧
    (s.keep.v48 = false → s.keep.vaux = false → Completes .vauxReturn s fun t => t.keep = { s.keep with vaux := true } ∧
      (s.boot.fw = false → LoadsStored s t) ∧ t.out.getLast? = some (.heartbeat 0)) ∧
    (s.keep.v48 = false → Completes .vauxLoss s fun t => t.dict = { stored := s.dict.stored } ∧ t.keep = { present := s.keep.present } ∧
      t.boot = { s.boot with fw := false } ∧ t.out = s.out)) ∧
  (allDomains.length = 285 ∧ allDomains.Nodup ∧ (∀ s d, s.keep.v48 = false → domainOn s d = false) ∧
    ∀ s (p : Fin 72), s.keep.v48 = true → (s.keep.dev = .planLoaded ∨ s.keep.dev = .running ∨ s.keep.dev = .halted) →
      let carries := decide (logicalUnit s p < 64)
      domainOn s (.lock p) = carries ∧ domainOn s (.array p) = (carries && !(getUnit s p).napArr) ∧
      domainOn s (.vector p) = (carries && !(getUnit s p).napVec)) ∧
  (∀ s (n : Fin 5) pr, Completes (.cablePresenceChange n pr) s fun t => ∀ q < 20,
    (getPort t q).cable = (if q / 4 = n.val then pr else (getPort s q).cable) ∧
    (getPort t q).cond = (if q / 4 = n.val ∧ pr = false then 1 else (getPort s q).cond)) ∧
  (∀ s, (keeperOn s = true → exec .hbRxEdge s = .next { s with twin := { s.twin with sideband := true } }) ∧
    (keeperOn s = false → exec .hbRxEdge s = .next s) ∧
    exec .identifyExpiry s = .next { s with keep := { s.keep with identEnd := 0 } } ∧ hbTx s = keeperOn s) ∧
  (∀ s a (v : BitVec 16), Takes s a 0x2140 2 →
    (v.toNat ≤ 3600 → Completes (.identify a v) s fun t => t.out = s.out ++ [.usdo a []] ∧
      t = { s with keep := { s.keep with identEnd := if v.toNat = 0 then 0 else s.keep.samples + 1024 * v.toNat }, out := t.out,
                   stat := { s.stat with boot := t.stat.boot } }) ∧
    (3600 < v.toNat → Refused (.identify a v) a 0x2140 2 0x06090030 s))

/-- Boot phases in their order, slot selection, the watchdog and reboot, staging, the next slot and confirmation, the
report and the test draw. Derived from R112, R428, R429, R430, R431, R432, R434, R438, R439, R440, R441, R446. -/
def Obligations.BootFirmwareAndTrust : Prop :=
  (∀ s (p : Fin 9) r, (s.boot.booting = false ∨ p.val = 0 ∨ s.boot.phases.contains p.val = true ∨
      (phaseDeps p.val).any (fun d => !s.boot.phases.contains d) = true) → exec (.bootPhaseDone p r) s = .next s) ∧
  (∀ s (p : Fin 9) r, s.boot.booting = true → s.boot.phases.contains p.val = false →
    (phaseDeps p.val).any (fun d => !s.boot.phases.contains d) = false →
    ((p.val = 1 → FlashFound s r) → (p.val = 1 ∨ p.val = 3 ∨ p.val = 4 ∨ p.val = 7) → r.loadBad = false → r.badCopies = [] →
      exec (.bootPhaseDone p r) s = .next { s with boot := { s.boot with phases := s.boot.phases ++ [p.val] } }) ∧
    (∀ c : Fin 2, p.val = 3 → r.loadBad = false → r.badCopies = [(1, c)] →
      let old := if c = 0 then s.boot.flash.maps.2 else s.boot.flash.maps.1
      let new := if c = 0 then s.boot.flash.maps.1 else s.boot.flash.maps.2
      old.gen ≠ 0 → new.gen = nextGen old.gen → Completes (.bootPhaseDone p r) s fun t =>
        t.boot.repair = old.recs ∧ t.boot.repGen = old.gen ∧ t.mem = s.mem ∧ t.units = s.units ∧ t.dict = s.dict) ∧
    (p.val = 3 → r.loadBad = false → r.badCopies = [(1, 0), (1, 1)] → Completes (.bootPhaseDone p r) s fun t =>
      t.boot.repair = [] ∧ Raised 0x36 0xFFFF (pack [(32, 4), (32, 0x02100000)]) s t ∧ t.mem = s.mem ∧ t.units = s.units) ∧
    (p.val = 1 → ¬ FlashFound s r → Completes (.bootPhaseDone p r) s fun t =>
      t.boot.recovery = true ∧ t.boot.booting = false ∧ t.boot.slotRun = none ∧ t.dict = s.dict ∧ t.mem = s.mem) ∧
    (∀ k, p.val = 2 → k = (if s.boot.next = true then 1 else 0) → (getSlot s k).state = 4 → verify s (getSlot s k).image = 0 →
      s.boot.recovery = false → r.loadBad = false → r.badCopies = [] → Completes (.bootPhaseDone p r) s fun t =>
        t.boot.slotRun = some k ∧ t.boot.fwVer = fwVersion (getSlot s k).image ∧ t.boot.fwMeas = fwMeasure (getSlot s k).image ∧
        t.boot.svn = max s.boot.svn (fwSvn (getSlot s k).image) ∧ t.boot.recovery = false ∧ getSlot t 0 = getSlot s 0 ∧
        getSlot t 1 = getSlot s 1 ∧ LoadsStored s t) ∧
    (∀ k, (p.val = 3 ∨ p.val = 4) → r.loadBad = true → r.badCopies = [] → s.boot.slotRun = some k → k < 2 →
      Completes (.bootPhaseDone p r) s fun t => DomainsOff t ∧ t.boot.booting = true ∧ (getSlot t k).state = 5 ∧
        getSlot t (1 - k) = getSlot s (1 - k) ∧ t.boot.fallbacks = s.boot.fallbacks + 1 ∧ t.boot.boots = s.boot.boots ∧
        t.dict.stored = s.dict.stored) ∧
    (p.val = 2 → r.loadBad = false → r.badCopies = [] → (∀ k < 2, (getSlot s k).state < 2 ∨ (getSlot s k).state = 5) → Completes (.bootPhaseDone p r) s fun t =>
      t.boot.recovery = true ∧ t.boot.booting = false ∧ t.boot.slotRun = none ∧ t.dict = s.dict ∧ t.mem = s.mem) ∧
    (p.val = 5 → r.loadBad = false → Completes (.bootPhaseDone p r) s fun t => t.mem.cells = [] ∧ t.mem.barges = [] ∧ t.mem.snaps = [] ∧
      t.mem.stackBad = r.badStacks.map (·.val) ∧
      (∀ g, Sparse.get 0 t.mem.group g = if g ∈ r.badGroups.map (·.val) then 1 else 0) ∧ t.units = s.units) ∧
    (p.val = 6 → s.units.owed = [] → r.badUnits = [] → (∀ q ∈ s.boot.repair, q.typ ≠ 1) → Completes (.bootPhaseDone p r) s fun t =>
      t.boot.repGen = nextGen s.boot.repGen ∧ t.boot.pendMap = false ∧
      ∀ u < 72, logicalUnit t u = (if u % 9 = 8 then 0xFE else 8 * (u / 9) + u % 9) ∧ unitCond t u = (if u % 9 = 8 then 1 else 0)) ∧
    (p.val = 8 → Completes (.bootPhaseDone p r) s fun t => t.keep.dev = .idle ∧ t.boot.booting = false ∧ t.boot.bootMs = r.ms ∧
      .heartbeat 0 ∈ t.out ∧ t.mem = s.mem ∧ t.units = s.units)) ∧
  (∀ s, (s.boot.booting = false → exec .bootWatchdog s = .next s) ∧
    (s.boot.booting = true → Completes .bootWatchdog s fun t => DomainsOff t ∧ t.boot.booting = true ∧ t.boot.boots = s.boot.boots ∧
      t.boot.fallbacks = s.boot.fallbacks ∧ t.dict.stored = s.dict.stored)) ∧
  (∀ s a, Takes s a 0x2200 6 →
    (s.keep.dev = .idle → Completes (.reboot a 1) s fun t => BootBegun s t ∧ .usdo a [] ∈ t.out) ∧
    (s.keep.dev ≠ .idle → Refused (.reboot a 1) a 0x2200 6 0x08000022 s)) ∧
  (∀ s a (addr : BitVec 64), Takes s a 0x2210 1 →
    (s.boot.staging ≠ none → Refused (.stageImage a addr) a 0x2210 1 0x08000022 s) ∧
    (∀ u, s.boot.staging = none → readImage addr.toNat 512 s = .notBacked u → Completes (.stageImage a addr) s fun t =>
      t.boot = { s.boot with stage := 8 } ∧ t.out = s.out ++ [.usdo a []] ∧ t.mem = { s.mem with memAwake := t.mem.memAwake } ∧
      (s.keep.dev = .asleep → t.mem.memAwake = true)) ∧
    (∀ u, s.boot.staging = none → readImage addr.toNat 512 s = .failed u → Completes (.stageImage a addr) s fun t =>
      t.boot.stage = 8 ∧ (∀ k, getSlot t k = getSlot s k) ∧ .usdo a [] ∈ t.out ∧ t.mem.cells = s.mem.cells) ∧
    (∀ h img u v, s.boot.staging = none → readImage addr.toNat 512 s = .ok u h → 640 ≤ imgLength h → imgLength h ≤ 16777216 →
      readImage addr.toNat (imgLength h) u = .ok v img →
      (verify s img ≠ 0 → Completes (.stageImage a addr) s fun t =>
        t.boot = { s.boot with stage := verify s img } ∧ t.out = s.out ++ [.usdo a []] ∧
        t.mem = { s.mem with memAwake := t.mem.memAwake }) ∧
      (verify s img = 0 → Completes (.stageImage a addr) s fun t =>
        t.boot.stage = 1 ∧ t.boot.staging = some (stageSlot s) ∧ (getSlot t (stageSlot s)).state = 1 ∧
        getSlot t (1 - stageSlot s) = getSlot s (1 - stageSlot s) ∧ .usdo a [] ∈ t.out ∧ t.mem = { s.mem with memAwake := t.mem.memAwake }))) ∧
  (∀ s k back erase off, k < 2 → s.boot.staging = some k →
    (verify s back = 0 → Completes (.stagingDone (.written back)) s fun t => (getSlot t k).state = 2 ∧ (getSlot t k).image = back ∧ t.boot.stage = 0 ∧
      t.boot.next = decide (k = 1) ∧ t.boot.staging = none ∧ getSlot t (1 - k) = getSlot s (1 - k) ∧
      Raised 0x37 0xFFFF (pack [(8, 0), (32, fwVersion back)]) s t) ∧
    (verify s back ≠ 0 → Completes (.stagingDone (.written back)) s fun t => getSlot t k = {} ∧ t.boot.stage = 7 ∧ t.boot.staging = none ∧
      t.boot.next = s.boot.next ∧ getSlot t (1 - k) = getSlot s (1 - k)) ∧
    (Completes (.stagingDone (.flashError erase off)) s fun t => getSlot t k = {} ∧ t.boot.stage = 9 ∧ t.boot.staging = none ∧
      t.boot.next = s.boot.next ∧ getSlot t (1 - k) = getSlot s (1 - k) ∧
      Raised 0x36 0xFFFF (pack [(32, if erase = true then 2 else 3), (32, off.toNat)]) s t)) ∧
  (∀ s o, s.boot.staging = none → exec (.stagingDone o) s = .next s) ∧
  (∀ s a (v : BitVec 8), Takes s a 0x2210 3 →
    (v.toNat ≤ 1 → ((getSlot s v.toNat).state = 2 ∨ (getSlot s v.toNat).state = 4) → Completes (.nextSlot a v) s fun t =>
      t.boot = { s.boot with next := decide (v = 1), headGen := t.boot.headGen, flash := t.boot.flash } ∧ .usdo a [] ∈ t.out ∧ t.mem = s.mem) ∧
    (v.toNat ≤ 1 → (getSlot s v.toNat).state ≠ 2 → (getSlot s v.toNat).state ≠ 4 → Refused (.nextSlot a v) a 0x2210 3 0x08000022 s) ∧
    (1 < v.toNat → Refused (.nextSlot a v) a 0x2210 3 0x06090030 s)) ∧
  (∀ s a, Takes s a 0x2210 4 →
    (trialSlot s = none → Refused (.confirm a 1) a 0x2210 4 0x08000022 s) ∧
    (∀ k, trialSlot s = some k → Completes (.confirm a 1) s fun t => (getSlot t k).state = 4 ∧
      (getSlot t k).image = (getSlot s k).image ∧ t.boot.svn = max s.boot.svn (fwSvn (getSlot s k).image) ∧
      t.boot.revoke = s.boot.revoke ||| BitVec.ofNat 32 (imgRevoke (getSlot s k).image) ∧ .usdo a [] ∈ t.out ∧ t.mem = s.mem)) ∧
  (∀ s a, pathServes s a.path = true → idxServed s a.path 0x2224 = true →
    (s.boot.phases.contains 4 = true → Completes (.attestationReport a) s fun t =>
      t.out = s.out ++ [.usdo a (attestation s)] ∧ t.dict = s.dict ∧ OnlyDict s t) ∧
    (s.boot.phases.contains 4 = false → Refused (.attestationReport a) a 0x2224 2 0x08000022 s)) ∧
  (∀ s a, pathServes s a.path = true → idxServed s a.path 0x3C11 = true → Completes (.testDraw a) s fun t =>
    t.out = s.out ++ [.usdo a (leBytes 8 (brine64 (BitVec.ofNat 64 (num s 0x3C11 1)) (BitVec.ofNat 64 (num s 0x3C11 2))
      (BitVec.ofNat 16 (num s 0x3C11 3)) (BitVec.ofNat 64 (num s 0x3C11 4))).toNat)] ∧ t.dict = s.dict ∧ OnlyDict s t)

end Statements
end

