-- ==== Sys2Proof/Laws/Ops.lean ====
section
/-! SUPPORT. The shared operations: for each, one lemma that says what it does, so that no proof unfolds it. -/

namespace Sys2Proof.Machine

variable (s : State)

/-! ### Events (R398, R401) -/

/-- What raising an interrupt can change: what is sent, and the pending bits. -/
theorem raiseVec_frame (v : Nat) : ∃ o p, raiseVec v s = { s with out := s.out ++ o, host := { s.host with pba := p } } := by
  unfold raiseVec
  split
  · exact ⟨[], s.host.pba, by simp⟩
  · split
    · exact ⟨[], setBit s.host.pba v true, by simp⟩
    · exact ⟨[.msix v], s.host.pba, by simp [send]⟩

/-- What noting an event can change: its count, and the log. -/
theorem noteEvent_frame (e : Event) : ∃ l n, noteEvent e s =
    { s with stat := { s.stat with eseq := s.stat.eseq + 1 }, boot := { s.boot with log := l, logSeq := n } } := by
  unfold noteEvent
  split
  · exact ⟨_, _, rfl⟩
  · exact ⟨s.boot.log, s.boot.logSeq, rfl⟩

/-- What queueing an event can change: what is sent, the host-interface domain, and the counts since boot. -/
theorem postEvent_frame (e : Event) : ∃ o h b, postEvent e s =
    { s with out := s.out ++ o, host := h, stat := { s.stat with boot := b } } := by
  unfold postEvent
  split
  · exact ⟨[], _, _, by rw [List.append_nil]; rfl⟩
  · split
    · exact ⟨[], _, _, by rw [List.append_nil]; rfl⟩
    · unfold enqueue
      split
      · obtain ⟨o, p, h⟩ := raiseVec_frame (pushEvent e s) 0
        exact ⟨o, _, s.stat.boot, h⟩
      · exact ⟨[], _, s.stat.boot, by rw [List.append_nil]; rfl⟩

/-- What raising an event can change: what is sent, the event queue and its counts, and the log. -/
theorem raise_frame (typ sev source detail : Nat) : ∃ o h l n b, raise typ sev source detail s =
    { s with out := s.out ++ o, host := h, boot := { s.boot with log := l, logSeq := n },
             stat := { s.stat with eseq := s.stat.eseq + 1, boot := b } } := by
  unfold raise
  extract_lets e
  obtain ⟨l, n, hn⟩ := noteEvent_frame s e
  obtain ⟨o, h, b, hp⟩ := postEvent_frame (noteEvent e s) e
  exact ⟨o, h, l, n, b, by rw [hp, hn]⟩

/-- An event is counted. -/
@[simp] theorem raise_eseq (typ sev source detail : Nat) : (raise typ sev source detail s).stat.eseq = s.stat.eseq + 1 := by
  obtain ⟨o, h, l, n, b, e⟩ := raise_frame s typ sev source detail
  rw [e]

theorem enqueue_events (e : Event) : (enqueue e s).host.events = s.host.events ++ [e] := by
  unfold enqueue
  split
  · obtain ⟨o, p, h⟩ := raiseVec_frame (pushEvent e s) 0
    rw [h]; rfl
  · rfl

/-- An event enters a queue that has room, unless the host-interface domain is in reset. -/
theorem raise_events (typ sev source detail : Nat) (hd : s.host.down = false) (hl : s.host.events.length < 4095) :
    (raise typ sev source detail s).host.events =
      s.host.events ++ [⟨typ, sev, source, (s.stat.eseq + 1) % 2 ^ 32, stepNow s, detail % 2 ^ 128⟩] := by
  unfold raise
  extract_lets e
  obtain ⟨l, n, hn⟩ := noteEvent_frame s e
  have hh : (noteEvent e s).host = s.host := by rw [hn]
  unfold postEvent
  rw [hh, hd, if_neg (by simp), if_neg (by omega), enqueue_events, hh]

/-! ### Dictionary requests (R51 to R58) -/

/-- A request that its route serves reaches its handler. -/
theorem serve_served {a : Access} {idx sub : Nat} {f : State → State} (h1 : pathServes s a.path = true)
    (h2 : idxServed s a.path idx = true) : serve a idx sub f s = f s := by simp [serve, h1, h2]

/-- A request on a route that does not serve changes nothing. -/
theorem serve_silent {a : Access} {idx sub : Nat} {f : State → State} (h : pathServes s a.path = false) :
    serve a idx sub f s = s := by simp [serve, h]

/-! ### The issue of bundles (R186 to R192) -/

/-- An operation that may not issue changes nothing. -/
theorem giveOp_none {c : Instr} {i : Issue} (h : canIssue s i = none) : giveOp c i s = s := by simp [giveOp, h]

/-- An operation that is not its bundle's last is kept, and nothing else changes. -/
theorem giveOp_kept {c : Instr} {i : Issue} {p : Nat} (h : canIssue s i = some p) (hl : i.last = false) :
    giveOp c i s = modUnit p (fun u => { u with slots := placeOp c u.slots }) s := by
  simp only [giveOp, h, hl, Bool.false_eq_true, if_false]
  rfl

/-- The last operation of a bundle issues it. -/
theorem giveOp_last {c : Instr} {i : Issue} {p : Nat} (h : canIssue s i = some p) (hl : i.last = true) :
    giveOp c i s = issueBundle p (placeOp c (getUnit s p).slots) s := by simp [giveOp, h, hl]

/-- A bundle whose operations all complete ends; nothing else does anything. -/
theorem issueBundle_ok {p : Nat} {cs : List Instr} {t : State} (h : runSlots (getUnit s p) p cs s = .ok t) :
    issueBundle p cs s = finishBundle p t := by simp [issueBundle, h]

/-- A bundle of which an operation waits changes its unit's hold alone. -/
theorem issueBundle_wait {p : Nat} {cs : List Instr} {x : Hold} (h : runSlots (getUnit s p) p cs s = .wait x) :
    issueBundle p cs s = holdUnit p cs (holdOf p cs x s) s := by simp [issueBundle, h]

/-- A bundle of which an operation faults is a unit fault. -/
theorem issueBundle_fault {p n : Nat} {cs : List Instr} (h : runSlots (getUnit s p) p cs s = .fault n) :
    issueBundle p cs s = unitFaultAt p n s := by simp [issueBundle, h]

/-- A bundle of one operation does what the operation does. -/
theorem runSlots_one {u : UnitSt} {p : Nat} {c : Instr} {o : SlotOp} (h : slotOp u c = some o) : runSlots u p [c] s = o.run p s := by
  simp only [runSlots, h]
  cases o.run p s <;> rfl

/-- A whole bundle of one operation that completes. -/
theorem giveOp_one {c : Instr} {i : Issue} {p : Nat} {o : SlotOp} {t : State} (h : canIssue s i = some p) (hl : i.last = true)
    (hs : (getUnit s p).slots = []) (ho : slotOp (getUnit s p) c = some o) (hr : o.run p s = .ok t) : giveOp c i s = finishBundle p t := by
  rw [giveOp_last s h hl, hs]
  exact issueBundle_ok s (by rw [placeOp, runSlots_one s ho, hr])

/-- The end of a bundle changes its unit and the bundle count. -/
theorem finishBundle_unit (p : Nat) : getUnit (finishBundle p s) p =
    (let u := getUnit s p
     { u with hold := none, slots := [], old := u.cur, tap := none, vp1New := 0, branch := none,
              bundle := u.branch.getD ((u.bundle + 1) % 4096) }) := by simp [finishBundle, getUnit]

theorem finishBundle_unit_ne {p q : Nat} (h : q ≠ p) : getUnit (finishBundle p s) q = getUnit s q := by
  simp [finishBundle, getUnit, Sparse.get_set_ne _ _ _ h]

theorem finishBundle_frame (p : Nat) : finishBundle p s =
    { s with units := { s.units with phys := (finishBundle p s).units.phys },
             stat := { s.stat with run := (finishBundle p s).stat.run } } := rfl

/-- An operation with a valid record runs on the record's words. -/
theorem onRec_valid {rix : BitVec 11} {isel : Fin 8} {f : List Nat → Nat → State → OpRes} {p : Nat} {w : List Nat}
    (hw : recWords (getUnit s p) rix.toNat isel.val = some w) : onRec rix isel f p s = f w p s := by simp [onRec, hw]

end Sys2Proof.Machine
end

