-- ==== Sys2Proof/Laws/Memory.lean ====
section
/-! SUPPORT. Device memory: which operations leave its bytes alone, and that every one that writes them keeps the canonical
form. -/

namespace Sys2Proof.Machine

variable (s : State)

/-- Device memory is in canonical form. -/
def inForm (s : State) : Prop := Memory.wf s.mem.cells = true

theorem reset_inForm : inForm State.reset := rfl

/-- A fold of operations that keep a property keeps it. -/
theorem foldl_keeps {α : Type} {P : State → Prop} {f : State → α → State} (h : ∀ s a, P s → P (f s a)) (xs : List α) :
    ∀ s, P s → P (xs.foldl f s) := by
  induction xs with
  | nil => intro s hs; exact hs
  | cons x xs ih => intro s hs; exact ih _ (h s x hs)

/-- A fold of operations that leave the bytes alone leaves them alone. -/
theorem foldl_cells {α : Type} {f : State → α → State} (h : ∀ s a, (f s a).mem.cells = s.mem.cells) (xs : List α) :
    ∀ s, (xs.foldl f s).mem.cells = s.mem.cells := by
  induction xs with
  | nil => intro s; rfl
  | cons x xs ih => intro s; rw [List.foldl_cons, ih, h]

/-! ### Operations that leave the bytes alone -/

@[simp] theorem raise_mem (typ sev source detail : Nat) : (raise typ sev source detail s).mem = s.mem := by
  obtain ⟨o, h, l, n, b, e⟩ := raise_frame s typ sev source detail
  rw [e]

@[simp] theorem raiseOpen_mem (typ source detail : Nat) : (raiseOpen typ source detail s).mem = s.mem := raise_mem s ..
@[simp] theorem setBarge_cells (b : Nat) (e : BargeEnt) : (setBarge b e s).mem.cells = s.mem.cells := rfl
@[simp] theorem setSnap_cells (k : Nat) (x : Snap) : (setSnap k x s).mem.cells = s.mem.cells := rfl
@[simp] theorem dropSnapCopies_cells (k : Nat) : (dropSnapCopies k s).mem.cells = s.mem.cells := rfl

@[simp] theorem recordDamage_cells (addr : Nat) (resv : Bool) (cause : Nat) (pond : Bool) :
    (recordDamage addr resv cause pond s).mem.cells = s.mem.cells := by simp [recordDamage]

@[simp] theorem writeMap_mem : (writeMap s).mem = s.mem := by
  unfold writeMap
  split <;> simp [send]

@[simp] theorem addRepair_mem (r : Repair) : (addRepair r s).mem = s.mem := by
  unfold addRepair
  dsimp only
  split <;> simp

@[simp] theorem retireFrame_cells (resv : Bool) (frame : Nat) : (retireFrame resv frame s).mem.cells = s.mem.cells := by
  unfold retireFrame
  cases resv <;> simp only [Bool.false_eq_true, if_true, if_false] <;> split <;> simp

@[simp] theorem corrected_cells (resv : Bool) (frame key : Nat) : (corrected resv frame key s).mem.cells = s.mem.cells := by
  unfold corrected
  cases resv <;> simp only [Bool.false_eq_true, if_true, if_false] <;> split <;> simp

@[simp] theorem uncorrectable_cells (resv : Bool) (frame key : Nat) :
    (uncorrectable resv frame key s).mem.cells = s.mem.cells := by simp [uncorrectable]

@[simp] theorem applyEcc_cells (ecc : Ecc) : (applyEcc ecc s).mem.cells = s.mem.cells := by cases ecc <;> simp [applyEcc]

@[simp] theorem failRequest_cells (a cause : Nat) : (failRequest a cause s).mem.cells = s.mem.cells := by simp [failRequest]

/-- A read changes no byte, whatever its outcome. -/
theorem readDev_cells (addr n : Nat) (ecc : Ecc) : (readDev addr n ecc s).state.mem.cells = s.mem.cells := by
  unfold readDev
  split
  · rfl
  · split
    · simp [MemOut.state]
    · dsimp only
      split
      · simp [MemOut.state]
      · have e : ∀ (c : Prop) [Decidable c] (k : Nat) (t : State), (if c then t else countRun 0x3012 1 k t).mem.cells = t.mem.cells := by
          intro c _ k t
          split <;> rfl
        exact (e _ _ _).trans (applyEcc_cells s ecc)

theorem breakSnap_cells (k : Nat) : (breakSnap k s).mem.cells = s.mem.cells := by
  unfold breakSnap
  dsimp only
  split <;> simp

theorem makeRoom_cells (n : Nat) : ∀ s, (makeRoom n s).mem.cells = s.mem.cells := by
  induction n with
  | zero => intro s; rfl
  | succ n ih =>
    intro s
    unfold makeRoom
    split
    · rfl
    · split
      · rw [ih, breakSnap_cells]
      · rfl

@[simp] theorem failPond_cells (cause : Nat) : (failPond cause s).mem.cells = s.mem.cells := by simp [failPond]

/-- A write to the pond whose own effect leaves the bytes alone leaves them alone, whatever its outcome. -/
theorem pondWrite_cells {put : State → State} (h : ∀ s, (put s).mem.cells = s.mem.cells) (off n : Nat) :
    (pondWrite off n put s).mem.cells = s.mem.cells := by
  unfold pondWrite
  dsimp only
  split_ifs <;> simp [h]

theorem placeCopy_cells (page slot : Nat) (ks : List Nat) : (placeCopy page slot ks s).mem.cells = s.mem.cells := by
  unfold placeCopy
  dsimp only
  split
  · exact pondWrite_cells s (fun _ => rfl) _ _
  · rw [recordDamage_cells]
    exact pondWrite_cells s (fun _ => rfl) _ _

theorem cowPage_cells (page : Nat) : (cowPage s page).mem.cells = s.mem.cells := by
  have h := makeRoom_cells 4 s
  unfold cowPage
  generalize makeRoom 4 s = t at h
  dsimp only
  split_ifs
  · rfl
  · rfl
  · exact h
  · rw [placeCopy_cells]
    exact h

theorem touchDirty_cells (addr n b : Nat) : (touchDirty addr n s b).mem.cells = s.mem.cells := by
  rw [touchDirty]
  split_ifs
  · exact setBarge_cells s b _
  · rfl

theorem snapPart_cells (k addr n : Nat) (ecc : Ecc) : (snapPart k addr n ecc s).state.mem.cells = s.mem.cells := by
  unfold snapPart
  split
  · dsimp only
    split
    · exact failPond_cells s _
    · split
      · exact failPond_cells s _
      · rfl
  · exact readDev_cells s addr n ecc

theorem snapParts_cells (k fuel : Nat) : ∀ (addr n : Nat) (ecc : Ecc) (s : State),
    (snapParts k fuel addr n ecc s).state.mem.cells = s.mem.cells := by
  induction fuel with
  | zero => intro addr n ecc s; exact snapPart_cells s k addr n ecc
  | succ fuel ih =>
    intro addr n ecc s
    unfold snapParts
    dsimp only
    generalize hm : min n (65536 - addr % 65536) = m
    have hp := snapPart_cells s k addr m ecc
    generalize snapPart k addr m ecc s = r at hp
    match r, hp with
    | .ok t bs, hp =>
      dsimp only
      split
      · exact hp
      · have hq := ih (addr + m) (n - m) .clean t
        generalize snapParts k fuel (addr + m) (n - m) .clean t = q at hq
        match q, hq with
        | .ok u more, hq => exact hq.trans hp
        | .notBacked u, hq => exact hq.trans hp
        | .failed u, hq => exact hq.trans hp
    | .notBacked t, hp => exact hp
    | .failed t, hp => exact hp

/-- A snapshot read changes no byte, whatever its outcome. -/
theorem snapRead_cells (k addr n : Nat) (ecc : Ecc) : (snapRead k addr n ecc s).state.mem.cells = s.mem.cells := by
  unfold snapRead
  dsimp only
  have hp := snapParts_cells k (n / 65536 + 1) addr n ecc s
  generalize snapParts k (n / 65536 + 1) addr n ecc s = r at hp
  split
  · rfl
  · split
    · rfl
    · match r, hp with
      | .ok t bs, hp =>
        dsimp only [MemOut.state] at hp ⊢
        split
        · exact hp
        · exact hp
      | .notBacked t, hp => exact hp
      | .failed t, hp => exact hp

/-! ### Operations that write -/

variable {s}

theorem storeByte_inForm (addr : Nat) (b : Byte) (h : inForm s) : inForm (storeByte s addr b) := by
  have h1 : Memory.wf (Sparse.set memDefault s.mem.cells (place s addr).key b) = true := Sparse.wf_set memDefault b _ _ h
  unfold inForm storeByte
  dsimp only
  split
  · exact Sparse.wf_set memDefault b _ _ h1
  · exact h1

theorem storeBytes_inForm (bs : Bytes) : ∀ (addr : Nat) {s : State}, inForm s → inForm (storeBytes addr bs s) := by
  induction bs with
  | nil => intro addr s h; exact h
  | cons b bs ih => intro addr s h; exact ih _ (storeByte_inForm addr b h)

theorem clearRanges_wf (ks : List Nat) (n : Nat) : ∀ m : List Host.Cell, Memory.wf m = true →
    Memory.wf (ks.foldl (fun m k => Sparse.clearRange m k n) m) = true := by
  induction ks with
  | nil => intro m h; exact h
  | cons k ks ih => intro m h; exact ih _ (Sparse.wf_clearRange memDefault m k n h)

theorem clear_inForm (ks : List Nat) (n : Nat) (xs : List Nat) (h : inForm s) :
    inForm { s with mem := { s.mem with cells := ks.foldl (fun m k => Sparse.clearRange m k n) s.mem.cells, badBlk := xs } } :=
  clearRanges_wf ks n _ h

theorem setBarge_inForm (b : Nat) (e : BargeEnt) (h : inForm s) : inForm (setBarge b e s) := h

theorem zeroFill_inForm (b : Nat) (h : inForm s) : inForm (zeroFill s b) := by
  unfold zeroFill
  generalize barge s b = e
  dsimp only
  split
  · exact setBarge_inForm b _ (clear_inForm _ _ _ h)
  · exact h

theorem moveBytes_inForm (src dst n : Nat) (h : inForm s) : inForm (moveBytes src dst n s) :=
  Sparse.wf_copyRange memDefault _ src dst n h

theorem copyChunks_inForm (src dst n : Nat) : ∀ (k : Nat) {s : State}, inForm s → inForm (copyChunks src dst n k s).2 := by
  induction n with
  | zero => intro k s h; exact h
  | succ n ih =>
    intro k s h
    unfold copyChunks
    split
    · exact h
    · exact ih (k + 1) (moveBytes_inForm _ _ chunkBytes h)

/-- A copy that goes on keeps the canonical form. -/
theorem copyTo_inForm (b k : Nat) (h : inForm s) : inForm (copyTo b k s) := by
  unfold copyTo
  split
  · exact h
  · exact copyChunks_inForm _ _ _ _ h

theorem meetCopy_inForm (addr n b : Nat) (h : inForm s) : inForm (meetCopy addr n b s) := by
  unfold meetCopy
  split
  · exact h
  · exact copyTo_inForm b _ h

theorem inForm_of_cells {t : State} (e : t.mem.cells = s.mem.cells) (h : inForm s) : inForm t := by
  unfold inForm at *
  rw [e]
  exact h

theorem setBad_inForm (xs : List Nat) (h : inForm s) : inForm { s with mem := { s.mem with badBlk := xs } } := h

theorem setArea_inForm (area st : Nat) (h : inForm s) : inForm (setArea area st s) := h

theorem storePart_inForm (addr : Nat) (bs : Bytes) (h : inForm s) : inForm (storePart addr bs s) := by
  rw [storePart]
  refine foldl_keeps (fun s b hs => inForm_of_cells (touchDirty_cells s addr _ b) hs) _ _ (storeBytes_inForm bs addr (setBad_inForm _ ?_))
  refine foldl_keeps (fun s b hs => meetCopy_inForm addr _ b hs) _ _ ?_
  exact foldl_keeps (fun s b hs => zeroFill_inForm b hs) _ _ (inForm_of_cells (foldl_cells cowPage_cells _ s) h)

theorem state_ok (s : State) (bs : Bytes) : (MemOut.ok s bs).state = s := rfl

theorem writeFrames_inForm (addr : Nat) (bs : Bytes) (h : inForm s) : inForm (writeFrames addr bs s).state := by
  rw [writeFrames]
  split
  · exact inForm_of_cells (failRequest_cells s _ 4) h
  · split
    · exact inForm_of_cells (failRequest_cells s _ 1) h
    · rw [state_ok]
      exact storePart_inForm addr bs h

theorem writePart_inForm (addr : Nat) (bs : Bytes) (h : inForm s) : inForm (writePart addr bs s).state := by
  rw [writePart]
  split_ifs
  · exact h
  · exact h
  · split
    · split_ifs
      · exact inForm_of_cells (by rw [MemOut.state, raiseOpen_mem, countBoot_mem]) h
      · have hw := writeFrames_inForm addr bs h
        split
        · rename_i t _ e
          rw [e] at hw
          exact setArea_inForm _ 1 hw
        · exact hw
    · exact writeFrames_inForm addr bs h

theorem writeCuts_inForm (cs : List Nat) : ∀ (addr : Nat) (bs : Bytes) {s : State}, inForm s → inForm (writeCuts cs addr bs s).state := by
  induction cs with
  | nil => intro addr bs s h; exact writePart_inForm addr bs h
  | cons c cs ih =>
    intro addr bs s h
    unfold writeCuts
    split
    · have hp := writePart_inForm addr (bs.take (c - addr)) h
      split
      · rename_i t _ e
        rw [e] at hp
        exact ih c _ hp
      · exact hp
    · exact ih addr bs h

/-- A write keeps the canonical form, whatever its outcome. -/
theorem writeDev_inForm (addr : Nat) (bs : Bytes) (h : inForm s) : inForm (writeDev addr bs s).state := writeCuts_inForm _ addr bs h

theorem pokeDev_inForm (addr : Nat) (bs : Bytes) (h : inForm s) : inForm (pokeDev addr bs s) := writeDev_inForm addr bs h

end Sys2Proof.Machine
end

