-- ==== Sys2Proof/WellFormed.lean ====
section
/-! DEFINITION. Which commands are well formed: lengths and ranges that an operand's type does not say. A command that is
not well formed stands for no message the hardware can receive; its meaning is defined all the same. -/

namespace Sys2Proof

/-- A flit carries 224 payload bytes, bytes 28 to 251 (R303). -/
def Flit.wf (f : Flit) : Bool := decide (f.payload.length = 224)

/-- One sample of 16 logic sensors and 8 stacks (R415). -/
def Readings.wf (r : Readings) : Bool := decide (r.logic.length = 16) && decide (r.stackT.length = 8) && decide (r.mr4.length = 32)

/-- A measurement block of 8 stacks and 16 logic readings (R350). -/
def MeasBlock.wf (m : MeasBlock) : Bool := decide (m.stackT.length = 8) && decide (m.logic.length = 16)

/-- A register write carries as many bytes as its size says, within BAR0 (R380, R381). -/
def RegWrite.wf (w : RegWrite) : Bool := decide (w.data.length = w.size) && decide (0 < w.size) && decide (w.size ≤ 64)

/-- The low four bits of a queue entry name its operation (R386). -/
def opIs (entry : BitVec 512) (op : Nat) : Bool := decide (entry.toNat % 16 = op)

/-- Whether a command is well formed. -/
def Instr.wf : Instr → Bool
  | .usdoSegment _ _ _ bs _ => decide (bs.length ≤ 16777216)
  | .batchRowArrival _ row _ => !row.isEmpty
  | .nullFlit _ f => f.wf
  | .writeFlit _ f => f.wf
  | .readRequest _ f _ => f.wf
  | .readResponse _ f => f.wf
  | .writeAcknowledge _ f => f.wf
  | .linkControl _ f _ => f.wf
  | .multicastData _ f => f.wf
  | .stepm _ m => m.wf
  | .registerWrite w => w.wf
  | .winbaseWrite w => w.wf && decide (w.off.toNat / 8 * 8 = 0x0200)
  | .windowRead _ n _ => decide (0 < n) && decide (n ≤ 4096)
  | .windowWrite _ bs => !bs.isEmpty
  | .noOpCommand entry => opIs entry 0
  | .hostToDevice entry _ _ => opIs entry 1
  | .deviceToHost entry _ => opIs entry 2
  | .fence entry => opIs entry 3
  | .flagOnly entry => opIs entry 4
  | .linkReturn _ width _ _ => decide (width.toNat ≤ 16)
  | .sensorSample r => r.wf
  | .bootPhaseDone phase _ => decide (1 ≤ phase.val)
  -- the operands' types say all there is to say
  | .entryWrite .. | .invalidUsdoMessage .. | .usdoSessionTimeout .. | .forwardTimeout .. | .commit ..
  | .commitAtStep .. | .discard .. | .pendingOwnerTimeout .. | .errorFieldClear .. | .store .. | .storeDone ..
  | .restoreDefaults .. | .startRemoteNode .. | .stopRemoteNode .. | .enterPreOperational .. | .resetNode ..
  | .resetCommunication .. | .producerHeartbeatTimer .. | .tpdoEventTimer .. | .ald .. | .abc .. | .aps ..
  | .adr .. | .afl .. | .anop .. | .batchWaitExpiry .. | .fadd .. | .fsub .. | .fmul .. | .fma .. | .fneg ..
  | .fabs .. | .fcps .. | .fmax .. | .fmin .. | .fcmp .. | .sel .. | .mov .. | .iadd .. | .isub .. | .imul ..
  | .shl .. | .shr .. | .sar .. | .and .. | .or .. | .xor .. | .imax .. | .imin .. | .icmp .. | .cvt .. | .exp2 ..
  | .log2 .. | .rcp .. | .rsqrt .. | .div .. | .sqrt .. | .kand .. | .kor .. | .kxor .. | .knot .. | .kset ..
  | .kidx .. | .vtag .. | .rsum .. | .rssum .. | .rmax .. | .rmin .. | .rarg .. | .rsmax .. | .rsmin .. | .rsarg ..
  | .raddraw .. | .rrd .. | .rclr .. | .rtag .. | .scalarInstruction .. | .mbxoutWrite .. | .mbxinRead ..
  | .chmarkWrite .. | .sarm .. | .srearm .. | .sstop .. | .swait .. | .cmark .. | .crel .. | .streamBurst ..
  | .memoryRequestComplete .. | .lockBreak .. | .garr .. | .gwait .. | .gsync .. | .lset .. | .ladd .. | .iset ..
  | .iaddi .. | .ixor .. | .ilen .. | .hset .. | .br .. | .bcnz .. | .bcond .. | .srecv .. | .ssend .. | .bwait ..
  | .nap .. | .wake .. | .quiet .. | .stepend .. | .sequencerWatchdog .. | .gateLimitExpiry .. | .unitFault ..
  | .activate .. | .activationDone .. | .release .. | .promote .. | .evict .. | .copyDone .. | .copyFailed ..
  | .lateRequest .. | .reservoirGroupFailure .. | .patrolScrubRead .. | .layerCheckDone .. | .updateStageStart ..
  | .updatePieceDone .. | .refreshPass .. | .cardReady .. | .readyMessage .. | .commitMessage .. | .stepOpen ..
  | .abortReport .. | .abortMessage .. | .enginesStopped .. | .normMessage .. | .applyMessage .. | .startJob ..
  | .stopJob .. | .portTrained .. | .lossOfLock .. | .retrainDone .. | .retrainTimeout .. | .detachMessage ..
  | .remoteRequestTimeout .. | .towpathUsdo .. | .gateArrival .. | .gateRelease .. | .treeEdgeConfirmation ..
  | .heartbeatMessage .. | .fabricHeartbeatTimer .. | .suspicionTimeout .. | .suspect .. | .probe ..
  | .probeAnswer .. | .probeTimeout .. | .halt .. | .haltMessage .. | .resume .. | .resumeMessage ..
  | .pairTimer .. | .pair .. | .seed .. | .seedEnd .. | .seedOk .. | .image .. | .input .. | .grad .. | .gend ..
  | .gack .. | .sack .. | .part .. | .pack .. | .shadowLayerDone .. | .sdone .. | .discardMessage .. | .pull ..
  | .data .. | .digreq .. | .digrsp .. | .hb .. | .twinHbTimer .. | .twinLinkLost .. | .unpair ..
  | .sidebandTimeout .. | .cardLevelFault .. | .recruit .. | .replaceCard .. | .plannedHandover ..
  | .harvestStep .. | .harvestComplete .. | .harvestCancel .. | .harvestLoad .. | .mbxctlDoorbell ..
  | .mailboxResponse .. | .windowOpenSnapshot .. | .windowCloseSnapshot .. | .windowReadTimeout ..
  | .cqtailWrite .. | .commandComplete .. | .ringputWrite .. | .hostseqWrite .. | .outboundWrite .. | .evpopRead ..
  | .dataLinkDown .. | .perst .. | .hotReset .. | .flr .. | .pciPowerStateChange .. | .thermalTrip ..
  | .powerAverage .. | .idleEvaluation .. | .sleepRequest .. | .wakeRequest .. | .autoSleepTimer .. | .wakeIn ..
  | .memoryWakeHoldExpiry .. | .v48Loss .. | .v48Return .. | .presentOpen .. | .presentClose .. | .bootWatchdog ..
  | .reboot .. | .stageImage .. | .stagingDone .. | .nextSlot .. | .confirm .. | .attestationReport ..
  | .testDraw .. | .identify .. | .identifyExpiry .. | .vauxReturn .. | .vauxLoss .. | .cablePresenceChange ..
  | .hbRxEdge .. | .limitCrossing .. | .awaitingPartsRead .. => true

end Sys2Proof
end

