-- ==== Sys2Proof/Safety.lean ====
section
/-! DEFINITION. What counts as a safe run of the block: every step answers a next state, device memory keeps its canonical
form, and the identity of the card stays what it is. -/

namespace Sys2Proof.Machine

/-- What every state of a safe run has: the canonical form of device memory. -/
def State.ok (s : State) : Prop := Memory.wf s.mem.cells = true

/-- A step is safe: it answers a next state that is in form and belongs to the same card. -/
def stepSafe (s : State) : Prop := ∃ t, step s = .next t ∧ t.ok ∧ t.strap = s.strap

end Sys2Proof.Machine
end

