-- ==== Sys2Proof/Tests/Slice0.lean ====
section
/-! SUPPORT. Tests: which commands are ill formed, small effects of single commands, and for every obligation with
hypotheses a state and operands that meet them, clause by clause. -/

section Tests

set_option Elab.async false

open Sys2Proof Sys2Proof.Machine Sys2Proof.Claims

namespace Sys2Proof.Tests

/-! ### Helpers -/

theorem none_of {α : Type} {x : Option α} (h : x.isNone = true) : x = none := Option.isNone_iff_eq_none.1 h

/-- An option of which a decidable property holds. -/
def someHas {α : Type} (x : Option α) (p : α → Bool) : Bool := x.any p

theorem has {α : Type} {x : Option α} {P : α → Prop} [DecidablePred P] (h : x.any (fun a => decide (P a)) = true) :
    ∃ a, x = some a ∧ P a := by
  obtain ⟨a, h1, h2⟩ := (Option.any_eq_true _ _).1 h
  exact ⟨a, h1, of_decide_eq_true h2⟩

/-- Whether reading sources succeeded, and what it gave. -/
def got {α : Type} : Fetch α → Bool
  | .ok _ _ => true
  | _ => false

def gotUnit {α : Type} : Fetch α → UnitSt
  | .ok u _ => u
  | _ => {}

def gotVal {α : Type} (d : α) : Fetch α → α
  | .ok _ a => a
  | _ => d

theorem got_ok {α : Type} (d : α) {x : Fetch α} (h : got x = true) : x = .ok (gotUnit x) (gotVal d x) := by
  cases x <;> simp_all [got, gotUnit, gotVal]

theorem got_unit {x : Fetch Unit} (h : got x = true) : x = .ok (gotUnit x) () := by
  cases x <;> simp_all [got, gotUnit]

def isNext (x : Host.Outcome State Fault Refusal) : Bool :=
  match x with
  | .next _ => true
  | _ => false

theorem next_of {x : Host.Outcome State Fault Refusal} (h : isNext x = true) : ∃ t, x = .next t := by
  cases x <;> simp_all [isNext]

theorem ok_of {ε α : Type} {x : Except ε α} (h : x.toOption.isSome = true) : ∃ a, x = .ok a := by
  cases x with
  | error e => simp [Except.toOption] at h
  | ok a => exact ⟨a, rfl⟩

/-- What a command leaves, or the state itself. -/
def after (c : Instr) (s : State) : State :=
  match exec c s with
  | .next t => t
  | _ => s

/-! ### States -/

/-- A request through the mailbox of card 0. -/
def acc : Access := ⟨.mailbox, ⟨.mailbox, 0, 0⟩⟩

/-- A powered card that has booted and is idle. -/
def card : State :=
  { State.reset with
    keep := { State.reset.keep with dev := .idle, v48 := true, present := true, vaux := true }
    boot := { State.reset.boot with phases := [1, 2, 3, 4, 5, 6, 7, 8], slotRun := some 0 }
    host := { State.reset.host with up := true, down := false } }

/-- A card whose job's first step is open. -/
def job : State :=
  { card with
    keep := { card.keep with dev := .running }
    led := { card.led with st := .opened, running := 1 }
    plan := { card.plan with active := some 0, area0 := 3 } }

/-- The header of a lane-0 message of a kind, from card 5. -/
def hdr (kind : BitVec 8) : TpHdr := ⟨0, kind, 5, 7⟩

/-- The card with its unit 0 replaced. -/
def withUnit (u : UnitSt) (s : State) : State := { s with units := { s.units with phys := [(0, u)] } }

/-- The last operation of a bundle of unit 0. -/
def iss : Issue := ⟨0, true⟩

theorem first_of {α β : Type} {x : Option (α × β)} {a : α} (h : x.map (·.1) = some a) : ∃ b, x = some (a, b) := by
  obtain ⟨⟨a', b⟩, h1, h2⟩ := Option.map_eq_some_iff.1 h
  exact ⟨b, by simp_all⟩

/-- The card with a pending set of the mailbox source. -/
def staged (es : List EntryVal) (s : State) : State :=
  { s with dict := { s.dict with pset := es, owner := some acc.src } }

/-- A value of a dictionary entry put in force. -/
def withVal (idx sub : Nat) (bs : Bytes) (s : State) : State :=
  { s with dict := { s.dict with vals := Sparse.set none s.dict.vals (ekey idx sub) (some bs) } }

/-- Card 0 of a torus of two cards in x, its port 0 trained. -/
def torus (s : State) : State :=
  let t := withVal 0x2800 1 [2] s
  { t with fab := { t.fab with ports := [(0, { cond := 2, peer := some (1, 1) })], routeUp := [0] } }

theorem unit_of (u : UnitSt) (s : State) : getUnit (withUnit u s) 0 = u := rfl

/-- In an open step of a running card every unit that has neither ended nor stopped may issue. -/
theorem may_issue (i : Issue) (u : UnitSt) (hi : i.unit = 0) (h1 : u.ended = false) (h2 : u.stopped = false) :
    MayIssue (withUnit u job) i 0 := by
  unfold MayIssue
  rw [unit_of, hi]
  exact ⟨(by decide +kernel : physUnit job 0 = some 0), .inl rfl, rfl, rfl, h1, h2⟩

theorem issues_job (u : UnitSt) (h1 : u.ended = false) (h2 : u.stopped = false) (h3 : u.slots = []) :
    Issues (withUnit u job) iss 0 :=
  ⟨may_issue iss u rfl h1 h2, rfl, h3⟩

theorem got_one {α : Type} {x : Fetch (List α)} (h : (match x with | .ok _ [_] => true | _ => false) = true) :
    ∃ u a, x = .ok u [a] := by
  cases x with
  | ok u v =>
    match v with
    | [a] => exact ⟨u, a, rfl⟩
    | [] => simp at h
    | _ :: _ :: _ => simp at h
  | wait => simp at h
  | fault c => simp at h

theorem got_two {α : Type} {x : Fetch (List α)} (h : (match x with | .ok _ [_, _] => true | _ => false) = true) :
    ∃ u a b, x = .ok u [a, b] := by
  cases x with
  | ok u v =>
    match v with
    | [a, b] => exact ⟨u, a, b, rfl⟩
    | [] => simp at h
    | [_] => simp at h
    | _ :: _ :: _ :: _ => simp at h
  | wait => simp at h
  | fault c => simp at h

theorem got_any {α : Type} {x : Fetch α} (h : got x = true) : ∃ u a, x = .ok u a := by
  cases x with
  | ok u a => exact ⟨u, a, rfl⟩
  | wait => simp [got] at h
  | fault c => simp [got] at h

/-- A record of 16 words (R192). -/
def recOf (ws : List Nat) : BitVec 512 := BitVec.ofNat 512 ((ws.zipIdx.map fun x => x.1 * 2 ^ (32 * x.2)).sum)

/-- A barge in basin frame 2, and the card with it as its only barge outside the plan areas. -/
def inBasin : BargeEnt := { state := 1, bframe := 2, bfv := true }

def basin (s : State) : State := { s with mem := { s.mem with barges := [(0, inBasin)] } }

theorem planBarge_card : planBarge .m4162 = 1568768 := by decide +kernel

theorem barge_basin (s : State) (hv : s.strap.variant = .m4162) (hb : s.mem.barges = [(0, inBasin)]) : barge s 0 = inBasin := by
  unfold barge
  dsimp only
  rw [hv, planBarge_card, hb]
  rfl

theorem place_basin (s : State) (b0 : barge s 0 = inBasin) (x : Nat) (h : x / bargeBytes = 0) :
    (place s x).key = 2 * bargeBytes + x % bargeBytes := by
  unfold place
  simp only [h, b0]
  rfl

/-- Its bytes lie apart from those of every other barge. -/
theorem apart_basin (s : State) (hv : s.strap.variant = .m4162) (hb : s.mem.barges = [(0, inBasin)]) (hc : s.mem.copies = [])
    (a n : Nat) (h : a + n ≤ 2097152) : Apart s a n := by
  refine ⟨?_, fun b _ hs => by simp [copyOf, hc] at hs⟩
  intro x y hx hy hk
  have hB : bargeBytes = 2097152 := rfl
  have hx0 : x / bargeBytes = 0 := by
    simp only [bargesOf, List.mem_map, List.mem_range] at hx
    obtain ⟨i, hi, he⟩ := hx
    rw [hB] at hi he ⊢
    omega
  have b0 := barge_basin s hv hb
  have px := place_basin s b0 x hx0
  unfold backed at hy
  rw [Bool.and_eq_true, decide_eq_true_eq] at hy
  by_cases hp : planBarge s.strap.variant ≤ y / bargeBytes ∧ y / bargeBytes < s.strap.variant.barges
  · have e : barge s (y / bargeBytes) = planEntry s (y / bargeBytes) := by
      have hf : (Sparse.get ({} : BargeEnt) s.mem.barges (y / bargeBytes)).rfv = false := by
        rw [hb]
        by_cases y0 : y / bargeBytes = 0
        · rw [y0]; rfl
        · simp [Sparse.get, Ne.symm y0]
      unfold barge
      simp only [hp.1, hp.2, hf, and_self, if_true]
    generalize hf : planFrame s (y / bargeBytes - planBarge s.strap.variant) = f at *
    have py : (place s y).key = resvKey f (y % bargeBytes) := by
      unfold place
      simp only [e, planEntry, hf]
      rw [if_neg (by omega), if_pos trivial]
    unfold resvKey at py
    rw [hB] at px py hx0
    omega
  · have e : barge s (y / bargeBytes) = Sparse.get {} s.mem.barges (y / bargeBytes) := by
      unfold barge
      have hp' : ¬ (planBarge s.strap.variant ≤ y / bargeBytes ∧ y / bargeBytes < s.strap.variant.barges ∧
          (Sparse.get ({} : BargeEnt) s.mem.barges (y / bargeBytes)).rfv = false) := fun h => hp ⟨h.1, h.2.1⟩
      simp only [if_neg hp']
    rw [e, hb] at hy
    by_cases y0 : y / bargeBytes = 0
    · have py := place_basin s b0 y y0
      rw [hB] at px py hx0 y0
      omega
    · have : Sparse.get ({} : BargeEnt) [(0, inBasin)] (y / bargeBytes) = {} := by
        simp [Sparse.get, Ne.symm y0]
      rw [this] at hy
      simp at hy

/-- The ranges of barge 0 lie in no plan area. -/
theorem below_plans (s : State) (hv : s.strap.variant = .m4162) (a n : Nat) (h : a + n ≤ 2097152) (x : Nat) (_ : a ≤ x)
    (h2 : x < a + n) : planArea s.strap.variant x = none := by
  have hB : bargeBytes = 2097152 := rfl
  unfold planArea
  dsimp only
  rw [hv, planBarge_card]
  exact if_neg (by rw [hB]; omega)

/-! ### A signed firmware image -/

def rootPub : Bytes :=
  leBytes 57 93413225224724126707995305638535254166434639150892437272172310129850809330613571471008141085588014207350576465414238734099023664385783264
def signerPub : Bytes :=
  leBytes 57 690740732287926877119361278219809954295976698478307097181910360238058314490590428366873137149668138979243399742221960603326630889598901
def signerSig : Bytes :=
  leBytes 114 19495662268723745759423906583015207713045752835106653645391962201921496041695257461819955705508702938924639089895038493199803453255285174956486676953302601097030225131291106020038378464432367383999255821451363021876894015171652301990765218589368956808126553458794703243221
def imageSig : Bytes :=
  leBytes 114 12589796542717661661717683313292581180348523239880035261041071645662451981492030644339869120250678541656871140785061604016290567098906068497441130640846134779325922918313014799732956240829769211670209926119493203881012986275297681018269485049217228087181556824855053464187
def emptyMeas : Bytes :=
  leBytes 64 9991353291519698384678597024397859892922613416730495796538897690573402363716147906860643238133893453653881300691358207479853840065415123958358083664460102
def rootHash0 : Bytes :=
  leBytes 64 13031340144026840248133568315199378754901654576088886791340726765642848424359807198883365258977125300449885058587837883310680913044004006765226093158815702

/-- An image of version 1.0 with five empty components, signed by signer 0 under a root key. -/
def fwBody : Bytes :=
  leBytes 32 (pack [(32, 0x574D4C4D), (16, 1), (16, 5), (32, 0x10000), (8, 0), (8, 0), (16, 0), (32, 0), (32, 1152), (64, 0)]) ++ rootPub ++
    signerPub ++ signerSig ++ zeros 252 ++ ([1, 2, 3, 4, 5].flatMap fun t => leBytes 32 t ++ emptyMeas) ++ zeros 32
def fwImage : Bytes := fwBody ++ imageSig ++ zeros 14

theorem fw_form : imgForm fwImage = true := by decide +kernel

theorem fw_root : meas64 (imgRootPub fwImage) = rootHash0 := by decide +kernel

theorem fw_signer : edVerify (imgRootPub fwImage) (ascii "MolamSigner1") (slice fwImage 13 1 ++ imgSignerPub fwImage) (slice fwImage 146 114) = true := by
  decide +kernel

theorem fw_image :
    edVerify (imgSignerPub fwImage) (ascii "MolamImage1") (fwImage.take (fwImage.length - 128)) (slice fwImage (fwImage.length - 128) 114) = true := by
  decide +kernel

theorem fw_parts : ((imgComps fwImage).any fun c => decide (meas64 (slice fwImage c.2.1 c.2.2.1) ≠ c.2.2.2.1)) = false := by decide +kernel

/-- The image passes every check on a card with that root key fused, no signer revoked and security version 0. -/
theorem fw_verifies (s : State) (h1 : s.strap.rootHash = rootHash0) (h2 : s.boot.revoke = 0) (h3 : s.boot.svn = 0) : verify s fwImage = 0 := by
  unfold verify imgSigned
  rw [fw_form, fw_root, fw_signer, fw_image, fw_parts, h1, h2, h3]
  decide +kernel
/-! ### Hypotheses that can be met: steps and the dictionary -/

theorem witness_StepRunsFrontCommand :
    ({ State.reset with pending := [.hotReset] } : State).pending = .hotReset :: [] ∧ State.reset.pending = [] := ⟨rfl, rfl⟩

theorem witness_IdentityNeverChanges : ∃ t, step { State.reset with pending := [.presentClose] } = .next t :=
  next_of (by decide +kernel)

theorem witness_MemoryFormKept :
    MemoryForm { State.reset with pending := [.presentClose] } ∧
    ∃ t, step { State.reset with pending := [.presentClose] } = .next t :=
  ⟨by unfold MemoryForm; decide +kernel, next_of (by decide +kernel)⟩

theorem witness_LedgerInvariants :
    ∃ s : State, (∃ t, step s = .next t) ∧ SetBounds s ∧ FewAwait s ∧ RunsNext s ∧ s.fab.joining = false ∧ TouchesInTurn s :=
  ⟨{ State.reset with pending := [.presentClose] }, next_of (by decide +kernel), by unfold SetBounds; decide +kernel,
    by unfold FewAwait; decide +kernel, by unfold RunsNext; decide +kernel, rfl, by unfold TouchesInTurn; decide +kernel⟩

theorem takes_card (idx sub : Nat) : Takes card acc idx sub :=
  ⟨by decide +kernel, by simp [idxServed, card], by simp [card, State.reset], by simp [card]⟩

theorem owns_card : Owns card acc := by unfold Owns; decide +kernel

theorem witness_EntryWriteApplies :
    (pathServes card acc.path = true ∧ idxServed card acc.path 0x1017 = true ∧
      (∃ o, findObj 0x1017 0 = some o ∧ o.acc = .rw ∧ lengthOk o [0xE8, 0x03] = true ∧ valueOk card o 0 [0xE8, 0x03] = true) ∧
      specialWrite acc 0x1017 0 [0xE8, 0x03] card = none) ∧
    (idxServed card acc.path 0x2208 = true ∧ (1 : Byte).toNat ≤ 1) ∧
    (idxServed card acc.path 0x1003 = true ∧
      (∃ o, findObj 0x1003 0 = some o ∧ o.acc ≠ .const ∧ o.acc ≠ .ro ∧ lengthOk o [0] = true) ∧
      ∃ t, specialWrite acc 0x1003 0 [0] card = some (.next t)) := by
  refine ⟨⟨?_, ?_, has ?_, none_of ?_⟩, ⟨?_, ?_⟩, ⟨?_, has ?_, ?_⟩⟩ <;> first | decide +kernel | skip
  have h : (specialWrite acc 0x1003 0 [0] card).any isNext = true := by decide +kernel
  obtain ⟨x, hx, hn⟩ := (Option.any_eq_true _ _).1 h
  obtain ⟨t, rfl⟩ := next_of hn
  exact ⟨t, hx⟩

theorem witness_EntryWriteStages :
    pathServes card acc.path = true ∧ idxServed card acc.path 0x2008 = true ∧
    (∃ o, findObj 0x2008 3 = some o ∧ o.acc = .rwst ∧ lengthOk o [16] = true ∧ valueOk card o 3 [16] = true) ∧
    specialWrite acc 0x2008 3 [16] card = none ∧ Owns card acc ∧
    (putPending ⟨0x2008, 3, [16]⟩ card.dict.pset).length ≤ 256 ∧
    ((putPending ⟨0x2008, 3, [16]⟩ card.dict.pset).map (·.val.length)).sum ≤ 16384 := by
  refine ⟨?_, ?_, has ?_, none_of ?_, owns_card, ?_, ?_⟩ <;> decide +kernel

theorem witness_EntryWriteRefusals :
    (pathServes card acc.path = true ∧ idxServed card acc.path 0x1017 = true) ∧
    indexDefined 0x0FFF = false ∧
    (indexDefined 0x1017 = true ∧ findObj 0x1017 1 = none) ∧
    (∃ o, findObj 0x1000 0 = some o ∧ (o.acc = .const ∨ o.acc = .ro)) ∧
    (∃ o, findObj 0x1017 0 = some o ∧ (o.acc = .rw ∨ o.acc = .rwst ∨ o.acc = .wo) ∧ lengthOk o [0] = false) ∧
    (∃ o, findObj 0x2008 3 = some o ∧ (o.acc = .rw ∨ o.acc = .rwst) ∧ lengthOk o [17] = true ∧ valueOk card o 3 [17] = false) ∧
    specialWrite acc 0x2008 3 [17] card = none ∧
    (Takes card acc 0x2140 2 ∧ (∃ o, findObj 0x2140 2 = some o ∧ lengthOk o (leBytes 2 3601) = true) ∧
      commandRange 0x2140 2 3601 = false) ∧
    (pathServes (torus card) .towpath = true ∧ idxServed (torus card) .towpath 0x1017 = true ∧ Fresh (torus card) (hdr 1) 1) := by
  refine ⟨⟨?_, ?_⟩, ?_, ⟨?_, ?_⟩, has ?_, has ?_, has ?_, none_of ?_, ⟨takes_card _ _, has ?_, ?_⟩, ?_, ?_, ?_⟩ <;>
    first | decide +kernel | (unfold Fresh; decide +kernel)

theorem witness_DiscardEmptiesPendingSet :
    (Takes card acc 0x2012 4 ∧ Owns card acc ∧ (1 : BitVec 32) = card.dict.gen ∧ (2 : BitVec 32) ≠ card.dict.gen) ∧
    (staged [] card).dict.owner ≠ none :=
  ⟨⟨takes_card _ _, owns_card, by decide +kernel, by decide +kernel⟩, by decide +kernel⟩

/-- A pending set whose one entry applies at a step. -/
def retries : List EntryVal := [⟨0x2008, 3, [16]⟩]

/-- A CAN route setting, and a now part that disables the mailbox. -/
def canRate : List EntryVal := [⟨0x2021, 2, [0x88, 0x13]⟩]
def noMailbox : List EntryVal := [⟨0x2022, 2, [0]⟩]

/-- A card in READY of step 1 with a step part that awaits. -/
def readyCard : State :=
  { job with led := { job.led with st := .ready }, dict := { job.dict with awaiting := [⟨1, .step, none, retries⟩] } }

/-- A plan-loaded card with the plan of area 1 active. -/
def planned : State :=
  { card with keep := { card.keep with dev := .planLoaded }, plan := { card.plan with active := some 1, area1 := 3 } }

theorem witness_CommitTakesPendingSet :
    (Takes (staged retries card) acc 0x2010 1 ∧ commitError acc 1 none (staged retries card) = none ∧ (staged retries card).keep.dev = .idle ∧
      NoCan (staged retries card).dict.pset ∧ NoCan (atPoint .idle retries)) ∧
    (Takes (staged retries job) acc 0x2010 2 ∧ commitError acc 1 (some 2) (staged retries job) = none ∧
      (staged retries job).dict.pset ≠ [] ∧ (∀ e ∈ (staged retries job).dict.pset, pointOf e = .step) ∧
      (∀ p ∈ (staged retries job).dict.awaiting, p.point ≠ .now) ∧ (staged retries job).keep.dev ≠ .idle ∧
      (staged retries job).twin.pair ≠ .inStep ∧ spareNamed (staged retries job) = none ∧ (staged retries job).dict.gen = 1 ∧
      (staged retries job).led.running ≠ 2 ∧ NoCan (staged retries job).dict.pset) ∧
    (Takes (staged canRate job) acc 0x2010 1 ∧ commitError acc 1 none (staged canRate job) = none ∧
      (∀ e ∈ canRate, pointOf e = .now ∧ e.idx = 0x2021#16)) ∧
    (Takes (staged noMailbox job) acc 0x2010 1 ∧ commitError acc 1 none (staged noMailbox job) = none ∧
      noMailbox = [⟨0x2022, BitVec.ofNat 8 (1 + pathNum acc.path), [0]⟩]) ∧
    (Fresh readyCard (hdr 4) 4 ∧ readyCard.led.st = .ready ∧ readyCard.led.running < 2 ^ 64 ∧
      NoCan ((readyCard.dict.awaiting.filter (dueAt 2)).flatMap (·.entries))) ∧
    (Takes planned acc 0x2001 1 ∧ mayStart planned = true) := by
  refine ⟨⟨?_, none_of ?_, ?_, ?_, ?_⟩, ⟨?_, none_of ?_, ?_, ?_, ?_, ?_, ?_, ?_, ?_, ?_, ?_⟩, ⟨?_, none_of ?_, ?_⟩,
    ⟨?_, none_of ?_, ?_⟩, ⟨?_, ?_, ?_, ?_⟩, ⟨?_, ?_⟩⟩ <;>
    first | decide +kernel | (unfold Takes; decide +kernel) | (unfold NoCan; decide +kernel) | (unfold Fresh; decide +kernel)

/-- A pending set that fails the cross-check of R46: the up threshold below the down threshold. -/
def crossed : List EntryVal := [⟨0x3024, 1, [70]⟩]

/-- A card of which 4 generations have awaiting parts. -/
def manyAwait : State :=
  let s := staged retries job
  { s with dict := { s.dict with gen := 5, awaiting := [⟨1, .step, none, retries⟩, ⟨2, .step, none, retries⟩, ⟨3, .step, none, retries⟩, ⟨4, .step, none, retries⟩] } }

theorem witness_CommitRefusals :
    (Takes card acc 0x2010 1 ∧
      ¬ Owns { card with dict := { card.dict with owner := some ⟨.can, 0, 5⟩ } } acc) ∧
    (Owns card acc ∧ (2 : BitVec 32) ≠ card.dict.gen) ∧
    (Owns card acc ∧ (1 : BitVec 32) = card.dict.gen ∧ card.dict.pset = []) ∧
    (Takes (staged crossed card) acc 0x2010 1 ∧ ∃ es, commitError acc 1 none (staged crossed card) = some (0x06040043, es)) ∧
    (Takes (staged retries job) acc 0x2010 2 ∧ Owns (staged retries job) acc ∧ (∃ e ∈ retries, pointOf e = .step ∧ e.idx ≠ 0x2810#16 ∧ e.idx ≠ 0x2811#16) ∧
      (0 : BitVec 64).toNat ≤ job.led.committed ∧ job.led.committed < job.led.running ∧ job.led.st ≠ .nojob ∧ job.led.st ≠ .lost ∧
      (1 : BitVec 64).toNat = job.led.running) ∧
    (Owns manyAwait acc ∧ Takes manyAwait acc 0x2010 1 ∧ 4 ≤ (gensAwaiting manyAwait).length ∧ ∃ e ∈ manyAwait.dict.pset, pointOf e ≠ .now) := by
  refine ⟨⟨takes_card _ _, ?_⟩, ⟨owns_card, ?_⟩, ⟨owns_card, ?_, ?_⟩, ⟨?_, first_of ?_⟩, ⟨?_, ?_, ?_, ?_, ?_, ?_, ?_, ?_⟩, ⟨?_, ?_, ?_, ?_⟩⟩ <;>
    first | decide +kernel | (unfold Owns; decide +kernel) | (unfold Takes; decide +kernel)

theorem witness_StoresAndErrorField :
    Takes card acc 0x1003 0 ∧ (Takes card acc 0x1010 1 ∧ card.dict.storing = []) ∧ Takes card acc 0x1011 3 ∧
    (0 : BitVec 32) ≠ 0x65766173#32 ∧
    (({ (withVal 0x2022 2 [0] card) with dict := { (withVal 0x2022 2 [0] card).dict with storing := [(acc, [])] } } : State).dict.storing = [(acc, [])] ∧
      ¬ RouteAnswers (withVal 0x2022 2 [0] card) acc.path) :=
  ⟨takes_card _ _, ⟨takes_card _ _, rfl⟩, takes_card _ _, by decide, rfl, by unfold RouteAnswers; decide +kernel⟩

/-- A card with `n` open sessions of the mailbox. -/
def talking (n : Nat) : State :=
  { card with dict := { card.dict with sessions := (List.range n).map fun k => ⟨.mailbox, k, acc, 0x1017, some 0, [0xE8], false⟩ } }

/-- A card with one open session that reads. -/
def talkingRead : State :=
  { card with dict := { card.dict with sessions := [⟨.mailbox, 0, acc, 0x1017, some 0, [0xE8], true⟩] } }

theorem witness_UsdoSessions :
    (pathServes (talking 7) acc.path = true ∧ findSession (talking 7) acc.path 8 = none ∧ (sessionsOf (talking 7) acc.path).length < 8) ∧
    (pathServes (talking 8) acc.path = true ∧ findSession (talking 8) acc.path 8 = none ∧ 8 ≤ (sessionsOf (talking 8) acc.path).length) ∧
    (∃ x, findSession (talking 1) .mailbox 0 = some x ∧ x.read = false ∧ x.sub = some 0) ∧
    (idxServed (talking 7) acc.path 0x1017 = true ∧ ∃ bs, readValue (talking 7) 0x1017 none = .ok bs) ∧
    (∃ x, findSession talkingRead .mailbox 0 = some x ∧ x.read = true ∧ RouteAnswers talkingRead x.acc.path) ∧
    (indexDefined 0x2008 = true ∧ Owns card acc ∧ ([[3], [0], [1], [3]] : List Bytes).map List.length = (objectParts card 0x2008).map (fun x => x.2.2) ∧
      let ws := ((objectParts card 0x2008).zip [[3], [0], [1], [3]]).filter fun x => partakes acc x.1.2.1 x.1.1 card
      ws ≠ [] ∧ (∀ x ∈ ws, x.1.2.1.acc = .rwst ∧ valueOk card x.1.2.1 x.1.1 x.2 = true) ∧ ws.length ≤ 256) := by
  refine ⟨⟨?_, ?_, ?_⟩, ⟨?_, ?_, ?_⟩, has ?_, ⟨?_, ok_of ?_⟩, ?_, ?_, owns_card, ?_, ?_⟩ <;>
    first | decide +kernel | exact ⟨_, rfl, rfl, by unfold RouteAnswers; decide +kernel⟩

/-! ### Hypotheses that can be met: the control slot, gates and unit faults -/

theorem witness_ControlOperations :
    (∃ f, controlEffect (.bcnz iss 15 4095) = some (iss, f)) ∧ (∃ f, controlEffect (.iset iss 0 7) = some (iss, f)) ∧
    Issues (withUnit { bundle := 4095 } job) iss 0 :=
  ⟨⟨_, rfl⟩, ⟨_, rfl⟩, issues_job _ rfl rfl rfl⟩

/-- The array, vector and stream operations of a bundle and its last, a control operation. -/
def slotsOf : List Instr := [.kset ⟨0, false⟩ 0 0, .sstop ⟨0, false⟩ 511]

/-- Unit 0 has begun a bundle. -/
def begun : UnitSt :=
  { recs := [(0, BitVec.ofNat 512 (0x7C + 3 * 2 ^ 128))], slots := slotsOf, ctxs := [(511, { st := .idle })] }

def ranSlots (r : OpRes) : Bool := match r with | .ok _ => true | _ => false

theorem ran {r : OpRes} (h : ranSlots r = true) : ∃ v, r = .ok v := by
  cases r <;> simp_all [ranSlots]

def heldSlots (r : OpRes) : Bool := match r with | .wait _ => true | _ => false

theorem held {r : OpRes} (h : heldSlots r = true) : ∃ k, r = .wait k := by
  cases r <;> simp_all [heldSlots]

def badSlots (r : OpRes) : Bool := match r with | .fault _ => true | _ => false

theorem bad_slots {r : OpRes} (h : badSlots r = true) : ∃ k, r = .fault k := by
  cases r <;> simp_all [badSlots]

/-- A unit with an operation record that is none. -/
def noRecs : UnitSt := { recs := [(9, BitVec.ofNat 512 (15 * 2 ^ 480))] }

theorem witness_BundlesIssueWhole :
    (∃ o, bundleOp (.kset ⟨0, false⟩ 0 0) = some ⟨0, false⟩ ∧ slotOp {} (.kset ⟨0, false⟩ 0 0) = some o ∧
      MayIssue (withUnit {} job) ⟨0, false⟩ 0) ∧
    (∃ o v, bundleOp (.br iss 7) = some iss ∧ slotOp begun (.br iss 7) = some o ∧ MayIssue (withUnit begun job) iss 0 ∧
      runSlots begun 0 (placeOp (.br iss 7) begun.slots) (withUnit begun job) = .ok v) ∧
    (∃ o h, slotOp begun (.bwait iss) = some o ∧ runSlots begun 0 (placeOp (.bwait iss) begun.slots) (withUnit begun job) = .wait h) ∧
    (∃ o k, slotOp noRecs (.fadd iss 9 0) = some o ∧ runSlots noRecs 0 (placeOp (.fadd iss 9 0) []) (withUnit noRecs job) = .fault k) ∧
    (∃ f, controlEffect (.br iss 7) = some (iss, f)) ∧ (∃ o, slotOp begun (.br iss 7) = some o ∧ o.slot = 4) ∧
    (∀ d ∈ begun.slots, ∃ o, slotOp begun d = some o ∧ o.slot < 4) ∧ (∃ v, runSlots begun 0 begun.slots (withUnit begun job) = .ok v) ∧
    (bundleOp (.anop iss) = some iss ∧ ∀ p, ¬ MayIssue card iss p) := by
  refine ⟨⟨_, rfl, rfl, may_issue _ _ rfl rfl rfl⟩, ?_, ?_, ?_, ⟨_, rfl⟩, ⟨_, rfl, rfl⟩, ?_, ran ?_, rfl, ?_⟩
  · obtain ⟨v, hv⟩ := ran (r := runSlots begun 0 (placeOp (.br iss 7) begun.slots) (withUnit begun job)) (by decide +kernel)
    exact ⟨_, v, rfl, rfl, may_issue _ _ rfl rfl rfl, hv⟩
  · obtain ⟨v, hv⟩ := held (r := runSlots begun 0 (placeOp (.bwait iss) begun.slots) (withUnit begun job)) (by decide +kernel)
    exact ⟨_, v, rfl, hv⟩
  · obtain ⟨v, hv⟩ := bad_slots (r := runSlots noRecs 0 (placeOp (.fadd iss 9 0) []) (withUnit noRecs job)) (by decide +kernel)
    exact ⟨_, v, rfl, hv⟩
  · intro d hd
    simp only [begun, slotsOf, List.mem_cons, List.not_mem_nil, or_false] at hd
    rcases hd with rfl | rfl <;> exact ⟨_, rfl, by decide⟩
  · decide +kernel
  · rintro p ⟨_, h | h, _⟩ <;> exact absurd h (by decide)

/-- A unit with one full chamber, a message in core 0's outbox, a full inbox of core 1, a closed batch and a running stream. -/
def busy : UnitSt :=
  { chs := [(5, { full := true, len := 64 })], batch := [(0, { rows := [([1], 0)], closed := true })],
    cores := [(0, { outbox := [7] }), (1, { inbox := List.replicate 16 0 }), (2, { outbox := [0x8000000000000000] })], ctxs := [(511, { st := .run })] }

theorem witness_ControlWaits :
    Issues (withUnit busy job) iss 0 ∧ Issues (withUnit {} job) iss 0 ∧
    (getCh busy 5).full = true ∧ (getCh busy 4).full = false ∧
    branchOn busy .always = some true ∧ branchOn busy (.chEnd 4) = none ∧ branchOn busy (.iZero 0) = some true ∧
    (getCore (getUnit (drainOut 0 0 16 (withUnit busy job)) 0) 0).outbox = 7 :: [] ∧ (7 : W64).msb = false ∧
    (getCore busy 1).outbox = [] ∧ drainOut 0 2 16 (withUnit busy job) = withUnit busy job ∧
    (getCore busy 2).outbox = 0x8000000000000000 :: [] ∧ (0x8000000000000000 : W64).msb = true ∧ (Sparse.get {} busy.batch busy.bopen).closed = true ∧
    (getCore busy 0).inbox.length < 16 ∧ 16 ≤ (getCore busy 1).inbox.length ∧
    (closedBuf busy).isSome = true ∧ closedBuf {} = none ∧
    (∀ kc ∈ ({} : UnitSt).ctxs, kc.2.st = .idle ∨ kc.2.st = .parked) ∧
    (∃ kc ∈ busy.ctxs, kc.2.st ≠ .idle ∧ kc.2.st ≠ .parked) := by
  refine ⟨issues_job _ rfl rfl rfl, issues_job _ rfl rfl rfl, ?_⟩
  decide +kernel

/-- A gate of scope 3 with units 0 and 1 as members (R205). -/
def pairGate : BitVec 128 := BitVec.ofNat 128 (3 + 3 * 2 ^ 64)

/-- Unit 0 with that gate as its entry 1023. -/
def gated : UnitSt := { gateTab := [(1023, pairGate)] }

/-- Unit 1 waits there already. -/
def oneThere : State := { withUnit gated job with gates := [(gateKey 0 (gateDef gated 1023), { arrived := 2, counts := [(1, 1)] })] }

/-- Unit 0 has arrived there and holds on a GSYNC. -/
def selfThere : State :=
  { withUnit { gated with hold := some (.sync 1023) } job with
    gates := [(gateKey 0 (gateDef gated 1023), { arrived := 1, counts := [(0, 1)] })] }

theorem oneThere_issues : Issues oneThere iss 0 := by unfold Issues MayIssue; decide +kernel

theorem selfThere_issues : Issues selfThere iss 0 := by unfold Issues MayIssue; decide +kernel

theorem witness_GateArrivalsOfUnits :
    (Issues oneThere iss 0 ∧ (gateDef gated 1023).scope ≤ 3 ∧
      (getGate oneThere (gateKey 0 (gateDef gated 1023))).has 0 = false ∧
      (getGate oneThere (gateKey 0 (gateDef gated 1023))).phase = (getGate oneThere (gateKey 0 (gateDef gated 1023))).count 0 ∧
      (gateDef gated 1023).members &&& ((getGate oneThere (gateKey 0 (gateDef gated 1023))).arrived ||| 1) = (gateDef gated 1023).members ∧
      (getUnit oneThere 0).hold ≠ some (.sync 1023)) ∧
    (Issues selfThere iss 0 ∧ (getGate selfThere (gateKey 0 (gateDef gated 1023))).has 0 = true ∧
      (getGate selfThere (gateKey 0 (gateDef gated 1023))).phase ≠ (getGate selfThere (gateKey 0 (gateDef gated 1023))).count 0) ∧
    (Issues (withUnit { gated with hold := some (.sync 1023) } job) iss 0 ∧
      (getGate (withUnit gated job) (gateKey 0 (gateDef gated 1023))).phase =
        (getGate (withUnit gated job) (gateKey 0 (gateDef gated 1023))).count 0) := by
  refine ⟨⟨oneThere_issues, ?_⟩, ⟨selfThere_issues, ?_⟩, issues_job _ rfl rfl rfl, ?_⟩ <;> decide +kernel

/-- A unit that waits at gate entry 3, with a gate limit in force. -/
def limited : State := withUnit { hold := some (.gate 3) } (withVal 0x3888 2 [1, 0, 0, 0] job)

theorem witness_UnitFaults :
    (physUnit job (0 : Fin 64).val = some 0 ∧ job.keep.dev ≠ .halted ∧
      (getUnit (withUnit { hold := some .notReady } job) 0).hold = some .notReady ∧
      (getUnit (withUnit { hold := some (.port 3) } job) 0).hold = some (.port 3) ∧ (getUnit job 0).hold = none) ∧
    ((getUnit (withUnit { hold := some .batch, batch := [(0, { rows := [([1], 0)] })] } job) 0).hold = some .batch ∧
      (Sparse.get {} (getUnit (withUnit { hold := some .batch, batch := [(0, { rows := [([1], 0)] })] } job) 0).batch 0).rows ≠ [] ∧
      (Sparse.get {} (getUnit (withUnit { hold := some .batch } job) 0).batch 0).rows = []) ∧
    num job 0x3888 2 = 0 ∧
    (num limited 0x3888 2 ≠ 0 ∧ physUnit limited (0 : Fin 64).val = some 0 ∧ (getUnit limited 0).hold = some (.gate 3)) ∧
    (logicalUnit job (71 : Fin 72).val ≥ 64 ∧ logicalUnit job (70 : Fin 72).val < 64) := by
  decide +kernel

/-! ### Hypotheses that can be met: the vector engine, the reduction unit, the arrays, the batcher, the scalar cores -/

/-- Operation records: 0 registers v31 from v30 and v29, 4 lanes; 1 a compare into k7; 2 a mask operation on k1 and k2;
3 KIDX of width 16384; 4 a conversion into E4M3; 5 an invalid record; 6 a selection under k3; 7 the widest instruction. -/
def vecWords : List (List Nat) :=
  [[0x1F1, 0x1E1, 0x1D1, 0, 3], [0x7C, 0x1E1, 0x1D1, 0, 3 + 4 * 2 ^ 28], [0x7C, 0x1C, 0x2C, 0, 3],
   [0x7C, 0x1E1, 0, 0, 3, 16383], [0x1F1, 0x1E1, 0, 0, 3 + 3 * 2 ^ 22], [0, 0, 0, 0, 2 ^ 31],
   [0x1F1, 0x1E1, 0x1D1, 0x3C, 3], [0x001, 0x001, 0x001, 0, 16383]]

def words (l : List Nat) : List Nat := l ++ List.replicate (16 - l.length) 0

/-- A unit with those records. -/
def vecUnit : UnitSt := { recs := vecWords.zipIdx.map fun x => (x.2, recOf x.1) }

def vecJob : State := withUnit vecUnit job

def r0 : VRec := { n := 4, k := 0, zero := false, inF := 0, outF := 0, stoch := false, sat := false, cmp := 0, w5 := 0, base := 0,
                   st := 0, wr := 1 }

theorem vec_ready (k : BitVec 11) (w : List Nat) (r : VRec) (h : recWords vecUnit k.toNat 0 = some w) (hr : vrec w = some r) :
    VecReady vecJob iss k 0 0 w r :=
  ⟨issues_job _ rfl rfl rfl, h, hr, rfl⟩

theorem ready0 : VecReady vecJob iss 0 0 0 (words vecWords[0]) r0 := vec_ready _ _ _ (by decide +kernel) (by decide +kernel)

theorem witness_VectorElementwise :
    ∃ op u1 ess u2, elemOp (.iadd iss 0 0) = some (iss, 0, 0, op) ∧ VecReady vecJob iss 0 0 0 (words vecWords[0]) r0 ∧
      op.valid r0 = true ∧
      fetchAll (op.inF r0) r0.n r0.w5 ((List.range op.ar).map fun k => decodeOw (wd (words vecWords[0]) (k + 1))) (getUnit vecJob 0) =
        .ok u1 ess ∧
      decodeOw (wd (words vecWords[0]) 0) = some (.reg 31) ∧
      storeElems u1 .vector (.reg 31) r0.zero ⟨op.outF r0, (results op r0 vecJob u1 ess).map fun x => (x.1.1, x.2), []⟩ = .ok u2 () := by
  refine ⟨_, _, _, _, rfl, ready0, rfl, got_ok [] ?_, ?_, got_unit ?_⟩ <;> decide +kernel

/-- The widest integer instruction, on all of the registers. -/
theorem witness_VectorIntegerRegisters :
    (∃ op, elemOp (.iadd iss 7 0) = some (iss, 7, 0, op) ∧ op.ar = 2 ∧ (∀ r, op.inF r = 12)) ∧
    VecReady vecJob iss 7 0 0 (words vecWords[7]) { r0 with n := 16384 } ∧
    decodeOw (wd (words vecWords[7]) 0) = some (.reg 0) ∧ decodeOw (wd (words vecWords[7]) 1) = some (.reg 0) ∧
    decodeOw (wd (words vecWords[7]) 2) = some (.reg 0) ∧ 0 * 512 + 16384 ≤ 32 * 512 :=
  ⟨⟨_, rfl, rfl, fun _ => rfl⟩, vec_ready _ _ _ (by decide +kernel) (by decide +kernel), by decide +kernel, by decide +kernel,
   by decide +kernel, by decide⟩

theorem witness_VectorMaskWriters :
    (∃ u1 ess, VecReady vecJob iss 1 0 0 (words vecWords[1]) { r0 with cmp := 4 } ∧ ({ r0 with cmp := 4 } : VRec).cmp ≤ 4 ∧
      decodeOw (wd (words vecWords[1]) 0) = some (.mask 7) ∧ vecFmt r0.inF = true ∧
      fetchAll 0 4 0 [decodeOw (wd (words vecWords[1]) 1), decodeOw (wd (words vecWords[1]) 2)] (getUnit vecJob 0) = .ok u1 ess) ∧
    (VecReady vecJob iss 2 0 0 (words vecWords[2]) r0 ∧ decodeOw (wd (words vecWords[2]) 0) = some (.mask 7) ∧
      decodeOw (wd (words vecWords[2]) 1) = some (.mask 1) ∧ decodeOw (wd (words vecWords[2]) 2) = some (.mask 2)) ∧
    (VecReady vecJob iss 3 0 0 (words vecWords[3]) { r0 with w5 := 16383 } ∧
      decodeOw (wd (words vecWords[3]) 0) = some (.mask 7) ∧
      ∃ u1 es, fetchAll 12 4 16383 [decodeOw (wd (words vecWords[3]) 1)] (getUnit vecJob 0) = .ok u1 [es]) := by
  refine ⟨⟨_, _, vec_ready _ _ _ ?_ ?_, ?_, ?_, ?_, got_ok [] ?_⟩, ⟨vec_ready _ _ _ ?_ ?_, ?_, ?_, ?_⟩,
    ⟨vec_ready _ _ _ ?_ ?_, ?_, got_one ?_⟩⟩ <;> decide +kernel

theorem witness_VectorMoves :
    (∃ u1 es u2, VecReady vecJob iss 0 0 0 (words vecWords[0]) r0 ∧ fmtWidth r0.inF ≠ 0 ∧ r0.inF ≠ 13 ∧
      fetchAll 0 4 0 [decodeOw (wd (words vecWords[0]) 1)] (getUnit vecJob 0) = .ok u1 [es] ∧
      decodeOw (wd (words vecWords[0]) 0) = some (.reg 31) ∧
      storeElems u1 .vector (.reg 31) false ⟨0, es.zipIdx.map fun x => (x.1.1, maskBit u1.old 0 x.2), []⟩ = .ok u2 ()) ∧
    (∃ u1 ea eb u2, VecReady vecJob iss 6 0 0 (words vecWords[6]) r0 ∧ r0.inF < 13 ∧ isMx r0.inF = false ∧
      fetchAll 0 4 0 [decodeOw (wd (words vecWords[6]) 1), decodeOw (wd (words vecWords[6]) 2)] (getUnit vecJob 0) = .ok u1 [ea, eb] ∧
      decodeOw (wd (words vecWords[6]) 3) = some (.mask 3) ∧ decodeOw (wd (words vecWords[6]) 0) = some (.reg 31) ∧
      storeElems u1 .vector (.reg 31) false ⟨0, (List.range 4).map fun e =>
        ((if maskBit u1.old 3 e then (ea.getD e (0, 127)).1 else (eb.getD e (0, 127)).1), maskBit u1.old 0 e), []⟩ = .ok u2 ()) ∧
    (∃ u1 es u2, VecReady vecJob iss 4 0 0 (words vecWords[4]) { r0 with outF := 3 } ∧
      fetchAll 0 4 0 [decodeOw (wd (words vecWords[4]) 1)] (getUnit vecJob 0) = .ok u1 [es] ∧
      decodeOw (wd (words vecWords[4]) 0) = some (.reg 31) ∧
      let cv := (convElems 3 u1.vtag.toNat false false (es.zipIdx.map fun x =>
        ({ val := if maskBit u1.old 0 x.2 then elemVal 0 x.1.1 x.1.2 else Machine.Num.fin false 0 0,
           rnd := rndOf vecJob false u1.vtag.toNat (r0.idx x.2), idx := r0.idx x.2, on := maskBit u1.old 0 x.2 } : ConvIn)) vecJob).2
      storeElems u1 .vector (.reg 31) false ⟨3, cv.codes.zipIdx.map fun x => (x.1, maskBit u1.old 0 x.2), cv.scales⟩ = .ok u2 ()) := by
  have h1 : VecReady vecJob iss 6 0 0 (words vecWords[6]) r0 := vec_ready _ _ _ (by decide +kernel) (by decide +kernel)
  have h2 : VecReady vecJob iss 4 0 0 (words vecWords[4]) { r0 with outF := 3 } :=
    vec_ready _ _ _ (by decide +kernel) (by decide +kernel)
  have f1 : fetchAll 0 4 0 [decodeOw (wd (words vecWords[0]) 1)] (getUnit vecJob 0) = .ok vecUnit [List.replicate 4 (0, 127)] := by
    rfl
  have f2 : fetchAll 0 4 0 [decodeOw (wd (words vecWords[6]) 1), decodeOw (wd (words vecWords[6]) 2)] (getUnit vecJob 0) =
      .ok vecUnit [List.replicate 4 (0, 127), List.replicate 4 (0, 127)] := by
    rfl
  have f3 : fetchAll 0 4 0 [decodeOw (wd (words vecWords[4]) 1)] (getUnit vecJob 0) = .ok vecUnit [List.replicate 4 (0, 127)] := by
    rfl
  refine ⟨⟨_, _, _, ready0, ?_, ?_, f1, ?_, got_unit ?_⟩, ⟨_, _, _, _, h1, ?_, ?_, f2, ?_, ?_, got_unit ?_⟩,
    ⟨_, _, _, h2, f3, ?_, got_unit ?_⟩⟩ <;> decide +kernel

/-- Three units whose record 0 is not valid: for the vector engine, for the reduction unit, for the arrays. -/
def badRec (w : List Nat) : UnitSt := { recs := [(0, recOf w)] }

/-- A unit of which both groups nap, with the valid record 0 of the vector engine and 1 of the arrays. -/
def napping : UnitSt := { recs := [(0, recOf vecWords[0]), (1, recOf [10, 15])], napVec := true, napArr := true }

theorem witness_EngineHoldsAndFaults :
    ((∃ ok, recorded (.fadd iss 0 0) = some (iss, 0, 0, 1, ok)) ∧ (∃ ok, recorded (.rsum iss 0 0) = some (iss, 0, 0, 2, ok)) ∧
      ∃ ok, recorded (.ald iss 0 0) = some (iss, 0, 0, 0, ok)) ∧
    (Issues (withUnit noRecs job) iss 0 ∧ recWords noRecs 9 0 = none) ∧
    (Issues (withUnit (badRec [0, 0, 0, 0, 2 ^ 31]) job) iss 0 ∧ ∃ w, recWords (badRec [0, 0, 0, 0, 2 ^ 31]) 0 0 = some w ∧ vrec w = none) ∧
    (Issues (withUnit (badRec [0, 0, 2 ^ 31]) job) iss 0 ∧ ∃ w, recWords (badRec [0, 0, 2 ^ 31]) 0 0 = some w ∧ rrec w = none) ∧
    (Issues (withUnit (badRec [10, 2 ^ 8]) job) iss 0 ∧ ∃ w, recWords (badRec [10, 2 ^ 8]) 0 0 = some w ∧ ¬ wd w 1 < 2 ^ 8) ∧
    (Issues (withUnit napping job) iss 0 ∧ recWords napping 0 0 = some (words vecWords[0]) ∧ vrec (words vecWords[0]) = some r0 ∧
      vecFmt r0.inF = true ∧ vecFmt r0.outF = true) ∧
    (recWords napping 1 0 = some (words [10, 15]) ∧ pairClass (bits (wd (words [10, 15]) 1) 7 4) ≠ none ∧ wd (words [10, 15]) 1 < 2 ^ 8 ∧
      maskOk job (wd (words [10, 15]) 1 % 16) = true) := by
  refine ⟨⟨⟨_, rfl⟩, ⟨_, rfl⟩, ⟨_, rfl⟩⟩, ⟨issues_job _ rfl rfl rfl, ?_⟩, ⟨issues_job _ rfl rfl rfl, has ?_⟩, ⟨issues_job _ rfl rfl rfl, has ?_⟩,
    ⟨issues_job _ rfl rfl rfl, has ?_⟩, ⟨issues_job _ rfl rfl rfl, ?_⟩, ?_⟩ <;> decide +kernel

/-! Reduction records: 0 a source of four fp32 elements in segments of two, register 7; 1 a raw accumulator of chamber 5;
2 the same read raw into v31, 3 into VOUT, 4 into the mailbox of core 0, 5 into chamber 5. -/

/-- Chamber 5: 16 rows of all 32 banks; chamber 31: a broadcast slot. -/
def chambers : Sparse (BitVec 64) :=
  [(5, BitVec.ofNat 64 (15 * 2 ^ 8 + 5 * 2 ^ 21 + 2 ^ 24)),
   (31, BitVec.ofNat 64 (127 * 2 ^ 8 + 31 * 2 ^ 16 + 4 * 2 ^ 24))]

def redWords : List (List Nat) := [[0x1E1, 0x1F1, 7 + 3 * 16, 1], [4, 0, 7], [0, 0x1F1, 7 + 2 ^ 26], [0, 7, 7 + 2 ^ 26], [0, 8, 7 + 2 ^ 26],
  [0, 4, 7 + 2 ^ 26]]

def redUnit : UnitSt :=
  { recs := redWords.zipIdx.map fun x => (x.2, recOf x.1), chMap := chambers, chs := [(5, { full := true }), (31, { full := true })] }

def redJob : State := withUnit redUnit job

/-- The same unit with chamber 5 empty and written by the reduction unit. -/
def redTarget : UnitSt :=
  { redUnit with chMap := [(5, BitVec.ofNat 64 (15 * 2 ^ 8 + 5 * 2 ^ 21 + 2 ^ 24 + Writer.reduction.code * 2 ^ 32))], chs := [] }

def q0 : RRec := { reg := 7, ext := false, n := 4, k := 0, fmt := 0, raw := false, w := 2, base := 0, w5 := 0 }

theorem red_ready (k : BitVec 11) (w : List Nat) (r : RRec) (h : recWords redUnit k.toNat 0 = some w) (hr : rrec w = some r) :
    RedReady redJob iss k 0 0 w r :=
  ⟨issues_job _ rfl rfl rfl, h, hr, rfl⟩

theorem witness_ReductionRegisters :
    (RedReady redJob iss 0 0 0 (words redWords[0]) q0 ∧
      ∃ u1 es, redSource q0 (decodeOw (wd (words redWords[0]) 0)) (getUnit redJob 0) = .ok u1 es) ∧
    (RedReady redJob iss 1 0 0 (words redWords[1]) { q0 with n := 1, w := 1 } ∧
      decodeOw (wd (words redWords[1]) 0) = some (.lock false 0) ∧
      ∃ u1 bs, fetchLock (getUnit redJob 0) false 0 48 = .ok u1 bs) := by
  refine ⟨⟨red_ready _ _ _ ?_ ?_, got_any ?_⟩, red_ready _ _ _ ?_ ?_, ?_, got_any ?_⟩ <;> decide +kernel

theorem witness_ReductionStores :
    (∃ outF f, segOp (.rssum iss 0 0) = some (iss, 0, 0, outF, f) ∧ RedReady redJob iss 0 0 0 (words redWords[0]) q0 ∧
      ∃ u1 es u2, redSource q0 (decodeOw (wd (words redWords[0]) 0)) (getUnit redJob 0) = .ok u1 es ∧
        decodeOw (wd (words redWords[0]) 1) = some (.reg 31) ∧
        storeElems u1 .reduction (.reg 31) false ⟨outF q0,
          ((segments q0.w (cdiv es.1.length q0.w) es.1).map (f q0)).map fun x => (x.1, true), []⟩ = .ok u2 ()) ∧
    (RedReady redJob iss 2 0 0 (words redWords[2]) { q0 with n := 1, w := 1, raw := true } ∧
      decodeOw (wd (words redWords[2]) 1) = some (.reg 31) ∧
      31 * 2048 + (Claims.regRead { q0 with n := 1, w := 1, raw := true } redUnit.old).1.length ≤ 32 * 2048) ∧
    (RedReady redJob iss 3 0 0 (words redWords[3]) { q0 with n := 1, w := 1, raw := true } ∧ decodeOw (wd (words redWords[3]) 1) = some .vout) ∧
    (RedReady redJob iss 4 0 0 (words redWords[4]) { q0 with n := 1, w := 1, raw := true } ∧ decodeOw (wd (words redWords[4]) 1) = some (.mbx 0) ∧
      ∃ u2, postIn redUnit 0 ((chunks 8 6 (Claims.regRead { q0 with n := 1, w := 1, raw := true } redUnit.old).1).map fun x => BitVec.ofNat 64 (leNat x)) =
        some u2) ∧
    (RedReady (withUnit redTarget job) iss 5 0 0 (words redWords[5]) { q0 with n := 1, w := 1, raw := true } ∧
      decodeOw (wd (words redWords[5]) 1) = some (.lock false 0) ∧
      ∃ u2, storeLock redTarget .reduction false 0 48 (fun _ => (Claims.regRead { q0 with n := 1, w := 1, raw := true } redTarget.old).1) = .ok u2 ()) := by
  refine ⟨⟨_, _, rfl, red_ready _ _ _ ?_ ?_, _, _, _, got_ok ([], 0) ?_, ?_, got_unit ?_⟩, ⟨red_ready _ _ _ ?_ ?_, ?_, ?_⟩,
    ⟨red_ready _ _ _ ?_ ?_, ?_⟩, ⟨red_ready _ _ _ ?_ ?_, ?_, Option.isSome_iff_exists.1 ?_⟩,
    ⟨issues_job _ rfl rfl rfl, ?_, ?_, rfl⟩, ?_, ⟨_, got_unit ?_⟩⟩ <;> decide +kernel

theorem witness_AccumulatorExact :
    [Machine.Num.fin false 1 0, .nan].Perm [.nan, .fin false 1 0] ∧ ({ nan := true } : Acc).nan = true ∧
    (let x : Finite := (true, 1, -149)
     x.2.2 ≥ -149 ∧ x.2.1 * 2 ^ (x.2.2 + 149).toNat < 2 ^ 277 ∧ [x].length < 2 ^ 42) ∧
    (let a : Acc := { count := BitVec.ofNat 42 (2 ^ 42 - 1) }
     a.nan = false ∧ ¬ (a.pinf = true ∧ a.ninf = true) ∧ a.count.toNat = 2 ^ 42 - 1 ∧ a.pinf = false ∧ a.ninf = false) ∧
    (let a : Acc := { pinf := true }
     a.nan = false ∧ ¬ (a.pinf = true ∧ a.ninf = true) ∧ a.count.toNat ≠ 2 ^ 42 - 1) ∧
    (let a : Acc := { ninf := true }
     ¬ (a.pinf = true ∧ a.ninf = true)) ∧
    (({} : Acc).sum = 0 ∧ ({ sum := -1 } : Acc).sum ≠ 0) := by
  refine ⟨.swap _ _ _, rfl, ?_⟩
  decide +kernel

/-! Array records: 0 ALD from the row port into all four arrays; 1 ALD from chamber 5; 2 ABC of slot 31; 3 AFL of one row
of array 3 from chamber 5; 4 ADR of that row, raw and cleared, into VOUT; 5 APS of one row of zeros on array 0, in write mode;
6 and 7 the same ADR into VP1 and into chamber 5. -/

def arrWords : List (List Nat) :=
  [[10, 15], [4, 1], [0, 1 + 3 * 16], [4, 3 + 255 * 4], [7, 3 + 255 * 4 + 13 * 2 ^ 18 + 2 ^ 24], [0, 0, 0, 0, 1 + 255 * 2 ^ 12 + 2 ^ 20],
   [6, 3 + 255 * 4 + 13 * 2 ^ 18 + 2 ^ 24], [4, 3 + 255 * 4 + 13 * 2 ^ 18 + 2 ^ 24]]

def arrUnit : UnitSt := { redUnit with recs := arrWords.zipIdx.map fun x => (x.2, recOf x.1) }

def arrJob : State := withUnit arrUnit job

/-- The same unit with the broadcast slot empty, and with chamber 5 empty and written by drains. -/
def emptySlot : UnitSt := { arrUnit with chs := [] }
def arrTarget : UnitSt :=
  { emptySlot with chMap := [(5, BitVec.ofNat 64 (15 * 2 ^ 8 + 5 * 2 ^ 21 + 2 ^ 24 + Writer.drain.code * 2 ^ 32))] }

theorem arr_ready (k : BitVec 11) (w : List Nat) (h : recWords arrUnit k.toNat 0 = some w) : ArrReady arrJob iss k 0 0 w :=
  ⟨issues_job _ rfl rfl rfl, h, rfl⟩

theorem witness_ArrayOperations :
    (ArrReady arrJob iss 0 0 0 (words arrWords[0]) ∧ pairClass 0 ≠ none ∧ wd (words arrWords[0]) 1 < 2 ^ 8 ∧ maskOk arrJob 15 = true ∧
      (∀ a ∈ maskArrays 15, (getArr arrUnit a).fresh = false) ∧ decodeOw (wd (words arrWords[0]) 0) = some .arrPort) ∧
    (ArrReady arrJob iss 1 0 0 (words arrWords[1]) ∧ maskOk arrJob 1 = true ∧
      (∀ a ∈ maskArrays 1, (getArr arrUnit a).fresh = false) ∧ decodeOw (wd (words arrWords[1]) 0) = some (.lock false 0) ∧
      chamberAt arrUnit 0 = some 5 ∧
      ∃ u1 bs, fetchLock arrUnit false 0 (min (tileBytes 0 (ktOf 0 0)) ((chDef arrUnit 5).size - (chDef arrUnit 5).byteOf 0)) = .ok u1 bs) ∧
    (ArrReady arrJob iss 2 0 0 (words arrWords[2]) ∧ pairClass 3 ≠ none ∧ fmtWidth 3 ≠ 32 ∧ fmtWidth 3 ≠ 6 ∧
      wd (words arrWords[2]) 1 < 2 ^ 8 ∧ bits (wd (words arrWords[2]) 1) 3 1 = 0 ∧ (chDef arrUnit 31).kind = 4 ∧
      (getCh arrUnit 31).full = true ∧ (getCh arrUnit 31).fault = false ∧ (getArr arrUnit 0).fresh = false) ∧
    (ArrReady arrJob iss 3 0 0 (words arrWords[3]) ∧ wd (words arrWords[3]) 1 < 2 ^ 18 ∧ wd (words arrWords[3]) 1 % 4 < arrJob.strap.variant.arrays ∧
      decodeOw (wd (words arrWords[3]) 0) = some (.lock false 0) ∧ ∃ u1 bs, fetchLock arrUnit false 0 (1 * 384) = .ok u1 bs) ∧
    (ArrReady arrJob iss 4 0 0 (words arrWords[4]) ∧ decodeOw (wd (words arrWords[4]) 0) = some .vout ∧
      wd (words arrWords[4]) 1 < 2 ^ 26 ∧ wd (words arrWords[4]) 2 < 2 ^ 24 ∧ wd (words arrWords[4]) 4 < 2 ^ 16 ∧
      wd (words arrWords[4]) 1 % 4 < arrJob.strap.variant.arrays ∧ drainFmt 13 = true) ∧
    (ArrReady (withUnit emptySlot job) iss 2 0 0 (words arrWords[2]) ∧ (getCh emptySlot 31).fault = false ∧ (getCh emptySlot 31).full = false ∧
      (getCh emptySlot 31).filled < tileBytes 3 (tileKt emptySlot emptySlot.bundle 0 3)) ∧
    (ArrReady arrJob iss 6 0 0 (words arrWords[6]) ∧ decodeOw (wd (words arrWords[6]) 0) = some .vp1 ∧ drainWaits arrUnit.vp1 3 = false) ∧
    (ArrReady (withUnit arrTarget job) iss 7 0 0 (words arrWords[7]) ∧ decodeOw (wd (words arrWords[7]) 0) = some (.lock false 0) ∧
      tagOf arrTarget 3 ((255 + 0) % 256) = 0 ∧ ∃ v, storeLock arrTarget .drain false 0 384 (fun _ => zeros 384) = .ok v ()) := by
  refine ⟨⟨arr_ready _ _ ?_, ?_⟩, ⟨arr_ready _ _ ?_, ?_, ?_, ?_, ?_, got_any ?_⟩, ⟨arr_ready _ _ ?_, ?_⟩,
    ⟨arr_ready _ _ ?_, ?_, ?_, ?_, got_any ?_⟩, ⟨arr_ready _ _ ?_, ?_⟩, ⟨⟨issues_job _ rfl rfl rfl, ?_, rfl⟩, ?_⟩, ⟨arr_ready _ _ ?_, ?_⟩,
    ⟨⟨issues_job _ rfl rfl rfl, ?_, rfl⟩, ?_, ?_, ⟨_, got_unit ?_⟩⟩⟩ <;> decide +kernel

theorem witness_ArrayPass :
    (ArrReady arrJob iss 5 0 0 (words arrWords[5]) ∧ wd (words arrWords[5]) 4 < 2 ^ 30 ∧ maskOk arrJob 1 = true ∧ pairOk 0 0 = true ∧
      (maskArrays 1).map (fun a => (a, decodeOw (wd (words arrWords[5]) a))) =
        [((0 : Nat), Operand.none)].map (fun ao => (ao.1, some ao.2)) ∧
      ∃ v k, passAll [(0, .none)] 1 255 true false 0 0 arrUnit 0 = .ok v k) ∧
    (∃ row u2, passRows arrUnit .none 0 1 (rowPitch 0 64) = .ok arrUnit [(row, 0)] ∧ takeTile 64 0 0 arrUnit = some u2) := by
  refine ⟨⟨arr_ready _ _ ?_, ?_, ?_, ?_, ?_, got_any ?_⟩, _, _, rfl, rfl⟩ <;> decide +kernel

/-- A unit whose open batch buffer holds 63 rows, and one whose open buffer is closed. -/
def filling : UnitSt := { batch := [(0, { rows := List.replicate 63 ([1], 0) })] }

theorem witness_Batcher :
    physUnit (withUnit filling job) (0 : Fin 64).val = some 0 ∧ filling.bopen ≤ 1 ∧
    (Sparse.get {} filling.batch filling.bopen).closed = false ∧ (Sparse.get {} filling.batch filling.bopen).rows ≠ [] ∧
    (Sparse.get {} busy.batch busy.bopen).closed = true ∧ (Sparse.get {} ({} : UnitSt).batch 0).rows = [] := by
  decide +kernel

/-- Core 3 at its last instruction word, `w`; a message waits in its inbox. -/
def coreAt (w : Nat) : UnitSt :=
  { cores := [(3, { pc := 0x7FFC, inbox := [9], imem := Sparse.setMany 0 [] 0x7FFC (leBytes 4 w) })],
    chMap := chambers, chs := [(5, { full := true })] }

/-- ADDI x31, x0, −1. -/
def lastWord : UnitSt := coreAt 0xFFF00F93

/-- Core 3 with a full outbound mailbox. -/
def fullBox : UnitSt := { cores := [(3, { outbox := List.replicate 16 0 })] }

theorem none_posted : ∀ y ∈ (getCore lastWord 3).outbox.head?, y.msb = false := by
  have h : (getCore lastWord 3).outbox = [] := by decide +kernel
  rw [h]
  nofun

theorem core_runs (u : UnitSt) (h : coreRuns (withUnit u job) 0 3 = some 0) : CoreRuns (withUnit u job) 0 3 0 := h

theorem witness_ScalarCores :
    (CoreRuns (withUnit lastWord job) 0 3 0 ∧ (getCore lastWord 3).pc.toNat % 4 = 0 ∧ (getCore lastWord 3).pc.toNat + 4 ≤ 0x8000 ∧
      Sparse.getMany 0 (getCore lastWord 3).imem (getCore lastWord 3).pc.toNat 4 =
        leBytes 4 ((0xFFF#12).toNat * 1048576 + (0 : Fin 32).val * 32768 + (31 : Fin 32).val * 128 + 0x13)) ∧
    (CoreRuns (withUnit (coreAt 0x01FF8F33) job) 0 3 0 ∧ Sparse.getMany 0 (getCore (coreAt 0x01FF8F33) 3).imem 0x7FFC 4 =
        leBytes 4 ((31 : Fin 32).val * 1048576 + (31 : Fin 32).val * 32768 + (30 : Fin 32).val * 128 + 0x33)) ∧
    (CoreRuns (withUnit (coreAt 0x401F8033) job) 0 3 0 ∧ Sparse.getMany 0 (getCore (coreAt 0x401F8033) 3).imem 0x7FFC 4 =
        leBytes 4 (0x40000000 + (1 : Fin 32).val * 1048576 + (31 : Fin 32).val * 32768 + (0 : Fin 32).val * 128 + 0x33)) ∧
    ((0 : W64).getLsbD 63 = false ∧ (getCore lastWord 3).outbox.length < 16 ∧ (∀ y ∈ (getCore lastWord 3).outbox.head?, y.msb = false) ∧
      (getCore lastWord 3).inbox = 9 :: []) ∧
    ((0x8000000000000000 : W64).getLsbD 63 = true ∧ (getCore lastWord 3).outbox = [] ∧
      (Sparse.get {} lastWord.batch lastWord.bopen).closed = false ∧ lastWord.bopen ≤ 1) ∧
    (CoreRuns (withUnit fullBox job) 0 3 0 ∧ (getCore fullBox 3).outbox.length = 16) ∧
    ((256 + 5 : W64).toNat = 256 + (5 : Fin 64).val ∧ (chDef lastWord 5).kind = 1 ∧ (getCh { lastWord with chs := [] } 5).full = false ∧
      CoreRuns (withUnit { lastWord with chs := [] } job) 0 3 0) ∧
    ((5 : W64).toNat = (5 : Fin 64).val ∧ (chDef lastWord 5).pair = false ∧ (getCh lastWord 5).full = true) := by
  refine ⟨⟨core_runs _ ?_, ?_⟩, ⟨core_runs _ ?_, ?_⟩, ⟨core_runs _ ?_, ?_⟩, ⟨?_, ?_, none_posted, ?_⟩, ?_, ⟨core_runs _ ?_, ?_⟩, ⟨?_, ?_, ?_, core_runs _ ?_⟩, ?_⟩ <;>
    decide +kernel

/-! ### Hypotheses that can be met: streams -/

/-- Descriptor 0: 128 bytes of barge 0 into chamber 5; 1: into the vector port; 2: from chamber 5 to barge 0. -/
def desc0 : Nat := 5 * 2 ^ 16 + 128 * 2 ^ 192
def desc1 : Nat := 3 * 2 ^ 10 + 128 * 2 ^ 192
def desc2 : Nat := 2 * 2 ^ 6 + 4 * 2 ^ 10 + 1 * 2 ^ 4 + 5 * 2 ^ 22 + 128 * 2 ^ 192

/-- A burst of 64 bytes in flight. -/
def burst : Flight := { pos := 0, len := 64, index := 0, hole := false, credits := 1, data := zeros 64, txns := [], retries := 2 }

/-- Chambers 6 and 7 a pair, chamber 63 a pool; chamber 5 as before. -/
def pairs : Sparse (BitVec 64) :=
  chambers.take 1 ++ [(6, BitVec.ofNat 64 (2 ^ 24 + 2 ^ 27)), (7, BitVec.ofNat 64 (2 ^ 24 + 2 ^ 27)),
    (63, BitVec.ofNat 64 (3 * 2 ^ 24))]

def streaming (k : Nat) (c : Ctx) (f : UnitSt → UnitSt) : UnitSt :=
  f { chMap := pairs, descs := [(4095, BitVec.ofNat 512 desc0)], ctxs := [(k, c)] }

def reading (d : Nat) : Ctx := { st := .run, desc := BitVec.ofNat 512 d }

theorem witness_StreamControls :
    (Issues (withUnit (streaming 511 {} id) job) iss 0 ∧ (getCtx (streaming 511 {} id) 511).st = .idle) ∧
    (Issues (withUnit (streaming 511 (reading desc0) id) job) iss 0 ∧ (getCtx (streaming 511 (reading desc0) id) 511).st ≠ .idle ∧
      (getCtx (streaming 511 (reading desc0) id) 511).st ≠ .parked) ∧
    (Issues (withUnit (streaming 511 { st := .parked } id) job) iss 0 ∧ (getCtx (streaming 511 { st := .parked } id) 511).st = .parked) ∧
    desc2 < 2 ^ 512 ∧ (∀ r ∈ fieldBits .saddr, 63 < r.1 ∨ r.2 < 63) ∧
    (let u := streaming 0 {} id
     markTarget u 7 0 < 64 ∧ (chDef u 7).kind = 1 ∧ (chDef u 7).pair = true ∧ (chDef u 6).pair = true ∧ (getCh u 7).full = false) ∧
    (let u := streaming 0 {} fun u => { u with chs := [(5, { full := true })] }
     Issues (withUnit u job) iss 0 ∧ markTarget u 5 0 < 64 ∧ (chDef u 5).kind = 1 ∧ (chDef u 5).pair = false ∧
     (getCh u 5).full = true) := by
  refine ⟨⟨issues_job _ rfl rfl rfl, ?_⟩, ⟨issues_job _ rfl rfl rfl, ?_⟩, ⟨issues_job _ rfl rfl rfl, ?_⟩, ?_, ?_, ?_, issues_job _ rfl rfl rfl, ?_⟩ <;>
    decide +kernel

/-- Two contexts of the pool wait with part of their claims. -/
def stuckPool : UnitSt :=
  { chMap := pairs, ctxs := [(3, { st := .space }), (511, { st := .space })],
    chs := [(63, { bursts := [⟨3, 2, 0, 0, 1, false, []⟩, ⟨511, 2, 0, 0, 2, false, []⟩] })] }

theorem witness_StreamBursts :
    (let u := streaming 511 (reading desc0) id
     Bursts (withUnit u job) 0 0 511 ∧ Linear desc0 128 ∧ dSrc desc0 = 0 ∧ dDst desc0 = 0 ∧ (chDef u (dDch desc0)).kind = 1 ∧
     (chDef u (dstMember u (reading desc0) desc0)).kind = 1 ∧ (chDef u (dstMember u (reading desc0) desc0)).writer = 0 ∧
     (reading desc0).stop = false ∧ (reading desc0).pos < 128 ∧ (getCh u 5).full = false ∧
     (creditsOf u desc0).1 + cdiv 64 64 ≤ (creditsOf u desc0).2) ∧
    (let u := streaming 511 (reading desc0) fun u => { u with rdCred := 4096 }
     Bursts (withUnit u job) 0 0 511 ∧ (getCh u 5).full = false ∧ (creditsOf u desc0).2 < (creditsOf u desc0).1 + cdiv 64 64) ∧
    (let u := streaming 511 (reading desc0) fun u => { u with chs := [(5, { full := true })] }
     Bursts (withUnit u job) 0 0 511 ∧ (getCh u 5).full = true) ∧
    (let u := streaming 0 { reading desc1 with pos := 128 } id
     Bursts (withUnit u job) 0 0 0 ∧ Linear desc1 128 ∧ dDst desc1 = 3 ∧ 128 ≤ (getCtx u 0).pos) ∧
    (let u := streaming 0 (reading desc1) fun u => { u with hold := some (.port 4), vp0 := { u.vp0 with data := List.replicate 16324 0 } }
     Bursts (withUnit u job) 0 0 0 ∧ Linear desc1 128 ∧ dSrc desc1 = 0 ∧ dDst desc1 = 3 ∧ (reading desc1).stop = false ∧ (getCtx u 0).pos < 128 ∧
     u.vp0.data.length + comingTo u 3 + 64 ≤ 16384 + 4 ∧ min (64 * dBurst desc1) (128 - 0) = 64 ∧
     (creditsOf u desc1).1 + cdiv 64 64 ≤ (creditsOf u desc1).2) ∧
    (let u := streaming 0 (reading desc1) fun u => { u with vp0 := { u.vp0 with data := List.replicate 16384 0 } }
     Bursts (withUnit u job) 0 0 0 ∧ 16384 < u.vp0.data.length + comingTo u 3 + 64) ∧
    (getCtx (streaming 0 { reading desc1 with flight := some burst } id) 0).flight.isSome = true ∧
    ((chDef stuckPool 63).kind = 3 ∧ 2 ≤ (stuckSet stuckPool 63).length ∧ (∀ b ∈ (getCh stuckPool 63).bursts, b.done = false)) ∧
    (stuckSet {} 63).length < 2 := by
  unfold Bursts Linear
  refine ⟨?_, ?_, ?_, ?_, ?_, ?_, ?_, ?_, ?_⟩ <;> decide +kernel

/-- Context 0 with a burst in flight on a card whose barge 0 lies in the basin. -/
def landing (d : Nat) : State := withUnit (streaming 0 { reading d with flight := some burst } id) (basin job)

theorem readable_basin (s : State) (h1 : rangeBacked s 0 64 = true) (h2 : rangeGroupBad s 0 64 = none)
    (h3 : ∀ a ∈ blocksOf 0 64, blockBad s a = false) : Readable s 0 64 := ⟨h1, h2, h3⟩

theorem witness_StreamCompletion :
    (physUnit (landing desc1) (0 : Fin 64).val = some 0 ∧ (getCtx (getUnit (landing desc1) 0) 0).flight = some burst ∧
      burst.hole = false ∧ burst.txns = [] ∧ Linear desc1 128 ∧ dSrc desc1 = 0 ∧ dDst desc1 = 3 ∧ burst.len ≠ 0 ∧
      burst.pos + burst.len < 128 ∧ Readable (landing desc1) 0 64) ∧
    (physUnit (landing desc2) (0 : Fin 64).val = some 0 ∧ Linear desc2 128 ∧ dSrc desc2 = 2 ∧ dDst desc2 = 4 ∧
      burst.len = burst.data.length ∧ Readable (landing desc2) 0 64 ∧ Apart (landing desc2) 0 64 ∧
      (∀ x, 0 ≤ x → x < 0 + 64 → planArea (landing desc2).strap.variant x = none)) ∧
    rangeBacked (withUnit (streaming 0 { reading desc1 with flight := some burst } id) job) 0 64 = false ∧
    (getCtx (getUnit job 0) 511).flight = none := by
  refine ⟨⟨?_, ?_, ?_, ?_, ?_, ?_, ?_, ?_, ?_, readable_basin _ ?_ ?_ ?_⟩, ⟨?_, ?_, ?_, ?_, ?_, readable_basin _ ?_ ?_ ?_, ?_, ?_⟩, ?_, ?_⟩ <;>
    first
      | decide +kernel
      | (unfold Linear; decide +kernel)
      | exact apart_basin _ rfl rfl rfl 0 64 (by decide)

/-! ### Hypotheses that can be met: barges and the upkeep of memory -/

/-- A card whose barge 7 has this entry. -/
def owning (e : BargeEnt) (f : MemSt → MemSt) : State := { job with mem := f { job.mem with barges := [(7, e)] } }

def inResv : BargeEnt := { state := 2, tier := true, rfv := true }

theorem witness_BargeOwner :
    (let s := owning inResv fun m => { m with stackBad := [0] }
     OwnerFree s 7 ∧ (barge s 7).state = 2 ∧ freeBasin s (stackOf 7 (barge s 7)) false = none) ∧
    (let s := owning { inResv with zero := true } id
     OwnerFree s 7 ∧ (barge s 7).zero = true ∧ freeBasin s (stackOf 7 (barge s 7)) false = some 2) ∧
    (let s := owning inResv id
     OwnerFree s 7 ∧ freeBasin s (stackOf 7 (barge s 7)) false = some 2 ∧ (barge s 7).zero = false ∧
     copiesOf s (stackOf 7 (barge s 7)) < 4) ∧
    (let s := owning inResv fun m => { m with copies := (List.range 4).map fun n => ⟨8 + n, false, 0, 0⟩ }
     OwnerFree s 7 ∧ freeBasin s (stackOf 7 (barge s 7)) false = some 2 ∧ (barge s 7).zero = false ∧
     4 ≤ copiesOf s (stackOf 7 (barge s 7))) ∧
    (let s := owning { inResv with state := 3 } id
     OwnerFree s 7 ∧ (barge s 7).state = 3) ∧
    (let s := owning { inResv with state := 4 } id
     OwnerFree s 7 ∧ (barge s 7).state = 4) ∧
    (let s := owning { inBasin with users := 1 } id
     OwnerFree s 7 ∧ (barge s 7).state ≠ 2 ∧ (barge s 7).state ≠ 4 ∧ (barge s 7).state = 1 ∧ 0 < (barge s 7).users) ∧
    (let s := owning { inBasin with rfv := true } id
     OwnerFree s 7 ∧ (barge s 7).state = 1 ∧ (barge s 7).users = 0 ∧ inHorizon s 7 = false ∧ (barge s 7).rfv = true ∧
     (barge s 7).dirty = false) ∧
    (let s := owning { inBasin with zero := true } id
     OwnerFree s 7 ∧ (barge s 7).rfv = false ∧ freeResv s = some 0 ∧ (barge s 7).zero = true ∧ inHorizon s 7 = false) ∧
    (let s := owning inBasin fun m => { m with group := (List.range 8).map fun g => (g, 1) }
     OwnerFree s 7 ∧ (barge s 7).rfv = false ∧ freeResv s = none ∧ inHorizon s 7 = false) ∧
    (let s := owning { inBasin with rfv := true, dirty := true } id
     OwnerFree s 7 ∧ (barge s 7).rfv = true ∧ (barge s 7).dirty = true ∧ (barge s 7).zero = false ∧
     copiesOf s (stackOf 7 (barge s 7)) < 4 ∧ inHorizon s 7 = false) ∧
    (let s := owning inBasin id
     OwnerFree s 7 ∧ (barge s 7).rfv = false ∧ freeResv s = some 0 ∧ (barge s 7).zero = false ∧
     copiesOf s (stackOf 7 (barge s 7)) < 4 ∧ inHorizon s 7 = false) := by
  unfold OwnerFree
  refine ⟨?_, ?_, ?_, ?_, ?_, ?_, ?_, ?_, ?_, ?_, ?_, ?_⟩ <;> decide +kernel

/-- A card on which a copy of barge 7 runs, of which so many chunks are copied, with these blocks bad. -/
def moving (e : BargeEnt) (took : Bool) (n : Nat) (bad : List Nat) : State :=
  owning e fun m => { m with copies := [⟨7, took, 0, n⟩], badBlk := bad }

theorem witness_CopyEndsByTheTable :
    (let s := moving { inResv with state := 3 } false 0 []
     MemoryForm s ∧ Copying s 7 false 0 ∧ (barge s 7).state = 3 ∧ SourceGood s 7 (resvKey 0 0) 0) ∧
    (let s := moving { inResv with state := 4 } true 32 []
     Copying s 7 true 32 ∧ (barge s 7).state = 4 ∧ (barge s 7).pend = false ∧ SourceGood s 7 (basinKey 0 0) (32 * 65536)) ∧
    (let s := moving { inResv with state := 4, pend := true } false 31 []
     Copying s 7 false 31 ∧ (barge s 7).pend = true ∧ SourceGood s 7 (basinKey 0 0) (31 * 65536)) ∧
    (let s := moving { inResv with state := 3 } false 1 [resvKey 0 0 / 64 + 1024]
     MemoryForm s ∧ Copying s 7 false 1 ∧ Sparse.get 0 s.mem.group (groupOf (barge s 7).rframe) ≠ 2 ∧
     ∃ k ∈ s.mem.badBlk, (copySrc (barge s 7) + 1 * 65536) / 64 ≤ k ∧ k < (copySrc (barge s 7) + bargeBytes) / 64) ∧
    (∀ c ∈ job.mem.copies, c.barge ≠ 7) := by
  unfold MemoryForm Copying SourceGood
  decide +kernel

/-- A late burst that has been issued again `n` times. -/
def late (n : Nat) : State := withUnit (streaming 0 { reading desc1 with flight := some { burst with retries := n } } id) job

theorem witness_MemoryUpkeep :
    (physUnit (late 2) (0 : Fin 64).val = some 0 ∧ (late 2).led.st = .opened ∧ (late 2).keep.dev = .running ∧
      (getUnit (late 2) 0).stopped = false ∧ (getCtx (getUnit (late 2) 0) 0).flight = some { burst with retries := 2 } ∧
      2 < num (late 2) 0x3408 1) ∧
    ((getCtx (getUnit (late 3) 0) 0).flight = some { burst with retries := 3 } ∧ num (late 3) 0x3408 1 ≤ 3) ∧
    (({ job with led := { job.led with st := .updating } } : State).led.st = .updating ∧ num job 0x3408 1 ≤ 3) ∧
    Sparse.get 0 job.mem.group (7 : Fin 8).val ≠ 2 := by
  decide +kernel

/-! ### Hypotheses that can be met: plans, jobs, layers and the ledger -/

/-- Area 1 is LOADED; its checks run; its image is empty. -/
def loaded : State := { card with plan := { card.plan with area1 := 1 } }
def checking : State := { card with plan := { card.plan with area1 := 2, checking := some 1 } }

/-- The same with an uncorrectable block at the start of the area. -/
def damagedPlan : State :=
  { checking with mem := { checking.mem with badBlk := [(place checking (planBase checking.strap.variant 1)).key / 64] } }

theorem quiet_checking : Quiet checking := by unfold Quiet Sound; decide +kernel

theorem quiet_planned : Quiet planned := by unfold Quiet Sound; decide +kernel

theorem quiet_job : Quiet job := by unfold Quiet Sound; decide +kernel

theorem witness_PlanActivation :
    (Takes loaded acc 0x3880 1 ∧ (1 : BitVec 8).toNat < 2 ∧ loaded.keep.dev = .idle ∧ loaded.plan.checking = none ∧
      areaState loaded (1 : BitVec 8).toNat = 1) ∧
    (Takes card acc 0x3880 1 ∧ areaState card 1 ≠ 1) ∧ 2 ≤ (2 : BitVec 8).toNat ∧
    (checking.plan.checking = some 1 ∧ checking.units.owed = [] ∧ checking.boot.pendMap = false ∧ ∃ e, planErr checking 1 = some e) ∧
    (planErr damagedPlan 1 = some ⟨5, 0xFF, 0, 0⟩ ∧ (damageMet damagedPlan 1 ⟨5, 0xFF, 0, 0⟩).isSome = true ∧
      damageMet checking 1 ⟨3, 0xFF, 0, 0⟩ = none) ∧
    Quiet checking ∧
    (Takes planned acc 0x3880 2 ∧ planned.keep.dev = .planLoaded ∧ jobRuns planned = false ∧ planned.dict.awaiting = [] ∧
      planned.plan.active = some 1) ∧
    (Takes job acc 0x3880 2 ∧ ¬ (job.keep.dev = .planLoaded ∧ jobRuns job = false)) := by
  unfold Takes
  refine ⟨?_, ?_, ?_, ⟨?_, ?_, ?_, Option.isSome_iff_exists.1 ?_⟩, ⟨?_, ?_, ?_⟩, quiet_checking, ?_, ?_⟩ <;> decide +kernel

theorem witness_JobStartAndStop :
    (Takes planned acc 0x2001 1 ∧ planned.keep.dev = .planLoaded ∧ planned.led.st = .nojob ∧ planned.plan.active ≠ none ∧
      planned.plan.checking = none ∧ anyShort planned = false ∧ Quiet planned) ∧
    (Takes card acc 0x2001 1 ∧ Takes card acc 0x2001 2 ∧ card.keep.dev ≠ .planLoaded ∧ jobRuns card = false ∧ (0 : BitVec 8) ≠ 1) ∧
    (Takes job acc 0x2001 2 ∧ job.keep.dev = .running ∧ jobRuns job = true) := by
  unfold Takes
  refine ⟨⟨?_, ?_, ?_, ?_, ?_, ?_, quiet_planned⟩, ?_, ?_⟩ <;> decide +kernel

/-- A layer of one tensor of one parameter, updated by SGD with momentum, its areas in barge 0. -/
def layer : LayerEnt :=
  { firstt := 0, nt := 1, opt := 1, lean := false, surgeAct := false, msr := false, gate := 0, lrmul := one32, b1 := 0, b2 := 0,
    eps := 1, wd := 0, clip := 0, surge := 0, bs := 0, warm := 0, kinit := 0 }

def tensor : TensorEnt :=
  { tag := 0, fact := false, rows := 1, cols := 1, grad := 0, master := 64, m := 128, sm := 192, work := 256 }

/-- The running job of a plan with that layer, whose gradient is `g`. -/
def training (g : Bytes) (r : LayerRun) (f : LedgerSt → LedgerSt) : State :=
  let s := basin job
  { s with
    mem := { s.mem with cells := Sparse.setMany memDefault [] (basinKey 2 0) g }
    plan := { s.plan with plan := { s.plan.plan with lt := { lstate := 320, layers := [layer], tensors := [tensor] } } }
    led := f { s.led with layers := [(0, r)] } }

/-- A gradient of 1.0, and an infinite one. -/
def good : Bytes := [0, 0, 0x80, 0x3F]
def bad : Bytes := [0, 0, 0x80, 0x7F]

theorem read_of {α : Type} {x : State × Option α} {P : α → Prop} [DecidablePred P]
    (h : x.2.any (fun g => decide (P g)) = true) : ∃ s1 g, x = (s1, some g) ∧ P g := by
  obtain ⟨s, o⟩ := x
  obtain ⟨g, hg, h⟩ := has h
  exact ⟨s, g, by simp_all, h⟩

theorem reads_of {α β : Type} {x : State × Option α} {f : State → State × Option β} {P : α → β → Prop}
    [∀ a b, Decidable (P a b)] (h : (x.2.any fun g => (f x.1).2.any fun r => decide (P g r)) = true) :
    ∃ s1 g s2 r, x = (s1, some g) ∧ f s1 = (s2, some r) ∧ P g r := by
  obtain ⟨s, o⟩ := x
  obtain ⟨g, hg, h⟩ := (Option.any_eq_true _ _).1 h
  obtain ⟨s2, r, hr, hp⟩ := read_of h
  exact ⟨s, g, s2, r, by simp_all, hr, hp⟩

theorem unread_of {α : Type} {x : State × Option α} (h : x.2.isNone = true) : ∃ s1, x = (s1, none) := by
  obtain ⟨s, o⟩ := x
  exact ⟨s, by simp_all⟩

def checked : LedgerSt → LedgerSt := fun l => { l with chkOrder := [0] }

/-- What the check of layer 0 finds in a state. -/
def clipped (s : State) (g : GradSum) (r : LayerRec) : Clip := clipOf (ownLt s) layer r (stepIn s) g

/-- The sums of layer 0, its run marked as no longer checking. -/
def summed (s : State) : State × Option GradSum :=
  sumTensors false s.led.run.l ((ownLt s).tensorsOf layer) {} .clean (setLayerRun 0 { layerRun s 0 with checking := false } s)

def inCheck (g : Bytes) : State := training g { checking := true } id

/-- Layer 0 may start its stage; its record in a damaged place. -/
def toStart (bads : List Nat) : State :=
  let s := training good { checked := true } checked
  { s with mem := { s.mem with badBlk := bads } }

/-- Layer 0 with its stage started, in an updating step. -/
def inStage (f : State → State) : State := f (training good { started := true } fun l => { l with st := .updating })

/-- Its first piece, taken by the engine of that piece. -/
def piece (s : State) : State × PieceOut :=
  updatePiece false (updConsts layer (layerRun s 0).record (stepIn s) (layerRun s 0).csUse).1 tensor 0 .clean s

def halted (s : State) : State := { s with keep := { s.keep with dev := .halted } }

theorem witness_LayerUpdates :
    (layerEnt (ownLt (inCheck good)) 0 = some layer ∧ enginesRun (inCheck good) = true ∧
      (layerRun (inCheck good) 0).checking = true ∧
      ∃ s1 g s2 r, summed (inCheck good) = (s1, some g) ∧ readRec (ownLt (inCheck good)) 0 s1 = (s2, some r) ∧
        (clipped (inCheck good) g r).abort = 0) ∧
    (∃ s1 g s2 r, summed (inCheck bad) = (s1, some g) ∧ readRec (ownLt (inCheck bad)) 0 s1 = (s2, some r) ∧
        (clipped (inCheck bad) g r).abort ≠ 0) ∧
    (layerEnt (ownLt (toStart [])) 0 = some layer ∧ enginesRun (toStart []) = true ∧ twinAllows (toStart []) = true ∧
      nextStage (toStart []) = some 0 ∧ ∃ s1 rec, readRec (ownLt (toStart [])) 0 (toStart []) = (s1, some rec) ∧ rec.count = 0) ∧
    (let s := toStart [(basinKey 2 0 + 320) / 64]
     twinAllows s = true ∧ nextStage s = some 0 ∧ ∃ s1, readRec (ownLt s) 0 s = (s1, none)) ∧
    nextStage (inCheck good) ≠ some 0 ∧
    (let s := inStage id
     0 < pieces tensor ∧ ((ownLt s).tensorsOf layer)[0]? = some tensor ∧ (layerRun s 0).started = true ∧
     (layerRun s 0).done.contains (0, 0) = false ∧ MayEnd s (pieceEngine s tensor 0) ∧ (piece s).2.ok = true) ∧
    (let s := inStage halted
     MayEnd s (pieceEngine s tensor 0) ∧
     (piece { s with led := { s.led with engStop := s.led.engStop ++ [pieceEngine s tensor 0] } }).2.ok = true) ∧
    (let s := inStage fun s => { halted s with led := { s.led with engStop := [pieceEngine s tensor 0] } }
     ¬ MayEnd s (pieceEngine s tensor 0)) ∧
    (layerRun (training good {} id) 0).started = false ∧
    (enginesRun (training good { updated := true } id) = true ∧ allUpdated (training good { updated := true } id) = true) ∧
    allUpdated (training good {} id) = false := by
  unfold MayEnd
  refine ⟨⟨?_, ?_, ?_, reads_of ?_⟩, reads_of ?_, ⟨?_, ?_, ?_, ?_, read_of ?_⟩, ⟨?_, ?_, unread_of ?_⟩, ?_, ?_, ?_, ?_, ?_, ?_, ?_⟩ <;>
    decide +kernel

theorem witness_SgdWithMomentum : layer.opt = 1 ∧ layer.lean = false := ⟨rfl, rfl⟩

/-- Every unit has ended its step and the layer is updated. -/
def finished (f : LedgerSt → LedgerSt) : State :=
  let s := training good { updated := true, gok := true } fun l => f { l with st := .updating }
  { s with units := { s.units with phys := (List.range 72).map fun p => (p, { ended := true }) } }

/-- The same with its pair IN STEP; `sent`: STEPM has gone out; `n`: the latest step with SACK. -/
def paired (sent : Bool) (n : Nat) : State :=
  { finished id with twin := { (finished id).twin with pair := .inStep, stepmSent := sent, sacked := n } }

theorem witness_TwinReceiptBeforeReady :
    ∃ t, exec .cardReady (paired true 1) = .next t ∧ (paired true 1).twin.pair = .inStep ∧ (paired true 1).led.st ≠ .ready ∧
      t.led.st = .ready := by
  have h : isNext (exec .cardReady (paired true 1)) = true ∧ (after .cardReady (paired true 1)).led.st = .ready := by decide +kernel
  obtain ⟨t, ht⟩ := next_of h.1
  refine ⟨t, ht, rfl, by decide +kernel, ?_⟩
  have := h.2
  unfold after at this
  rw [ht] at this
  exact this

/-- A card that waits at a boundary, its ring with `n` slots and `k` batches put. -/
def atBoundary (n k : Nat) : State :=
  { job with led := { job.led with waiting := true }, host := { job.host with ringput := k },
             plan := { job.plan with plan := { job.plan.plan with ringSlots := n } } }

theorem quiet_boundary : Quiet (atBoundary 1024 1) := by unfold Quiet Sound; decide +kernel

/-- A card whose attempt was aborted after these layers were touched. -/
def aborting (ls : List Nat) (p : PairState) : State :=
  { job with led := { job.led with st := .aborting, touched := ls, abCause := 4, abAction := 1 }, twin := { job.twin with pair := p } }

/-- A card in READY of its step. -/
def toCommit : State := { job with led := { job.led with st := .ready } }

/-- The retirement of unit 0, with condition 4, is owed. -/
def owing (s : State) : State := { s with units := { s.units with owed := [(0, 4)] } }

/-- Region 0 has lost its spare. -/
def spareless (s : State) : State := { s with units := { s.units with map := Sparse.set 0 s.units.map 8 0xFF } }

/-- Unit 0 has slipped in the step, and in the one before; a unit above threshold in 2 steps is swapped where `swap` is 1. -/
def slipping (swap : Byte) (s : State) : State :=
  let t := withVal 0x2C00 2 [2] (withVal 0x2C00 3 [swap] s)
  { t with stat := { t.stat with run := [(ekey 0x5040 1, 1)] }, units := { t.units with slipRun := [(0, 1)] } }

/-- The slips of the 64 units, 63 of which are 0. -/
theorem slips (swap : Byte) : MedianIs (slipping swap toCommit) 0 := by
  refine ⟨List.replicate 63 0 ++ [1], by decide +kernel, ?_, by decide +kernel⟩
  have h : (((List.range 72).filter fun x => decide (logicalUnit (slipping swap toCommit) x < 64)).map
      fun x => Sparse.get 0 (slipping swap toCommit).stat.run (ekey 0x5040 (x + 1))) = 1 :: List.replicate 63 0 := by
    show (((List.range 72).filter fun x => decide (logicalUnit toCommit x < 64)).map
      fun x => Sparse.get 0 [(ekey 0x5040 1, 1)] (ekey 0x5040 (x + 1))) = _
    decide +kernel
  rw [h]
  exact List.perm_append_comm

theorem witness_LedgerOfACard_Boundary :
    (Fresh toCommit (hdr 4) 4 ∧ Sound toCommit ∧ toCommit.led.st = .ready ∧ (1 : BitVec 64).toNat = toCommit.led.running) ∧
    ({ toCommit with boot := { toCommit.boot with pendMap := true } } : State).boot.pendMap = true ∧
    (let s := owing (withVal 0x2C00 3 [0] toCommit)
     Sound s ∧ num s 0x2C00 3 = 0 ∧ s.units.owed = [(0, 4)] ∧ logicalUnit s 0 < 64 ∧ SpareIs s 0 8 ∧ NoSpare (spareless s) 0) ∧
    (let s := slipping 0 toCommit
     Sound s ∧ s.units.owed = [] ∧ MedianIs s 0 ∧ num s 0x2C00 3 = 0 ∧ Above s 0 0 ∧ ¬ Above s 0 1) ∧
    (let s := slipping 1 toCommit
     MedianIs s 0 ∧ num s 0x2C00 3 ≠ 0 ∧ logicalUnit s 0 < 64 ∧ Above s 0 0 ∧ num s 0x2C00 2 ≤ min 65535 (Sparse.get 0 s.units.slipRun 0 + 1) ∧
     (∀ x, x ≠ 0 → Sparse.get 0 s.units.slipRun x + 1 < num s 0x2C00 2) ∧ SpareIs s 0 8 ∧ NoSpare (spareless s) 0) ∧
    (¬ Fresh toCommit (hdr 5) 4 ∧ job.led.st ≠ .ready) ∧
    (let s := owing (atBoundary 1024 1)
     s.led.waiting = true ∧ s.led.st = .opened ∧ s.keep.dev = .running ∧ openHeld s = false ∧ takeSlot s = some (0, 1) ∧ Sound s ∧
     s.units.owed = [(0, 4)] ∧ SpareIs s 0 8 ∧ anyShort s = false) := by
  have spare (s : State) (hm : s.units.map = State.reset.units.map) : SpareIs s 0 8 := by
    refine ⟨by decide, by decide, by unfold logicalUnit; rw [hm]; decide +kernel, fun x hx hl => ?_⟩
    have : x < 9 := by omega
    unfold logicalUnit at hl
    rw [hm] at hl
    interval_cases x <;> first | rfl | exact absurd hl (by decide +kernel)
  have gone (s : State) (hm : s.units.map = State.reset.units.map) : NoSpare (spareless s) 0 := by
    intro x hx
    have : x < 9 := by omega
    unfold logicalUnit spareless
    simp only [hm]
    interval_cases x <;> decide +kernel
  refine ⟨⟨?_, ?_, ?_, ?_⟩, rfl, ⟨?_, ?_, ?_, ?_, spare _ rfl, gone _ rfl⟩, ⟨?_, ?_, slips 0, ?_, ?_, ?_⟩,
    ⟨slips 1, ?_, ?_, ?_, ?_, ?_, spare _ rfl, gone _ rfl⟩, ⟨?_, ?_⟩, ⟨?_, ?_, ?_, ?_, ?_, ?_, ?_, spare _ rfl, ?_⟩⟩ <;>
    first | decide +kernel | (unfold Fresh; decide +kernel) | (unfold Sound; decide +kernel) | (unfold Above; decide +kernel) | skip
  intro x hx
  have h : Sparse.get 0 (slipping 1 toCommit).units.slipRun x = 0 := by
    show Sparse.get 0 [(0, 1)] x = 0
    simp [Sparse.get, Ne.symm hx]
  rw [h]
  decide +kernel

theorem witness_LedgerOfACard :
    (isReady (finished id) = true ∧ (finished id).twin.pair ≠ .inStep) ∧
    (isReady (paired false 0) = true ∧ (paired false 0).twin.pair = .inStep ∧ allAcked (paired false 0) = true ∧
      (paired false 0).twin.stepmSent = false ∧
      ∃ s1 bs, readRanges (heldRanges (paired false 0)) .clean (paired false 0) = (s1, some bs) ∧ bs.length = 0) ∧
    (isReady (paired true 1) = true ∧ allAcked (paired true 1) = true ∧ (paired true 1).twin.sacked = (paired true 1).led.running) ∧
    isReady job = false ∧
    (job.led.stopPend = false ∧ Quiet { job with led := { job.led with st := .ready, stopPend := true } }) ∧
    ((atBoundary 2 0).led.waiting = true ∧ (atBoundary 2 0).led.st = .opened ∧ (atBoundary 2 0).keep.dev = .running ∧
      openHeld (atBoundary 2 0) = false ∧ takeSlot (atBoundary 2 0) = none ∧
      (atBoundary 2 0).led.waitSaid ≠ (atBoundary 2 0).led.running ∧
      takeSlot { atBoundary 2 0 with led := { (atBoundary 2 0).led with waitSaid := 1 } } = none) ∧
    (openHeld (atBoundary 1024 1) = false ∧ takeSlot (atBoundary 1024 1) = some (0, 1) ∧ Quiet (atBoundary 1024 1) ∧
      anyShort (atBoundary 1024 1) = false) ∧
    (job.led.waiting = false ∧ job.led.st = .opened ∧ (5 : BitVec 8) ≠ 6 ∧ (2 : BitVec 64).toNat ≠ job.led.running ∧
      Fresh job (hdr 5) 5 ∧ ¬ Fresh job (hdr 4) 5 ∧ Fresh job (hdr 6) 6 ∧ ¬ Fresh job (hdr 4) 6) ∧
    ((aborting [] .none).led.st = .aborting ∧ (aborting [] .none).mem.dmgRun = [] ∧ (aborting [] .none).plan.plan.held = [] ∧
      (aborting [] .none).led.abCause ≠ 6 ∧ (aborting [] .none).led.abCause ≠ 10 ∧ (aborting [] .none).led.touched = [] ∧
      (aborting [] .none).led.abAction ≤ 1 ∧ (aborting [] .none).led.stopPend = false) ∧
    ((aborting [0] .inStep).led.touched ≠ [] ∧ (aborting [0] .inStep).twin.pair = .inStep) ∧
    ((aborting [0] .solo).led.touched ≠ [] ∧ (aborting [0] .solo).twin.pair ≠ .inStep) ∧
    (job.led.st ≠ .aborting ∧ job.led.applyCs = none ∧
      ({ job with led := { job.led with applyCs := some 0 } } : State).led.applyCs ≠ none) := by
  refine ⟨?_, ⟨?_, ?_, ?_, ?_, read_of ?_⟩, ?_, ?_, ⟨?_, quiet_job⟩, ?_, ⟨?_, ?_, quiet_boundary, ?_⟩, ?_, ?_, ?_, ?_, ?_⟩ <;>
    first | decide +kernel | (unfold Fresh; decide +kernel)

/-- Card 0 of `n` cards of a job, in the deferred mode. -/
def coord (n : Nat) : State :=
  let p := { job.plan.plan with cards := n, lt := { mode := true } }
  { job with plan := { job.plan with plan := p } }

theorem witness_Coordinator :
    (amCoordinator (coord 2) = true ∧ jobRuns (coord 2) = true ∧ (1 : BitVec 64).toNat = (coord 2).led.running ∧
      (coord 2).led.decided ≠ some ((coord 2).led.running, attempt (coord 2)) ∧ (coord 2).led.norms = [] ∧
      ¬ ∀ l ∈ liveCards (coord 2), (l, 1, 1) ∈ [((0 : Nat), 1, 1)]) ∧
    (Fresh (coord 2) (hdr 4) 4 ∧ Fresh (coord 2) (hdr 5) 5 ∧ Fresh (coord 2) (hdr 6) 6 ∧ ¬ Fresh (coord 2) (hdr 9) 4) ∧
    (amCoordinator (coord 1) = true ∧ ∀ l ∈ liveCards (coord 1), (l, 1, 1) ∈ [((0 : Nat), 1, 1)]) ∧
    ({ coord 2 with led := { (coord 2).led with decided := some (1, 1) } } : State).led.decided =
      some ((coord 2).led.running, attempt (coord 2)) ∧
    ((2 : BitVec 64).toNat = (coord 2).led.running + 1 ∧ (1 : BitVec 64).toNat = (coord 2).led.running) ∧
    ((ownLt (coord 2)).mode = true ∧ (∀ x ∈ (coord 2).led.norms, x.1 ≠ (0 : BitVec 14).toNat) ∧
      (∀ c ∈ liveCards (coord 1), ∃ x ∈ [((0 : Nat), (0 : Nat), (0 : Int), false)], x.1 = c) ∧
      ¬ ∀ c ∈ liveCards (coord 2), ∃ x ∈ [((0 : Nat), (0 : Nat), (0 : Int), false)], x.1 = c) ∧
    amCoordinator (withVal 0x2811 0 [0, 0] (coord 2)) = false := by
  unfold Fresh
  refine ⟨?_, ?_, ?_, ?_, ?_, ?_, ?_⟩ <;> decide +kernel

/-! ### Hypotheses that can be met: the fabric -/

/-- A good flit with these header fields and SEQ 0. -/
def flitOf (h : Hdr) (pl : Bytes) : Flit :=
  let x := h.toNat false 0 0 0 0
  { hdr := BitVec.ofNat 224 x, payload := takePad 224 pl, crc := BitVec.ofNat 32 (crc32 (leBytes 28 x ++ takePad 224 pl)), fecOk := true }

/-- A null flit. -/
def nullF : Flit := flitOf { typ := 0, vl := 0 } []

def torusJob : State :=
  let t := torus (basin job)
  { t with fab := { t.fab with ports := [(0, { cond := 2, peer := some (1, 1), cable := true })] } }

/-- Card 1 at the other end of port 0. -/
def card1 : PeerInfo := ⟨1, 1, 0, 0, 1, false⟩

/-- Port 0 of the torus in this state. -/
def withPort (x : PortSt) : State := { torusJob with fab := { torusJob.fab with ports := [(0, x)] } }

/-- Port 0 is retraining and a request of unit 0 waits for card 1 through it. -/
def retraining : State :=
  let s := withPort { cond := 2, retrain := true, cable := true }
  { s with fab := { s.fab with remotes := [{ txn := 9, unit := 0, ctx := 0, port := 0, dst := 1, write := true, len := 64 }] } }

/-- Port 0 has a cable and is not trained. -/
def cabled : State := withPort { cable := true }

/-- The repair map of the torus holds lane 2 of port 0 as dropped. -/
def laneLost : State :=
  { cabled with boot := { cabled.boot with repair := [{ typ := 4, cause := 4, pos := 64, step := 0 }] } }

/-- Port 0 is in service and a request of unit 0 waits for card 1 through it. -/
def waitingOn : State :=
  { torusJob with fab := { torusJob.fab with remotes := [{ txn := 9, unit := 0, ctx := 0, port := 0, dst := 1, write := true, len := 64 }] } }

def laneGood (s : State) (p : Nat) (lanes : BitVec 4) (k : Nat) : Bool :=
  lanes.getLsbD k && s.boot.repair.all (fun r => decide (¬ (r.typ = 4 ∧ r.pos = p + 32 * k)))

theorem laneGood_iff {s : State} {p : Nat} {lanes : BitVec 4} {k : Nat} : LaneOk s p lanes k ↔ laneGood s p lanes k = true := by
  simp only [laneGood, LaneOk, Bool.and_eq_true, List.all_eq_true, decide_eq_true_eq]

/-- The width of a port, decided. -/
theorem width {s : State} {p : Nat} {lanes : BitVec 4} {w : Nat}
    (h : (let ok := laneGood s p lanes
      let pair := ok 0 && ok 1 || ok 2 && ok 3
      let all := ok 0 && ok 1 && ok 2 && ok 3
      decide (w = 4) && all || decide (w = 2) && pair && !all || decide (w = 0) && !pair) = true) : Width s p lanes w := by
  have e : (∀ k < 4, LaneOk s p lanes k) ↔ LaneOk s p lanes 0 ∧ LaneOk s p lanes 1 ∧ LaneOk s p lanes 2 ∧ LaneOk s p lanes 3 := by
    refine ⟨fun h => ⟨h 0 (by omega), h 1 (by omega), h 2 (by omega), h 3 (by omega)⟩, fun h k hk => ?_⟩
    interval_cases k
    exacts [h.1, h.2.1, h.2.2.1, h.2.2.2]
  unfold Width
  simp only [e]
  simp only [laneGood_iff]
  dsimp only at h
  revert h
  generalize laneGood s p lanes 0 = a, laneGood s p lanes 1 = b, laneGood s p lanes 2 = c, laneGood s p lanes 3 = d
  cases a <;> cases b <;> cases c <;> cases d <;> simp

theorem witness_FabricPorts :
    (trains cabled = true ∧ portUsed cabled (0 : Fin 20).val = true ∧ (getPort cabled 0).cable = true ∧ portUp cabled 0 = false ∧
      peerOk cabled 0 card1 = true ∧ peerOk cabled 0 { card1 with card := 0 } = false ∧ NoneOn cabled 0) ∧
    (Width cabled 0 15 4 ∧ Width cabled 0 3 2 ∧ Width cabled 0 12 2 ∧ Width cabled 0 5 0 ∧ Width laneLost 0 15 2 ∧ Width laneLost 0 12 0) ∧
    (trains torusJob = true ∧ portUsed torusJob 0 = true ∧ (getPort torusJob 0).cable = true ∧ Width torusJob 0 15 4 ∧
      portUp torusJob 0 = true ∧ (getPort torusJob 0).queue = [] ∧ NoneOn torusJob 0 ∧ peerOk torusJob 0 card1 = true ∧
      peerOk torusJob 0 { card1 with card := 0 } = false) ∧
    (∃ m, trains waitingOn = true ∧ portUsed waitingOn 0 = true ∧ (getPort waitingOn 0).cable = true ∧ portUp waitingOn 0 = true ∧
      waitingOn.fab.remotes = [m] ∧ m.port = 0 ∧ m.done = false ∧ m.unit < 72 ∧ Width waitingOn 0 1 0 ∧
      peerOk waitingOn 0 { card1 with card := 0 } = false) ∧
    (trains job = false ∧ portUsed (withVal 0x2800 7 [1] torusJob) (9 : Fin 20).val = false ∧ (getPort (withPort {}) 0).cable = false ∧ portUp torusJob (1 : Fin 20).val = false) ∧
    (portUp torusJob (0 : Fin 20).val = true ∧ (getPort torusJob 0).retrain = false) ∧
    ((getPort (withPort { cond := 2, retrain := true }) 0).retrain = true ∧
      (getPort (withPort { cond := 2, retrain := true }) 0).queue = [] ∧ NoneOn (withPort { cond := 2, retrain := true }) 0) ∧
    (∃ m, (getPort retraining 0).retrain = true ∧ retraining.fab.remotes = [m] ∧ m.port = (0 : Fin 20).val ∧ m.done = false ∧ m.unit < 72) ∧
    (portUp cabled (0 : Fin 20).val = false ∧ portCond cabled 0 = 1 ∧ cabled.keep.mirror = false ∧ nullF.fecOk = true ∧
      peerOk cabled 0 { card1 with port := 2 } = false ∧ portCond cabled 0 ≠ 5) ∧
    (portUp (withPort {}) (0 : Fin 20).val = false ∧ trains (withPort {}) = true ∧ portUsed (withPort {}) 0 = true ∧
      (withPort {}).keep.mirror = false) := by
  unfold NoneOn
  refine ⟨?_, ⟨width ?_, width ?_, width ?_, width ?_, width ?_, width ?_⟩, ⟨?_, ?_, ?_, width ?_, ?_⟩,
    ⟨_, ?_, ?_, ?_, ?_, rfl, ?_, ?_, ?_, width ?_, ?_⟩, ?_, ?_, ?_, ⟨_, ?_, rfl, ?_⟩, ?_, ?_⟩ <;> decide +kernel

/-- Flits for this card from card 1: a write, one out of order, one with a wrong CRC, and one on a lane of the twin link. -/
def writeF : Flit := flitOf { typ := 1, vl := 3, last := true, src := 1, len := 4, addr := 64, txn := 7 } (List.replicate 64 0xA5)
def wrongF : Flit := { writeF with crc := writeF.crc + 1 }
def lateF : Flit :=
  let x := ({ typ := 1, vl := 3, src := 1, len := 4 } : Hdr).toNat false 2 0 0 0
  { hdr := BitVec.ofNat 224 x, payload := zeros 224, crc := BitVec.ofNat 32 (crc32 (leBytes 28 x ++ zeros 224)), fecOk := true }

def twinLaneF : Flit :=
  let x := ({ typ := 1, vl := 4, src := 1, len := 4 } : Hdr).toNat false 0 0 0 0
  { hdr := BitVec.ofNat 224 x, payload := zeros 224, crc := BitVec.ofNat 32 (crc32 (leBytes 28 x ++ zeros 224)), fecOk := true }

def crcGood (f : Flit) : Prop := f.crc.toNat = crc32 (leBytes 28 f.hdr.toNat ++ takePad 224 f.payload)

/-- No tree of a state whose trees list none holds a flit back. -/
theorem no_held {s : State} (h : s.fab.trees.all (fun x => decide (x.2.held = [])) = true) : ∀ x, (getTree s x).held = [] := by
  intro x
  unfold getTree
  generalize s.fab.trees = m at h
  induction m with
  | nil => rfl
  | cons kv m ih =>
    simp only [List.all_cons, Bool.and_eq_true, decide_eq_true_eq] at h
    show (if kv.1 = x then kv.2 else Sparse.get {} m x).held = []
    split
    · exact h.1
    · exact ih h.2

theorem witness_LinkLayer :
    (portUp torusJob (1 : Fin 20).val = false ∧ (getPort torusJob 1).retries < 64) ∧
    (portUp torusJob (0 : Fin 20).val = true ∧ (getPort torusJob 0).retrain = false ∧ (getPort torusJob 0).retries < 64 ∧
      ¬ crcGood wrongF ∧ (getPort torusJob 0).nakSent = false ∧ (getPort (withPort { cond := 2, nakSent := true }) 0).nakSent = true) ∧
    ((getPort torusJob 0).queue = [] ∧ nullF.fecOk = true ∧ crcGood nullF ∧ bits nullF.hdr.toNat 3 0 = 0 ∧ bit nullF.hdr.toNat 10 = false ∧
      ∀ x, (getTree torusJob x).held = []) ∧
    (lateF.fecOk = true ∧ crcGood lateF ∧ bits lateF.hdr.toNat 3 0 = 1 ∧
      bits lateF.hdr.toNat 23 12 ≠ ((getPort torusJob 0).rxSeq + 1) % 4096) ∧
    (twinLaneF.fecOk = true ∧ crcGood twinLaneF ∧ bits twinLaneF.hdr.toNat 3 0 = 1 ∧ bit twinLaneF.hdr.toNat 10 = false ∧
      bits twinLaneF.hdr.toNat 23 12 = ((getPort torusJob 0).rxSeq + 1) % 4096 ∧
      bits twinLaneF.hdr.toNat 6 4 ∉ (if (0 : Fin 20).val < 16 then [0, 1, 2, 3, 5] else [0, 4])) := by
  unfold crcGood
  refine ⟨?_, ?_, ⟨?_, ?_, ?_, ?_, ?_, no_held ?_⟩, ?_, ?_⟩ <;> decide +kernel

/-- The state that the link leaves. -/
def received (s : State) (f : Flit) : State := (recvFlit 0 f s).1

theorem arrives {s : State} {f : Flit} {typ : Nat} {pl : Bytes} (h1 : (recvFlit 0 f s).2 = some (f.hdr.toNat, pl))
    (h2 : (Hdr.of f.hdr.toNat).typ = typ ∧ (getPort (received s f) 0).retries < 64 ∧ (received s f).keep.mirror = false ∧
      (Hdr.of f.hdr.toNat).dst = cardId (received s f))
    (h3 : (received s f).fab.trees.all (fun x => decide (x.2.held = [])) = true) :
    Arrives s 0 f typ (received s f) (Hdr.of f.hdr.toNat) pl := by
  refine ⟨?_, rfl, h2.1, h2.2.1, h2.2.2.1, Or.inl h2.2.2.2, no_held h3⟩
  show recvFlit 0 f s = _
  rw [← h1]
  rfl

theorem writable {s : State} {a n : Nat} (hv : s.strap.variant = .m4162) (hb : s.mem.barges = [(0, inBasin)]) (hc : s.mem.copies = [])
    (h : a + n ≤ 2097152) (h1 : rangeBacked s a n = true) (h2 : rangeGroupBad s a n = none) (h3 : ∀ x ∈ blocksOf a n, blockBad s x = false) :
    Writable s a n := ⟨⟨h1, h2, h3⟩, below_plans s hv a n h, apart_basin s hv hb hc a n h⟩

/-- A read request for 64 bytes, and one for none. -/
def readF (n : Nat) : Flit := flitOf { typ := 2, vl := 3, last := true, src := 1, len := 1, addr := 64, txn := 7 } (leBytes 4 n ++ zeros 12)
def answerF : Flit := flitOf { typ := 3, vl := 3, last := true, src := 1, len := 4, txn := 9 } (List.replicate 64 0xA5)
def ackF : Flit := flitOf { typ := 4, vl := 3, last := true, src := 1, txn := 9 } []

/-- The card waits for a remote request with tag 9. -/
def asking (write : Bool) : State :=
  { torusJob with fab := { torusJob.fab with remotes := [{ txn := 9, unit := 0, ctx := 0, port := 0, dst := 1, write := write, len := 64 }] } }

/-- A port with no credit given out on the lane. -/
theorem clear {s : State} {p vl n : Nat} (h : portUp s p = true ∧ vl ∈ portLanes p ∧ (getPort s p).queue = [] ∧
    (getPort s p).retrain = false ∧ (getPort s p).replay.length + n ≤ 1024 ∧ Sparse.get [] (getPort s p).used vl = [] ∧
    n ≤ classCredits vl) : Clear s p vl n := by
  refine ⟨h.1, h.2.1, h.2.2.1, h.2.2.2.1, h.2.2.2.2.1, fun c => ?_⟩
  unfold usedOf
  rw [h.2.2.2.2.2.1]
  show 0 + n ≤ _
  rw [Nat.zero_add]
  exact h.2.2.2.2.2.2

theorem witness_FabricRequests :
    (Arrives torusJob 0 writeF 1 (received torusJob writeF) (Hdr.of writeF.hdr.toNat) (List.replicate 64 0xA5) ∧
      (Hdr.of writeF.hdr.toNat).vl ≠ 5 ∧ (Hdr.of writeF.hdr.toNat).last = true ∧ (1, 7) ∉ (received torusJob writeF).fab.badWr ∧
      List.replicate 64 (0xA5 : Byte) ≠ [] ∧ Writable (received torusJob writeF) 64 64 ∧ nextPort (received torusJob writeF) 1 0 none = some 0 ∧
      Clear (received torusJob writeF) 0 3 1) ∧
    (Arrives torusJob 0 (readF 64) 2 (received torusJob (readF 64)) (Hdr.of (readF 64).hdr.toNat) (leBytes 4 64 ++ zeros 12) ∧
      leAt (leBytes 4 64 ++ zeros 12) 0 4 = 64 ∧ Readable (received torusJob (readF 64)) 64 64 ∧
      nextPort (received torusJob (readF 64)) 1 0 none = some 0 ∧ Clear (received torusJob (readF 64)) 0 3 (cdiv 64 224)) ∧
    (Arrives torusJob 0 (readF 14336) 2 (received torusJob (readF 14336)) (Hdr.of (readF 14336).hdr.toNat) (leBytes 4 14336 ++ zeros 12) ∧
      leAt (leBytes 4 14336 ++ zeros 12) 0 4 = 14336 ∧ Readable (received torusJob (readF 14336)) 64 14336 ∧
      nextPort (received torusJob (readF 14336)) 1 0 none = some 0 ∧ Clear (received torusJob (readF 14336)) 0 3 (cdiv 14336 224)) ∧
    (Arrives torusJob 0 (readF 16144) 2 (received torusJob (readF 16144)) (Hdr.of (readF 16144).hdr.toNat) (leBytes 4 16144 ++ zeros 12) ∧
      16128 < leAt (leBytes 4 16144 ++ zeros 12) 0 4) ∧
    (Arrives (asking false) 0 answerF 3 (received (asking false) answerF) (Hdr.of answerF.hdr.toNat) (List.replicate 64 0xA5) ∧
      ∃ m, findRemote (received (asking false) answerF) 9 = some m ∧ m.write = false ∧ m.done = false ∧ m.unit < 72) ∧
    (Arrives (asking true) 0 ackF 4 (received (asking true) ackF) (Hdr.of ackF.hdr.toNat) [] ∧ (Hdr.of ackF.hdr.toNat).len = 0 ∧
      ∃ m, findRemote (received (asking true) ackF) 9 = some m ∧ m.write = true ∧ m.unit < 72) ∧
    (∃ m, findRemote (asking true) (9 : BitVec 16).toNat = some m ∧ m.done = false ∧ m.unit < 72) ∧
    ((asking true).keep.dev ≠ .halted ∧ findRemote torusJob (9 : BitVec 16).toNat = none) := by
  refine ⟨⟨arrives ?_ ?_ ?_, ?_, ?_, ?_, ?_, writable ?_ ?_ ?_ ?_ ?_ ?_ ?_, ?_, clear ?_⟩,
    ⟨arrives ?_ ?_ ?_, ?_, ⟨?_, ?_, ?_⟩, ?_, clear ?_⟩, ⟨arrives ?_ ?_ ?_, ?_, ⟨?_, ?_, ?_⟩, ?_, clear ?_⟩, ⟨arrives ?_ ?_ ?_, ?_⟩, ⟨arrives ?_ ?_ ?_, has ?_⟩,
    ⟨arrives ?_ ?_ ?_, ?_, has ?_⟩, has ?_, ?_⟩ <;> decide +kernel

/-- A leaf of tree 4095 below card 1. -/
def leaf : TreeRec := { tree := 4095, role := 2, detach := true, parent := 1, lunit := 0, lch := 5, child := [] }

def onTree (r : TreeRun) : State :=
  { torusJob with
    plan := { torusJob.plan with plan := { torusJob.plan.plan with cards := 2, trees := [leaf] } }
    fab := { torusJob.fab with trees := [(4095, r)] } }

def openF : Flit :=
  flitOf { typ := 6, vl := 2, last := true, src := 1, len := 2, addr := 0, tree := 4095, txn := 7 } (leBytes 2 0 ++ leBytes 2 1 ++ leBytes 8 0 ++ leBytes 8 128)
def dataF : Flit := flitOf { typ := 5, vl := 2, src := 1, len := 4, tree := 4095, txn := 7 } (List.replicate 64 0x5A)

theorem witness_MulticastAtANode :
    (∃ pl, Arrives (onTree {}) 0 openF 6 (received (onTree {}) openF) (Hdr.of openF.hdr.toNat) pl ∧
      treeRec (received (onTree {}) openF) 4095 = some leaf ∧ leaf.role ≠ 0 ∧ leaf.child = [] ∧ leAt pl 0 2 = 0) ∧
    (Arrives (onTree { dst := 0 }) 0 dataF 5 (received (onTree {}) dataF) (Hdr.of dataF.hdr.toNat) (List.replicate 64 0x5A) ∧
      treeRec (received (onTree {}) dataF) 4095 = some leaf ∧ attached (received (onTree {}) dataF) leaf = [] ∧
      (Hdr.of dataF.hdr.toNat).last = false ∧ (getTree (received (onTree {}) dataF) 4095).own = false ∧
      (getTree (received (onTree {}) dataF) 4095).ended = false ∧ Writable (received (onTree {}) dataF) 0 64) ∧
    ((onTree {}).keep.mirror = false ∧ treeRec (onTree {}) (4095 : BitVec 12).toNat = some leaf ∧
      (getTree (onTree {}) 4095).own = false ∧ (getTree (onTree { own := true }) 4095).own = true) ∧
    treeRec torusJob (4095 : BitVec 12).toNat = none := by
  refine ⟨⟨_, arrives (pl := leBytes 2 0 ++ leBytes 2 1 ++ leBytes 8 0 ++ leBytes 8 128 ++ zeros 12) ?_ ?_ ?_, ?_, ?_, ?_, ?_⟩,
    ⟨arrives ?_ ?_ ?_, ?_, ?_, ?_, ?_, ?_, writable ?_ ?_ ?_ ?_ ?_ ?_ ?_⟩, ?_, ?_⟩ <;> decide +kernel

/-- A system gate (R205) of HOME `h`, NUM 255 and `n` cards, whose members here are units 0 and 1. -/
def sysDef (h n : Nat) : BitVec 128 := BitVec.ofNat 128 (4 + 255 * 2 ^ 4 + h * 2 ^ 12 + n * 2 ^ 26 + 3 * 2 ^ 64)

def sysUnit (h : Nat) : UnitSt := { gateTab := [(0, sysDef h 2)] }

/-- Two cards run a plan with that gate; `x` is the gate as this card holds it. -/
def gateJob (h : Nat) (x : GateSt) : State :=
  let s := torus job
  { s with
    units := { s.units with phys := [(0, sysUnit h)] }
    plan := { s.plan with plan := { s.plan.plan with cards := 2 } }
    gates := [(sysKey h 255, x)] }

/-- The same with three cards in the plan, two of which have the gate. -/
def gateJob3 (x : GateSt) : State :=
  let s := gateJob 0 x
  { s with plan := { s.plan with plan := { s.plan.plan with cards := 3 } } }

/-- A message of a kind from card 1. -/
def hdr1 (kind : BitVec 8) : TpHdr := ⟨0, kind, 1, 7⟩

/-- Card 0, the coordinator of two, whose own arrival at the start gate is noted, or not. -/
def starting (arr : List (Nat × Nat × Nat × Nat)) : State :=
  let s := gateJob 0 {}
  { s with led := { s.led with startArr := arr } }

theorem gateJob_issues : Issues (gateJob 0 { arrived := 0, phase := 1 }) iss 0 := by unfold Issues MayIssue; decide +kernel

theorem witness_SystemGates :
    (Issues (gateJob 0 { arrived := 0, phase := 1 }) iss 0 ∧ (gateDef (sysUnit 0) 0).scope = 4 ∧
      (getGate (gateJob 0 { arrived := 0, phase := 1 }) (gateKey 0 (gateDef (sysUnit 0) 0))).has 0 = false ∧
      (gateDef (sysUnit 0) 0).members &&& (0 ||| 1) ≠ (gateDef (sysUnit 0) 0).members) ∧
    (∃ d, sysGate (gateJob 0 { arrived := 1 }) 0 255 = some d ∧
      d.members &&& (getGate (gateJob 0 { arrived := 1 }) (sysKey 0 255)).arrived ≠ d.members) ∧
    (∃ d, sysGate (gateJob 0 { arrived := 3 }) 0 255 = some d ∧
      d.members &&& (getGate (gateJob 0 { arrived := 3 }) (sysKey 0 255)).arrived = d.members ∧ d.scope = 4 ∧
      d.cards = logicalCards (gateJob 0 { arrived := 3 })) ∧
    ((getGate (gateJob 0 { arrived := 3 }) (sysKey 0 255)).sent = false ∧ (gateJob 0 {}).keep.dev ≠ .halted ∧
      cardOf (gateJob 0 { arrived := 3 }) 0 = some (cardId (gateJob 0 { arrived := 3 })) ∧
      (∀ c ∈ treeBelow (gateJob 0 { arrived := 3 }) (cardId (gateJob 0 { arrived := 3 })), c ∈ [(1 : BitVec 14).toNat])) ∧
    (∃ d, sysGate (gateJob3 { arrived := 3 }) 0 255 = some d ∧
      d.members &&& (getGate (gateJob3 { arrived := 3 }) (sysKey 0 255)).arrived = d.members ∧ d.scope = 4 ∧
      d.cards ≠ logicalCards (gateJob3 { arrived := 3 }) ∧ some 0 = myLogical (gateJob3 { arrived := 3 }) ∧ d.cards ≤ [1].length + 1) ∧
    ((getGate (gateJob 1 { arrived := 3, sent := true }) (sysKey 1 255)).sent = true ∧
      ∃ d, sysGate (gateJob 1 { arrived := 3, sent := true }) 1 255 = some d ∧ d.scope = 4) ∧
    (({ job with led := { job.led with startGate := true } } : State).led.startGate = true ∧ job.led.startGate = false) ∧
    (Fresh (gateJob 0 { arrived := 3 }) (hdr1 2) 2 ∧ Fresh (gateJob 1 { arrived := 3, sent := true }) (hdr1 3) 3 ∧
      Fresh job (hdr1 10) 10 ∧ ¬ Fresh job (hdr1 10) 2 ∧ ¬ Fresh job (hdr1 2) 3 ∧ ¬ Fresh job (hdr1 2) 10) ∧
    (Fresh (starting []) (hdr1 2) 2 ∧ (starting []).keep.dev ≠ .halted ∧ amCoordinator (starting []) = true ∧
      logicalOf (starting []) (1 : BitVec 14).toNat = some 1 ∧ (starting []).fab.badEdge = none ∧
      (∀ c ∈ liveCards (starting [(0, 3, 2, 1)]), ∃ x ∈ [(0, 3, 2, 1), (1, 3, 2, 1)], x.1 = c) ∧
      ¬ (∀ c ∈ liveCards (starting []), ∃ x ∈ [(1, 3, 2, 1)], x.1 = c)) := by
  unfold Fresh
  refine ⟨⟨gateJob_issues, ?_⟩, has ?_, has ?_, ?_, has ?_, ⟨?_, has ?_⟩, ?_, ?_, ?_, ?_, ?_, ?_, ?_, ?_, ?_⟩ <;> decide +kernel

/-- A card of two that is about to judge card 1. -/
def judging (ps : List Nat) : State :=
  let s := torus job
  { s with plan := { s.plan with plan := { s.plan.plan with cards := 2 } }, fab := { s.fab with probing := ps } }

theorem witness_HeartbeatsAndProbes :
    ((1 : BitVec 14).toNat ∉ failedCards (judging []) ∧ (1 : BitVec 14).toNat ∉ (judging []).fab.declared ∧
      silent (judging []) 1 = true ∧ silent { judging [] with fab := { (judging []).fab with alive := [0] } } 1 = false) ∧
    (Fresh card (hdr 8) 8 ∧ Fresh (judging []) (hdr 9) 9 ∧ ¬ Fresh card (hdr 9) 8 ∧ ¬ Fresh card (hdr 8) 9) ∧
    (some (judgeOf (judging []) 1) = myLogical (judging []) ∧ (hdr 9).src ≠ 1 ∧ (hdr1 9).src = 1 ∧ Fresh (judging []) (hdr1 9) 9 ∧ 1 ∉ (judging []).fab.probing ∧
      1 ∈ (judging [1]).fab.probing ∧ (∀ r ∈ (judging [1]).fab.remotes, r.done = true ∨ (r.dst ≠ (1 : BitVec 14).toNat ∧ r.tree = none))) ∧
    (1 ∉ failedCards (judging [1]) ∧ 1 ∉ (judging [1]).fab.declared ∧ logicalOf (judging [1]) 1 = some 1 ∧
      1 ≠ coordinator (judging [1]) ∧ jobRuns (judging [1]) = true ∧ (judging [1]).led.decided ≠ some (1, attempt (judging [1]))) ∧
    (judging []).keep.mirror = false := by
  unfold Fresh
  refine ⟨?_, ?_, ?_, ?_, ?_⟩ <;> decide +kernel

/-- Card 0 halted by its own first halt; `n`: serial of the last resume acted on; with these gate messages recorded. -/
def stopped (n : Nat) (es : List GateEv) : State :=
  { job with
    keep := { job.keep with dev := .halted }
    fab := { job.fab with haltSer := 1, haltOrg := 0, resSer := n, resOrg := 0, recorded := es } }

theorem witness_HaltAndResume :
    Takes card acc 0x2804 1 ∧ Takes card acc 0x2804 2 ∧ Fresh card (hdr 7) 7 ∧ ¬ Fresh card (hdr 8) 7 ∧ laterHalt ((1 : BitVec 32).toNat, (0 : BitVec 14).toNat) (card.fab.haltSer, card.fab.haltOrg) = true ∧
    laterHalt ((0 : BitVec 32).toNat, (0 : BitVec 14).toNat) (card.fab.haltSer, card.fab.haltOrg) = false ∧
    laterHalt ((1 : BitVec 32).toNat, (0 : BitVec 14).toNat) (card.fab.resSer, card.fab.resOrg) = true ∧ (0 : BitVec 8) ≠ 1 ∧
    card.fab.recorded = [] ∧ (1, 0) ∉ card.fab.acted ∧
    (1, 0) ∈ ({ card with fab := { card.fab with acted := [(1, 0)] } } : State).fab.acted ∧
    Fresh (stopped 1 []) (hdr 2) 2 ∧ Fresh (stopped 1 []) (hdr 3) 3 ∧
    ((stopped 1 []).keep.dev = .halted ∧ (stopped 1 []).keep.mirror = false ∧
      laterHalt ((stopped 1 []).fab.haltSer, (stopped 1 []).fab.haltOrg) (1, 0) = false ∧
      ¬ laterHalt (1, 0) ((stopped 1 []).fab.resSer, (stopped 1 []).fab.resOrg) = true) ∧
    (stopped 0 [.release (.startOpen none)]).fab.recorded = [] ++ [.release (.startOpen none)] ∧
    ∃ v, exec (.resumeMessage (hdr 7) 1 0) (stopped 0 []) = .next v ∧ v.keep.dev ≠ .halted ∧ Fresh v ⟨0, 3, 1, 9⟩ 3 := by
  unfold Takes Fresh
  have h : isNext (exec (.resumeMessage (hdr 7) 1 0) (stopped 0 [])) = true ∧
      (after (.resumeMessage (hdr 7) 1 0) (stopped 0 [])).keep.dev ≠ .halted ∧
      (1, 9) ∉ (after (.resumeMessage (hdr 7) 1 0) (stopped 0 [])).fab.seen ++
        (after (.resumeMessage (hdr 7) 1 0) (stopped 0 [])).fab.seenOld := by
    decide +kernel
  obtain ⟨v, hv⟩ := next_of h.1
  have hd := h.2
  unfold after at hd
  rw [hv] at hd
  refine ⟨?_, ?_, ?_, ?_, ?_, ?_, ?_, ?_, ?_, ?_, ?_, ?_, ?_, ?_, ?_, v, hv, hd.1, rfl, hd.2⟩ <;> decide +kernel

/-! ### Hypotheses that can be met: the pair, spares and harvests -/

/-- A layer table of two layers over one tensor. -/
def twoLayers : LayerTab := { lstate := 320, layers := [layer, layer], tensors := [tensor] }

/-- Card 0 of two, twin of card 1, in this pair state. -/
def twinned (p : PairState) : State :=
  let s := torusJob
  { s with
    plan := { s.plan with plan := { s.plan.plan with
      cards := 2, lt := twoLayers
      tw := { partner := 1, custody := true, mblock := 65536, custAddr := 4096, ringBytes := 4, ptab := twoLayers } } }
    twin := { s.twin with pair := p, link := 2 } }

/-- The same card without a job, and one that has sent or lost something. -/
def noJob (p : PairState) : State := { twinned p with led := { (twinned p).led with st := .nojob } }

def pairFlags (p : PairState) (f : TwinSt → TwinSt) : State := { twinned p with twin := f (twinned p).twin }

/-- The PAIR of card 1. -/
def pairOf1 : PairMsg := { serial := 0, lcid := 1, partner := 0, sysid := 0, meas := 0, yourMeas := 0, committed := 0, accepted := false, ledger := 1, state := 1 }

/-- A pair in seeding whose mirror has no layer. -/
def seedEmpty : State :=
  let s := twinned .seeding
  { s with plan := { s.plan with plan := { s.plan.plan with tw := { s.plan.plan.tw with ptab := {} } } } }

def seedDigest : BitVec 128 := (mirrorBoundaryDigest (putMirrorBlock [] seedEmpty)).2

/-- Both cards have accepted PAIR and are without a job. -/
def accepted (p : PairState) : State :=
  { noJob p with twin := { (noJob p).twin with sawPair := true, pAccepts := true, pLedger := 1 } }

/-- A card whose layers 0 and 1 are still to be restored; `served`: the abort named its partner as failed. -/
def restoring (served : Bool) : State :=
  let s := pairFlags .inStep fun (t : TwinSt) => { t with restore := [0, 1] }
  { s with led := { s.led with st := .restoring, abCause := if served then 6 else 4, abCard := 1 } }

theorem witness_TwinPairing :
    ((twinned .waiting).twin.pair = .waiting ∧ (twinned .waiting).keep.mirror = false ∧ (twinned .waiting).twin.sawPair = false ∧
      (twinned .solo).twin.pair ≠ .waiting ∧ seedPhase (twinned .solo) = 0 ∧ (twinned .inStep).twin.pair ≠ .solo ∧
      (noJob .solo).twin.pair = .solo ∧ seedPhase (noJob .solo) ≠ 0 ∧ (accepted .waiting).twin.pair = .waiting ∧
      (accepted .waiting).twin.sawPair = true ∧ (accepted .waiting).twin.pAccepts = true ∧ maySeed (accepted .waiting) = true) ∧
    (pairMatches { pairOf1 with lcid := 2 } (twinned .waiting) = false ∧ pairMatches pairOf1 (twinned .waiting) = true ∧
      (twinned .waiting).fab.joining = false ∧ maySeed (twinned .waiting) = false ∧ (twinned .seeding).twin.seeded = false ∧
      pairMatches pairOf1 (pairFlags .seeding fun (t : TwinSt) => { t with seeded := true }) = true ∧ pairOf1.state = 1 ∧
      maySeed { noJob .waiting with twin := { (noJob .waiting).twin with pLedger := 1 } } = true) ∧
    ((twinned .seeding).twin.pair = .seeding ∧
      (∃ r ∈ mirrorRanges (twinned .seeding), r.1 ≤ (64 : BitVec 42).toNat ∧ (64 : BitVec 42).toNat + [1#8].length ≤ r.1 + r.2) ∧
      Writable (twinned .seeding) 64 1) ∧
    ((after (.seedEnd 0 [] seedDigest []) seedEmpty).twin.seedLeft = [] ∧
      (after (.seedEnd 0 [] (seedDigest + 1) []) seedEmpty).twin.seedLeft ≠ []) ∧
    ((twinned .seeding).fab.joining = false ∧ (twinned .seeding).twin.loading = none ∧
      (pairFlags .seeding fun (t : TwinSt) => { t with sentOk := true }).twin.sentOk = true ∧ (twinned .seeding).twin.sentOk = false) ∧
    (twinOn (twinned .inStep) = true ∧ (twinned .inStep).plan.plan.tw.custody = true ∧
      Writable (twinned .inStep) ((twinned .inStep).plan.plan.tw.custAddr + 0) 1) ∧
    ((pairFlags .inStep fun (t : TwinSt) => { t with hbSeen := true }).twin.hbSeen = true ∧ (twinned .inStep).twin.hbSeen = false ∧
      (twinned .inStep).keep.mirror = false ∧ (twinned .inStep).twin.sideband = false ∧
      (pairFlags .inStep fun (t : TwinSt) => { t with sideband := true }).twin.sideband = true ∧
      (partner (twinned .inStep)).bind (cardOf (twinned .inStep)) = some 1 ∧ (twinned .inStep).led.st ≠ .restoring ∧
      partnerServes (twinned .inStep) = false ∧ KeeperLives (twinned .inStep) true ∧ ¬ KeeperLives (twinned .inStep) false ∧
      KeeperLives (pairFlags .inStep fun (t : TwinSt) => { t with sideband := true, link := 1 }) false) ∧
    (NoNow (restoring false) ∧ (restoring false).led.st = .restoring ∧ (restoring false).twin.hbSeen = false ∧ (restoring false).keep.mirror = false ∧
      (restoring false).twin.pair = .inStep ∧ partnerServes (restoring false) = false ∧ partnerServes (restoring true) = true) ∧
    ((twinned .waiting).twin.pair ≠ .inStep ∧ (twinned .waiting).twin.pair ≠ .seeding ∧ (twinned .inStep).twin.pair = .inStep ∧
      canServeMirror (twinned .inStep) = true) := by
  unfold KeeperLives NoNow
  refine ⟨?_, ?_, ⟨?_, ?_, writable ?_ ?_ ?_ ?_ ?_ ?_ ?_⟩, ?_, ?_, ⟨?_, ?_, writable ?_ ?_ ?_ ?_ ?_ ?_ ?_⟩, ?_, ?_, ?_⟩ <;> decide +kernel

/-- A measurement block that measured nothing. -/
def meas0 : MeasBlock := { held := [], late := false, detached := [], stackT := [], logic := [], record := 0 }

/-- The shadow update of step 1 runs; the primary's digest of layer 0 is `d`, its held gradient `g`. -/
def shadowing (d : BitVec 128) (g : Bytes) : State :=
  let s := pairFlags .inStep fun (t : TwinSt) => { t with shadowN := 1, meas := some meas0, mruns := [(0, { gended := true, ds := d })] }
  { s with mem := { s.mem with pend := Sparse.setMany 0 [] 0 g } }

/-- The digest that the shadow update of layer 0 gives. -/
def shadowDigest : BitVec 128 := (shadowLayer 0 layer meas0 (shadowing 0 [])).2.getD 0

theorem second_of {α β : Type} {x : α × β} {b : β} (h : x.2 = b) : ∃ a, x = (a, b) := ⟨x.1, by rw [← h]⟩

/-- The same card where a block of the side pond that holds the gradient is uncorrectable. -/
def pondLost (n : Nat) : State :=
  let s := shadowing shadowDigest []
  { s with mem := { s.mem with badBlk := [resvKey (topFrame s 4096 512) 0 / 64] }
           twin := { s.twin with mruns := [(0, { mirrorRun s 0 with pulls := n })] } }

/-- The pair IN STEP with this run of layer 0 at the primary. -/
def refused (r : LayerRun) : State := { twinned .inStep with led := { (twinned .inStep).led with layers := [(0, r)] } }

/-- The gradient of layer 0 is being fetched again. -/
def refetching : State := pairFlags .inStep fun (t : TwinSt) => { t with mruns := [(0, { refetch := true })] }

theorem witness_TwinStep :
    (twinOn (twinned .inStep) = true ∧ 0 + [1#8].length < (twinned .inStep).plan.plan.tw.ringBytes ∧
      PondGood (twinned .inStep) (pondPend (twinned .inStep) 0) 4) ∧
    ((1 : BitVec 64).toNat = (twinned .inStep).led.running ∧ layerEnt (partnerLt (twinned .inStep)) 0 = some layer ∧
      (partnerLt (twinned .inStep)).tensorsOf layer = [tensor] ∧ 0 + good.length ≤ 4 * tensor.size ∧
      tensor.grad = 0 ∧ ¬ PondGood (pondLost 0) (pondPend (pondLost 0) 0) 4) ∧
    (layerEnt (ownLt (refused { gacks := 2 })) 0 = some layer ∧ twinOn (refused { gacks := 2 }) = true ∧
      (layerRun (refused { gacks := 2 }) 0).gacks < 3 ∧
      AllReadable (refused { gacks := 2 }) ((ownLt (refused { gacks := 2 })).tensorsOf layer |>.map fun x => (x.grad, 4 * x.size)) ∧
      3 ≤ (layerRun (refused { gacks := 3 }) 0).gacks ∧ (refused { gacks := 3 }).led.st ≠ .restoring ∧
      partnerServes (refused { gacks := 3 }) = false ∧
      KeeperLives ({ refused { gacks := 3 } with fab := { (refused { gacks := 3 }).fab with alive := [0] } } : State)
        (partnerBeats { refused { gacks := 3 } with fab := { (refused { gacks := 3 }).fab with alive := [0] } })) ∧
    ((1 : BitVec 64).toNat = (twinned .inStep).twin.mirror + 1 ∧ (2 : BitVec 64).toNat ≠ (twinned .inStep).twin.mirror + 1 ∧
      (twinned .inStep).twin.inputStep ≠ 1 ∧ (twinned .inStep).plan.plan.tw.ringBytes ≠ 0) ∧
    (∃ x, ({ twinned .inStep with dict := { (twinned .inStep).dict with packWait := [(2#32, acc)] } } : State).dict.packWait.find?
      (fun x => decide (x.1 = 2#32)) = some x) ∧
    (RouteAnswers (twinned .inStep) acc.path ∧ (twinned .inStep).dict.awaiting = [] ∧ (twinned .inStep).dict.packWait.find? (fun x => decide (x.1 = 2#32)) = none) ∧
    (layerEnt (partnerLt (shadowing shadowDigest [])) 0 = some layer ∧ (shadowing shadowDigest []).twin.meas = some meas0 ∧
      (shadowing shadowDigest []).twin.shadowN ≠ 0 ∧ (shadowing shadowDigest []).keep.dev ≠ .halted ∧
      (mirrorRun (shadowing shadowDigest []) 0).gended = true ∧ (mirrorRun (shadowing shadowDigest []) 0).done = false ∧
      (mirrorRun (shadowing shadowDigest []) 0).bad = false ∧ (mirrorRun (shadowing shadowDigest []) 0).refetch = false ∧
      PondGood (shadowing shadowDigest []) (pondPend (shadowing shadowDigest []) 0) 4 ∧ (mirrorRun (shadowing shadowDigest []) 0).pulls < 3 ∧
      gradientLost (shadowing shadowDigest []) 0 (.uncorrectable 1048576) = true) ∧
    ((∃ s1, shadowLayer 0 layer meas0 (shadowing shadowDigest []) = (s1, some shadowDigest)) ∧
      shadowDigest = (mirrorRun (shadowing shadowDigest []) 0).ds ∧
      ∃ j ∈ layerNumbers (partnerLt (shadowing shadowDigest [])), j ≠ 0 ∧ (mirrorRun (shadowing shadowDigest []) j).done = false) ∧
    ((∃ s1, shadowLayer 0 layer meas0 (shadowing (shadowDigest + 1) []) = (s1, some shadowDigest)) ∧
      shadowDigest ≠ (mirrorRun (shadowing (shadowDigest + 1) []) 0).ds) ∧
    ((∃ s1, shadowLayer 0 layer meas0 (shadowing 0 bad) = (s1, none)) ∧ (mirrorRun (shadowing 0 bad) 0).gended = true ∧
      PondGood (shadowing 0 bad) (pondPend (shadowing 0 bad) 0) 4) ∧
    (gradientLost (pondLost 0) 0 .clean = true ∧ (mirrorRun (pondLost 0) 0).pulls < 3 ∧
      gradientLost (pondLost 3) 0 .clean = true ∧ 3 ≤ (mirrorRun (pondLost 3) 0).pulls) ∧
    ((mirrorRun { shadowing shadowDigest [] with twin := { (shadowing shadowDigest []).twin with
        mruns := [(0, { gended := true, ds := shadowDigest, fetched := true })] } } 0).fetched = true) ∧
    (refetching.keep.mirror = false ∧ layerEnt (partnerLt refetching) 0 = some layer ∧ (partnerLt refetching).tensorsOf layer = [tensor] ∧
      good.length = 4 * tensor.size ∧ (mirrorRun refetching 0).refetch = true ∧ PondGood refetching (pondPend refetching 0) 4) ∧
    (AllReadable (twinned .inStep) (stateRanges (partnerLt (twinned .inStep)) 0) ∧
      AllReadable (twinned .inStep) (layerRanges (ownLt (twinned .inStep)) 0) ∧ good ≠ [] ∧
      AllReadable (twinned .inStep) (layerRanges (partnerLt (twinned .inStep)) 0)) ∧
    ((twinned .inStep).led.st ≠ .restoring ∧ compares (num (twinned .inStep)) (1 : BitVec 64).toNat = false ∧
      (twinned .inStep).twin.shadowN = 0 ∧ (1 : BitVec 64).toNat = (twinned .inStep).led.running) ∧
    ((restoring false).keep.mirror = false ∧ (restoring false).led.st = .restoring ∧ (restoring false).fab.joining = false ∧
      layerEnt (ownLt (restoring false)) 0 = some layer ∧ (restoring false).twin.restore.contains 0 = true ∧
      (restoring false).twin.restore.filter (· ≠ 0) ≠ []) ∧
    ((mirrorRun (twinned .inStep) 0).bad = false ∧ (pairFlags .inStep fun (t : TwinSt) => { t with cmpLeft := [0] }).twin.cmpLeft.contains 0 = true) := by
  unfold AllReadable Readable PondGood KeeperLives RouteAnswers
  refine ⟨?_, ?_, ?_, ?_, Option.isSome_iff_exists.1 ?_, ?_, ?_, ⟨second_of ?_, ?_, ?_⟩, ⟨second_of ?_, ?_⟩, ⟨second_of ?_, ?_, ?_⟩,
    ?_, ?_, ?_, ?_, ?_, ?_, ?_⟩ <;> decide +kernel

/-- A card that no logical card ID names, in a trained fabric. -/
def spare : State := withVal 0x2C10 0 [0, 0] (torus card)

/-- A handover is asked for at a boundary. -/
def handing : State := { atBoundary 2 0 with fab := { (atBoundary 2 0).fab with handover := some 0, handTold := true } }

/-- Card 1 of the two, which is no coordinator, and a write that comes from the coordinator. -/
def cardOne : State := withVal 0x2800 4 [1] torusJob
def fromCard0 : Access := ⟨.towpath, ⟨.towpath, 0, 0⟩⟩

def harvesting (f : HarvestSt → HarvestSt) : State := { planned with harv := f planned.harv }

/-- An image of step 9 without a section, for card 0 of one. -/
def image0 : Bytes :=
  leBytes 36 (pack [(32, 0x56524148), (16, 1), (16, 0), (64, 9), (14, 0), (2, 0), (16, 1), (128, 0)]) ++ zeros 64 ++
    leBytes 156 (pack [(32, 0), (64, 256), (128, (twinDigest []).toNat)])

theorem witness_SparesAndHarvest :
    (Takes spare acc 0x2C20 1 ∧ eligibleSpare spare = true ∧ spare.plan.active = none ∧ eligibleSpare card = false ∧
      Takes card acc 0x2C20 1) ∧
    (Takes planned acc 0x2C24 1 ∧ planned.plan.plan.cards ≤ (1 : BitVec 16).toNat ∧ (0 : BitVec 16).toNat < planned.plan.plan.cards ∧
      planned.plan.active ≠ none ∧ amCoordinator planned = true ∧ Takes card acc 0x2C24 1 ∧
      (0 : BitVec 16).toNat < card.plan.plan.cards ∧ card.plan.active = none) ∧
    (planned.led.st = .nojob ∧ Takes job acc 0x2C24 1 ∧ amCoordinator job = true ∧ (0 : BitVec 16).toNat < job.plan.plan.cards ∧
      job.fab.handTold = false ∧ jobRuns job = true ∧ job.led.waiting = false) ∧
    (Takes cardOne fromCard0 0x2C24 1 ∧ amCoordinator cardOne = false ∧ fromCoordinator fromCard0 cardOne = true ∧
      fromCoordinator acc cardOne = false ∧ cardOne.plan.active ≠ none ∧ (0 : BitVec 16).toNat < cardOne.plan.plan.cards) ∧
    (planned.fab.handover = none ∧ handing.fab.handover = some 0 ∧ handing.fab.handTold = true ∧ handing.fab.recState = 0 ∧ amCoordinator handing = true ∧ handing.led.st = .opened ∧
      handing.led.waiting = true ∧ handing.led.reopen = false ∧ job.led.waiting = false) ∧
    (Takes card acc 0x2A10 1 ∧ harvRefused card (0 : BitVec 64).toNat = true ∧ Takes planned acc 0x2A10 1 ∧
      harvRefused planned (1 : BitVec 64).toNat = false ∧ planned.led.committed < (1 : BitVec 64).toNat ∧
      harvRefused planned (0 : BitVec 64).toNat = false ∧ (0 : BitVec 64).toNat = planned.led.committed) ∧
    ((harvesting fun (h : HarvestSt) => { h with state := 2, head := zeros 256 }).harv.state = 2 ∧
      (harvesting fun (h : HarvestSt) => { h with state := 2, head := zeros 256 }).harv.left = [] ∧
      (harvesting fun (h : HarvestSt) => { h with state := 2, head := zeros 256 }).harv.head ≠ [] ∧
      num (harvesting fun (h : HarvestSt) => { h with state := 2, head := zeros 256 }) 0x2A10 3 = 0 ∧
      (harvesting fun (h : HarvestSt) => { h with state := 2, head := zeros 256 }).host.waitWr = [] ∧
      mayWriteHost (harvesting fun (h : HarvestSt) => { h with state := 2, head := zeros 256 }) = true ∧ planned.harv.state ≠ 2) ∧
    (Takes planned acc 0x2A10 6 ∧ Takes (harvesting fun (h : HarvestSt) => { h with state := 1 }) acc 0x2A10 6 ∧ planned.harv.state ≠ 1) ∧
    (Takes planned acc 0x2A1C 1 ∧ planned.keep.dev = .planLoaded ∧ planned.led.st = .nojob ∧ loadCode planned [] ≠ 0 ∧
      loadCode planned image0 = 0 ∧ leAt image0 8 8 = 9 ∧ Takes card acc 0x2A1C 1 ∧
      ¬ (card.keep.dev = .planLoaded ∧ card.led.st = .nojob)) := by
  unfold Takes
  refine ⟨?_, ?_, ?_, ?_, ?_, ?_, ?_, ?_, ?_⟩ <;> decide +kernel

/-! ### Hypotheses that can be met: NMT, the mailbox, and the host -/

/-- A halted card with an open step, and one asleep. -/
def haltedCard : State := { job with keep := { job.keep with dev := .halted } }
def asleep : State := { card with keep := { card.keep with dev := .asleep, sleptFrom := .idle } }

/-- A card whose TPDO 0 is enabled and mapped, sent on its event timer. -/
def tpdoCard : State :=
  let s := card
  withVal 0x1800 1 (leBytes 4 0x181) (withVal 0x1800 2 [0xFF] (withVal 0x1800 3 [0, 0] (withVal 0x1800 5 [100, 0] (withVal 0x1A00 0 [1] s))))

def hosted (f : HostSt → HostSt) : State := { card with host := f card.host }

/-- A card whose keeper runs in boot: after a trip, in recovery, on 3.3 Vaux alone, and in the middle of a boot. -/
def inBoot (f : KeeperSt → KeeperSt) (booting recovery : Bool) : State :=
  { card with keep := f { card.keep with dev := .boot }, boot := { card.boot with booting := booting, recovery := recovery } }

/-- A card in MIRROR SERVICE (R360). -/
def serving : State := { haltedCard with keep := { haltedCard.keep with mirror := true } }

theorem witness_NmtMailboxAndTowpath :
    (NmtTaken job ∧ job.keep.dev = .running) ∧ (NmtTaken card ∧ card.keep.dev = .idle) ∧
    (NmtTaken planned ∧ planned.keep.dev = .planLoaded ∧ mayStart planned = true ∧ Quiet planned) ∧
    (NmtTaken planned ∧ planned.plan.active = some 1 ∧ planned.dict.awaiting = [] ∧
      mayStart { planned with led := { planned.led with st := .lost } } = false) ∧
    (NmtTaken haltedCard ∧ haltedCard.keep.dev = .halted ∧ haltedCard.fab.recorded = [] ∧ haltedCard.led.st = .opened) ∧ keeperOn State.reset = false ∧
    (keeperOn serving = true ∧ serving.keep.mirror = true ∧ serving.keep.dev = .halted) ∧
    (keeperOn asleep = true ∧ asleep.keep.dev = .asleep ∧ asleep.keep.sleptFrom = .idle ∧
      ∃ c ∈ [Instr.startRemoteNode, .stopRemoteNode, .enterPreOperational, .resetNode], c = .resetNode) ∧
    ((∀ s ∈ [inBoot (fun k => { k with tripped := true }) false false, inBoot id false true], keeperOn s = true ∧ s.keep.dev = .boot ∧
        HeldInBoot s ∧ s.keep.v48 = true) ∧
      keeperOn (inBoot (fun k => { k with v48 := false }) false false) = true ∧ HeldInBoot (inBoot (fun k => { k with v48 := false }) false false) ∧
      keeperOn (inBoot id true false) = true ∧ ¬ HeldInBoot (inBoot id true false)) ∧
    (TpdoMay tpdoCard (0 : Fin 8).val ∧ num tpdoCard (0x1800 + (0 : Fin 8).val) 2 = 0xFF ∧ num tpdoCard (0x1800 + (0 : Fin 8).val) 5 ≠ 0 ∧
      tpdoCard.keep.dev ≠ .boot) ∧
    (barOpen card = true ∧ card.host.busy = false ∧ 1 ≤ bits (0x8FFFF : W32).toNat 22 16 ∧ bits (0x8FFFF : W32).toNat 22 16 ≤ 64 ∧
      bits (0x8FFFF : W32).toNat 15 0 = 0xFFFF ∧ bits (0x400000 : W32).toNat 22 16 = 64 ∧ bits (0x400000 : W32).toNat 15 0 = cardId card) ∧
    (barOpen (torus card) = true ∧ (torus card).host.busy = false ∧ bits (0x80001 : W32).toNat 22 16 = 8 ∧
      bits (0x80001 : W32).toNat 15 0 ≠ 0xFFFF ∧ bits (0x80001 : W32).toNat 15 0 ≠ cardId (torus card) ∧
      pathServes (torus card) .mailbox = true ∧ (torus card).keep.dev ≠ .boot ∧ fabricTrained (torus card) = true ∧
      ∃ u, laneForm (.writeAll 0x2011 []) = some u) ∧
    (bits (0 : W32).toNat 22 16 = 0 ∧ 64 < bits (0x410000 : W32).toNat 22 16 ∧ pathServes card .mailbox = true ∧
      idxServed card .mailbox (0x2011 : BitVec 16).toNat = true) ∧
    ((hosted fun (h : HostSt) => { h with busy := true }).host.busy = true ∧ card.host.fwd = none ∧
      (hosted fun (h : HostSt) => { h with fwd := some 1 }).host.fwd ≠ none ∧ acc.src.route = .mailbox ∧
      (hosted fun (h : HostSt) => { h with fwd := some 5 }).host.fwd = some (hdr 1).src.toNat ∧
      RouteAnswers (hosted fun (h : HostSt) => { h with fwd := some 5 }) .mailbox ∧
      ¬ RouteAnswers (withVal 0x2022 2 [0] (hosted fun (h : HostSt) => { h with fwd := some 5 })) .mailbox ∧
      Fresh (hosted fun (h : HostSt) => { h with fwd := some 5 }) (hdr 1) 1) ∧
    (¬ Fresh (heard card (hdr 1)) (hdr 1) 1 ∧ ¬ Fresh card (hdr 2) 1 ∧ Fresh (torus card) (hdr 1) 1 ∧ pathServes (torus card) .towpath = true) ∧
    (∃ bs, readValue card (0x2011 : BitVec 16).toNat none = .ok bs) ∧
    (pathServes card acc.path = true ∧ idxServed card acc.path 0x2011 = true) := by
  unfold NmtTaken TpdoMay Fresh HeldInBoot RouteAnswers
  refine ⟨?_, ?_, ⟨?_, ?_, ?_, quiet_planned⟩, ?_, ?_, ?_, ?_, ⟨?_, ?_, ?_, .resetNode, ?_, rfl⟩, ⟨?_, ?_, ?_, ?_, ?_⟩, ?_, ?_,
    ⟨?_, ?_, ?_, ?_, ?_, ?_, ?_, ?_, _, rfl⟩, ?_, ?_, ?_, ok_of ?_, ?_⟩ <;> decide +kernel

/-- A host-linked card with a barge in basin, its four snapshots open where `full`. -/
def windowed (f : HostSt → HostSt) (full : Bool) : State :=
  let s := basin (hosted f)
  if full then { s with mem := { s.mem with snaps := [(0, { state := 2 }), (1, { state := 2 }), (2, { state := 2 }), (3, { state := 2 })] } } else s

def plainWindow : State := windowed id false

/-- An event for the host. -/
def event0 : Event := { typ := 0x13, sev := 0, source := 0, eseq := 1, step := 0, detail := 0 }

theorem witness_HostRegistersAndWindow :
    (barOpen State.reset = false ∧ barOpen card = true ∧ (zeros 8).length = 8) ∧
    ((2 : Nat) ≠ 4 ∧ (2 : Nat) ≠ 8 ∧ ¬ (0x0100 ≤ (0 : BitVec 16).toNat ∧ (0 : BitVec 16).toNat < 0x0140) ∧
      (0x0180 : Nat) ≤ 0x0202 ∧ (0x0202 : Nat) < 0x0700 ∧ ¬ (((4 : Nat) = 4 ∨ (4 : Nat) = 8) ∧ 0x0202 % 4 = 0)) ∧
    ((windowed (fun (h : HostSt) => { h with winmode := true, winsnap := some 0 }) false).host.winmode = true ∧
      barOpen (windowed (fun (h : HostSt) => { h with winmode := true, winsnap := some 0 }) false) = true ∧
      (windowed (fun (h : HostSt) => { h with winmode := true, winsnap := some 0 }) false).host.winsnap = some 0 ∧
      barOpen (windowed id true) = true ∧ (windowed id true).host.winmode = false ∧ freeSnap (windowed id true) = none ∧
      barOpen plainWindow = true ∧ plainWindow.host.winmode = false ∧ freeSnap plainWindow = some 0) ∧
    (memReady plainWindow (plainWindow.host.winbase + (0 : BitVec 29).toNat) 4 = true ∧
      Readable plainWindow (plainWindow.host.winbase + (0 : BitVec 29).toNat) 4) ∧
    (barOpen { card with boot := { card.boot with phases := [1, 2] } } = true ∧
      memReady { card with boot := { card.boot with phases := [1, 2] } } 0 4 = false) ∧
    memReady plainWindow (plainWindow.host.winbase + (0 : BitVec 29).toNat) [1#8].length = true ∧
    Writable plainWindow (plainWindow.host.winbase + (0 : BitVec 29).toNat) [1#8].length ∧
    (since32 (0 : W32).toNat card.host.ringget ≤ card.plan.plan.ringSlots ∧ since32 (0 : W32).toNat card.host.ringput ≤ card.plan.plan.ringSlots ∧
      ¬ (since32 (0xFFFFFFFF : W32).toNat card.host.ringget ≤ card.plan.plan.ringSlots ∧
        since32 (0xFFFFFFFF : W32).toNat card.host.ringput ≤ card.plan.plan.ringSlots)) ∧
    (card.host.hostseq ≤ (0 : W64).toNat ∧ (0 : W64).toNat ≤ card.host.olseq ∧
      ¬ (card.host.hostseq ≤ (1 : W64).toNat ∧ (1 : W64).toNat ≤ card.host.olseq)) ∧
    (card.host.events = [] ∧ (hosted fun (h : HostSt) => { h with events := [event0] }).host.events = [event0] ∧
      (hosted fun (h : HostSt) => { h with events := [event0] }).host.lost = 0 ∧
      barOpen (hosted fun (h : HostSt) => { h with events := [event0], lost := 3 }) = true ∧
      (hosted fun (h : HostSt) => { h with events := [event0], lost := 3 }).host.lost ≠ 0) ∧
    (card.host.up = true ∧ card.host.down = false) := by
  refine ⟨?_, ?_, ?_, ⟨?_, ⟨?_, ?_, ?_⟩⟩, ?_, ?_, writable ?_ ?_ ?_ ?_ ?_ ?_ ?_, ?_, ?_, ?_, ?_⟩ <;> decide +kernel

/-- The command queue holds an entry that has not started. -/
def queued : State := windowed (fun h => { h with cqbase := 4096, cqtail := 1 }) false

/-- A command in progress, and a write that waits for it. -/
def cmd0 : Cmd := { count := 0, op := 4, flag := true, intr := false, tag := 1, status := 0, faddr := 16, haddr := 0, daddr := 0, len := 0 }
def write0 : HostWr := { kind := 1, addr := 0, data := [1], ref := 0 }

def opEntry (op len : Nat) : BitVec 512 := BitVec.ofNat 512 (op + len * 2 ^ 192)

theorem witness_HostCommandQueue :
    (barOpen card = true ∧ since32 (1 : W32).toNat card.host.cqdone ≤ card.host.cqsize ∧
      card.host.cqsize < since32 (0xFFFFFFFF : W32).toNat card.host.cqdone) ∧
    (Starts queued 0 (opEntry 0 0) ∧ Starts queued 3 (opEntry 3 0) ∧ Starts queued 4 (opEntry 4 0) ∧ mayStartCmd queued = true ∧
      entryOp (BitVec.ofNat 512 (4 + 2 ^ 32)).toNat = 4 ∧ entryValid (BitVec.ofNat 512 (4 + 2 ^ 32)).toNat = false ∧
      mayStartCmd card = false) ∧
    (Starts queued 1 (opEntry 1 64) ∧ queued.boot.phases.contains 5 = true ∧ queued.boot.recovery = false ∧
      (zeros 64).length = (entryCmd queued.host.cqnext (opEntry 1 64).toNat).len ∧
      Writable queued (entryCmd queued.host.cqnext (opEntry 1 64).toNat).daddr (entryCmd queued.host.cqnext (opEntry 1 64).toNat).len) ∧
    (Starts queued 2 (opEntry 2 64) ∧ bit (opEntry 2 64).toNat 5 = false ∧
      Readable queued (entryCmd queued.host.cqnext (opEntry 2 64).toNat).daddr (entryCmd queued.host.cqnext (opEntry 2 64).toNat).len ∧
      (entryCmd queued.host.cqnext (opEntry 2 64).toNat).len ≠ 0) ∧
    (Starts queued 2 (opEntry 34 64) ∧ bit (opEntry 34 64).toNat 5 = true ∧ queued.host.winst < 2) ∧
    (card.host.cmds = [] ∧ (hosted fun (h : HostSt) => { h with cmds := [cmd0] }).host.cmds = [cmd0] ∧
      (∃ w ∈ (hosted fun (h : HostSt) => { h with cmds := [cmd0], waitWr := [write0] }).host.waitWr, w.kind = 1 ∧ w.ref = cmd0.count) ∧
      (∀ w ∈ (hosted fun (h : HostSt) => { h with cmds := [cmd0] }).host.waitWr, w.kind = 1 → w.ref ≠ cmd0.count) ∧
      cmd0.flag = true ∧ cmd0.faddr % 16 = 0 ∧ ({ cmd0 with flag := false } : Cmd).intr = false) ∧
    (mayWriteHost State.reset = false ∧ mayWriteHost card = true ∧ card.host.waitWr = [] ∧
      mayWriteHost (hosted fun (h : HostSt) => { h with waitWr := [write0] }) = true ∧ write0.mine = false) := by
  unfold Starts
  refine ⟨?_, ?_, ⟨?_, ?_, ?_, ?_, writable ?_ ?_ ?_ ?_ ?_ ?_ ?_⟩, ⟨?_, ?_, ⟨?_, ?_, ?_⟩, ?_⟩, ?_, ?_, ?_⟩ <;> decide +kernel

theorem witness_HostInterfaceReset :
    (card.keep.v48 = true ∧ card.host.down = false ∧ State.reset.keep.v48 = false ∧ State.reset.host.down = true) ∧
    (pciePowered (hosted fun (h : HostSt) => { h with down := true, cause := 2 }) = true ∧
      (hosted fun (h : HostSt) => { h with down := true, cause := 2 }).host.cause ≠ 0 ∧
      (hosted fun (h : HostSt) => { h with down := true, cause := 2 }).host.events = []) ∧
    pciePowered card = true ∧ pciePowered State.reset = false ∧
    ((3 : Fin 4) = 3 ∧ (16 : BitVec 5) = 16 ∧ ¬ ((17 : BitVec 5) = 16 ∨ (17 : BitVec 5) = 8 ∨ (17 : BitVec 5) = 4)) := by
  decide +kernel

/-! ### Hypotheses that can be met: the keeper, boot and firmware -/

/-- A cool sample, and cards without 48 V, with and without 3.3 Vaux. -/
def coolRead : Readings :=
  { logic := List.replicate 16 60, stackT := List.replicate 8 85, iodie := 119, inlet := 15, outlet := 45, regulator := 60, volts := 480,
    mr4 := List.replicate 32 0, overruns := 1, wakes := 2, awake := 3 }
def dark (va : Bool) : State := { State.reset with keep := { State.reset.keep with v48 := false, vaux := va, present := true } }

/-- A card asleep with its plan. -/
def sleepingPlan : State := { planned with keep := { planned.keep with dev := .asleep, sleptFrom := .planLoaded } }

theorem witness_KeeperPowerAndCard :
    keeperOn State.reset = false ∧
    ((dark true).keep.v48 = false ∧ (dark true).keep.vaux = true ∧ (dark true).fab.recAsk = []) ∧
    (card.keep.v48 = true ∧ card.fab.recAsk = [] ∧ (∀ v ∈ coolRead.logic, v.toNat < 110) ∧ (∀ v ∈ coolRead.stackT, v.toNat ≤ 85) ∧ coolRead.iodie.toNat < 120 ∧
      15 ≤ coolRead.inlet.toNat ∧ coolRead.inlet.toNat ≤ 45) ∧
    (diesOn card = true ∧ 110 ≤ (119 : BitVec 8).toNat ∧ (119 : BitVec 8).toNat < 120 ∧ card.keep.forced.contains ((15 : Fin 16).val / 4) = false ∧
      120 ≤ (120 : BitVec 8).toNat ∧ card.keep.tripped = false ∧
      ({ card with keep := { card.keep with tripped := true } } : State).keep.tripped = true) ∧
    ((dark true).keep.v48 = false ∧ (0 : BitVec 16).toNat ≤ num card 0x2104 1 ∧ num card 0x2104 1 < (0xFFFF : BitVec 16).toNat ∧
      hottestDie card = some 0) ∧
    (jobRuns job = true ∧ diesOn (dark true) = false ∧ jobRuns card = false) ∧
    (Takes card acc 0x2100 1 ∧ maySleep card = true ∧ Takes job acc 0x2100 1 ∧ maySleep job = false ∧ Takes asleep acc 0x2100 1 ∧
      asleep.keep.dev = .asleep ∧ asleep.keep.sleptFrom = .idle ∧ sleepingPlan.keep.dev = .asleep ∧ sleepingPlan.plan.active = some 1 ∧ asleep.dict.awaiting = [] ∧ card.keep.dev ≠ .asleep) ∧
    (num (withVal 0x2100 2 [60, 0] card) 0x2100 2 ≠ 0 ∧ maySleep (withVal 0x2100 2 [60, 0] card) = true) ∧
    (fabricTrained (torusJob) = true ∧ torusJob.plan.active ≠ none ∧ ({ card with boot := { card.boot with fw := true } } : State).boot.fw = true ∧ planned.keep.dev = .planLoaded) ∧
    ((379 : BitVec 16).toNat < 380 ∧ 380 ≤ (380 : BitVec 16).toNat ∧ card.keep.vaux = true ∧ (dark true).keep.present = true ∧
      400 < (401 : BitVec 16).toNat ∧ (400 : BitVec 16).toNat ≤ 400) ∧
    ((dark false).keep.v48 = false ∧ (dark false).keep.vaux = false ∧
      ({ card with keep := { card.keep with vaux := false } } : State).keep.vaux = false) ∧
    (keeperOn card = true ∧ Takes card acc 0x2140 2 ∧ (3600 : BitVec 16).toNat ≤ 3600 ∧ 3600 < (3601 : BitVec 16).toNat) := by
  unfold Takes
  refine ⟨?_, ?_, ?_, ?_, ?_, ?_, ?_, ?_, ?_, ?_, ?_, ?_⟩ <;> decide +kernel

/-- A card in boot with these phases done, its slot A confirmed with the image where `ok`. -/
def bootCard (ps : List Nat) (ok : Bool) : State :=
  { card with
    strap := { card.strap with rootHash := rootHash0 }
    keep := { card.keep with dev := .boot }
    boot := { card.boot with booting := true, phases := ps, slotRun := none, revoke := 0, svn := 0, next := false,
                             slotA := if ok then { state := 4, image := fwImage } else { state := 5 }, slotB := {} } }

def report : BootReport :=
  { flashOk := true, ms := 0, badStacks := [], badGroups := [], badUnits := [], passedRetest := [], rowsFixed := [] }

/-- The cells of these bytes from a key on. -/
def cellsOf : Nat → Bytes → List Host.Cell
  | _, [] => []
  | k, b :: bs => if b = memDefault then cellsOf (k + 1) bs else (k, b) :: cellsOf (k + 1) bs

theorem cellsOf_below (bs : Bytes) : ∀ k a, a < k → Sparse.get memDefault (cellsOf k bs) a = memDefault := by
  induction bs with
  | nil => intro k a _; rfl
  | cons b bs ih =>
    intro k a h
    unfold cellsOf
    split
    · exact ih _ _ (by omega)
    · simp only [Sparse.get, show k ≠ a by omega, if_false]
      exact ih _ _ (by omega)

theorem cellsOf_get (bs : Bytes) : ∀ k i, Sparse.get memDefault (cellsOf k bs) (k + i) = bs.getD i memDefault := by
  induction bs with
  | nil => intro k i; simp [cellsOf]
  | cons b bs ih =>
    intro k i
    unfold cellsOf
    cases i with
    | zero =>
      split
      · rename_i h
        rw [cellsOf_below _ _ _ (by omega), h]
        rfl
      · simp [Sparse.get]
    | succ i =>
      have h := ih (k + 1) i
      rw [show k + 1 + i = k + (i + 1) by omega] at h
      split
      · simpa using h
      · simp only [Sparse.get, show k ≠ k + (i + 1) by omega, if_false]
        simpa using h

/-- A card with an image at device address 0. -/
def holding (img : Bytes) : State :=
  let s := basin card
  { s with strap := { s.strap with rootHash := rootHash0 }, boot := { s.boot with revoke := 0, svn := 0 },
           mem := { s.mem with cells := cellsOf (2 * bargeBytes) img } }

theorem holding_byte (img : Bytes) (i : Nat) (h : i < 2097152) : devByte (holding img) i = img.getD i memDefault := by
  have hB : bargeBytes = 2097152 := rfl
  have b0 : barge (holding img) 0 = inBasin := barge_basin _ rfl rfl
  have hx : i / bargeBytes = 0 := by rw [hB]; omega
  unfold devByte
  rw [place_basin _ b0 i hx, hx, b0, show i % bargeBytes = i by rw [hB]; omega]
  exact cellsOf_get img _ i

theorem holding_read (img : Bytes) (n : Nat) (h : n ≤ img.length) (h2 : n ≤ 2097152) : devBytes (holding img) 0 n = img.take n := by
  unfold devBytes
  apply List.ext_getElem
  · rw [List.length_map, List.length_range, List.length_take, Nat.min_eq_left h]
  · intro i h3 h4
    have h3 : i < n := by rw [List.length_map, List.length_range] at h3; exact h3
    rw [List.getElem_map, List.getElem_range, List.getElem_take, Nat.zero_add, holding_byte _ _ (by omega)]
    exact List.getD_eq_getElem _ _ _

/-- Whether the first bytes can be read, whatever they are. -/
theorem holding_image (img : Bytes) (n : Nat) (h : n ≤ img.length) (h2 : n = 512 ∨ n = 640 ∨ n = 1152) :
    readImage (0 : BitVec 64).toNat n (holding img) = .ok (holding img) (img.take n) := by
  have h3 : n ≤ 2097152 := by omega
  have ok : rangeBacked (holding []) 0 n = true ∧ rangeGroupBad (holding []) 0 n = none ∧
      (blocksOf 0 n).find? (blockBad (holding [])) = none ∧ directBytes (holding []) 0 n = 0 := by
    rcases h2 with h2 | h2 | h2 <;> subst h2 <;> decide +kernel
  have e1 : rangeBacked (holding img) 0 n = true := ok.1
  have e2 : rangeGroupBad (holding img) 0 n = none := ok.2.1
  have e3 : (blocksOf 0 n).find? (blockBad (applyEcc .clean (holding img))) = none := ok.2.2.1
  have e4 : directBytes (applyEcc .clean (holding img)) 0 n = 0 := ok.2.2.2
  have r1 : (holding img).boot.recovery = false := rfl
  have r2 : (holding img).boot.phases = [1, 2, 3, 4, 5, 6, 7, 8] := rfl
  have hb : devBytes (applyEcc .clean (holding img)) 0 n = img.take n := holding_read img n h h3
  unfold readImage readDev
  rw [r1, r2, if_neg (fun h => h.elim (fun h => Bool.noConfusion h.1) (fun h => absurd h.2 (by decide))), show (0 : BitVec 64).toNat = 0 from rfl, if_neg (by rw [e1]; decide), e2]
  dsimp only
  rw [e3]
  dsimp only
  rw [e4, if_pos rfl, hb]
  rfl

/-- A header that says 640 bytes and is of no image. -/
def wrongImage : Bytes := zeros 20 ++ leBytes 4 640 ++ zeros 616

def slotted (a b : Nat) : State := { card with boot := { card.boot with slotA := { state := a }, slotB := { state := b } } }

theorem slot_image : (getSlot (bootCard [1] true) 0).image = fwImage := by
  unfold bootCard getSlot
  rfl

theorem slot_verifies : verify (bootCard [1] true) (getSlot (bootCard [1] true) 0).image = 0 := by
  rw [slot_image]
  apply fw_verifies <;> unfold bootCard <;> rfl

theorem held_verifies : verify (holding fwImage) fwImage = 0 := by
  apply fw_verifies <;> unfold holding <;> rfl

theorem fw_len : fwImage.length = 1152 := by decide +kernel

theorem fw_take : fwImage.take 1152 = fwImage := List.take_of_length_le (by rw [fw_len])

theorem wrong_len : wrongImage.length = 640 := by decide +kernel

theorem wrong_take : wrongImage.take 640 = wrongImage := List.take_of_length_le (by rw [wrong_len])

theorem reads_fw : readImage (0 : BitVec 64).toNat 1152 (holding fwImage) = .ok (holding fwImage) fwImage := by
  rw [holding_image _ _ (by rw [fw_len]) (by omega), fw_take]

theorem reads_wrong : readImage (0 : BitVec 64).toNat 640 (holding wrongImage) = .ok (holding wrongImage) wrongImage := by
  rw [holding_image _ _ (by rw [wrong_len]) (by omega), wrong_take]

/-- A read that finds no memory, and one that meets a damaged block. -/
def outside : MemOut → Bool
  | .notBacked _ => true
  | _ => false
def damaged : MemOut → Bool
  | .failed _ => true
  | _ => false

theorem outside_of {x : MemOut} (h : outside x = true) : ∃ u, x = .notBacked u := by
  cases x with
  | notBacked u => exact ⟨u, rfl⟩
  | ok s b => exact absurd h (by simp [outside])
  | failed s => exact absurd h (by simp [outside])

theorem damaged_of {x : MemOut} (h : damaged x = true) : ∃ u, x = .failed u := by
  cases x with
  | failed u => exact ⟨u, rfl⟩
  | ok s b => exact absurd h (by simp [damaged])
  | notBacked s => exact absurd h (by simp [damaged])

/-- Its first block is damaged. -/
def scratched : State := { holding [] with mem := { (holding []).mem with badBlk := [basinKey 2 0 / 64] } }

/-- A card in boot whose repair map has two copies. -/
def oneMap : State :=
  let s := bootCard [1, 2] true
  { s with boot := { s.boot with flash := { s.boot.flash with maps := ({ gen := 3 }, { gen := 2 }) } } }

theorem witness_BootFirmwareAndTrust :
    (card.boot.booting = false ∧ (phaseDeps (8 : Fin 9).val).any (fun d => !(bootCard [1] true).boot.phases.contains d) = true) ∧
    ((bootCard [] true).boot.booting = true ∧ (bootCard [] true).boot.phases.contains 1 = false ∧
      (phaseDeps 1).any (fun d => !(bootCard [] true).boot.phases.contains d) = false ∧ report.flashOk = true ∧
      FlashFound (bootCard [] true) report ∧ ¬ FlashFound { bootCard [] true with strap := { (bootCard [] true).strap with flashSize := 134217727 } } report ∧
      report.loadBad = false ∧ report.badCopies = [] ∧ ({ report with loadBad := true } : BootReport).loadBad = true ∧
      ({ bootCard [1] true with boot := { (bootCard [1] true).boot with slotRun := some 0 } } : State).boot.slotRun = some 0 ∧
      ({ report with flashOk := false } : BootReport).flashOk = false) ∧
    ((bootCard [1, 2] true).boot.phases.contains 3 = false ∧ (phaseDeps 3).any (fun d => !(bootCard [1, 2] true).boot.phases.contains d) = false ∧
      ({ report with badCopies := [(1, 0)] } : BootReport).badCopies = [(1, (0 : Fin 2))] ∧ oneMap.boot.flash.maps.2.gen ≠ 0 ∧
      oneMap.boot.flash.maps.1.gen = nextGen oneMap.boot.flash.maps.2.gen) ∧
    ((∀ p ∈ [2, 3, 4, 5, 6, 7, 8], (bootCard (List.range p) true).boot.phases.contains p = false ∧
      (phaseDeps p).any (fun d => !(bootCard (List.range p) true).boot.phases.contains d) = false)) ∧
    ((0 = if (bootCard [1] true).boot.next = true then 1 else 0) ∧ (getSlot (bootCard [1] true) 0).state = 4 ∧
      verify (bootCard [1] true) (getSlot (bootCard [1] true) 0).image = 0 ∧ (bootCard [1] true).boot.recovery = false) ∧
    (∀ k < 2, (getSlot (bootCard [1] false) k).state < 2 ∨ (getSlot (bootCard [1] false) k).state = 5) ∧
    ((bootCard [5] true).units.owed = [] ∧ report.badUnits = [] ∧ ∀ q ∈ (bootCard [5] true).boot.repair, q.typ ≠ 1) ∧
    (Takes card acc 0x2200 6 ∧ card.keep.dev = .idle ∧ Takes job acc 0x2200 6 ∧ job.keep.dev ≠ .idle) ∧
    (Takes card acc 0x2210 1 ∧ ({ card with boot := { card.boot with staging := some 1 } } : State).boot.staging ≠ none ∧
      (∃ u, readImage (0 : BitVec 64).toNat 512 { card with boot := { card.boot with phases := [1, 2] } } = .notBacked u) ∧
      (∃ u, readImage (0 : BitVec 64).toNat 512 scratched = .failed u) ∧ card.boot.staging = none) ∧
    (readImage (0 : BitVec 64).toNat 512 (holding wrongImage) = .ok (holding wrongImage) (wrongImage.take 512) ∧ imgLength (wrongImage.take 512) = 640 ∧
      readImage (0 : BitVec 64).toNat 640 (holding wrongImage) = .ok (holding wrongImage) wrongImage ∧ verify (holding wrongImage) wrongImage ≠ 0) ∧
    (readImage (0 : BitVec 64).toNat 512 (holding fwImage) = .ok (holding fwImage) (fwImage.take 512) ∧ imgLength (fwImage.take 512) = 1152 ∧
      readImage (0 : BitVec 64).toNat 1152 (holding fwImage) = .ok (holding fwImage) fwImage ∧ verify (holding fwImage) fwImage = 0 ∧
      Takes (holding fwImage) acc 0x2210 1 ∧ (holding fwImage).boot.staging = none) ∧
    (Takes card acc 0x2210 3 ∧ (getSlot (slotted 4 1) (0 : BitVec 8).toNat).state = 4 ∧
      (getSlot (slotted 4 1) (1 : BitVec 8).toNat).state ≠ 2 ∧ (getSlot (slotted 4 1) 1).state ≠ 4 ∧
      1 < (2 : BitVec 8).toNat) ∧
    (Takes card acc 0x2210 4 ∧ trialSlot (slotted 4 0) = none ∧ trialSlot (slotted 4 3) = some 1) ∧
    (pathServes card acc.path = true ∧ idxServed card acc.path 0x2224 = true ∧ card.boot.phases.contains 4 = true ∧
      pathServes { card with boot := { card.boot with phases := [] } } acc.path = true ∧ idxServed card acc.path 0x3C11 = true) := by
  unfold Takes
  unfold FlashFound
  refine ⟨?_, ?_, ?_, ?_, ⟨?_, ?_, slot_verifies, ?_⟩, ?_, ?_, ?_, ⟨?_, ?_, outside_of ?_, damaged_of ?_, ?_⟩, ⟨holding_image _ _ (by rw [wrong_len]; decide) (by omega), ?_, reads_wrong, ?_⟩,
    ⟨holding_image _ _ (by rw [fw_len]; decide) (by omega), ?_, reads_fw, held_verifies, ?_, ?_⟩, ?_, ?_, ?_⟩ <;>
    decide +kernel

/-! ### Ill-formed commands: every check refuses one -/

def shortFlit : Flit := { hdr := 0, payload := zeros 223, crc := 0, fecOk := true }

theorem test_wf_messages :
    (Instr.usdoSegment acc 0 .more (List.replicate 16777217 0) true).wf = false ∧ (Instr.batchRowArrival 0 [] 0).wf = false ∧
    (Instr.stepm 1 { meas0 with stackT := zeros 8, logic := zeros 15 }).wf = false ∧
    (Instr.stepm 1 { meas0 with stackT := zeros 7, logic := zeros 16 }).wf = false ∧
    (Instr.sensorSample { coolRead with logic := [] }).wf = false ∧ (Instr.sensorSample { coolRead with stackT := [] }).wf = false ∧
    (Instr.bootPhaseDone 0 report).wf = false ∧ (Instr.linkReturn 3 17 true {}).wf = false ∧
    (Instr.sensorSample { coolRead with mr4 := [] }).wf = false := by
  refine ⟨?_, ?_, ?_, ?_, ?_, ?_, ?_, ?_, ?_⟩
  · simp only [Instr.wf, List.length_replicate]
    decide
  all_goals decide +kernel

theorem test_wf_flits :
    (Instr.nullFlit 0 shortFlit).wf = false ∧ (Instr.writeFlit 0 shortFlit).wf = false ∧ (Instr.readRequest 0 shortFlit .clean).wf = false ∧
    (Instr.readResponse 0 shortFlit).wf = false ∧ (Instr.writeAcknowledge 0 shortFlit).wf = false ∧
    (Instr.linkControl 0 shortFlit card1).wf = false ∧ (Instr.multicastData 0 shortFlit).wf = false ∧ (Instr.nullFlit 0 nullF).wf = true := by
  decide +kernel

theorem test_wf_host :
    (Instr.registerWrite ⟨0, 4, zeros 8⟩).wf = false ∧ (Instr.registerWrite ⟨0, 0, []⟩).wf = false ∧
    (Instr.registerWrite ⟨0, 65, zeros 65⟩).wf = false ∧ (Instr.winbaseWrite ⟨0x0208, 8, zeros 8⟩).wf = false ∧
    (Instr.windowRead 0 0 .clean).wf = false ∧ (Instr.windowRead 0 4097 .clean).wf = false ∧ (Instr.windowWrite 0 []).wf = false ∧
    (Instr.noOpCommand (opEntry 1 0)).wf = false ∧ (Instr.hostToDevice (opEntry 2 0) [] false).wf = false ∧
    (Instr.deviceToHost (opEntry 3 0) .clean).wf = false ∧ (Instr.fence (opEntry 4 0)).wf = false ∧ (Instr.flagOnly (opEntry 0 0)).wf = false := by
  decide +kernel

/-! ### No word spells a command; an empty queue idles -/

theorem test_no_word (n w : Nat) : decodeTableWord n w = none ∧ State.reset.withFetchWord n w = State.reset := ⟨rfl, rfl⟩

theorem test_idle : Sys2Proof.core.step Sys2Proof.core.reset = .next State.reset := rfl

/-! ### Worked examples of the spec -/

/-- The first example of 01: logical unit 21 is on physical unit 23 once phase 6 has passed its units. -/
theorem test_logical_unit_21 : (physUnit (after (.bootPhaseDone 6 report) (bootCard [1, 2, 3, 4, 5] true)) 21) = some 23 := by decide +kernel

/-- Conversions by bit pattern (04). -/
theorem test_convert_bf16 :
    bf16.convert .rne false (fp32.decode 0x3F808000) = (0x3F80, {}) ∧ bf16.convert .rne false (fp32.decode 0x3F818000) = (0x3F82, {}) ∧
    bf16.convert (.sr 0x7FFF) false (fp32.decode 0x3F808000) = (0x3F81, {}) ∧ bf16.convert (.sr 0x8000) false (fp32.decode 0x3F808000) = (0x3F80, {}) ∧
    bf16.convert (.sr 0) false (fp32.decode 0x3F800001) = (0x3F81, {}) ∧ bf16.convert (.sr 1) false (fp32.decode 0x3F800001) = (0x3F80, {}) := by
  decide +kernel

theorem test_convert_fp8 :
    e4m3.convert .rne false (fp32.decode 0x43E08000) = (0x7E, {}) ∧ e4m3.convert .rne false (fp32.decode 0x43E80000) = (0x7E, {}) ∧
    e4m3.convert .rne true (fp32.decode 0x43E88000) = (0x7E, Tally.satOne) ∧ e4m3.convert .rne false (fp32.decode 0x43E88000) = (0x7F, Tally.nonfinOne) ∧
    e4m3.convert (.sr 0x5FFF) false (fp32.decode 0x43E60000) = (0x7E, Tally.satOne) ∧ e4m3.convert (.sr 0x6000) false (fp32.decode 0x43E60000) = (0x7E, {}) ∧
    e5m2.convert .rne false (fp32.decode 0x47700000) = (0x7C, Tally.nonfinOne) ∧ e5m2.convert .rne true (fp32.decode 0x47700000) = (0x7B, Tally.satOne) ∧
    fp16.convert .rne false (fp32.decode 0x33000000) = (0, Tally.underOne) ∧ fp16.convert .rne false (fp32.decode 0x33000001) = (1, {}) := by
  decide +kernel

/-- The pan rounding of 04: 1 − 5 × 2^-40 in W48. -/
theorem test_pan_rounding : (w48.convert .rne false (.fin false (2 ^ 40 - 5) (-40))).1 = 0x3FDFFFFFFFFF := by decide +kernel

/-- The held E4M3 block of 04 whose largest input stays at 60 (T = 5). -/
theorem test_held_block :
    Held.note ⟨0x7C, 255, false⟩ 5 (some 5) true = ⟨0x7C, 0x7C, true⟩ ∧ Held.commit ⟨0x7C, 0x7C, true⟩ = ⟨0x7D, 255, false⟩ ∧
    Held.commit (Held.note ⟨0x7D, 255, false⟩ 5 (some 5) false) = ⟨0x7C, 255, false⟩ := by decide +kernel

/-- Heat on one die over four steps (13): the code of die 2 (0 is 1.1 GHz), and stacks 4 and 5 doubled or not. -/
theorem test_heat :
    nextCode (num card) 0 97 81 = 0 ∧ nextCode (num card) 0 101 84 = 1 ∧ nextCode (num card) 1 93 79 = 1 ∧ nextCode (num card) 1 91 76 = 0 ∧
    nextRefresh (num card) 0 [0, 0, 0, 0, 81, 79] = 0x10 ∧ nextRefresh (num card) 0x10 [0, 0, 0, 0, 84, 80] = 0x30 ∧
    nextRefresh (num card) 0x30 [0, 0, 0, 0, 79, 77] = 0x10 ∧ nextRefresh (num card) 0x10 [0, 0, 0, 0, 76, 75] = 0 := by decide +kernel

/-- Changing the CAN bit rates (02): 250/5,000 fails its cross-check, 250/2,000 passes. -/
def canNode : Access := ⟨.can, ⟨.can, 0, 5⟩⟩
def rates (es : List EntryVal) : State :=
  let s := withVal 0x2021 1 (leBytes 2 500) (withVal 0x2021 2 (leBytes 2 5000) card)
  { s with dict := { s.dict with pset := es, owner := some canNode.src, gen := 17 } }

theorem test_can_rates_refused :
    (after (.commit canNode 17) (rates [⟨0x2021, 1, leBytes 2 250⟩])).out.getLast? = some (.usdoAbort canNode 0x2010 1 0x06040043) ∧
    (after (.commit canNode 17) (rates [⟨0x2021, 1, leBytes 2 250⟩])).dict.failing = 0x00202101 ∧
    (after (.commit canNode 17) (rates [⟨0x2021, 1, leBytes 2 250⟩])).dict.conflict = 0x00202102 := by decide +kernel

theorem test_can_rates_applied :
    num (after (.commit canNode 17) (rates [⟨0x2021, 1, leBytes 2 250⟩, ⟨0x2021, 2, leBytes 2 2000⟩])) 0x2021 1 = 250 ∧
    (after (.commit canNode 17) (rates [⟨0x2021, 1, leBytes 2 250⟩, ⟨0x2021, 2, leBytes 2 2000⟩])).dict.gen = 18 := by decide +kernel

/-! ### Small effects -/

theorem test_identify_blinks : (after (.identify acc 60) card).keep.identEnd = 61440 := by decide +kernel

theorem test_heartbeat_idle :
    (after .producerHeartbeatTimer (withVal 0x1017 0 [0xE8, 0x03] card)).out = [.heartbeat 0x7F] := by decide +kernel

theorem test_flr_keeps_link : (after .flr card).host.up = true ∧ (after .flr card).host.down = true ∧ (after .hotReset card).host.up = false := by
  decide +kernel

theorem test_stage_without_image : (after (.stageImage acc 0) (basin card)).boot.stage = 2 := by decide +kernel

theorem test_wrong_root : verify card wrongImage = 2 := by decide +kernel

theorem test_stop_at_commit :
    (after (.commitMessage (hdr 4) 1 1) { job with led := { job.led with st := .ready, stopPend := true } }).keep.dev = .planLoaded := by decide +kernel


end Sys2Proof.Tests

end Tests
end

section
/-! PROOF. No command changes the strap of a card (O3). Every function of the model that takes a state to a state has one rule
here, `f_same`: where its argument is a state of the card `s₀`, so is its result. The rule of a function that calls others
cites theirs and follows its branches. A command's rule is then read off its meaning, and the step is one command.

A recursion whose branches match on a call of the model is opened as a function (`generalize hf : f = g; delta f at hf`), with
the call put away first (`g_sealed`): applied to a state, the kernel would evaluate the call to compare the two matches. -/

namespace Sys2Proof.Machine

/-- Two states of one card: what is fused, strapped or set at manufacture agrees, and so does the queue of waiting commands. -/
def SameCard (s t : State) : Prop := t.strap = s.strap ∧ t.pending = s.pending

theorem SameCard.refl (s : State) : SameCard s s := ⟨rfl, rfl⟩

variable {s₀ s t : State}

/-- An update of other fields keeps the card. -/
theorem SameCard.update {out dict stat units gates plan mem led fab twin harv host keep boot free} (h : SameCard s₀ s) :
    SameCard s₀ ⟨s.pending, out, s.strap, dict, stat, units, gates, plan, mem, led, fab, twin, harv, host, keep, boot, free⟩ := h

theorem SameCard.ite {c : Prop} [Decidable c] (hs : SameCard s₀ s) (ht : SameCard s₀ t) : SameCard s₀ (if c then s else t) := by
  split
  · exact hs
  · exact ht

theorem SameCard.when {c : Prop} [Decidable c] (ht : SameCard s₀ s → SameCard s₀ t) (h : SameCard s₀ s) :
    SameCard s₀ (if c then t else s) := .ite (ht h) h

theorem SameCard.unless {c : Prop} [Decidable c] (ht : SameCard s₀ s → SameCard s₀ t) (h : SameCard s₀ s) :
    SameCard s₀ (if c then s else t) := .ite h (ht h)

theorem SameCard.foldl {α : Type} {f : State → α → State} {xs : List α} (hf : ∀ s a, SameCard s₀ s → SameCard s₀ (f s a))
    (h : SameCard s₀ s) : SameCard s₀ (xs.foldl f s) := foldl_keeps hf xs s h

theorem SameCard.pair {α : Type} {x : α} (h : SameCard s₀ s) : SameCard s₀ (s, x).1 := h

theorem SameCard.ok {bs : Bytes} (h : SameCard s₀ s) : SameCard s₀ (MemOut.ok s bs).state := h

theorem SameCard.notBacked (h : SameCard s₀ s) : SameCard s₀ (MemOut.notBacked s).state := h

theorem SameCard.failed (h : SameCard s₀ s) : SameCard s₀ (MemOut.failed s).state := h

/-- The card through a call that answers with a state and a value, once the answer is named. -/
theorem SameCard.fst {α : Type} {p : State × α} {x : α} (h : SameCard s₀ p.1) (e : p = (s, x)) : SameCard s₀ s := by
  subst e
  exact h

/-- The card through an answer of memory, once the answer is named. -/
theorem SameCard.out {r r' : MemOut} (h : SameCard s₀ r.state) (e : r = r') : SameCard s₀ r'.state := e ▸ h

theorem SameCard.iteFst {α : Type} {c : Prop} [Decidable c] {p q : State × α} (hp : SameCard s₀ p.1) (hq : SameCard s₀ q.1) :
    SameCard s₀ (if c then p else q).1 := by
  split
  · exact hp
  · exact hq

theorem SameCard.iteOut {c : Prop} [Decidable c] {r q : MemOut} (hr : SameCard s₀ r.state) (hq : SameCard s₀ q.state) :
    SameCard s₀ (if c then r else q).state := by
  split
  · exact hr
  · exact hq

theorem SameCard.foldlFst {α β : Type} {f : State × β → α → State × β} {xs : List α} {p : State × β}
    (hf : ∀ p a, SameCard s₀ p.1 → SameCard s₀ (f p a).1) (h : SameCard s₀ p.1) : SameCard s₀ (xs.foldl f p).1 := by
  induction xs generalizing p with
  | nil => exact h
  | cons x xs ih => exact ih (hf p x h)

/-- The state that an operation leaves, where it leaves one, is of the card. -/
inductive OpRes.Keeps (s₀ : State) : OpRes → Prop
  | ok {s : State} (h : SameCard s₀ s) : Keeps s₀ (.ok s)
  | arrived {s : State} {x : Hold} (h : SameCard s₀ s) : Keeps s₀ (.arrived s x)
  | wait {x : Hold} : Keeps s₀ (.wait x)
  | fault {n : Nat} : Keeps s₀ (.fault n)

theorem OpRes.Keeps.ite {c : Prop} [Decidable c] {r q : OpRes} (hr : r.Keeps s₀) (hq : q.Keeps s₀) : (if c then r else q).Keeps s₀ := by
  split
  · exact hr
  · exact hq

theorem OpRes.Keeps.of_ok {r : OpRes} (h : r.Keeps s₀) (e : r = .ok s) : SameCard s₀ s := by
  subst e
  cases h
  assumption

theorem OpRes.Keeps.of_arrived {r : OpRes} {x : Hold} (h : r.Keeps s₀) (e : r = .arrived s x) : SameCard s₀ s := by
  subst e
  cases h
  assumption

/-- The same of a core's step. -/
inductive Rv.Keeps (s₀ : State) : Rv → Prop
  | done {s : State} {c : CoreSt} (h : SameCard s₀ s) : Keeps s₀ (.done s c)
  | wait : Keeps s₀ .wait
  | trap {n : Nat} : Keeps s₀ (.trap n)
  | unitFault : Keeps s₀ .unitFault

theorem Rv.Keeps.ite {c : Prop} [Decidable c] {r q : Rv} (hr : r.Keeps s₀) (hq : q.Keeps s₀) : (if c then r else q).Keeps s₀ := by
  split
  · exact hr
  · exact hq

theorem Rv.Keeps.of_done {r : Rv} {c : CoreSt} (h : r.Keeps s₀) (e : r = .done s c) : SameCard s₀ s := by
  subst e
  cases h
  assumption

/-- The same of an order to the owner of memory. -/
inductive Owner.Keeps (s₀ : State) : Owner → Prop
  | done {s : State} (h : SameCard s₀ s) : Keeps s₀ (.done s)
  | full : Keeps s₀ .full

theorem Owner.Keeps.ite {c : Prop} [Decidable c] {r q : Owner} (hr : r.Keeps s₀) (hq : q.Keeps s₀) : (if c then r else q).Keeps s₀ := by
  split
  · exact hr
  · exact hq

theorem Owner.Keeps.of_done {r : Owner} (h : r.Keeps s₀) (e : r = .done s) : SameCard s₀ s := by
  subst e
  cases h
  assumption

/-- The same of a read or write in runs. -/
inductive Runs.Keeps (s₀ : State) : Runs → Prop
  | ok {s : State} {bs : Bytes} (h : SameCard s₀ s) : Keeps s₀ (.ok s bs)
  | bad {s : State} {cause addr : Nat} (h : SameCard s₀ s) : Keeps s₀ (.bad s cause addr)

theorem Runs.Keeps.ite {c : Prop} [Decidable c] {r q : Runs} (hr : r.Keeps s₀) (hq : q.Keeps s₀) : (if c then r else q).Keeps s₀ := by
  split
  · exact hr
  · exact hq

theorem Runs.Keeps.of_ok {r : Runs} {bs : Bytes} (h : r.Keeps s₀) (e : r = .ok s bs) : SameCard s₀ s := by
  subst e
  cases h
  assumption

theorem Runs.Keeps.of_bad {r : Runs} {cause addr : Nat} (h : r.Keeps s₀) (e : r = .bad s cause addr) : SameCard s₀ s := by
  subst e
  cases h
  assumption

/-- What an optional outcome holds, if it holds anything, has a property. -/
inductive Holds {α : Type} (P : α → Prop) : Option α → Prop
  | none : Holds P none
  | some {x : α} (h : P x) : Holds P (some x)

theorem Holds.of_some {α : Type} {P : α → Prop} {o : Option α} {x : α} (h : Holds P o) (e : o = Option.some x) : P x := by
  subst e
  cases h
  assumption

/-- A command's meaning answers a next state of the same card. -/
def Answers (s₀ : State) (r : Res) : Prop := ∃ t, r = .next t ∧ SameCard s₀ t

theorem Answers.next (h : SameCard s₀ s) : Answers s₀ (.next s) := ⟨s, rfl, h⟩

/-! ### Counters, events and the state's own operations -/

theorem putVal_same {idx sub : Nat} {bs : Bytes} (h : SameCard s₀ s) : SameCard s₀ (putVal idx sub bs s) := h.update

theorem countBoot_same {idx sub n : Nat} (h : SameCard s₀ s) : SameCard s₀ (countBoot idx sub n s) := h.update

theorem countRun_same {idx sub n : Nat} (h : SameCard s₀ s) : SameCard s₀ (countRun idx sub n s) := h.update

theorem maxRun_same {idx sub n : Nat} (h : SameCard s₀ s) : SameCard s₀ (maxRun idx sub n s) := h.update

theorem send_same {o : Out} (h : SameCard s₀ s) : SameCard s₀ (send o s) := h.update

theorem raiseVec_same {v : Nat} (h : SameCard s₀ s) : SameCard s₀ (raiseVec v s) := .ite h (.ite h.update (send_same h))

theorem flushVecs_same (h : SameCard s₀ s) : SameCard s₀ (flushVecs s) :=
  .foldl (fun _ _ h => .ite (send_same h.update) h) h

theorem logEvent_same {e : Event} (h : SameCard s₀ s) : SameCard s₀ (logEvent e s) := h.update

theorem pushEvent_same {e : Event} (h : SameCard s₀ s) : SameCard s₀ (pushEvent e s) := h.update

theorem enqueue_same {e : Event} (h : SameCard s₀ s) : SameCard s₀ (enqueue e s) := .when raiseVec_same (pushEvent_same h)

theorem noteEvent_same {e : Event} (h : SameCard s₀ s) : SameCard s₀ (noteEvent e s) := .when logEvent_same h.update

theorem postEvent_same {e : Event} (h : SameCard s₀ s) : SameCard s₀ (postEvent e s) :=
  have h₁ := countBoot_same h.update
  .ite h₁ (.ite h₁ (enqueue_same h))

theorem raise_same {typ sev source detail : Nat} (h : SameCard s₀ s) : SameCard s₀ (raise typ sev source detail s) :=
  postEvent_same (noteEvent_same h)

theorem raiseOpen_same {typ source detail : Nat} (h : SameCard s₀ s) : SameCard s₀ (raiseOpen typ source detail s) :=
  raise_same h

theorem enterError_same {bits code detail : Nat} (h : SameCard s₀ s) : SameCard s₀ (enterError bits code detail s) :=
  h.update

theorem setPort_same {p : Nat} {x : PortSt} (h : SameCard s₀ s) : SameCard s₀ (setPort p x s) := h.update

theorem countPort_same {lane n p : Nat} (h : SameCard s₀ s) : SameCard s₀ (countPort lane n p s) :=
  countRun_same (countRun_same h)

theorem lane0_same {ports : List Nat} {dst : Option Nat} {m : TpMsg} (h : SameCard s₀ s) : SameCard s₀ (lane0 ports dst m s) :=
  send_same (.update (.foldl (fun _ _ => countPort_same) h))

theorem toCardId_same {c : Nat} {m : TpMsg} (h : SameCard s₀ s) : SameCard s₀ (toCardId c m s) := lane0_same h

theorem toCard_same {l : Nat} {m : TpMsg} (h : SameCard s₀ s) : SameCard s₀ (toCard l m s) := by
  unfold toCard
  split
  exacts [h, toCardId_same h]

theorem toCards_same {ls : List Nat} {m : TpMsg} (h : SameCard s₀ s) : SameCard s₀ (toCards ls m s) :=
  .foldl (fun _ _ => toCard_same) h

theorem flood_same {m : TpMsg} (h : SameCard s₀ s) : SameCard s₀ (flood m s) := lane0_same h

theorem noteSeen_same {src msgid : Nat} (h : SameCard s₀ s) : SameCard s₀ (noteSeen src msgid s) := h.update

theorem hear_same {hd : TpHdr} {kind : Nat} {f : State → State} (hf : ∀ s, SameCard s₀ s → SameCard s₀ (f s))
    (h : SameCard s₀ s) :
    SameCard s₀ (hear hd kind f s) :=
  .ite (hf _ (noteSeen_same h)) h

theorem toTwin_same {m : TwMsg} (h : SameCard s₀ s) : SameCard s₀ (toTwin m s) :=
  send_same (.ite (.foldl (fun _ _ => countPort_same) h) (.ite (.foldl (fun _ _ => countPort_same) h)
    (.foldl (fun _ _ => countPort_same) h)))

theorem askCard_same {c what : Nat} {m : UsdoMsg} (h : SameCard s₀ s) : SameCard s₀ (askCard c what m s) :=
  toCardId_same (.ite h h.update)

theorem reportAbort_same {cause layer : Nat} (h : SameCard s₀ s) : SameCard s₀ (reportAbort cause layer s) := by
  unfold reportAbort
  split
  exacts [toCard_same h, toCard_same h, toCard_same h, h]

theorem reportLost_same (h : SameCard s₀ s) : SameCard s₀ (reportLost s) := toCard_same h.update

theorem hostWrite_same {kind addr ref : Nat} {data : Bytes} {vec : Option Nat} (h : SameCard s₀ s) :
    SameCard s₀ (hostWrite kind addr ref data vec s) :=
  .ite h h.update

theorem commitFlag_same (h : SameCard s₀ s) : SameCard s₀ (commitFlag s) := .ite h (hostWrite_same h)

theorem ringRelease_same (h : SameCard s₀ s) : SameCard s₀ (ringRelease s) :=
  .ite (raiseVec_same h.update) (hostWrite_same h.update)

theorem setUnit_same {p : Nat} {u : UnitSt} (h : SameCard s₀ s) : SameCard s₀ (setUnit p u s) := h.update

theorem modUnit_same {p : Nat} {f : UnitSt → UnitSt} (h : SameCard s₀ s) : SameCard s₀ (modUnit p f s) := setUnit_same h

theorem unitFaultAt_same {p cause : Nat} (h : SameCard s₀ s) : SameCard s₀ (unitFaultAt p cause s) :=
  reportAbort_same (.unless (fun h => .update h) (.unless .update (modUnit_same h)))

/-! ### Device memory: reads, writes and what they count -/

theorem setBarge_same {b : Nat} {e : BargeEnt} (h : SameCard s₀ s) : SameCard s₀ (setBarge b e s) := h.update

theorem modBarge_same {b : Nat} {f : BargeEnt → BargeEnt} (h : SameCard s₀ s) : SameCard s₀ (modBarge b f s) :=
  setBarge_same h

theorem recordDamage_same {addr : Nat} {resv : Bool} {cause : Nat} {pond : Bool} (h : SameCard s₀ s) :
    SameCard s₀ (recordDamage addr resv cause pond s) :=
  raiseOpen_same (countBoot_same h.update)

theorem writeMap_same (h : SameCard s₀ s) : SameCard s₀ (writeMap s) := .ite (raise_same (send_same h.update)) h

theorem addRepair_same {r : Repair} (h : SameCard s₀ s) : SameCard s₀ (addRepair r s) := .unless writeMap_same h.update

theorem retireFrame_same {resv : Bool} {frame : Nat} (h : SameCard s₀ s) : SameCard s₀ (retireFrame resv frame s) :=
  .ite h (addRepair_same h.update)

theorem corrected_same {resv : Bool} {frame key : Nat} (h : SameCard s₀ s) : SameCard s₀ (corrected resv frame key s) :=
  .when retireFrame_same (.update (.unless countBoot_same (countBoot_same h)))

theorem uncorrectable_same {resv : Bool} {frame key : Nat} (h : SameCard s₀ s) : SameCard s₀ (uncorrectable resv frame key s) :=
  retireFrame_same (countBoot_same h).update

theorem applyEcc_same {ecc : Ecc} (h : SameCard s₀ s) : SameCard s₀ (applyEcc ecc s) := by
  unfold applyEcc
  dsimp only
  split
  exacts [h, corrected_same h, uncorrectable_same h]

theorem failRequest_same {a cause : Nat} (h : SameCard s₀ s) : SameCard s₀ (failRequest a cause s) :=
  recordDamage_same (countRun_same h)

theorem readDev_same {addr n : Nat} {ecc : Ecc} (h : SameCard s₀ s) : SameCard s₀ (readDev addr n ecc s).state := by
  unfold readDev
  dsimp only
  split
  · exact .notBacked (countRun_same h)
  split
  · exact .failed (failRequest_same h)
  split
  · exact .failed (failRequest_same (applyEcc_same h))
  · exact .ok (.unless countRun_same (applyEcc_same h))

/-- `readDev` as a function of which only its rule is known, to stand in its place where a recursion matches on the call. -/
theorem readDev_sealed (s₀ : State) : ∃ f, readDev = f ∧
    ∀ {addr n ecc s}, SameCard s₀ s → SameCard s₀ (f addr n ecc s).state := ⟨_, rfl, readDev_same⟩

theorem readRanges_same {rs : List (Nat × Nat)} {ecc : Ecc} (h : SameCard s₀ s) : SameCard s₀ (readRanges rs ecc s).1 := by
  generalize hf : readRanges = f
  delta readRanges readRanges._f at hf
  obtain ⟨rd, e, hr⟩ := readDev_sealed s₀
  rw [e] at hf
  subst hf
  induction rs generalizing s ecc with
  | nil => exact h
  | cons r rs ih =>
    dsimp only
    split
    · next e =>
      have h := (hr h).out e
      split
      · next e => exact (ih h).fst e
      · next e => exact (ih h).fst e
    · next e => exact (hr h).out e
    · next e => exact (hr h).out e

theorem fetchRanges_same {rs : List (Nat × Nat)} (h : SameCard s₀ s) : SameCard s₀ (fetchRanges rs s).1 := by
  unfold fetchRanges
  split
  · next e => exact .pair ((readRanges_same h).fst e)
  · next e => exact .pair ((readRanges_same h).fst e)

theorem failPond_same {cause : Nat} (h : SameCard s₀ s) : SameCard s₀ (failPond cause s) :=
  recordDamage_same (countRun_same h)

theorem pondWrite_same {off n : Nat} {put : State → State} (hf : ∀ s, SameCard s₀ s → SameCard s₀ (put s)) (h : SameCard s₀ s) :
    SameCard s₀ (pondWrite off n put s) :=
  .ite (failPond_same h) (.ite (hf _ h) (.ite (hf _ h.update) (failPond_same h)))

theorem setSnap_same {k : Nat} {x : Snap} (h : SameCard s₀ s) : SameCard s₀ (setSnap k x s) := h.update

theorem dropSnapCopies_same {k : Nat} (h : SameCard s₀ s) : SameCard s₀ (dropSnapCopies k s) := h.update

theorem breakSnap_same {k : Nat} (h : SameCard s₀ s) : SameCard s₀ (breakSnap k s) :=
  raiseOpen_same (countBoot_same (.when .update (dropSnapCopies_same (setSnap_same h))))

theorem makeRoom_same {n : Nat} (h : SameCard s₀ s) : SameCard s₀ (makeRoom n s) := by
  fun_induction makeRoom n s with
  | case1 => exact h
  | case2 => exact h
  | case3 _ _ _ _ _ ih => exact ih (breakSnap_same h)
  | case4 => exact h

theorem placeCopy_same {page slot : Nat} {ks : List Nat} (h : SameCard s₀ s) : SameCard s₀ (placeCopy page slot ks s) := by
  unfold placeCopy
  dsimp only
  have hw : SameCard s₀ (pondWrite (pondCow s slot 0) 65536 id s) := pondWrite_same (fun _ h => h) h
  refine .update ?_
  split
  exacts [hw, recordDamage_same hw]

theorem cowPage_same {page : Nat} (h : SameCard s₀ s) : SameCard s₀ (cowPage s page) :=
  .ite h (.ite h (.unless (fun h => placeCopy_same (countRun_same h)) (makeRoom_same h)))

theorem snapPart_same {k addr n : Nat} {ecc : Ecc} (h : SameCard s₀ s) : SameCard s₀ (snapPart k addr n ecc s).state := by
  unfold snapPart
  dsimp only
  split
  · split
    exacts [.failed (failPond_same h), .iteOut (.failed (failPond_same h)) (.ok h)]
  · exact readDev_same h

theorem snapParts_same {k fuel addr n : Nat} {ecc : Ecc} (h : SameCard s₀ s) :
    SameCard s₀ (snapParts k fuel addr n ecc s).state := by
  induction fuel generalizing addr n ecc s with
  | zero => exact snapPart_same h
  | succ fuel ih =>
    unfold snapParts
    dsimp only
    split
    · next e =>
      have h := (snapPart_same h).out e
      split
      · exact .ok h
      split
      · next e => exact .ok ((ih h).out e)
      · exact ih h
    · exact snapPart_same h

theorem snapRead_same {k addr n : Nat} {ecc : Ecc} (h : SameCard s₀ s) : SameCard s₀ (snapRead k addr n ecc s).state := by
  unfold snapRead
  dsimp only
  refine .iteOut (.failed h) (.iteOut (.failed h) ?_)
  split
  · next e =>
    have h := (snapParts_same h).out e
    exact .ok (.ite (setSnap_same h) h)
  · exact snapParts_same h

theorem zeroFill_same {b : Nat} (h : SameCard s₀ s) : SameCard s₀ (zeroFill s b) := by
  unfold zeroFill
  exact .ite (setBarge_same h.update) h

theorem moveBytes_same {src dst n : Nat} (h : SameCard s₀ s) : SameCard s₀ (moveBytes src dst n s) := h.update

theorem copyChunks_same {src dst n k : Nat} (h : SameCard s₀ s) : SameCard s₀ (copyChunks src dst n k s).2 := by
  fun_induction copyChunks src dst n k s with
  | case1 => exact h
  | case2 => exact h
  | case3 _ _ _ _ ih => exact ih (countRun_same (moveBytes_same h))

theorem copyTo_same {b k : Nat} (h : SameCard s₀ s) : SameCard s₀ (copyTo b k s) := by
  unfold copyTo
  dsimp only
  split
  exacts [h, (copyChunks_same h).update]

theorem meetCopy_same {addr n b : Nat} (h : SameCard s₀ s) : SameCard s₀ (meetCopy addr n b s) := by
  unfold meetCopy
  dsimp only
  split
  exacts [h, copyTo_same h.update]

theorem touchDirty_same {addr n : Nat} {b : Nat} (h : SameCard s₀ s) : SameCard s₀ (touchDirty addr n s b) := by
  unfold touchDirty
  exact .ite (setBarge_same h) h

theorem storeByte_same {addr : Nat} {b : Byte} (h : SameCard s₀ s) : SameCard s₀ (storeByte s addr b) := h.update

theorem storeBytes_same {a : Nat} {bs : Bytes} (h : SameCard s₀ s) : SameCard s₀ (storeBytes a bs s) := by
  fun_induction storeBytes a bs s with
  | case1 => exact h
  | case2 _ _ _ _ ih => exact ih (storeByte_same h)

theorem setArea_same {area st : Nat} (h : SameCard s₀ s) : SameCard s₀ (setArea area st s) := h.update

theorem storePart_same {addr : Nat} {bs : Bytes} (h : SameCard s₀ s) : SameCard s₀ (storePart addr bs s) :=
  .foldl (fun _ _ => touchDirty_same) (storeBytes_same (.update (.foldl (fun _ _ => meetCopy_same)
    (.foldl (fun _ _ => zeroFill_same) (.foldl (fun _ _ => cowPage_same) h)))))

theorem writeFrames_same {addr : Nat} {bs : Bytes} (h : SameCard s₀ s) : SameCard s₀ (writeFrames addr bs s).state := by
  unfold writeFrames
  dsimp only
  split
  · exact .failed (failRequest_same h)
  · split
    exacts [.failed (failRequest_same h), .ok (storePart_same h)]

theorem writePart_same {addr : Nat} {bs : Bytes} (h : SameCard s₀ s) : SameCard s₀ (writePart addr bs s).state := by
  unfold writePart
  refine .iteOut (.ok h) (.iteOut (.notBacked (countRun_same h)) ?_)
  split
  · refine .iteOut (.ok (raiseOpen_same (countBoot_same h))) ?_
    split
    · next e => exact .ok (setArea_same ((writeFrames_same h).out e))
    · exact writeFrames_same h
  · exact writeFrames_same h

theorem writeCuts_same {cs : List Nat} {a : Nat} {bs : Bytes}
    (h : SameCard s₀ s) : SameCard s₀ (writeCuts cs a bs s).state := by
  fun_induction writeCuts cs a bs s with
  | case1 => exact writePart_same h
  | case2 _ _ _ _ _ _ _ _ e ih => exact ih ((writePart_same h).out e)
  | case3 => exact writePart_same h
  | case4 _ _ _ _ _ _ ih => exact ih h

theorem writeDev_same {addr : Nat} {bs : Bytes} (h : SameCard s₀ s) : SameCard s₀ (writeDev addr bs s).state :=
  writeCuts_same h

theorem writeDev_sealed (s₀ : State) : ∃ f, writeDev = f ∧
    ∀ {addr bs s}, SameCard s₀ s → SameCard s₀ (f addr bs s).state := ⟨_, rfl, writeDev_same⟩

theorem pokeDev_same {addr : Nat} {bs : Bytes} (h : SameCard s₀ s) : SameCard s₀ (pokeDev addr bs s) := writeDev_same h

/-! ### The tally of flags -/

theorem chargeTally_same {tag : Nat} {t : Tally} (h : SameCard s₀ s) : SameCard s₀ (chargeTally tag t s) := h.update

/-! ### The end of a bundle -/

theorem finishBundle_same {p : Nat} (h : SameCard s₀ s) : SameCard s₀ (finishBundle p s) := countRun_same (modUnit_same h)

theorem onRec_same {rix : BitVec 11} {isel : Fin 8} {f : List Nat → SlotFn} {p : Nat}
    (hf : ∀ w p s, SameCard s₀ s → OpRes.Keeps s₀ (f w p s)) (h : SameCard s₀ s) :
    OpRes.Keeps s₀ (onRec rix isel f p s) := by
  unfold onRec
  split
  exacts [.fault, hf _ _ _ h]

theorem onUnit_same {f : UnitSt → UnitSt} {p : Nat} (h : SameCard s₀ s) : OpRes.Keeps s₀ (onUnit f p s) :=
  .ok (modUnit_same h)

/-! ### Arrays and batchers -/

theorem doAld_same {w : List Nat} {p : Nat} (h : SameCard s₀ s) : OpRes.Keeps s₀ (doAld w p s) := by
  unfold doAld
  dsimp only
  split
  · exact .fault
  split
  · exact .wait
  split
  · exact .wait
  split
  · split
    · exact .fault
    · split
      exacts [.ok (setUnit_same h), .wait, .fault]
  · exact .ok (setUnit_same h)
  · exact .fault

theorem doAbc_same {w : List Nat} {p : Nat} (h : SameCard s₀ s) : OpRes.Keeps s₀ (doAbc w p s) := by
  unfold doAbc
  dsimp only
  split
  · exact .fault
  split
  · exact .fault
  split
  · exact .wait
  split
  · exact .wait
  · split
    exacts [.wait, .ok (countRun_same (setUnit_same h))]

theorem closeBuf_same {p : Nat} {stat : Nat} (h : SameCard s₀ s) : SameCard s₀ (closeBuf p stat s) :=
  countRun_same (setUnit_same h)

theorem batchPush_same {p : Nat} {row : Bytes} {tag : BitVec 32} (h : SameCard s₀ s) : SameCard s₀ (batchPush p row tag s) :=
  .ite h (.when closeBuf_same (setUnit_same h))

theorem setCore_same {p k : Nat} {c : CoreSt} (h : SameCard s₀ s) : SameCard s₀ (setCore p k c s) := modUnit_same h

theorem drainOut_same {p k fuel : Nat} (h : SameCard s₀ s) : SameCard s₀ (drainOut p k fuel s) := by
  fun_induction drainOut p k fuel s with
  | case1 => exact h
  | case2 => exact h
  | case3 => exact h
  | case4 _ _ _ _ _ _ _ _ _ ih => exact ih (batchPush_same (setCore_same h))

theorem drainAll_same {p : Nat} (h : SameCard s₀ s) : SameCard s₀ (drainAll p s) := .foldl (fun _ _ => drainOut_same) h

theorem countIssue_same {p mask cycles : Nat} (h : SameCard s₀ s) : SameCard s₀ (countIssue p mask cycles s) := h.update

theorem doAps_same {w : List Nat} {p : Nat} (h : SameCard s₀ s) : OpRes.Keeps s₀ (doAps w p s) := by
  unfold doAps
  extract_lets +onlyGivenNames u c mask n af wf epman
  refine .ite .fault (.ite .wait ?_)
  extract_lets +onlyGivenNames ops
  refine .ite .fault ?_
  extract_lets +onlyGivenNames ops'
  split
  · exact .wait
  · exact .fault
  extract_lets +onlyGivenNames freed s₁ s₂ s₃
  have h₁ : SameCard s₀ s₁ := by
    clear_value freed
    unfold s₁
    cases freed with
    | none => exact setUnit_same h
    | some b => exact drainAll_same (setUnit_same h)
  have h₃ : SameCard s₀ s₃ := countRun_same (countRun_same (countRun_same (countIssue_same h₁)))
  exact .ok (.when countRun_same h₃)

theorem convBlock_same {f tag : Nat} {held : Bool} {xs : List ConvIn} (h : SameCard s₀ s) :
    SameCard s₀ (convBlock f tag held xs s).1 := by
  generalize hp : convBlock f tag held xs s = p
  conv at hp => lhs; delta convBlock
  obtain ⟨rd, e, hr⟩ := readDev_sealed s₀
  rw [e] at hp
  extract_lets vals idx at hp
  split at hp
  · split at hp
    · exact hp ▸ h
    extract_lets a at hp
    split at hp
    · next e =>
      have h := (hr h).out e
      exact hp ▸ .ite (pokeDev_same h) h
    · exact hp ▸ reportAbort_same (hr h)
  · exact hp ▸ h

theorem convElems_same {f tag : Nat} {sat held : Bool} {xs : List ConvIn} (h : SameCard s₀ s) :
    SameCard s₀ (convElems f tag sat held xs s).1 :=
  .iteFst (.foldlFst (fun _ _ h => .pair (convBlock_same h)) (.pair h)) (.pair h)

theorem drainRow_same {u : UnitSt} {a row i : Nat} {f : Nat} {stoch sat held port : Bool} {e : Int} {tag b st : Nat}
    (h : SameCard s₀ s) :
    SameCard s₀ (drainRow u a row i f stoch sat held port e tag b st s).1 :=
  .iteFst (.pair h) (.pair (convElems_same h))

theorem drainRows_same {u : UnitSt} {a base n f : Nat} {stoch sat held port : Bool} {e : Int} {tag b st : Nat}
    (h : SameCard s₀ s) :
    SameCard s₀ (drainRows u a base n f stoch sat held port e tag b st s).1 :=
  .foldlFst (fun _ _ h => .pair (drainRow_same h)) (.pair h)

theorem doAdr_same {w : List Nat} {p : Nat} (h : SameCard s₀ s) : OpRes.Keeps s₀ (doAdr w p s) := by
  unfold doAdr
  dsimp only
  split
  · exact .fault
  split
  · exact .wait
  · split
    exacts [.wait, .fault, .ok (chargeTally_same (setUnit_same (drainRows_same h)))]

theorem doAfl_same {w : List Nat} {p : Nat} (h : SameCard s₀ s) : OpRes.Keeps s₀ (doAfl w p s) := by
  unfold doAfl
  dsimp only
  split
  · exact .fault
  split
  · exact .wait
  split
  · split
    exacts [.wait, .fault, .ok (setUnit_same h)]
  · exact .fault

theorem execBatchRowArrival_same {unit : Fin 64} {row : Bytes} {tag : BitVec 32} (h : SameCard s₀ s) :
    Answers s₀ (execBatchRowArrival unit row tag s) := by
  unfold execBatchRowArrival
  refine .next ?_
  split
  exacts [batchPush_same h, h]

theorem execBatchWaitExpiry_same {unit : Fin 64} (h : SameCard s₀ s) : Answers s₀ (execBatchWaitExpiry unit s) := by
  unfold execBatchWaitExpiry
  dsimp only
  refine .next ?_
  split
  exacts [.ite h (closeBuf_same h), h]

/-! ### Scalar cores -/

theorem rvStore_same {p k : Nat} {c : CoreSt} {a n v : Nat} (h : SameCard s₀ s) : Rv.Keeps s₀ (rvStore p k s c a n v) := by
  unfold rvStore
  dsimp only
  split
  · exact .done h
  split
  · split
    · exact .trap
    split
    · exact .trap
    · split
      exacts [.trap, .done (setUnit_same h)]
  · exact .trap

theorem postOut_same {p k : Nat} {v : W64} {c : CoreSt} (h : SameCard s₀ s) :
    Holds (fun x => SameCard s₀ x.1) (postOut p k v s c) := by
  unfold postOut
  dsimp only
  split
  exacts [.none, .some (.pair (drainOut_same (setCore_same h)))]

theorem chmark_same {p : Nat} {v : W64} (h : SameCard s₀ s) : Holds (SameCard s₀) (chmark p v s) := by
  unfold chmark
  dsimp only
  split
  · exact .none
  generalize (if v.toNat.testBit 8 then _ else _ : Option UnitSt) = o
  cases o with
  | none => exact .none
  | some u => exact .some (setUnit_same h)

theorem csrWrite_same {p k : Nat} {c : CoreSt} {n v : Nat} (h : SameCard s₀ s) : Rv.Keeps s₀ (csrWrite p k s c n v) := by
  unfold csrWrite
  split
  · exact .done h
  · exact .done h
  · exact .done h
  · exact .done h
  · exact .done h
  · split
    · next e => exact .done ((postOut_same h).of_some e)
    · exact .wait
  · split
    · next e => exact .done ((chmark_same h).of_some e)
    · exact .unitFault
  · exact .done h
  · exact .done h
  split
  · exact .done h
  · split
    exacts [.done h, .trap]

theorem rvCsr_same {p k : Nat} {c : CoreSt} {w pc' : Nat} (h : SameCard s₀ s) : Rv.Keeps s₀ (rvCsr p k s c w pc') := by
  unfold rvCsr
  dsimp only
  split
  · split
    · next e => exact .done ((csrWrite_same h).of_done e)
    · exact csrWrite_same h
  split
  · exact .trap
  · exact .wait
  split
  · exact .done h
  split
  · next e => exact .done ((csrWrite_same h).of_done e)
  · exact csrWrite_same h

theorem rvAmo_same {p k : Nat} {c : CoreSt} {w pc' : Nat} (h : SameCard s₀ s) : Rv.Keeps s₀ (rvAmo p k s c w pc') := by
  unfold rvAmo
  extract_lets
  have load {s₁ c₁} {a b d : Prop} [Decidable a] [Decidable b] [Decidable d] (h : SameCard s₀ s₁) :
      Rv.Keeps s₀ (if a then .trap 2 else if b then .trap 4 else if d then .trap 5 else .done s₁ c₁) :=
    .ite .trap (.ite .trap (.ite .trap (.done h)))
  refine .ite .trap (.ite (load h) (.ite (.ite .trap (.ite .trap (.ite ?_ (.done h)))) ?_))
  · split
    · next e => exact .done ((rvStore_same h).of_done e)
    · exact rvStore_same h
  split
  · exact .trap
  refine .ite .trap (.ite .trap ?_)
  split
  · next e => exact .done ((rvStore_same h).of_done e)
  · exact rvStore_same h

theorem rvSystem_same {p k : Nat} {c : CoreSt} {w pc' : Nat} (h : SameCard s₀ s) : Rv.Keeps s₀ (rvSystem p k s c w pc') :=
  .ite (.ite .trap (.ite .trap (.ite .wait (.ite (.done h) .trap)))) (.ite .trap (rvCsr_same h))

theorem rvExec_same {p k : Nat} {c : CoreSt} {w pc pc' : Nat} (h : SameCard s₀ s) :
    Rv.Keeps s₀ (rvExec p k s c w pc pc') := by
  unfold rvExec
  extract_lets _ rd _ _ _ _ next _ put putO fpO
  have hput (v : Nat) : Rv.Keeps s₀ (put v) := .done h
  have hputO (v : Option Nat) : Rv.Keeps s₀ (putO v) := by
    cases v with
    | none => exact .trap
    | some v => exact hput v
  have hfpO (v : Option CoreSt) : Rv.Keeps s₀ (fpO v) := by
    cases v with
    | none => exact .trap
    | some v => exact .done h
  split
  · exact hput _
  · exact hput _
  · exact .done h
  · exact .ite .trap (.done h)
  · split
    exacts [.trap, .done h]
  · refine .ite .trap ?_
    split
    exacts [hput _, .wait, .trap]
  · refine .ite .trap ?_
    split
    · next e => exact .done ((rvStore_same h).of_done e)
    · exact rvStore_same h
  · exact .ite .trap (.ite .trap (hput _))
  · exact .ite .trap (.ite .trap (hputO _))
  · exact .ite (hput _) (.ite (hput _) .trap)
  · exact .ite (hputO _) (.ite (hputO _) .trap)
  · exact .ite (.done h) .trap
  · exact rvSystem_same h
  · exact rvAmo_same h
  · refine .ite .trap ?_
    split
    exacts [.done h, .wait, .trap]
  · refine .ite .trap ?_
    split
    · next e => exact .done ((rvStore_same h).of_done e)
    · exact rvStore_same h
  · exact hfpO _
  · exact hfpO _
  · exact hfpO _
  · exact hfpO _
  · exact hfpO _
  · exact .trap

theorem rvStep_same {p k : Nat} {c : CoreSt} (h : SameCard s₀ s) : Rv.Keeps s₀ (rvStep p k s c) := by
  unfold rvStep
  dsimp only
  split
  · exact .trap
  split
  · split
    exacts [.trap, rvExec_same h]
  · split
    exacts [rvExec_same h, .trap]

theorem scalarTrap_same {p k code : Nat} (h : SameCard s₀ s) : SameCard s₀ (scalarTrap p k code s) :=
  unitFaultAt_same (setCore_same h).update

theorem execScalarInstruction_same {unit : Fin 64} {core : Fin 4} (h : SameCard s₀ s) :
    Answers s₀ (execScalarInstruction unit core s) := by
  unfold execScalarInstruction
  refine .next ?_
  split
  · exact h
  split
  · next e => exact setCore_same ((rvStep_same h).of_done e)
  · exact h
  · exact scalarTrap_same h
  · exact unitFaultAt_same h

theorem execMbxoutWrite_same {unit : Fin 64} {core : Fin 4} {v : W64} (h : SameCard s₀ s) :
    Answers s₀ (execMbxoutWrite unit core v s) := by
  unfold execMbxoutWrite
  refine .next ?_
  split
  · exact h
  split
  · next e => exact setCore_same ((postOut_same h).of_some e)
  · exact h

theorem execMbxinRead_same {unit : Fin 64} {core : Fin 4} {rd : Fin 32} (h : SameCard s₀ s) :
    Answers s₀ (execMbxinRead unit core rd s) := by
  unfold execMbxinRead
  refine .next ?_
  split
  · exact h
  · split
    exacts [setCore_same h, h]

theorem execChmarkWrite_same {unit : Fin 64} {core : Fin 4} {v : W64} (h : SameCard s₀ s) :
    Answers s₀ (execChmarkWrite unit core v s) := by
  unfold execChmarkWrite
  refine .next ?_
  split
  · exact h
  split
  · next e => exact (chmark_same h).of_some e
  · exact unitFaultAt_same h

/-! ### Flits -/

theorem oweCredit_same {p vl : Nat} {f : Nat → Nat} (h : SameCard s₀ s) : SameCard s₀ (oweCredit p vl f s) := setPort_same h

theorem giveBack_same {frm : Option Nat} {vl : Nat} (h : SameCard s₀ s) : SameCard s₀ (giveBack frm vl s) := by
  unfold giveBack
  split
  exacts [h, oweCredit_same h]

theorem emitFlit_same {p : Nat} {hd : Hdr} {payload : Bytes} {nak : Bool} (h : SameCard s₀ s) :
    SameCard s₀ (emitFlit p hd payload nak s) :=
  send_same (.unless (fun h => countRun_same (countRun_same h)) (setPort_same h))

theorem drainQueue_same {p n : Nat} (h : SameCard s₀ s) : SameCard s₀ (drainQueue p n s) := by
  fun_induction drainQueue p n s with
  | case1 => exact h
  | case2 => exact h
  | case3 _ _ _ _ _ _ _ _ _ ih => exact ih (giveBack_same (emitFlit_same (setPort_same h)))

theorem sendOn_same {frm : Option Nat} {p : Nat} {hd : Hdr} {payload : Bytes} (h : SameCard s₀ s) :
    SameCard s₀ (sendOn frm p hd payload s) :=
  .ite (giveBack_same h) (drainQueue_same (setPort_same h))

theorem sendFlit_same {p : Nat} {hd : Hdr} {payload : Bytes} (h : SameCard s₀ s) : SameCard s₀ (sendFlit p hd payload s) :=
  sendOn_same h

theorem freeQueue_same {p : Nat} (h : SameCard s₀ s) : SameCard s₀ (freeQueue p s) :=
  .foldl (fun _ _ => giveBack_same) (setPort_same h)

theorem sendNull_same {p : Nat} {nak : Bool} (h : SameCard s₀ s) : SameCard s₀ (sendNull p nak s) := emitFlit_same h

theorem countRetry_same {p : Nat} (h : SameCard s₀ s) : SameCard s₀ (countRetry p s) := countBoot_same (countRun_same h)

theorem resend_same {p : Nat} (h : SameCard s₀ s) : SameCard s₀ (resend p s) := .foldl (fun _ _ => send_same) h

theorem takeAck_same {p : Nat} {x : Nat} (h : SameCard s₀ s) : SameCard s₀ (takeAck p x s) :=
  drainQueue_same (.when (fun h => resend_same (countRetry_same h)) (setPort_same h))

theorem recvFlit_same {p : Nat} {f : Flit} (h : SameCard s₀ s) : SameCard s₀ (recvFlit p f s).1 :=
  have h₁ := sendNull_same (setPort_same h)
  have h₂ := takeAck_same (setPort_same h)
  .iteFst (.pair h) (.iteFst (.pair h₁) (.iteFst (.pair (takeAck_same h)) (.iteFst (.pair (.ite h h₁))
    (.iteFst (.pair (countRetry_same h₂)) (.pair h₂)))))

theorem freshTxn_same (h : SameCard s₀ s) : SameCard s₀ (freshTxn s).2 := h.update

theorem modRemote_same {txn : Nat} {f : Remote → Remote} (h : SameCard s₀ s) : SameCard s₀ (modRemote txn f s) := h.update

theorem dropRemotes_same {txns : List Nat} (h : SameCard s₀ s) : SameCard s₀ (dropRemotes txns s) := h.update

theorem sendRun_same {port : Nat} {hd : Hdr} {addr : Nat} {bs : Bytes} {last : Bool} (h : SameCard s₀ s) :
    SameCard s₀ (sendRun port hd addr bs last s) :=
  .foldl (fun _ _ => sendFlit_same) h

/-! ### Trees of a reduction -/

theorem setTree_same {tree : Nat} {x : TreeRun} (h : SameCard s₀ s) : SameCard s₀ (setTree tree x s) := h.update

theorem toChild_same {tree child : Nat} {typ : Nat} {hd : Hdr} {payload : Bytes} (h : SameCard s₀ s) :
    SameCard s₀ (toChild tree child typ hd payload s) := by
  unfold toChild
  split
  · exact h
  · split
    exacts [h, sendFlit_same h]

theorem treeControl_same {tree child kind : Nat} {r : TreeRun} {landed : Nat} (h : SameCard s₀ s) :
    SameCard s₀ (treeControl tree child kind r landed s) :=
  toChild_same h

theorem treeCheck_same {tree : Nat} (h : SameCard s₀ s) : SameCard s₀ (treeCheck tree s) := by
  unfold treeCheck
  dsimp only
  split
  · exact h
  split
  · split
    · exact h.update
    split
    · exact h
    · split
      exacts [h, sendFlit_same h]
  · exact h

theorem dropBranch_same {port tree card : Nat} (h : SameCard s₀ s) : SameCard s₀ (dropBranch port tree card s) :=
  setPort_same h

theorem detachChild_same {t : TreeRec} {child port at' : Nat} (h : SameCard s₀ s) :
    SameCard s₀ (detachChild t child port at' s) :=
  treeCheck_same (treeControl_same (countRun_same (.unless .update (setTree_same (dropBranch_same h)))))

theorem treeForward_same {t : TreeRec} {at' : Nat} {hd : Hdr} {payload : Bytes} (h : SameCard s₀ s) :
    SameCard s₀ (treeForward t at' hd payload s) := by
  unfold treeForward
  refine .foldl (fun s a h => ?_) h
  split
  · exact h
  · split
    exacts [h, .ite (detachChild_same h) (toChild_same h)]

theorem treeStart_same {t : TreeRec} {r : TreeRun} (h : SameCard s₀ s) : SameCard s₀ (treeStart t r s) :=
  .foldl (fun _ _ h => .when treeControl_same (treeControl_same h)) (setTree_same h)

/-! ### Streams and their bursts -/

theorem setCtx_same {p k : Nat} {c : Ctx} (h : SameCard s₀ s) : SameCard s₀ (setCtx p k c s) := modUnit_same h

theorem startCtx_same {p k : Nat} {d : Nat} {num : Nat} (h : SameCard s₀ s) : SameCard s₀ (startCtx p k d num s) :=
  modUnit_same h

theorem land_same {p k : Nat} {bs : Bytes} {ended : Bool} (h : SameCard s₀ s) :
    Holds (SameCard s₀) (land p k bs ended s) := by
  unfold land
  dsimp only
  split
  · split
    exacts [.some (setUnit_same h), .some (setUnit_same h), .some (setUnit_same h)]
  · exact .some (setUnit_same h)
  · exact .some (setUnit_same h)
  · exact .some (setUnit_same h)
  · exact .some (setUnit_same h)
  split
  · exact .some (setUnit_same h)
  · split
    exacts [.none, .some (batchPush_same (setUnit_same h))]

theorem endBatch_same {p k : Nat} (h : SameCard s₀ s) : Holds (SameCard s₀) (endBatch p k s) := by
  unfold endBatch
  dsimp only
  split
  · exact .some (.ite h (closeBuf_same h))
  split
  · exact .none
  · exact .some (.when closeBuf_same (batchPush_same (setUnit_same h)))

theorem endMark_same {p k : Nat} {left : Bool} (h : SameCard s₀ s) : Holds (SameCard s₀) (endMark p k left s) := by
  unfold endMark
  dsimp only
  split
  · split
    · split
      · exact .some h
      · split
        exacts [.none, .some (setUnit_same h)]
    · exact .some (setUnit_same h)
    split
    · split
      exacts [.some (setUnit_same h), .none]
    · exact .none
  · exact .some (setUnit_same h)
  · exact .some (setUnit_same h)
  · exact .some (setUnit_same h)
  · split
    · exact .some h
    · split
      exacts [.none, .some (setUnit_same h)]
  · exact endBatch_same h
  · exact .some h

theorem waitEnd_same {p k : Nat} (h : SameCard s₀ s) : SameCard s₀ (waitEnd p k s) := setUnit_same h

theorem endStream_same {p k : Nat} {left : Bool} (h : SameCard s₀ s) : SameCard s₀ (endStream p k left s) := by
  unfold endStream
  dsimp only
  split
  · exact waitEnd_same h
  · next e => exact setCtx_same ((endMark_same h).of_some e)

theorem recordStreamFault_same {unit ctx dnum stag cause addr : Nat} (h : SameCard s₀ s) :
    SameCard s₀ (recordStreamFault unit ctx dnum stag cause addr s) :=
  reportAbort_same (raiseOpen_same (countBoot_same h.update))

theorem streamFault_same {p k cause addr : Nat} (h : SameCard s₀ s) : SameCard s₀ (streamFault p k cause addr s) := by
  unfold streamFault
  dsimp only
  refine recordStreamFault_same ?_
  split
  exacts [dropRemotes_same (setUnit_same h), setUnit_same h]

theorem readRuns_same {ecc : Ecc} {rs : List (Nat × Nat)} (h : SameCard s₀ s) : Runs.Keeps s₀ (readRuns ecc rs s) := by
  generalize hf : readRuns = f
  delta readRuns readRuns._f at hf
  obtain ⟨rd, e, hr⟩ := readDev_sealed s₀
  rw [e] at hf
  subst hf
  induction rs generalizing s ecc with
  | nil => exact .ok h
  | cons r rs ih =>
    dsimp only
    split
    · next e => exact .bad ((hr h).out e)
    · next e => exact .bad ((hr h).out e)
    · next e =>
      have h := (hr h).out e
      split
      · next e => exact .ok ((ih h).of_ok e)
      · next e => exact .bad ((ih h).of_bad e)

theorem writeRuns_same {rs : List (Nat × Nat)} {bs : Bytes} (h : SameCard s₀ s) : Runs.Keeps s₀ (writeRuns rs bs s) := by
  generalize hf : writeRuns = f
  delta writeRuns writeRuns._f at hf
  obtain ⟨wr, e, hw⟩ := writeDev_sealed s₀
  rw [e] at hf
  subst hf
  induction rs generalizing bs s with
  | nil => exact .ok h
  | cons r rs ih =>
    dsimp only
    split
    · next e => exact .bad ((hw h).out e)
    · next e => exact .bad ((hw h).out e)
    · next e => exact ih ((hw h).out e)

theorem cRowBytes_same {d o : Nat} {ecc : Ecc} (h : SameCard s₀ s) : Runs.Keeps s₀ (cRowBytes d o ecc s) := by
  unfold cRowBytes
  dsimp only
  split
  · exact .ok h
  split
  · next e => exact .bad ((readRuns_same h).of_bad e)
  rename_i e
  have h := (readRuns_same h).of_ok e
  split
  · split
    · next e => exact .bad ((readRuns_same h).of_bad e)
    · next e => exact .ok ((readRuns_same h).of_ok e)
  · exact .ok h

theorem cRows_same {d n r : Nat} {ecc : Ecc} (h : SameCard s₀ s) : Runs.Keeps s₀ (cRows d n r ecc s) := by
  fun_induction cRows d n r ecc s with
  | case1 => exact .ok h
  | case2 _ _ _ _ _ _ _ e => exact .bad ((cRowBytes_same h).of_bad e)
  | case3 _ _ _ _ _ _ e _ _ _ e₂ ih => exact .bad ((ih ((cRowBytes_same h).of_ok e)).of_bad e₂)
  | case4 _ _ _ _ _ _ e _ _ e₂ ih => exact .ok ((ih ((cRowBytes_same h).of_ok e)).of_ok e₂)

theorem fetchBurst_same {d : Nat} {f : Flight} {ecc : Ecc} (h : SameCard s₀ s) : Runs.Keeps s₀ (fetchBurst d f ecc s) := by
  unfold fetchBurst
  dsimp only
  split
  · exact .ok h
  split
  · split
    · next e => exact .bad ((cRows_same h).of_bad e)
    · next e => exact .ok ((cRows_same h).of_ok e)
  · exact readRuns_same h

theorem countRemoteFail_same (h : SameCard s₀ s) : SameCard s₀ (countRemoteFail s) := countBoot_same h

theorem sendRead_same {p k : Nat} {lane g n : Nat} {tree : Option Nat} (h : SameCard s₀ s) :
    Holds (fun x => SameCard s₀ x.1) (sendRead p k lane g n tree s) := by
  unfold sendRead
  dsimp only
  split
  · exact .none
  split
  · exact .none
  · split
    exacts [.none, .some (.pair (sendFlit_same ((freshTxn_same h).update)))]

theorem sendReads_same {p k lane : Nat} {rs : List (Nat × Nat)} {ts : List Nat} (h : SameCard s₀ s) :
    Holds (fun x => SameCard s₀ x.1) (sendReads p k lane rs s ts) := by
  fun_induction sendReads p k lane rs s ts with
  | case1 => exact .some (.pair h)
  | case2 => exact .none
  | case3 _ _ _ _ _ _ _ e ih => exact ih ((sendRead_same h).of_some e)

theorem sendWrites_same {p k lane : Nat} {rs : List (Nat × Nat)} {bs : Bytes} (h : SameCard s₀ s) :
    Holds (fun x => SameCard s₀ x.1) (sendWrites p k lane rs bs s) := by
  unfold sendWrites
  dsimp only
  split
  · exact .some (.pair h)
  split
  · exact .none
  split
  · exact .none
  split
  · exact .none
  · exact .some (.pair (.foldlFst (fun _ _ h => .pair (sendRun_same h)) (.pair (freshTxn_same h).update)))

theorem mcSend_same {t : TreeRec} {d pos : Nat} {bs : Bytes} {last : Bool} {txn unit ctx : Nat} (h : SameCard s₀ s) :
    SameCard s₀ (mcSend t d pos bs last txn unit ctx s) :=
  setTree_same (.foldl (fun _ _ => treeForward_same) h)

theorem fly_same {p k : Nat} {f : Flight} (h : SameCard s₀ s) : SameCard s₀ (fly p k f s) := modUnit_same h

theorem issueRead_same {p k n : Nat} {hole : Bool} {x : Nat} (h : SameCard s₀ s) :
    SameCard s₀ (issueRead p k n hole x s) := by
  unfold issueRead
  dsimp only
  split
  · split
    · exact streamFault_same (countRemoteFail_same h)
    · next e => exact fly_same ((sendReads_same h).of_some e)
  · exact fly_same h

theorem issueTree_same {p k : Nat} {bs : Bytes} {last : Bool} (h : SameCard s₀ s) :
    SameCard s₀ (issueTree p k bs last s) := by
  unfold issueTree
  extract_lets c d lu tx
  split
  · exact streamFault_same (countRemoteFail_same h)
  refine .ite (streamFault_same (countRemoteFail_same h)) (.ite (setCtx_same h) ?_)
  extract_lets s₁ r f q _ s₂ s₃ _ s₄
  have h₁ : SameCard s₀ s₁ := .ite (treeStart_same (freshTxn_same h)) h
  have h₂ : SameCard s₀ s₂ := .ite h₁.update h₁
  have h₄ : SameCard s₀ s₄ := setCtx_same (fly_same (mcSend_same h₂))
  exact .when treeCheck_same h₄

theorem issueWrite_same {p k : Nat} {bs : Bytes} {x : Index} (h : SameCard s₀ s) : SameCard s₀ (issueWrite p k bs x s) := by
  unfold issueWrite
  extract_lets
  split
  · exact issueTree_same h
  · refine .ite (fly_same h) ?_
    split
    · exact streamFault_same (countRemoteFail_same h)
    · next e => exact fly_same ((sendWrites_same h).of_some e)
  · exact fly_same h

theorem endEarly_same {p k : Nat} (h : SameCard s₀ s) : SameCard s₀ (endEarly p k s) :=
  .ite (issueTree_same (setCtx_same h)) (endStream_same h)

theorem needIndex_same {p k : Nat} (h : SameCard s₀ s) : SameCard s₀ (needIndex p k s).1 := by
  unfold needIndex
  dsimp only
  split
  · exact .pair h
  split
  · exact .pair h
  split
  · exact .pair (setCtx_same h)
  · exact .pair (setUnit_same h)
  · exact .pair (endEarly_same (setUnit_same h))
  · exact .pair (.when countRun_same (setUnit_same h))

theorem poolBurst_same {p k n : Nat} {x : Index} (h : SameCard s₀ s) : SameCard s₀ (poolBurst p k n x s) := by
  unfold poolBurst
  extract_lets u c d ch n _ _ _ _ _ s₁ _
  have h₁ : SameCard s₀ s₁ := by
    unfold s₁
    split
    exacts [h, setUnit_same h]
  split
  · exact h₁
  · exact .ite (setCtx_same h₁) (.ite (setCtx_same h₁) (issueRead_same h₁))

theorem burst_same {p k : Nat} (h : SameCard s₀ s) : SameCard s₀ (burst p k s) := by
  unfold burst
  extract_lets +onlyGivenNames u c d
  refine .ite (endStream_same h) (.ite (endEarly_same h) ?_)
  extract_lets +onlyGivenNames r
  have hr : SameCard s₀ r.1 := needIndex_same h
  split
  · exact hr
  extract_lets +onlyGivenNames s₁ u c want hole xi
  have h₁ : SameCard s₀ s₁ := hr
  refine .ite (.ite (poolBurst_same h₁) ?_) (.ite (.ite (setCtx_same h₁) ?_) (.ite (setCtx_same h₁) ?_))
  · split
    · exact unitFaultAt_same h₁
    · exact setCtx_same h₁
    · exact .ite (setCtx_same h₁) (issueRead_same h₁)
  · extract_lets +onlyGivenNames f
    split
    · next e => exact streamFault_same ((fetchBurst_same h₁).of_bad e)
    · next e => exact issueWrite_same ((fetchBurst_same h₁).of_ok e)
  · split
    · exact setCtx_same h₁
    · exact setUnit_same h₁
    · exact endEarly_same (setUnit_same h₁)
    · exact
        have h₂ := setUnit_same h₁
        .ite (setCtx_same h₁) (.ite (issueWrite_same (.when countRun_same h₂)) (issueWrite_same h₂))

theorem burstDone_same {p k : Nat} {f : Flight} {left : Bool} (h : SameCard s₀ s) : SameCard s₀ (burstDone p k f left s) :=
  .when endStream_same (countRun_same (dropRemotes_same (setUnit_same h)))

theorem complete_same {p k : Nat} {ecc : Ecc} (h : SameCard s₀ s) : SameCard s₀ (complete p k ecc s) := by
  unfold complete
  extract_lets +onlyGivenNames u c d
  split
  · exact h
  rename_i f _
  extract_lets +onlyGivenNames waits
  refine .ite h ?_
  extract_lets +onlyGivenNames last
  refine .ite ?_ (.ite (burstDone_same h) ?_)
  · extract_lets +onlyGivenNames got
    have hg : Runs.Keeps s₀ got := .ite (.ok h) (.ite (readRuns_same h) (fetchBurst_same h))
    have hf : Runs.Keeps s₀ (if f.hole then .ok s (zeros f.len) else got) := .ite (.ok h) hg
    split
    · next e => exact streamFault_same (hf.of_bad e)
    · next e =>
      have h := hf.of_ok e
      split
      · exact h
      · next e => exact burstDone_same ((land_same h).of_some e)
  · extract_lets +onlyGivenNames rs
    split
    · next e => exact streamFault_same ((writeRuns_same (applyEcc_same h)).of_bad e)
    · next e => exact burstDone_same ((writeRuns_same (applyEcc_same h)).of_ok e)

theorem lockBreak_same {p k : Nat} (h : SameCard s₀ s) : SameCard s₀ (lockBreak p k s) :=
  .ite h (countRun_same (countRun_same (setUnit_same h)))

theorem streamLate_same {p k : Nat} (h : SameCard s₀ s) : SameCard s₀ (streamLate p k s) := by
  unfold streamLate
  dsimp only
  split
  exacts [h, .ite (streamFault_same h) (countRun_same (setCtx_same h))]

theorem opSarm_same {ctx desc : Nat} {p : Nat} (h : SameCard s₀ s) : OpRes.Keeps s₀ (opSarm ctx desc p s) := by
  unfold opSarm
  dsimp only
  split
  exacts [.ok (startCtx_same h), .ok (startCtx_same h), .wait]

theorem opSrearm_same {ctx : Nat} {field : RearmField} {src : RearmSrc} {hold : Bool} {p : Nat} (h : SameCard s₀ s) :
    OpRes.Keeps s₀ (opSrearm ctx field src hold p s) :=
  .ite .wait (.ite (.ok (setCtx_same h)) (.ok (startCtx_same h)))

theorem opSstop_same {ctx : Nat} {p : Nat} (h : SameCard s₀ s) : OpRes.Keeps s₀ (opSstop ctx p s) := by
  unfold opSstop
  dsimp only
  split
  exacts [.ok (setCtx_same h), .ok (setCtx_same h), .ok (setCtx_same h), .ok h]

theorem opSwait_same {ctx : Nat} {p : Nat} (h : SameCard s₀ s) : OpRes.Keeps s₀ (opSwait ctx p s) := by
  unfold opSwait
  split
  exacts [.ok h, .ok h, .wait]

theorem opCmark_same {ch isel : Nat} {p : Nat} (h : SameCard s₀ s) : OpRes.Keeps s₀ (opCmark ch isel p s) := by
  unfold opCmark
  dsimp only
  split
  · exact .fault
  split
  · exact .fault
  · split
    exacts [.fault, .ok (setUnit_same h)]

theorem opCrel_same {ch isel : Nat} {p : Nat} (h : SameCard s₀ s) : OpRes.Keeps s₀ (opCrel ch isel p s) := by
  unfold opCrel
  dsimp only
  split
  · exact .fault
  split
  · exact .fault
  · split
    exacts [.fault, .ok (setUnit_same h)]

theorem execStreamBurst_same {unit : Fin 64} {ctx : Fin 512} (h : SameCard s₀ s) :
    Answers s₀ (execStreamBurst unit ctx s) := by
  unfold execStreamBurst
  dsimp only
  refine .next ?_
  split
  · exact h
  split
  · exact h
  · split
    exacts [burst_same h, burst_same h, burst_same h, h]

theorem execMemoryRequestComplete_same {unit : Fin 64} {ctx : Fin 512} {ecc : Ecc} (h : SameCard s₀ s) :
    Answers s₀ (execMemoryRequestComplete unit ctx ecc s) := by
  unfold execMemoryRequestComplete
  refine .next ?_
  split
  exacts [h, complete_same h]

theorem execLockBreak_same {unit : Fin 64} {pool : Fin 64} (h : SameCard s₀ s) :
    Answers s₀ (execLockBreak unit pool s) := by
  unfold execLockBreak
  refine .next ?_
  split
  exacts [h, lockBreak_same h]

/-! ### Barges -/

theorem tookResv_same {f : Nat} (h : SameCard s₀ s) : SameCard s₀ (tookResv f s) := h.update

theorem startCopy_same {b region : Nat} {took : Bool} (h : SameCard s₀ s) : SameCard s₀ (startCopy b region took s) :=
  h.update

theorem ownerPromote_same {b : Nat} {la : Bool} (h : SameCard s₀ s) : Owner.Keeps s₀ (ownerPromote b la s) := by
  generalize hf : ownerPromote = f
  delta ownerPromote at hf
  obtain ⟨free, e⟩ := exists_eq' (a' := freeBasin)
  rw [e] at hf
  subst hf
  beta_reduce
  extract_lets +onlyGivenNames e
  split
  · split
    · exact .done (countRun_same h)
    extract_lets +onlyGivenNames s₁
    have h₁ : SameCard s₀ s₁ := .ite (countRun_same h) h
    exact .ite (.done (countRun_same (setBarge_same h₁))) (.ite .full (.done (startCopy_same (setBarge_same h₁))))
  · exact .done (countRun_same (setBarge_same h))
  · exact .done h

theorem ownerEvict_same {b : Nat} (h : SameCard s₀ s) : Owner.Keeps s₀ (ownerEvict b s) := by
  conv => rhs; delta ownerEvict
  extract_lets e cancel
  have hc : Owner.Keeps s₀ cancel := .done (countRun_same h)
  split
  · exact hc
  · refine .ite hc (.ite (.done (countRun_same (setBarge_same h))) ?_)
    split
    · exact hc
    extract_lets s₁ _
    have h₁ : SameCard s₀ s₁ := .ite h (tookResv_same h)
    exact .ite (.done (countRun_same (setBarge_same h₁))) (.ite .full (.done (startCopy_same (setBarge_same h₁))))
  · exact .done h

theorem ownerTry_same {r : MigReq} (h : SameCard s₀ s) : Owner.Keeps s₀ (ownerTry r s) :=
  .ite (ownerPromote_same h) (ownerEvict_same h)

theorem takeRequest_same {r : MigReq} (h : SameCard s₀ s) : SameCard s₀ (takeRequest r s) := by
  unfold takeRequest
  dsimp only
  split
  · exact h.update
  split
  · next e => exact (ownerTry_same h).of_done e
  · exact h.update

theorem request_same {r : MigReq} (h : SameCard s₀ s) : SameCard s₀ (request r s) := .ite h.update (takeRequest_same h)

theorem takeRaised_same {n : Nat} (h : SameCard s₀ s) : SameCard s₀ (takeRaised n s) := by
  fun_induction takeRaised n s with
  | case1 => exact h
  | case2 => exact h
  | case3 => exact h
  | case4 _ _ _ _ _ _ ih => exact ih (takeRequest_same h.update)

theorem raisePromote_same {b : Nat} {la : Bool} (h : SameCard s₀ s) : SameCard s₀ (raisePromote b la s) := request_same h

theorem raiseEvict_same {b : Nat} (h : SameCard s₀ s) : SameCard s₀ (raiseEvict b s) := request_same h

theorem pumpEngine_same {region n : Nat} (h : SameCard s₀ s) : SameCard s₀ (pumpEngine region n s) := by
  fun_induction pumpEngine region n s with
  | case1 => exact h
  | case2 => exact h
  | case3 => exact h
  | case4 _ _ _ _ _ e ih => exact ih (SameCard.update ((ownerTry_same h).of_done e))

theorem pumpQueue_same {region : Nat} (h : SameCard s₀ s) : SameCard s₀ (pumpQueue region s) :=
  takeRaised_same (pumpEngine_same h)

theorem endCopy_same {b : Nat} (h : SameCard s₀ s) : SameCard s₀ (endCopy b s) := h.update

theorem copyFails_same {b : Nat} (h : SameCard s₀ s) : SameCard s₀ (copyFails b s) := by
  unfold copyFails
  split
  · exact h
  extract_lets e s₁
  have h₁ : SameCard s₀ s₁ := countRun_same (endCopy_same h)
  exact pumpQueue_same (.ite (setBarge_same h₁) (.ite (setBarge_same h₁) (setBarge_same h₁)))

theorem copySwitch_same {b : Nat} {c : MigCopy} (h : SameCard s₀ s) : SameCard s₀ (copySwitch b c s) :=
  have set {e : BargeEnt} {sub : Nat} : SameCard s₀ (countRun 0x3010 sub 1 (setBarge b e (endCopy b s))) :=
    countRun_same (setBarge_same (endCopy_same h))
  pumpQueue_same (.ite set (.ite set set))

theorem copyDone_same {b : Nat} (h : SameCard s₀ s) : SameCard s₀ (copyDone b s) := by
  unfold copyDone
  dsimp only
  split
  · exact h
  split
  · exact copyFails_same (recordDamage_same h)
  · split
    exacts [copyFails_same (recordDamage_same h), copySwitch_same (copyTo_same h)]

theorem registerUse_same {b ends : Nat} (h : SameCard s₀ s) : SameCard s₀ (registerUse b ends s) := setBarge_same h.update

theorem endUse_same {b : Nat} (h : SameCard s₀ s) : SameCard s₀ (endUse b s) := by
  unfold endUse
  exact .ite (raiseEvict_same (countRun_same (setBarge_same h))) (setBarge_same h)

theorem endUses_same (h : SameCard s₀ s) : SameCard s₀ (endUses s) := .foldl (fun _ _ => endUse_same) h.update

theorem lookahead_same {i : Nat} {e : SchedEnt} (h : SameCard s₀ s) : SameCard s₀ (lookahead i e s) := by
  conv => rhs; delta lookahead
  refine .ite h ?_
  split
  · next e => exact (readDev_same h).out e
  · next e => exact (readDev_same h).out e
  · next e =>
    refine .foldl (fun _ _ h => .ite h ?_) ((readDev_same h).out e)
    exact .foldl (fun _ _ h => raisePromote_same (modBarge_same (registerUse_same h))) h

theorem issuePromote_same {i : Nat} {e : SchedEnt} {step : Nat} (h : SameCard s₀ s) : SameCard s₀ (issuePromote i e step s) :=
  .foldl (fun _ _ h => raisePromote_same (registerUse_same h)) h.update

theorem judgeLate_same (h : SameCard s₀ s) : SameCard s₀ (judgeLate s) :=
  .foldl (fun _ _ h => .ite (countRun_same h.update) h) h

theorem beginSlot_same {k : Nat} (h : SameCard s₀ s) : SameCard s₀ (beginSlot k s) :=
  .ite h (judgeLate_same (.foldl (fun _ _ => issuePromote_same) (.foldl (fun _ _ => lookahead_same)
    (.foldl (fun _ _ => .foldl (fun _ _ => raiseEvict_same)) (endUses_same h.update)))))

theorem nextSlot_same (h : SameCard s₀ s) : SameCard s₀ (nextSlot s) := beginSlot_same h

theorem moveOff_same {b : Nat} (h : SameCard s₀ s) : SameCard s₀ (moveOff b s) := by
  unfold moveOff
  extract_lets e s₁ e₁
  have h₁ : SameCard s₀ s₁ := by
    refine .ite ?_ h
    split
    exacts [h, setBarge_same (moveBytes_same h)]
  refine .ite ?_ h₁
  split
  exacts [h₁, setBarge_same (moveBytes_same (tookResv_same h₁))]

theorem moveOffAll_same (h : SameCard s₀ s) : SameCard s₀ (moveOffAll s) := .update (.foldl (fun _ _ => moveOff_same) h)

/-! ### Domains -/

theorem wakePath_same (h : SameCard s₀ s) : SameCard s₀ (wakePath s) := .ite (countBoot_same h.update) h

/-! ### The units' load -/

theorem loadUnits_same {area : Nat} (h : SameCard s₀ s) : SameCard s₀ (loadUnits area s) := h.update

theorem reloadUnits_same (h : SameCard s₀ s) : SameCard s₀ (reloadUnits s) := by
  conv => rhs; delta reloadUnits
  obtain ⟨bad, e⟩ := exists_eq' (a' := @firstBad)
  rw [e]
  split
  · exact h
  extract_lets xs
  split
  exacts [loadUnits_same h, h.update]

theorem unitsOff_same (h : SameCard s₀ s) : SameCard s₀ (unitsOff s) := h.update

/-! ### What a commit applies -/

theorem followNode_same {old new : Nat} (h : SameCard s₀ s) : SameCard s₀ (followNode old new s) := by
  unfold followNode
  dsimp only
  refine .foldl (fun s a h => ?_) h
  split
  exacts [h, .ite (putVal_same h) h]

theorem endSessions_same {r : Route} (h : SameCard s₀ s) : SameCard s₀ (endSessions r s) := h.update

theorem topologyApplies_same (h : SameCard s₀ s) : SameCard s₀ (topologyApplies s) := h.update

theorem applyEntry_same {e : EntryVal} (h : SameCard s₀ s) : SameCard s₀ (applyEntry e s) :=
  .ite (followNode_same (putVal_same h)) (.ite (topologyApplies_same (putVal_same h)) (.when .update (putVal_same h)))

theorem applyEntries_same {es : List EntryVal} (h : SameCard s₀ s) : SameCard s₀ (applyEntries es s) :=
  .foldl (fun _ _ => applyEntry_same) h

theorem settleGens_same {gens : List (BitVec 32)} (h : SameCard s₀ s) : SameCard s₀ (settleGens gens s) :=
  .foldl (fun _ _ h => .ite h (.ite h.update h)) h

theorem applyParts_same {due : Part → Bool} (h : SameCard s₀ s) : SameCard s₀ (applyParts due s) :=
  settleGens_same (.foldl (fun _ _ => applyEntries_same) h.update)

theorem applyCan_same (h : SameCard s₀ s) : SameCard s₀ (applyCan s) :=
  .ite h (.when send_same (endSessions_same (applyParts_same h)))

theorem applyIdleParts_same (h : SameCard s₀ s) : SameCard s₀ (applyIdleParts s) := .ite (applyParts_same h) h

theorem applyPlanParts_same (h : SameCard s₀ s) : SameCard s₀ (applyPlanParts s) := applyParts_same h

theorem setLatch_same {idx sub v : Nat} (h : SameCard s₀ s) : SameCard s₀ (setLatch idx sub v s) := h.update

theorem latchStats_same (h : SameCard s₀ s) : SameCard s₀ (latchStats s) := h.update

theorem dropStats_same (h : SameCard s₀ s) : SameCard s₀ (dropStats s) := h.update

theorem sendTpdo_same {n : Nat} (h : SameCard s₀ s) : SameCard s₀ (sendTpdo n s) := .ite h (send_same h.update)

theorem commitTpdos_same (h : SameCard s₀ s) : SameCard s₀ (commitTpdos s) :=
  .foldl (fun _ _ h => .ite (sendTpdo_same h) h) h

/-! ### Vector operations -/

theorem vecDone_same {r : VRec} {dst : Option Operand} {x : Elems} {t : Tally} {cycles p : Nat} {u : UnitSt}
    (h : SameCard s₀ s) :
    OpRes.Keeps s₀ (vecDone r dst x t cycles p u s) := by
  unfold vecDone
  dsimp only
  split
  · exact .fault
  · split
    exacts [.wait, .fault, .ok (countRun_same (chargeTally_same (setUnit_same h)))]

theorem vecElems_same {ar mul : Nat} {packed : VRec → Bool} {inF outF : VRec → Nat}
    {f : VRec → State → UnitSt → Nat → List Nat → Nat × Tally} {w : List Nat} {p : Nat} (h : SameCard s₀ s) :
    OpRes.Keeps s₀ (vecElems ar mul packed inF outF f w p s) := by
  unfold vecElems
  dsimp only
  split
  · exact .fault
  split
  · exact .wait
  · split
    exacts [.wait, .fault, vecDone_same h]

theorem vecFloat_same {ar mul : Nat} {f : List Num → Num × Tally} {w : List Nat} {p : Nat} (h : SameCard s₀ s) :
    OpRes.Keeps s₀ (vecFloat ar mul f w p s) := by
  unfold vecFloat
  split
  · exact .fault
  · split
    exacts [.fault, vecElems_same h]

theorem vecTrans_same {f : Num → Nat × Tally} {w : List Nat} {p : Nat} (h : SameCard s₀ s) :
    OpRes.Keeps s₀ (vecTrans f w p s) := by
  unfold vecTrans
  dsimp only
  split
  · exact .fault
  · split
    exacts [.fault, vecElems_same h]

theorem vecInt_same {f : W32 → W32 → W32} {w : List Nat} {p : Nat} (h : SameCard s₀ s) : OpRes.Keeps s₀ (vecInt f w p s) :=
  vecElems_same h

theorem maskDone_same {r : VRec} {dst : Option Operand} {vals : Nat → Bool} {cycles p : Nat} {u : UnitSt} (h : SameCard s₀ s) :
    OpRes.Keeps s₀ (maskDone r dst vals cycles p u s) := by
  unfold maskDone
  dsimp only
  split
  exacts [.ok (countRun_same (setUnit_same h)), .fault]

theorem vecCompare_same {int : Bool} {w : List Nat} {p : Nat} (h : SameCard s₀ s) :
    OpRes.Keeps s₀ (vecCompare int w p s) := by
  unfold vecCompare
  dsimp only
  split
  · exact .fault
  split
  · exact .fault
  split
  · exact .wait
  · split
    exacts [.wait, .fault, maskDone_same h]

theorem vecMask_same {ar : Nat} {f : Bool → Bool → Bool} {w : List Nat} {p : Nat} (h : SameCard s₀ s) :
    OpRes.Keeps s₀ (vecMask ar f w p s) := by
  unfold vecMask
  dsimp only
  split
  · exact .fault
  split
  · exact .wait
  · split
    exacts [.fault, maskDone_same h]

theorem vecKidx_same {w : List Nat} {p : Nat} (h : SameCard s₀ s) : OpRes.Keeps s₀ (vecKidx w p s) := by
  unfold vecKidx
  dsimp only
  split
  · split
    · exact .wait
    · split
      exacts [.wait, .fault, .ok (countRun_same (setUnit_same h))]
  · exact .fault

theorem vecMov_same {w : List Nat} {p : Nat} (h : SameCard s₀ s) : OpRes.Keeps s₀ (vecMov w p s) := by
  unfold vecMov
  dsimp only
  split
  · exact .fault
  split
  · exact .fault
  split
  · exact .wait
  · split
    exacts [.wait, .fault, vecDone_same h]

theorem vecSel_same {w : List Nat} {p : Nat} (h : SameCard s₀ s) : OpRes.Keeps s₀ (vecSel w p s) := by
  unfold vecSel
  dsimp only
  split
  · exact .fault
  split
  · exact .fault
  split
  · exact .wait
  · split
    exacts [.wait, .fault, vecDone_same h]

theorem vecCvt_same {w : List Nat} {p : Nat} (h : SameCard s₀ s) : OpRes.Keeps s₀ (vecCvt w p s) := by
  unfold vecCvt
  dsimp only
  split
  · exact .fault
  split
  · exact .fault
  split
  · exact .wait
  · split
    exacts [.wait, .fault, vecDone_same (convElems_same h)]

theorem vecVtag_same {w : List Nat} {p : Nat} (h : SameCard s₀ s) : OpRes.Keeps s₀ (vecVtag w p s) :=
  .ite .wait (.ok (setUnit_same h))

theorem vecFcps_same {w : List Nat} {p : Nat} (h : SameCard s₀ s) : OpRes.Keeps s₀ (vecFcps w p s) := by
  unfold vecFcps
  split
  · exact .fault
  · split
    exacts [.fault, vecElems_same h]

/-! ### Engine operations -/

theorem readAreas_same {xs : List Area} {ecc : Ecc} (h : SameCard s₀ s) : SameCard s₀ (readAreas xs ecc s).1 := by
  generalize hf : readAreas = f
  delta readAreas readAreas._f at hf
  obtain ⟨rd, e, hr⟩ := readDev_sealed s₀
  rw [e] at hf
  subst hf
  induction xs generalizing s ecc with
  | nil => exact h
  | cons x xs ih =>
    cases x with
    | pend a n =>
      dsimp only
      split
      · exact failPond_same h
      split
      · next e => exact (ih h).fst e
      · next e => exact (ih h).fst e
    | dev a n =>
      dsimp only
      split
      · next e =>
        have h := (hr h).out e
        split
        · next e => exact (ih h).fst e
        · next e => exact (ih h).fst e
      · next e => exact (hr h).out e
      · next e => exact (hr h).out e

theorem readAreas_sealed (s₀ : State) : ∃ f, readAreas = f ∧
    ∀ {xs ecc s}, SameCard s₀ s → SameCard s₀ (f xs ecc s).1 := ⟨_, rfl, readAreas_same⟩

theorem writeAreas_same {xs : List (Nat × Bytes)} (h : SameCard s₀ s) : SameCard s₀ (writeAreas xs s).1 := by
  generalize hf : writeAreas = f
  delta writeAreas writeAreas._f at hf
  obtain ⟨wr, e, hw⟩ := writeDev_sealed s₀
  rw [e] at hf
  subst hf
  induction xs generalizing s with
  | nil => exact h
  | cons x xs ih =>
    dsimp only
    split
    · next e => exact ih ((hw h).out e)
    · next e => exact (hw h).out e
    · next e => exact (hw h).out e

theorem writeAreas_sealed (s₀ : State) : ∃ f, writeAreas = f ∧
    ∀ {xs s}, SameCard s₀ s → SameCard s₀ (f xs s).1 := ⟨_, rfl, writeAreas_same⟩

theorem sumTensors_same {shadow : Bool} {l : Int} {ts : List TensorEnt} {g : GradSum} {ecc : Ecc} (h : SameCard s₀ s) :
    SameCard s₀ (sumTensors shadow l ts g ecc s).1 := by
  fun_induction sumTensors shadow l ts g ecc s with
  | case1 => exact h
  | case2 _ _ _ _ _ _ e => exact (readAreas_same h).fst e
  | case3 _ _ _ _ _ _ _ e _ _ _ _ _ e₂ => exact (writeAreas_same ((readAreas_same h).fst e)).fst e₂
  | case4 _ _ _ _ _ _ _ e _ _ _ _ _ e₂ ih => exact ih ((writeAreas_same ((readAreas_same h).fst e)).fst e₂)

theorem updateFactors_same {c : UpdC} {t : TensorEnt} (h : SameCard s₀ s) : SameCard s₀ (updateFactors c t s).1 := by
  generalize hp : updateFactors c t s = p
  generalize hf : updateFactors = f at hp
  delta updateFactors at hf
  subst hf
  beta_reduce at hp
  split at hp
  · next e =>
    have h := (readAreas_same h).fst e
    extract_lets a b w at hp
    have hw : SameCard s₀ w.1 := writeAreas_same h
    exact hp ▸ SameCard.pair hw
  · next e => exact hp ▸ SameCard.pair ((readAreas_same h).fst e)

theorem updateFactors_sealed (s₀ : State) : ∃ f, updateFactors = f ∧
    ∀ {c t s}, SameCard s₀ s → SameCard s₀ (f c t s).1 := ⟨_, rfl, updateFactors_same⟩

theorem stageFactors_same {c : UpdC} {ts : List TensorEnt} (h : SameCard s₀ s) : SameCard s₀ (stageFactors c ts s).1 := by
  generalize hf : stageFactors = f
  delta stageFactors stageFactors._f at hf
  obtain ⟨uf, e, hu⟩ := updateFactors_sealed s₀
  rw [e] at hf
  subst hf
  induction ts generalizing s with
  | nil => exact h
  | cons t ts ih => exact .iteFst (ih h) (.iteFst (.pair (hu h)) (.pair (ih (hu h))))

theorem stageFactors_sealed (s₀ : State) : ∃ f, stageFactors = f ∧
    ∀ {c ts s}, SameCard s₀ s → SameCard s₀ (f c ts s).1 := ⟨_, rfl, stageFactors_same⟩

theorem updatePiece_same {shadow : Bool} {c : UpdC} {t : TensorEnt} {piece : Nat} {ecc : Ecc} (h : SameCard s₀ s) :
    SameCard s₀ (updatePiece shadow c t piece ecc s).1 := by
  generalize hp : updatePiece shadow c t piece ecc s = p
  generalize hf : updatePiece = f at hp
  delta updatePiece at hf
  obtain ⟨rd, e₁, hr⟩ := readAreas_sealed s₀
  obtain ⟨wr, e₂, hw⟩ := writeAreas_sealed s₀
  rw [e₁, e₂] at hf
  subst hf
  beta_reduce at hp
  extract_lets +onlyGivenNames lo n fail fact plainV areas at hp
  split at hp
  · next e =>
    have h := (hr h).fst e
    extract_lets +onlyGivenNames ps gs sv tt one rs outs at hp
    split at hp
    · next e => exact hp ▸ (hw h).fst e
    · next e => exact hp ▸ SameCard.pair ((hw h).fst e)
  · next e => exact hp ▸ (hr h).fst e

theorem updatePiece_sealed (s₀ : State) : ∃ f, updatePiece = f ∧
    ∀ {shadow c t piece ecc s}, SameCard s₀ s → SameCard s₀ (f shadow c t piece ecc s).1 := ⟨_, rfl, updatePiece_same⟩

theorem readRec_same {lt : LayerTab} {k : Nat} (h : SameCard s₀ s) : SameCard s₀ (readRec lt k s).1 := by
  generalize hp : readRec lt k s = p
  generalize hf : readRec = f at hp
  delta readRec at hf
  subst hf
  beta_reduce at hp
  split at hp
  · next e => exact hp ▸ (readAreas_same h).fst e
  · next e => exact hp ▸ (readAreas_same h).fst e

theorem sumTensors_sealed (s₀ : State) : ∃ f, sumTensors = f ∧
    ∀ {shadow l ts g ecc s}, SameCard s₀ s → SameCard s₀ (f shadow l ts g ecc s).1 := ⟨_, rfl, sumTensors_same⟩

theorem readRec_sealed (s₀ : State) : ∃ f, readRec = f ∧
    ∀ {lt k s}, SameCard s₀ s → SameCard s₀ (f lt k s).1 := ⟨_, rfl, readRec_same⟩

theorem rebuildWork_same {lt : LayerTab} {e : LayerEnt} (h : SameCard s₀ s) : SameCard s₀ (rebuildWork lt e s) := by
  unfold rebuildWork
  refine .foldl (fun s a h => ?_) h
  split
  · next e => exact (readDev_same h).out e
  · next e => exact (readDev_same h).out e
  · next e => exact pokeDev_same ((readDev_same h).out e)

/-! ### Pieces of the update -/

theorem setLayerRun_same {k : Nat} {r : LayerRun} (h : SameCard s₀ s) : SameCard s₀ (setLayerRun k r s) := h.update

theorem sendNorm_same (h : SameCard s₀ s) : SameCard s₀ (sendNorm s) := .ite (toCard_same h.update) h

theorem engineFails_same {layer : Nat} (h : SameCard s₀ s) : SameCard s₀ (engineFails layer s) := reportAbort_same h

theorem checkEnds_same {k : Nat} {e : LayerEnt} {r : LayerRec} {g : GradSum} (h : SameCard s₀ s) :
    SameCard s₀ (checkEnds k e r g s) :=
  have h := SameCard.foldl (fun _ _ => chargeTally_same) h
  .ite (reportAbort_same h) (sendNorm_same (.when countRun_same (.when countRun_same (maxRun_same (setLayerRun_same h).update))))

theorem checkDone_same {k : Nat} {e : LayerEnt} {ecc : Ecc} (h : SameCard s₀ s) : SameCard s₀ (checkDone k e ecc s) := by
  generalize hf : checkDone = f
  delta checkDone at hf
  obtain ⟨su, e₁, hs⟩ := sumTensors_sealed s₀
  obtain ⟨rr, e₂, hr⟩ := readRec_sealed s₀
  rw [e₁, e₂] at hf
  subst hf
  beta_reduce
  extract_lets +onlyGivenNames lt _ s₁
  have h₁ : SameCard s₀ s₁ := setLayerRun_same h
  split
  · next e => exact engineFails_same ((hs h₁).fst e)
  · next e =>
    have h := (hs h₁).fst e
    split
    · next e => exact engineFails_same ((hr h).fst e)
    · next e => exact checkEnds_same ((hr h).fst e)

theorem touch_same {k : Nat} (h : SameCard s₀ s) : SameCard s₀ (touch k s) := h.update

theorem stageBegins_same {k : Nat} {e : LayerEnt} {r : LayerRec} (h : SameCard s₀ s) :
    SameCard s₀ (stageBegins k e r s) := by
  unfold stageBegins
  extract_lets lt cs c _ s₁ _ s₂ s₃ x s₄
  have h₂ : SameCard s₀ s₂ := (touch_same (setLayerRun_same h)).update
  have h₃ : SameCard s₀ s₃ := chargeTally_same h₂
  have h₄ : SameCard s₀ s₄ := .foldl (fun _ _ => chargeTally_same) (stageFactors_same h₃)
  exact .ite (engineFails_same h₄) (.when reportAbort_same h₄)

theorem stageStart_same {k : Nat} {e : LayerEnt} (h : SameCard s₀ s) : SameCard s₀ (stageStart k e s) := by
  generalize hf : stageStart = f
  delta stageStart at hf
  subst hf
  beta_reduce
  split
  · next e => exact engineFails_same ((readRec_same h).fst e)
  · next e => exact stageBegins_same ((readRec_same h).fst e)

theorem workCopy_same {k j piece : Nat} {t : TensorEnt} {far : Bool} {work : Bytes} (h : SameCard s₀ s) :
    SameCard s₀ (workCopy k j piece t far work s).1 :=
  .iteFst (.pair h.update) (writeAreas_same h)

theorem sendGrad_same {k : Nat} {e : LayerEnt} (h : SameCard s₀ s) : SameCard s₀ (sendGrad k e s) := by
  unfold sendGrad
  dsimp only
  split
  · next e => exact engineFails_same ((readAreas_same h).fst e)
  · next e => exact toTwin_same (toTwin_same ((readAreas_same h).fst e))

theorem layerUpdated_same {k : Nat} {e : LayerEnt} (h : SameCard s₀ s) : SameCard s₀ (layerUpdated k e s) := by
  unfold layerUpdated
  dsimp only
  split
  exacts [engineFails_same h, .ite (sendGrad_same (setLayerRun_same h)) (setLayerRun_same h)]

theorem pieceDone_same {k j piece : Nat} {e : LayerEnt} {t : TensorEnt} {ecc : Ecc} (h : SameCard s₀ s) :
    SameCard s₀ (pieceDone k j piece e t ecc s) := by
  generalize hf : pieceDone = f
  delta pieceDone at hf
  subst hf
  beta_reduce
  extract_lets +onlyGivenNames lt run c far
  split
  next e =>
  have h := (updatePiece_same h).fst e
  refine .ite (engineFails_same h) ?_
  extract_lets +onlyGivenNames _ s₁ s₂
  have h₂ : SameCard s₀ s₂ := countRun_same (chargeTally_same (setLayerRun_same h))
  split
  · next e => exact engineFails_same ((workCopy_same h₂).fst e)
  · next e =>
    have h := (workCopy_same h₂).fst e
    exact .ite (reportAbort_same h) (.ite (layerUpdated_same h) h)

theorem refreshOne_same {x : Nat × Nat × Nat} (h : SameCard s₀ s) : SameCard s₀ (refreshOne s x) := by
  generalize hf : refreshOne = f
  delta refreshOne at hf
  obtain ⟨rd, e, hr⟩ := readDev_sealed s₀
  obtain ⟨wr, e', hw⟩ := writeAreas_sealed s₀
  rw [e, e'] at hf
  subst hf
  beta_reduce
  extract_lets +onlyGivenNames lt
  split
  · exact h
  split
  · exact h
  extract_lets +onlyGivenNames r
  split
  · next e => exact engineFails_same ((hr h).out e)
  · next e => exact engineFails_same ((hr h).out e)
  · next e =>
    have h := (hr h).out e
    split
    · next e => exact engineFails_same ((hw h).fst e)
    · next e => exact countRun_same ((hw h).fst e)

theorem execLayerCheckDone_same {layer : Nat} {ecc : Ecc} (h : SameCard s₀ s) :
    Answers s₀ (execLayerCheckDone layer ecc s) := by
  unfold execLayerCheckDone
  refine .next ?_
  split
  exacts [h, .ite (checkDone_same h) h]

theorem execUpdateStageStart_same {layer : Nat} (h : SameCard s₀ s) : Answers s₀ (execUpdateStageStart layer s) := by
  unfold execUpdateStageStart
  refine .next ?_
  split
  exacts [h, .ite (stageStart_same h) h]

theorem stopEngine_same {g : Nat} (h : SameCard s₀ s) : SameCard s₀ (stopEngine g s) := .ite h h.update

theorem execUpdatePieceDone_same {layer tensor piece : Nat} {ecc : Ecc} (h : SameCard s₀ s) :
    Answers s₀ (execUpdatePieceDone layer tensor piece ecc s) := by
  unfold execUpdatePieceDone
  dsimp only
  refine .next ?_
  split
  · exact h
  · split
    exacts [h, .ite (pieceDone_same (stopEngine_same h)) h]

/-! ### The step boundary -/

theorem setBoot_same {idx sub v : Nat} (h : SameCard s₀ s) : SameCard s₀ (setBoot idx sub v s) := h.update

theorem clearReadings_same (h : SameCard s₀ s) : SameCard s₀ (clearReadings s) := h.update

theorem mapHeld_same {f : Held → Held} {addr blocks : Nat} (h : SameCard s₀ s) :
    SameCard s₀ (mapHeld f addr blocks s).1 := by
  generalize hp : mapHeld f addr blocks s = p
  generalize hf : mapHeld = g at hp
  delta mapHeld at hf
  subst hf
  beta_reduce at hp
  split at hp
  · next e => exact hp ▸ SameCard.pair (pokeDev_same ((readDev_same h).out e))
  · exact hp ▸ SameCard.pair (readDev_same h)

theorem mapHelds_same {f : Held → Held} (h : SameCard s₀ s) : SameCard s₀ (mapHelds f s).1 :=
  .foldlFst (fun _ _ h => .pair (mapHeld_same h)) (.pair h)

theorem commitHeld_same (h : SameCard s₀ s) : SameCard s₀ (commitHeld s) := setLatch_same (setLatch_same (mapHelds_same h))

theorem abortHeld_same (h : SameCard s₀ s) : SameCard s₀ (abortHeld s) := mapHelds_same h

theorem judgeSlow_same (h : SameCard s₀ s) : SameCard s₀ (judgeSlow s) :=
  .ite (raiseOpen_same (countBoot_same h.update)) h.update

theorem mapUnit_same {p l : Nat} (h : SameCard s₀ s) : SameCard s₀ (mapUnit p l s) := h.update

theorem setCond_same {p c : Nat} (h : SameCard s₀ s) : SameCard s₀ (setCond p c s) := h.update

theorem retireUnit_same {p cond : Nat} (h : SameCard s₀ s) : SameCard s₀ (retireUnit p cond s) := by
  unfold retireUnit
  extract_lets l s₁ s₂
  have h₂ : SameCard s₀ s₂ := setCond_same (mapUnit_same (addRepair_same h))
  split
  · exact setUnit_same h₂
  extract_lets s₃ s₄ s₅
  have h₄ : SameCard s₀ s₄ := setCond_same (mapUnit_same (setUnit_same (setUnit_same h₂)))
  exact raiseOpen_same (setBoot_same (countBoot_same h₄))

theorem retireOwed_same (h : SameCard s₀ s) : SameCard s₀ (retireOwed s) := .foldl (fun _ _ => retireUnit_same) h.update

theorem judgeSlip_same (h : SameCard s₀ s) : SameCard s₀ (judgeSlip s) := by
  unfold judgeSlip
  extract_lets ps med2 above run s₁
  refine .foldl (fun s p h => .ite ?_ h) h.update
  split
  exacts [retireUnit_same h.update, raiseOpen_same (countBoot_same h)]

theorem sayCodes_same {old new logic stackT : List Nat} (h : SameCard s₀ s) : SameCard s₀ (sayCodes old new logic stackT s) :=
  .foldl (fun _ _ h => .ite h (raiseOpen_same h)) h

theorem openSnaps_same (h : SameCard s₀ s) : SameCard s₀ (openSnaps s) :=
  .foldl (fun _ _ h => .ite (.ite (setSnap_same h).update.update (setSnap_same h).update) h) h

theorem resetUnits_same (h : SameCard s₀ s) : SameCard s₀ (resetUnits s) := h.update

/-! ### Harvest -/

theorem harvWrite_same {kind addr ref : Nat} {data : Bytes}
    (h : SameCard s₀ s) : SameCard s₀ (harvWrite kind addr ref data s) :=
  h.update

theorem setHarv_same {st : Nat} (h : SameCard s₀ s) : SameCard s₀ (setHarv st s) := .unless raiseVec_same h.update

theorem sayHarvest_same (h : SameCard s₀ s) : SameCard s₀ (sayHarvest s) := raiseOpen_same h

theorem closeSnap_same {k : Nat} (h : SameCard s₀ s) : SameCard s₀ (closeSnap k s) := dropSnapCopies_same (setSnap_same h)

theorem harvEnd_same (h : SameCard s₀ s) : SameCard s₀ (harvEnd s) := by
  unfold harvEnd
  dsimp only
  refine .update ?_
  split
  exacts [h, closeSnap_same h]

theorem harvFail_same {cause : Nat} (h : SameCard s₀ s) : SameCard s₀ (harvFail cause s) :=
  .ite (sayHarvest_same (setHarv_same (harvEnd_same h.update))) h

theorem toGateway_same {off : Nat} {bs : Bytes} (h : SameCard s₀ s) : SameCard s₀ (toGateway off bs s) := by
  unfold toGateway
  dsimp only
  split
  · exact h
  · split
    exacts [harvFail_same (countBoot_same h), sendRun_same ((freshTxn_same h).update)]

theorem harvDone_same (h : SameCard s₀ s) : SameCard s₀ (harvDone s) :=
  sayHarvest_same (setHarv_same (harvEnd_same h.update))

theorem harvStop_same (h : SameCard s₀ s) : SameCard s₀ (harvStop s) := .ite (harvFail_same h) h

theorem harvStart_same {block : Bytes} (h : SameCard s₀ s) : SameCard s₀ (harvStart block s) := by
  unfold harvStart
  extract_lets +onlyGivenNames _ s₁ n _ s₂
  have h₂ : SameCard s₀ s₂ := (setHarv_same h.update).update
  refine .ite (harvFail_same h₂) (.ite (harvFail_same h₂) (.ite (harvFail_same h₂) ?_))
  split
  · exact harvFail_same h₂
  extract_lets +onlyGivenNames dir s₃ _ _ s₄
  have h₄ : SameCard s₀ s₄ := (setSnap_same h₂).update
  refine .ite (.foldl (fun _ _ => harvWrite_same) (harvWrite_same h₄)) ?_
  split
  exacts [harvFail_same h₄, askCard_same h₄]

theorem gatewayTable_same {ans : Option Bytes} (h : SameCard s₀ s) : SameCard s₀ (gatewayTable ans s) := by
  unfold gatewayTable
  split
  · exact h
  split
  · exact harvFail_same h
  · split
    exacts [harvFail_same h, .ite (harvFail_same h) (toGateway_same h)]

theorem snapRanges_same {k : Nat} {rs : List (Nat × Nat)} (h : SameCard s₀ s) : SameCard s₀ (snapRanges k rs s).state := by
  induction rs generalizing s with
  | nil => exact h
  | cons x xs ih =>
    unfold snapRanges
    split
    · next e =>
      have h := (snapRead_same h).out e
      split
      · next e => exact .ok ((ih h).out e)
      · exact ih h
    · exact snapRead_same h

theorem readSection_same {i : Nat} (h : SameCard s₀ s) : SameCard s₀ (readSection i s).state := by
  unfold readSection
  split
  exacts [.iteOut (.ok h) (snapRanges_same h), .failed h]

theorem takeSection_same {i : Nat} (h : SameCard s₀ s) : SameCard s₀ (takeSection i s).1 := by
  unfold takeSection
  dsimp only
  split
  · next e => exact .pair (harvFail_same ((readSection_same h).out e))
  · next e => exact .pair (harvFail_same ((readSection_same h).out e))
  · next e => exact .pair ((readSection_same h).out e).update

theorem harvAtCommit_same {t : Nat} {block : Bytes} (h : SameCard s₀ s) : SameCard s₀ (harvAtCommit t block s) :=
  .ite (.ite (harvStart_same h) h) (.ite h (.ite (harvStart_same h.update) h))

theorem pokeRanges_same {rs : List (Nat × Nat)} {bs : Bytes} (h : SameCard s₀ s) : SameCard s₀ (pokeRanges rs bs s) := by
  fun_induction pokeRanges rs bs s with
  | case1 => exact h
  | case2 _ _ _ _ ih => exact ih (pokeDev_same h)

theorem applyBoundary_same {bs : Bytes} (h : SameCard s₀ s) : SameCard s₀ (applyBoundary bs s) :=
  (applyEntries_same h).update

theorem loadSection_same {x : Nat × Nat × Bytes × Nat} (h : SameCard s₀ s) : SameCard s₀ (loadSection x s) := by
  unfold loadSection
  split
  · exact pokeRanges_same h
  · split
    exacts [h, pokeDev_same h]
  · exact applyBoundary_same h
  · exact h

theorem storedDigest_same {lt : LayerTab} {k : Nat} (h : SameCard s₀ s) : SameCard s₀ (storedDigest lt k s).1 :=
  .pair (fetchRanges_same h)

theorem digestOwn_same (h : SameCard s₀ s) : SameCard s₀ (digestOwn s) :=
  .foldl (fun _ _ h => (storedDigest_same h).update) h.update

theorem rebuildAll_same (h : SameCard s₀ s) : SameCard s₀ (rebuildAll s) := .foldl (fun _ _ => rebuildWork_same) h

/-! ### Reply -/

theorem respond_same {a : Access} {sub : Nat} {o : Out} (h : SameCard s₀ s) : SameCard s₀ (respond a sub o s) :=
  .ite (countBoot_same (send_same h)) h

theorem reply_same {a : Access} {body : Bytes} (h : SameCard s₀ s) : SameCard s₀ (reply a body s) := respond_same h

theorem refuse_same {a : Access} {idx sub code : Nat} (h : SameCard s₀ s) : SameCard s₀ (refuse a idx sub code s) :=
  respond_same h

theorem serve_same {a : Access} {idx sub : Nat} {f : State → State} (hf : ∀ s, SameCard s₀ s → SameCard s₀ (f s))
    (h : SameCard s₀ s) :
    SameCard s₀ (serve a idx sub f s) :=
  .ite (.ite (hf _ h) (refuse_same h)) h

theorem wake_same {cause : Nat} (h : SameCard s₀ s) : SameCard s₀ (wake cause s) :=
  .ite (applyIdleParts_same (reloadUnits_same (raiseOpen_same h.update))) h

theorem actWrite_same {a : Access} {idx sub : Nat} {f : State → State} (hf : ∀ s, SameCard s₀ s → SameCard s₀ (f s))
    (h : SameCard s₀ s) :
    SameCard s₀ (actWrite a idx sub f s) :=
  serve_same (fun _ h => .ite (refuse_same h) (.ite (wake_same (refuse_same h)) (hf _ h))) h

theorem noteRead_same {idx : Nat} {sub : Option Nat} (h : SameCard s₀ s) : SameCard s₀ (noteRead idx sub s) :=
  .ite h.update h

theorem serveRead_same {a : Access} {idx : Nat} {sub : Option Nat} {f : Bytes → State → State}
    (hf : ∀ x0 s, SameCard s₀ s → SameCard s₀ (f x0 s)) (h : SameCard s₀ s) :
    SameCard s₀ (serveRead a idx sub f s) := by
  unfold serveRead
  refine serve_same (fun _ h => ?_) h
  split
  exacts [refuse_same h, noteRead_same (hf _ _ h)]

theorem answerRead_same {a : Access} {idx sub : Nat} (h : SameCard s₀ s) : SameCard s₀ (answerRead a idx sub s) :=
  serveRead_same (fun _ _ => reply_same) h

theorem answerAll_same {a : Access} {idx : Nat} (h : SameCard s₀ s) : SameCard s₀ (answerAll a idx s) :=
  serveRead_same (fun _ _ => reply_same) h

/-! ### Pair -/

theorem answerWaits_same (h : SameCard s₀ s) : SameCard s₀ (answerWaits s) :=
  applyCan_same (.foldl (fun _ _ => reply_same) h.update)

theorem setPair_same {p : PairState} {cause : Nat} (h : SameCard s₀ s) : SameCard s₀ (setPair p cause s) :=
  .unless raiseOpen_same (.update (.ite h (answerWaits_same h)))

theorem enterSolo_same {cause : Nat} (h : SameCard s₀ s) : SameCard s₀ (enterSolo cause s) := (setPair_same h).update

theorem stopUnits_same (h : SameCard s₀ s) : SameCard s₀ (stopUnits s) := h.update

theorem mirrorService_same (h : SameCard s₀ s) : SameCard s₀ (mirrorService s) :=
  .update (.when setPair_same (stopUnits_same h))

theorem cardFails_same (h : SameCard s₀ s) : SameCard s₀ (cardFails s) := .ite h (mirrorService_same (toCard_same h))

theorem pullLayer_same {k : Nat} {withRec : Bool} (h : SameCard s₀ s) : SameCard s₀ (pullLayer k withRec s) := toTwin_same h

theorem markMirror_same {b : Nat} (h : SameCard s₀ s) : SameCard s₀ (markMirror s b) :=
  .ite (toTwin_same h.update.update) h.update

theorem pondDamaged_same {off : Nat} (h : SameCard s₀ s) : SameCard s₀ (pondDamaged off s) := by
  unfold pondDamaged
  dsimp only
  split
  · exact h
  split
  · exact toTwin_same h
  · split
    exacts [h, toTwin_same h]

theorem damageFound_same (h : SameCard s₀ t) : SameCard s₀ (damageFound s t) := by
  unfold damageFound
  extract_lets _ s₁
  have h₁ : SameCard s₀ s₁ := .foldl (fun _ _ => markMirror_same) h
  exact .when reportAbort_same h₁

theorem handleDamage_same (h : SameCard s₀ s) : SameCard s₀ (handleDamage s) := by
  unfold handleDamage
  refine .foldl (fun s b h => markMirror_same (.foldl (fun s k h => ?_) ?_)) h.update
  · split
    exacts [h, rebuildWork_same h]
  · exact .when (.foldl fun _ _ => toTwin_same) h.update

/-! ### Remote writes and reads -/

theorem markLanding_same {t : TreeRec} {fault : Bool} (h : SameCard s₀ s) : SameCard s₀ (markLanding t fault s) := by
  unfold markLanding
  dsimp only
  split
  exacts [h, modUnit_same h]

theorem treeFault_same {tree cause addr : Nat} (h : SameCard s₀ s) : SameCard s₀ (treeFault tree cause addr s) := by
  unfold treeFault
  dsimp only
  refine recordStreamFault_same ?_
  split
  exacts [h, markLanding_same h]

theorem failRemote_same {r : Remote} (h : SameCard s₀ s) : SameCard s₀ (failRemote r s) :=
  have h := countRemoteFail_same (dropRemotes_same h)
  .ite (harvFail_same h) (.ite (treeFault_same h) (.unless (fun h => .when streamFault_same h) h))

theorem failWhere_same {f : Remote → Bool} (h : SameCard s₀ s) : SameCard s₀ (failWhere f s) :=
  .foldl (fun _ _ => failRemote_same) h

theorem failPort_same {p : Nat} (h : SameCard s₀ s) : SameCard s₀ (failPort p s) := failWhere_same h

theorem failCard_same {card : Nat} (h : SameCard s₀ s) : SameCard s₀ (failCard card s) := failWhere_same h

theorem portDown_same {p : Nat} {x : PortSt} (h : SameCard s₀ s) : SameCard s₀ (portDown p x s) :=
  failPort_same (setPort_same (freeQueue_same h))

/-! ### Recovery -/

theorem sendAbort_same {step attempt cause card layer action : Nat} (h : SameCard s₀ s) :
    SameCard s₀ (sendAbort step attempt cause card layer action s) :=
  toCards_same h.update

theorem setRec_same {st : Nat} (h : SameCard s₀ s) : SameCard s₀ (setRec st s) := .unless raiseOpen_same h.update

theorem recFail_same {cause : Nat} (h : SameCard s₀ s) : SameCard s₀ (recFail cause s) :=
  .unless (fun h => .when sendAbort_same h) (setRec_same h.update)

theorem recLost_same (h : SameCard s₀ s) : SameCard s₀ (recLost s) := .ite (recFail_same h) h

theorem recruitNext_same (h : SameCard s₀ s) : SameCard s₀ (recruitNext s) := by
  unfold recruitNext
  dsimp only
  split
  · exact .foldl (fun _ _ => askCard_same) (setRec_same h)
  · split
    exacts [recFail_same h.update, askCard_same (setRec_same h.update.update)]

theorem askPartners_same (h : SameCard s₀ s) : SameCard s₀ (askPartners s) := .foldl (fun _ _ => askCard_same) h

theorem recruitAll_same (h : SameCard s₀ s) : SameCard s₀ (recruitAll s) := recruitNext_same (askPartners_same h)

theorem recruitLate_same (h : SameCard s₀ s) : SameCard s₀ (recruitLate s) := by
  unfold recruitLate
  dsimp only
  split
  exacts [h, .ite (recruitNext_same h.update) h]

theorem tellHandover_same (h : SameCard s₀ s) : SameCard s₀ (tellHandover s) := by
  unfold tellHandover
  dsimp only
  split
  exacts [h, .ite h (.foldl (fun _ _ h => askCard_same h) h.update)]

theorem stageMap_same {c gen : Nat} (h : SameCard s₀ s) : SameCard s₀ (stageMap c gen s) :=
  askCard_same (askCard_same (askCard_same h))

theorem recComplete_same (h : SameCard s₀ s) : SameCard s₀ (recComplete s) := .ite (setRec_same h.update) h

theorem recBegin_same {f : Nat} (h : SameCard s₀ s) : SameCard s₀ (recBegin f s) := countBoot_same (setRec_same h.update)

theorem abortFailed_same {f : Nat} (h : SameCard s₀ s) : SameCard s₀ (abortFailed f s) :=
  .ite h (.ite (sendAbort_same h) (.ite (sendAbort_same h) (sendAbort_same h)))

theorem endTakeover_same (h : SameCard s₀ s) : SameCard s₀ (endTakeover s) :=
  .ite (abortFailed_same (toCards_same h.update.update)) (abortFailed_same (toCards_same h.update))

theorem declareFailed_same {card : Nat} (h : SameCard s₀ s) : SameCard s₀ (declareFailed card s) := by
  unfold declareFailed
  refine .ite h ?_
  extract_lets coord s₁ _ s₂
  have h₂ : SameCard s₀ s₂ := (failCard_same h).update
  split
  · exact h₂
  extract_lets s₃ others
  have h₃ : SameCard s₀ s₃ := recBegin_same h₂
  exact .ite (.ite (endTakeover_same h₃) (.foldl (fun _ _ => askCard_same) h₃.update)) (abortFailed_same h₃)

theorem cardDeclared_same {l : Nat} (h : SameCard s₀ s) : SameCard s₀ (cardDeclared l s) := by
  unfold cardDeclared
  extract_lets +onlyGivenNames s₁ _ s₂
  have h₁ : SameCard s₀ s₁ := by
    unfold s₁
    split
    exacts [h, .ite (failCard_same h) (failCard_same h).update]
  have h₂ : SameCard s₀ s₂ := h₁.update
  exact .ite (mirrorService_same h₂) (.when recruitAll_same h₂)

theorem mapApplied_same (h : SameCard s₀ s) : SameCard s₀ (mapApplied s) := .when mirrorService_same h.update.update

theorem twinNamed_same {c : Nat} {ans : Option Bytes} (h : SameCard s₀ s) : SameCard s₀ (twinNamed c ans s) :=
  .when recFail_same (.ite (.when askCard_same (askCard_same h.update)) h.update)

theorem mirrorTold_same {c : Nat} {ans : Option Bytes} (h : SameCard s₀ s) : SameCard s₀ (mirrorTold c ans s) :=
  .ite h (.ite (recruitNext_same h) (askCard_same h))

theorem custodyTold_same {ans : Option Bytes} (h : SameCard s₀ s) : SameCard s₀ (custodyTold ans s) :=
  .ite (recFail_same h) h

theorem recAnswer_same {c : Nat} {ans : Option Bytes} (h : SameCard s₀ s) : SameCard s₀ (recAnswer c ans s) := by
  unfold recAnswer
  split
  · exact h
  extract_lets +onlyGivenNames _ s₁
  have h₁ : SameCard s₀ s₁ := h.update
  split
  · exact .ite h₁ (recruitNext_same h₁.update)
  · exact .unless recruitNext_same h₁
  · exact stageMap_same h₁
  · exact twinNamed_same h₁
  · exact custodyTold_same h₁
  · exact mirrorTold_same h₁
  · refine .ite h₁ ?_
    extract_lets +onlyGivenNames _ s₂
    have h₂ : SameCard s₀ s₂ := by
      unfold s₂
      split
      exacts [h₁.update, h₁]
    exact .unless endTakeover_same h₂
  · exact h₁

/-! ### Ledger -/

theorem endJob_same (h : SameCard s₀ s) : SameCard s₀ (endJob s) := writeMap_same (harvStop_same (openSnaps_same h.update))

theorem enterLost_same (h : SameCard s₀ s) : SameCard s₀ (enterLost s) :=
  harvStop_same (openSnaps_same (reportLost_same h).update)

theorem latchReadings_same (h : SameCard s₀ s) : SameCard s₀ (latchReadings s) :=
  (setLatch_same (setLatch_same (setLatch_same (setLatch_same (.foldl (fun _ _ h => setLatch_same (setLatch_same h))
    h))))).update

theorem commitEvents_same (h : SameCard s₀ s) : SameCard s₀ (commitEvents s) :=
  .when raiseOpen_same (.when raiseOpen_same (.when raiseOpen_same h))

theorem commitLayers_same (h : SameCard s₀ s) : SameCard s₀ (commitLayers s) := by
  unfold commitLayers
  dsimp only
  refine .foldl (fun s a h => ?_) h
  split
  exacts [h, (pokeDev_same h).update]

theorem partnerParts_same {due : Part → Bool} (h : SameCard s₀ s) : SameCard s₀ (partnerParts due s) := .ite h h.update

theorem commitTwin_same {n : Nat} (h : SameCard s₀ s) : SameCard s₀ (commitTwin n s) := .ite (partnerParts_same h.update) h

theorem decide4_same {n : Nat} {m : Measured} (h : SameCard s₀ s) : SameCard s₀ (decide4 n m s) :=
  clearReadings_same (writeMap_same (moveOffAll_same (retireOwed_same (judgeSlip_same (judgeSlow_same
    (sayCodes_same (commitHeld_same (commitLayers_same (.foldl (fun _ _ => markMirror_same) h)))).update))))).update

theorem takeEarly_same (h : SameCard s₀ s) : SameCard s₀ (takeEarly s) := by
  unfold takeEarly
  dsimp only
  split
  exacts [h.update, .ite (sendAbort_same h.update) h.update]

theorem commitStep_same {n : Nat} (h : SameCard s₀ s) : SameCard s₀ (commitStep n s) := by
  unfold commitStep
  extract_lets m _ s₁ s₂ s₃ s₄ s₅ s₆ s₇
  have h₂ : SameCard s₀ s₂ := commitEvents_same (latchReadings_same (latchStats_same h.update))
  have h₄ : SameCard s₀ s₄ := commitTwin_same (decide4_same (mapApplied_same (applyParts_same h₂)))
  have h₆ : SameCard s₀ s₆ := harvAtCommit_same (openSnaps_same h₄)
  have h₇ : SameCard s₀ s₇ := commitTpdos_same (commitFlag_same (ringRelease_same h₆))
  exact .ite h₇ (.ite (endJob_same h₇) (takeEarly_same h₇.update))

theorem retainInput_same {n slot : Nat} (h : SameCard s₀ s) : SameCard s₀ (retainInput n slot s) := by
  unfold retainInput
  extract_lets p keep
  have hk {s d} (h : SameCard s₀ s) : SameCard s₀ (keep s d) := pondWrite_same (fun _ h => h.update) h
  refine .ite (hk h) ?_
  split
  · next e => exact hk ((readDev_same h).out e)
  · exact reportAbort_same (hk (readDev_same h))

theorem openAttempt_same {slot : Nat} (h : SameCard s₀ s) : SameCard s₀ (openAttempt slot s) := by
  unfold openAttempt
  extract_lets n gen _ r _ s₁ s₂ s₃ s₄ _ _ _ _ s₅ s₆ _ s₇
  have h₁ : SameCard s₀ s₁ := h.update
  have h₄ : SameCard s₀ s₄ := resetUnits_same (pokeDev_same (retainInput_same h₁))
  have h₅ : SameCard s₀ s₅ := h₄.update
  have h₆ : SameCard s₀ s₆ := beginSlot_same (clearReadings_same h₅)
  have h₇ : SameCard s₀ s₇ := .ite h₆.update h₆
  exact tellHandover_same (.when toTwin_same h₇)

theorem stepOpen_same (h : SameCard s₀ s) : SameCard s₀ (stepOpen s) := by
  generalize hf : stepOpen = f
  delta stepOpen at hf
  subst hf
  beta_reduce
  refine .ite (.ite h.update h) ?_
  split
  · exact .ite h (raiseOpen_same h.update)
  extract_lets due s₁ _ s₂ s₃
  have h₁ : SameCard s₀ s₁ := partnerParts_same (mapApplied_same (applyParts_same h))
  have h₃ : SameCard s₀ s₃ := writeMap_same (retireOwed_same (.ite h₁.update h₁))
  exact .ite (cardFails_same h₃) (.ite h₃ (recComplete_same (openAttempt_same h₃.update)))

theorem takeAbort_same {step cause card layer action : Nat} (h : SameCard s₀ s) :
    SameCard s₀ (takeAbort step cause card layer action s) :=
  .when cardDeclared_same (.when toTwin_same (stopUnits_same (dropStats_same (raiseOpen_same h.update))).update)

theorem finishAbort_same (h : SameCard s₀ s) : SameCard s₀ (finishAbort s) := by
  unfold finishAbort
  extract_lets act lost _ s₁ s₂ _ _ s₃ r _ _ s₄
  have h₁ : SameCard s₀ s₁ := h.update
  have h₂ : SameCard s₀ s₂ := .ite (enterSolo_same h₁) h₁
  have h₃ : SameCard s₀ s₃ := .ite (.ite (ringRelease_same h₂) h₂) (setBoot_same (setBoot_same (countBoot_same h₂)))
  refine .ite (endJob_same h₂.update) ?_
  have h₄ : SameCard s₀ s₄ := h₃.update
  exact .ite (sendAbort_same h₄) (takeEarly_same h₄)

theorem beginRestore_same (h : SameCard s₀ s) : SameCard s₀ (beginRestore s) :=
  .ite (.foldl (fun _ _ => pullLayer_same) h.update) h.update

theorem enginesStopped_same (h : SameCard s₀ s) : SameCard s₀ (enginesStopped s) :=
  have h := handleDamage_same (abortHeld_same (dropStats_same h).update)
  .ite (enterLost_same h) (.ite (finishAbort_same h) (.ite (beginRestore_same h) (enterLost_same h)))

theorem holdApply_same {step att : Nat} (h : SameCard s₀ s) : SameCard s₀ (holdApply step att s) :=
  .ite (toCards_same h.update) h

theorem takeReady_same {card step att : Nat} (h : SameCard s₀ s) : SameCard s₀ (takeReady card step att s) :=
  .ite h (.when (fun h => toCards_same h.update) (holdApply_same (.ite h h.update)))

theorem takeNorm_same {card step att sumA : Nat} {l : Int} {hold : Bool} (h : SameCard s₀ s) :
    SameCard s₀ (takeNorm card step att sumA l hold s) :=
  have h₁ := SameCard.ite h h.update
  .ite h (.ite (.when (fun h => toCards_same (maxRun_same h).update) h₁) (holdApply_same h₁))

theorem takeReport_same {step att cause card layer : Nat} {lost : Bool} (h : SameCard s₀ s) :
    SameCard s₀ (takeReport step att cause card layer lost s) :=
  have h₁ := SameCard.ite (recLost_same h.update) h
  .ite h (.ite h.update (.ite h (.ite (sendAbort_same h₁) (.when sendAbort_same h₁))))

theorem badEdge_same {child : Nat} (h : SameCard s₀ s) : SameCard s₀ (badEdge child s) := h.update

theorem answerEdge_same {e : Nat × Nat × Nat} (h : SameCard s₀ s) : SameCard s₀ (answerEdge e s) :=
  .ite h (toCard_same (toCard_same h))

theorem arriveStart_same (h : SameCard s₀ s) : SameCard s₀ (arriveStart s) := .ite (toCard_same h.update) h

theorem startJob_same (h : SameCard s₀ s) : SameCard s₀ (startJob s) :=
  have h := partnerParts_same (mapApplied_same (applyParts_same h))
  .ite h (arriveStart_same (.foldl (fun _ _ => answerEdge_same) (.foldl (fun _ _ => toCard_same)
    (.when enterSolo_same (writeMap_same (retireOwed_same h)).update))))

theorem execCardReady_same (h : SameCard s₀ s) : Answers s₀ (execCardReady s) := by
  unfold execCardReady
  dsimp only
  refine .next ?_
  split
  · exact h
  split
  · split
    · exact h
    split
    · exact toCard_same h.update
    split
    · exact h
    split
    · next e => exact (readRanges_same h).fst e
    · next e => exact toTwin_same ((readRanges_same h).fst e).update
  · exact toCard_same h.update

theorem jobWrite_same {a : Access} {sub : Nat} {v : BitVec 8} {f : State → State} (hf : ∀ s, SameCard s₀ s → SameCard s₀ (f s))
    (h : SameCard s₀ s) :
    SameCard s₀ (jobWrite a sub v f s) :=
  .ite (actWrite_same (fun _ => hf _) h) (.ite (refuse_same h) h)

theorem execStartJob_same {a : Access} {v : BitVec 8} (h : SameCard s₀ s) : Answers s₀ (execStartJob a v s) :=
  .next (jobWrite_same (fun _ h => .ite (reply_same (startJob_same h)) (refuse_same h)) h)

theorem execStopJob_same {a : Access} {v : BitVec 8} (h : SameCard s₀ s) : Answers s₀ (execStopJob a v s) :=
  .next (jobWrite_same (fun _ h => .ite (reply_same h.update) (refuse_same h)) h)

/-! ### Gates -/

theorem setGate_same {k : Nat} {g : GateSt} (h : SameCard s₀ s) : SameCard s₀ (setGate k g s) := h.update

theorem readLoss_same (h : SameCard s₀ s) : SameCard s₀ (readLoss s) := by
  generalize hf : readLoss = f
  delta readLoss at hf
  subst hf
  beta_reduce
  split
  · next e =>
    have h := (readDev_same h).out e
    exact .unless reportAbort_same h.update
  · next e => exact engineFails_same ((readDev_same h).out e)
  · next e => exact engineFails_same ((readDev_same h).out e)

theorem cardGateOpens_same {num phase : Nat} (h : SameCard s₀ s) : SameCard s₀ (cardGateOpens num phase s) := by
  unfold cardGateOpens
  extract_lets lt s₁ ks s₂
  have h₁ : SameCard s₀ s₁ := .ite (readLoss_same h) h
  have h₂ : SameCard s₀ s₂ := by
    unfold s₂
    split
    exacts [h₁, setLayerRun_same h₁]
  exact .when nextSlot_same h₂

theorem openGate_same {k : Nat} {d : GateDef} (h : SameCard s₀ s) : SameCard s₀ (openGate k d s) :=
  .when cardGateOpens_same (setGate_same h)

theorem releaseGate_same {k home num : Nat} {d : Option GateDef} (h : SameCard s₀ s) :
    SameCard s₀ (releaseGate k home num d s) := by
  unfold releaseGate
  dsimp only
  split
  · exact openGate_same (.foldl (fun _ _ => toCardId_same) h)
  · exact setGate_same (.foldl (fun _ _ => toCardId_same) h)

theorem systemGate_same {home num : Nat} (h : SameCard s₀ s) : SameCard s₀ (systemGate home num s) := by
  unfold systemGate
  extract_lets k g d own
  refine .ite h (.ite ?_ (.ite (.ite (releaseGate_same h) h) (toCard_same (setGate_same h))))
  split
  · exact h
  refine .ite (.ite (releaseGate_same h) ?_) h
  split
  exacts [h, toCardId_same (setGate_same h)]

theorem arrive_same {l : Nat} {d : GateDef} (h : SameCard s₀ s) : SameCard s₀ (arrive l d s) :=
  .when (fun h => .ite (systemGate_same (setGate_same h)) (openGate_same h)) (setGate_same h)

theorem startGateOpens_same {differs : Option Nat} (h : SameCard s₀ s) : SameCard s₀ (startGateOpens differs s) := by
  unfold startGateOpens
  dsimp only
  split
  · exact h
  · split
    exacts [h.update, endJob_same h.update]

theorem startArrival_same {card sysid cards committed : Nat} {bad : Option Nat} (h : SameCard s₀ s) :
    SameCard s₀ (startArrival card sysid cards committed bad s) := by
  unfold startArrival
  refine .ite h ?_
  extract_lets +onlyGivenNames s₁ xs live
  have h₁ : SameCard s₀ s₁ := by
    unfold s₁
    split
    exacts [h, badEdge_same h]
  exact .ite (toCards_same h₁.update) h₁.update

theorem opGarr_same {g l : Nat} {p : Nat} (h : SameCard s₀ s) : OpRes.Keeps s₀ (opGarr g l p s) :=
  .ite .wait (.ok (arrive_same h))

theorem opGwait_same {g l : Nat} {p : Nat} (h : SameCard s₀ s) : OpRes.Keeps s₀ (opGwait g l p s) := .ite (.ok h) .wait

theorem opGsync_same {g l : Nat} {p : Nat} (h : SameCard s₀ s) : OpRes.Keeps s₀ (opGsync g l p s) :=
  .ite (.ite (.ok h) (.arrived h)) (.ite .wait (.ite (.ok (arrive_same h)) (.arrived (arrive_same h))))

theorem gateArrived_same {src : BitVec 14} {g : GateMsg} (h : SameCard s₀ s) : SameCard s₀ (gateArrived src g s) := by
  unfold gateArrived
  dsimp only
  split
  · exact systemGate_same (setGate_same h)
  · split
    exacts [h, startArrival_same h]
  · exact h

theorem gateReleased_same {g : GateMsg} (h : SameCard s₀ s) : SameCard s₀ (gateReleased g s) := by
  unfold gateReleased
  dsimp only
  split
  exacts [.ite (releaseGate_same h) h, startGateOpens_same h, h]

theorem gateMessage_same {e : GateEv} {f : State → State} (hf : ∀ s, SameCard s₀ s → SameCard s₀ (f s)) (h : SameCard s₀ s) :
    SameCard s₀ (gateMessage e f s) :=
  .ite h.update (hf _ h)

/-! ### Reduction -/

theorem redBusy_same {p cycles : Nat} (h : SameCard s₀ s) : SameCard s₀ (redBusy p cycles s) := countRun_same h

theorem redAll_same {f : RRec → List (Num × Bool) → Eng → Eng} {w : List Nat} {p : Nat} (h : SameCard s₀ s) :
    OpRes.Keeps s₀ (redAll f w p s) := by
  unfold redAll
  dsimp only
  split
  · exact .fault
  split
  · exact .wait
  · split
    exacts [.wait, .fault, .ok (redBusy_same (setUnit_same h))]

theorem redSeg_same {outF : RRec → Nat} {f : RRec → List (Num × Bool) → Nat × Tally} {w : List Nat} {p : Nat}
    (h : SameCard s₀ s) :
    OpRes.Keeps s₀ (redSeg outF f w p s) := by
  unfold redSeg
  dsimp only
  split
  · exact .fault
  split
  · exact .wait
  split
  · exact .wait
  · exact .fault
  · exact .fault
  · split
    exacts [.wait, .fault, .ok (redBusy_same (chargeTally_same (setUnit_same h)))]

theorem redAddRaw_same {w : List Nat} {p : Nat} (h : SameCard s₀ s) : OpRes.Keeps s₀ (redAddRaw w p s) := by
  unfold redAddRaw
  dsimp only
  split
  · split
    · exact .wait
    · split
      exacts [.wait, .fault, .ok (redBusy_same (setUnit_same h))]
  · exact .fault

theorem redRrd_same {w : List Nat} {p : Nat} (h : SameCard s₀ s) : OpRes.Keeps s₀ (redRrd w p s) := by
  unfold redRrd
  dsimp only
  split
  · split
    · exact .fault
    split
    · exact .wait
    · split
      exacts [.wait, .fault, .ok (redBusy_same (chargeTally_same (setUnit_same h)))]
  · exact .fault

theorem redClr_same {w : List Nat} {p : Nat} (h : SameCard s₀ s) : OpRes.Keeps s₀ (redClr w p s) := by
  unfold redClr
  dsimp only
  split
  · exact .fault
  · split
    exacts [.wait, .ok (redBusy_same (setUnit_same h))]

theorem redTag_same {w : List Nat} {p : Nat} (h : SameCard s₀ s) : OpRes.Keeps s₀ (redTag w p s) := by
  unfold redTag
  dsimp only
  split
  · exact .fault
  · split
    exacts [.wait, .ok (redBusy_same (setUnit_same h))]

/-! ### Sequencer -/

theorem countTiming_same {p : Nat} {t : UnitTiming} (h : SameCard s₀ s) : SameCard s₀ (countTiming p t s) :=
  have h := (countBoot_same (countBoot_same (countBoot_same (countBoot_same h)))).update
  have h := countRun_same (countRun_same (countRun_same (countRun_same h)))
  have h := countRun_same (countRun_same (countRun_same (countRun_same h)))
  countRun_same (countRun_same (countRun_same (countRun_same (countRun_same (countRun_same h)))))

theorem opBcnz_same {l target : Nat} {p : Nat} (h : SameCard s₀ s) : OpRes.Keeps s₀ (opBcnz l target p s) := onUnit_same h

theorem opIlen_same {u0 : UnitSt} {r ch : Nat} {p : Nat} (h : SameCard s₀ s) : OpRes.Keeps s₀ (opIlen u0 r ch p s) :=
  .ite (.ok (modUnit_same h)) .wait

theorem opBcond_same {u0 : UnitSt} {c : Cond} {target : Nat} {invert : Bool} {p : Nat} (h : SameCard s₀ s) :
    OpRes.Keeps s₀ (opBcond u0 c target invert p s) := by
  unfold opBcond
  split
  exacts [.wait, .ok (.ite (modUnit_same h) h)]

theorem opSrecv_same {core : Nat} {r : CtlReg} {p : Nat} (h : SameCard s₀ s) : OpRes.Keeps s₀ (opSrecv core r p s) := by
  unfold opSrecv
  dsimp only
  split
  · exact .wait
  · split
    exacts [.wait, .ok (drainOut_same (modUnit_same (setCore_same (drainOut_same h))))]

theorem opSsend_same {core : Nat} {r : CtlReg} {p : Nat} (h : SameCard s₀ s) : OpRes.Keeps s₀ (opSsend core r p s) :=
  .ite .wait (.ok (setCore_same h))

theorem opBwait_same {u0 : UnitSt} {p : Nat} (h : SameCard s₀ s) : OpRes.Keeps s₀ (opBwait u0 p s) := .ite (.ok h) .wait

theorem opNap_same {array vec : Bool} {p : Nat} (h : SameCard s₀ s) : OpRes.Keeps s₀ (opNap array vec p s) :=
  .ok (countRun_same (modUnit_same h))

theorem opStepend_same {t : UnitTiming} {p : Nat} (h : SameCard s₀ s) : OpRes.Keeps s₀ (opStepend t p s) :=
  .ite (.ok (countTiming_same (modUnit_same h))) .wait

theorem execSequencerWatchdog_same {unit : Fin 64} (h : SameCard s₀ s) : Answers s₀ (execSequencerWatchdog unit s) := by
  unfold execSequencerWatchdog
  refine .next ?_
  split
  exacts [h, .ite (unitFaultAt_same h) h]

theorem execGateLimitExpiry_same {unit : Fin 64} (h : SameCard s₀ s) : Answers s₀ (execGateLimitExpiry unit s) := by
  unfold execGateLimitExpiry
  refine .next ?_
  split
  exacts [h, .ite (unitFaultAt_same h) h]

/-! ### Plan -/

theorem freshBarge_same {e : PlaceEnt} {b : Nat} (h : SameCard s₀ s) : SameCard s₀ (freshBarge e s b) := by
  unfold freshBarge
  dsimp only
  split
  · split
    exacts [h, setBarge_same (tookResv_same h)]
  · split
    exacts [h, setBarge_same h]

theorem placeBarges_same {ps : List PlaceEnt} (h : SameCard s₀ s) : SameCard s₀ (placeBarges ps s) :=
  .foldl (fun _ _ h => .ite h (.foldl (fun _ _ => freshBarge_same) h)) h.update

theorem initHeld_same {p : PlanSt} (h : SameCard s₀ s) : SameCard s₀ (initHeld p s) :=
  .foldl (fun _ _ h => .ite h (pokeDev_same h)) h

theorem enterPlan_same {area : Nat} {p : PlanSt} (h : SameCard s₀ s) : SameCard s₀ (enterPlan area p s) :=
  (setArea_same (.ite (setArea_same h) h)).update

theorem pumpAll_same (h : SameCard s₀ s) : SameCard s₀ (pumpAll s) := .foldl (fun _ _ => pumpQueue_same) h

theorem pairForPlan_same (h : SameCard s₀ s) : SameCard s₀ (pairForPlan s) := setPair_same h

theorem activated_same {area : Nat} (h : SameCard s₀ s) : SameCard s₀ (activated area s) :=
  pairForPlan_same (applyPlanParts_same (countBoot_same (initHeld_same (pumpAll_same (placeBarges_same
    (enterPlan_same (loadUnits_same h)))))))

theorem planResult_same {area : Nat} {e : PlanErr} (h : SameCard s₀ s) : SameCard s₀ (planResult area e s) :=
  raiseOpen_same h.update

theorem checkRead_same {area : Nat} {e : PlanErr} (h : SameCard s₀ s) : SameCard s₀ (checkRead area e s) := by
  unfold checkRead
  split
  exacts [h, failRequest_same h]

theorem activationDone_same {area : Nat} (h : SameCard s₀ s) : SameCard s₀ (activationDone area s) := by
  generalize hf : activationDone = f
  delta activationDone at hf
  subst hf
  beta_reduce
  extract_lets s₁
  have h₁ : SameCard s₀ s₁ := .ite (writeMap_same (retireOwed_same h)) h
  split
  · exact planResult_same (setArea_same (checkRead_same h₁))
  · exact planResult_same (activated_same h₁)

theorem releasePlan_same (h : SameCard s₀ s) : SameCard s₀ (releasePlan s) := by
  unfold releasePlan
  dsimp only
  refine applyIdleParts_same ?_
  refine harvStop_same ?_
  refine setPair_same ?_
  refine unitsOff_same ?_
  refine .foldl (fun s a h => ?_) ?_
  · exact raiseOpen_same h
  · refine .update ?_
    split
    exacts [h, setArea_same h]

theorem startCheck_same {area : Nat} (h : SameCard s₀ s) : SameCard s₀ (startCheck area s) := (setArea_same h).update

theorem execActivate_same {a : Access} {area : BitVec 8} (h : SameCard s₀ s) : Answers s₀ (execActivate a area s) :=
  .next (actWrite_same (fun _ h => .ite (refuse_same h) (.ite (reply_same (startCheck_same h)) (refuse_same h))) h)

theorem execActivationDone_same (h : SameCard s₀ s) : Answers s₀ (execActivationDone s) := by
  unfold execActivationDone
  refine .next ?_
  split
  exacts [h, activationDone_same h]

theorem execRelease_same {a : Access} {v : BitVec 8} (h : SameCard s₀ s) : Answers s₀ (execRelease a v s) :=
  .next (actWrite_same (fun _ h => .ite (refuse_same h) (.ite (reply_same (releasePlan_same h)) (refuse_same h))) h)

/-! ### Stored -/

theorem putStored_same {vals : Sparse (Option Bytes)} (h : SameCard s₀ s) : SameCard s₀ (putStored vals s) :=
  send_same h.update

theorem finishStore_same (h : SameCard s₀ s) : SameCard s₀ (finishStore s) := by
  unfold finishStore
  dsimp only
  split
  exacts [h, reply_same (putStored_same h.update)]

theorem loadEntry_same {e : Nat × Nat} (h : SameCard s₀ s) : SameCard s₀ (loadEntry e s) := h.update

theorem defaultGroup_same {k : Nat} (h : SameCard s₀ s) : SameCard s₀ (defaultGroup k s) :=
  .ite h (raiseOpen_same (enterError_same h.update))

theorem loadStored_same {es : List (Nat × Nat)} (h : SameCard s₀ s) : SameCard s₀ (loadStored es s) :=
  topologyApplies_same (.foldl (fun _ _ => defaultGroup_same) (.foldl (fun _ _ => loadEntry_same) h))

theorem clearPending_same (h : SameCard s₀ s) : SameCard s₀ (clearPending s) := h.update

theorem writeHeader_same (h : SameCard s₀ s) : SameCard s₀ (writeHeader s) := send_same h.update

/-! ### Power -/

theorem portsDown_same (h : SameCard s₀ s) : SameCard s₀ (portsDown s) := h.update

theorem domainsOff_same (h : SameCard s₀ s) : SameCard s₀ (domainsOff s) := (portsDown_same h).update

theorem keeperOff_same (h : SameCard s₀ s) : SameCard s₀ (keeperOff s) := h.update

theorem startBoot_same (h : SameCard s₀ s) : SameCard s₀ (startBoot s) := (domainsOff_same h).update

theorem forceDrop_same {d typ detail : Nat} (h : SameCard s₀ s) : SameCard s₀ (forceDrop d typ detail s) :=
  .ite h (raiseOpen_same (countBoot_same (countBoot_same (countRun_same h.update))))

theorem trip_same {source reading : Nat} (h : SameCard s₀ s) : SameCard s₀ (trip source reading s) :=
  .ite h (enterError_same (domainsOff_same (.when toCard_same (raiseOpen_same h.update)))).update

theorem forceRefresh_same {k v : Nat} (h : SameCard s₀ s) : SameCard s₀ (forceRefresh k v s) :=
  .ite h (.when .update (countBoot_same h.update))

theorem takeSample_same {x : Sensor} {v : Nat} (h : SameCard s₀ s) : SameCard s₀ (takeSample x v s) := by
  unfold takeSample
  dsimp only
  split
  · exact .ite (trip_same h.update) (.when forceDrop_same h.update)
  · exact .when forceDrop_same (forceRefresh_same h.update)
  · exact .when trip_same h.update

theorem coolant_same {inlet : Nat} (h : SameCard s₀ s) : SameCard s₀ (coolant inlet s) :=
  .ite h.update (raiseOpen_same h.update.update)

theorem sampleAll_same {r : Readings} (h : SameCard s₀ s) : SameCard s₀ (sampleAll r s) := by
  unfold sampleAll
  dsimp only
  refine coolant_same ?_
  refine .update ?_
  refine takeSample_same ?_
  refine .foldl (fun s a h => ?_) ?_
  · split
    exacts [takeSample_same h, h]
  · refine .foldl (fun s a h => ?_) h
    split
    exacts [takeSample_same h, h]

theorem scrubPeriod_same (h : SameCard s₀ s) : SameCard s₀ (scrubPeriod s) := h.update

theorem execThermalTrip_same {x : Sensor} {reading : BitVec 8} (h : SameCard s₀ s) :
    Answers s₀ (execThermalTrip x reading s) := by
  unfold execThermalTrip
  refine .next ?_
  split
  · exact h
  · split
    exacts [h, takeSample_same h]

theorem execPowerAverage_same {watts : BitVec 16} (h : SameCard s₀ s) : Answers s₀ (execPowerAverage watts s) := by
  unfold execPowerAverage
  extract_lets w _ s₁ s₂
  have h₂ : SameCard s₀ s₂ := .ite (countRun_same h.update) h.update
  refine .next (.ite h (.ite ?_ h₂))
  split
  exacts [forceDrop_same h₂, h₂]

theorem enterSleep_same {cause : Nat} (h : SameCard s₀ s) : SameCard s₀ (enterSleep cause s) :=
  raiseOpen_same (countBoot_same (unitsOff_same (portsDown_same (.foldl (fun _ _ => finishStore_same) h))).update)

theorem execSleepRequest_same {a : Access} {v : BitVec 8} (h : SameCard s₀ s) : Answers s₀ (execSleepRequest a v s) :=
  .next (actWrite_same (fun _ h => .ite (refuse_same h) (.ite (enterSleep_same (reply_same h)) (refuse_same h))) h)

theorem execWakeRequest_same {a : Access} {v : BitVec 8} (h : SameCard s₀ s) : Answers s₀ (execWakeRequest a v s) :=
  .next (actWrite_same (fun _ h => .ite (refuse_same h) (wake_same (reply_same h))) h)

theorem serveOnVaux_same (h : SameCard s₀ s) : SameCard s₀ (serveOnVaux s) :=
  send_same (.update (.ite h (loadStored_same h)))

theorem lose48_same {volts : Nat} (h : SameCard s₀ s) : SameCard s₀ (lose48 volts s) :=
  have h₁ := (domainsOff_same (raiseOpen_same h.update)).update
  .ite h (.ite (serveOnVaux_same (enterError_same h₁)) (keeperOff_same h₁))

/-! ### Boot -/

theorem putSlot_same {k : Nat} {x : SlotSt} (h : SameCard s₀ s) : SameCard s₀ (putSlot k x s) := h.update

theorem setSlotState_same {k st : Nat} (h : SameCard s₀ s) : SameCard s₀ (setSlotState k st s) := putSlot_same h

theorem raiseFuses_same {img : Bytes} (h : SameCard s₀ s) : SameCard s₀ (raiseFuses img s) := .ite h (raise_same h.update)

theorem enterRecovery_same (h : SameCard s₀ s) : SameCard s₀ (enterRecovery s) := raise_same h.update

theorem fallback_same {k cause : Nat} (h : SameCard s₀ s) : SameCard s₀ (fallback k cause s) := raise_same h.update

theorem bootSlot_same {k : Nat} (h : SameCard s₀ s) : SameCard s₀ (bootSlot k s) :=
  .update (.ite (setSlotState_same h) (raiseFuses_same h))

theorem selectSlot_same {k n : Nat} (h : SameCard s₀ s) : SameCard s₀ (selectSlot k n s) := by
  induction n generalizing k s with
  | zero => exact enterRecovery_same h
  | succ n ih =>
    unfold selectSlot
    extract_lets +onlyGivenNames x c
    refine .ite (ih (fallback_same (setSlotState_same h.update))) (.ite (ih h) ?_)
    extract_lets +onlyGivenNames c s₁ s₂
    have h₁ : SameCard s₀ s₁ := setSlotState_same h
    exact .ite (bootSlot_same h) (ih (fallback_same (.ite (raise_same h₁) (raise_same h₁))))

theorem confirmSlot_same {k : Nat} (h : SameCard s₀ s) : SameCard s₀ (confirmSlot k s) :=
  .when (fun h => writeHeader_same (setSlotState_same h)) (raiseFuses_same (writeHeader_same (setSlotState_same h)))

theorem convertFrame_same {x : Bool × Nat × List (BitVec 32)} (h : SameCard s₀ s) : SameCard s₀ (convertFrame x s) :=
  .ite h h.update

theorem bootMemory_same {r : BootReport} (h : SameCard s₀ s) : SameCard s₀ (bootMemory r s) :=
  .update (.foldl (fun _ _ => convertFrame_same) h)

theorem bootRegion_same {g : Nat} (h : SameCard s₀ s) : SameCard s₀ (bootRegion g s) := by
  have put {s p l c} (h : SameCard s₀ s) : SameCard s₀ (setCond p c (mapUnit p l s)) := setCond_same (mapUnit_same h)
  unfold bootRegion
  extract_lets ps spare s₁
  have h₁ : SameCard s₀ s₁ := by
    refine .foldl (fun s p h => ?_) h
    split
    exacts [put h, put h]
  split
  · exact put h₁
  split
  exacts [put h₁, put h₁]

theorem bootUnits_same {r : BootReport} (h : SameCard s₀ s) : SameCard s₀ (bootUnits r s) :=
  writeMap_same (.update (.foldl (fun _ _ => bootRegion_same) (.foldl (fun _ _ h => .ite h (raise_same (addRepair_same h)))
    (.update (.update (.foldl (fun _ _ h => .ite h (addRepair_same h)) h))))))

theorem bootIdle_same {r : BootReport} (h : SameCard s₀ s) : SameCard s₀ (bootIdle r s) := by
  unfold bootIdle
  dsimp only
  split
  · exact .when confirmSlot_same (send_same (raise_same h.update))
  · exact send_same (raise_same h.update)

theorem restartBoot_same (h : SameCard s₀ s) : SameCard s₀ (restartBoot s) := (startBoot_same h).update

theorem loadFails_same (h : SameCard s₀ s) : SameCard s₀ (loadFails s) := by
  unfold loadFails
  split
  exacts [h, restartBoot_same (writeHeader_same (fallback_same (raise_same (setSlotState_same h))))]

theorem flashFault_same {what offset : Nat} (h : SameCard s₀ s) : SameCard s₀ (flashFault what offset s) :=
  raise_same (countBoot_same h)

theorem chooseHeader_same {r : BootReport} (h : SameCard s₀ s) : SameCard s₀ (chooseHeader r s) :=
  .ite h.update (.when flashFault_same h.update.update)

theorem chooseMap_same {r : BootReport} (h : SameCard s₀ s) : SameCard s₀ (chooseMap r s) :=
  .when (fun h => flashFault_same (.update h)) (.unless .update h.update)

theorem bootStored_same {r : BootReport} (h : SameCard s₀ s) : SameCard s₀ (bootStored r s) :=
  loadStored_same (.when (fun h => flashFault_same (.update h)) (.unless .update h.update))

theorem phaseWork_same {phase : Nat} {r : BootReport} (h : SameCard s₀ s) : SameCard s₀ (phaseWork phase r s) := by
  unfold phaseWork
  dsimp only
  split
  · exact .ite h (enterRecovery_same (flashFault_same h))
  · exact .unless (fun h => bootStored_same h.update) (writeHeader_same (selectSlot_same (chooseHeader_same h)))
  · exact chooseMap_same h
  · exact bootMemory_same h
  · exact bootUnits_same h
  · exact bootIdle_same h
  · exact h

theorem execReboot_same {a : Access} {v : BitVec 8} (h : SameCard s₀ s) : Answers s₀ (execReboot a v s) :=
  .next (actWrite_same (fun _ h => .ite (refuse_same h) (.ite (startBoot_same (reply_same h)) (refuse_same h))) h)

theorem readImage_same {addr n : Nat} (h : SameCard s₀ s) : SameCard s₀ (readImage addr n s).state :=
  .iteOut (.notBacked (countRun_same h)) (readDev_same h)

theorem stageFails_same {c : Nat} (h : SameCard s₀ s) : SameCard s₀ (stageFails c s) := h.update

theorem stageBytes_same {img : Bytes} (h : SameCard s₀ s) : SameCard s₀ (stageBytes img s) :=
  .ite (stageFails_same h) (writeHeader_same (putSlot_same h.update))

theorem beginStage_same {addr : Nat} (h : SameCard s₀ s) : SameCard s₀ (beginStage addr s) := by
  unfold beginStage
  split
  · next e =>
    have h := (readImage_same h).out e
    refine .ite (stageFails_same h) ?_
    split
    · next e => exact stageBytes_same ((readImage_same h).out e)
    · exact stageFails_same (readImage_same h)
  · exact stageFails_same (readImage_same h)

theorem execStageImage_same {a : Access} {addr : BitVec 64} (h : SameCard s₀ s) : Answers s₀ (execStageImage a addr s) :=
  .next (actWrite_same (fun _ h => .ite (refuse_same h) (beginStage_same (wakePath_same (reply_same h)))) h)

theorem execStagingDone_same {o : StageOutcome} (h : SameCard s₀ s) : Answers s₀ (execStagingDone o s) := by
  unfold execStagingDone
  refine .next ?_
  split
  · exact h
  extract_lets _ s₁
  have h₁ : SameCard s₀ s₁ := h.update
  split
  · exact .ite (raise_same (writeHeader_same (putSlot_same h₁.update))) (writeHeader_same (putSlot_same h₁.update))
  · exact writeHeader_same (putSlot_same (flashFault_same h₁.update))

theorem execNextSlot_same {a : Access} {v : BitVec 8} (h : SameCard s₀ s) : Answers s₀ (execNextSlot a v s) :=
  .next (actWrite_same (fun _ h => .ite (refuse_same h) (.ite (reply_same (writeHeader_same h.update)) (refuse_same h))) h)

theorem execConfirm_same {a : Access} {v : BitVec 8} (h : SameCard s₀ s) : Answers s₀ (execConfirm a v s) := by
  unfold execConfirm
  refine .next ?_
  refine actWrite_same (fun _ h => ?_) h
  split
  · exact refuse_same h
  · split
    exacts [refuse_same h, reply_same (confirmSlot_same h)]

/-! ### Issue of a bundle -/

theorem onEng_same {rix : BitVec 11} {isel : Fin 8} {f : List Nat → Nat → State → OpRes} {p : Nat}
    (hf : ∀ w p s, SameCard s₀ s → OpRes.Keeps s₀ (f w p s)) (h : SameCard s₀ s) :
    OpRes.Keeps s₀ (onEng rix isel f p s) := by
  refine onRec_same (fun w p s h => ?_) h
  split
  · next e =>
    have h := (hf _ _ _ h).of_ok e
    exact .ok (.ite (drainAll_same h) h)
  · exact hf _ _ _ h

theorem slotOp_same {u0 : UnitSt} {c : Instr} :
    Holds (fun o => ∀ {p s}, SameCard s₀ s → OpRes.Keeps s₀ (o.run p s)) (slotOp u0 c) := by
  cases c with
  | ald => exact .some (onRec_same fun _ _ _ => doAld_same)
  | abc => exact .some (onRec_same fun _ _ _ => doAbc_same)
  | aps => exact .some (onRec_same fun _ _ _ => doAps_same)
  | adr => exact .some (onRec_same fun _ _ _ => doAdr_same)
  | afl => exact .some (onRec_same fun _ _ _ => doAfl_same)
  | anop | quiet => exact .some .ok
  | fadd | fsub | fmul | fma | fneg | fabs | fmax | fmin | div | sqrt => exact .some (onEng_same fun _ _ _ => vecFloat_same)
  | fcps => exact .some (onEng_same fun _ _ _ => vecFcps_same)
  | fcmp | icmp => exact .some (onEng_same fun _ _ _ => vecCompare_same)
  | sel => exact .some (onEng_same fun _ _ _ => vecSel_same)
  | mov => exact .some (onEng_same fun _ _ _ => vecMov_same)
  | iadd | isub | imul | shl | shr | sar | and | or | xor | imax | imin => exact .some (onEng_same fun _ _ _ => vecInt_same)
  | cvt => exact .some (onEng_same fun _ _ _ => vecCvt_same)
  | exp2 | log2 | rcp | rsqrt => exact .some (onEng_same fun _ _ _ => vecTrans_same)
  | kand | kor | kxor | knot | kset => exact .some (onEng_same fun _ _ _ => vecMask_same)
  | kidx => exact .some (onEng_same fun _ _ _ => vecKidx_same)
  | vtag => exact .some (onEng_same fun _ _ _ => vecVtag_same)
  | rsum | rmax | rmin | rarg => exact .some (onEng_same fun _ _ _ => redAll_same)
  | rssum | rsmax | rsmin | rsarg => exact .some (onEng_same fun _ _ _ => redSeg_same)
  | raddraw => exact .some (onEng_same fun _ _ _ => redAddRaw_same)
  | rrd => exact .some (onEng_same fun _ _ _ => redRrd_same)
  | rclr => exact .some (onEng_same fun _ _ _ => redClr_same)
  | rtag => exact .some (onEng_same fun _ _ _ => redTag_same)
  | sarm => exact .some opSarm_same
  | srearm => exact .some opSrearm_same
  | sstop => exact .some opSstop_same
  | swait => exact .some opSwait_same
  | cmark => exact .some opCmark_same
  | crel => exact .some opCrel_same
  | garr => exact .some opGarr_same
  | gwait => exact .some opGwait_same
  | gsync => exact .some opGsync_same
  | lset | ladd | iset | iaddi | ixor | hset | br | wake => exact .some onUnit_same
  | ilen => exact .some opIlen_same
  | bcnz => exact .some opBcnz_same
  | bcond => exact .some opBcond_same
  | srecv => exact .some opSrecv_same
  | ssend => exact .some opSsend_same
  | bwait => exact .some fun {p _} h => opBwait_same (p := p) h
  | nap => exact .some opNap_same
  | stepend => exact .some opStepend_same
  | _ => exact .none

theorem runSlots_same {u0 : UnitSt} {p : Nat} {cs : List Instr} (h : SameCard s₀ s) : OpRes.Keeps s₀ (runSlots u0 p cs s) := by
  induction cs generalizing s with
  | nil => exact .ok h
  | cons c cs ih =>
    unfold runSlots
    split
    · exact ih h
    · next e =>
      have hr := slotOp_same.of_some e (p := p) h
      split
      · next e => exact ih (hr.of_ok e)
      · exact hr

theorem holdUnit_same {p : Nat} {cs : List Instr} {hd : Hold} (h : SameCard s₀ s) : SameCard s₀ (holdUnit p cs hd s) :=
  modUnit_same h

theorem issueBundle_same {p : Nat} {cs : List Instr} (h : SameCard s₀ s) : SameCard s₀ (issueBundle p cs s) := by
  unfold issueBundle
  split
  · next e => exact finishBundle_same ((runSlots_same h).of_ok e)
  · exact holdUnit_same h
  · exact unitFaultAt_same h
  · split
    · exact h
    · next e =>
      obtain ⟨c, -, e⟩ := Option.bind_eq_some_iff.mp e
      split
      · next e' => exact holdUnit_same ((slotOp_same.of_some e h).of_arrived e')
      · exact holdUnit_same h

theorem giveOp_same {c : Instr} {i : Issue} (h : SameCard s₀ s) : SameCard s₀ (giveOp c i s) := by
  unfold giveOp
  dsimp only
  split
  exacts [h, .ite (issueBundle_same h) (modUnit_same h)]

/-! ### Fabric -/

theorem enterPort_same {p cond : Nat} {i : PeerInfo} (h : SameCard s₀ s) : SameCard s₀ (enterPort p cond i s) :=
  setPort_same h

theorem leavePort_same {p cond : Nat} {i : PeerInfo} (h : SameCard s₀ s) : SameCard s₀ (leavePort p cond i s) :=
  enterPort_same (.ite (portDown_same h) h)

theorem mismatch_same {p : Nat} {i : PeerInfo} (h : SameCard s₀ s) : SameCard s₀ (mismatch p i s) :=
  raiseOpen_same (leavePort_same h)

theorem tellPeer_same {p : Nat} (h : SameCard s₀ s) : SameCard s₀ (tellPeer p s) := emitFlit_same h

theorem retrained_same {p : Nat} (h : SameCard s₀ s) : SameCard s₀ (retrained p s) :=
  drainQueue_same (resend_same (setPort_same h))

theorem dropLanes_same {p : Nat} {lanes : BitVec 4} (h : SameCard s₀ s) : SameCard s₀ (dropLanes p lanes s) :=
  .foldl (fun _ _ h => .ite h (addRepair_same h)) h

theorem trained_same {p : Nat} {lanes : BitVec 4} {i : PeerInfo} (h : SameCard s₀ s) : SameCard s₀ (trained p lanes i s) :=
  have h₁ := tellPeer_same (dropLanes_same h)
  .ite h (.ite (leavePort_same (dropLanes_same h)) (.ite (mismatch_same h₁) (.ite (retrained_same (setPort_same h₁))
    (enterPort_same h₁))))

theorem startRetrain_same {p : Nat} (h : SameCard s₀ s) : SameCard s₀ (startRetrain p s) :=
  .ite h (countBoot_same (countBoot_same (setPort_same h)))

theorem retryCheck_same {p : Nat} (h : SameCard s₀ s) : SameCard s₀ (retryCheck p s) := .ite (startRetrain_same h) h

theorem transit_same {p : Nat} {hd : Hdr} {pl : Bytes} (h : SameCard s₀ s) : SameCard s₀ (transit p hd pl s) := by
  unfold transit
  split
  exacts [h, sendOn_same (oweCredit_same h)]

theorem sendAck_same {hd : Hdr} (h : SameCard s₀ s) : SameCard s₀ (sendAck hd s) := by
  unfold sendAck
  dsimp only
  split
  exacts [h, sendFlit_same h]

theorem gatewayOut_same {g : GwIn} {base : Nat} (h : SameCard s₀ s) : SameCard s₀ (gatewayOut g base s) :=
  .ite (hostWrite_same (.ite h h.update)) (hostWrite_same h)

theorem gatewayWrite_same {hd : Hdr} {pl : Bytes} (h : SameCard s₀ s) : Holds (SameCard s₀) (gatewayWrite hd pl s) := by
  unfold gatewayWrite
  dsimp only
  split
  · exact .none
  split
  · exact .none
  · split
    exacts [.some (gatewayOut_same h.update), .some h.update]

theorem landWrite_same {hd : Hdr} {pl : Bytes} (h : SameCard s₀ s) : SameCard s₀ (landWrite hd pl s).1 := by
  unfold landWrite
  split
  · split
    · next e => exact .pair ((gatewayWrite_same h).of_some e)
    · exact .pair h
  split
  · next e => exact .pair ((writeDev_same h).out e)
  · next e => exact .pair ((writeDev_same h).out e)
  · next e => exact .pair ((writeDev_same h).out e)

theorem onWrite_same {hd : Hdr} {pl : Bytes} (h : SameCard s₀ s) : SameCard s₀ (onWrite hd pl s) :=
  have h := SameCard.iteFst (.pair h) (landWrite_same h)
  .ite (.when sendAck_same (.update h)) (.unless (fun h => .update h) h)

theorem onRead_same {hd : Hdr} {pl : Bytes} {ecc : Ecc} (h : SameCard s₀ s) : SameCard s₀ (onRead hd pl ecc s) := by
  unfold onRead
  refine .ite h ?_
  split
  · next e => exact (readDev_same h).out e
  · next e => exact damageFound_same ((readDev_same h).out e)
  · next e =>
    have h := (readDev_same h).out e
    split
    exacts [h, sendRun_same h]

theorem replayNext_same {tree : Nat} (h : SameCard s₀ s) : SameCard s₀ (replayNext tree s) := by
  unfold replayNext
  dsimp only
  split
  · exact h
  split
  · exact markLanding_same (setTree_same h)
  · split
    exacts [treeFault_same (countRemoteFail_same h), sendFlit_same ((freshTxn_same h).update)]

theorem landTree_same {t : TreeRec} {pos : Nat} {pl : Bytes} {last : Bool} (h : SameCard s₀ s) :
    SameCard s₀ (landTree t pos pl last s) := by
  generalize hf : landTree = f
  delta landTree at hf
  subst hf
  beta_reduce
  extract_lets +onlyGivenNames r out
  split
  · next e => exact treeForward_same (setTree_same ((writeDev_same h).out e))
  · next e => exact treeFault_same ((writeDev_same h).out e)
  · next e => exact treeFault_same ((writeDev_same h).out e)

theorem acceptData_same {t : TreeRec} {hd : Hdr} {pl : Bytes} (h : SameCard s₀ s) : SameCard s₀ (acceptData t hd pl s) :=
  .when (fun h => treeCheck_same (markLanding_same h)) (landTree_same h)

theorem onTreeData_same {p : Nat} {hd : Hdr} {pl : Bytes} (h : SameCard s₀ s) : SameCard s₀ (onTreeData p hd pl s) := by
  unfold onTreeData
  dsimp only
  split
  exacts [h, .ite h (.ite (oweCredit_same (setTree_same h)) (acceptData_same h))]

theorem acceptHeld_same {t : TreeRec} {n : Nat} (h : SameCard s₀ s) : SameCard s₀ (acceptHeld t n s) := by
  fun_induction acceptHeld t n s with
  | case1 => exact h
  | case2 => exact h
  | case3 => exact h
  | case4 _ _ _ _ _ _ _ _ _ ih => exact ih (acceptData_same (oweCredit_same (setTree_same h)))

theorem acceptAll_same (h : SameCard s₀ s) : SameCard s₀ (acceptAll s) := .foldl (fun _ _ => acceptHeld_same) h

theorem onTreeStart_same {hd : Hdr} {pl : Bytes} (h : SameCard s₀ s) : SameCard s₀ (onTreeStart hd pl s) := by
  unfold onTreeStart
  split
  exacts [h, .ite h (treeStart_same h)]

theorem onDetach_same {tree root src len landed : Nat}
    (h : SameCard s₀ s) : SameCard s₀ (onDetach tree root src len landed s) :=
  .ite h (replayNext_same h.update)

theorem onReplay_same {m : Remote} {hd : Hdr} {pl : Bytes} (h : SameCard s₀ s) : SameCard s₀ (onReplay m hd pl s) := by
  unfold onReplay
  dsimp only
  split
  · exact h
  · exact .when (fun h => replayNext_same (dropRemotes_same h)) (landTree_same (countRun_same h))

theorem onResponse_same {hd : Hdr} {pl : Bytes} (h : SameCard s₀ s) : SameCard s₀ (onResponse hd pl s) := by
  unfold onResponse
  split
  exacts [h, .ite h (.ite (onReplay_same h) (modRemote_same h))]

theorem gatewayNext_same (h : SameCard s₀ s) : SameCard s₀ (gatewayNext s) := by
  unfold gatewayNext
  dsimp only
  split
  · exact h
  split
  · exact .ite (harvDone_same h) h
  split
  · next e => exact (takeSection_same h).fst e
  · next e => exact toGateway_same ((takeSection_same h).fst e)

theorem imageLoaded_same (h : SameCard s₀ s) : SameCard s₀ (imageLoaded s) := by
  unfold imageLoaded
  split
  exacts [h, .ite h (askCard_same h)]

theorem onAck_same {hd : Hdr} (h : SameCard s₀ s) : SameCard s₀ (onAck hd s) := by
  unfold onAck
  dsimp only
  split
  · split
    exacts [treeCheck_same (setTree_same h), h]
  split
  · exact h
  · exact
      have h₁ := dropRemotes_same h
      .ite h (.ite (gatewayNext_same h₁) (.ite (imageLoaded_same h₁) (modRemote_same h)))

theorem takeEdge_same {e : Nat × Nat × Nat} {confirmed : Bool} (h : SameCard s₀ s) : SameCard s₀ (takeEdge e confirmed s) :=
  .ite (arriveStart_same (.when answerEdge_same (.ite h h.update))) (arriveStart_same (badEdge_same h).update)

theorem suspectCard_same {card : Nat} (h : SameCard s₀ s) : SameCard s₀ (suspectCard card s) := toCard_same h

theorem takeSuspect_same {sender card : Nat} (h : SameCard s₀ s) : SameCard s₀ (takeSuspect sender card s) :=
  .ite h (.ite (declareFailed_same h) (.ite h (toCardId_same h.update)))

theorem actHalt_same {serial origin : Nat} (h : SameCard s₀ s) : SameCard s₀ (actHalt serial origin s) :=
  .when (fun h => countBoot_same h.update) (flood_same h.update)

theorem raiseHalt_same (h : SameCard s₀ s) : SameCard s₀ (raiseHalt s) := actHalt_same h

theorem takeRecorded_same (h : SameCard s₀ s) : SameCard s₀ (takeRecorded s) := by
  unfold takeRecorded
  dsimp only
  refine .foldl (fun s a h => ?_) h.update
  split
  exacts [gateArrived_same h, gateReleased_same h]

theorem actResume_same {serial origin : Nat} (h : SameCard s₀ s) : SameCard s₀ (actResume serial origin s) :=
  .when (fun h => takeRecorded_same h.update) (flood_same h.update)

theorem ownHalt_same (h : SameCard s₀ s) : SameCard s₀ (ownHalt s) := send_same (raiseHalt_same h)

theorem idleLink_same {p seq : Nat} (h : SameCard s₀ s) : SameCard s₀ (idleLink p seq s) := .ite (sendNull_same h) h

theorem idleOthers_same {p : Nat} (h : SameCard s₀ s) : SameCard s₀ (idleOthers p s) :=
  .foldl (fun _ _ h => .ite (sendNull_same h) h) h

theorem onFlit_same {p : Nat} {f : Flit} {types : List Nat} {act : Hdr → Bytes → State → State}
    (hf : ∀ hd pl s, SameCard s₀ s → SameCard s₀ (act hd pl s)) (h : SameCard s₀ s) :
    SameCard s₀ (onFlit p f types act s) := by
  unfold onFlit
  extract_lets +onlyGivenNames seq
  split
  · next e => exact retryCheck_same ((recvFlit_same h).fst e)
  · next e =>
    extract_lets +onlyGivenNames hd s₁ s₂ s₃
    have h₁ : SameCard s₀ s₁ := retryCheck_same ((recvFlit_same h).fst e)
    have h₃ : SameCard s₀ s₃ := acceptAll_same (.ite h₁ (.ite (transit_same h₁) (hf _ _ _ h₁)))
    exact idleOthers_same (.unless idleLink_same h₃)

theorem execLinkControl_same {p : Fin 20} {f : Flit} {peer : PeerInfo} (h : SameCard s₀ s) :
    Answers s₀ (execLinkControl p f peer s) := by
  unfold execLinkControl
  extract_lets s₁
  have h₁ : SameCard s₀ s₁ := .ite (onFlit_same (fun _ _ _ h => h) h) h
  exact .next (.ite h₁ (.ite (.when setPort_same h₁) (.unless mismatch_same h₁)))

theorem execRemoteRequestTimeout_same {txn : BitVec 16} (h : SameCard s₀ s) :
    Answers s₀ (execRemoteRequestTimeout txn s) := by
  unfold execRemoteRequestTimeout
  refine .next ?_
  split
  exacts [h, .ite h (failRemote_same h)]

theorem execHalt_same {a : Access} {v : BitVec 8} (h : SameCard s₀ s) : Answers s₀ (execHalt a v s) :=
  .next (actWrite_same (fun _ h => .ite (refuse_same h) (ownHalt_same (reply_same h))) h)

theorem execResume_same {a : Access} {v : BitVec 8} (h : SameCard s₀ s) : Answers s₀ (execResume a v s) :=
  .next (actWrite_same (fun _ h => .ite (refuse_same h) (reply_same (actResume_same h))) h)

/-! ### Shadow -/

theorem setMirrorRun_same {k : Nat} {r : MirrorRun} (h : SameCard s₀ s) : SameCard s₀ (setMirrorRun k r s) := h.update

theorem setMirrorRef_same {k : Nat} {d : BitVec 128} (h : SameCard s₀ s) : SameCard s₀ (setMirrorRef k d s) := h.update

theorem setOwnRef_same {k : Nat} {d : BitVec 128} (h : SameCard s₀ s) : SameCard s₀ (setOwnRef k d s) := h.update

theorem heldBytes_same (h : SameCard s₀ s) : SameCard s₀ (heldBytes s).1 := fetchRanges_same h

theorem boundaryData_same (h : SameCard s₀ s) : SameCard s₀ (boundaryData s).1 := .pair (heldBytes_same h)

theorem mirrorScales_same (h : SameCard s₀ s) : SameCard s₀ (mirrorScales s).1 := fetchRanges_same h

theorem mirrorBoundaryDigest_same (h : SameCard s₀ s) : SameCard s₀ (mirrorBoundaryDigest s).1 :=
  .pair (mirrorScales_same h)

theorem putMirrorBlock_same {bs : Bytes} (h : SameCard s₀ s) : SameCard s₀ (putMirrorBlock bs s) := pokeDev_same h.update

theorem pondServe_same {off n : Nat} {bs : Bytes} (h : SameCard s₀ s) : SameCard s₀ (pondServe off n bs s).1 := by
  unfold pondServe
  split
  exacts [.pair (failPond_same h), .pair h]

theorem rangeServe_same {a n : Nat} (h : SameCard s₀ s) : SameCard s₀ (rangeServe a n s).1 :=
  .iteFst (fetchRanges_same h) (.iteFst (.pair (boundaryData_same h)) (.iteFst (fetchRanges_same h)
    (.iteFst (.pair h) (.iteFst (pondServe_same h) (.iteFst (pondServe_same h) (.pair h))))))

theorem resolved_same {k outcome role : Nat} (h : SameCard s₀ s) : SameCard s₀ (resolved k outcome role s) :=
  .when .update (raiseOpen_same (countBoot_same h.update))

theorem shadowPieces_same {c : UpdC} {ps : List (TensorEnt × Nat)} {amax : Nat} (h : SameCard s₀ s) :
    SameCard s₀ (shadowPieces c ps amax s).1 := by
  generalize hf : shadowPieces = f
  delta shadowPieces shadowPieces._f at hf
  obtain ⟨up, e, hu⟩ := updatePiece_sealed s₀
  rw [e] at hf
  subst hf
  induction ps generalizing amax s with
  | nil => exact h
  | cons x ps ih => exact .iteFst (hu h) (.iteFst (hu h) (ih (hu h)))

theorem shadowPieces_sealed (s₀ : State) : ∃ f, shadowPieces = f ∧
    ∀ {c ps amax s}, SameCard s₀ s → SameCard s₀ (f c ps amax s).1 := ⟨_, rfl, shadowPieces_same⟩

theorem shadowLayer_same {k : Nat} {e : LayerEnt} {m : MeasBlock} (h : SameCard s₀ s) :
    SameCard s₀ (shadowLayer k e m s).1 := by
  generalize hp : shadowLayer k e m s = p
  generalize hf : shadowLayer = f at hp
  delta shadowLayer at hf
  obtain ⟨su, e₁, hs⟩ := sumTensors_sealed s₀
  obtain ⟨rr, e₂, hr⟩ := readRec_sealed s₀
  obtain ⟨sf, e₃, hf'⟩ := stageFactors_sealed s₀
  obtain ⟨sp, e₄, hp'⟩ := shadowPieces_sealed s₀
  rw [e₁, e₂, e₃, e₄] at hf
  subst hf
  beta_reduce at hp
  extract_lets +onlyGivenNames lt cin at hp
  split at hp
  · exact hp ▸ failRequest_same h
  split at hp
  · next e => exact hp ▸ (hs h).fst e
  next e =>
  have h := (hs h).fst e
  split at hp
  · next e => exact hp ▸ (hr h).fst e
  next e =>
  have h := (hr h).fst e
  extract_lets +onlyGivenNames c at hp
  split at hp
  · exact hp ▸ h
  extract_lets +onlyGivenNames cs u f at hp
  have h₁ : SameCard s₀ f.1 := hf' h
  split at hp
  · exact hp ▸ h
  extract_lets +onlyGivenNames ps at hp
  split at hp
  · next e => exact hp ▸ SameCard.pair (storedDigest_same (pokeDev_same ((hp' h₁).fst e)))
  · exact hp ▸ h

theorem shadowEnds_same {m : MeasBlock} (h : SameCard s₀ s) : SameCard s₀ (shadowEnds m s) :=
  .foldl (fun _ _ => pullLayer_same) (toTwin_same (setBoot_same (pokeDev_same (pokeDev_same (mirrorScales_same
    h)).update)).update)

theorem shadowCheck_same (h : SameCard s₀ s) : SameCard s₀ (shadowCheck s) := by
  unfold shadowCheck
  split
  exacts [h, .ite (shadowEnds_same h) h]

theorem settle_same {k outcome : Nat} {d : BitVec 128} (h : SameCard s₀ s) : SameCard s₀ (settle k outcome d s) :=
  have h := resolved_same (setMirrorRun_same (setMirrorRef_same h))
  .ite (shadowCheck_same h) (.ite (toTwin_same h.update.update) (.when toTwin_same h.update))

theorem askDigest_same {k : Nat} (h : SameCard s₀ s) : SameCard s₀ (askDigest k s) := toTwin_same h

theorem again_same {k fix : Nat} (h : SameCard s₀ s) : SameCard s₀ (again k fix s) :=
  .ite (settle_same h) (askDigest_same (setMirrorRun_same h))

theorem sendMirror_same {k : Nat} (h : SameCard s₀ s) : SameCard s₀ (sendMirror k s) :=
  toTwin_same (fetchRanges_same (toTwin_same (fetchRanges_same h)))

theorem heldDigest_same {k : Nat} (h : SameCard s₀ s) : SameCard s₀ (heldDigest k s).1 := by
  unfold heldDigest
  split
  exacts [.pair (failPond_same h), .pair h]

theorem judge_same {k : Nat} {sp : BitVec 128} (h : SameCard s₀ s) : SameCard s₀ (judge k sp s) := by
  unfold judge
  dsimp only
  split
  · exact settle_same (toTwin_same (storedDigest_same h))
  split
  · exact again_same (sendMirror_same (toTwin_same (storedDigest_same h)))
  split
  · exact pullLayer_same (setMirrorRun_same (toTwin_same (storedDigest_same h)))
  · exact
      have h₁ := heldDigest_same (toTwin_same (storedDigest_same h))
      .ite (settle_same (toTwin_same (storedDigest_same h))) (.ite (settle_same h₁) (toTwin_same h₁))

theorem countDiffers_same {k : Nat} (h : SameCard s₀ s) : SameCard s₀ (countDiffers k s) := .ite h (countBoot_same h)

theorem disagree_same {k : Nat} {dc : BitVec 128} (h : SameCard s₀ s) : SameCard s₀ (disagree k dc s) :=
  countDiffers_same (askDigest_same (setMirrorRun_same h))

theorem overwrite_same {k : Nat} (h : SameCard s₀ s) : SameCard s₀ (overwrite k s) :=
  countDiffers_same (pullLayer_same (setMirrorRun_same h))

theorem refetch_same {k : Nat} (h : SameCard s₀ s) : SameCard s₀ (refetch k s) :=
  have h := setMirrorRun_same (countDiffers_same h)
  .ite (overwrite_same h) (toTwin_same h)

theorem shadowDone_same {k : Nat} {e : LayerEnt} {m : MeasBlock} {ecc : Ecc} (h : SameCard s₀ s) :
    SameCard s₀ (shadowDone k e m ecc s) := by
  unfold shadowDone
  dsimp only
  split
  · exact refetch_same (failPond_same h)
  split
  · next e => exact overwrite_same ((shadowLayer_same (applyEcc_same h)).fst e)
  · next e =>
      have h := (shadowLayer_same (applyEcc_same h)).fst e
      exact .ite (disagree_same h) (.ite (settle_same (setMirrorRun_same h)) (shadowCheck_same (setMirrorRun_same
        (setMirrorRef_same h))))

theorem compared_same {k : Nat} (h : SameCard s₀ s) : SameCard s₀ (compared k s) := .when toTwin_same h.update

theorem compareLayer_same {k : Nat} {sp : BitVec 128} (h : SameCard s₀ s) : SameCard s₀ (compareLayer k sp s) :=
  have h₁ := mirrorBoundaryDigest_same h
  have h := storedDigest_same h
  .ite (.ite (compared_same h₁) (toTwin_same h₁)) (.ite (compared_same h) (disagree_same (setMirrorRun_same h)))

/-! ### Twin -/

theorem askJoin_same (h : SameCard s₀ s) : SameCard s₀ (askJoin s) :=
  .foldl (fun _ _ => pullLayer_same) (toTwin_same (toTwin_same (toTwin_same (toTwin_same h.update))))

theorem sendSeed_same (h : SameCard s₀ s) : SameCard s₀ (sendSeed s) :=
  toTwin_same (toTwin_same (heldBytes_same (.foldl (fun _ _ h => toTwin_same (fetchRanges_same h))
    (setBoot_same (setBoot_same (setBoot_same (digestOwn_same h)))))))

theorem sendPair_same (h : SameCard s₀ s) : SameCard s₀ (sendPair s) := toTwin_same h.update

theorem trySeed_same (h : SameCard s₀ s) : SameCard s₀ (trySeed s) :=
  have h₁ := setPair_same (sendPair_same h).update
  .ite (.ite (askJoin_same h₁) (sendSeed_same h₁)) h

theorem seedEnds_same (h : SameCard s₀ s) : SameCard s₀ (seedEnds s) := setPair_same h.update

theorem takePair_same {m : PairMsg} (h : SameCard s₀ s) : SameCard s₀ (takePair m s) :=
  have h := SameCard.ite (seedEnds_same h) h
  .when (fun h => .ite (trySeed_same (.update h)) (.unless sendPair_same (.update h))) h

theorem sendCustody_same (h : SameCard s₀ s) : SameCard s₀ (sendCustody s) := by
  unfold sendCustody
  dsimp only
  split
  exacts [h, .ite (toTwin_same h.update) h]

theorem joinJob_same (h : SameCard s₀ s) : SameCard s₀ (joinJob s) := h.update

theorem tryInStep_same (h : SameCard s₀ s) : SameCard s₀ (tryInStep s) :=
  .ite (sendCustody_same (.when joinJob_same (setPair_same h.update))) h

theorem seedFails_same (h : SameCard s₀ s) : SameCard s₀ (seedFails s) := sendPair_same (raiseOpen_same (seedEnds_same h))

theorem seedAgain_same {k : Nat} (h : SameCard s₀ s) : SameCard s₀ (seedAgain k s) :=
  have h₁ := countBoot_same h.update
  .ite (seedFails_same h) (.ite (toTwin_same h₁) (pullLayer_same h₁))

theorem seedAgrees_same {k : Nat} (h : SameCard s₀ s) : SameCard s₀ (seedAgrees k s).1 :=
  .pair (.iteFst (mirrorBoundaryDigest_same h) (storedDigest_same h))

theorem seedDone_same (h : SameCard s₀ s) : SameCard s₀ (seedDone s) := .ite (tryInStep_same (toTwin_same h.update)) h

theorem takeSeedEnd_same {n : Nat} {ds : List (BitVec 128)} {bd : BitVec 128} {block : Bytes} (h : SameCard s₀ s) :
    SameCard s₀ (takeSeedEnd n ds bd block s) := by
  unfold takeSeedEnd
  dsimp only
  split
  · exact seedDone_same (.update (.foldlFst (fun _ _ h => .pair (seedAgrees_same h))
    (.pair (putMirrorBlock_same h.update).update)))
  · exact .foldl (fun _ _ h => .ite (seedAgain_same h) h) (.update (.foldlFst (fun _ _ h => .pair (seedAgrees_same h))
    (.pair (putMirrorBlock_same h.update).update)))

theorem seedRepaired_same {k : Nat} (h : SameCard s₀ s) : SameCard s₀ (seedRepaired k s) :=
  have h := seedAgrees_same h
  .ite (seedDone_same h.update) (seedAgain_same h)

theorem trySack_same {step : Nat} (h : SameCard s₀ s) : SameCard s₀ (trySack step s) := .ite (toTwin_same h) h

theorem putPend_same {off : Nat} {bs : Bytes} (h : SameCard s₀ s) : SameCard s₀ (putPend off bs s) :=
  pondWrite_same (fun _ h => h.update) h

theorem putGrad_same {ts : List TensorEnt} {off : Nat} {bs : Bytes}
    (h : SameCard s₀ s) : SameCard s₀ (putGrad ts off bs s) := by
  fun_induction putGrad ts off bs s with
  | case1 => exact h
  | case2 _ _ _ _ _ _ _ ih => exact ih h
  | case3 _ _ _ _ _ _ _ _ ih => exact ih (putPend_same h)

theorem takeGend_same {step k : Nat} {n cs : W32} {dg ds : BitVec 128} (h : SameCard s₀ s) :
    SameCard s₀ (takeGend step k n cs dg ds s) :=
  toTwin_same (setMirrorRun_same (heldDigest_same h))

theorem twinFails_same (h : SameCard s₀ s) : SameCard s₀ (twinFails s) := .ite (enterLost_same h) h

theorem sayUnpair_same (h : SameCard s₀ s) : SameCard s₀ (sayUnpair s) := by
  unfold sayUnpair
  dsimp only
  split
  exacts [toTwin_same h, toCardId_same (toTwin_same h)]

theorem linkLost_same {alive : Bool} (h : SameCard s₀ s) : SameCard s₀ (linkLost alive s) := by
  unfold linkLost
  dsimp only
  split
  · exact h
  split
  · exact twinFails_same (enterSolo_same (sayUnpair_same h))
  refine twinFails_same ?_
  split
  exacts [h, suspectCard_same h]

theorem takeGack_same {k : Nat} {e : LayerEnt} {ok : Bool} (h : SameCard s₀ s) : SameCard s₀ (takeGack k e ok s) :=
  have h := setLayerRun_same h
  .unless (fun h => .ite (linkLost_same h) (sendGrad_same h)) h

theorem startCompare_same (h : SameCard s₀ s) : SameCard s₀ (startCompare s) :=
  toTwin_same (boundaryData_same (.foldl (fun _ _ h => toTwin_same (storedDigest_same h)) (countBoot_same h.update)))

theorem takeSdone_same {n : Nat} {esc : Bool} (h : SameCard s₀ s) : SameCard s₀ (takeSdone n esc s) :=
  .ite (reportAbort_same (resolved_same h.update.update))
    (.ite (startCompare_same h.update) (.when (fun h => .foldl (fun _ _ => pullLayer_same) h) h.update.update))

theorem noteFix_same {k fix : Nat} (h : SameCard s₀ s) : SameCard s₀ (noteFix k fix s) := h.update

theorem takeDigreq_same {k : Nat} (h : SameCard s₀ s) : SameCard s₀ (takeDigreq k s) := by
  unfold takeDigreq
  dsimp only
  split
  exacts [h, toTwin_same (storedDigest_same (.ite h (countBoot_same (noteFix_same h))))]

theorem takeDigrsp_same {k : Nat} {d : BitVec 128} (h : SameCard s₀ s) : SameCard s₀ (takeDigrsp k d s) := by
  unfold takeDigrsp
  dsimp only
  split
  · exact judge_same h
  split
  · exact compareLayer_same h
  · split
    exacts [h, .ite (resolved_same (setOwnRef_same ((storedDigest_same h).update))) (storedDigest_same h)]

theorem servePull_same {w : PullWhat} (h : SameCard s₀ s) : SameCard s₀ (servePull w s) := by
  unfold servePull
  dsimp only
  split
  · exact .ite h (countBoot_same (countBoot_same (toTwin_same (fetchRanges_same h))))
  · exact .ite h (toTwin_same (fetchRanges_same (.ite (noteFix_same h) (.ite (countBoot_same (noteFix_same h)) h))))
  · split
    · exact h
    · split
      exacts [h, toTwin_same (.ite (noteFix_same h) h)]
  · exact .ite (.ite h (sendCustody_same h)) (.ite h (toTwin_same (rangeServe_same h)))

theorem restoreLayer_same {k : Nat} {e : LayerEnt} {bs : Bytes} {ref : BitVec 128} (h : SameCard s₀ s) :
    SameCard s₀ (restoreLayer k e bs ref s) := by
  unfold restoreLayer
  extract_lets x s₁ s₂ _ s₃ params s₄ n _
  have h₁ : SameCard s₀ s₁ := storedDigest_same (pokeRanges_same h)
  have h₃ : SameCard s₀ s₃ := (rebuildWork_same (setOwnRef_same h₁)).update
  have h₄ : SameCard s₀ s₄ := countBoot_same (countBoot_same h₃)
  exact .ite (.ite (tryInStep_same h₃) (.ite (finishAbort_same h₄) h₄)) (.ite (enterLost_same h₁) (pullLayer_same h₁.update))

theorem mirrorLayer_same {k : Nat} {bs : Bytes} {ref : BitVec 128} (h : SameCard s₀ s) :
    SameCard s₀ (mirrorLayer k bs ref s) := by
  unfold mirrorLayer
  extract_lets r lt x s₁ d _
  have h₁ : SameCard s₀ s₁ := storedDigest_same (pokeRanges_same h)
  refine .ite ?_ (.ite (again_same h₁) (.ite (seedRepaired_same h₁) (.ite (setMirrorRef_same h₁.update) h₁)))
  exact .ite (toTwin_same (settle_same h₁)) (.ite (settle_same h₁) (pullLayer_same (setMirrorRun_same h₁)))

theorem joined_same {what : Nat} (h : SameCard s₀ s) : SameCard s₀ (joined what s) := tryInStep_same h.update

theorem joinInputs_same {bs : Bytes} (h : SameCard s₀ s) : SameCard s₀ (joinInputs bs s) :=
  .ite (joined_same h) (joined_same (pokeDev_same h).update)

theorem pokeFrom_same {off : Nat} {bs : Bytes} {rs : List (Nat × Nat)}
    (h : SameCard s₀ s) : SameCard s₀ (pokeFrom off bs rs s) := by
  fun_induction pokeFrom off bs rs s with
  | case1 => exact h
  | case2 _ _ _ _ _ ih => exact ih h
  | case3 => exact pokeRanges_same h

theorem landRange_same {a : Nat} {bs : Bytes} (h : SameCard s₀ s) : SameCard s₀ (landRange a bs s) := by
  unfold landRange
  extract_lets n s₁ left was _ s₂ s₃
  have h₁ : SameCard s₀ s₁ := putMirrorBlock_same (pokeDev_same h)
  have h₃ : SameCard s₀ s₃ := pokeDev_same h
  refine .ite (pokeFrom_same h) (.ite (.ite (seedRepaired_same h₁) ?_) (.ite ?_ ?_))
  · exact .when toTwin_same h₁.update
  · exact .when joined_same h₃
  · exact .ite (.ite (joined_same (applyBoundary_same h)) h) (.ite (putPend_same h) (.ite (joinInputs_same h) h))

theorem gradCame_same {k : Nat} {bs : Bytes} (h : SameCard s₀ s) : SameCard s₀ (gradCame k bs s) := by
  unfold gradCame
  dsimp only
  split
  · split
    exacts [h, putGrad_same (setMirrorRun_same h)]
  split
  · split
    exacts [h, .ite (putGrad_same h) h]
  · exact .ite (pullLayer_same (setMirrorRun_same h)) (settle_same h)

theorem takeData_same {w : PullWhat} {bs : Bytes} {ref : BitVec 128} (h : SameCard s₀ s) :
    SameCard s₀ (takeData w bs ref s) := by
  unfold takeData
  split
  · split
    exacts [h, .ite (restoreLayer_same h) (.ite (rebuildWork_same (noteFix_same (pokeRanges_same h))) h)]
  · exact mirrorLayer_same h
  · exact gradCame_same h
  · exact landRange_same h

theorem beginLoad_same (h : SameCard s₀ s) : SameCard s₀ (beginLoad s) := by
  unfold beginLoad
  dsimp only
  split
  exacts [h, .ite h (askCard_same (.update (.ite (enterSolo_same h) h)))]

theorem sendImage_same {c base : Nat} (h : SameCard s₀ s) : SameCard s₀ (sendImage c base s) := by
  unfold sendImage
  dsimp only
  split
  · exact h
  · split
    exacts [h, sendRun_same ((freshTxn_same (fetchRanges_same (fetchRanges_same h))).update)]

theorem ownAnswer_same {c : Nat} {ans : Option Bytes} (h : SameCard s₀ s) : SameCard s₀ (ownAnswer c ans s) := by
  unfold ownAnswer
  dsimp only
  split
  · exact h
  split
  · split
    exacts [.ite (sendImage_same h.update) h.update, h.update]
  · exact .ite (gatewayTable_same h.update) (recAnswer_same h)

theorem execGrad_same {step : BitVec 64} {layer off : Nat} {data : Bytes} (h : SameCard s₀ s) :
    Answers s₀ (execGrad step layer off data s) := by
  unfold execGrad
  dsimp only
  refine .next ?_
  split
  exacts [h, .ite (putGrad_same h.update) h]

theorem execGend_same {step : BitVec 64} {layer : Nat} {n cs : W32} {dg ds : BitVec 128} (h : SameCard s₀ s) :
    Answers s₀ (execGend step layer n cs dg ds s) := by
  unfold execGend
  refine .next ?_
  split
  exacts [h, .ite (takeGend_same h) h]

theorem execGack_same {step : BitVec 64} {layer : Nat} {ok : Bool} (h : SameCard s₀ s) :
    Answers s₀ (execGack step layer ok s) := by
  unfold execGack
  refine .next ?_
  split
  exacts [h, .ite (takeGack_same h) h]

theorem execPack_same {gen : BitVec 32} (h : SameCard s₀ s) : Answers s₀ (execPack gen s) := by
  unfold execPack
  dsimp only
  refine .next ?_
  split
  exacts [h, applyCan_same (reply_same h.update)]

theorem execShadowLayerDone_same {layer : Nat} {ecc : Ecc} (h : SameCard s₀ s) :
    Answers s₀ (execShadowLayerDone layer ecc s) := by
  unfold execShadowLayerDone
  dsimp only
  refine .next ?_
  split
  exacts [.ite (shadowDone_same h) h, h]

theorem execRecruit_same {a : Access} {f : BitVec 16} (h : SameCard s₀ s) : Answers s₀ (execRecruit a f s) :=
  .next (actWrite_same (fun _ h => .ite (refuse_same h) (reply_same (.update (.ite (releasePlan_same h) h)))) h)

theorem execReplaceCard_same {a : Access} {f : BitVec 16} (h : SameCard s₀ s) : Answers s₀ (execReplaceCard a f s) :=
  .next (actWrite_same (fun _ h => .ite (refuse_same h)
    (.ite (refuse_same h) (.ite (reply_same (tellHandover_same h.update)) (.ite (reply_same h.update)
      (reply_same (toCard_same h)))))) h)

theorem execPlannedHandover_same (h : SameCard s₀ s) : Answers s₀ (execPlannedHandover s) := by
  unfold execPlannedHandover
  refine .next ?_
  split
  exacts [h, .ite (askPartners_same (recBegin_same h)) h]

/-! ### The card's own commands -/

theorem execIdentify_same {a : Access} {v : BitVec 16} (h : SameCard s₀ s) : Answers s₀ (execIdentify a v s) :=
  .next (actWrite_same (fun _ h => .ite (refuse_same h) (reply_same h.update)) h)

theorem cablePort_same {p : Nat} {present : Bool} (h : SameCard s₀ s) : SameCard s₀ (cablePort p present s) :=
  .ite (setPort_same h) (portDown_same h)

theorem execCopyFailed_same {b : Nat} {ecc : Ecc} (h : SameCard s₀ s) : Answers s₀ (execCopyFailed b ecc s) := by
  unfold execCopyFailed
  refine .next ?_
  split
  · refine copyFails_same ?_
    split
    exacts [damageFound_same (recordDamage_same (applyEcc_same h)), applyEcc_same h]
  · exact h

theorem execPatrolScrubRead_same {w : ScrubAt} {f : ScrubFound} (h : SameCard s₀ s) :
    Answers s₀ (execPatrolScrubRead w f s) := by
  unfold execPatrolScrubRead
  dsimp only
  refine .next ?_
  split
  · exact h
  · exact corrected_same h
  split
  · exact damageFound_same (recordDamage_same (uncorrectable_same h))
  · exact pondDamaged_same (damageFound_same (recordDamage_same (uncorrectable_same h)))

/-! ### Commands of harvest -/

theorem harvRequest_same {t : Nat} (h : SameCard s₀ s) : SameCard s₀ (harvRequest t s) :=
  .ite (harvStart_same h.update) (setHarv_same h.update)

theorem execHarvestStep_same {a : Access} {t : BitVec 64} (h : SameCard s₀ s) : Answers s₀ (execHarvestStep a t s) :=
  .next (actWrite_same (fun _ h => .ite (refuse_same h) (reply_same (harvRequest_same h))) h)

theorem emitHost_same {w : HostWr} (h : SameCard s₀ s) : SameCard s₀ (emitHost w s) := by
  unfold emitHost
  dsimp only
  split
  exacts [send_same h.update, raiseVec_same (send_same h.update)]

theorem sendHeader_same (h : SameCard s₀ s) : SameCard s₀ (sendHeader s) :=
  .ite (.ite h (harvDone_same (emitHost_same h))) (.ite h (toGateway_same h.update))

theorem execHarvestCancel_same {a : Access} {v : BitVec 8} (h : SameCard s₀ s) : Answers s₀ (execHarvestCancel a v s) :=
  .next (actWrite_same (fun _ h => .ite (refuse_same h) (reply_same (harvFail_same h))) h)

theorem loadImage_same {buf : Bytes} (h : SameCard s₀ s) : SameCard s₀ (loadImage buf s) :=
  have h₁ := digestOwn_same (rebuildAll_same (.foldl (fun _ _ => loadSection_same) h.update))
  .ite h.update (.ite (setPair_same h₁.update.update) h₁.update)

theorem execHarvestLoad_same {a : Access} {v : BitVec 8} {buffer : Bytes} (h : SameCard s₀ s) :
    Answers s₀ (execHarvestLoad a v buffer s) :=
  .next (actWrite_same (fun _ h => .ite (refuse_same h) (.ite (reply_same (loadImage_same h)) (refuse_same h))) h)

/-! ### The host link -/

theorem modHost_same {f : HostSt → HostSt} (h : SameCard s₀ s) : SameCard s₀ (modHost f s) := h.update

theorem setWinbase_same {v : Nat} (h : SameCard s₀ s) : SameCard s₀ (setWinbase v s) := .when (fun h => h) (modHost_same h)

theorem openWindow_same (h : SameCard s₀ s) : SameCard s₀ (openWindow s) := by
  unfold openWindow
  dsimp only
  split
  · exact h
  · split
    exacts [modHost_same h, .ite (openSnaps_same (modHost_same (setSnap_same h))) (modHost_same (setSnap_same h))]

theorem closeWindow_same (h : SameCard s₀ s) : SameCard s₀ (closeWindow s) := by
  unfold closeWindow
  dsimp only
  refine modHost_same ?_
  split
  exacts [h, closeSnap_same h]

theorem setCqbase_same {v : Nat} (h : SameCard s₀ s) : SameCard s₀ (setCqbase v s) := .ite (modHost_same h) h

theorem setCqsize_same {v : Nat} (h : SameCard s₀ s) : SameCard s₀ (setCqsize v s) := .ite (modHost_same h) h

theorem setCqtail_same {v : Nat} (h : SameCard s₀ s) : SameCard s₀ (setCqtail v s) :=
  .ite (countBoot_same h) (wakePath_same (modHost_same h))

theorem setRingput_same {v : Nat} (h : SameCard s₀ s) : SameCard s₀ (setRingput v s) :=
  .ite (modHost_same h) (countBoot_same h)

theorem setHostseq_same {v : Nat} (h : SameCard s₀ s) : SameCard s₀ (setHostseq v s) :=
  .ite (modHost_same h) (countBoot_same h)

theorem writeMsix_same {off : Nat} {bs : Bytes} (h : SameCard s₀ s) : SameCard s₀ (writeMsix off bs s) :=
  flushVecs_same (modHost_same h)

theorem writeReg_same {w : RegWrite} (h : SameCard s₀ s) : SameCard s₀ (writeReg w s) := by
  unfold writeReg
  dsimp only
  split
  · exact setWinbase_same h
  · exact .ite (openWindow_same h) (.ite (closeWindow_same h) h)
  · exact setCqbase_same h
  · exact .ite (setCqsize_same h) h
  · exact .ite (setCqtail_same h) h
  · exact .ite (setRingput_same h) h
  · exact .ite (modHost_same h) h
  · exact .ite (modHost_same h) h
  · exact setHostseq_same h
  · exact .ite (modHost_same h) h
  · exact h

theorem regWrite_same {w : RegWrite} (h : SameCard s₀ s) : SameCard s₀ (regWrite w s) :=
  .ite (.ite (modHost_same h) h) (.ite (.ite (writeMsix_same h) h) (.ite (writeReg_same h) h))

theorem unserved_same {n : Nat} (h : SameCard s₀ s) : SameCard s₀ (unserved n s) :=
  countBoot_same (send_same (modHost_same h))

theorem winRead_same {off n : Nat} {ecc : Ecc} (h : SameCard s₀ s) : SameCard s₀ (winRead off n ecc s) := by
  unfold winRead
  extract_lets +onlyGivenNames addr
  refine .ite (unserved_same h) ?_
  extract_lets +onlyGivenNames s₁ r
  have h₁ : SameCard s₀ s₁ := wakePath_same h
  have hr : SameCard s₀ r.state := by
    refine .iteOut ?_ (readDev_same h₁)
    split
    exacts [.iteOut (snapRead_same h₁) h₁.failed, h₁.failed]
  clear_value r
  cases r with
  | ok => exact send_same hr
  | notBacked | failed => exact unserved_same (damageFound_same hr)

theorem dropWrite_same (h : SameCard s₀ s) : SameCard s₀ (dropWrite s) := countBoot_same h

theorem startCmd_same {op : Nat} {entry : BitVec 512} {f : Cmd → State → State × Nat}
    (hf : ∀ x0 s, SameCard s₀ s → SameCard s₀ (f x0 s).1) (h : SameCard s₀ s) :
    SameCard s₀ (startCmd op entry f s) :=
  .ite h (modHost_same (.iteFst (hf _ _ (wakePath_same h)) (.pair h)))

theorem copyIn_same {a n : Nat} {bs : List Bytes} (h : SameCard s₀ s) : SameCard s₀ (copyIn a bs n s).1 := by
  generalize hf : copyIn = f
  delta copyIn copyIn._f at hf
  obtain ⟨wr, e₁, hw⟩ := writeDev_sealed s₀
  obtain ⟨area, e₂⟩ := exists_eq' (a' := planArea)
  rw [e₁, e₂] at hf
  induction bs generalizing a n s with
  | nil =>
    subst hf
    exact h
  | cons b bs ih =>
    generalize hp : f a (b :: bs) n s = p
    rw [← hf] at hp
    dsimp only at hp
    subst hf hp
    refine .iteFst h (.iteFst (.pair (pokeDev_same h)) ?_)
    split
    · next e => exact ih ((hw h).out e)
    · next e => exact (hw h).out e
    · next e => exact (hw h).out e

theorem hostToDevice_same {data : Bytes} {hostError : Bool} {c : Cmd} (h : SameCard s₀ s) :
    SameCard s₀ (hostToDevice data hostError c s).1 :=
  .pair (countBoot_same (copyIn_same h))

theorem copyOut_same {rd : Nat → State → MemOut} {n a : Nat} {acc : Bytes}
    (hf : ∀ a s, SameCard s₀ s → SameCard s₀ (rd a s).state) (h : SameCard s₀ s) : SameCard s₀ (copyOut rd n a acc s).1 := by
  fun_induction copyOut rd n a acc s with
  | case1 => exact h
  | case2 => exact h
  | case3 _ _ _ _ _ _ _ e ih => exact ih ((hf _ _ h).out e)
  | case4 _ _ _ _ _ _ e => exact (hf _ _ h).out e
  | case5 _ _ _ _ _ _ e => exact (hf _ _ h).out e

theorem deviceToHost_same {snapSrc : Bool} {ecc : Ecc} {c : Cmd} (h : SameCard s₀ s) :
    SameCard s₀ (deviceToHost snapSrc ecc c s).1 := by
  unfold deviceToHost
  extract_lets +onlyGivenNames go s₁
  have h₁ : SameCard s₀ s₁ := applyEcc_same h
  have hgo {rd s} (hr : ∀ a s, SameCard s₀ s → SameCard s₀ (rd a s).state) (h : SameCard s₀ s) : SameCard s₀ (go rd s).1 :=
    .pair (.ite (countBoot_same (copyOut_same hr h)) (hostWrite_same (countBoot_same (copyOut_same hr h))))
  refine .iteFst ?_ (hgo (fun _ _ => readDev_same) h₁)
  split
  · exact .iteFst (hgo (fun _ _ => snapRead_same) h₁) h₁
  · exact h₁

theorem completeCmd_same {c : Cmd} {cs : List Cmd} (h : SameCard s₀ s) : SameCard s₀ (completeCmd c cs s) :=
  have h := .unless countBoot_same (countBoot_same (modHost_same h))
  .ite (hostWrite_same h) (.when raiseVec_same h)

theorem execCommandComplete_same (h : SameCard s₀ s) : Answers s₀ (execCommandComplete s) := by
  unfold execCommandComplete
  refine .next ?_
  split
  exacts [h, .ite h (completeCmd_same h)]

theorem writeOldest_same (h : SameCard s₀ s) : SameCard s₀ (writeOldest s) := by
  unfold writeOldest
  dsimp only
  split
  · exact h
  split
  · split
    · next e => exact (takeSection_same (modHost_same h)).fst e
    · next e => exact emitHost_same ((takeSection_same (modHost_same h)).fst e)
  · exact emitHost_same (modHost_same h)

theorem gapMarker_same (h : SameCard s₀ s) : SameCard s₀ (gapMarker s) := .ite h (enqueue_same (modHost_same h))

theorem execEvpopRead_same {off : Fin 32} {n : Nat} (h : SameCard s₀ s) : Answers s₀ (execEvpopRead off n s) := by
  unfold execEvpopRead
  refine .next ?_
  split
  · exact h
  · split
    exacts [send_same h, gapMarker_same (send_same (modHost_same h))]

theorem unknownBytes_same {n : Nat} (h : SameCard s₀ s) : SameCard s₀ (unknownBytes n s).1 := .pair h.update

theorem loseCopy_same {c : Cmd} (h : SameCard s₀ s) : SameCard s₀ (loseCopy c s) := by
  unfold loseCopy
  split
  · split
    · next e => exact copyIn_same ((unknownBytes_same h).fst e)
  · exact h

theorem hostReset_same {cause : Nat} {linkStays : Bool} (h : SameCard s₀ s) : SameCard s₀ (hostReset cause linkStays s) :=
  .ite h (.when harvFail_same (modHost_same (endSessions_same (closeWindow_same (.foldl (fun _ _ => loseCopy_same) h)))))

/-! ### The object dictionary -/

theorem resState_same {r : Res} (hr : Answers s₀ r) : SameCard s₀ (resState r s) := by
  obtain ⟨t, rfl, ht⟩ := hr
  exact ht

theorem stageEntry_same {a : Access} {idx sub : Nat} {bs : Bytes}
    (h : SameCard s₀ s) : SameCard s₀ (stageEntry a idx sub bs s) :=
  .ite (refuse_same h) (.ite (refuse_same h) (reply_same h.update))

theorem commitApply_same {a : Access} {gen : BitVec 32} {target : Option Nat} (h : SameCard s₀ s) :
    SameCard s₀ (commitApply a gen target s) := by
  unfold commitApply
  extract_lets es parts s₁ s₂ _ s₃ s₄
  have h₃ : SameCard s₀ s₃ := (applyEntries_same (clearPending_same h)).update
  have h₄ : SameCard s₀ s₄ := beginLoad_same (applyIdleParts_same (settleGens_same h₃))
  split
  · exact .ite (toTwin_same h₄.update) (applyCan_same (reply_same h₄))
  · exact applyCan_same (reply_same h₄)

theorem commitWith_same {a : Access} {sub : Nat} {gen : BitVec 32} {target : Option Nat} (h : SameCard s₀ s) :
    SameCard s₀ (commitWith a sub gen target s) := by
  unfold commitWith
  dsimp only
  split
  exacts [refuse_same h.update, commitApply_same h.update]

theorem execCommit_same {a : Access} {gen : BitVec 32} (h : SameCard s₀ s) : Answers s₀ (execCommit a gen s) :=
  .next (actWrite_same (fun _ => commitWith_same) h)

theorem execCommitAtStep_same {a : Access} {gen : BitVec 32} {step : BitVec 64} (h : SameCard s₀ s) :
    Answers s₀ (execCommitAtStep a gen step s) :=
  .next (actWrite_same (fun _ => commitWith_same) h)

theorem execDiscard_same {a : Access} {gen : BitVec 32} (h : SameCard s₀ s) : Answers s₀ (execDiscard a gen s) :=
  .next (actWrite_same (fun _ h => .ite (refuse_same h) (.ite (refuse_same h) (reply_same (clearPending_same h)))) h)

theorem execErrorFieldClear_same {a : Access} {v : BitVec 8} (h : SameCard s₀ s) : Answers s₀ (execErrorFieldClear a v s) :=
  .next (actWrite_same (fun _ h => .ite (refuse_same h) (reply_same h.update)) h)

theorem execStore_same {a : Access} {cls : Fin 3} {sig : BitVec 32} (h : SameCard s₀ s) : Answers s₀ (execStore a cls sig s) :=
  .next (actWrite_same (fun _ h => .ite (refuse_same h) h.update) h)

theorem execRestoreDefaults_same {a : Access} {cls : Fin 3} {sig : BitVec 32} (h : SameCard s₀ s) :
    Answers s₀ (execRestoreDefaults a cls sig s) :=
  .next (actWrite_same (fun _ h => .ite (refuse_same h) (reply_same (putStored_same h))) h)

theorem specialWrite_same {a : Access} {idx sub : Nat} {bs : Bytes} (h : SameCard s₀ s) :
    Holds (Answers s₀) (specialWrite a idx sub bs s) := by
  unfold specialWrite
  dsimp only
  split
  · exact .some (execErrorFieldClear_same h)
  · split
    exacts [.none, .some (execStore_same h)]
  · split
    exacts [.none, .some (execRestoreDefaults_same h)]
  · exact .some (execStartJob_same h)
  · exact .some (execStopJob_same h)
  · exact .some (execCommit_same h)
  · exact .some (execCommitAtStep_same h)
  · exact .some (execDiscard_same h)
  · refine .some ?_
    split
    exacts [execWakeRequest_same h, execSleepRequest_same h]
  · exact .some (execIdentify_same h)
  · exact .some (execReboot_same h)
  · exact .some (execStageImage_same h)
  · exact .some (execNextSlot_same h)
  · exact .some (execConfirm_same h)
  · exact .some (execHalt_same h)
  · exact .some (execResume_same h)
  · exact .some (execHarvestStep_same h)
  · exact .some (execHarvestCancel_same h)
  · split
    exacts [.some (execHarvestLoad_same (unknownBytes_same h)), .some (execHarvestLoad_same h)]
  · exact .some (execRecruit_same h)
  · exact .some (execReplaceCard_same h)
  · exact .some (execActivate_same h)
  · exact .some (execRelease_same h)
  · exact .none

theorem applyNow_same {idx sub : Nat} {bs : Bytes} (h : SameCard s₀ s) : SameCard s₀ (applyNow idx sub bs s) := by
  unfold applyNow
  dsimp only
  split
  exacts [writeHeader_same h.update, writeHeader_same h.update, putVal_same h]

theorem writeEntry_same {a : Access} {idx sub : Nat} {bs : Bytes}
    (h : SameCard s₀ s) : SameCard s₀ (writeEntry a idx sub bs s) := by
  unfold writeEntry
  refine .ite (jobWrite_same (fun _ h => h) h) (serve_same (fun s h => ?_) h)
  split
  · exact refuse_same h
  refine .ite (refuse_same h) (.ite (refuse_same h) ?_)
  split
  · next e => exact resState_same ((specialWrite_same h).of_some e)
  · exact .ite (refuse_same h) (.ite (reply_same (applyNow_same h)) (stageEntry_same h))

theorem writeObject_same {a : Access} {idx : Nat} {bs : Bytes} (h : SameCard s₀ s) :
    SameCard s₀ (writeObject a idx bs s) := by
  unfold writeObject
  dsimp only
  refine serve_same (fun _ h => ?_) h
  split
  · exact refuse_same h
  split
  · exact refuse_same h
  split
  · exact refuse_same h
  split
  · exact refuse_same h
  · exact .ite (refuse_same h) (.ite (refuse_same h) (reply_same (.when (fun h => .update h)
    (.foldl (fun _ _ => applyNow_same) h))))

theorem dropSession_same {r : Route} {sid : Nat} (h : SameCard s₀ s) : SameCard s₀ (dropSession r sid s) := h.update

theorem invalid_same {a : Access} {idx sub : Nat} (h : SameCard s₀ s) : SameCard s₀ (invalid a idx sub s) :=
  .ite (refuse_same h) h

theorem writeSession_same {a : Access} {x : Session} {last : Bool} (h : SameCard s₀ s) :
    SameCard s₀ (writeSession a x last s) := by
  unfold writeSession
  dsimp only
  split
  · split
    exacts [writeEntry_same (dropSession_same h), writeObject_same (dropSession_same h)]
  · exact send_same (dropSession_same h).update

theorem readSession_same {a : Access} {x : Session} (h : SameCard s₀ s) : SameCard s₀ (readSession a x s) :=
  have h := dropSession_same h
  .ite (reply_same h) (send_same h.update)

theorem openSession_same {a : Access} {idx sub : Nat} {f : State → State} (hf : ∀ s, SameCard s₀ s → SameCard s₀ (f s))
    (h : SameCard s₀ s) :
    SameCard s₀ (openSession a idx sub f s) :=
  .ite (refuse_same h) (hf _ h)

theorem segment_same {a : Access} {sid : Nat} {m : SegMsg} {data : Bytes} {last : Bool} (h : SameCard s₀ s) :
    SameCard s₀ (segment a sid m data last s) := by
  unfold segment
  split
  · exact openSession_same (fun _ => writeSession_same) h
  · exact openSession_same (fun _ => serveRead_same (fun _ _ => readSession_same)) h
  · exact invalid_same (dropSession_same h)
  · exact invalid_same (dropSession_same h)
  · exact .ite (readSession_same h) (writeSession_same h)
  · exact invalid_same h

theorem execInvalidUsdoMessage_same {a : Access} {carried : Option (BitVec 16 × BitVec 8)} {sid : Option Nat}
    (h : SameCard s₀ s) :
    Answers s₀ (execInvalidUsdoMessage a carried sid s) := by
  unfold execInvalidUsdoMessage
  dsimp only
  refine .next ?_
  split
  · exact h
  split
  · refine refuse_same ?_
    split
    exacts [h, dropSession_same h]
  refine refuse_same ?_
  split
  exacts [h, dropSession_same h]

theorem execUsdoSessionTimeout_same {path : Route} {sid : Nat} (h : SameCard s₀ s) :
    Answers s₀ (execUsdoSessionTimeout path sid s) := by
  unfold execUsdoSessionTimeout
  refine .next ?_
  split
  exacts [h, refuse_same (dropSession_same h)]

theorem nmtIgnored_same {c : Nat} (h : SameCard s₀ s) : SameCard s₀ (nmtIgnored c s) := raiseOpen_same h

theorem bootUp_same {old : List Nat} (h : SameCard s₀ s) : SameCard s₀ (bootUp old s) :=
  send_same (.ite h (endSessions_same h))

theorem resetComm_same (h : SameCard s₀ s) : SameCard s₀ (resetComm s) :=
  bootUp_same (followNode_same (defaultGroup_same (.foldl (fun _ _ => loadEntry_same) h)))

theorem resetIdle_same (h : SameCard s₀ s) : SameCard s₀ (resetIdle s) :=
  bootUp_same (clearPending_same (loadStored_same h).update)

theorem nmtBoot_same {c : Nat} (h : SameCard s₀ s) : SameCard s₀ (nmtBoot c s) :=
  .ite (resetComm_same h) (.ite (startBoot_same h) (nmtIgnored_same h))

theorem nmt_same {c : Nat} {f : State → State} (hf : ∀ s, SameCard s₀ s → SameCard s₀ (f s)) (h : SameCard s₀ s) :
    SameCard s₀ (nmt c f s) :=
  .ite h (.ite (nmtBoot_same h) (hf _ (.ite h (wake_same h))))

theorem execStartRemoteNode_same (h : SameCard s₀ s) : Answers s₀ (execStartRemoteNode s) := by
  unfold execStartRemoteNode
  refine .next ?_
  refine nmt_same (fun _ h => ?_) h
  split
  · exact nmtIgnored_same h
  · split
    exacts [.ite (startJob_same h) (nmtIgnored_same h), actResume_same h, h, nmtIgnored_same h]

theorem execStopRemoteNode_same (h : SameCard s₀ s) : Answers s₀ (execStopRemoteNode s) := by
  unfold execStopRemoteNode
  refine .next ?_
  refine nmt_same (fun _ h => ?_) h
  split
  · exact nmtIgnored_same h
  · split
    exacts [raiseHalt_same h, h, nmtIgnored_same h]

theorem execEnterPreOperational_same (h : SameCard s₀ s) : Answers s₀ (execEnterPreOperational s) := by
  unfold execEnterPreOperational
  dsimp only
  refine .next ?_
  refine nmt_same (fun _ h => ?_) h
  split
  · exact nmtIgnored_same h
  · split
    exacts [h.update, reportAbort_same h, h]

theorem execResetNode_same (h : SameCard s₀ s) : Answers s₀ (execResetNode s) := by
  unfold execResetNode
  dsimp only
  refine .next ?_
  refine nmt_same (fun _ h => ?_) h
  split
  · exact resetIdle_same (releasePlan_same h).update
  · split
    exacts [resetIdle_same h, resetIdle_same (releasePlan_same h), nmtIgnored_same h]

/-! ### Mailbox -/

theorem serveUsdo_same {a : Access} {m : UsdoMsg} (h : SameCard s₀ s) : SameCard s₀ (serveUsdo a m s) := by
  unfold serveUsdo
  split
  · exact answerRead_same h
  · exact answerAll_same h
  · exact writeEntry_same h
  · exact writeObject_same h
  · exact .ite (segment_same h) h
  · exact h
  · exact h

theorem mbxRequest_same {dst len : Nat} {m : MbxMsg} (h : SameCard s₀ s) : SameCard s₀ (mbxRequest dst len m s) := by
  unfold mbxRequest
  extract_lets +onlyGivenNames a mine _ go
  have hgo {idx sub u} : SameCard s₀ (go idx sub u) :=
    .ite (invalid_same h) (.ite (serveUsdo_same h) (.ite h (.ite (refuse_same h) (toCardId_same h.update))))
  cases m with
  | read | readAll | write | writeAll | segment => exact hgo
  | invalid => exact invalid_same h

theorem execForwardTimeout_same (h : SameCard s₀ s) : Answers s₀ (execForwardTimeout s) := by
  unfold execForwardTimeout
  refine .next ?_
  split
  exacts [h, refuse_same (modHost_same h)]

theorem passOn_same {o : Out} (h : SameCard s₀ s) : SameCard s₀ (passOn s o) := .ite (send_same h) h

theorem takeAnswer_same {src : Nat} {s0 : Source} {ans : Option Bytes} {code : Nat} (h : SameCard s₀ s) :
    SameCard s₀ (takeAnswer src s0 ans code s) := by
  unfold takeAnswer
  dsimp only
  split
  · split
    exacts [passOn_same (modHost_same h), passOn_same (modHost_same h)]
  · exact ownAnswer_same h

theorem takeUsdo_same {src : Nat} {s0 : Source} {m : UsdoMsg} (h : SameCard s₀ s) : SameCard s₀ (takeUsdo src s0 m s) := by
  unfold takeUsdo
  split
  exacts [takeAnswer_same h, takeAnswer_same h, serveUsdo_same h]

theorem engineLate_same {layer again : Nat} (h : SameCard s₀ s) : SameCard s₀ (engineLate layer again s) :=
  .ite (reportAbort_same h) h

theorem lateAt_same {r : Requester} {again : Nat} (h : SameCard s₀ s) : SameCard s₀ (lateAt r again s) := by
  unfold lateAt
  dsimp only
  split
  · split
    exacts [h, streamLate_same h]
  · exact engineLate_same h
  · exact engineLate_same h
  · exact .ite h.update h
  · exact h
  · exact .ite (copyFails_same h) h
  · exact .ite (overwrite_same h) h

/-! ### Every command -/

theorem execSensorSample_same {r : Readings} (h : SameCard s₀ s) : Answers s₀ (execSensorSample r s) :=
  have h' := recruitLate_same (countRun_same (countBoot_same (countBoot_same h))).update
  .next (.ite h (.ite (sampleAll_same (scrubPeriod_same h')) h'.update))

/-- A command on a state of the card leads to a state of the card. -/
theorem exec_answers (c : Instr) (h : SameCard s₀ s) : Answers s₀ (exec c s) := by
  cases c with
  -- the operations of a bundle
  | ald | abc | aps | adr | afl | anop | fadd | fsub | fmul | fma | fneg | fabs | fcps | fmax | fmin | fcmp | sel
  | mov | iadd | isub | imul | shl | shr | sar | and | or | xor | imax | imin | icmp | cvt | exp2 | log2 | rcp | rsqrt
  | div | sqrt | kand | kor | kxor | knot | kset | kidx | vtag | rsum | rssum | rmax | rmin | rarg | rsmax | rsmin
  | rsarg | raddraw | rrd | rclr | rtag | sarm | srearm | sstop | swait | cmark | crel | garr | gwait | gsync | lset
  | ladd | iset | iaddi | ixor | ilen | hset | br | bcnz | bcond | srecv | ssend | bwait | nap | wake | quiet
  | stepend => exact .next (giveOp_same h)
  -- the object dictionary and the towpath
  | entryWrite => exact .next (writeEntry_same h)
  | usdoSegment => exact .next (.ite (segment_same h) h)
  | invalidUsdoMessage => exact execInvalidUsdoMessage_same h
  | usdoSessionTimeout => exact execUsdoSessionTimeout_same h
  | forwardTimeout => exact execForwardTimeout_same h
  | commit => exact execCommit_same h
  | commitAtStep => exact execCommitAtStep_same h
  | discard => exact execDiscard_same h
  | pendingOwnerTimeout => exact .next (.ite (raiseOpen_same (clearPending_same h)) h)
  | errorFieldClear => exact execErrorFieldClear_same h
  | store => exact execStore_same h
  | storeDone => exact .next (finishStore_same h)
  | restoreDefaults => exact execRestoreDefaults_same h
  | startRemoteNode => exact execStartRemoteNode_same h
  | stopRemoteNode => exact execStopRemoteNode_same h
  | enterPreOperational => exact execEnterPreOperational_same h
  | resetNode => exact execResetNode_same h
  | resetCommunication => exact .next (nmt_same (fun _ => resetComm_same) h)
  | producerHeartbeatTimer => exact .next (.ite (send_same h) h)
  | tpdoEventTimer => exact .next (.ite (sendTpdo_same h) h)
  -- matrix arrays
  | batchRowArrival => exact execBatchRowArrival_same h
  | batchWaitExpiry => exact execBatchWaitExpiry_same h
  -- scalar cores
  | scalarInstruction => exact execScalarInstruction_same h
  | mbxoutWrite => exact execMbxoutWrite_same h
  | mbxinRead => exact execMbxinRead_same h
  | chmarkWrite => exact execChmarkWrite_same h
  -- streams
  | streamBurst => exact execStreamBurst_same h
  | memoryRequestComplete => exact execMemoryRequestComplete_same h
  | lockBreak => exact execLockBreak_same h
  -- sequencer: gates, registers, branches, mailboxes, naps
  | sequencerWatchdog => exact execSequencerWatchdog_same h
  | gateLimitExpiry => exact execGateLimitExpiry_same h
  | unitFault => exact .next (.ite (unitFaultAt_same h) h)
  -- the plan image
  | activate => exact execActivate_same h
  | activationDone => exact execActivationDone_same h
  | release => exact execRelease_same h
  -- basin, reservoir and barges
  | promote => exact .next (raisePromote_same (.ite (modBarge_same h) h))
  | evict => exact .next (raiseEvict_same h)
  | copyDone => exact .next (damageFound_same (copyDone_same h))
  | copyFailed => exact execCopyFailed_same h
  | lateRequest => exact .next (lateAt_same (countRun_same h))
  | reservoirGroupFailure => exact .next (.ite h (cardFails_same (recordDamage_same h.update)))
  | patrolScrubRead => exact execPatrolScrubRead_same h
  -- the update engine and the step ledger
  | layerCheckDone => exact execLayerCheckDone_same h
  | updateStageStart => exact execUpdateStageStart_same h
  | updatePieceDone => exact execUpdatePieceDone_same h
  | refreshPass => exact .next (.ite (.foldl (fun _ _ => refreshOne_same) h.update) h)
  | cardReady => exact execCardReady_same h
  | readyMessage => exact .next (hear_same (fun _ => takeReady_same) h)
  | commitMessage => exact .next (hear_same (fun _ h => .ite (commitStep_same h) h) h)
  | stepOpen => exact .next (.ite (stepOpen_same h) h)
  | abortReport => exact .next (hear_same (fun _ => takeReport_same) h)
  | abortMessage => exact .next (hear_same (fun _ h => .ite (takeAbort_same h) h) h)
  | enginesStopped => exact .next (.ite (enginesStopped_same h) h)
  | normMessage => exact .next (hear_same (fun _ => takeNorm_same) h)
  | applyMessage => exact .next (hear_same (fun _ h => .ite h.update h) h)
  | startJob => exact execStartJob_same h
  | stopJob => exact execStopJob_same h
  -- fabric, collectives and the towpath lane
  | portTrained => exact .next (trained_same h)
  | lossOfLock => exact .next (.ite (startRetrain_same h) h)
  | retrainDone => exact .next (.ite (retrained_same h) h)
  | retrainTimeout => exact .next (.ite (portDown_same h) h)
  | nullFlit => exact .next (onFlit_same (fun _ _ _ h => h) h)
  | writeFlit => exact .next (onFlit_same (fun _ _ _ => onWrite_same) h)
  | readRequest => exact .next (onFlit_same (fun _ _ _ => onRead_same) h)
  | readResponse => exact .next (onFlit_same (fun _ _ _ => onResponse_same) h)
  | writeAcknowledge => exact .next (onFlit_same (fun _ _ _ => onAck_same) h)
  | linkControl => exact execLinkControl_same h
  | multicastData => exact .next (onFlit_same (fun _ _ _ h => .ite (onTreeData_same h) (.ite (onTreeStart_same h) h)) h)
  | detachMessage => exact .next (.ite h (onDetach_same h))
  | remoteRequestTimeout => exact execRemoteRequestTimeout_same h
  | towpathUsdo => exact .next (hear_same (fun _ => takeUsdo_same) h)
  | gateArrival => exact .next (hear_same (fun _ => gateMessage_same (fun _ => gateArrived_same)) h)
  | gateRelease => exact .next (hear_same (fun _ => gateMessage_same (fun _ => gateReleased_same)) h)
  | treeEdgeConfirmation => exact .next (hear_same (fun _ => takeEdge_same) h)
  | heartbeatMessage => exact .next (hear_same (fun _ h => .ite h h.update) h)
  | fabricHeartbeatTimer => exact .next (.when flood_same h.update)
  | suspicionTimeout => exact .next (.when suspectCard_same h.update)
  | suspect => exact .next (hear_same (fun _ => takeSuspect_same) h)
  | probe => exact .next (hear_same (fun _ h => .ite h (toCardId_same h)) h)
  | probeAnswer => exact .next (hear_same (fun _ h => h.update) h)
  | probeTimeout => exact .next (.ite (declareFailed_same h) h)
  | halt => exact execHalt_same h
  | haltMessage => exact .next (hear_same (fun _ h => .ite h (actHalt_same h)) h)
  | resume => exact execResume_same h
  | resumeMessage => exact .next (hear_same (fun _ h => .ite (actResume_same h) h) h)
  -- twins, spares, replay and harvest
  | pairTimer => exact .next (.ite (.ite (trySeed_same h) (sendPair_same h)) h)
  | pair => exact .next (.ite h (takePair_same h))
  | seed => exact .next (.ite (pokeDev_same h.update) h)
  | seedEnd => exact .next (.ite (takeSeedEnd_same h) h)
  | seedOk => exact .next (.ite (tryInStep_same h.update) h)
  | image => exact .next (.ite (pokeDev_same h).update h)
  | input => exact .next (.ite (.ite (trySack_same ((putPend_same h).update)) (putPend_same h)) h)
  | grad => exact execGrad_same h
  | gend => exact execGend_same h
  | gack => exact execGack_same h
  | stepm => exact .next (.ite (trySack_same h.update) h)
  | sack => exact .next (.ite h.update h)
  | part => exact .next (.ite (toTwin_same h.update) h)
  | pack => exact execPack_same h
  | shadowLayerDone => exact execShadowLayerDone_same h
  | sdone => exact .next (.ite (takeSdone_same h) h)
  | discardMessage => exact .next (.ite h.update h)
  | pull => exact .next (servePull_same h)
  | data => exact .next (.ite h (takeData_same h))
  | digreq => exact .next (.ite (takeDigreq_same h) h)
  | digrsp => exact .next (.ite (takeDigrsp_same h) h)
  | hb => exact .next h.update
  | twinHbTimer => exact .next (.ite (toTwin_same h) h)
  | twinLinkLost => exact .next (.unless linkLost_same h.update)
  | unpair => exact .next (.ite (twinFails_same (enterSolo_same h)) h)
  | sidebandTimeout => exact .next h.update
  | cardLevelFault => exact .next (cardFails_same h)
  | recruit => exact execRecruit_same h
  | replaceCard => exact execReplaceCard_same h
  | plannedHandover => exact execPlannedHandover_same h
  | harvestStep => exact execHarvestStep_same h
  | harvestComplete => exact .next (.ite (sendHeader_same h) h)
  | harvestCancel => exact execHarvestCancel_same h
  | harvestLoad => exact execHarvestLoad_same h
  -- the host link
  | mbxctlDoorbell => exact .next (.ite h (.ite (modHost_same h) (mbxRequest_same (modHost_same h))))
  | mailboxResponse => exact .next (.ite (raiseVec_same (modHost_same h)) h)
  | registerWrite => exact .next (.ite (regWrite_same h) h)
  | winbaseWrite => exact .next (.ite (writeReg_same h) h)
  | windowOpenSnapshot => exact .next (.ite (openWindow_same h) h)
  | windowCloseSnapshot => exact .next (.ite (closeWindow_same h) h)
  | windowRead => exact .next (.ite (winRead_same h) h)
  | windowWrite => exact .next (.ite h (.ite (dropWrite_same h) (pokeDev_same (wakePath_same h))))
  | windowReadTimeout => exact .next (.ite (unserved_same h) h)
  | cqtailWrite => exact .next (.ite (setCqtail_same h) h)
  | noOpCommand => exact .next (startCmd_same (fun _ _ => .pair) h)
  | hostToDevice => exact .next (startCmd_same (fun _ _ => hostToDevice_same) h)
  | deviceToHost => exact .next (startCmd_same (fun _ _ h => .pair (damageFound_same (deviceToHost_same h))) h)
  | fence => exact .next (startCmd_same (fun _ _ => .pair) h)
  | flagOnly => exact .next (startCmd_same (fun _ _ => .pair) h)
  | commandComplete => exact execCommandComplete_same h
  | ringputWrite => exact .next (.ite (setRingput_same h) h)
  | hostseqWrite => exact .next (.ite (setHostseq_same h) h)
  | outboundWrite => exact .next (.ite (writeOldest_same h) h)
  | evpopRead => exact execEvpopRead_same h
  | dataLinkDown => exact .next (hostReset_same h)
  | perst => exact .next (hostReset_same h)
  | hotReset => exact .next (hostReset_same h)
  | flr => exact .next (hostReset_same h)
  | linkReturn => exact .next (.ite h (.when enqueue_same (modHost_same h)))
  | pciPowerStateChange => exact .next (.ite (flushVecs_same (modHost_same h)) h)
  -- keeper, clocks and power
  | sensorSample => exact execSensorSample_same h
  | thermalTrip => exact execThermalTrip_same h
  | powerAverage => exact execPowerAverage_same h
  | idleEvaluation => exact .next (.ite h (clearReadings_same (sayCodes_same h).update))
  | sleepRequest => exact execSleepRequest_same h
  | wakeRequest => exact execWakeRequest_same h
  | autoSleepTimer => exact .next (.ite (enterSleep_same h) h)
  | wakeIn => exact .next (wake_same h)
  | memoryWakeHoldExpiry => exact .next (.ite h.update h)
  | v48Loss => exact .next (.ite (lose48_same h) h)
  | v48Return => exact .next (.ite (raiseOpen_same (startBoot_same h.update)) h)
  | presentOpen => exact .next (lose48_same h).update
  | presentClose => exact .next h.update
  -- boot, flash and trust
  | bootPhaseDone => exact .next (.ite h (.when loadFails_same (phaseWork_same h.update)))
  | bootWatchdog => exact .next (.ite (restartBoot_same h) h)
  | reboot => exact execReboot_same h
  | stageImage => exact execStageImage_same h
  | stagingDone => exact execStagingDone_same h
  | nextSlot => exact execNextSlot_same h
  | confirm => exact execConfirm_same h
  | attestationReport => exact .next (answerRead_same h)
  | testDraw => exact .next (answerRead_same h)
  -- the card
  | identify => exact execIdentify_same h
  | identifyExpiry => exact .next h.update
  | vauxReturn => exact .next (.ite h (.unless serveOnVaux_same h.update))
  | vauxLoss => exact .next (.unless keeperOff_same h.update)
  | cablePresenceChange => exact .next (.foldl (fun _ _ => cablePort_same) h)
  | hbRxEdge => exact .next (.ite h.update h)
  | limitCrossing => exact .next (.ite (takeSample_same h) h)
  | awaitingPartsRead => exact .next (answerRead_same h)

/-- Settles O3: a step runs one command, and every command leads to a state of the same card, by one rule for each operation of
the model. -/
theorem identityNeverChanges : Obligations.IdentityNeverChanges := by
  unfold Obligations.IdentityNeverChanges
  intro s t e
  unfold step at e
  split at e
  · cases e
    rfl
  · next c cs _ =>
    obtain ⟨u, hu, hstrap, -⟩ := exec_answers c (SameCard.refl { s with pending := cs })
    rw [hu] at e
    cases e
    exact hstrap

end Sys2Proof.Machine

end

section
/-! PROOF. What reset leaves (O6). -/

namespace Sys2Proof.Machine

open Sys2Proof.Claims

/-- A unit of the card at reset is an empty one. -/
@[simp] theorem getUnit_reset (p : Nat) : getUnit State.reset p = {} := rfl

/-- Below the plan areas the table of a card at reset lists no barge. -/
theorem barge_reset {b : Nat} (h : b < planBarge State.reset.strap.variant) : barge State.reset b = {} := by
  unfold barge
  rw [if_neg fun hc => Nat.not_le.mpr h hc.1]
  rfl

/-- The map of a card at reset is the default assignment of R12. -/
theorem logicalUnit_reset : ∀ p < 72, logicalUnit State.reset p = if p % 9 = 8 then 0xFE else 8 * (p / 9) + p % 9 := by
  decide

/-- A mask bit that no operation has written reads as 1. -/
theorem maskBit_empty (k i : Nat) : maskBit {} k i = true := by
  unfold maskBit
  split
  · rfl
  · exact Sparse.get_nil true _

/-- Settles O6: every invariant holds of the empty card, and every register of it reads its default. -/
theorem resetState : Obligations.ResetState := by
  unfold Obligations.ResetState
  have noJob : jobRuns State.reset = false := rfl
  refine ⟨reset_inForm, ?bounds, Nat.zero_le 4, ?runs, ?touches, rfl, rfl, rfl, rfl, rfl, rfl, rfl, logicalUnit_reset, ?pans, ?masks,
    fun _ _ => rfl, fun _ => ⟨rfl, rfl⟩, fun b hb => ?barges⟩
  case bounds => exact ⟨by decide, Nat.zero_le 256, Nat.zero_le 16384⟩
  case runs => exact ⟨fun h => absurd h (by simp [noJob]), fun _ => noJob⟩
  case touches => exact ⟨fun _ _ => rfl, fun _ _ _ => rfl⟩
  case pans => exact fun _ _ _ _ => Sparse.get_nil _ _
  case masks => exact fun _ k i => maskBit_empty k i
  case barges => simp [barge_reset hb]

end Sys2Proof.Machine
end

section
/-! SUPPORT. What a message to a card changes: what is sent, the next MSGID, and the counts of the ports it leaves by (R330, R332). -/

namespace Sys2Proof.Machine

open Sys2Proof.Claims

/-! ### What settings, card numbers and routes depend on -/

/-- The cards agree on what the settings in force and the routes between cards come from. -/
structure SameNet (s t : State) : Prop where
  strap : t.strap = s.strap
  dict : t.dict = s.dict
  plan : t.plan = s.plan
  ports : t.fab.ports = s.fab.ports
  declared : t.fab.declared = s.fab.declared

theorem valBytes_congr {s t : State} (hs : t.strap = s.strap) (hd : t.dict = s.dict) (idx sub : Nat) : valBytes t idx sub = valBytes s idx sub := by
  simp only [valBytes, dfltBytes, dfltNum, nodeId, hs, hd]

theorem num_congr {s t : State} (hs : t.strap = s.strap) (hd : t.dict = s.dict) (idx sub : Nat) : num t idx sub = num s idx sub :=
  congrArg leNat (valBytes_congr hs hd idx sub)

namespace SameNet

variable {s t : State} (h : SameNet s t)
include h

theorem valBytes (idx sub : Nat) : valBytes t idx sub = Machine.valBytes s idx sub := valBytes_congr h.strap h.dict idx sub

theorem num (idx sub : Nat) : num t idx sub = Machine.num s idx sub := num_congr h.strap h.dict idx sub

theorem cardId : cardId t = Machine.cardId s := by simp only [Machine.cardId, h.num]

theorem failedCards : failedCards t = Machine.failedCards s := by simp only [Machine.failedCards, h.valBytes]

theorem logicalOf (c : Nat) : logicalOf t c = Machine.logicalOf s c := by simp only [Machine.logicalOf, h.valBytes, h.plan]

theorem cardOf (l : Nat) : cardOf t l = Machine.cardOf s l := by simp only [Machine.cardOf, h.valBytes, h.plan]

theorem myLogical : myLogical t = Machine.myLogical s := by simp only [Machine.myLogical, h.logicalOf, h.cardId]

theorem liveCards : liveCards t = Machine.liveCards s := by
  simp only [Machine.liveCards, logicalCards, h.valBytes, h.num, h.plan, h.cardOf, h.failedCards]

theorem coordinator : coordinator t = Machine.coordinator s := by simp only [Machine.coordinator, h.liveCards, h.cardOf, h.declared]

theorem judgeOf (c : Nat) : judgeOf t c = Machine.judgeOf s c := by simp only [Machine.judgeOf, h.liveCards, h.cardOf, h.declared]

theorem amCoordinator : amCoordinator t = Machine.amCoordinator s := by simp only [Machine.amCoordinator, h.myLogical, h.coordinator]

theorem portCond (p : Nat) : portCond t p = Machine.portCond s p := by
  simp only [Machine.portCond, portFitted, getPort, h.strap, h.ports] <;> rfl

theorem portUp (p : Nat) : portUp t p = Machine.portUp s p := by simp only [Machine.portUp, h.portCond]

theorem fourPort : fourPort t = Machine.fourPort s := by simp only [Machine.fourPort, h.num]

theorem dirPorts (d : Nat) (plus : Bool) : dirPorts t d plus = Machine.dirPorts s d plus := by
  simp only [Machine.dirPorts, h.fourPort]

theorem bypassPort (d : Nat) (plus : Bool) : bypassPort t d plus = Machine.bypassPort s d plus := by
  simp only [Machine.bypassPort, h.fourPort]

theorem torus (d : Nat) : torus t d = Machine.torus s d := by simp only [Machine.torus, h.num]

theorem coordOf (c d : Nat) : coordOf t c d = Machine.coordOf s c d := by simp only [Machine.coordOf, h.num]

theorem cardAt (x y z : Nat) : cardAt t x y z = Machine.cardAt s x y z := by simp only [Machine.cardAt, h.num]

theorem neighbour (d : Nat) (plus : Bool) (k : Nat) : neighbour t d plus k = Machine.neighbour s d plus k := by
  simp only [Machine.neighbour, h.torus, h.cardAt]

theorem hopOf (c dst : Nat) : hopOf t c dst = Machine.hopOf s c dst := by
  simp only [Machine.hopOf, h.torus, h.coordOf, h.cardAt, h.failedCards]

theorem routeClear (dst avoid n : Nat) : ∀ c, routeClear t dst avoid n c = Machine.routeClear s dst avoid n c := by
  induction n with
  | zero => exact fun _ => rfl
  | succ n ih => intro c; simp only [Machine.routeClear, h.cardId, h.hopOf, ih]

theorem firstHop (dst : Nat) (avoid : Option Nat) : firstHop t dst avoid = Machine.firstHop s dst avoid := by
  simp only [Machine.firstHop, h.torus, h.coordOf, h.routeClear, h.neighbour]

theorem hopPorts (dst : Nat) (avoid : Option Nat) : hopPorts t dst avoid = Machine.hopPorts s dst avoid := by
  simp only [Machine.hopPorts, h.firstHop, h.failedCards, h.neighbour, h.bypassPort, h.dirPorts,
    funext h.portUp]

/-- What a message to a card puts out depends on these and on the message identifier alone. -/
theorem towardCard (hi : t.fab.msgid = s.fab.msgid) (l : Nat) (m : TpMsg) : towardCard t l m = Claims.towardCard s l m := by
  simp only [Claims.towardCard, h.cardOf, h.hopPorts, h.cardId, hi]

theorem withMsgid (i : Nat) : SameNet { s with fab := { s.fab with msgid := i } } { t with fab := { t.fab with msgid := i } } :=
  ⟨h.strap, h.dict, h.plan, h.ports, h.declared⟩

theorem towardEach (hi : t.fab.msgid = s.fab.msgid) (ls : List Nat) (m : TpMsg) : towardEach t ls m = Claims.towardEach s ls m := by
  unfold Claims.towardEach
  rw [hi]
  exact List.flatMap_congr fun li _ => (h.withMsgid _).towardCard rfl li.1 m

end SameNet

/-! ### Messages -/

variable (s : State)

/-- Counts of the running step alone change along a fold whose steps change them alone. -/
theorem foldl_run {α : Type} {f : State → α → State} (h : ∀ s a, ∃ r, f s a = { s with stat := { s.stat with run := r } })
    (xs : List α) : ∀ s, ∃ r, xs.foldl f s = { s with stat := { s.stat with run := r } } := by
  induction xs with
  | nil => exact fun s => ⟨s.stat.run, rfl⟩
  | cons a xs ih =>
    intro s
    obtain ⟨r, e⟩ := h s a
    obtain ⟨r', e'⟩ := ih (f s a)
    exact ⟨r', by rw [List.foldl_cons, e', e]⟩

/-- A flit on each of some ports is counted there. -/
theorem countPorts_frame (lane n : Nat) (ps : List Nat) :
    ∃ r, ps.foldl (fun s p => countPort lane n p s) s = { s with stat := { s.stat with run := r } } :=
  foldl_run (fun _ _ => ⟨_, rfl⟩) ps s

/-- A lane-0 message is put out, counted, and steps the message identifier. -/
theorem lane0_frame (ps : List Nat) (d : Option Nat) (m : TpMsg) : ∃ r, lane0 ps d m s =
    { s with out := s.out ++ [.towpath { ports := ps, dst := d, src := cardId s, msgid := s.fab.msgid } m],
             fab := { s.fab with msgid := (s.fab.msgid + 1) % 65536 }, stat := { s.stat with run := r } } := by
  obtain ⟨r, e⟩ := countPorts_frame s 0 (16 * min 14 (Config.msgUnits m.kind)) ps
  exact ⟨r, by unfold lane0; dsimp only; rw [e]; rfl⟩

/-- A flit to the neighbours. -/
theorem flood_frame (m : TpMsg) : ∃ r, flood m s =
    { s with out := s.out ++ [toNeighbours s m], fab := { s.fab with msgid := (s.fab.msgid + 1) % 65536 },
             stat := { s.stat with run := r } } :=
  lane0_frame s _ none m

/-- A message to a card ID other than a probe goes by the route. -/
theorem toCardId_told (c : Nat) {m : TpMsg} (h : ∀ a, m ≠ .probe a) : ToldId s (toCardId c m s) c none m := by
  obtain ⟨r, e⟩ : ∃ r, lane0 (hopPorts s c none) (some c) m s = _ := lane0_frame s (hopPorts s c none) (some c) m
  have e' : toCardId c m s = lane0 (hopPorts s c none) (some c) m s := by
    cases m
    case probe a => exact absurd rfl (h a)
    all_goals rfl
  rw [e', e]
  rfl

/-- A probe goes by a route that avoids the card it names. -/
theorem probe_told (c a : Nat) : ToldId s (toCardId c (.probe a) s) c (some a) (.probe a) := by
  obtain ⟨r, e⟩ : ∃ r, toCardId c (.probe a) s = _ := lane0_frame s (hopPorts s c (some a)) (some c) (.probe a)
  rw [e]
  rfl

/-- A message to a logical card goes to the card that carries it, if one does. -/
theorem toCard_told (l : Nat) {m : TpMsg} (h : ∀ a, m ≠ .probe a) : Told s (toCard l m s) l m := by
  cases hc : cardOf s l with
  | none => simp [Told, toCard_none s m hc, towardCard, hc]
  | some c =>
    rw [toCard_some s m hc]
    have told := toCardId_told s c h
    unfold ToldId at told
    rw [told]
    simp [Told, towardCard, hc]

/-- The next message but `k` of a card. -/
theorem towardEach_cons (l : Nat) (ls : List Nat) (m : TpMsg) : towardEach s (l :: ls) m =
    towardCard s l m ++ towardEach { s with fab := { s.fab with msgid := (s.fab.msgid + 1) % 65536 } } ls m := by
  unfold towardEach
  rw [List.zipIdx_cons, List.flatMap_cons, List.zipIdx_succ, List.flatMap_map]
  refine congrArg₂ (· ++ ·) rfl (List.flatMap_congr fun li _ => ?_)
  have hid : (s.fab.msgid + (li.2 + 1)) % 65536 =
      if li.2 = 0 then (s.fab.msgid + 1) % 65536 else ((s.fab.msgid + 1) % 65536 + li.2) % 65536 := by
    split <;> omega
  simp only [Nat.add_eq_zero_iff, Nat.one_ne_zero, and_false, if_false, hid]

/-- A message to a logical card that a card carries. -/
theorem toCard_frame {l : Nat} {m : TpMsg} (h : ∀ a, m ≠ .probe a) (hl : (cardOf s l).isSome) : ∃ r, toCard l m s =
    { s with out := s.out ++ towardCard s l m, fab := { s.fab with msgid := (s.fab.msgid + 1) % 65536 },
             stat := { s.stat with run := r } } := by
  obtain ⟨c, hc⟩ := Option.isSome_iff_exists.1 hl
  have hid : (toCard l m s).fab.msgid = (s.fab.msgid + 1) % 65536 := by
    rw [toCard_some s m hc]
    exact congrArg (·.msgid) (lane0_fab s _ _ _)
  exact ⟨_, by rw [← hid]; exact toCard_told s l h⟩

/-- A message to each of a list of logical cards, all of which a card carries. -/
theorem toCards_frame {m : TpMsg} (h : ∀ a, m ≠ .probe a) (ls : List Nat) : ∀ s : State, (∀ l ∈ ls, (cardOf s l).isSome) →
    ∃ i r, toCards ls m s = { s with out := s.out ++ towardEach s ls m, fab := { s.fab with msgid := i }, stat := { s.stat with run := r } } := by
  induction ls with
  | nil => exact fun s _ => ⟨s.fab.msgid, s.stat.run, by simp [toCards, towardEach]⟩
  | cons l ls ih =>
    intro s hl
    obtain ⟨r, e⟩ := toCard_frame s h (hl l (List.mem_cons_self ..))
    let s' : State := { s with fab := { s.fab with msgid := (s.fab.msgid + 1) % 65536 } }
    have net : SameNet s (toCard l m s) := by rw [e]; exact ⟨rfl, rfl, rfl, rfl, rfl⟩
    have hid : (toCard l m s).fab.msgid = (s.fab.msgid + 1) % 65536 := by rw [e]
    have each : towardEach (toCard l m s) ls m = towardEach s' ls m :=
      SameNet.towardEach (s := s') ⟨net.strap, net.dict, net.plan, net.ports, net.declared⟩ hid ls m
    obtain ⟨i, r', e'⟩ := ih (toCard l m s) fun x hx => by rw [net.cardOf]; exact hl x (List.mem_cons_of_mem _ hx)
    refine ⟨i, r', ?_⟩
    rw [show toCards (l :: ls) m s = toCards ls m (toCard l m s) from rfl, e', each, towardEach_cons, ← List.append_assoc, e]

/-- Every logical card of a working card is carried by one. -/
theorem cardOf_live {s : State} {l : Nat} (h : l ∈ liveCards s) : (cardOf s l).isSome := by
  have hl := (List.mem_filter.1 h).2
  split at hl
  · next hc => rw [hc]; rfl
  · cases hl

/-- A message to every working card. -/
theorem toCards_told {m : TpMsg} (h : ∀ a, m ≠ .probe a) : ToldAll s (toCards (liveCards s) m s) m := by
  obtain ⟨i, r, e⟩ := toCards_frame h (liveCards s) s fun _ => cardOf_live
  rw [e]
  rfl

/-- A report of an abort cause is a message to the coordinator while a step is open, updating or ready, and else nothing. -/
theorem reportAbort_sent (cause layer : Nat) (h : s.led.st = .opened ∨ s.led.st = .updating ∨ s.led.st = .ready) :
    Told s (reportAbort cause layer s) (coordinator s) (.abortRep s.led.running (attempt s) cause ((myLogical s).getD 0xFFFF) layer false) := by
  let m : TpMsg := .abortRep s.led.running (attempt s) cause ((myLogical s).getD 0xFFFF) layer false
  have e : reportAbort cause layer s = toCard (coordinator s) m s := by
    unfold reportAbort
    rcases h with h | h | h <;> rw [h]
  rw [e]
  exact toCard_told s _ fun _ => TpMsg.noConfusion

theorem reportAbort_silent (cause layer : Nat) (h1 : s.led.st ≠ .opened) (h2 : s.led.st ≠ .updating) (h3 : s.led.st ≠ .ready) :
    reportAbort cause layer s = s := by
  unfold reportAbort
  split
  · next h => exact absurd h h1
  · next h => exact absurd h h2
  · next h => exact absurd h h3
  · rfl

/-- What the report of an abort cause can change. -/
theorem reportAbort_frame (cause layer : Nat) : ∃ o i r, reportAbort cause layer s =
    { s with out := s.out ++ o, fab := { s.fab with msgid := i }, stat := { s.stat with run := r } } := by
  by_cases h : s.led.st = .opened ∨ s.led.st = .updating ∨ s.led.st = .ready
  · exact ⟨_, _, _, reportAbort_sent s cause layer h⟩
  · rw [not_or, not_or] at h
    rw [reportAbort_silent s cause layer h.1 h.2.1 h.2.2]
    exact ⟨[], s.fab.msgid, s.stat.run, by rw [List.append_nil]⟩

end Sys2Proof.Machine
end

section
/-! PROOF. The watchdogs and a fault stop their unit (O19). -/

namespace Sys2Proof.Machine

open Sys2Proof.Claims

variable {s : State}

/-- What a unit fault does before it is reported: the unit stops, a fault of a sequencer or outside a job is recorded, and the
retirement is owed once. -/
def stopFaulty (p cause : Nat) (s : State) : State :=
  { s with
    units := { s.units with
      phys := Sparse.set {} s.units.phys p { getUnit s p with stopped := true, hold := none }
      owed := if s.units.owed.any (fun x => decide (x.1 = p)) then s.units.owed else s.units.owed ++ [(p, 4)] }
    stat := if cause = 0 && jobRuns s then s.stat
      else { s.stat with faultStep := stepNow s, faultUnit := p, faultAddr := (getUnit s p).bundle, faultCause := cause } }

@[simp] theorem jobRuns_modUnit (p : Nat) (f : UnitSt → UnitSt) : jobRuns (modUnit p f s) = jobRuns s := rfl

@[simp] theorem stepNow_modUnit (p : Nat) (f : UnitSt → UnitSt) : stepNow (modUnit p f s) = stepNow s := rfl

theorem unitFaultAt_eq (p cause : Nat) (s : State) : unitFaultAt p cause s = reportAbort 5 0xFFFF (stopFaulty p cause s) := by
  unfold unitFaultAt stopFaulty
  simp only [jobRuns_modUnit, stepNow_modUnit]
  congr 1
  by_cases hc : (decide (cause = 0) && jobRuns s) = true
  · by_cases ho : (s.units.owed.any fun x => decide (x.1 = p)) = true <;> simp only [hc, ho, if_true, if_false, Bool.false_eq_true, modUnit_units] <;> rfl
  · by_cases ho : (s.units.owed.any fun x => decide (x.1 = p)) = true <;> simp only [hc, ho, if_true, if_false, Bool.false_eq_true, modUnit_units] <;> rfl

theorem sameNet_stopFaulty (p cause : Nat) (s : State) : SameNet s (stopFaulty p cause s) := ⟨rfl, rfl, rfl, rfl, rfl⟩

/-- The report of a fault says of the card and its step what the card was before. -/
theorem faultReport_eq (p cause : Nat) (s : State) :
    towardCard (stopFaulty p cause s) (coordinator (stopFaulty p cause s))
      (.abortRep (stopFaulty p cause s).led.running (attempt (stopFaulty p cause s)) 5
        ((myLogical (stopFaulty p cause s)).getD 0xFFFF) 0xFFFF false) =
    towardCard s (coordinator s) (.abortRep s.led.running (attempt s) 5 ((myLogical s).getD 0xFFFF) 0xFFFF false) := by
  have net := sameNet_stopFaulty p cause s
  rw [net.coordinator, net.myLogical, net.towardCard rfl]
  rfl

/-- A command whose effect is a unit fault does what `Faulted` says. -/
theorem faulted_of_exec {c : Instr} {p cause : Nat} (h : exec c s = .next (unitFaultAt p cause s)) : Faulted c s p cause := by
  refine ⟨_, h, ?_⟩
  rw [unitFaultAt_eq]
  obtain ⟨o, i, r, e⟩ := reportAbort_frame (stopFaulty p cause s) 5 0xFFFF
  refine ⟨?unit, fun q hq => ?units, fun hn => ?owed, fun ho => ?owes, ?frame, fun hc => ?record, fun hst => ?told, fun h1 h2 h3 => ?silent⟩
  case unit => rw [e]; exact Sparse.get_set_self ..
  case units => rw [e]; exact Sparse.get_set_ne _ _ _ hq
  case owed =>
    rw [e]
    refine if_neg fun ha => ?_
    obtain ⟨x, hx, hp⟩ := List.any_eq_true.1 ha
    exact hn x hx (of_decide_eq_true hp)
  case owes =>
    obtain ⟨x, hx, hp⟩ := ho
    rw [e]
    exact if_pos (List.any_eq_true.2 ⟨x, hx, decide_eq_true hp⟩)
  case frame => rw [e]; rfl
  case record => rw [e]; simp [stopFaulty, hc]
  case told =>
    have told : (reportAbort 5 0xFFFF (stopFaulty p cause s)).out = s.out ++ _ :=
      congrArg (·.out) (reportAbort_sent (stopFaulty p cause s) 5 0xFFFF hst)
    rw [told, faultReport_eq]
  case silent => rw [reportAbort_silent (stopFaulty p cause s) 5 0xFFFF h1 h2 h3]; rfl

/-! ### The three commands, by what they watch -/

theorem exec_watchdog {l : Fin 64} {p : Nat} (hp : physUnit s l.val = some p) : exec (.sequencerWatchdog l) s =
    .next (if decide (s.keep.dev ≠ .halted) && watched (getUnit s p) then unitFaultAt p 1 s else s) := by
  show execSequencerWatchdog l s = _
  simp only [execSequencerWatchdog, hp]

theorem exec_gateLimit {l : Fin 64} {p : Nat} (hp : physUnit s l.val = some p) : exec (.gateLimitExpiry l) s =
    .next (if s.keep.dev ≠ .halted ∧ num s 0x3888 2 ≠ 0 ∧ atGate (getUnit s p) = true then unitFaultAt p 3 s else s) := by
  show execGateLimitExpiry l s = _
  simp only [execGateLimitExpiry, hp]

theorem exec_watchdogs_unmapped {l : Fin 64} (hp : physUnit s l.val = none) :
    exec (.sequencerWatchdog l) s = .next s ∧ exec (.gateLimitExpiry l) s = .next s := by
  show execSequencerWatchdog l s = _ ∧ execGateLimitExpiry l s = _
  simp only [execSequencerWatchdog, execGateLimitExpiry, hp, and_self]

/-- The watchdog faults the unit that it watches, on a card that is not halted. -/
theorem watchdog_faults {l : Fin 64} {p : Nat} (hp : physUnit s l.val = some p) (hd : s.keep.dev ≠ .halted)
    (hw : watched (getUnit s p) = true) : Faulted (.sequencerWatchdog l) s p 1 :=
  faulted_of_exec (by rw [exec_watchdog hp, hw]; simp [hd])

/-- It leaves alone a unit that it does not watch. -/
theorem watchdog_passes {l : Fin 64} {p : Nat} (hp : physUnit s l.val = some p) (hw : watched (getUnit s p) = false) :
    exec (.sequencerWatchdog l) s = .next s := by
  rw [exec_watchdog hp, hw, Bool.and_false]
  rfl

/-- A halted card, or a logical unit that no unit carries, is not watched. -/
theorem watchdogs_idle {l : Fin 64} (h : s.keep.dev = .halted ∨ physUnit s l.val = none) :
    exec (.sequencerWatchdog l) s = .next s ∧ exec (.gateLimitExpiry l) s = .next s := by
  cases hp : physUnit s l.val with
  | none => exact exec_watchdogs_unmapped hp
  | some p =>
    have hd : s.keep.dev = .halted := h.resolve_right (by simp [hp])
    rw [exec_watchdog hp, exec_gateLimit hp]
    simp [hd]

/-- No gate limit, no expiry. -/
theorem gateLimit_off {l : Fin 64} (h : num s 0x3888 2 = 0) : exec (.gateLimitExpiry l) s = .next s := by
  cases hp : physUnit s l.val with
  | none => exact (exec_watchdogs_unmapped hp).2
  | some p =>
    rw [exec_gateLimit hp, if_neg]
    exact fun ⟨_, hn, _⟩ => hn h

/-- Settles O19: each of the three commands, where it acts, is a unit fault, and a unit fault does what `Faulted` says. -/
theorem unitFaults : Obligations.UnitFaults := by
  unfold Obligations.UnitFaults
  refine ⟨fun s l p hp hd hh => ?notReady, fun s l h => watchdogs_idle h, fun s l p hp hh => ?unwatched,
    fun s l h => gateLimit_off h, fun s l p hp hd hh => ⟨fun hb => ?batch, fun hb => ?empty⟩,
    fun s l p g hp hd hn hh => ?gate, fun s p kind hl => ?unit⟩
  case notReady =>
    refine watchdog_faults hp hd ?_
    rcases hh with hh | ⟨n, hh⟩ <;> simp [watched, hh]
  case unwatched =>
    refine watchdog_passes hp ?_
    rcases hh with hh | ⟨g, hh⟩ | ⟨g, hh⟩ <;> simp [watched, hh]
  case batch => exact watchdog_faults hp hd (by simp [watched, hh, hb])
  case empty => exact watchdog_passes hp (by simp [watched, hh, hb])
  case gate =>
    have hg : atGate (getUnit s p) = true := by rcases hh with hh | hh <;> simp [atGate, hh]
    exact faulted_of_exec (by rw [exec_gateLimit hp, if_pos ⟨hd, hn, hg⟩])
  case unit => exact faulted_of_exec (congrArg _ (if_pos hl))

end Sys2Proof.Machine
end

section
/-! SUPPORT. Views of a card that do not see what its side work leaves. A view is a function of the state; a rule says of one
operation which views it does not change. `SentBlind`: messages, their counts and the next MSGID. `EventBlind`: events, the log and
interrupts. -/

namespace Sys2Proof.Machine

open Sys2Proof.Claims

variable {β : Type} {g : State → β}

/-- A view that does not see what a message leaves. -/
structure SentBlind (g : State → β) : Prop where
  sent : ∀ s o i r, g { s with out := s.out ++ o, fab := { s.fab with msgid := i }, stat := { s.stat with run := r } } = g s

/-- A view that does not see what an event leaves: of the counts since boot, the drops alone. -/
structure EventBlind (g : State → β) : Prop where
  raised : ∀ s o ev pba lost rst l n e b, (∀ x, x ≠ ekey 0x2404 2 → Sparse.get 0 b x = Sparse.get 0 s.stat.boot x) →
    g { s with out := s.out ++ o, host := { s.host with events := ev, pba := pba, lost := lost, lostRst := rst },
               boot := { s.boot with log := l, logSeq := n }, stat := { s.stat with eseq := e, boot := b } } = g s

/-! ### Events -/

variable (s : State)

/-- An interrupt is sent or pends. -/
theorem raiseVec_pba (v : Nat) : ∃ o p, raiseVec v s = { s with out := s.out ++ o, host := { s.host with pba := p } } := raiseVec_frame s v

/-- What queueing an event leaves. -/
theorem postEvent_eq (e : Event) : ∃ o ev pba lost rst b,
    (∀ x, x ≠ ekey 0x2404 2 → Sparse.get 0 b x = Sparse.get 0 s.stat.boot x) ∧ postEvent e s =
      { s with out := s.out ++ o, host := { s.host with events := ev, pba := pba, lost := lost, lostRst := rst },
               stat := { s.stat with boot := b } } := by
  have counted : ∀ x, x ≠ ekey 0x2404 2 →
      Sparse.get 0 (Sparse.modify 0 s.stat.boot (ekey 0x2404 2) (· + 1)) x = Sparse.get 0 s.stat.boot x :=
    fun x hx => by rw [Sparse.get_modify, if_neg hx]
  unfold postEvent
  split
  · exact ⟨[], s.host.events, s.host.pba, s.host.lost, _, _, counted, by rw [List.append_nil]; rfl⟩
  · split
    · exact ⟨[], s.host.events, s.host.pba, _, s.host.lostRst, _, counted, by rw [List.append_nil]; rfl⟩
    · unfold enqueue
      split
      · obtain ⟨o, p, h⟩ := raiseVec_pba (pushEvent e s) 0
        exact ⟨o, _, p, s.host.lost, s.host.lostRst, s.stat.boot, fun _ _ => rfl, h⟩
      · exact ⟨[], _, s.host.pba, s.host.lost, s.host.lostRst, s.stat.boot, fun _ _ => rfl, by rw [List.append_nil]; rfl⟩

/-- What raising an event leaves. -/
theorem raise_eq (typ sev source detail : Nat) : ∃ o ev pba lost rst l n b,
    (∀ x, x ≠ ekey 0x2404 2 → Sparse.get 0 b x = Sparse.get 0 s.stat.boot x) ∧ raise typ sev source detail s =
      { s with out := s.out ++ o, host := { s.host with events := ev, pba := pba, lost := lost, lostRst := rst },
               boot := { s.boot with log := l, logSeq := n }, stat := { s.stat with eseq := s.stat.eseq + 1, boot := b } } := by
  unfold raise
  extract_lets e
  obtain ⟨l, n, hn⟩ := noteEvent_frame s e
  obtain ⟨o, ev, pba, lost, rst, b, hb, hp⟩ := postEvent_eq (noteEvent e s) e
  rw [hn] at hb
  exact ⟨o, ev, pba, lost, rst, l, n, b, hb, by rw [hp, hn]⟩

theorem EventBlind.raise (h : EventBlind g) (typ sev source detail : Nat) : g (raise typ sev source detail s) = g s := by
  obtain ⟨o, ev, pba, lost, rst, l, n, b, hb, e⟩ := raise_eq s typ sev source detail
  rw [e]
  exact h.raised s o ev pba lost rst l n _ b hb

theorem EventBlind.raiseOpen (h : EventBlind g) (typ source detail : Nat) : g (raiseOpen typ source detail s) = g s := h.raise s ..

theorem EventBlind.raiseVec (h : EventBlind g) (v : Nat) : g (raiseVec v s) = g s := by
  obtain ⟨o, p, e⟩ := raiseVec_pba s v
  rw [e]
  exact h.raised s o s.host.events p s.host.lost s.host.lostRst s.boot.log s.boot.logSeq s.stat.eseq s.stat.boot fun _ _ => rfl

/-- An event that the queue has room for stands at its end. -/
theorem raised_raise (typ sev source detail : Nat) : Raised typ source detail s (raise typ sev source detail s) :=
  ⟨raise_eseq s .., fun hd hl => ⟨_, raise_events s typ sev source detail hd hl, rfl, rfl, rfl, rfl⟩⟩

theorem raised_raiseOpen (typ source detail : Nat) : Raised typ source detail s (raiseOpen typ source detail s) := raised_raise s ..

/-! ### Messages -/

theorem SentBlind.lane0 (h : SentBlind g) (ps : List Nat) (d : Option Nat) (m : TpMsg) : g (lane0 ps d m s) = g s := by
  obtain ⟨r, e⟩ := lane0_frame s ps d m
  rw [e]
  exact h.sent s ..

theorem SentBlind.toCardId (h : SentBlind g) (c : Nat) (m : TpMsg) : g (toCardId c m s) = g s := h.lane0 s ..

theorem SentBlind.toCard (h : SentBlind g) (l : Nat) (m : TpMsg) : g (toCard l m s) = g s := by
  cases hc : cardOf s l with
  | none => rw [toCard_none s m hc]
  | some c => rw [toCard_some s m hc]; exact h.toCardId s c m

theorem SentBlind.toCards (h : SentBlind g) (ls : List Nat) (m : TpMsg) : g (toCards ls m s) = g s :=
  foldl_same _ g (fun s l => h.toCard s l m) ls s

/-- A message to the twin is put out and counted. -/
theorem toTwin_frame (m : TwMsg) : ∃ r, toTwin m s = { s with out := s.out ++ [.twin m], stat := { s.stat with run := r } } := by
  have all : ∀ {α : Type} (f : State → α → State), (∀ s a, ∃ r, f s a = { s with stat := { s.stat with run := r } }) →
      ∀ xs : List α, ∃ r, send (.twin m) (xs.foldl f s) = { s with out := s.out ++ [.twin m], stat := { s.stat with run := r } } := by
    intro α f hf xs
    obtain ⟨r, e⟩ := foldl_run hf xs s
    exact ⟨r, by rw [e]; rfl⟩
  unfold toTwin
  dsimp only
  repeat' split
  all_goals exact all _ (fun _ _ => ⟨_, rfl⟩) _

theorem toTwin_told (m : TwMsg) : TwinTold s (toTwin m s) m := by
  obtain ⟨r, e⟩ := toTwin_frame s m
  rw [e]
  rfl

theorem SentBlind.toTwin (h : SentBlind g) (m : TwMsg) : g (toTwin m s) = g s := by
  obtain ⟨r, e⟩ := toTwin_frame s m
  rw [e]
  exact h.sent s _ s.fab.msgid r

theorem SentBlind.reportAbort (h : SentBlind g) (cause layer : Nat) : g (reportAbort cause layer s) = g s := by
  obtain ⟨o, i, r, e⟩ := reportAbort_frame s cause layer
  rw [e]
  exact h.sent s ..

/-! ### Dictionary requests -/

/-- A response, where the route answers, is put out and counted. -/
theorem respond_frame (a : Access) (k : Nat) (o : Out) : ∃ os b, respond a k o s =
    { s with out := s.out ++ os, stat := { s.stat with boot := b } } := by
  unfold respond
  split
  · exact ⟨[o], _, rfl⟩
  · exact ⟨[], s.stat.boot, by rw [List.append_nil]⟩

/-- A route that serves requests carries responses. -/
theorem answers_of_serves {r : Route} (h : pathServes s r = true) : answers s r = true := by
  cases r <;> simp_all [pathServes, answers, pathNum]

theorem reply_served {a : Access} (h : pathServes s a.path = true) (body : Bytes) : (reply a body s).out = s.out ++ [.usdo a body] := by
  rw [reply_out, if_pos (answers_of_serves s h)]

theorem refuse_served {a : Access} (h : pathServes s a.path = true) (idx sub code : Nat) :
    (refuse a idx sub code s).out = s.out ++ [.usdoAbort a idx sub code] := by
  rw [refuse_out, if_pos (answers_of_serves s h)]

theorem onlyDict_refuse (a : Access) (idx sub code : Nat) : OnlyDict s (refuse a idx sub code s) := by
  obtain ⟨os, b, e⟩ : ∃ os b, refuse a idx sub code s = _ := respond_frame s a 4 _
  rw [e]
  rfl

/-- A command that answers with an abort code, on a route that serves, is refused. -/
theorem refused_of_exec {c : Instr} {a : Access} {idx sub code : Nat} (hs : pathServes s a.path = true)
    (h : exec c s = .next (refuse a idx sub code s)) : Refused c a idx sub code s :=
  ⟨_, h, refuse_served s hs .., refuse_dict s .., onlyDict_refuse s ..⟩

/-- A write that takes effect reaches what it does. -/
theorem actWrite_takes {a : Access} {idx sub : Nat} (h : Takes s a idx sub) (f : State → State) : actWrite a idx sub f s = f s := by
  obtain ⟨hp, hi, hm, hw⟩ := h
  unfold actWrite
  rw [serve_served s hp hi, if_neg (by simpa using hm), if_neg (by simpa using hw)]

end Sys2Proof.Machine
end

section
/-! SUPPORT. Boundaries at which nothing waits, and changes of the pair. -/

namespace Sys2Proof.Machine

open Sys2Proof.Claims

variable {β : Type} {g : State → β} {s : State}

/-! ### Parts and retirements that do not wait (R47, R368, R443) -/

/-- With no part awaiting none applies. -/
theorem applyParts_idle (h : s.dict.awaiting = []) (due : Part → Bool) : applyParts due s = s := by
  unfold applyParts
  rw [h]
  obtain ⟨_, _, _, ⟨_, _, _, _, _, _, _, _, _, _, _, _, _, _, _, _, _⟩, _, _, _, _, _, _, _, _, _, _, _, _, _⟩ := s
  dsimp only at h
  subst h
  rfl

/-- With no retirement owed none is made. -/
theorem retireOwed_idle (h : s.units.owed = []) : retireOwed s = s := by
  unfold retireOwed
  rw [h]
  obtain ⟨_, _, _, _, _, ⟨_, _, _, _, _⟩, _, _, _, _, _, _, _, _, _, _, _⟩ := s
  dsimp only at h
  subst h
  rfl

/-- A map without a change is not written. -/
theorem writeMap_idle (h : s.boot.pendMap = false) : writeMap s = s := if_neg (by simp [h])

/-- Where the card is not among the failed ones the map that applies changes what the coordinator has to replace, and no more. -/
theorem mapApplied_sound (hd : s.fab.declared = []) (hf : (failedCards s).contains (cardId s) = false) :
    ∃ fs, mapApplied s = { s with fab := { s.fab with recFs := fs } } := by
  have none : (s.fab.declared.filter fun c => !(failedCards s).contains c) = s.fab.declared := by rw [hd]; rfl
  unfold mapApplied
  dsimp only
  rw [none, if_neg]
  · exact ⟨_, rfl⟩
  · exact fun hc => Bool.noConfusion ((Bool.and_eq_true_iff.1 hc).1.symm.trans hf)

/-- The partner's parts change what is kept of its settings, and no more. -/
theorem partnerParts_frame (due : Part → Bool) (s : State) : ∃ pg ps pp, partnerParts due s =
    { s with twin := { s.twin with pgen := pg, psettings := ps, pparts := pp } } := by
  unfold partnerParts
  dsimp only
  split
  · exact ⟨s.twin.pgen, s.twin.psettings, s.twin.pparts, rfl⟩
  · exact ⟨_, _, _, rfl⟩

/-- Parts of the CAN route that a commit left have been applied: nothing of them awaits. -/
theorem applyCan_idle (h : NoNow s) : applyCan s = s := by
  have none : (s.dict.awaiting.filter fun a => decide (a.point = .now)) = [] :=
    List.filter_eq_nil_iff.2 fun p hp => by simpa using h p hp
  unfold applyCan
  rw [none]
  rfl

/-! ### The pair (R343, R347, R348) -/

/-- A view that does not see what the end of a pair leaves: the twin's state, and commits answered that waited for it. -/
structure PairBlind (g : State → β) : Prop extends EventBlind g where
  twin : ∀ s t, g { s with twin := t } = g s
  waits : ∀ s o w b, g { s with out := s.out ++ o, dict := { s.dict with packWait := w }, stat := { s.stat with boot := b } } = g s

/-- Commits that waited for PACK are answered, in the order in which they came. -/
theorem answerWaits_frame (h : NoNow s) : ∃ o b, answerWaits s =
    { s with out := s.out ++ o, dict := { s.dict with packWait := [] }, stat := { s.stat with boot := b } } := by
  have fold : ∀ (xs : List (BitVec 32 × Access)) (s : State), ∃ o b, xs.foldl (fun s x => reply x.2 [] s) s =
      { s with out := s.out ++ o, stat := { s.stat with boot := b } } := by
    intro xs
    induction xs with
    | nil => exact fun s => ⟨[], s.stat.boot, by rw [List.append_nil]; rfl⟩
    | cons x xs ih =>
      intro s
      obtain ⟨o, b, e⟩ : ∃ o b, reply x.2 [] s = _ := respond_frame s x.2 1 _
      obtain ⟨o', b', e'⟩ := ih (reply x.2 [] s)
      refine ⟨o ++ o', b', ?_⟩
      rw [List.foldl_cons, e', e, ← List.append_assoc]
  obtain ⟨o, b, e⟩ := fold s.dict.packWait { s with dict := { s.dict with packWait := [] } }
  refine ⟨o, b, ?_⟩
  unfold answerWaits
  rw [e]
  exact applyCan_idle h

theorem PairBlind.setPair (h : PairBlind g) (hn : NoNow s) (p : PairState) (cause : Nat) : g (setPair p cause s) = g s := by
  have waits : g (if p = .inStep then s else answerWaits s) = g s := by
    split
    · rfl
    · obtain ⟨o, b, e⟩ := answerWaits_frame hn
      rw [e]
      exact h.waits s ..
  unfold Machine.setPair
  dsimp only
  generalize (if p = .inStep then s else answerWaits s) = t at waits ⊢
  rw [← waits]
  split
  · exact h.twin t _
  · rw [h.raiseOpen]
    exact h.twin t _

theorem PairBlind.enterSolo (h : PairBlind g) (hn : NoNow s) (cause : Nat) : g (enterSolo cause s) = g s := by
  unfold Machine.enterSolo
  dsimp only
  rw [h.twin, h.setPair hn]

theorem noNow_of_idle (h : s.dict.awaiting = []) : NoNow s := fun _ hp => absurd (h ▸ hp) List.not_mem_nil

end Sys2Proof.Machine
end

section
/-! PROOF. The start and the stop of a job (O39). -/

namespace Sys2Proof.Machine

open Sys2Proof.Claims

variable {β : Type} {g : State → β} {s : State}

/-- The card as `startJob` leaves it at the boundary of its first step, before the pair, the tree edges and the start gate. -/
def jobOpened (n : Nat) (s : State) : State :=
  { s with
    keep := { s.keep with dev := .running, codes := s.keep.inForce }
    led := { s.led with
      st := .opened, running := n, waiting := true, reopen := false, early := [], startGate := hasGate s, startSent := false,
      run := { s.led.run with
        step := n, ring := 0, attempts := if s.led.run.step = n then s.led.run.attempts else 0, gen := s.dict.genForce,
        repair := s.boot.repGen, l := signed 8 (num s 0x4006 2), clocks := packClocks s.keep.inForce, refresh := s.mem.refresh,
        lr := stepRate (num s) (ownLt s).points n },
      touched := [], abJob := 0, readies := [], norms := [], decided := none, losts := [], commitsN := 0, slotHeld := false }
    fab := { s.fab with routeUp := (List.range 20).filter (portUp s) }
    stat := { s.stat with job := [], tJob := [], run := [], tRun := [] }
    twin := { s.twin with suspects := false } }

/-- A card that starts alone goes SOLO at once where the settings say so (R348). -/
def startSolo (s : State) : State :=
  if (s.twin.pair = .waiting ∨ s.twin.pair = .seeding) ∧ num s 0x2A00 3 = 1 then enterSolo 3 s else s

/-- The tree edges of the card are confirmed, and it arrives at the start gate (R218, R321). -/
def startTold (s : State) : State :=
  let s := (treeEdges s).foldl (fun s e => toCard (otherEnd s e) (.edge e.1 e.2.1 e.2.2 true) s) s
  arriveStart (s.fab.edges.foldl (fun s e => answerEdge e s) s)

/-- The start of a job on a card whose boundary has been passed: the step, the pair, and what is told. -/
theorem startJob_eq {t : State} (h : partnerParts (stepPartsDue (s.led.committed + 1))
    (mapApplied (applyParts (stepPartsDue (s.led.committed + 1)) s)) = t) (hm : t.keep.mirror = false) (ho : retireOwed t = t)
    (hp : writeMap t = t) : startJob s = startTold (startSolo (jobOpened (s.led.committed + 1) t)) := by
  unfold startJob
  dsimp only
  rw [h, hm, if_neg Bool.false_ne_true, ho, hp]
  unfold startTold startSolo jobOpened
  rfl

/-- Where nothing waits for a boundary a job starts with the boundary of its first step. -/
theorem startJob_quiet (h : Quiet s) : ∃ fs pg ps pp, startJob s = startTold (startSolo (jobOpened (s.led.committed + 1)
    { s with fab := { s.fab with recFs := fs }, twin := { s.twin with pgen := pg, psettings := ps, pparts := pp } })) := by
  obtain ⟨⟨ha, hd, hm, hf⟩, ho, hp⟩ := h
  obtain ⟨fs, e⟩ := mapApplied_sound hd hf
  obtain ⟨pg, ps, pp, e'⟩ := partnerParts_frame (stepPartsDue (s.led.committed + 1)) { s with fab := { s.fab with recFs := fs } }
  exact ⟨fs, pg, ps, pp, startJob_eq (by rw [applyParts_idle ha, e, e']) hm (retireOwed_idle ho) (writeMap_idle hp)⟩

/-- What follows the opening of a job tells other cards, and notes the arrival at the start gate. -/
theorem startTold_view (hg : SentBlind g) (hs : ∀ s b, g { s with led := { s.led with startSent := b } } = g s) : g (startTold s) = g s := by
  have arrive : ∀ s, g (arriveStart s) = g s := by
    intro s
    unfold arriveStart
    split
    · exact (hg.toCard ..).trans (hs s true)
    · rfl
  have answer : ∀ s e, g (answerEdge e s) = g s := by
    intro s e
    unfold answerEdge
    split
    · rfl
    · exact (hg.toCard ..).trans (hg.toCard ..)
  unfold startTold
  dsimp only
  rw [arrive, foldl_same _ g fun s e => answer s e, foldl_same _ g fun s e => hg.toCard s _ _]

theorem startSolo_view (hg : PairBlind g) (hn : NoNow s) : g (startSolo s) = g s := by
  unfold startSolo
  split
  · exact hg.enterSolo hn 3
  · rfl

/-- What the start of a job is said to leave: the device state, memory, the plan, the units, and the ledger but for the arrival at
the start gate. -/
def startView (s : State) : Dev × MemSt × PlanCtl × UnitsSt × LedgerSt :=
  (s.keep.dev, s.mem, s.plan, s.units, { s.led with startSent := false })

theorem startView_startJob (h : Quiet s) : startView (startJob s) = startView (jobOpened (s.led.committed + 1) s) := by
  obtain ⟨fs, pg, ps, pp, e⟩ := startJob_quiet h
  have sent : SentBlind startView := ⟨fun _ _ _ _ => rfl⟩
  have pair : PairBlind startView := { raised := fun _ _ _ _ _ _ _ _ _ _ _ => rfl, twin := fun _ _ => rfl, waits := fun _ _ _ _ => rfl }
  rw [e, startTold_view sent fun _ _ => rfl, startSolo_view pair]
  · have rate : ∀ t : State, t.strap = s.strap → t.dict = s.dict → num t = num s := fun t hs hd => funext₂ (num_congr hs hd)
    simp only [startView, jobOpened, hasGate, ownLt, rate { s with fab := { s.fab with recFs := fs }, twin := { s.twin with pgen := pg, psettings := ps, pparts := pp } } rfl rfl]
  · exact noNow_of_idle h.1.1

/-- A job that may start answers with the job started. -/
theorem exec_startJob {a : Access} (h : Takes s a 0x2001 1) : exec (.startJob a 1) s =
    .next (if mayStart s then reply a [] (startJob s) else refuse a 0x2001 1 abState s) := by
  show execStartJob a 1 s = _
  simp only [execStartJob, jobWrite, actWrite_takes s h, if_true]

theorem exec_stopJob {a : Access} (h : Takes s a 0x2001 2) : exec (.stopJob a 1) s =
    .next (if mayStop s then reply a [] { s with led := { s.led with stopPend := true } } else refuse a 0x2001 2 abState s) := by
  show execStopJob a 1 s = _
  simp only [execStopJob, jobWrite, actWrite_takes s h, if_true]

theorem mayStart_iff : mayStart s = true ↔ s.keep.dev = .planLoaded ∧ s.led.st = .nojob ∧ s.plan.active ≠ none ∧
    s.plan.checking = none ∧ anyShort s = false := by
  simp [mayStart, Option.isSome_iff_ne_none, and_assoc]

theorem mayStop_iff : mayStop s = true ↔ (s.keep.dev = .running ∨ s.keep.dev = .halted) ∧ jobRuns s = true := by
  simp [mayStop]

/-- A value of 0x2001 other than 1 is refused before any check of state. -/
theorem jobWrite_refused {a : Access} {v : BitVec 8} (hv : v ≠ 1) (hp : pathServes s a.path = true) (sub : Nat) (f : State → State) :
    jobWrite a sub v f s = refuse a 0x2001 sub abRange s := by
  unfold jobWrite
  rw [if_neg hv, if_pos hp]

/-- Settles O39: what the start leaves is what the boundary of the first step is opened with, for nothing waits there. -/
theorem jobStartAndStop : Obligations.JobStartAndStop := by
  unfold Obligations.JobStartAndStop
  refine ⟨fun s a h => ⟨fun h1 h2 h3 h4 h5 hq => ?starts, fun hn => ?refused⟩,
    fun s a h => ⟨fun h1 h2 => ?stops, fun hn => ?stopRefused⟩, fun s a v hv hp => ⟨?startValue, ?stopValue⟩⟩
  case starts =>
    have may : mayStart s = true := mayStart_iff.2 ⟨h1, h2, h3, h4, h5⟩
    refine ⟨reply a [] (startJob s), by rw [exec_startJob h, if_pos may], ?_⟩
    have view := startView_startJob hq
    simp only [startView, jobOpened, Prod.mk.injEq, LedgerSt.mk.injEq] at view
    simp only [reply_keep, reply_led, reply_mem, reply_plan, reply_units, view, hasGate, and_self]
  case refused => exact refused_of_exec s h.1 (by rw [exec_startJob h, if_neg fun hm => hn (mayStart_iff.1 hm)]; rfl)
  case stops =>
    refine ⟨_, by rw [exec_stopJob h, if_pos (mayStop_iff.2 ⟨h1, h2⟩)], by rw [reply_led], ?_, ?_⟩
    · exact reply_served { s with led := { s.led with stopPend := true } } h.1 []
    · obtain ⟨os, b, e⟩ : ∃ os b, reply a [] { s with led := { s.led with stopPend := true } } = _ := respond_frame _ a 1 _
      rw [e]
  case stopRefused => exact refused_of_exec s h.1 (by rw [exec_stopJob h, if_neg fun hm => hn (mayStop_iff.1 hm)]; rfl)
  case startValue => exact refused_of_exec s hp (congrArg _ (jobWrite_refused hv hp 1 _))
  case stopValue => exact refused_of_exec s hp (congrArg _ (jobWrite_refused hv hp 2 _))

end Sys2Proof.Machine
end

section
/-! SUPPORT. Reads of device memory with nothing found by the ECC: what a failure records and what is counted (R246, R248). -/

namespace Sys2Proof.Machine

open Sys2Proof.Claims

variable {β : Type} {g : State → β}

/-- A view that does not see what a clean read leaves: the record of a damaged barge, the counts of memory, an event. -/
structure ReadBlind (g : State → β) : Prop extends EventBlind g where
  damage : ∀ s step barge tier addr cause run, g { s with mem := { s.mem with
    dmgStep := step, dmgBarge := barge, dmgTier := tier, dmgAddr := addr, dmgCause := cause, dmgRun := run } } = g s
  counted : ∀ s r, g { s with stat := { s.stat with run := r } } = g s
  damaged : ∀ s n, g (countBoot 0x3018 1 n s) = g s

variable (h : ReadBlind g) (s : State)
include h

namespace ReadBlind

theorem countRun (idx sub n : Nat) : g (countRun idx sub n s) = g s := h.counted s _

theorem recordDamage (addr : Nat) (resv : Bool) (cause : Nat) (pond : Bool) : g (recordDamage addr resv cause pond s) = g s := by
  unfold Machine.recordDamage
  dsimp only
  rw [h.raiseOpen, h.damaged, h.damage]

theorem failRequest (a cause : Nat) : g (failRequest a cause s) = g s := (h.recordDamage ..).trans (h.countRun ..)

theorem failPond (cause : Nat) : g (failPond cause s) = g s := (h.recordDamage ..).trans (h.countRun ..)

theorem readDev (addr n : Nat) : g (readDev addr n .clean s).state = g s := by
  unfold Machine.readDev
  split
  · exact h.countRun ..
  · split
    · exact h.failRequest ..
    · dsimp only [applyEcc]
      split
      · exact h.failRequest ..
      · show g (if _ then _ else _) = _
        split
        · rfl
        · exact h.countRun ..

/-- `readDev` as a function of which only this rule is known, to stand in its place where a recursion matches on the call. -/
theorem readDev_sealed : ∃ f, Machine.readDev = f ∧ ∀ s addr n, g (f addr n .clean s).state = g s := ⟨_, rfl, h.readDev⟩

theorem readRanges (rs : List (Nat × Nat)) : g (readRanges rs .clean s).1 = g s := by
  generalize hf : Machine.readRanges = f
  delta Machine.readRanges Machine.readRanges._f at hf
  obtain ⟨rd, e, read⟩ := h.readDev_sealed
  rw [e] at hf
  subst hf
  induction rs generalizing s with
  | nil => rfl
  | cons r rs ih =>
    have first := read s r.1 r.2
    dsimp only
    generalize rd r.1 r.2 .clean s = m at first
    cases m with
    | ok t bs =>
      have rest := ih t
      dsimp only at rest ⊢
      split <;> next e => exact (congrArg (fun q => g q.1) e).symm.trans (rest.trans first)
    | notBacked t => exact first
    | failed t => exact first

theorem fetchRanges (rs : List (Nat × Nat)) : g (fetchRanges rs s).1 = g s := by
  have read := h.readRanges s rs
  unfold Machine.fetchRanges
  generalize Machine.readRanges rs .clean s = q at read
  obtain ⟨u, bs⟩ := q
  cases bs <;> exact read

end ReadBlind

end Sys2Proof.Machine
end

section
/-! PROOF. The ledger becomes READY in step only once the twin has received all (O42). -/

namespace Sys2Proof.Machine

open Sys2Proof.Claims

variable {s : State}

/-- What readiness says of the layers and of the units (R25, R285). -/
theorem allUpdated_of_isReady (h : isReady s = true) : allUpdated s = true := by
  simp only [isReady, Bool.and_eq_true] at h
  exact h.1.2

theorem ended_of_isReady (h : isReady s = true) {l p : Nat} (hl : l < 64) (hp : physUnit s l = some p) : (getUnit s p).ended = true := by
  simp only [isReady, Bool.and_eq_true, List.all_eq_true] at h
  have unit := h.1.1.1.2 l (List.mem_range.2 hl)
  rwa [hp] at unit

theorem acked_of_allAcked (h : allAcked s = true) : ∀ k ∈ layerNumbers (ownLt s), (layerRun s k).gok = true := List.all_eq_true.1 h

/-! ### CARD_READY (R25, R350, R351) -/

/-- The ledger READY, and the coordinator told. -/
def readyTold (s : State) : State :=
  toCard (coordinator s) (.ready s.led.running (attempt s)) { s with led := { s.led with st := .ready } }

/-- The measurements of the running step sent to the twin. -/
def stepmTold (s : State) (bs : Bytes) : State :=
  toTwin (.stepm s.led.running (measBlock (heldOf bs) s)) { s with twin := { s.twin with stepmSent := true, sacked := 0 } }

theorem stepmTold_led (s : State) (bs : Bytes) : (stepmTold s bs).led = s.led := toTwin_led ..

theorem cardReady_unready (h : isReady s = false) : exec .cardReady s = .next s := by
  show execCardReady s = _
  simp only [execCardReady, h, Bool.not_false, if_true]

theorem cardReady_apart (h : isReady s = true) (hp : s.twin.pair ≠ .inStep) : exec .cardReady s = .next (readyTold s) := by
  show execCardReady s = _
  simp only [execCardReady, h, hp, Bool.not_true, Bool.false_eq_true, if_false]
  rfl

section
variable (h : isReady s = true) (hp : s.twin.pair = .inStep)
include h hp

theorem cardReady_unacked (ha : allAcked s = false) : exec .cardReady s = .next s := by
  show execCardReady s = _
  simp only [execCardReady, h, hp, ha, Bool.not_true, Bool.not_false, Bool.false_eq_true, if_false, if_true]

theorem cardReady_sacked (ha : allAcked s = true) (hs : s.twin.sacked = s.led.running) (hm : s.twin.stepmSent = true) :
    exec .cardReady s = .next (readyTold s) := by
  show execCardReady s = _
  simp only [execCardReady, h, hp, ha, hs, hm, and_self, Bool.not_true, Bool.false_eq_true, if_false, if_true]
  rfl

/-- STEPM is out, and SACK has not come: the card waits. -/
theorem cardReady_waits (ha : allAcked s = true) (hs : s.twin.sacked ≠ s.led.running) (hm : s.twin.stepmSent = true) :
    exec .cardReady s = .next s := by
  show execCardReady s = _
  simp only [execCardReady, h, hp, ha, hs, hm, false_and, Bool.not_true, Bool.false_eq_true, if_false, if_true]

theorem cardReady_unread (ha : allAcked s = true) (hm : s.twin.stepmSent = false) {t : State}
    (hr : readRanges (heldRanges s) .clean s = (t, none)) : exec .cardReady s = .next t := by
  show execCardReady s = _
  simp only [execCardReady, h, hp, ha, hm, hr, and_false, Bool.not_true, Bool.false_eq_true, if_false, if_true]

theorem cardReady_stepm (ha : allAcked s = true) (hm : s.twin.stepmSent = false) {t : State} {bs : Bytes}
    (hr : readRanges (heldRanges s) .clean s = (t, some bs)) :
    exec .cardReady s = .next (stepmTold t bs) := by
  show execCardReady s = _
  simp only [execCardReady, h, hp, ha, hm, hr, and_false, Bool.not_true, Bool.false_eq_true, if_false, if_true]
  rfl

end

/-- A clean read leaves the ledger. -/
theorem readRanges_led {rs : List (Nat × Nat)} {t : State} {bs : Option Bytes} (h : readRanges rs .clean s = (t, bs)) : t.led = s.led := by
  have blind : ReadBlind State.led :=
    { raised := fun _ _ _ _ _ _ _ _ _ _ _ => rfl, damage := fun _ _ _ _ _ _ _ => rfl, counted := fun _ _ => rfl, damaged := fun _ _ => rfl }
  have read := blind.readRanges s rs
  rwa [h] at read

/-- Settles O42: of the branches of CARD_READY in step, all but the one with SACK of the running step keep the ledger. -/
theorem twinReceiptBeforeReady : Obligations.TwinReceiptBeforeReady := by
  unfold Obligations.TwinReceiptBeforeReady
  intro s t ht hpair hst hready
  have keeps : ∀ {u}, exec .cardReady s = .next u → u.led = s.led → False := by
    intro u hu hled
    rw [hu] at ht
    injection ht with e
    exact hst (hled ▸ e ▸ hready)
  have ready : isReady s = true := by
    by_contra h
    exact keeps (cardReady_unready (Bool.not_eq_true _ ▸ h)) rfl
  have acked : allAcked s = true := by
    by_contra h
    exact keeps (cardReady_unacked ready hpair (Bool.not_eq_true _ ▸ h)) rfl
  have sent : s.twin.stepmSent = true := by
    by_contra h
    cases hr : readRanges (heldRanges s) .clean s with
    | mk u bs => cases bs with
      | none => exact keeps (cardReady_unread ready hpair acked (Bool.not_eq_true _ ▸ h) hr) (readRanges_led hr)
      | some bs => exact keeps (cardReady_stepm ready hpair acked (Bool.not_eq_true _ ▸ h) hr) ((stepmTold_led ..).trans (readRanges_led hr))
  have sacked : s.twin.sacked = s.led.running := by
    by_contra h
    exact keeps (cardReady_waits ready hpair acked h sent) rfl
  exact ⟨sacked, allUpdated_of_isReady ready, acked_of_allAcked acked, fun _ hl _ hp => ended_of_isReady ready hl hp⟩

end Sys2Proof.Machine
end

section
/-! SUPPORT. Lane-0 messages that a card hears (R330, R332). -/

namespace Sys2Proof.Machine

open Sys2Proof.Claims

variable {s : State} {h : TpHdr} {k : Nat}

theorem isNew_iff : isNew h k s = true ↔ Fresh s h k := by
  simp only [isNew, Fresh, Bool.and_eq_true, decide_eq_true_eq, Bool.not_eq_true', List.contains_eq_mem, decide_eq_false_iff_not]

/-- A message that comes for the first time is noted, and acts on the card that has noted it. -/
theorem hear_fresh (hf : Fresh s h k) (f : State → State) : hear h k f s = f (heard s h) := hear_new (isNew_iff.2 hf)

/-- A second copy, or one of another kind, does nothing. -/
theorem hear_stale (hf : ¬ Fresh s h k) (f : State → State) : hear h k f s = s :=
  hear_old (Bool.eq_false_iff.2 fun hn => hf (isNew_iff.1 hn))

/-- The routes of a card do not depend on what it has heard, on its ledger or its counts. -/
theorem sameNet_heard (s : State) (h : TpHdr) : SameNet s (heard s h) := ⟨rfl, rfl, rfl, rfl, rfl⟩

theorem signed_toNat (l : BitVec 8) : signed 8 l.toNat = l.toInt := by
  unfold signed
  dsimp only
  rw [BitVec.toInt_eq_toNat_cond]
  split <;> split <;> omega

end Sys2Proof.Machine
end

section
/-! PROOF. The coordinator's decisions: commit, abort, apply (O44). -/

namespace Sys2Proof.Machine

open Sys2Proof.Claims

variable {s : State} {h : TpHdr} {card step att : Nat}

/-! ### What the coordinator does with a report (R26, R27, R282) -/

/-- A list of cards of whom something has come, with one more. -/
def noteReady (x : Nat × Nat × Nat) (s : State) : State :=
  { s with led := { s.led with readies := if s.led.readies.contains x then s.led.readies else s.led.readies ++ [x] } }

/-- Without a norm that is held no apply goes to the cards that hold. -/
theorem holdApply_none (hn : s.led.norms = []) (step att : Nat) : holdApply step att s = s := by
  unfold holdApply
  rw [if_neg]
  simp [hn]

/-- The coordinator decides the attempt that it runs. -/
theorem deciding_now (hj : jobRuns s = true) : deciding s s.led.running (attempt s) = true := by simp [deciding, hj]

theorem noteReady_eq (x : Nat × Nat × Nat) : (if s.led.readies.contains x = true then s
    else { s with led := { s.led with readies := s.led.readies ++ [x] } }) = noteReady x s := by
  unfold noteReady
  split <;> rfl

/-- Commit goes out with the last ready. -/
def sendCommit (step att : Nat) (s : State) : State :=
  toCards (liveCards s) (.commit step att) { s with led := { s.led with decided := some (step, att), decCommit := true } }

theorem sendCommit_told (step att : Nat) (s : State) :
    ToldAll { s with led := { s.led with decided := some (step, att), decCommit := true } } (sendCommit step att s) (.commit step att) := by
  unfold sendCommit
  rw [← SameNet.liveCards (s := s) (t := { s with led := { s.led with decided := some (step, att), decCommit := true } }) ⟨rfl, rfl, rfl, rfl, rfl⟩]
  exact toCards_told _ fun _ => TpMsg.noConfusion

theorem sendAbort_told (step att cause card layer action : Nat) (s : State) :
    ToldAll { s with led := { s.led with decided := some (step, att), decCommit := false } } (sendAbort step att cause card layer action s)
      (.abort step att cause card layer action) := by
  unfold sendAbort
  rw [← SameNet.liveCards (s := s) (t := { s with led := { s.led with decided := some (step, att), decCommit := false } }) ⟨rfl, rfl, rfl, rfl, rfl⟩]
  exact toCards_told _ fun _ => TpMsg.noConfusion

/-- A norm of one more card. -/
def noteNorm (x : Nat × Nat × Int × Bool) (s : State) : State :=
  { s with led := { s.led with norms := s.led.norms ++ [x] } }

/-- Every working card has sent its norm. -/
def allNormed (s : State) : Prop := ∀ c ∈ liveCards s, ∃ x ∈ s.led.norms, x.1 = c

theorem allNormed_iff (s : State) :
    (liveCards s).all (fun l => s.led.norms.any fun x => decide (x.1 = l)) = true ↔ allNormed s := by
  simp [allNormed, List.all_eq_true, List.any_eq_true]

/-- The clip factor of the global norm of the norms held (R282). -/
def clipFactor (s : State) : W32 :=
  if on32 (ownLt s).clipg = true ∧ lt32 (ownLt s).clipg (globalNorm s.led.norms) = true then
    (opDiv (ownLt s).clipg (globalNorm s.led.norms)).1
  else one32

/-- Apply goes to all, with the clip factor; the largest global norm is kept. -/
def sendApply (step att : Nat) (s : State) : State :=
  let v := maxRun 0x4010 7 (globalNorm s.led.norms).toNat s
  toCards (liveCards v) (.apply step att (clipFactor s)) { v with led := { v.led with norms := [] } }

/-- Apply goes to every working card, and the norms are dropped. -/
theorem sendApply_sent (step att : Nat) (s : State) :
    (sendApply step att s).out = s.out ++ towardEach s (liveCards s) (.apply step att (clipFactor s)) ∧
    (sendApply step att s).led = { s.led with norms := [] } ∧ (sendApply step att s).mem = s.mem := by
  let v := maxRun 0x4010 7 (globalNorm s.led.norms).toNat s
  let u : State := { v with led := { v.led with norms := [] } }
  have net : SameNet s u := ⟨rfl, rfl, rfl, rfl, rfl⟩
  have told : ToldAll u (toCards (liveCards u) (.apply step att (clipFactor s)) u) (.apply step att (clipFactor s)) :=
    toCards_told u fun _ => TpMsg.noConfusion
  have live : liveCards v = liveCards u := (SameNet.liveCards (s := v) (t := u) ⟨rfl, rfl, rfl, rfl, rfl⟩).symm
  unfold ToldAll at told
  have sent : sendApply step att s = toCards (liveCards u) (.apply step att (clipFactor s)) u := by
    rw [← live]
    rfl
  rw [sent, told, net.towardEach rfl, net.liveCards]
  exact ⟨rfl, rfl, rfl⟩

/-- Another card than the coordinator does nothing with what is sent to it. -/
theorem takeReady_other (ha : amCoordinator s = false) : takeReady card step att s = s := by simp [takeReady, ha]

theorem takeReport_other (ha : amCoordinator s = false) (cause layer : Nat) (lost : Bool) :
    takeReport step att cause card layer lost s = s := by simp [takeReport, ha]

theorem takeNorm_other (ha : amCoordinator s = false) (sumA : Nat) (l : Int) (hold : Bool) :
    takeNorm card step att sumA l hold s = s := by simp [takeNorm, ha]

section
variable (ha : amCoordinator s = true) (hj : jobRuns s = true)
include ha hj

/-- A ready for the attempt in hand. -/
theorem takeReady_now (hn : s.led.norms = []) : takeReady card s.led.running (attempt s) s =
    (let u := noteReady (card, s.led.running, attempt s) s
     if u.led.decided ≠ some (s.led.running, attempt s) ∧
        (liveCards u).all (fun l => u.led.readies.contains (l, s.led.running, attempt s)) = true then sendCommit s.led.running (attempt s) u else u) := by
  unfold takeReady
  rw [ha, deciding_now hj, if_neg (by simp)]
  dsimp only
  rw [noteReady_eq, holdApply_none]
  · rfl
  · exact hn

/-- A report for the attempt in hand, not of a card that is LOST. -/
theorem takeReport_now (cause layer : Nat) : takeReport s.led.running (attempt s) cause card layer false s =
    if s.led.decided ≠ some (s.led.running, attempt s) then
      sendAbort s.led.running (attempt s) cause card layer (abortAction s cause (attempt s)) s
    else s := by
  simp [takeReport, ha, hj]

/-- A report for the attempt after the decided one is kept. -/
theorem takeReport_early (cause layer : Nat) (lost : Bool) (hd : s.led.decided = some (s.led.running, attempt s))
    (hn : (step = s.led.running ∧ att = attempt s + 1) ∨ (step = s.led.running + 1 ∧ att = 1)) :
    takeReport step att cause card layer lost s =
      { s with led := { s.led with early := s.led.early ++ [(step, att, cause, card, layer, lost)] } } := by
  have decides : deciding s step att = true := by simp [deciding, hj, hd, hn]
  have other : (decide (step = s.led.running) && decide (att = attempt s)) = false := by
    rcases hn with ⟨_, hn⟩ | ⟨hn, _⟩ <;> simp [hn]
  unfold takeReport
  rw [ha, hj, decides, other]
  rfl

/-- The first norm of a card for the attempt in hand, in deferred mode. -/
theorem takeNorm_now (hm : (ownLt s).mode = true) {sumA : Nat} {l : Int} {hold : Bool} {u : State}
    (hu : noteNorm (card, sumA, l, hold) s = u) (hd : u.led.decided ≠ some (s.led.running, attempt s)) (hx : ∀ x ∈ s.led.norms, x.1 ≠ card) :
    (allNormed u → takeNorm card s.led.running (attempt s) sumA l hold s = sendApply s.led.running (attempt s) u) ∧
    (¬ allNormed u → takeNorm card s.led.running (attempt s) sumA l hold s = u) := by
  have first : s.led.norms.any (fun x => decide (x.1 = card)) = false :=
    List.any_eq_false.2 fun x hx' => by simpa using hx x hx'
  have mode : (ownLt u).mode = true := by rw [← hu]; exact hm
  unfold noteNorm at hu
  unfold takeNorm
  rw [ha, hj, first, if_neg (by simp), if_neg Bool.false_ne_true, hu]
  dsimp only
  rw [mode, if_pos rfl]
  exact ⟨fun all => if_pos ⟨hd, (allNormed_iff u).2 all⟩, fun none => if_neg fun hc => none ((allNormed_iff u).1 hc.2)⟩

end

/-! ### The commands -/

theorem exec_readyMessage (s : State) (h : TpHdr) (card : BitVec 14) (n : BitVec 64) (att : Nat) :
    exec (.readyMessage h card n att) s = .next (hear h 4 (takeReady card.toNat n.toNat att) s) := rfl

theorem exec_abortReport (s : State) (h : TpHdr) (n : BitVec 64) (att : Nat) (cause : BitVec 8) (card layer : BitVec 16) (lost : Bool) :
    exec (.abortReport h n att cause card layer lost) s =
      .next (hear h 5 (takeReport n.toNat att cause.toNat card.toNat layer.toNat lost) s) := rfl

theorem exec_normMessage (s : State) (h : TpHdr) (card : BitVec 14) (n : BitVec 64) (att : Nat) (a : BitVec 640) (l : BitVec 8) (hold : Bool) :
    exec (.normMessage h card n att a l hold) s = .next (hear h 6 (takeNorm card.toNat n.toNat att a.toNat l.toInt hold) s) := by
  rw [← signed_toNat]
  rfl

theorem amCoordinator_heard (s : State) (h : TpHdr) : amCoordinator (heard s h) = amCoordinator s := (sameNet_heard s h).amCoordinator

/-- Settles O44: each message acts on the card that has heard it, which decides as the card before did. -/
theorem coordinatorDecides : Obligations.Coordinator := by
  unfold Obligations.Coordinator
  refine ⟨fun s h card n hf ha hj hn hd hnorm => ?ready, fun s h n cause card layer hf ha hj hn => ⟨fun hd => ?abort, fun hd => ?decided⟩,
    fun s h n att cause card layer lost hf ha hj hd hnext => ?early, fun s h card n a l hold hf ha hj hn hm hd hx => ?norm,
    fun s h card n att cause c2 layer lost a l hold => ⟨fun ha => ⟨fun hf => ?_, fun hf => ?_, fun hf => ?_⟩, fun hf => ?_, fun hf => ?_, fun hf => ?_⟩⟩
  case ready =>
    intro x rs all
    let u := noteReady x (heard s h)
    have taken := takeReady_now (card := card.toNat) (s := heard s h) ((amCoordinator_heard s h).trans ha) hj hnorm
    have live : liveCards u = liveCards s := SameNet.liveCards (s := s) (t := u) ⟨rfl, rfl, rfl, rfl, rfl⟩
    have every : (liveCards u).all (fun l => u.led.readies.contains (l, s.led.running, attempt s)) = true ↔ all := by
      rw [live, List.all_eq_true]
      exact forall₂_congr fun l _ => List.contains_iff_mem
    have e : exec (.readyMessage h card n (attempt s)) s = .next (takeReady card.toNat s.led.running (attempt s) (heard s h)) := by
      rw [exec_readyMessage, hn, hear_fresh hf]
    exact ⟨fun none => e.trans (congrArg _ (taken.trans (if_neg fun hc => none (every.1 hc.2)))),
      fun hall => ⟨_, e.trans (congrArg _ (taken.trans (if_pos ⟨hd, every.2 hall⟩))), sendCommit_told s.led.running (attempt s) u⟩⟩
  case abort =>
    have taken := takeReport_now (card := card.toNat) (s := heard s h) ((amCoordinator_heard s h).trans ha) hj cause.toNat layer.toNat
    have action : abortAction (heard s h) cause.toNat (attempt s) = abortAction s cause.toNat (attempt s) := by
      simp only [abortAction, (sameNet_heard s h).num]
      rfl
    have e : exec (.abortReport h n (attempt s) cause card layer false) s = .next (sendAbort s.led.running (attempt s) cause.toNat card.toNat
        layer.toNat (abortAction (heard s h) cause.toNat (attempt s)) (heard s h)) := by
      rw [exec_abortReport, hn, hear_fresh hf]
      exact congrArg _ (taken.trans (if_pos hd))
    exact ⟨_, e, action ▸ sendAbort_told s.led.running (attempt s) cause.toNat card.toNat layer.toNat _ (heard s h)⟩
  case decided =>
    have taken := takeReport_now (card := card.toNat) (s := heard s h) ((amCoordinator_heard s h).trans ha) hj cause.toNat layer.toNat
    rw [exec_abortReport, hn, hear_fresh hf]
    exact congrArg _ (taken.trans (if_neg fun hc => hc hd))
  case early =>
    rw [exec_abortReport, hear_fresh hf]
    exact congrArg _ (takeReport_early (s := heard s h) ((amCoordinator_heard s h).trans ha) hj _ _ lost hd hnext)
  case norm =>
    intro ns g cs
    let u := noteNorm (card.toNat, a.toNat, l.toInt, hold) (heard s h)
    have net : SameNet s u := ⟨rfl, rfl, rfl, rfl, rfl⟩
    obtain ⟨last, other⟩ := takeNorm_now (card := card.toNat) (s := heard s h) ((amCoordinator_heard s h).trans ha) hj hm (u := u) rfl hd hx
    have every : allNormed u ↔ ∀ c ∈ liveCards s, ∃ x ∈ ns, x.1 = c := by rw [allNormed, net.liveCards]; rfl
    have e : exec (.normMessage h card n (attempt s) a l hold) s =
        .next (takeNorm card.toNat s.led.running (attempt s) a.toNat l.toInt hold (heard s h)) := by
      rw [exec_normMessage, hn, hear_fresh hf]
    have factor : clipFactor u = cs := if_congr (by simp only [on32, decide_eq_true_eq]; rfl) rfl rfl
    obtain ⟨hout, hled, hmem⟩ := sendApply_sent s.led.running (attempt s) u
    rw [net.towardEach rfl, net.liveCards, factor] at hout
    exact ⟨fun all => ⟨_, e.trans (congrArg _ (last (every.2 all))), hout, hled, hmem⟩,
      fun none => e.trans (congrArg _ (other fun hc => none (every.1 hc)))⟩
  all_goals simp only [exec_readyMessage, exec_abortReport, exec_normMessage]
  · rw [hear_fresh hf, takeReady_other ((amCoordinator_heard s h).trans ha)]
  · rw [hear_fresh hf, takeReport_other ((amCoordinator_heard s h).trans ha)]
  · rw [hear_fresh hf, takeNorm_other ((amCoordinator_heard s h).trans ha)]
  all_goals rw [hear_stale hf]

end Sys2Proof.Machine
end

section
/-! SUPPORT. The declaration of a failed card (R331), and what of the card it can change. -/

namespace Sys2Proof.Machine

open Sys2Proof.Claims

variable {β : Type} {g : State → β} {s : State}

/-- A view that sees of the fabric only which cards are declared and probed, and nothing of the counts since boot. -/
structure RecBlind (g : State → β) : Prop extends EventBlind g where
  fab : ∀ s f, f.declared = s.fab.declared → f.probing = s.fab.probing → g { s with fab := f } = g s
  counted : ∀ s b, g { s with stat := { s.stat with boot := b } } = g s

theorem RecBlind.setRec (h : RecBlind g) (st : Nat) (s : State) : g (setRec st s) = g s := by
  unfold Machine.setRec
  dsimp only
  split
  · exact h.fab s _ rfl rfl
  · exact (h.raiseOpen ..).trans (h.fab s _ rfl rfl)

theorem RecBlind.recBegin (h : RecBlind g) (f : Nat) (s : State) : g (recBegin f s) = g s :=
  (h.counted ..).trans ((h.setRec ..).trans (h.fab s _ rfl rfl))

/-- The same, and nothing of the ledger and of what is told. -/
structure JudgeBlind (g : State → β) : Prop extends SentBlind g, RecBlind g where
  led : ∀ s l, g { s with led := l } = g s

namespace JudgeBlind

variable (h : JudgeBlind g) (s : State)
include h

theorem sendAbort (step att cause card layer action : Nat) : g (sendAbort step att cause card layer action s) = g s :=
  (h.toCards ..).trans (h.led s _)

theorem abortFailed (f : Nat) : g (abortFailed f s) = g s := by
  unfold Machine.abortFailed
  dsimp only
  split
  · rfl
  · split
    · exact h.sendAbort ..
    · split <;> exact h.sendAbort ..

theorem askCard (c what : Nat) (m : UsdoMsg) : g (askCard c what m s) = g s := by
  unfold Machine.askCard
  dsimp only
  rw [h.toCardId]
  split
  · rfl
  · exact h.fab s _ rfl rfl

theorem endTakeover : g (endTakeover s) = g s := by
  unfold Machine.endTakeover
  dsimp only
  split <;> rw [h.abortFailed, h.toCards, h.led]

end JudgeBlind

/-! ### The neighbours -/

theorem SameNet.portFitted {s t : State} (h : SameNet s t) (p : Nat) : portFitted t p = portFitted s p := by
  simp only [Machine.portFitted, h.strap]

theorem SameNet.fabricTrained {s t : State} (h : SameNet s t) : fabricTrained t = fabricTrained s := by
  simp only [Machine.fabricTrained, torusCards, fittedPorts, h.num, funext h.portFitted, funext h.portUp]
  rfl

theorem SameNet.toNeighbours {s t : State} (h : SameNet s t) (hi : t.fab.msgid = s.fab.msgid) (m : TpMsg) :
    toNeighbours t m = Claims.toNeighbours s m := by simp only [Claims.toNeighbours, h.cardId, funext h.portUp, hi]

/-! ### The card is declared -/

/-- The card with one more declared failed, and its requests ended. -/
def noteDeclared (card : Nat) (s : State) : State :=
  let s := failCard card s
  { s with fab := { s.fab with declared := s.fab.declared ++ [card], probing := s.fab.probing.filter (· ≠ card) } }

/-- A card that was not yet known to be gone is noted, and nothing else that such a view sees changes. -/
theorem JudgeBlind.declareFailed (h : JudgeBlind g) {card : Nat} (hd : card ∉ s.fab.declared) (hf : card ∉ failedCards s) :
    g (declareFailed card s) = g (noteDeclared card s) := by
  unfold Machine.declareFailed
  rw [if_neg (by simp [hd, hf])]
  dsimp only
  split
  · rfl
  · split
    · split
      · rw [h.endTakeover, h.recBegin]
        rfl
      · rw [foldl_same _ g fun s c => h.askCard s c 3 _, h.led, h.recBegin]
        rfl
    · rw [h.abortFailed, h.recBegin]
      rfl

theorem logicalOf_congr {s t : State} (hs : t.strap = s.strap) (hd : t.dict = s.dict) (hp : t.plan = s.plan) (c : Nat) :
    logicalOf t c = logicalOf s c := by simp only [logicalOf, valBytes_congr hs hd, hp]

/-- Where no request waits for a card none fails with it. -/
theorem failCard_idle {card : Nat} (h : ∀ r ∈ s.fab.remotes, r.done = true ∨ (r.dst ≠ card ∧ r.tree = none)) : failCard card s = s := by
  have none : (s.fab.remotes.filter fun r => goesTo s card r && !r.done) = [] := by
    refine List.filter_eq_nil_iff.2 fun r hr => ?_
    rcases h r hr with hdone | ⟨hdst, htree⟩
    · simp [hdone]
    · simp [goesTo, hdst, htree]
  unfold failCard failWhere
  rw [none]
  rfl

end Sys2Proof.Machine
end

section
/-! PROOF. Heartbeats, suspicion and probes (O50). -/

namespace Sys2Proof.Machine

open Sys2Proof.Claims

variable {s : State} {h : TpHdr}

/-! ### The commands -/

theorem exec_heartbeatMessage (s : State) (h : TpHdr) : exec (.heartbeatMessage h) s = .next (hear h 8 (fun s =>
    if s.fab.alive.contains h.port.val then s else { s with fab := { s.fab with alive := s.fab.alive ++ [h.port.val] } }) s) := rfl

theorem exec_suspect (s : State) (h : TpHdr) (c : BitVec 14) :
    exec (.suspect h c) s = .next (hear h 9 (takeSuspect h.src.toNat c.toNat) s) := rfl

theorem exec_probe (s : State) (h : TpHdr) : exec (.probe h) s =
    .next (hear h 9 (fun s => if s.keep.mirror then s else toCardId h.src.toNat .probeAnswer s) s) := rfl

theorem exec_probeAnswer (s : State) (h : TpHdr) : exec (.probeAnswer h) s =
    .next (hear h 9 (fun s => { s with fab := { s.fab with probing := s.fab.probing.filter (· ≠ h.src.toNat) } }) s) := rfl

theorem exec_probeTimeout (s : State) (c : BitVec 14) :
    exec (.probeTimeout c) s = .next (if s.fab.probing.contains c.toNat then declareFailed c.toNat s else s) := rfl

/-! ### The card that judges -/

/-- A suspect that the card judges and that is not known to be gone. -/
def Judged (s : State) (c : Nat) : Prop := some (judgeOf s c) = myLogical s ∧ c ∉ failedCards s ∧ c ∉ s.fab.declared

theorem takeSuspect_judged {c : Nat} (hj : Judged s c) (sender : Nat) : takeSuspect sender c s =
    if sender = c then declareFailed c s
    else if s.fab.probing.contains c then s
    else toCardId c (.probe sender) { s with fab := { s.fab with probing := s.fab.probing ++ [c] } } := by
  obtain ⟨hm, hf, hd⟩ := hj
  unfold takeSuspect
  rw [if_neg]
  simp [hm, hf, hd]

theorem judged_heard {c : Nat} (hj : Judged s c) : Judged (heard s h) c := by
  have net := sameNet_heard s h
  rw [Judged, net.judgeOf, net.myLogical, net.failedCards]
  exact hj

/-- A card that is declared failed is listed. -/
theorem declared_declareFailed {c : Nat} (hd : c ∉ s.fab.declared) (hf : c ∉ failedCards s) : c ∈ (declareFailed c s).fab.declared := by
  have blind : JudgeBlind fun s => s.fab.declared :=
    { sent := fun _ _ _ _ => rfl, raised := fun _ _ _ _ _ _ _ _ _ _ _ => rfl, fab := fun _ _ h _ => h, led := fun _ _ => rfl, counted := fun _ _ => rfl }
  rw [blind.declareFailed hd hf]
  exact List.mem_append_right _ (List.mem_singleton_self c)

/-- What else stays and what the list of probed cards becomes, where no request waits for the card. -/
theorem declareFailed_idle {c : Nat} (hd : c ∉ s.fab.declared) (hf : c ∉ failedCards s)
    (hr : ∀ r ∈ s.fab.remotes, r.done = true ∨ (r.dst ≠ c ∧ r.tree = none)) :
    c ∉ (declareFailed c s).fab.probing ∧ (declareFailed c s).mem = s.mem ∧ (declareFailed c s).units = s.units := by
  have blind : JudgeBlind fun s => (s.fab.probing, s.mem, s.units) :=
    { sent := fun _ _ _ _ => rfl, raised := fun _ _ _ _ _ _ _ _ _ _ _ => rfl, fab := fun _ _ _ h => congrArg (·, _) h,
      led := fun _ _ => rfl, counted := fun _ _ => rfl }
  have same := blind.declareFailed hd hf
  rw [noteDeclared, failCard_idle hr] at same
  obtain ⟨hp, hm, hu⟩ : _ ∧ _ ∧ _ := by simpa only [Prod.mk.injEq] using same
  refine ⟨?_, hm, hu⟩
  rw [hp]
  simp

/-- The coordinator of an undecided running step aborts it with the declaration of another card. -/
theorem declareFailed_aborts {c f : Nat} (hd : c ∉ s.fab.declared) (hf : c ∉ failedCards s)
    (hr : ∀ r ∈ s.fab.remotes, r.done = true ∨ (r.dst ≠ c ∧ r.tree = none)) (hl : logicalOf s c = some f) (hc : f ≠ coordinator s)
    (hj : jobRuns s = true) (hn : s.led.decided ≠ some (s.led.running, attempt s)) :
    (declareFailed c s).led = { s.led with decided := some (s.led.running, attempt s), decCommit := false } := by
  have blind : RecBlind State.led :=
    { raised := fun _ _ _ _ _ _ _ _ _ _ _ => rfl, fab := fun _ _ _ _ => rfl, counted := fun _ _ => rfl }
  have noted : noteDeclared c s = { s with fab := { s.fab with
      declared := s.fab.declared ++ [c], probing := s.fab.probing.filter (· ≠ c) } } := by rw [noteDeclared, failCard_idle hr]
  have logical : logicalOf (noteDeclared c s) c = some f :=
    (logicalOf_congr (by rw [noted]) (by rw [noted]) (by rw [noted]) c).trans hl
  have led : (recBegin f (noteDeclared c s)).led = s.led := by rw [blind.recBegin, noted]
  have e : declareFailed c s = abortFailed f (recBegin f (noteDeclared c s)) := by
    have unknown : ¬ (s.fab.declared.contains c || (failedCards s).contains c) = true := by simp [hd, hf]
    change (if _ then _ else match logicalOf (noteDeclared c s) c with
      | none => noteDeclared c s
      | some f => _) = _
    rw [if_neg unknown, logical]
    exact if_neg fun hcoord => hc hcoord.1
  generalize recBegin f (noteDeclared c s) = u at led e
  have e' : abortFailed f u = sendAbort u.led.running (attempt u) 6 f 0xFFFF (abortAction u 6 (attempt u)) u := by
    have runs : jobRuns u = true := (by simp only [jobRuns, led] : jobRuns u = jobRuns s).trans hj
    have undecided : u.led.decided ≠ some (u.led.running, attempt u) := by simpa only [attempt, led] using hn
    unfold abortFailed
    dsimp only
    rw [if_neg (by simp [runs]), if_pos undecided]
  rw [e, e', sendAbort_told]
  simp only [led, attempt]

/-! ### The statement -/

/-- Settles O50: each message acts on the card that has heard it; a probe is sent once. -/
theorem heartbeatsAndProbes : Obligations.HeartbeatsAndProbes := by
  unfold Obligations.HeartbeatsAndProbes
  refine ⟨fun s h hf => ?beat, fun s => ?timer, fun s c hf hd => ?suspicion, fun s h c hn hm hf hd => ?suspect, fun s h hf => ?probe,
    fun s h c => ⟨fun hf => ?_, fun hf => ⟨?_, ?_, ?_⟩⟩, fun s c => ⟨fun hp => ?unprobed, fun hp hf hd hr => ?timeout⟩⟩
  case beat =>
    refine ⟨_, by rw [exec_heartbeatMessage, hear_fresh hf], ?_⟩
    dsimp only
    split
    · next known => exact ⟨List.contains_iff_mem.1 known, fun _ _ => Iff.rfl, rfl⟩
    · exact ⟨List.mem_append_right _ (List.mem_singleton_self _), fun q hq => by simp [heard, hq], rfl⟩
  case timer =>
    let u : State := { s with fab := { s.fab with seen := [], seenOld := s.fab.seen } }
    have net : SameNet s u := ⟨rfl, rfl, rfl, rfl, rfl⟩
    refine ⟨if fabricTrained u then flood .heartbeat u else u, rfl, ?_⟩
    rw [net.fabricTrained]
    split
    · obtain ⟨r, e⟩ := flood_frame u .heartbeat
      rw [e, net.toNeighbours rfl]
    · rfl
  case suspicion =>
    let u : State := { s with fab := { s.fab with alive := s.fab.alive.filter fun p => !(portsTo s c.toNat).contains p } }
    have net : SameNet s u := ⟨rfl, rfl, rfl, rfl, rfl⟩
    have known : (silent s c.toNat && !(failedCards s).contains c.toNat && !s.fab.declared.contains c.toNat) = silent s c.toNat := by
      simp [hf, hd]
    have e : exec (.suspicionTimeout c) s = .next (if silent s c.toNat && !(failedCards s).contains c.toNat && !s.fab.declared.contains c.toNat then
        suspectCard c.toNat u else u) := rfl
    rw [known] at e
    refine ⟨_, e, ?_⟩
    have dropped : ∀ p ∈ portsTo s c.toNat, p ∉ u.fab.alive := fun p hp hu => by
      simpa [hp] using (List.mem_filter.1 hu).2
    split
    · next hs =>
      have told := toCard_told u (judgeOf s c.toNat) (m := .suspect c.toNat) fun _ => TpMsg.noConfusion
      rw [show suspectCard c.toNat u = toCard (judgeOf s c.toNat) (.suspect c.toNat) u by rw [suspectCard, net.judgeOf]]
      unfold Told at told
      rw [told, net.towardCard rfl]
      exact ⟨fun _ => rfl, fun h => absurd (hs.symm.trans h) Bool.noConfusion, dropped, rfl⟩
    · next hs => exact ⟨fun h => absurd h hs, fun _ => rfl, dropped, rfl⟩
  case suspect =>
    have taken := takeSuspect_judged (judged_heard (h := h) ⟨hm, hf, hd⟩) h.src.toNat
    have e : exec (.suspect h c) s = .next _ := (exec_suspect s h c).trans (congrArg _ ((hear_fresh hn _).trans taken))
    have apart : h.src ≠ c → h.src.toNat ≠ c.toNat := fun hne he => hne (BitVec.eq_of_toNat_eq he)
    refine ⟨fun hne hp => ⟨_, e, ?_⟩, fun hne hp => ?_, fun he => ⟨_, e, ?_⟩⟩
    · rw [if_neg (apart hne), if_neg (by simpa [heard] using hp)]
      exact probe_told _ c.toNat h.src.toNat
    · exact e.trans (congrArg _ ((if_neg (apart hne)).trans (if_pos (List.contains_iff_mem.2 hp))))
    · rw [if_pos (congrArg _ he)]
      exact declared_declareFailed hd (by rwa [(sameNet_heard s h).failedCards])
  case probe =>
    refine ⟨fun hm => ?_, fun hm => ?_, by rw [exec_probeAnswer, hear_fresh hf]; rfl⟩
    · have e : exec (.probe h) s = .next (toCardId h.src.toNat .probeAnswer (heard s h)) := by
        rw [exec_probe, hear_fresh hf]
        exact congrArg _ (if_neg (by rw [show (heard s h).keep = s.keep from rfl, hm]; exact Bool.false_ne_true))
      exact ⟨_, e, toCardId_told _ _ fun _ => TpMsg.noConfusion⟩
    · rw [exec_probe, hear_fresh hf]
      exact congrArg _ (if_pos hm)
  case unprobed =>
    rw [exec_probeTimeout, if_neg (by simpa using hp)]
  case timeout =>
    refine ⟨_, by rw [exec_probeTimeout, if_pos (List.contains_iff_mem.2 hp)], declared_declareFailed hd hf, ?_⟩
    obtain ⟨hprob, hmem, hunits⟩ := declareFailed_idle hd hf hr
    refine ⟨hprob, hmem, hunits, fun f hl hc hj hn => ?_⟩
    rw [declareFailed_aborts hd hf hr hl hc hj hn]
    exact ⟨rfl, rfl⟩
  · rw [exec_heartbeatMessage, hear_stale hf]
  · rw [exec_suspect, hear_stale hf]
  · rw [exec_probe, hear_stale hf]
  · rw [exec_probeAnswer, hear_stale hf]

end Sys2Proof.Machine
end

section
/-! PROOF. The conditions of ports (O45): refuted where the card ID does not fit the 14 bits of a flit's SRC. -/

namespace Sys2Proof.Machine

open Sys2Proof.Claims

/-- A card of a torus of 2 × 255 × 34 cards, at (0, 0, 33): its card ID is 16,830. Port 4, towards the card (0, 0, 0), has a cable. -/
def farCard : State :=
  { State.reset with
    keep := { State.reset.keep with dev := .idle }
    dict := { State.reset.dict with vals := [(ekey 0x2800 1, some [2]), (ekey 0x2800 2, some [255]), (ekey 0x2800 3, some [34]),
      (ekey 0x2800 6, some [33])] }
    fab := { State.reset.fab with ports := [(4, { cond := 1, cable := true })] } }

/-- Its peer there: port 5 of card 0. -/
def nearPeer : PeerInfo := { card := 0, x := 0, y := 0, z := 0, port := 5, g4 := false }

theorem farCard_trains : trains farCard = true ∧ portUsed farCard 4 = true ∧ (getPort farCard 4).cable = true ∧ portUp farCard 4 = false ∧
    peerOk farCard 4 nearPeer = true := by decide +kernel

theorem farCard_width : Width farCard 4 15 4 := by
  have lanes : ∀ k < 4, (15 : BitVec 4).getLsbD k = true := by decide
  exact .inl ⟨rfl, fun k hk => ⟨lanes k hk, fun r hr => absurd hr List.not_mem_nil⟩⟩

theorem farCard_cardId : cardId farCard = 16830 := by decide +kernel

/-- A field of a number has its width. -/
theorem bits_lt (x hi lo : Nat) : bits x hi lo < 2 ^ (hi + 1 - lo) := Nat.mod_lt _ (Nat.two_pow_pos _)

/-- Refutes O45: the statement has the link-control flit carry the card ID in the 14 bits of SRC whatever the sizes of the torus, and
2 × 255 × 34 cards have card IDs that need 15 bits. -/
theorem not_fabricPorts : ¬ Obligations.FabricPorts := by
  unfold Obligations.FabricPorts
  rintro ⟨training, -⟩
  obtain ⟨htrains, hused, hcable, hdown, hpeer⟩ := farCard_trains
  obtain ⟨t, -, -, -, -, hb, -, -, src⟩ := (training farCard 4 15 nearPeer 4 htrains hused hcable farCard_width hdown).1 (by decide) hpeer
  have small := bits_lt hb 77 64
  rw [src, farCard_cardId] at small
  omega

end Sys2Proof.Machine
end

section
/-! SUPPORT. What the bytes of device memory, and whether they can be read, depend on. -/

namespace Sys2Proof.Machine

open Sys2Proof.Claims

/-- The cards agree on the bytes of device memory, where they lie, and what of them cannot be read. -/
structure SameMem (s t : State) : Prop where
  strap : t.strap = s.strap
  recovery : t.boot.recovery = s.boot.recovery
  barges : t.mem.barges = s.mem.barges
  cells : t.mem.cells = s.mem.cells
  group : t.mem.group = s.mem.group
  badBlk : t.mem.badBlk = s.mem.badBlk

/-- The bytes of a section that has been found. -/
def foundBytes (f : Sec → Bytes) : Option Sec → Bytes
  | some x => f x
  | none => []

/-- `secBytes` over any table of sections: the kernel is kept from reducing the table of an image. -/
def tableBytes (sections : State → Nat → List Sec) (s : State) (area kind unit : Nat) : Bytes :=
  foundBytes (Sec.bytes s area) ((sections s area).find? fun x => decide (x.kind = kind) && decide (x.unit = unit))

theorem secBytes_def {sections : State → Nat → List Sec} (h : sections = imgSections) : secBytes = tableBytes sections := by
  delta secBytes
  rw [← h]
  rfl

namespace SameMem

variable {s t : State} (h : SameMem s t)
include h

theorem upGroups : upGroups t = Machine.upGroups s := by simp only [Machine.upGroups, h.recovery, h.group]

theorem planEntry (b : Nat) : planEntry t b = Machine.planEntry s b := by
  simp only [Machine.planEntry, planFrame, topFrame, h.strap, h.upGroups]

theorem barge (b : Nat) : barge t b = Machine.barge s b := by simp only [Machine.barge, h.strap, h.barges, h.planEntry]

theorem place (a : Nat) : place t a = Machine.place s a := by simp only [Machine.place, h.barge]

theorem devBytes (a n : Nat) : devBytes t a n = Machine.devBytes s a n := by
  simp only [Machine.devBytes, devByte, h.barge, h.place, h.cells]

theorem rangeBacked (a n : Nat) : rangeBacked t a n = Machine.rangeBacked s a n := by
  simp only [Machine.rangeBacked, backed, h.strap, h.barge]

theorem rangeGroupBad (a n : Nat) : rangeGroupBad t a n = Machine.rangeGroupBad s a n := by
  simp only [Machine.rangeGroupBad, groupDown, h.place, h.group]

theorem blockBad : blockBad t = Machine.blockBad s := by
  funext a
  simp only [Machine.blockBad, h.barge, h.place, h.badBlk]

theorem imgBytes (area off n : Nat) : imgBytes t area off n = Machine.imgBytes s area off n := by
  simp only [Machine.imgBytes, h.strap, h.devBytes]

theorem imgSections (area : Nat) : imgSections t area = Machine.imgSections s area := by
  simp only [Machine.imgSections, imgHeader, h.imgBytes]

theorem secGood (area : Nat) (x : Sec) : x.good t area = x.good s area := by
  simp only [Sec.good, imgDamage, Sec.bytes, h.strap, h.rangeGroupBad, h.blockBad, h.imgBytes]
  rfl

theorem bytes (area : Nat) (x : Sec) : x.bytes t area = x.bytes s area := by simp only [Sec.bytes, h.imgBytes]

theorem secBytes (area kind unit : Nat) : secBytes t area kind unit = Machine.secBytes s area kind unit := by
  obtain ⟨sections, hs⟩ : ∃ f, f = Machine.imgSections := ⟨_, rfl⟩
  have same : sections t area = sections s area := by rw [hs, h.imgSections]
  rw [secBytes_def hs, tableBytes, tableBytes, same, funext (h.bytes area)]

theorem unitImg (area l : Nat) : unitImg t area l = Machine.unitImg s area l := by
  have bytes : ∀ k, Machine.secBytes t area k l = Machine.secBytes s area k l := fun k => h.secBytes ..
  unfold Machine.unitImg
  dsimp only
  rw [bytes 1, bytes 2, bytes 3, bytes 4, bytes 5, bytes 6]
  simp only [bytes]

end SameMem

end Sys2Proof.Machine
end

section
/-! SUPPORT. Samples of the keeper's sensors, the log, and what switches the domains off (R415, R419, R424). -/

namespace Sys2Proof.Machine

open Sys2Proof.Claims

variable {s : State}

/-! ### Lists of samples -/

/-- One value of a list that has been replaced is read back, and every other one as before. -/
theorem getD_putAt (xs : List Nat) (n v m : Nat) : (putAt xs n v).getD m 0 = if m = n then v else xs.getD m 0 := by
  unfold putAt
  rw [List.getD_eq_getElem?_getD, List.getElem?_set]
  split
  · next h =>
    rw [← h, if_pos (by rw [List.length_append, List.length_replicate]; omega)]
    simp
  · next h =>
    rw [if_neg (Ne.symm h), List.getD_eq_getElem?_getD]
    by_cases hm : m < xs.length
    · rw [List.getElem?_append_left hm]
    · rw [List.getElem?_append_right (Nat.le_of_not_lt hm), List.getElem?_eq_none (Nat.le_of_not_lt hm), List.getElem?_replicate]
      split <;> rfl

/-- The latest samples after those of some sensors. -/
def sampled {m : Nat} (vs : List (BitVec 8)) (ns : List (Fin m)) (xs : List Nat) : List Nat :=
  ns.foldl (fun xs n => match vs[n.val]? with
    | some v => putAt xs n.val v.toNat
    | none => xs) xs

/-- A sensor that has been sampled reads its sample. -/
theorem getD_sampled {m : Nat} {vs : List (BitVec 8)} {k : Nat} {v : BitVec 8} (hv : vs[k]? = some v) (ns : List (Fin m)) :
    ∀ xs, (∃ n ∈ ns, n.val = k) ∨ xs.getD k 0 = v.toNat → (sampled vs ns xs).getD k 0 = v.toNat := by
  induction ns with
  | nil =>
    rintro xs (⟨n, hn, -⟩ | h)
    · exact absurd hn List.not_mem_nil
    · exact h
  | cons n ns ih =>
    intro xs h
    refine ih _ (or_iff_not_imp_left.2 fun hns => ?_)
    dsimp only
    by_cases hk : n.val = k
    · rw [hk, hv]
      dsimp only
      rw [getD_putAt, if_pos rfl]
    · have now : xs.getD k 0 = v.toNat := h.resolve_left fun ⟨x, hx, e⟩ =>
        (List.mem_cons.1 hx).elim (fun hxn => hk (hxn ▸ e)) fun hx => hns ⟨x, hx, e⟩
      split
      · rw [getD_putAt, if_neg (Ne.symm hk)]
        exact now
      · exact now

/-- One sensor of a bank is sampled, where the keeper's samples hold one of it. -/
def sampleOf {m : Nat} (vs : List (BitVec 8)) (take : Fin m → Nat → State → State) (s : State) (n : Fin m) : State :=
  match vs[n.val]? with
  | some v => take n v.toNat s
  | none => s

theorem sampleOf_some {m : Nat} {vs : List (BitVec 8)} {n : Fin m} {v : BitVec 8} (h : vs[n.val]? = some v)
    (take : Fin m → Nat → State → State) (s : State) : sampleOf vs take s n = take n v.toNat s := by rw [sampleOf, h]

theorem sampleOf_none {m : Nat} {vs : List (BitVec 8)} {n : Fin m} (h : vs[n.val]? = none) (take : Fin m → Nat → State → State)
    (s : State) : sampleOf vs take s n = s := by rw [sampleOf, h]

/-- The samples of a bank of sensors that cross no limit change its latest samples and its highest ones, and no more. -/
theorem foldl_bank {m : Nat} {vs : List (BitVec 8)} {take : Fin m → Nat → State → State} {put : List Nat → Sparse Nat → State → State}
    {now : State → List Nat} (nil : ∀ s, ∃ M, s = put (now s) M s) (now_put : ∀ L M s, now (put L M s) = L)
    (put_put : ∀ L M L' M' s, put L M (put L' M' s) = put L M s)
    (calm : ∀ n s, ∀ v ∈ vs, ∃ M, take n v.toNat s = put (putAt (now s) n.val v.toNat) M s) (ns : List (Fin m)) :
    ∀ s, ∃ M, ns.foldl (sampleOf vs take) s = put (sampled vs ns (now s)) M s := by
  induction ns with
  | nil => exact nil
  | cons n ns ih =>
    intro s
    rw [List.foldl_cons, sampled, List.foldl_cons]
    cases hv : vs[n.val]? with
    | none =>
      rw [sampleOf_none hv]
      exact ih s
    | some v =>
      obtain ⟨M, e⟩ := calm n s v (List.mem_of_getElem? hv)
      obtain ⟨M', e'⟩ := ih (take n v.toNat s)
      rw [sampleOf_some hv]
      refine ⟨M', e'.trans ?_⟩
      rw [e, put_put, now_put]
      rfl

/-! ### Readings within every limit -/

/-- The latest samples of the logic sensors and of the stacks. -/
def putLogic (L : List Nat) (M : Sparse Nat) (s : State) : State := { s with keep := { s.keep with logicNow := L, logicMax := M } }
def putStack (L : List Nat) (M : Sparse Nat) (s : State) : State := { s with keep := { s.keep with stackNow := L, stackMax := M } }

/-- A spare that is not asked is not passed over. -/
theorem recruitLate_idle (h : s.fab.recAsk = []) : recruitLate s = s := by
  unfold recruitLate
  rw [h]
  rfl

theorem takeSample_logic (n : Fin 16) {v : Nat} (hv : v < 110) (s : State) :
    ∃ M, takeSample (.logic n) v s = putLogic (putAt s.keep.logicNow n.val v) M s := by
  refine ⟨if sampling s then Sparse.modify 0 s.keep.logicMax n.val (max (v + 1)) else s.keep.logicMax, ?_⟩
  unfold takeSample
  dsimp only
  rw [if_neg (by omega), if_neg (by omega)]
  rfl

theorem takeSample_stack (n : Fin 8) {v : Nat} (hv : v ≤ 85) (s : State) :
    ∃ M, takeSample (.stack n) v s = putStack (putAt s.keep.stackNow n.val v) M s := by
  refine ⟨if sampling s then Sparse.modify 0 s.keep.stackMax n.val (max (v + 1)) else s.keep.stackMax, ?_⟩
  unfold takeSample forceRefresh
  dsimp only
  rw [if_neg (by omega), if_pos (.inl hv)]
  rfl

theorem takeSample_iodie {v : Nat} (hv : v < 120) (s : State) : takeSample .iodie v s = { s with keep := { s.keep with iodie := v } } := by
  unfold takeSample
  dsimp only
  rw [if_neg (by omega)]

theorem coolant_within {v : Nat} (h1 : 15 ≤ v) (h2 : v ≤ 45) (s : State) : coolant v s = { s with keep := { s.keep with inlet := v } } := by
  unfold coolant
  dsimp only
  rw [if_pos (.inl ⟨h1, h2⟩)]

/-- Every reading is within its limits (R415, R419). -/
structure Calm (r : Readings) : Prop where
  logic : ∀ v ∈ r.logic, v.toNat < 110
  stack : ∀ v ∈ r.stackT, v.toNat ≤ 85
  iodie : r.iodie.toNat < 120
  cold : 15 ≤ r.inlet.toNat
  warm : r.inlet.toNat ≤ 45

theorem sampleAll_eq (r : Readings) (s : State) : sampleAll r s =
    (let s := (List.finRange 16).foldl (sampleOf r.logic fun n => takeSample (.logic n)) s
     let s := (List.finRange 8).foldl (sampleOf r.stackT fun n => takeSample (.stack n)) s
     let s := takeSample .iodie r.iodie.toNat s
     coolant r.inlet.toNat { s with keep := { s.keep with
       outlet := r.outlet.toNat, regs := r.regulator.toNat, volts := r.volts.toNat, mr4 := r.mr4.map (·.toNat) } }) := rfl

/-- A sample of calm readings leaves the latest samples, and no more. -/
theorem sampleAll_calm {r : Readings} (h : Calm r) (s : State) : ∃ M M', sampleAll r s = { s with keep := { s.keep with
    logicNow := sampled r.logic (List.finRange 16) s.keep.logicNow, logicMax := M,
    stackNow := sampled r.stackT (List.finRange 8) s.keep.stackNow, stackMax := M',
    iodie := r.iodie.toNat, outlet := r.outlet.toNat, regs := r.regulator.toNat, volts := r.volts.toNat, mr4 := r.mr4.map (·.toNat),
    inlet := r.inlet.toNat } } := by
  obtain ⟨M, e⟩ := foldl_bank (take := fun n => takeSample (.logic n)) (put := putLogic) (now := fun s => s.keep.logicNow)
    (fun s => ⟨s.keep.logicMax, rfl⟩) (fun _ _ _ => rfl) (fun _ _ _ _ _ => rfl) (fun n s v hv => takeSample_logic n (h.logic v hv) s) (List.finRange 16) s
  obtain ⟨M', e'⟩ := foldl_bank (take := fun n => takeSample (.stack n)) (put := putStack) (now := fun s => s.keep.stackNow)
    (fun s => ⟨s.keep.stackMax, rfl⟩) (fun _ _ _ => rfl) (fun _ _ _ _ _ => rfl) (fun n s v hv => takeSample_stack n (h.stack v hv) s) (List.finRange 8)
    (putLogic (sampled r.logic (List.finRange 16) s.keep.logicNow) M s)
  refine ⟨M, M', ?_⟩
  rw [sampleAll_eq]
  dsimp only
  rw [e, e', takeSample_iodie h.iodie, coolant_within h.cold h.warm]
  rfl

/-! ### What an event leaves alone -/

section
variable (s : State) (typ source detail : Nat)

theorem raiseOpen_keep : (raiseOpen typ source detail s).keep = s.keep :=
  EventBlind.raiseOpen (g := State.keep) s ⟨fun _ _ _ _ _ _ _ _ _ _ _ => rfl⟩ ..

theorem raiseOpen_units : (raiseOpen typ source detail s).units = s.units :=
  EventBlind.raiseOpen (g := State.units) s ⟨fun _ _ _ _ _ _ _ _ _ _ _ => rfl⟩ ..

theorem raiseOpen_dict : (raiseOpen typ source detail s).dict = s.dict :=
  EventBlind.raiseOpen (g := State.dict) s ⟨fun _ _ _ _ _ _ _ _ _ _ _ => rfl⟩ ..

theorem raiseOpen_fab : (raiseOpen typ source detail s).fab = s.fab :=
  EventBlind.raiseOpen (g := State.fab) s ⟨fun _ _ _ _ _ _ _ _ _ _ _ => rfl⟩ ..

theorem raiseOpen_plan : (raiseOpen typ source detail s).plan = s.plan :=
  EventBlind.raiseOpen (g := State.plan) s ⟨fun _ _ _ _ _ _ _ _ _ _ _ => rfl⟩ ..

theorem raiseOpen_strap : (raiseOpen typ source detail s).strap = s.strap :=
  EventBlind.raiseOpen (g := State.strap) s ⟨fun _ _ _ _ _ _ _ _ _ _ _ => rfl⟩ ..

end

/-! ### The log (R444) -/

/-- An event of a type that the log keeps stands last in it. -/
theorem lastLogged_raise {typ : Nat} (sev source detail : Nat) (h : logged typ sev = true) (s : State) :
    LastLogged (raise typ sev source detail s) typ detail := by
  have blind : ∀ e t, (postEvent e t).boot.log = t.boot.log := by
    intro e t
    obtain ⟨o, ho, b, he⟩ := postEvent_frame t e
    rw [he]
  unfold raise LastLogged
  dsimp only
  rw [blind]
  unfold noteEvent
  rw [if_pos h]
  exact ⟨_, List.getLast?_concat, rfl, rfl⟩

theorem lastLogged_of_log {s t : State} {typ detail : Nat} (h : LastLogged s typ detail) (e : t.boot.log = s.boot.log) :
    LastLogged t typ detail := by
  unfold LastLogged
  rw [e]
  exact h

end Sys2Proof.Machine
end

section
/-! SUPPORT. The keeper: samples and limits, power, sleep and wake. -/

namespace Sys2Proof.Machine

open Sys2Proof.Claims

variable {s : State} {β : Type} {g : State → β}

/-! ### Samples (R415) -/

theorem sensorSample_dead (h : keeperOn s = false) (r : Readings) : exec (.sensorSample r) s = .next s := by
  show execSensorSample r s = _
  simp only [execSensorSample, h, Bool.not_false, if_true]

/-- What every sample counts, and the sampling period that it ends. -/
def sampleCounted (r : Readings) (s : State) : State :=
  let t := countRun 0x2118 1 r.overruns (countBoot 0x2120 1 r.wakes (countBoot 0x2120 2 r.awake s))
  { t with keep := { t.keep with samples := t.keep.samples + 1 } }

theorem sensorSample_on (h : keeperOn s = true) (hr : s.fab.recAsk = []) (r : Readings) : exec (.sensorSample r) s =
    .next (if s.keep.v48 then sampleAll r (scrubPeriod (sampleCounted r s))
      else { sampleCounted r s with keep := { (sampleCounted r s).keep with volts := r.volts.toNat } }) := by
  have idle : recruitLate (sampleCounted r s) = sampleCounted r s := recruitLate_idle hr
  show Host.Outcome.next (if !keeperOn s then s else
    if (recruitLate (sampleCounted r s)).keep.v48 then sampleAll r (scrubPeriod (recruitLate (sampleCounted r s)))
    else { recruitLate (sampleCounted r s) with keep := { (recruitLate (sampleCounted r s)).keep with volts := r.volts.toNat } }) = _
  rw [idle, h]
  rfl

theorem sampleCounted_counts (r : Readings) (s : State) : Counted s (sampleCounted r s) 0x2120 1 r.wakes ∧
    Counted s (sampleCounted r s) 0x2120 2 r.awake ∧
    Sparse.get 0 (sampleCounted r s).stat.run (ekey 0x2118 1) = Sparse.get 0 s.stat.run (ekey 0x2118 1) + r.overruns := by
  simp only [Counted, sampleCounted, countBoot, countRun, Sparse.get_modify]
  exact ⟨rfl, rfl, rfl⟩

/-! ### The limits (R419) -/

/-- A die that is not dropped is dropped, counted and told. -/
theorem forceDrop_new {d : Nat} (h : s.keep.forced.contains d = false) (typ detail : Nat) :
    (forceDrop d typ detail s).keep = { s.keep with forced := s.keep.forced ++ [d] } ∧ Raised typ d detail s (forceDrop d typ detail s) ∧
    (forceDrop d typ detail s).mem = s.mem ∧ (forceDrop d typ detail s).units = s.units := by
  unfold forceDrop
  rw [h, if_neg Bool.false_ne_true]
  exact ⟨raiseOpen_keep .., raised_raiseOpen .., raiseOpen_mem .., raiseOpen_units ..⟩

theorem limitCrossing_on (h : s.keep.v48 = true) (x : Sensor) (v : BitVec 8) :
    exec (.limitCrossing x v) s = .next (takeSample x v.toNat s) := congrArg Host.Outcome.next (if_pos h)

theorem limitCrossing_off (h : s.keep.v48 = false) (x : Sensor) (v : BitVec 8) :
    exec (.limitCrossing x v) s = .next s := congrArg Host.Outcome.next (if_neg (by simp [h]))

theorem thermalTrip_below {x : Sensor} {v : BitVec 8} (h : s.keep.v48 = false ∨ v.toNat < 120) :
    exec (.thermalTrip x v) s = .next s := congrArg Host.Outcome.next (if_pos (by simpa using h))

theorem thermalTrip_stack (n : Fin 8) (v : BitVec 8) : exec (.thermalTrip (.stack n) v) s = .next s :=
  congrArg Host.Outcome.next (ite_self _)

theorem thermalTrip_logic {v : BitVec 8} (h : s.keep.v48 = true) (hv : 120 ≤ v.toNat) (n : Fin 16) :
    exec (.thermalTrip (.logic n) v) s = .next (takeSample (.logic n) v.toNat s) :=
  congrArg Host.Outcome.next (if_neg (by simp [h, hv]))

theorem thermalTrip_iodie {v : BitVec 8} (h : s.keep.v48 = true) (hv : 120 ≤ v.toNat) :
    exec (.thermalTrip .iodie v) s = .next (takeSample .iodie v.toNat s) := congrArg Host.Outcome.next (if_neg (by simp [h, hv]))

/-- A logic sensor between the drop and the trip. -/
theorem takeSample_drops (n : Fin 16) {v : Nat} (h1 : 110 ≤ v) (h2 : v < 120) : ∃ M, takeSample (.logic n) v s =
    forceDrop (n.val / 4) 0x21 (pack [(8, v), (1, 0)]) (putLogic (putAt s.keep.logicNow n.val v) M s) := by
  refine ⟨if sampling s then Sparse.modify 0 s.keep.logicMax n.val (max (v + 1)) else s.keep.logicMax, ?_⟩
  unfold takeSample
  dsimp only
  rw [if_neg (by omega), if_pos h1]
  rfl

theorem takeSample_trips (n : Fin 16) {v : Nat} (h : 120 ≤ v) : ∃ M, takeSample (.logic n) v s =
    trip (n.val / 4) v (putLogic (putAt s.keep.logicNow n.val v) M s) := by
  refine ⟨if sampling s then Sparse.modify 0 s.keep.logicMax n.val (max (v + 1)) else s.keep.logicMax, ?_⟩
  unfold takeSample
  dsimp only
  rw [if_pos h]
  rfl

theorem takeSample_iodie_trips {v : Nat} (h : 120 ≤ v) : takeSample .iodie v s = trip 4 v { s with keep := { s.keep with iodie := v } } := by
  unfold takeSample
  dsimp only
  rw [if_pos h]

/-- Where 48 V is gone every domain is off; where the card is in boot with no phase done, as well. -/
theorem domainOn_off (h : s.keep.v48 = false) (d : Domain) : domainOn s d = false := by
  simp only [domainOn, h, Bool.not_false, if_true]

theorem domainOn_unbooted (hd : s.keep.dev = .boot) (hp : s.boot.phases = []) (hr : s.boot.recovery = false) (d : Domain) :
    domainOn s d = false := by
  unfold domainOn
  rw [hd]
  split
  · rfl
  · show bootDomain s d = false
    unfold bootDomain
    rw [hr, hp]
    cases d <;> rfl

theorem domainsOff_off (s : State) : DomainsOff (domainsOff s) :=
  ⟨rfl, rfl, rfl, rfl, rfl, rfl, rfl, fun d _ => domainOn_unbooted rfl rfl rfl d⟩

/-- What a trip has logged and told before the domains go off. -/
def tripTold (source reading : Nat) (s : State) : State :=
  let s := raiseOpen 0x22 source reading { s with boot := { s.boot with trips := s.boot.trips + 1 } }
  if fabricTrained s && s.plan.active.isSome then toCard (coordinator s) (.suspect (cardId s)) s else s

theorem trip_new (h : s.keep.tripped = false) (source reading : Nat) : trip source reading s =
    (let t := enterError 0x08 0x4200 reading (domainsOff (tripTold source reading s))
     { t with keep := { t.keep with tripped := true } }) := by
  unfold trip
  rw [h]
  rfl

theorem trip_again (h : s.keep.tripped = true) (source reading : Nat) : trip source reading s = s := by
  unfold trip
  rw [h]
  rfl

/-- The record of a trip is logged and counted, and the coordinator told where it can be. -/
theorem tripTold_spec {u : State} (hs : SameNet s u) (hi : u.fab.msgid = s.fab.msgid) (source reading : Nat) :
    (tripTold source reading u).boot.trips = u.boot.trips + 1 ∧ LastLogged (tripTold source reading u) 0x22 reading ∧
    (tripTold source reading u).dict = s.dict ∧
    (fabricTrained s = true → s.plan.active ≠ none →
      ∀ o ∈ towardCard s (coordinator s) (.suspect (cardId s)), o ∈ (tripTold source reading u).out) := by
  let v : State := { u with boot := { u.boot with trips := u.boot.trips + 1 } }
  let r := raiseOpen 0x22 source reading v
  have logged : LastLogged r 0x22 reading := lastLogged_raise _ _ _ (by simp [logged]) v
  have counted : r.boot.trips = u.boot.trips + 1 :=
    EventBlind.raiseOpen (g := fun s => s.boot.trips) v ⟨fun _ _ _ _ _ _ _ _ _ _ _ => rfl⟩ ..
  have hdict : r.dict = s.dict := (raiseOpen_dict ..).trans hs.dict
  have fab : r.fab = u.fab := raiseOpen_fab v ..
  have net : SameNet s r := ⟨(raiseOpen_strap ..).trans hs.strap, hdict, (raiseOpen_plan ..).trans hs.plan,
    (congrArg (·.ports) fab).trans hs.ports, (congrArg (·.declared) fab).trans hs.declared⟩
  have msgid : r.fab.msgid = s.fab.msgid := (congrArg (·.msgid) fab).trans hi
  have told := toCard_told r (coordinator r) (m := .suspect (cardId r)) fun _ => TpMsg.noConfusion
  unfold Told at told
  rw [net.towardCard msgid, net.coordinator, net.cardId] at told
  have e : tripTold source reading u = if fabricTrained s && s.plan.active.isSome then toCard (coordinator s) (.suspect (cardId s)) r else r := by
    rw [← net.fabricTrained, ← net.plan, ← net.coordinator, ← net.cardId]
    rfl
  rw [e]
  split
  · rw [told]
    exact ⟨counted, logged, hdict, fun _ _ o ho => List.mem_append_right _ ho⟩
  · next hn =>
    exact ⟨counted, logged, hdict, fun ht ha => absurd (by rw [ht, Option.isSome_iff_ne_none.2 ha]; rfl) hn⟩

/-- A trip (R419), of a card that has not tripped. -/
theorem trips_of_exec {c : Instr} {source reading : Nat} {u : State} (e : exec c s = .next (trip source reading u))
    (hs : SameNet s u) (hi : u.fab.msgid = s.fab.msgid) (ht : u.keep.tripped = false) (hb : u.boot = s.boot) : Trips c s reading := by
  obtain ⟨counted, log, hdict, told⟩ := tripTold_spec hs hi source reading
  rw [trip_new ht] at e
  generalize tripTold source reading u = w at e counted log hdict told
  have off := domainsOff_off w
  refine ⟨_, e, ⟨off.1, rfl, rfl, rfl, rfl, rfl, rfl, fun d _ => domainOn_unbooted off.1 rfl rfl d⟩, rfl, ?_, lastLogged_of_log log rfl, ?_, ?_, told⟩
  · exact counted.trans (by rw [hb])
  · exact congrArg (·.vals) hdict
  · exact congrArg (fun d => d.errReg ||| 9) hdict

/-! ### Power (R420) -/

/-- The die that is dropped next is one of those not dropped. -/
theorem hottestDie_new {d : Nat} (h : hottestDie s = some d) : s.keep.forced.contains d = false := by
  have pick : ∀ (f : Nat → Nat → Prop) [∀ a b, Decidable (f a b)] (xs : List Nat) (a : Option Nat),
      xs.foldl (fun (a : Option Nat) d => match a with
        | none => some d
        | some e => if f e d then some d else some e) a = some d → d ∈ xs ∨ a = some d := by
    intro f _ xs
    induction xs with
    | nil => exact fun a h => .inr h
    | cons x xs ih =>
      intro a h
      rcases ih _ h with h | h
      · exact .inl (List.mem_cons_of_mem _ h)
      · cases a with
        | none => exact .inl (List.mem_cons.2 (.inl (Option.some.inj h).symm))
        | some e =>
          dsimp only at h
          split at h
          · exact .inl (List.mem_cons.2 (.inl (Option.some.inj h).symm))
          · exact .inr h
  have mem := (pick (fun e d => logicReading s e < logicReading s d) _ none h).resolve_right (Option.some_ne_none d).symm
  simpa using (List.mem_filter.1 mem).2

/-- A power average that is kept, and counted where a job runs. -/
def keepWatts (w : Nat) (s : State) : State :=
  let s : State := { s with keep := { s.keep with watts := w, peakW := if jobRuns s && sampling s then max s.keep.peakW w else s.keep.peakW } }
  if jobRuns s then countRun 0x2101 4 w s else s

theorem keepWatts_frame (w : Nat) (s : State) : ∃ p r, keepWatts w s =
    { s with keep := { s.keep with watts := w, peakW := p }, stat := { s.stat with run := r } } := by
  have counted : ∀ (c : Bool) (u : State), ∃ r, (if c then countRun 0x2101 4 w u else u) = { u with stat := { u.stat with run := r } } := by
    rintro (_ | _) u
    exacts [⟨u.stat.run, rfl⟩, ⟨_, rfl⟩]
  obtain ⟨r, e⟩ := counted (jobRuns s) { s with keep := { s.keep with
    watts := w, peakW := if jobRuns s && sampling s then max s.keep.peakW w else s.keep.peakW } }
  exact ⟨_, r, e⟩

theorem powerAverage_off (h : s.keep.v48 = false) (w : BitVec 16) : exec (.powerAverage w) s = .next s :=
  congrArg Host.Outcome.next (if_pos (by simp [h]))

theorem powerAverage_on (h : s.keep.v48 = true) (w : BitVec 16) : exec (.powerAverage w) s = .next
    (if num (keepWatts w.toNat s) 0x2104 1 < w.toNat ∧ diesOn (keepWatts w.toNat s) = true then
      match hottestDie (keepWatts w.toNat s) with
      | some d => forceDrop d 0x23 w.toNat (keepWatts w.toNat s)
      | none => keepWatts w.toNat s
    else keepWatts w.toNat s) := congrArg Host.Outcome.next (if_neg (by simp [h]))

/-- An average within the limit is kept. -/
theorem powerAverage_within (h : s.keep.v48 = true) {w : BitVec 16} (hw : w.toNat ≤ num s 0x2104 1) :
    exec (.powerAverage w) s = .next (keepWatts w.toNat s) := by
  obtain ⟨p, r, e⟩ := keepWatts_frame w.toNat s
  have limit : num (keepWatts w.toNat s) 0x2104 1 = num s 0x2104 1 := num_congr (by rw [e]) (by rw [e]) ..
  rw [powerAverage_on h, if_neg]
  rw [limit]
  exact fun hc => absurd hc.1 (Nat.not_lt.2 hw)

/-- An average above it drops the hottest die that is left. -/
theorem powerAverage_above (h : s.keep.v48 = true) {w : BitVec 16} (hw : num s 0x2104 1 < w.toNat) (hd : diesOn s = true) {d : Nat}
    (hh : hottestDie s = some d) : exec (.powerAverage w) s = .next (forceDrop d 0x23 w.toNat (keepWatts w.toNat s)) := by
  obtain ⟨p, r, e⟩ := keepWatts_frame w.toNat s
  have limit : num (keepWatts w.toNat s) 0x2104 1 = num s 0x2104 1 := num_congr (by rw [e]) (by rw [e]) ..
  have dies : diesOn (keepWatts w.toNat s) = true := by rw [e]; exact hd
  have hot : hottestDie (keepWatts w.toNat s) = some d := by rw [e]; exact hh
  rw [powerAverage_on h, if_pos ⟨limit ▸ hw, dies⟩, hot]

/-! ### Evaluation in idle (R416) -/

theorem idleEvaluation_none (h : jobRuns s = true ∨ diesOn s = false) : exec .idleEvaluation s = .next s :=
  congrArg Host.Outcome.next (if_pos (by rcases h with h | h <;> simp [h]))

theorem sayCodes_view (hg : EventBlind g) (old new logic stackT : List Nat) (s : State) : g (sayCodes old new logic stackT s) = g s := by
  refine foldl_same _ g (fun s d => ?_) _ s
  split
  · rfl
  · exact hg.raiseOpen ..

theorem idleEvaluation_idle (hj : jobRuns s = false) (hd : diesOn s = true) {codes : List Nat} {u : State}
    (hc : nextCodes (num s) s.keep.codes (logicReadings s) (stackReadings s) = codes)
    (hu : sayCodes s.keep.codes codes (logicReadings s) (stackReadings s) s = u) : exec .idleEvaluation s = .next (clearReadings { u with
      keep := { u.keep with codes := codes, inForce := codes, forced := [] }
      mem := { u.mem with refresh := nextRefresh (num u) u.mem.refresh (stackReadings s) } }) := by
  rw [← hu, ← hc]
  exact congrArg Host.Outcome.next (if_neg (by simp [hj, hd]))

theorem idleEvaluation_spec (hj : jobRuns s = false) (hd : diesOn s = true) : Completes .idleEvaluation s fun t =>
    t.keep.codes = nextCodes (num s) s.keep.codes (logicReadings s) (stackReadings s) ∧ t.keep.inForce = t.keep.codes ∧
    t.keep.forced = [] ∧ t.mem = { s.mem with refresh := nextRefresh (num s) s.mem.refresh (stackReadings s) } ∧ t.units = s.units := by
  obtain ⟨codes, hc⟩ : ∃ c, nextCodes (num s) s.keep.codes (logicReadings s) (stackReadings s) = c := ⟨_, rfl⟩
  obtain ⟨u, hu⟩ : ∃ u, sayCodes s.keep.codes codes (logicReadings s) (stackReadings s) s = u := ⟨_, rfl⟩
  have same : ∀ {γ : Type} {g : State → γ}, EventBlind g → g u = g s := fun hg => hu ▸ sayCodes_view hg ..
  have mem := same (g := State.mem) ⟨fun _ _ _ _ _ _ _ _ _ _ _ => rfl⟩
  have settings : num u = num s := funext₂ (num_congr
    (same (g := State.strap) ⟨fun _ _ _ _ _ _ _ _ _ _ _ => rfl⟩) (same (g := State.dict) ⟨fun _ _ _ _ _ _ _ _ _ _ _ => rfl⟩))
  refine ⟨_, idleEvaluation_idle hj hd hc hu, hc.symm, rfl, rfl, ?_, same (g := State.units) ⟨fun _ _ _ _ _ _ _ _ _ _ _ => rfl⟩⟩
  rw [← mem, ← settings]
  rfl

/-! ### Sleep (R422) -/

/-- Stores that end are answered and put into flash. -/
theorem finishStore_frame (s : State) : ∃ os st sd f b, finishStore s = { s with
    out := s.out ++ os, dict := { s.dict with storing := sd, stored := st }, boot := { s.boot with flash := f },
    stat := { s.stat with boot := b } } := by
  cases hs : s.dict.storing with
  | nil =>
    have e : finishStore s = s := by
      unfold finishStore
      rw [hs]
    exact ⟨[], s.dict.stored, s.dict.storing, s.boot.flash, s.stat.boot, by rw [e, List.append_nil]⟩
  | cons x xs =>
    obtain ⟨os, b, e⟩ : ∃ os b, reply x.1 [] (putStored (x.2.foldl (fun m kv => Sparse.set none m kv.1 kv.2) s.dict.stored)
      { s with dict := { s.dict with storing := xs } }) = _ := respond_frame _ x.1 1 _
    have e' : finishStore s = _ := (by unfold finishStore; rw [hs] : finishStore s = reply x.1 [] (putStored
      (x.2.foldl (fun m kv => Sparse.set none m kv.1 kv.2) s.dict.stored) { s with dict := { s.dict with storing := xs } })).trans e
    exact ⟨[.flashWrite 2] ++ os, _, xs, _, b, e'.trans (by rw [← List.append_assoc]; rfl)⟩

/-- A view of the card that does not see what stores that end leave, nor the count of entries into sleep. -/
structure StoreBlind (g : State → β) : Prop extends EventBlind g where
  store : ∀ s os vals sd f b, g { s with
    out := s.out ++ os, dict := { s.dict with storing := sd, stored := vals }, boot := { s.boot with flash := f },
    stat := { s.stat with boot := b } } = g s

theorem StoreBlind.finishStore (h : StoreBlind g) (s : State) : g (finishStore s) = g s := by
  obtain ⟨os, st, sd, f, b, e⟩ := finishStore_frame s
  rw [e]
  exact h.store ..

/-- Every port down keeps its cable and nothing else. -/
theorem getPort_portsDown (s : State) (p : Nat) : getPort (portsDown s) p = { cable := (getPort s p).cable } := by
  have map : ∀ m : Sparse PortSt, Sparse.get ({} : PortSt) (m.map fun kv => (kv.1, ({ cable := kv.2.cable } : PortSt))) p =
      ({ cable := (Sparse.get ({} : PortSt) m p).cable } : PortSt) := by
    intro m
    induction m with
    | nil => rfl
    | cons kv m ih =>
      obtain ⟨k, x⟩ := kv
      rw [List.map_cons, Sparse.get_cons, Sparse.get_cons, ih]
      split <;> rfl
  exact map s.fab.ports

/-- Entry into sleep, with the stores that it ends. -/
theorem enterSleep_eq {u : State} (h : s.dict.storing.foldl (fun s _ => finishStore s) s = u) (cause : Nat) : enterSleep cause s =
    raiseOpen 0x25 noSource cause (countBoot 0x2120 3 1 { unitsOff (portsDown u) with
      keep := { (unitsOff (portsDown u)).keep with dev := .asleep, sleptFrom := (unitsOff (portsDown u)).keep.dev } }) := by
  rw [← h]
  rfl

theorem enterSleep_sleeps (cause : Nat) (s : State) : Sleeps s (enterSleep cause s) := by
  obtain ⟨u, hu⟩ : ∃ u, s.dict.storing.foldl (fun s _ => finishStore s) s = u := ⟨_, rfl⟩
  have blind : StoreBlind fun s => (s.keep, s.mem, s.plan, s.fab) :=
    { raised := fun _ _ _ _ _ _ _ _ _ _ _ => rfl, store := fun _ _ _ _ _ _ => rfl }
  obtain ⟨hk, hm, hp, hf⟩ : u.keep = s.keep ∧ u.mem = s.mem ∧ u.plan = s.plan ∧ u.fab = s.fab := by
    have same := foldl_same (fun s _ => finishStore s) (fun s => (s.keep, s.mem, s.plan, s.fab)) (fun s _ => blind.finishStore s) s.dict.storing s
    rw [hu] at same
    simpa only [Prod.mk.injEq] using same
  have gates : EventBlind State.gates := ⟨fun _ _ _ _ _ _ _ _ _ _ _ => rfl⟩
  have ports : ∀ p, getPort (enterSleep cause s) p = getPort (portsDown u) p := fun p => by
    rw [enterSleep_eq hu]
    exact congrArg (fun f => Sparse.get ({} : PortSt) f.ports p) (raiseOpen_fab ..)
  have cable : ∀ p, getPort u p = getPort s p := fun p => congrArg (fun f : FabricSt => Sparse.get ({} : PortSt) f.ports p) hf
  refine ⟨?_, ?_, ?_, ?_, ?_, ?_, fun p => ?_⟩
  · rw [enterSleep_eq hu, raiseOpen_keep]; rfl
  · rw [enterSleep_eq hu, raiseOpen_keep]; exact congrArg (·.dev) hk
  · rw [enterSleep_eq hu, raiseOpen_mem]; exact hm
  · rw [enterSleep_eq hu, raiseOpen_plan]; exact hp
  · rw [enterSleep_eq hu, raiseOpen_units]; rfl
  · rw [enterSleep_eq hu, gates.raiseOpen]; rfl
  · rw [ports, getPort_portsDown, cable]
    exact ⟨rfl, rfl⟩

/-- What has been sent stays sent. -/
theorem mem_out_raiseOpen {o : Out} (h : o ∈ s.out) (typ source detail : Nat) : o ∈ (raiseOpen typ source detail s).out := by
  obtain ⟨os, _, _, _, _, e⟩ : ∃ o h l n b, raiseOpen typ source detail s = _ := raise_frame s ..
  rw [e]
  exact List.mem_append_left _ h

theorem mem_out_enterSleep {o : Out} (h : o ∈ s.out) (cause : Nat) : o ∈ (enterSleep cause s).out := by
  have stored : ∀ s : State, o ∈ s.out → o ∈ (finishStore s).out := by
    intro s h
    obtain ⟨os, _, _, _, _, e⟩ := finishStore_frame s
    rw [e]
    exact List.mem_append_left _ h
  obtain ⟨u, hu⟩ : ∃ u, s.dict.storing.foldl (fun s _ => finishStore s) s = u := ⟨_, rfl⟩
  have kept : o ∈ u.out := hu ▸ foldl_keeps (P := fun s => o ∈ s.out) (fun s _ => stored s) s.dict.storing s h
  rw [enterSleep_eq hu]
  refine mem_out_raiseOpen ?_ ..
  exact kept

/-- The answer that goes out first does not change what the card sleeps from. -/
theorem enterSleep_reply (cause : Nat) (a : Access) (s : State) : Sleeps s (enterSleep cause (reply a [] s)) := by
  have sleeps := enterSleep_sleeps cause (reply a [] s)
  obtain ⟨os, b, e⟩ : ∃ os b, reply a [] s = _ := respond_frame s a 1 _
  rw [e] at sleeps ⊢
  exact sleeps

theorem exec_sleepRequest {a : Access} (h : Takes s a 0x2100 1) : exec (.sleepRequest a 1) s =
    .next (if maySleep s then enterSleep 1 (reply a [] s) else refuse a 0x2100 1 abState s) := by
  show execSleepRequest a 1 s = _
  rw [execSleepRequest, actWrite_takes s h]
  rfl

theorem exec_wakeRequest {a : Access} (h : Takes s a 0x2100 1) : exec (.wakeRequest a 0) s = .next (wake 1 (reply a [] s)) := by
  show execWakeRequest a 0 s = _
  rw [execWakeRequest, actWrite_takes s h]
  rfl

/-! ### Wake (R423) -/

theorem wake_awake (h : s.keep.dev ≠ .asleep) (cause : Nat) : wake cause s = s := if_neg h

/-- The card as a wake leaves it before its units are loaded. -/
def woken (cause : Nat) (s : State) : State :=
  raiseOpen 0x26 noSource cause { s with keep := { s.keep with dev := s.keep.sleptFrom }, mem := { s.mem with memAwake := false } }

theorem wake_asleep (h : s.keep.dev = .asleep) (cause : Nat) : wake cause s = applyIdleParts (reloadUnits (woken cause s)) := if_pos h

/-- A table in which nothing fails has no first failure. -/
theorem firstBad_none {α : Type} {xs : List α} {ok : α → Bool} (h : ∀ x ∈ xs, ok x = true) : firstBad xs ok = none := by
  unfold firstBad
  rw [List.find?_eq_none.2, Option.map_none]
  intro x hx
  have mem := (List.mem_zipIdx' hx).2
  simp [h x.1 (mem ▸ List.getElem_mem _)]

/-- A table into which the entries of some keys are written, each with its own value, holds them. -/
theorem get_foldl_set {α : Type} [DecidableEq α] (d : α) (c : Nat → Prop) [DecidablePred c] (x : Nat → α) {p : Nat} (hc : c p)
    (ps : List Nat) : ∀ m : Sparse α, p ∈ ps ∨ Sparse.get d m p = x p →
      Sparse.get d (ps.foldl (fun m p => if c p then Sparse.set d m p (x p) else m) m) p = x p := by
  induction ps with
  | nil => exact fun m h => h.resolve_left List.not_mem_nil
  | cons q ps ih =>
    intro m h
    refine ih _ (or_iff_not_imp_left.2 fun hp => ?_)
    dsimp only
    by_cases hq : p = q
    · rw [← hq, if_pos hc, Sparse.get_set_self]
    · have now := h.resolve_left fun hm => (List.mem_cons.1 hm).elim hq hp
      split
      · rw [Sparse.get_set_ne _ _ _ hq]
        exact now
      · exact now

/-- What is loaded into the units that carry a logical unit. -/
theorem getUnit_loadUnits (area : Nat) {p : Nat} (hp : p < 72) (hl : logicalUnit s p < 64) :
    getUnit (loadUnits area s) p = loadUnit (unitImg s area (logicalUnit s p)) :=
  get_foldl_set ({} : UnitSt) (fun p => logicalUnit s p < 64) (fun p => loadUnit (unitImg s area (logicalUnit s p))) hl (List.range 72) []
    (.inl (List.mem_range.2 hp))

/-- What loading an image's unit sections again comes to, by the first of them that cannot be read or has not its measurement. -/
def reloadTo (sections : State → Nat → List Sec) (s : State) (area : Nat) : Option Nat → State
  | none => loadUnits area s
  | some i => { s with plan := { s.plan with
      result := 5, resArea := area, resUnit := (((sections s area)[i]?).map (·.unit)).getD 0xFF, resItem := i, resDet := 0 } }

/-- `reloadUnits` over any table of sections: the kernel is kept from reducing the table of an image. -/
def reloadFrom (sections : State → Nat → List Sec) (s : State) : Option Nat → State
  | none => s
  | some area => reloadTo sections s area (firstBad (sections s area) fun x => !unitKinds.contains x.kind || x.good s area)

theorem reloadUnits_def {sections : State → Nat → List Sec} (h : sections = imgSections) :
    reloadUnits = fun s => reloadFrom sections s s.plan.active := by
  delta reloadUnits
  rw [← h]
  rfl

theorem reloadUnits_none (h : s.plan.active = none) : reloadUnits s = s := by
  obtain ⟨sections, hs⟩ : ∃ f, f = imgSections := ⟨_, rfl⟩
  rw [reloadUnits_def hs]
  dsimp only
  rw [h, reloadFrom]

/-- Whatever the sections hold, their reload leaves the keeper, the dictionary, the log, what is sent and device memory. -/
theorem reloadUnits_view (hg : ∀ s : State, ∀ u p, g { s with units := u, gates := [], plan := p } = g s ∧ g { s with plan := p } = g s) (s : State) :
    g (reloadUnits s) = g s := by
  obtain ⟨sections, hs⟩ : ∃ f, f = imgSections := ⟨_, rfl⟩
  rw [reloadUnits_def hs]
  dsimp only
  cases s.plan.active with
  | none => rw [reloadFrom]
  | some area =>
    rw [reloadFrom]
    cases firstBad (sections s area) fun x => !unitKinds.contains x.kind || x.good s area with
    | none => exact (hg s _ s.plan).1
    | some i => exact (hg s s.units _).2

/-- Where every unit section can be read and has its measurement the units are loaded again. -/
theorem reloadUnits_good {k : Nat} (h : s.plan.active = some k)
    (hg : ∀ x ∈ imgSections s k, unitKinds.contains x.kind = true → x.good s k = true) : reloadUnits s = loadUnits k s := by
  obtain ⟨sections, hs⟩ : ∃ f, f = imgSections := ⟨_, rfl⟩
  rw [← hs] at hg
  have good : firstBad (sections s k) (fun x => !unitKinds.contains x.kind || x.good s k) = none :=
    firstBad_none fun x hx => by
      cases hk : unitKinds.contains x.kind with
      | true => rw [hg x hx hk]; rfl
      | false => rfl
  rw [reloadUnits_def hs]
  dsimp only
  rw [h, reloadFrom, good, reloadTo]

end Sys2Proof.Machine
end

section
/-! PROOF. The keeper: samples and limits, power, sleep and wake, supplies, cables (O59). -/

namespace Sys2Proof.Machine

open Sys2Proof.Claims

variable {s : State} {β : Type} {g : State → β}

theorem applyIdleParts_idle (h : s.dict.awaiting = []) : applyIdleParts s = s := by
  unfold applyIdleParts
  rw [applyParts_idle h, ite_self]

theorem woken_same (cause : Nat) (s : State) : SameMem s (woken cause s) where
  strap := raiseOpen_strap ..
  recovery := EventBlind.raiseOpen (g := fun s => s.boot.recovery) _ ⟨fun _ _ _ _ _ _ _ _ _ _ _ => rfl⟩ ..
  barges := congrArg (·.barges) (raiseOpen_mem ..)
  cells := congrArg (·.cells) (raiseOpen_mem ..)
  group := congrArg (·.group) (raiseOpen_mem ..)
  badBlk := congrArg (·.badBlk) (raiseOpen_mem ..)

/-- A card on which no part awaits wakes with the units alone loaded again. -/
theorem wake_idle (h : s.keep.dev = .asleep) (ha : s.dict.awaiting = []) (cause : Nat) : wake cause s = reloadUnits (woken cause s) := by
  have awaiting : (reloadUnits (woken cause s)).dict.awaiting = [] := by
    rw [reloadUnits_view (g := fun s => s.dict.awaiting) fun _ _ _ => ⟨rfl, rfl⟩]
    have dict : (woken cause s).dict = s.dict := raiseOpen_dict ..
    rw [dict, ha]
  rw [wake_asleep h, applyIdleParts_idle awaiting]

theorem wake_spec (h : s.keep.dev = .asleep) (ha : s.dict.awaiting = []) (cause : Nat) : Woken s (wake cause s) cause := by
  rw [wake_idle h ha]
  have same := woken_same cause s
  have plan : (woken cause s).plan = s.plan := raiseOpen_plan ..
  have units : (woken cause s).units = s.units := raiseOpen_units ..
  refine ⟨?_, ?_, ?_, fun hn => ?_, fun k hk hg p hp hl => ?_⟩
  · rw [reloadUnits_view (g := State.keep) fun _ _ _ => ⟨rfl, rfl⟩]
    exact raiseOpen_keep ..
  · have raised : Raised 0x26 0xFFFF cause s (woken cause s) := raised_raiseOpen ..
    rwa [reloadUnits_view (g := fun t => Raised 0x26 0xFFFF cause s t) fun _ _ _ => ⟨rfl, rfl⟩]
  · rw [reloadUnits_view (g := fun s => s.mem.cells) fun _ _ _ => ⟨rfl, rfl⟩]
    exact same.cells
  · rw [reloadUnits_none (plan.symm ▸ hn), units]
  · have logical : logicalUnit (woken cause s) p = logicalUnit s p := by rw [logicalUnit, units]; rfl
    rw [reloadUnits_good (plan.symm ▸ hk) fun x hx hu => by
      rw [same.secGood]
      exact hg x (same.imgSections k ▸ hx) hu]
    rw [getUnit_loadUnits _ hp (logical.symm ▸ hl), logical, same.unitImg]

/-- The answer that goes out first does not change what the card wakes into. -/
theorem wake_reply (h : s.keep.dev = .asleep) (ha : s.dict.awaiting = []) (cause : Nat) (a : Access) : Woken s (wake cause (reply a [] s)) cause := by
  obtain ⟨os, b, e⟩ : ∃ os b, reply a [] s = _ := respond_frame s a 1 _
  obtain ⟨u, hu⟩ : ∃ u : State, { s with out := s.out ++ os, stat := { s.stat with boot := b } } = u := ⟨_, rfl⟩
  have same : SameMem s u := hu ▸ ⟨rfl, rfl, rfl, rfl, rfl, rfl⟩
  have sections : ∀ k, imgSections u k = imgSections s k := same.imgSections
  have good : ∀ k (x : Sec), x.good u k = x.good s k := same.secGood
  have image : ∀ k l, unitImg u k l = unitImg s k l := same.unitImg
  rw [e, hu]
  obtain ⟨keep, raised, cells, none, loaded⟩ := wake_spec (s := u) (hu ▸ h) (hu ▸ ha) cause
  have plan : u.plan = s.plan := hu ▸ rfl
  have units : u.units = s.units := hu ▸ rfl
  refine ⟨keep.trans (hu ▸ rfl), ?_, cells.trans same.cells, fun hn => (none (plan ▸ hn)).trans units, fun k hk hg p hp hl => ?_⟩
  · subst hu
    exact raised
  · have logical : logicalUnit u p = logicalUnit s p := by rw [logicalUnit, units]; rfl
    rw [← logical] at hl ⊢
    rw [loaded k (plan ▸ hk) (fun x hx hu => (good k x).trans (hg x (sections k ▸ hx) hu)) p hp hl, image]

theorem mem_out_reloadUnits {o : Out} (h : o ∈ s.out) : o ∈ (reloadUnits s).out := by
  rwa [reloadUnits_view (g := State.out) fun _ _ _ => ⟨rfl, rfl⟩]

/-! ### Parts that apply (R47) -/

theorem followNode_awaiting (old new : Nat) (s : State) : (followNode old new s).dict.awaiting = s.dict.awaiting := by
  refine foldl_same _ (fun s => s.dict.awaiting) (fun s n => ?_) _ s
  dsimp only
  split
  · rfl
  · split <;> rfl

theorem applyEntry_awaiting (e : EntryVal) (s : State) : (applyEntry e s).dict.awaiting = s.dict.awaiting := by
  unfold applyEntry
  dsimp only
  split
  · exact followNode_awaiting ..
  · split
    · rfl
    · split <;> rfl

theorem settleGens_awaiting (gens : List (BitVec 32)) (s : State) : (settleGens gens s).dict.awaiting = s.dict.awaiting := by
  refine foldl_same _ (fun s => s.dict.awaiting) (fun s g => ?_) gens s
  dsimp only
  split
  · rfl
  · split <;> rfl

/-- The parts that apply await no more, and the others do. -/
theorem applyParts_awaiting (due : Part → Bool) (s : State) : (applyParts due s).dict.awaiting = s.dict.awaiting.filter fun p => !due p := by
  unfold applyParts
  dsimp only
  rw [settleGens_awaiting]
  refine foldl_same _ (fun s => s.dict.awaiting) (fun s a => ?_) _ _
  exact foldl_same _ (fun s => s.dict.awaiting) (fun s e => applyEntry_awaiting e s) _ _

/-- In idle no idle part goes on waiting after a wake. -/
theorem wake_idleParts (h : s.keep.dev = .asleep) (hi : s.keep.sleptFrom = .idle) (cause : Nat) :
    ∀ p ∈ (wake cause s).dict.awaiting, p.point ≠ .idle := by
  have keep : (reloadUnits (woken cause s)).keep.dev = .idle := by
    rw [reloadUnits_view (g := fun s => s.keep.dev) fun _ _ _ => ⟨rfl, rfl⟩]
    have kept : (woken cause s).keep = { s.keep with dev := s.keep.sleptFrom } := raiseOpen_keep ..
    rw [kept]
    exact hi
  rw [wake_asleep h, applyIdleParts, if_pos keep, applyParts_awaiting]
  intro p hp
  simpa using (List.mem_filter.1 hp).2

/-! ### Stored values (R38) -/

/-- One stored value, or the default, among the values in force. -/
def loadVal (st vals : Sparse (Option Bytes)) (e : Nat × Nat) : Sparse (Option Bytes) :=
  Sparse.set none vals (ekey e.1 e.2) (Sparse.get none st (ekey e.1 e.2))

theorem foldl_loadEntry (es : List (Nat × Nat)) : ∀ s : State, es.foldl (fun s e => loadEntry e s) s =
    { s with dict := { s.dict with vals := es.foldl (loadVal s.dict.stored) s.dict.vals } } := by
  induction es with
  | nil => exact fun _ => rfl
  | cons e es ih => exact fun s => ih (loadEntry e s)

/-- A value that is loaded is the stored one. -/
theorem get_foldl_loadVal (st : Sparse (Option Bytes)) (k : Nat) (es : List (Nat × Nat)) : ∀ vals,
    (∃ e ∈ es, ekey e.1 e.2 = k) ∨ Sparse.get none vals k = Sparse.get none st k →
      Sparse.get none (es.foldl (loadVal st) vals) k = Sparse.get none st k := by
  induction es with
  | nil => exact fun vals h => h.resolve_left fun ⟨_, he, _⟩ => absurd he List.not_mem_nil
  | cons e es ih =>
    intro vals h
    refine ih _ (or_iff_not_imp_left.2 fun hn => ?_)
    rw [loadVal]
    by_cases hk : ekey e.1 e.2 = k
    · rw [hk, Sparse.get_set_self]
    · rw [Sparse.get_set_ne _ _ _ (Ne.symm hk)]
      exact h.resolve_left fun ⟨x, hx, e'⟩ => (List.mem_cons.1 hx).elim (fun hxe => hk (hxe ▸ e')) fun hx => hn ⟨x, hx, e'⟩

theorem groupCheck_congr {s t : State} (h : SameNet s t) (k : Nat) : groupCheck t k = groupCheck s k := by
  have nums : num t = num s := funext₂ h.num
  have vals : valBytes t = valBytes s := funext₂ h.valBytes
  have coord : coordOf t = coordOf s := by
    funext a d
    simp only [coordOf, nums]
  have ring : ringDistance t = ringDistance s := by
    funext a b
    simp only [ringDistance, nums, coord]
  have far : ∀ xs, farApart t xs = farApart s xs := by
    intro xs
    induction xs with
    | nil => rfl
    | cons x xs ih => simp only [farApart, ring, ih]
  unfold groupCheck
  simp only [checkTopology, checkMap, checkTpdo, gatewayOk, torusCards, fourPort, nums, vals, far, h.failedCards, h.myLogical, h.plan, h.strap]
  rfl

/-- Where every group passes its check the stored values stand. -/
theorem loadStored_passes {es : List (Nat × Nat)} (h : ∀ k < 16, groupCheck (es.foldl (fun s e => loadEntry e s) s) k = []) :
    loadStored es s = topologyApplies (es.foldl (fun s e => loadEntry e s) s) := by
  unfold loadStored
  generalize es.foldl (fun s e => loadEntry e s) s = u at h
  have keeps : ∀ ks : List Nat, (∀ k ∈ ks, k < 16) → ks.foldl (fun s k => defaultGroup k s) u = u := by
    intro ks
    induction ks with
    | nil => exact fun _ => rfl
    | cons k ks ih =>
      intro hk
      have same : defaultGroup k u = u := by
        unfold defaultGroup
        rw [h k (hk k List.mem_cons_self)]
        rfl
      rw [List.foldl_cons, same]
      exact ih fun x hx => hk x (List.mem_cons_of_mem _ hx)
  dsimp only
  rw [keeps (List.range 16) fun k hk => List.mem_range.1 hk]

theorem loadStored_vals {es : List (Nat × Nat)} (h : ∀ k < 16, groupCheck (es.foldl (fun s e => loadEntry e s) s) k = []) :
    ∀ e ∈ es, Sparse.get none (loadStored es s).dict.vals (ekey e.1 e.2) = Sparse.get none s.dict.stored (ekey e.1 e.2) := by
  intro e he
  rw [loadStored_passes h, foldl_loadEntry]
  exact get_foldl_loadVal _ _ es _ (.inl ⟨e, he, rfl⟩)

/-- A view of the card that does not see values in force, errors entered, the ports, nor events. -/
structure LoadBlind (g : State → β) : Prop extends EventBlind g where
  load : ∀ (s : State) vals reg fld ports, g { s with
    dict := { s.dict with vals := vals, errReg := reg, errField := fld }, fab := { s.fab with ports := ports } } = g s

theorem LoadBlind.loadStored (h : LoadBlind g) (es : List (Nat × Nat)) (s : State) : g (loadStored es s) = g s := by
  have group : ∀ (s : State) k, g (defaultGroup k s) = g s := by
    intro s k
    unfold defaultGroup
    split
    · rfl
    · exact (h.raiseOpen ..).trans (h.load s _ _ _ s.fab.ports)
  have entries : g (es.foldl (fun s e => loadEntry e s) s) = g s :=
    foldl_same _ g (fun s e => h.load s _ s.dict.errReg s.dict.errField s.fab.ports) es s
  have groups : g ((List.range 16).foldl (fun s k => defaultGroup k s) (es.foldl (fun s e => loadEntry e s) s)) = g s :=
    (foldl_same _ g group _ _).trans entries
  unfold Machine.loadStored
  dsimp only
  generalize (List.range 16).foldl (fun s k => defaultGroup k s) (es.foldl (fun s e => loadEntry e s) s) = u at groups
  exact (h.load u u.dict.vals u.dict.errReg u.dict.errField _).trans groups

/-- A keeper that serves on 3.3 Vaux alone has loaded the stored values, and sends boot-up last. -/
theorem serveOnVaux_fw (h : s.boot.fw = true) : serveOnVaux s = send (.heartbeat 0) { s with boot := { s.boot with fw := true } } := by
  unfold serveOnVaux
  rw [h]
  rfl

theorem serveOnVaux_new (h : s.boot.fw = false) : serveOnVaux s = send (.heartbeat 0)
    { loadStored storedEntries s with boot := { (loadStored storedEntries s).boot with fw := true } } := by
  unfold serveOnVaux
  rw [h]
  rfl

theorem serveOnVaux_heartbeat (s : State) : (serveOnVaux s).out.getLast? = some (.heartbeat 0) := by
  unfold serveOnVaux send
  exact List.getLast?_concat

/-- A view that does not see whether the firmware is loaded nor what is sent either. -/
theorem LoadBlind.serveOnVaux (h : LoadBlind g) (hf : ∀ (s : State) o f, g { s with out := o, boot := { s.boot with fw := f } } = g s)
    (s : State) : g (serveOnVaux s) = g s := by
  cases e : s.boot.fw with
  | true =>
    rw [serveOnVaux_fw e]
    exact hf s (s.out ++ [.heartbeat 0]) true
  | false =>
    rw [serveOnVaux_new e]
    have loaded := h.loadStored storedEntries s
    generalize Machine.loadStored storedEntries s = u at loaded
    exact (hf u (u.out ++ [.heartbeat 0]) true).trans loaded

theorem loadsStored_serveOnVaux {u : State} (hf : u.boot.fw = false) (hn : SameNet s u) : LoadsStored s (serveOnVaux u) := by
  unfold LoadsStored
  rw [serveOnVaux_new hf]
  generalize storedEntries = es
  intro hg e he
  have net : SameNet (es.foldl (fun s e => loadEntry e s) s) (es.foldl (fun s e => loadEntry e s) u) := by
    rw [foldl_loadEntry, foldl_loadEntry]
    exact ⟨hn.strap, by rw [hn.dict], hn.plan, hn.ports, hn.declared⟩
  have vals := loadStored_vals (fun k hk => (groupCheck_congr net k).trans (hg k hk)) e he
  rw [hn.dict] at vals
  generalize loadStored es u = w at vals ⊢
  exact vals

/-! ### Supplies (R421, R424, R454, R457) -/

/-- What stands where every domain is off and 48 V is gone. -/
structure Dark (t : State) : Prop where
  v48 : t.keep.v48 = false
  dev : t.keep.dev = .boot
  mem : t.mem = {}
  phys : t.units.phys = []
  gates : t.gates = []
  led : t.led = {}
  plan : t.plan = {}
  phases : t.boot.phases = []

theorem Dark.off {t : State} (h : Dark t) : DomainsOff t :=
  ⟨h.dev, h.mem, h.phys, h.gates, h.led, h.plan, h.phases, fun d _ => domainOn_off h.v48 d⟩

theorem Dark.keeperOff (h : Dark s) : Dark (keeperOff s) := ⟨rfl, rfl, h.mem, h.phys, h.gates, h.led, h.plan, h.phases⟩

theorem Dark.serveOnVaux (h : Dark s) (volts : Nat) : Dark (serveOnVaux (enterError 0x04 0x3100 volts s)) := by
  have same := LoadBlind.serveOnVaux (g := fun s => (s.keep, s.mem, s.units.phys, s.gates, s.led, s.plan, s.boot.phases))
    { raised := fun _ _ _ _ _ _ _ _ _ _ _ => rfl, load := fun _ _ _ _ _ => rfl } (fun _ _ _ => rfl) (enterError 0x04 0x3100 volts s)
  simp only [Prod.mk.injEq] at same
  generalize Machine.serveOnVaux (enterError 0x04 0x3100 volts s) = t at same ⊢
  obtain ⟨keep, mem, phys, gates, led, plan, phases⟩ := same
  exact ⟨by rw [keep]; exact h.v48, by rw [keep]; exact h.dev, mem.trans h.mem, phys.trans h.phys, gates.trans h.gates, led.trans h.led,
    plan.trans h.plan, phases.trans h.phases⟩

/-- Every domain off, for want of 48 V. -/
def darken (s : State) : State :=
  let s := domainsOff s
  { s with keep := { s.keep with v48 := false, tripped := false } }

theorem darken_dark (s : State) : Dark (darken s) := ⟨rfl, rfl, rfl, rfl, rfl, rfl, rfl, rfl⟩

/-- The loss of 48 V as it is logged. -/
def saidLoss (volts : Nat) (s : State) : State :=
  raiseOpen 0x27 noSource (pack [(8, 0), (8, 0), (16, volts)]) { s with keep := { s.keep with volts := volts } }

/-- The card as the loss of 48 V leaves it, before its keeper goes on or stops. -/
def dark (volts : Nat) (s : State) : State := darken (saidLoss volts s)

theorem dark_dark (volts : Nat) (s : State) : Dark (dark volts s) := darken_dark _

theorem dark_vaux (volts : Nat) (s : State) : (dark volts s).keep.vaux = s.keep.vaux := by
  have keep : (saidLoss volts s).keep = { s.keep with volts := volts } := raiseOpen_keep ..
  have same : ∀ u, (darken u).keep.vaux = u.keep.vaux := fun _ => rfl
  rw [dark, same, keep]

theorem lose48_vaux (h : s.keep.v48 = true) (hv : s.keep.vaux = true) (volts : Nat) :
    lose48 volts s = serveOnVaux (enterError 0x04 0x3100 volts (dark volts s)) := by
  have vaux : (dark volts s).keep.vaux = true := (dark_vaux volts s).trans hv
  show (if !s.keep.v48 then s else if (dark volts s).keep.vaux then serveOnVaux (enterError 0x04 0x3100 volts (dark volts s))
    else keeperOff (dark volts s)) = _
  rw [h, vaux]
  rfl

theorem lose48_alone (h : s.keep.v48 = true) (hv : s.keep.vaux = false) (volts : Nat) : lose48 volts s = keeperOff (dark volts s) := by
  have vaux : (dark volts s).keep.vaux = false := (dark_vaux volts s).trans hv
  show (if !s.keep.v48 then s else if (dark volts s).keep.vaux then serveOnVaux (enterError 0x04 0x3100 volts (dark volts s))
    else keeperOff (dark volts s)) = _
  rw [h, vaux]
  rfl

theorem lose48_off (h : s.keep.v48 = false) (volts : Nat) : lose48 volts s = s := by
  unfold lose48
  rw [h]
  rfl

theorem dark_dict (volts : Nat) (s : State) : (dark volts s).dict = s.dict := by
  have same : ∀ u, (darken u).dict = u.dict := fun _ => rfl
  rw [dark, same]
  exact raiseOpen_dict ..

theorem dark_fw (volts : Nat) (s : State) : (dark volts s).boot.fw = s.boot.fw := by
  have same : ∀ u, (darken u).boot.fw = u.boot.fw := fun _ => rfl
  rw [dark, same]
  exact EventBlind.raiseOpen (g := fun s => s.boot.fw) _ ⟨fun _ _ _ _ _ _ _ _ _ _ _ => rfl⟩ ..

theorem dark_logged (volts : Nat) (s : State) : LastLogged (dark volts s) 0x27 (pack [(8, 0), (8, 0), (16, volts)]) := by
  have same : ∀ u, (darken u).boot.log = u.boot.log := fun _ => rfl
  have said : LastLogged (saidLoss volts s) 0x27 (pack [(8, 0), (8, 0), (16, volts)]) := by
    unfold saidLoss raiseOpen
    exact lastLogged_raise _ _ _ (by simp [logged]) _
  exact lastLogged_of_log said (same _)

/-- Without 48 V every domain is off, whether the keeper goes on or not; what is stored stays. -/
theorem lose48_dark (h : s.keep.v48 = true) (volts : Nat) : Dark (lose48 volts s) ∧ (lose48 volts s).dict.stored = s.dict.stored := by
  have dict := dark_dict volts s
  have off := dark_dark volts s
  cases hv : s.keep.vaux with
  | false =>
    rw [lose48_alone h hv]
    generalize dark volts s = d at dict off
    exact ⟨off.keeperOff, congrArg (·.stored) dict⟩
  | true =>
    rw [lose48_vaux h hv]
    generalize dark volts s = d at dict off
    have stored := LoadBlind.serveOnVaux (g := fun s => s.dict.stored)
      { raised := fun _ _ _ _ _ _ _ _ _ _ _ => rfl, load := fun _ _ _ _ _ => rfl } (fun _ _ _ => rfl) (enterError 0x04 0x3100 volts d)
    exact ⟨off.serveOnVaux volts, stored.trans (congrArg (·.stored) dict)⟩

theorem v48Loss_low {v : BitVec 16} (hv : v.toNat < 380) : exec (.v48Loss v) s = .next (lose48 v.toNat s) := congrArg Host.Outcome.next (if_pos hv)

theorem v48Loss_none {v : BitVec 16} (h : s.keep.v48 = false ∨ 380 ≤ v.toNat) : exec (.v48Loss v) s = .next s := by
  by_cases hv : v.toNat < 380
  · rw [v48Loss_low hv, lose48_off (h.resolve_right (by omega))]
  · exact congrArg Host.Outcome.next (if_neg hv)

/-- The loss is logged where the record is not followed by others: a keeper that serves already raises none. -/
theorem lose48_logged (h : s.keep.v48 = true) (hv : s.keep.vaux = false ∨ s.boot.fw = true) (volts : Nat) :
    LastLogged (lose48 volts s) 0x27 (pack [(8, 0), (8, 0), (16, volts)]) := by
  have log := dark_logged volts s
  have fw := dark_fw volts s
  cases hx : s.keep.vaux with
  | false =>
    rw [lose48_alone h hx]
    generalize dark volts s = d at log
    exact lastLogged_of_log log rfl
  | true =>
    rw [lose48_vaux h hx]
    generalize dark volts s = d at log fw
    have served : (enterError 0x04 0x3100 volts d).boot.fw = true := fw.trans (hv.resolve_left (by simp [hx]))
    rw [serveOnVaux_fw served]
    exact lastLogged_of_log log rfl

/-- Of a keeper that serves already nothing but the error is entered. -/
theorem lose48_served (h : s.keep.v48 = true) (hv : s.keep.vaux = true) (hf : s.boot.fw = true) (volts : Nat) :
    (lose48 volts s).dict.vals = s.dict.vals ∧ (lose48 volts s).dict.errReg = s.dict.errReg ||| 5 := by
  have dict := dark_dict volts s
  have fw := dark_fw volts s
  rw [lose48_vaux h hv]
  generalize dark volts s = d at dict fw
  have served : (enterError 0x04 0x3100 volts d).boot.fw = true := fw.trans hf
  rw [serveOnVaux_fw served, ← dict]
  exact ⟨rfl, rfl⟩

theorem v48Return_none {v : BitVec 16} (h : s.keep.v48 = true ∨ s.keep.present = false ∨ v.toNat ≤ 400) : exec (.v48Return v) s = .next s :=
  congrArg Host.Outcome.next (if_neg fun ⟨h1, h2, h3⟩ => by
    rcases h with h | h | h
    · simp [h] at h2
    · simp [h] at h3
    · omega)

theorem v48Return_boots {v : BitVec 16} (h : s.keep.v48 = false) (hp : s.keep.present = true) (hv : 400 < v.toNat) :
    exec (.v48Return v) s = .next (raiseOpen 0x27 noSource (pack [(8, 1), (8, 0), (16, v.toNat)])
      (startBoot { s with keep := { s.keep with volts := v.toNat } })) := congrArg Host.Outcome.next (if_pos ⟨hv, h, hp⟩)

/-- A boot that has begun has begun still after an event. -/
theorem bootBegun_raiseOpen {b : State} (hb : BootBegun s b) (hr : b.boot.recovery = false) (typ source detail : Nat) :
    BootBegun s (raiseOpen typ source detail b) := by
  obtain ⟨⟨dev, mem, phys, gates, led, plan, phases, -⟩, booting, boots, v48, stored⟩ := hb
  have same : ∀ {γ : Type} {g : State → γ}, EventBlind g → g (raiseOpen typ source detail b) = g b := fun hg => hg.raiseOpen ..
  have hphases : (raiseOpen typ source detail b).boot.phases = [] :=
    (same (g := fun s => s.boot.phases) ⟨fun _ _ _ _ _ _ _ _ _ _ _ => rfl⟩).trans phases
  have hrec : (raiseOpen typ source detail b).boot.recovery = false :=
    (same (g := fun s => s.boot.recovery) ⟨fun _ _ _ _ _ _ _ _ _ _ _ => rfl⟩).trans hr
  have hdev : (raiseOpen typ source detail b).keep.dev = .boot := (same (g := fun s => s.keep.dev) ⟨fun _ _ _ _ _ _ _ _ _ _ _ => rfl⟩).trans dev
  exact ⟨⟨hdev, (raiseOpen_mem ..).trans mem, (same (g := fun s => s.units.phys) ⟨fun _ _ _ _ _ _ _ _ _ _ _ => rfl⟩).trans phys,
      (same (g := fun s => s.gates) ⟨fun _ _ _ _ _ _ _ _ _ _ _ => rfl⟩).trans gates,
      (same (g := fun s => s.led) ⟨fun _ _ _ _ _ _ _ _ _ _ _ => rfl⟩).trans led, (raiseOpen_plan ..).trans plan, hphases,
      fun d _ => domainOn_unbooted hdev hphases hrec d⟩,
    (same (g := fun s => s.boot.booting) ⟨fun _ _ _ _ _ _ _ _ _ _ _ => rfl⟩).trans booting,
    (same (g := fun s => s.boot.boots) ⟨fun _ _ _ _ _ _ _ _ _ _ _ => rfl⟩).trans boots,
    (same (g := fun s => s.keep.v48) ⟨fun _ _ _ _ _ _ _ _ _ _ _ => rfl⟩).trans v48,
    (same (g := fun s => s.dict.stored) ⟨fun _ _ _ _ _ _ _ _ _ _ _ => rfl⟩).trans stored⟩

theorem bootBegun_startBoot (s : State) : BootBegun s (startBoot s) :=
  ⟨⟨rfl, rfl, rfl, rfl, rfl, rfl, rfl, fun d _ => domainOn_unbooted rfl rfl rfl d⟩, rfl, rfl, rfl, rfl⟩

theorem presentOpen_dark (h : s.keep.v48 = true) : Completes .presentOpen s fun t =>
    DomainsOff t ∧ t.keep.v48 = false ∧ t.keep.present = false := by
  have off := (lose48_dark h s.keep.volts).1
  refine ⟨_, rfl, ?_⟩
  dsimp only
  generalize lose48 s.keep.volts s = d at off
  have dark : Dark { d with keep := { d.keep with present := false } } := ⟨off.v48, off.dev, off.mem, off.phys, off.gates, off.led, off.plan, off.phases⟩
  exact ⟨dark.off, off.v48, rfl⟩

theorem presentOpen_off (h : s.keep.v48 = false) : exec .presentOpen s = .next { s with keep := { s.keep with present := false } } := by
  show Host.Outcome.next { lose48 s.keep.volts s with keep := { (lose48 s.keep.volts s).keep with present := false } } = _
  rw [lose48_off h]

theorem vauxReturn_alone (h : s.keep.v48 = false) (hv : s.keep.vaux = false) :
    exec .vauxReturn s = .next (serveOnVaux { s with keep := { s.keep with vaux := true } }) := by
  show Host.Outcome.next (if s.keep.vaux then s else if s.keep.v48 then _ else _) = _
  rw [h, hv]
  rfl

theorem vauxReturn_fed (h : s.keep.v48 = true) (hv : s.keep.vaux = false) :
    exec .vauxReturn s = .next { s with keep := { s.keep with vaux := true } } := by
  show Host.Outcome.next (if s.keep.vaux then s else if s.keep.v48 then _ else _) = _
  rw [h, hv]
  rfl

theorem vauxLoss_fed (h : s.keep.v48 = true) : exec .vauxLoss s = .next { s with keep := { s.keep with vaux := false } } :=
  congrArg Host.Outcome.next (if_pos h)

theorem vauxLoss_alone (h : s.keep.v48 = false) : exec .vauxLoss s = .next (keeperOff { s with keep := { s.keep with vaux := false } }) :=
  congrArg Host.Outcome.next (if_neg (by simp [h]))

/-! ### Domains (R17, R18) -/

theorem allDomains_length : allDomains.length = 285 := by
  simp [allDomains, List.length_flatMap]

/-- No domain stands twice in the list. -/
theorem allDomains_nodup : allDomains.Nodup := by
  have units : ((List.finRange 72).flatMap fun p => [Domain.array p, .vector p, .lock p]).Nodup := by
    rw [List.nodup_flatMap]
    refine ⟨fun p _ => by simp, (List.nodup_finRange 72).imp fun h => ?_⟩
    simp [Function.onFun, List.disjoint_left, h]
  have each : ∀ {n : Nat} (f : Fin n → Domain), Function.Injective f → ((List.finRange n).map f).Nodup := fun f h =>
    (List.nodup_finRange _).map h
  unfold allDomains
  simp only [List.nodup_append, units, each _ (fun _ _ => Domain.clusterSwitch.inj), each _ (fun _ _ => Domain.engine.inj),
    each _ (fun _ _ => Domain.basin.inj), each _ (fun _ _ => Domain.die.inj), each _ (fun _ _ => Domain.port.inj),
    each _ (fun _ _ => Domain.group.inj), each _ (fun _ _ => Domain.farEngine.inj)]
  simp [or_imp, forall_and]
/-- In plan-loaded, running and halted a unit has power where it carries a logical unit. -/
theorem unitDomains (p : Fin 72) (hv : s.keep.v48 = true) (hd : s.keep.dev = .planLoaded ∨ s.keep.dev = .running ∨ s.keep.dev = .halted) :
    domainOn s (.lock p) = decide (logicalUnit s p < 64) ∧
    domainOn s (.array p) = (decide (logicalUnit s p < 64) && !(getUnit s p).napArr) ∧
    domainOn s (.vector p) = (decide (logicalUnit s p < 64) && !(getUnit s p).napVec) := by
  unfold domainOn unitPowered
  rw [hv]
  rcases hd with hd | hd | hd <;> rw [hd] <;> exact ⟨rfl, rfl, rfl⟩

/-! ### Cables (R460) -/

section
variable (s : State)

/-- What ends with the requests that a port carried leaves every port as it is. -/
theorem recordStreamFault_ports (unit ctx dnum stag cause addr : Nat) :
    (recordStreamFault unit ctx dnum stag cause addr s).fab.ports = s.fab.ports := by
  unfold recordStreamFault
  dsimp only
  rw [SentBlind.reportAbort (g := fun s => s.fab.ports) _ ⟨fun _ _ _ _ => rfl⟩]
  exact EventBlind.raiseOpen (g := fun s => s.fab.ports) _ ⟨fun _ _ _ _ _ _ _ _ _ _ _ => rfl⟩ ..

theorem treeFault_ports (tree cause addr : Nat) : (treeFault tree cause addr s).fab.ports = s.fab.ports := by
  have marked : ∀ t, (markLanding t true s).fab.ports = s.fab.ports := by
    intro t
    unfold markLanding
    split <;> rfl
  unfold treeFault
  dsimp only
  rw [recordStreamFault_ports]
  split
  · rfl
  · exact marked _

theorem streamFault_ports (p k cause addr : Nat) : (streamFault p k cause addr s).fab.ports = s.fab.ports := by
  unfold streamFault
  dsimp only
  rw [recordStreamFault_ports]
  split <;> rfl

theorem harvEnd_ports : (harvEnd s).fab.ports = s.fab.ports := by
  unfold harvEnd
  cases s.harv.snap <;> rfl

theorem setHarv_ports (st : Nat) : (setHarv st s).fab.ports = s.fab.ports := by
  unfold setHarv
  dsimp only
  split
  · rfl
  · obtain ⟨o, p, e⟩ := raiseVec_pba { s with harv := { s.harv with state := st } } 5
    rw [e]

theorem harvFail_ports (cause : Nat) : (harvFail cause s).fab.ports = s.fab.ports := by
  unfold harvFail
  split
  · unfold sayHarvest
    rw [EventBlind.raiseOpen (g := fun s => s.fab.ports) _ ⟨fun _ _ _ _ _ _ _ _ _ _ _ => rfl⟩, setHarv_ports, harvEnd_ports]
  · rfl

theorem failRemote_ports (r : Remote) : (failRemote r s).fab.ports = s.fab.ports := by
  have counted : (countRemoteFail (dropRemotes [r.txn] s)).fab.ports = s.fab.ports := rfl
  unfold failRemote
  dsimp only
  generalize countRemoteFail (dropRemotes [r.txn] s) = u at counted
  rw [← counted]
  split
  · exact harvFail_ports ..
  · split
    · exact treeFault_ports ..
    · split
      · rfl
      · split
        · exact streamFault_ports ..
        · rfl

theorem failPort_ports (p : Nat) : (failPort p s).fab.ports = s.fab.ports :=
  foldl_same _ (fun s => s.fab.ports) failRemote_ports _ s

end

/-- Condition and cable of a port. -/
def plug (s : State) (q : Nat) : Nat × Bool := ((getPort s q).cond, (getPort s q).cable)

theorem plug_setPort (p : Nat) (x : PortSt) (s : State) (q : Nat) : plug (setPort p x s) q = if q = p then (x.cond, x.cable) else plug s q := by
  unfold plug
  split
  · next h => rw [h, getPort_setPort_self]
  · next h => rw [getPort, setPort, Sparse.get_set_ne _ _ _ h]; rfl

theorem plug_freeQueue (p : Nat) (s : State) (q : Nat) : plug (freeQueue p s) q = plug s q := by
  have given : ∀ (s : State) (f : Option Nat) vl, plug (giveBack f vl s) q = plug s q := by
    intro s f vl
    cases f with
    | none => rfl
    | some p =>
      unfold giveBack oweCredit
      dsimp only
      rw [plug_setPort]
      split
      · next h => rw [h]; rfl
      · rfl
  unfold freeQueue
  dsimp only
  rw [foldl_same _ (fun s => plug s q) (fun s f => given s ..), plug_setPort]
  split
  · next h => rw [h]; rfl
  · rfl

/-- A port whose cable is plugged keeps its condition; one whose cable is pulled is down. -/
def plugged (present : Bool) (x : Nat × Bool) : Nat × Bool := (if present then x.1 else 1, present)

theorem plug_cablePort (p : Nat) (present : Bool) (s : State) (q : Nat) :
    plug (cablePort p present s) q = if q = p then plugged present (plug s q) else plug s q := by
  cases present with
  | true =>
    show plug (setPort p { getPort s p with cable := true } s) q = _
    rw [plug_setPort]
    split
    · next h => rw [h]; rfl
    · rfl
  | false =>
    show plug (failPort p (setPort p {} (freeQueue p s))) q = _
    have same : plug (failPort p (setPort p {} (freeQueue p s))) q = plug (setPort p {} (freeQueue p s)) q := by
      unfold plug getPort
      rw [failPort_ports]
    rw [same, plug_setPort, plug_freeQueue]
    rfl

/-- The ports of a connector. -/
theorem plug_connector (b : Nat) (present : Bool) (q : Nat) (ks : List Nat) : ∀ s,
    plug (ks.foldl (fun s k => cablePort (b + k) present s) s) q = if ∃ k ∈ ks, q = b + k then plugged present (plug s q) else plug s q := by
  induction ks with
  | nil => exact fun s => (if_neg fun ⟨_, h, _⟩ => absurd h List.not_mem_nil).symm
  | cons k ks ih =>
    intro s
    rw [List.foldl_cons, ih, plug_cablePort]
    have twice : ∀ x, plugged present (plugged present x) = plugged present x := by rintro ⟨a, b⟩; cases present <;> rfl
    by_cases hk : q = b + k
    · have mem : ∃ x ∈ k :: ks, q = b + x := ⟨k, List.mem_cons_self, hk⟩
      rw [if_pos hk, if_pos mem, twice, ite_self]
    · rw [if_neg hk]
      refine if_congr ?_ rfl rfl
      constructor
      · exact fun ⟨x, hx, e⟩ => ⟨x, List.mem_cons_of_mem _ hx, e⟩
      · exact fun ⟨x, hx, e⟩ => (List.mem_cons.1 hx).elim (fun h => absurd (h ▸ e) hk) fun hx => ⟨x, hx, e⟩

theorem cables (n : Fin 5) (present : Bool) : Completes (.cablePresenceChange n present) s fun t => ∀ q < 20,
    (getPort t q).cable = (if q / 4 = n.val then present else (getPort s q).cable) ∧
    (getPort t q).cond = (if q / 4 = n.val ∧ present = false then 1 else (getPort s q).cond) := by
  refine ⟨_, rfl, fun q _ => ?_⟩
  have plugs := plug_connector (4 * n.val) present q (List.range 4) s
  have mine : (∃ k ∈ List.range 4, q = 4 * n.val + k) ↔ q / 4 = n.val :=
    ⟨fun ⟨k, hk, e⟩ => by have := List.mem_range.1 hk; omega, fun h => ⟨q % 4, List.mem_range.2 (by omega), by omega⟩⟩
  rw [if_congr mine rfl rfl] at plugs
  have cond := congrArg Prod.fst plugs
  have cable := congrArg Prod.snd plugs
  refine ⟨cable.trans ?_, cond.trans ?_⟩
  · split <;> rfl
  · by_cases h : q / 4 = n.val
    · rw [if_pos h]
      cases present <;> simp [h, plugged, plug]
    · rw [if_neg h, if_neg fun hc => h hc.1]
      rfl

/-! ### Identify (R469) -/

theorem exec_identify {a : Access} (h : Takes s a 0x2140 2) (v : BitVec 16) : exec (.identify a v) s = .next
    (if 3600 < v.toNat then refuse a 0x2140 2 abRange s
    else reply a [] { s with keep := { s.keep with identEnd := if v = 0 then 0 else s.keep.samples + 1024 * v.toNat } }) := by
  show execIdentify a v s = _
  rw [execIdentify, actWrite_takes s h]

/-! ### The clauses -/

/-- Samples within every limit (R415). -/
theorem sample_calm {r : Readings} (hv : s.keep.v48 = true) (hr : s.fab.recAsk = []) (hc : Calm r) : Completes (.sensorSample r) s fun t =>
    t.keep.samples = s.keep.samples + 1 ∧ t.keep.volts = r.volts.toNat ∧ t.keep.inlet = r.inlet.toNat ∧ t.keep.outlet = r.outlet.toNat ∧
    (∀ n < 16, ∀ v, r.logic[n]? = some v → t.keep.logicNow.getD n 0 = v.toNat) ∧
    (∀ n < 8, ∀ v, r.stackT[n]? = some v → t.keep.stackNow.getD n 0 = v.toNat) ∧
    t.keep.mr4 = r.mr4.map (·.toNat) ∧ Counted s t 0x2120 1 r.wakes ∧ Counted s t 0x2120 2 r.awake ∧
    Sparse.get 0 t.stat.run (ekey 0x2118 1) = Sparse.get 0 s.stat.run (ekey 0x2118 1) + r.overruns ∧
    t = { s with keep := t.keep, mem := { s.mem with rowErr := t.mem.rowErr }, stat := { s.stat with run := t.stat.run, boot := t.stat.boot } } := by
  have on : keeperOn s = true := by simp [keeperOn, hv]
  have counts := sampleCounted_counts r s
  obtain ⟨run, boot, e₁⟩ : ∃ run boot, sampleCounted r s =
    { s with keep := { s.keep with samples := s.keep.samples + 1 }, stat := { s.stat with run := run, boot := boot } } := ⟨_, _, rfl⟩
  obtain ⟨rows, e₂⟩ : ∃ rows, scrubPeriod (sampleCounted r s) =
    { sampleCounted r s with mem := { (sampleCounted r s).mem with rowErr := rows } } := ⟨_, rfl⟩
  obtain ⟨M, M', e⟩ := sampleAll_calm hc (scrubPeriod (sampleCounted r s))
  have ex := sensorSample_on on hr r
  rw [hv, if_pos rfl, e, e₂, e₁] at ex
  rw [e₁] at counts
  obtain ⟨wakes, awake, overruns⟩ := counts
  refine ⟨_, ex, rfl, rfl, rfl, rfl, fun n hn v hl => ?_, fun n hn v hl => ?_, rfl, wakes, awake, overruns, rfl⟩
  · exact getD_sampled hl _ _ (.inl ⟨⟨n, hn⟩, List.mem_finRange _, rfl⟩)
  · exact getD_sampled hl _ _ (.inl ⟨⟨n, hn⟩, List.mem_finRange _, rfl⟩)

/-- A sample on 3.3 Vaux alone. -/
theorem sample_vaux {r : Readings} (hv : s.keep.v48 = false) (hx : s.keep.vaux = true) (hr : s.fab.recAsk = []) :
    Completes (.sensorSample r) s fun t =>
      t = { s with keep := { s.keep with samples := s.keep.samples + 1, volts := r.volts.toNat }, stat := t.stat } := by
  have ex := sensorSample_on (by simp [keeperOn, hx] : keeperOn s = true) hr r
  rw [hv, if_neg Bool.false_ne_true] at ex
  exact ⟨_, ex, rfl⟩

/-- The limits of a logic sensor and of the I/O die (R419). -/
theorem logic_limits (n : Fin 16) (v : BitVec 8) (hv : s.keep.v48 = true) :
    (110 ≤ v.toNat → v.toNat < 120 → s.keep.forced.contains (n.val / 4) = false → Completes (.limitCrossing (.logic n) v) s fun t =>
      t.keep.forced = s.keep.forced ++ [n.val / 4] ∧ Raised 0x21 (n.val / 4) v.toNat s t ∧ t.mem = s.mem ∧ t.units = s.units) ∧
    (120 ≤ v.toNat → s.keep.tripped = false → Trips (.thermalTrip (.logic n) v) s v.toNat ∧ Trips (.thermalTrip .iodie v) s v.toNat ∧
      Trips (.limitCrossing (.logic n) v) s v.toNat ∧ Trips (.limitCrossing .iodie v) s v.toNat) ∧
    (120 ≤ v.toNat → s.keep.tripped = true → Completes (.thermalTrip (.logic n) v) s fun t =>
      t = { s with keep := t.keep } ∧ t.keep.tripped = true) ∧
    (v.toNat < 120 → exec (.thermalTrip (.logic n) v) s = .next s) := by
  refine ⟨fun h1 h2 hf => ?_, fun h ht => ?_, fun h ht => ?_, fun h => thermalTrip_below (.inr h)⟩
  · obtain ⟨M, e⟩ := takeSample_drops (s := s) n h1 h2
    have new : (putLogic (putAt s.keep.logicNow n.val v.toNat) M s).keep.forced.contains (n.val / 4) = false := hf
    obtain ⟨keep, raised, mem, units⟩ := forceDrop_new new 0x21 (pack [(8, v.toNat), (1, 0)])
    refine ⟨_, (limitCrossing_on hv ..).trans (congrArg _ e), by rw [keep]; rfl, ?_, mem, units⟩
    have small := v.isLt
    have detail : pack [(8, v.toNat), (1, 0)] = v.toNat := by
      simp only [pack]
      omega
    rw [detail] at raised ⊢
    exact raised
  · obtain ⟨M, e⟩ := takeSample_trips (s := s) n h
    have trips : ∀ c, exec c s = .next (takeSample (.logic n) v.toNat s) → Trips c s v.toNat := by
      intro c ex
      rw [e] at ex
      exact trips_of_exec ex ⟨rfl, rfl, rfl, rfl, rfl⟩ rfl ht rfl
    have tripsIo : ∀ c, exec c s = .next (takeSample .iodie v.toNat s) → Trips c s v.toNat := by
      intro c ex
      rw [takeSample_iodie_trips h] at ex
      exact trips_of_exec ex ⟨rfl, rfl, rfl, rfl, rfl⟩ rfl ht rfl
    exact ⟨trips _ (thermalTrip_logic hv h n), tripsIo _ (thermalTrip_iodie hv h), trips _ (limitCrossing_on hv ..), tripsIo _ (limitCrossing_on hv ..)⟩
  · obtain ⟨M, e⟩ := takeSample_trips (s := s) n h
    have ex := (thermalTrip_logic hv h n).trans (congrArg Host.Outcome.next e)
    rw [trip_again (s := putLogic (putAt s.keep.logicNow n.val v.toNat) M s) ht] at ex
    exact ⟨_, ex, rfl, ht⟩

/-- The average over the limit and within it (R420). -/
theorem powerAverage_spec (w : BitVec 16) : (s.keep.v48 = false → exec (.powerAverage w) s = .next s) ∧
    (s.keep.v48 = true → w.toNat ≤ num s 0x2104 1 → Completes (.powerAverage w) s fun t =>
      t.keep.watts = w.toNat ∧ t.keep.forced = s.keep.forced ∧ t.mem = s.mem ∧ t.units = s.units ∧ t.host = s.host) ∧
    (∀ d, s.keep.v48 = true → num s 0x2104 1 < w.toNat → diesOn s = true → hottestDie s = some d →
      Completes (.powerAverage w) s fun t => t.keep.watts = w.toNat ∧ t.keep.forced = s.keep.forced ++ [d] ∧
        Raised 0x23 d w.toNat s t ∧ t.mem = s.mem ∧ t.units = s.units) := by
  obtain ⟨p, r, e⟩ := keepWatts_frame w.toNat s
  refine ⟨fun h => powerAverage_off h w, fun h hw => ⟨_, (powerAverage_within h hw).trans (congrArg _ e), rfl, rfl, rfl, rfl, rfl⟩,
    fun d h hw hd hh => ?_⟩
  have new : (keepWatts w.toNat s).keep.forced.contains d = false := by rw [e]; exact hottestDie_new hh
  obtain ⟨keep, raised, mem, units⟩ := forceDrop_new new 0x23 w.toNat
  have ex := powerAverage_above h hw hd hh
  rw [e] at keep raised mem units ex
  exact ⟨_, ex, by rw [keep], by rw [keep], raised, mem, units⟩

/-- Sleep and wake by request (R422, R423). -/
theorem sleepWakeRequest {a : Access} (h : Takes s a 0x2100 1) :
    (maySleep s = true → Completes (.sleepRequest a 1) s fun t => Sleeps s t ∧ .usdo a [] ∈ t.out) ∧
    (maySleep s = false → Refused (.sleepRequest a 1) a 0x2100 1 0x08000022 s) ∧
    (s.keep.dev = .asleep → s.dict.awaiting = [] → Completes (.wakeRequest a 0) s fun t => Woken s t 1 ∧ .usdo a [] ∈ t.out) ∧
    (s.keep.dev ≠ .asleep → Completes (.wakeRequest a 0) s fun t => t.out = s.out ++ [.usdo a []] ∧ t.dict = s.dict ∧ OnlyDict s t) := by
  have answered := reply_served s h.1 []
  have said : .usdo a [] ∈ (reply a [] s).out := answered ▸ List.mem_append_right _ List.mem_cons_self
  refine ⟨fun hm => ?_, fun hm => ?_, fun hd ha => ?_, fun hd => ?_⟩
  · exact ⟨_, (exec_sleepRequest h).trans (congrArg _ (if_pos hm)), enterSleep_reply .., mem_out_enterSleep said _⟩
  · exact refused_of_exec s h.1 ((exec_sleepRequest h).trans (congrArg _ (if_neg (by simp [hm]))))
  · refine ⟨_, exec_wakeRequest h, wake_reply hd ha 1 a, ?_⟩
    rw [wake_idle (by rw [reply_keep]; exact hd) (by rw [reply_dict]; exact ha)]
    refine mem_out_reloadUnits (mem_out_raiseOpen ?_ ..)
    exact said
  · refine ⟨_, (exec_wakeRequest h).trans (congrArg _ (wake_awake (by rw [reply_keep]; exact hd) 1)), answered, reply_dict .., ?_⟩
    obtain ⟨os, b, e⟩ : ∃ os b, reply a [] s = _ := respond_frame s a 1 _
    rw [e]
    rfl

/-- 48 V falls and returns (R424, R454). -/
theorem v48_spec (v : BitVec 16) :
    (s.keep.v48 = true → v.toNat < 380 → Completes (.v48Loss v) s fun t => DomainsOff t ∧ t.keep.v48 = false ∧
      t.dict.stored = s.dict.stored ∧
      ((s.keep.vaux = false ∨ s.boot.fw = true) → LastLogged t 0x27 (pack [(8, 0), (8, 0), (16, v.toNat)])) ∧
      (s.keep.vaux = true → t.out.getLast? = some (.heartbeat 0)) ∧
      (s.keep.vaux = true → s.boot.fw = true → t.dict.vals = s.dict.vals ∧ t.dict.errReg = s.dict.errReg ||| 5)) ∧
    ((s.keep.v48 = false ∨ 380 ≤ v.toNat) → exec (.v48Loss v) s = .next s) ∧
    (s.keep.v48 = false → s.keep.present = true → 400 < v.toNat → Completes (.v48Return v) s fun t => BootBegun s t ∧
      LastLogged t 0x27 (pack [(8, 1), (8, 0), (16, v.toNat)])) ∧
    ((s.keep.v48 = true ∨ s.keep.present = false ∨ v.toNat ≤ 400) → exec (.v48Return v) s = .next s) := by
  refine ⟨fun h hv => ?_, v48Loss_none, fun h hp hv => ?_, v48Return_none⟩
  · obtain ⟨off, stored⟩ := lose48_dark h v.toNat
    exact ⟨_, v48Loss_low hv, off.off, off.v48, stored, fun hx => lose48_logged h hx _,
      fun hx => by rw [lose48_vaux h hx]; exact serveOnVaux_heartbeat _, fun hx hf => lose48_served h hx hf _⟩
  · have begun : BootBegun s (startBoot { s with keep := { s.keep with volts := v.toNat } }) := bootBegun_startBoot _
    refine ⟨_, v48Return_boots h hp hv, bootBegun_raiseOpen begun rfl .., ?_⟩
    unfold raiseOpen
    exact lastLogged_raise _ _ _ (by simp [logged]) _

/-- 3.3 Vaux returns and is lost (R421, R457). -/
theorem vaux_spec (s : State) : (s.keep.v48 = true → exec .vauxLoss s = .next { s with keep := { s.keep with vaux := false } } ∧
      (s.keep.vaux = false → exec .vauxReturn s = .next { s with keep := { s.keep with vaux := true } })) ∧
    (s.keep.v48 = false → s.keep.vaux = false → Completes .vauxReturn s fun t => t.keep = { s.keep with vaux := true } ∧
      (s.boot.fw = false → LoadsStored s t) ∧ t.out.getLast? = some (.heartbeat 0)) ∧
    (s.keep.v48 = false → Completes .vauxLoss s fun t => t.dict = { stored := s.dict.stored } ∧ t.keep = { present := s.keep.present } ∧
      t.boot = { s.boot with fw := false } ∧ t.out = s.out) := by
  refine ⟨fun h => ⟨vauxLoss_fed h, vauxReturn_fed h⟩, fun h hv => ⟨_, vauxReturn_alone h hv, ?_, fun hf => ?_, serveOnVaux_heartbeat _⟩,
    fun h => ⟨_, vauxLoss_alone h, rfl, rfl, rfl, rfl⟩⟩
  · exact LoadBlind.serveOnVaux (g := State.keep)
      { raised := fun _ _ _ _ _ _ _ _ _ _ _ => rfl, load := fun _ _ _ _ _ => rfl } (fun _ _ _ => rfl) _
  · exact loadsStored_serveOnVaux hf ⟨rfl, rfl, rfl, rfl, rfl⟩

/-- Settles O59, clause by clause. -/
theorem keeperPowerAndCard : Obligations.KeeperPowerAndCard := by
  unfold Obligations.KeeperPowerAndCard
  refine ⟨fun s r h => sensorSample_dead h r, fun s r => sample_vaux, fun s r hv hr h1 h2 h3 h4 h5 => sample_calm hv hr ⟨h1, h2, h3, h4, h5⟩,
    fun s n v hv => logic_limits n v hv, fun s n v => thermalTrip_stack n v,
    fun s x v h => ⟨limitCrossing_off h x v, thermalTrip_below (.inl h)⟩, fun s w => powerAverage_spec w,
    fun s => ⟨idleEvaluation_none, idleEvaluation_spec⟩, fun s a => sleepWakeRequest,
    fun s => ⟨fun h hm => ⟨_, congrArg Host.Outcome.next (if_pos ⟨h, hm⟩), enterSleep_sleeps ..⟩,
      fun h => congrArg Host.Outcome.next (if_neg fun ⟨h1, h2⟩ => h.elim h1 (by simp [h2]))⟩,
    fun s => ⟨fun hd ha => ⟨⟨_, rfl, wake_spec hd ha 2⟩, congrArg Host.Outcome.next (if_pos hd)⟩,
      fun hd => ⟨congrArg Host.Outcome.next (wake_awake hd 2), congrArg Host.Outcome.next (if_neg hd)⟩⟩,
    fun s hd hi => ⟨_, rfl, wake_idleParts hd hi 2⟩, fun s v => v48_spec v,
    fun s => ⟨presentOpen_dark, presentOpen_off, rfl⟩, vaux_spec,
    ⟨allDomains_length, allDomains_nodup, fun s d h => domainOn_off h d, fun s p => unitDomains p⟩, fun s n pr => cables n pr,
    fun s => ⟨fun h => congrArg Host.Outcome.next (if_pos h), fun h => congrArg Host.Outcome.next (if_neg (by simp [h])), rfl, rfl⟩,
    fun s a v h => ⟨fun hv => ?_, fun hv => refused_of_exec s h.1 ((exec_identify h v).trans (congrArg _ (if_pos hv)))⟩⟩
  have zero : (v = 0) = (v.toNat = 0) := propext (BitVec.toNat_inj (y := 0)).symm
  have ex := (exec_identify h v).trans (congrArg Host.Outcome.next (if_neg (Nat.not_lt.2 hv)))
  obtain ⟨os, b, e⟩ : ∃ os b, reply a [] { s with keep := { s.keep with identEnd := if v = 0 then 0 else s.keep.samples + 1024 * v.toNat } } = _ :=
    respond_frame _ a 1 _
  have answered := reply_served { s with keep := { s.keep with identEnd := if v = 0 then 0 else s.keep.samples + 1024 * v.toNat } } h.1 []
  refine ⟨_, ex, answered, ?_⟩
  rw [e]
  simp only [zero]

end Sys2Proof.Machine
end

section
/-! SUPPORT. What the writes to device memory, and the engines' reads and writes, leave alone (R226 to R257, R472). -/

namespace Sys2Proof.Machine

open Sys2Proof.Claims

/-- The counts since boot that memory adds to: dropped events, damaged barges, broken snapshots, writes to an active plan area. -/
def memCounts : List Nat := [ekey 0x2404 2, ekey 0x3018 1, ekey 0x302A 3, ekey 0x3884 1]

/-- A property that a write to device memory cannot end: one that does not speak of the memory but its refresh rates, of the state of
the plan areas, of events and of what memory counts, and that more output does not end. -/
structure MemClosed (P : State → Prop) : Prop where
  kept : ∀ s o mem a b ev pba lost rst w l n run es bt fr, mem.refresh = s.mem.refresh →
    (∀ x, x ∉ memCounts → Sparse.get 0 bt x = Sparse.get 0 s.stat.boot x) → P s →
    P { s with out := s.out ++ o, mem := mem, plan := { s.plan with area0 := a, area1 := b }
               host := { s.host with events := ev, pba := pba, lost := lost, lostRst := rst, winst := w }
               boot := { s.boot with log := l, logSeq := n }, stat := { s.stat with run := run, eseq := es, boot := bt }, free := fr }

/-- A property that every step of a fold keeps holds after it. -/
theorem closed_foldl {P : State → Prop} {α : Type} {f : State → α → State} (hf : ∀ s a, P s → P (f s a)) (xs : List α) :
    ∀ s, P s → P (xs.foldl f s) := by
  induction xs with
  | nil => exact fun _ hs => hs
  | cons a xs ih => exact fun s hs => ih _ (hf s a hs)

theorem closed_foldlFst {P : State → Prop} {α β : Type} {f : State × β → α → State × β} (hf : ∀ p a, P p.1 → P (f p a).1) (xs : List α) :
    ∀ p, P p.1 → P (xs.foldl f p).1 := by
  induction xs with
  | nil => exact fun _ hp => hp
  | cons a xs ih => exact fun p hp => ih _ (hf p a hp)

theorem closed_pair {P : State → Prop} {α : Type} {s : State} {x : α} (hs : P s) : P (s, x).1 := hs

theorem closed_out {P : State → Prop} {r q : MemOut} (hr : P r.state) (e : r = q) : P q.state := e ▸ hr

theorem closed_iteOut {P : State → Prop} {c : Prop} [Decidable c] {r q : MemOut} (hr : P r.state) (hq : P q.state) :
    P (if c then r else q).state := by
  split
  · exact hr
  · exact hq

theorem closed_ite {P : State → Prop} {c : Prop} [Decidable c] {s t : State} (hs : P s) (ht : P t) : P (if c then s else t) := by
  split
  · exact hs
  · exact ht

theorem closed_ok {P : State → Prop} {s : State} {bs : Bytes} (hs : P s) : P (MemOut.ok s bs).state := hs

theorem closed_notBacked {P : State → Prop} {s : State} (hs : P s) : P (MemOut.notBacked s).state := hs

theorem closed_failed {P : State → Prop} {s : State} (hs : P s) : P (MemOut.failed s).state := hs

namespace MemClosed

variable {P : State → Prop} (h : MemClosed P) {s : State}
include h

theorem counts {run bt} (hb : ∀ x, x ∉ memCounts → Sparse.get 0 bt x = Sparse.get 0 s.stat.boot x) (hs : P s) :
    P { s with stat := { s.stat with run := run, boot := bt } } := by
  have kept := h.kept s [] s.mem s.plan.area0 s.plan.area1 s.host.events s.host.pba s.host.lost s.host.lostRst s.host.winst
    s.boot.log s.boot.logSeq run s.stat.eseq bt s.free rfl hb hs
  rw [List.append_nil] at kept
  exact kept

theorem countRun {idx sub n : Nat} (hs : P s) : P (countRun idx sub n s) := h.counts (bt := s.stat.boot) (fun _ _ => rfl) hs

theorem countBoot {idx sub n : Nat} (hm : ekey idx sub ∈ memCounts) (hs : P s) : P (countBoot idx sub n s) :=
  h.counts (run := s.stat.run) (fun x hx => by
    have other : x ≠ ekey idx sub := fun e => hx (e ▸ hm)
    rw [Sparse.get_modify, if_neg other]) hs

theorem mem {m} (hm : m.refresh = s.mem.refresh) (hs : P s) : P { s with mem := m } := by
  have kept := h.kept s [] m s.plan.area0 s.plan.area1 s.host.events s.host.pba s.host.lost s.host.lostRst s.host.winst
    s.boot.log s.boot.logSeq s.stat.run s.stat.eseq s.stat.boot s.free hm (fun _ _ => rfl) hs
  rw [List.append_nil] at kept
  exact kept

theorem raise {typ sev source detail : Nat} (hs : P s) : P (raise typ sev source detail s) := by
  obtain ⟨o, ev, pba, lost, rst, l, n, b, hb, e⟩ := raise_eq s typ sev source detail
  rw [e]
  exact h.kept s o s.mem s.plan.area0 s.plan.area1 ev pba lost rst s.host.winst l n s.stat.run _ b s.free rfl
    (fun x hx => hb x fun e => hx (e ▸ List.mem_cons_self)) hs

theorem raiseOpen {typ source detail : Nat} (hs : P s) : P (raiseOpen typ source detail s) := h.raise hs

theorem setBarge {b : Nat} {e : BargeEnt} (hs : P s) : P (setBarge b e s) := h.mem rfl hs

theorem setArea {area st : Nat} (hs : P s) : P (setArea area st s) := by
  have kept := fun a b => h.kept s [] s.mem a b s.host.events s.host.pba s.host.lost s.host.lostRst s.host.winst
    s.boot.log s.boot.logSeq s.stat.run s.stat.eseq s.stat.boot s.free rfl (fun _ _ => rfl) hs
  rw [List.append_nil] at kept
  unfold Machine.setArea
  split
  · exact kept st s.plan.area1
  · exact kept s.plan.area0 st

/-! ### Reads -/

theorem recordDamage {addr : Nat} {resv : Bool} {cause : Nat} {pond : Bool} (hs : P s) : P (recordDamage addr resv cause pond s) :=
  h.raiseOpen (h.countBoot (by simp [memCounts]) (h.mem rfl hs))

theorem failRequest {a cause : Nat} (hs : P s) : P (failRequest a cause s) := h.recordDamage (h.countRun hs)

theorem failPond {cause : Nat} (hs : P s) : P (failPond cause s) := h.recordDamage (h.countRun hs)

theorem readDev {addr n : Nat} (hs : P s) : P (readDev addr n .clean s).state := by
  unfold Machine.readDev
  split
  · exact closed_notBacked (h.countRun hs)
  split
  · exact closed_failed (h.failRequest hs)
  · dsimp only [applyEcc]
    split
    · exact closed_failed (h.failRequest hs)
    · exact closed_ok (closed_ite hs (h.countRun hs))

/-! ### Snapshots -/

theorem pondWrite {off n : Nat} {put : State → State} (hp : ∀ s, P s → P (put s)) (hs : P s) : P (pondWrite off n put s) :=
  closed_ite (h.failPond hs) (closed_ite (hp s hs) (closed_ite (hp _ (h.mem rfl hs)) (h.failPond hs)))

theorem breakSnap {k : Nat} (hs : P s) : P (breakSnap k s) := by
  have dropped : P (dropSnapCopies k (setSnap k { getSnap s k with state := 3 } s)) := h.mem rfl (h.mem rfl hs)
  refine h.raiseOpen (h.countBoot (by simp [memCounts]) ?_)
  generalize dropSnapCopies k (setSnap k { getSnap s k with state := 3 } s) = u at dropped
  have told := h.kept u [] u.mem u.plan.area0 u.plan.area1 u.host.events u.host.pba u.host.lost u.host.lostRst 3
    u.boot.log u.boot.logSeq u.stat.run u.stat.eseq u.stat.boot u.free rfl (fun _ _ => rfl) dropped
  rw [List.append_nil] at told
  exact closed_ite told dropped

theorem makeRoom {n : Nat} (hs : P s) : P (makeRoom n s) := by
  fun_induction Machine.makeRoom n s with
  | case1 => exact hs
  | case2 => exact hs
  | case3 _ _ _ _ _ ih => exact ih (h.breakSnap hs)
  | case4 => exact hs

theorem placeCopy {page slot : Nat} {ks : List Nat} (hs : P s) : P (placeCopy page slot ks s) := by
  have put : P (Machine.pondWrite (pondCow s slot 0) 65536 id s) := h.pondWrite (fun _ hs => hs) hs
  unfold Machine.placeCopy
  refine h.mem rfl ?_
  split
  · exact put
  · exact h.recordDamage put

theorem cowPage {page : Nat} (hs : P s) : P (cowPage s page) :=
  closed_ite hs (closed_ite hs (closed_ite (h.makeRoom hs) (h.placeCopy (h.countRun (h.makeRoom hs)))))

/-! ### Writes -/

theorem zeroFill {b : Nat} (hs : P s) : P (zeroFill s b) := by
  unfold Machine.zeroFill
  exact closed_ite (h.setBarge (h.mem rfl hs)) hs

theorem copyChunks {src dst n k : Nat} (hs : P s) : P (copyChunks src dst n k s).2 := by
  fun_induction Machine.copyChunks src dst n k s with
  | case1 => exact hs
  | case2 => exact hs
  | case3 _ _ _ _ ih => exact ih (h.countRun (h.mem rfl hs))

theorem copyTo {b k : Nat} (hs : P s) : P (copyTo b k s) := by
  unfold Machine.copyTo
  split
  · exact hs
  · exact h.mem rfl (h.copyChunks hs)

theorem meetCopy {addr n b : Nat} (hs : P s) : P (meetCopy addr n b s) := by
  unfold Machine.meetCopy
  split
  · exact hs
  · refine h.copyTo ?_
    have kept := h.kept s [] s.mem s.plan.area0 s.plan.area1 s.host.events s.host.pba s.host.lost s.host.lostRst s.host.winst
      s.boot.log s.boot.logSeq s.stat.run s.stat.eseq s.stat.boot (s.free + 1) rfl (fun _ _ => rfl) hs
    rw [List.append_nil] at kept
    exact kept

theorem touchDirty {addr n b : Nat} (hs : P s) : P (touchDirty addr n s b) := by
  unfold Machine.touchDirty
  exact closed_ite (h.setBarge hs) hs

theorem storeBytes {a : Nat} {bs : Bytes} (hs : P s) : P (storeBytes a bs s) := by
  fun_induction Machine.storeBytes a bs s with
  | case1 => exact hs
  | case2 _ _ _ _ ih => exact ih (h.mem rfl hs)

/-- Pages are copied for snapshots, zeros filled in and copies under way met before bytes are stored. -/
theorem storeReady {addr n : Nat} (hs : P s) : P ((bargesOf addr n).foldl (fun s b => Machine.meetCopy addr n b s)
    ((bargesOf addr n).foldl Machine.zeroFill ((pagesOf addr n).foldl Machine.cowPage s))) := by
  have room := closed_foldl (P := P) (f := Machine.cowPage) (fun _ _ => h.cowPage) (pagesOf addr n) s hs
  have filled := closed_foldl (P := P) (f := Machine.zeroFill) (fun _ _ => h.zeroFill) (bargesOf addr n) _ room
  exact closed_foldl (P := P) (f := fun s b => Machine.meetCopy addr n b s) (fun _ _ => h.meetCopy) (bargesOf addr n) _ filled

/-- Bytes are stored, and their blocks are whole again. -/
theorem storeWhole {whole : List Nat} {addr : Nat} {bs : Bytes} (hs : P s) :
    P (Machine.storeBytes addr bs { s with mem := { s.mem with badBlk := s.mem.badBlk.filter fun k => !whole.contains k } }) :=
  h.storeBytes (h.mem rfl hs)

theorem touchAll {addr n : Nat} (bs : List Nat) (hs : P s) : P (bs.foldl (Machine.touchDirty addr n) s) :=
  closed_foldl (P := P) (f := Machine.touchDirty addr n) (fun _ _ => h.touchDirty) bs s hs

theorem storePart {addr : Nat} {bs : Bytes} (hs : P s) : P (storePart addr bs s) := by
  unfold Machine.storePart
  exact h.touchAll _ (h.storeWhole (h.storeReady hs))

theorem writeFrames {addr : Nat} {bs : Bytes} (hs : P s) : P (writeFrames addr bs s).state := by
  unfold Machine.writeFrames
  dsimp only
  split
  · exact closed_failed (h.failRequest hs)
  split
  · exact closed_failed (h.failRequest hs)
  · exact closed_ok (h.storePart hs)

theorem writePart {addr : Nat} {bs : Bytes} (hs : P s) : P (writePart addr bs s).state := by
  unfold Machine.writePart
  refine closed_iteOut (closed_ok hs) (closed_iteOut (closed_notBacked (h.countRun hs)) ?_)
  split
  · refine closed_iteOut (closed_ok (h.raiseOpen (h.countBoot (by simp [memCounts]) hs))) ?_
    split
    · next e => exact closed_ok (h.setArea (closed_out (h.writeFrames hs) e))
    · exact h.writeFrames hs
  · exact h.writeFrames hs

theorem writeCuts {cs : List Nat} {a : Nat} {bs : Bytes} (hs : P s) : P (writeCuts cs a bs s).state := by
  fun_induction Machine.writeCuts cs a bs s with
  | case1 => exact h.writePart hs
  | case2 _ _ _ _ _ _ _ _ e ih => exact ih (closed_out (h.writePart hs) e)
  | case3 => exact h.writePart hs
  | case4 _ _ _ _ _ _ ih => exact ih hs

theorem writeDev {addr : Nat} {bs : Bytes} (hs : P s) : P (writeDev addr bs s).state := h.writeCuts hs

theorem pokeDev {addr : Nat} {bs : Bytes} (hs : P s) : P (pokeDev addr bs s) := h.writeDev hs

end MemClosed

/-! ### Views -/

variable {β : Type} {g : State → β}

/-- A view that does not see what a write to device memory leaves: the memory and the state of the plan areas, events, and counts. -/
structure MemBlind (g : State → β) : Prop where
  kept : ∀ s o mem a b ev pba lost rst w l n run es bt fr, (∀ x, x ∉ memCounts → Sparse.get 0 bt x = Sparse.get 0 s.stat.boot x) →
    g { s with out := s.out ++ o, mem := mem, plan := { s.plan with area0 := a, area1 := b }
               host := { s.host with events := ev, pba := pba, lost := lost, lostRst := rst, winst := w }
               boot := { s.boot with log := l, logSeq := n }, stat := { s.stat with run := run, eseq := es, boot := bt }, free := fr } = g s

/-- The view of an answer once it is named. -/
theorem view_fst {α : Type} {p : State × α} {t : State} {x : α} (e : p = (t, x)) : g t = g p.1 := by rw [e]

theorem view_pair {α : Type} {t u : State} {x : α} (ht : g t = g u) : g (t, x).1 = g u := ht

theorem view_out {r q : MemOut} (e : r = q) : g q.state = g r.state := by rw [e]

theorem view_iteFst {α : Type} {c : Prop} [Decidable c] {p q : State × α} {u : State} (hp : g p.1 = g u) (hq : g q.1 = g u) :
    g (if c then p else q).1 = g u := by
  split
  · exact hp
  · exact hq

namespace MemBlind

variable (h : MemBlind g)
include h

/-- What such a view shows is a property that no write ends. -/
theorem closed (x : β) : MemClosed fun s => g s = x where
  kept _ _ _ _ _ _ _ _ _ _ _ _ _ _ _ _ _ hb hs := (h.kept _ _ _ _ _ _ _ _ _ _ _ _ _ _ _ _ hb).trans hs

theorem countBoot (s : State) {idx sub : Nat} (hm : ekey idx sub ∈ memCounts) (n : Nat) : g (countBoot idx sub n s) = g s :=
  (h.closed _).countBoot hm rfl

theorem mem (s : State) (m) : g { s with mem := m } = g s := by
  have kept := h.kept s [] m s.plan.area0 s.plan.area1 s.host.events s.host.pba s.host.lost s.host.lostRst s.host.winst
    s.boot.log s.boot.logSeq s.stat.run s.stat.eseq s.stat.boot s.free fun _ _ => rfl
  rw [List.append_nil] at kept
  exact kept

theorem read : ReadBlind g where
  raised s o ev pba lost rst l n e b hb := h.kept s o s.mem s.plan.area0 s.plan.area1 ev pba lost rst s.host.winst l n s.stat.run e b s.free
    fun x hx => hb x fun e => hx (e ▸ List.mem_cons_self)
  damage s _ _ _ _ _ _ := h.mem s _
  counted _ _ := (h.closed _).counts (fun _ _ => rfl) rfl
  damaged s n := h.countBoot s (by simp [memCounts]) n

variable (s : State)

theorem writeDev (addr : Nat) (bs : Bytes) : g (writeDev addr bs s).state = g s := (h.closed _).writeDev rfl

theorem writeDev_sealed : ∃ f, Machine.writeDev = f ∧ ∀ addr bs s, g (f addr bs s).state = g s := ⟨_, rfl, fun addr bs s => h.writeDev s addr bs⟩

theorem pokeDev (addr : Nat) (bs : Bytes) : g (pokeDev addr bs s) = g s := (h.closed _).pokeDev rfl

theorem pokeRanges (rs : List (Nat × Nat)) (bs : Bytes) : g (pokeRanges rs bs s) = g s := by
  fun_induction Machine.pokeRanges rs bs s with
  | case1 => rfl
  | case2 _ _ _ _ ih => exact ih.trans (h.pokeDev ..)

theorem rebuildWork (lt : LayerTab) (e : LayerEnt) : g (rebuildWork lt e s) = g s := by
  unfold Machine.rebuildWork
  refine foldl_same _ g (fun s t => ?_) _ s
  split
  · next e => exact (view_out e).trans (h.read.readDev ..)
  · next e => exact (view_out e).trans (h.read.readDev ..)
  · next e => exact (h.pokeDev ..).trans ((view_out e).trans (h.read.readDev ..))

/-! ### Engine operations (R472) -/

theorem readAreas (xs : List Area) : g (readAreas xs .clean s).1 = g s := by
  generalize hf : Machine.readAreas = f
  delta Machine.readAreas Machine.readAreas._f at hf
  obtain ⟨rd, e, read⟩ := h.read.readDev_sealed
  rw [e] at hf
  subst hf
  induction xs generalizing s with
  | nil => rfl
  | cons x xs ih =>
    cases x with
    | pend a n =>
      dsimp only
      split
      · exact h.read.failPond ..
      split
      · next e => exact (view_fst e).trans (ih s)
      · next e => exact (view_fst e).trans (ih s)
    | dev a n =>
      dsimp only
      split
      · next e =>
        have first : g _ = g s := (view_out e).trans (read s a n)
        split
        · next e => exact (view_fst e).trans ((ih _).trans first)
        · next e => exact (view_fst e).trans ((ih _).trans first)
      · next e => exact (view_out e).trans (read s a n)
      · next e => exact (view_out e).trans (read s a n)

theorem readAreas_sealed : ∃ f, Machine.readAreas = f ∧ ∀ xs s, g (f xs .clean s).1 = g s := ⟨_, rfl, fun xs s => h.readAreas s xs⟩

theorem writeAreas (xs : List (Nat × Bytes)) : g (writeAreas xs s).1 = g s := by
  generalize hf : Machine.writeAreas = f
  delta Machine.writeAreas Machine.writeAreas._f at hf
  obtain ⟨wr, e, write⟩ := h.writeDev_sealed
  rw [e] at hf
  subst hf
  induction xs generalizing s with
  | nil => rfl
  | cons x xs ih =>
    dsimp only
    split
    · next e => exact (ih _).trans ((view_out e).trans (write ..))
    · next e => exact (view_out e).trans (write ..)
    · next e => exact (view_out e).trans (write ..)

theorem writeAreas_sealed : ∃ f, Machine.writeAreas = f ∧ ∀ xs s, g (f xs s).1 = g s := ⟨_, rfl, fun xs s => h.writeAreas s xs⟩

theorem sumTensors (shadow : Bool) (l : Int) (ts : List TensorEnt) (a : GradSum) : g (sumTensors shadow l ts a .clean s).1 = g s := by
  generalize hc : Ecc.clean = ecc
  fun_induction Machine.sumTensors shadow l ts a ecc s with
  | case1 => rfl
  | case2 _ _ _ _ _ _ e => subst hc; exact (view_fst e).trans (h.readAreas ..)
  | case3 _ _ _ _ _ _ _ e _ _ _ _ _ e₂ => subst hc; exact (view_fst e₂).trans ((h.writeAreas ..).trans ((view_fst e).trans (h.readAreas ..)))
  | case4 _ _ _ _ _ _ _ e _ _ _ _ _ e₂ ih =>
    subst hc
    exact (ih rfl).trans ((view_fst e₂).trans ((h.writeAreas ..).trans ((view_fst e).trans (h.readAreas ..))))

theorem sumTensors_sealed : ∃ f, Machine.sumTensors = f ∧ ∀ shadow l ts a s, g (f shadow l ts a .clean s).1 = g s :=
  ⟨_, rfl, fun shadow l ts a s => h.sumTensors s shadow l ts a⟩

theorem readRec (lt : LayerTab) (k : Nat) : g (readRec lt k s).1 = g s := by
  generalize hp : Machine.readRec lt k s = p
  generalize hf : Machine.readRec = f at hp
  delta Machine.readRec at hf
  subst hf
  beta_reduce at hp
  split at hp
  · next e => exact hp ▸ (view_fst e).trans (h.readAreas ..)
  · next e => exact hp ▸ (view_fst e).trans (h.readAreas ..)

theorem readRec_sealed : ∃ f, Machine.readRec = f ∧ ∀ lt k s, g (f lt k s).1 = g s := ⟨_, rfl, fun lt k s => h.readRec s lt k⟩

theorem updateFactors (c : UpdC) (t : TensorEnt) : g (updateFactors c t s).1 = g s := by
  generalize hp : Machine.updateFactors c t s = p
  generalize hf : Machine.updateFactors = f at hp
  delta Machine.updateFactors at hf
  subst hf
  beta_reduce at hp
  split at hp
  · next e =>
    have first : g _ = g s := (view_fst e).trans (h.readAreas ..)
    extract_lets a b w at hp
    have wrote : g w.1 = g s := (h.writeAreas ..).trans first
    exact hp ▸ view_pair wrote
  · next e => exact hp ▸ (view_fst e).trans (h.readAreas ..)

theorem updateFactors_sealed : ∃ f, Machine.updateFactors = f ∧ ∀ c t s, g (f c t s).1 = g s := ⟨_, rfl, fun c t s => h.updateFactors s c t⟩

theorem stageFactors (c : UpdC) (ts : List TensorEnt) : g (stageFactors c ts s).1 = g s := by
  generalize hf : Machine.stageFactors = f
  delta Machine.stageFactors Machine.stageFactors._f at hf
  obtain ⟨uf, e, updated⟩ := h.updateFactors_sealed
  rw [e] at hf
  subst hf
  induction ts generalizing s with
  | nil => rfl
  | cons t ts ih => exact view_iteFst (ih s) (view_iteFst (updated ..) ((ih _).trans (updated ..)))

theorem stageFactors_sealed : ∃ f, Machine.stageFactors = f ∧ ∀ c ts s, g (f c ts s).1 = g s := ⟨_, rfl, fun c ts s => h.stageFactors s c ts⟩

theorem updatePiece (shadow : Bool) (c : UpdC) (t : TensorEnt) (piece : Nat) : g (updatePiece shadow c t piece .clean s).1 = g s := by
  generalize hp : Machine.updatePiece shadow c t piece .clean s = p
  generalize hf : Machine.updatePiece = f at hp
  delta Machine.updatePiece at hf
  obtain ⟨rd, e₁, read⟩ := h.readAreas_sealed
  obtain ⟨wr, e₂, write⟩ := h.writeAreas_sealed
  rw [e₁, e₂] at hf
  subst hf
  beta_reduce at hp
  extract_lets +onlyGivenNames lo n fail fact plainV areas at hp
  split at hp
  · next e =>
    have first : g _ = g s := (view_fst e).trans (read ..)
    extract_lets +onlyGivenNames ps gs sv tt one rs outs at hp
    split at hp
    · next e => exact hp ▸ (view_fst e).trans ((write ..).trans first)
    · next e => exact hp ▸ (view_fst e).trans ((write ..).trans first)
  · next e => exact hp ▸ (view_fst e).trans (read ..)

theorem updatePiece_sealed : ∃ f, Machine.updatePiece = f ∧ ∀ shadow c t piece s, g (f shadow c t piece .clean s).1 = g s :=
  ⟨_, rfl, fun shadow c t piece s => h.updatePiece s shadow c t piece⟩

/-! ### The shadow update (R352) -/

theorem shadowPieces (c : UpdC) (ps : List (TensorEnt × Nat)) (amax : Nat) : g (shadowPieces c ps amax s).1 = g s := by
  generalize hf : Machine.shadowPieces = f
  delta Machine.shadowPieces Machine.shadowPieces._f at hf
  obtain ⟨up, e, updated⟩ := h.updatePiece_sealed
  rw [e] at hf
  subst hf
  induction ps generalizing amax s with
  | nil => rfl
  | cons x ps ih => exact view_iteFst (updated ..) (view_iteFst (updated ..) ((ih ..).trans (updated ..)))

theorem shadowPieces_sealed : ∃ f, Machine.shadowPieces = f ∧ ∀ c ps amax s, g (f c ps amax s).1 = g s :=
  ⟨_, rfl, fun c ps amax s => h.shadowPieces s c ps amax⟩

theorem storedDigest (lt : LayerTab) (k : Nat) : g (storedDigest lt k s).1 = g s := h.read.fetchRanges ..

theorem shadowLayer (k : Nat) (e : LayerEnt) (m : MeasBlock) : g (shadowLayer k e m s).1 = g s := by
  generalize hp : Machine.shadowLayer k e m s = p
  generalize hf : Machine.shadowLayer = f at hp
  delta Machine.shadowLayer at hf
  obtain ⟨su, e₁, summed⟩ := h.sumTensors_sealed
  obtain ⟨rr, e₂, record⟩ := h.readRec_sealed
  obtain ⟨sf, e₃, staged⟩ := h.stageFactors_sealed
  obtain ⟨sp, e₄, updated⟩ := h.shadowPieces_sealed
  rw [e₁, e₂, e₃, e₄] at hf
  subst hf
  beta_reduce at hp
  extract_lets +onlyGivenNames lt cin at hp
  split at hp
  · exact hp ▸ h.read.failRequest ..
  split at hp
  · next e => exact hp ▸ (view_fst e).trans (summed ..)
  next e =>
  have hs : g _ = g s := (view_fst e).trans (summed ..)
  split at hp
  · next e => exact hp ▸ (view_fst e).trans ((record ..).trans hs)
  next e =>
  have hr : g _ = g s := (view_fst e).trans ((record ..).trans hs)
  extract_lets +onlyGivenNames c at hp
  split at hp
  · exact hp ▸ hr
  extract_lets +onlyGivenNames cs u f at hp
  have hst : g f.1 = g s := (staged ..).trans hr
  split at hp
  · exact hp ▸ hr
  extract_lets +onlyGivenNames ps at hp
  split at hp
  · next e => exact hp ▸ view_pair ((h.storedDigest ..).trans ((h.pokeDev ..).trans ((view_fst e).trans ((updated ..).trans hst))))
  · exact hp ▸ hr

end MemBlind

end Sys2Proof.Machine
end

section
/-! SUPPORT. Reads of device memory and of the side pond that succeed (R226, R247, R248, R253). -/

namespace Sys2Proof.Machine

open Sys2Proof.Claims

variable {s : State}

/-! ### Ranges that can be read -/

theorem find?_of_forall_false {α : Type} {p : α → Bool} {xs : List α} (h : ∀ x ∈ xs, p x = false) : xs.find? p = none :=
  List.find?_eq_none.2 fun x hx => by simp [h x hx]

/-- Bytes that can be read are answered; what is counted is a statistic of the step. -/
theorem readDev_readable {a n : Nat} (h : Readable s a n) :
    ∃ r, readDev a n .clean s = .ok { s with stat := { s.stat with run := r } } (devBytes s a n) := by
  obtain ⟨hb, hg, hx⟩ := h
  have none : (blocksOf a n).find? (blockBad s) = none := find?_of_forall_false hx
  unfold readDev
  rw [hb, hg]
  dsimp only [applyEcc]
  rw [none]
  by_cases hd : directBytes s a n = 0
  · exact ⟨s.stat.run, by simp [hd]⟩
  · exact ⟨Sparse.modify 0 s.stat.run (ekey 0x3012 1) (· + directBytes s a n), by simp [hd, countRun]⟩

theorem SameMem.readable {s t : State} (h : SameMem s t) {a n : Nat} (hr : Readable s a n) : Readable t a n := by
  unfold Readable
  rw [h.rangeBacked, h.rangeGroupBad, h.blockBad]
  exact hr

theorem SameMem.allReadable {s t : State} (h : SameMem s t) {rs : List (Nat × Nat)} (hr : AllReadable s rs) : AllReadable t rs :=
  fun r hm => h.readable (hr r hm)

theorem SameMem.rangeBytes {s t : State} (h : SameMem s t) (rs : List (Nat × Nat)) : rangeBytes t rs = Machine.rangeBytes s rs := by
  simp only [Machine.rangeBytes, h.devBytes]

/-- Statistics of the step and what is sent are no part of memory. -/
theorem sameMem_run (s : State) (r : Sparse Nat) : SameMem s { s with stat := { s.stat with run := r } } := ⟨rfl, rfl, rfl, rfl, rfl, rfl⟩

/-- `readDev` as a function of which only the read of readable bytes is known, where a recursion matches on the call. -/
theorem readDev_readable_sealed : ∃ f, readDev = f ∧ ∀ {s a n}, Readable s a n →
    ∃ r, f a n .clean s = .ok { s with stat := { s.stat with run := r } } (devBytes s a n) := ⟨_, rfl, readDev_readable⟩

theorem readRanges_readable {rs : List (Nat × Nat)} : ∀ {s : State}, AllReadable s rs →
    ∃ r, readRanges rs .clean s = ({ s with stat := { s.stat with run := r } }, some (rangeBytes s rs)) := by
  generalize hf : readRanges = f
  delta readRanges readRanges._f at hf
  obtain ⟨rd, e, read⟩ := readDev_readable_sealed
  rw [e] at hf
  subst hf
  induction rs with
  | nil => exact fun {s} _ => ⟨s.stat.run, rfl⟩
  | cons x rs ih =>
    intro s h
    obtain ⟨r, hr⟩ := read (h x List.mem_cons_self)
    have rest : AllReadable { s with stat := { s.stat with run := r } } rs :=
      (sameMem_run s r).allReadable fun y hy => h y (List.mem_cons_of_mem _ hy)
    obtain ⟨r', hr'⟩ := ih rest
    refine ⟨r', ?_⟩
    dsimp only at hr' ⊢
    rw [hr]
    dsimp only
    rw [hr', (sameMem_run s r).rangeBytes]
    rfl

/-- Ranges that can be read are fetched. -/
theorem fetchRanges_readable {rs : List (Nat × Nat)} (h : AllReadable s rs) :
    ∃ r, fetchRanges rs s = ({ s with stat := { s.stat with run := r } }, rangeBytes s rs) := by
  obtain ⟨r, e⟩ := readRanges_readable h
  refine ⟨r, ?_⟩
  unfold fetchRanges
  rw [e]

theorem storedDigest_readable {lt : LayerTab} {k : Nat} (h : AllReadable s (layerRanges lt k)) :
    ∃ r, storedDigest lt k s = ({ s with stat := { s.stat with run := r } }, twinDigest (rangeBytes s (layerRanges lt k))) := by
  obtain ⟨r, e⟩ := fetchRanges_readable h
  refine ⟨r, ?_⟩
  unfold storedDigest
  rw [e]

/-- Areas of device memory that can be read are answered in order. -/
theorem readAreas_readable {rs : List (Nat × Nat)} : ∀ {s : State}, AllReadable s rs →
    ∃ r, readAreas (rs.map fun x => .dev x.1 x.2) .clean s =
      ({ s with stat := { s.stat with run := r } }, some (rs.map fun x => devBytes s x.1 x.2)) := by
  generalize hf : readAreas = f
  delta readAreas readAreas._f at hf
  obtain ⟨rd, e, read⟩ := readDev_readable_sealed
  rw [e] at hf
  subst hf
  induction rs with
  | nil => exact fun {s} _ => ⟨s.stat.run, rfl⟩
  | cons x rs ih =>
    intro s h
    obtain ⟨r, hr⟩ := read (h x List.mem_cons_self)
    have rest : AllReadable { s with stat := { s.stat with run := r } } rs :=
      (sameMem_run s r).allReadable fun y hy => h y (List.mem_cons_of_mem _ hy)
    obtain ⟨r', hr'⟩ := ih rest
    refine ⟨r', ?_⟩
    rw [List.map_cons, List.map_cons]
    dsimp only at hr' ⊢
    rw [hr]
    dsimp only
    rw [hr']
    simp only [(sameMem_run s r).devBytes]

theorem SameMem.peekDev {s t : State} (h : SameMem s t) (a n : Nat) : peekDev t a n = Machine.peekDev s a n := by
  unfold Machine.peekDev
  rw [h.rangeBacked, h.rangeGroupBad, h.blockBad, h.devBytes]

/-- The gradient bytes of a layer, which are of device memory. -/
theorem SameMem.gradBytes {s t : State} (h : SameMem s t) (lt : LayerTab) (e : LayerEnt) :
    gradBytes false lt e t = Machine.gradBytes false lt e s := by
  simp only [Machine.gradBytes, Bool.false_eq_true, if_false, h.peekDev]

/-! ### The side pond -/

/-- Bytes of the pond are written where its groups serve and no block of them is uncorrectable. -/
theorem putPend_good {off : Nat} {bs : Bytes} (h : PondGood s (pondPend s off) bs.length) :
    putPend off bs s = { s with mem := { s.mem with pend := Sparse.setMany 0 s.mem.pend off bs } } := by
  unfold putPend pondWrite
  rw [h.1, h.2]
  rfl

theorem pondBad_none {off n : Nat} : pondBad s off n = none ↔ PondGood s off n := by
  unfold pondBad PondGood
  cases pondDown s off n <;> simp

theorem recordDamage_run (addr : Nat) (resv : Bool) (cause : Nat) (pond : Bool) (s : State) :
    (recordDamage addr resv cause pond s).stat.run = s.stat.run := by
  unfold recordDamage
  dsimp only
  exact EventBlind.raiseOpen (g := fun s => s.stat.run) _ ⟨fun _ _ _ _ _ _ _ _ _ _ _ => rfl⟩ ..

/-- A failure of the pond is counted. -/
theorem failPond_grew (cause : Nat) (s : State) : Grew s (failPond cause s) 0x3012 3 1 := by
  unfold Grew failPond
  rw [recordDamage_run, countRun, Sparse.get_modify, if_pos rfl]

/-- A failure of the pond leaves the gradients held, the bytes of device memory, the twin, the ledger, the plan and the units. -/
theorem failPond_frame (cause : Nat) (s : State) : (failPond cause s).mem.cells = s.mem.cells ∧ (failPond cause s).mem.pend = s.mem.pend ∧
    (failPond cause s).units = s.units ∧ (failPond cause s).twin = s.twin ∧ (failPond cause s).led = s.led ∧ (failPond cause s).plan = s.plan := by
  have same := ReadBlind.failPond (g := fun s => (s.mem.cells, s.mem.pend, s.units, s.twin, s.led, s.plan))
    { raised := fun _ _ _ _ _ _ _ _ _ _ _ => rfl, damage := fun _ _ _ _ _ _ _ => rfl, counted := fun _ _ => rfl, damaged := fun _ _ => rfl } s cause
  simpa only [Prod.mk.injEq] using same

end Sys2Proof.Machine
end

section
/-! PROOF. The messages of a step between twins, the shadow update and its resolution, mirrors and comparisons (O53). -/

namespace Sys2Proof.Machine

open Sys2Proof.Claims

variable {s : State}

/-! ### Runs of the mirrored layers and of the card's own -/

theorem mirrorRun_set (k : Nat) (r : MirrorRun) (s : State) : mirrorRun (setMirrorRun k r s) k = r := Sparse.get_set_self ..

theorem mirrorRun_set_ne {j k : Nat} (h : j ≠ k) (r : MirrorRun) (s : State) : mirrorRun (setMirrorRun k r s) j = mirrorRun s j :=
  Sparse.get_set_ne _ _ _ h

theorem mirrorRun_congr {t : State} (h : t.twin = s.twin) (k : Nat) : mirrorRun t k = mirrorRun s k :=
  congrArg (fun w : TwinSt => Sparse.get ({} : MirrorRun) w.mruns k) h

theorem layerRun_set (k : Nat) (r : LayerRun) (s : State) : layerRun (setLayerRun k r s) k = r := Sparse.get_set_self ..

theorem layerRun_set_ne {j k : Nat} (h : j ≠ k) (r : LayerRun) (s : State) : layerRun (setLayerRun k r s) j = layerRun s j :=
  Sparse.get_set_ne _ _ _ h

theorem layerRun_congr {t : State} (h : t.led = s.led) (k : Nat) : layerRun t k = layerRun s k :=
  congrArg (fun l : LedgerSt => Sparse.get ({} : LayerRun) l.layers k) h

/-! ### Inputs and gradients (R341, R349) -/

/-- The side pond depends on memory and on the plan. -/
theorem pondGood_congr {t : State} (hs : t.strap = s.strap) (hr : t.boot.recovery = s.boot.recovery) (hp : t.plan = s.plan)
    (hg : t.mem.group = s.mem.group) (hb : t.mem.badBlk = s.mem.badBlk) (off n : Nat) : PondGood t off n ↔ PondGood s off n := by
  have ups : upGroups t = upGroups s := by simp only [upGroups, hr, hg]
  have at_ : pondAt t = pondAt s := by
    funext key
    simp only [pondAt, fromTop, pondPieces, ups, hs, hp]
    rfl
  have down : groupDown t = groupDown s := by
    funext g
    simp only [groupDown, hg]
  simp only [PondGood, pondDown, pondBlocks, ups, at_, down, hb]

/-- What a pending area holds once bytes have been put there. -/
theorem get_putPend {off : Nat} {bs : Bytes} {t : State} (h : t.mem.pend = Sparse.setMany 0 s.mem.pend off bs) :
    (∀ i, i < bs.length → Sparse.get 0 t.mem.pend (off + i) = bs.getD i 0) ∧
    (∀ x, x < off ∨ off + bs.length ≤ x → Sparse.get 0 t.mem.pend x = Sparse.get 0 s.mem.pend x) := by
  rw [h]
  refine ⟨fun i hi => ?_, fun x hx => Sparse.get_setMany_outside 0 bs _ _ _ hx⟩
  rw [Sparse.get_setMany_inside 0 bs _ _ _ hi, List.getD_eq_getElem?_getD, List.getElem?_eq_getElem hi]
  rfl

/-- Bytes of a layer with one tensor, within its gradient. -/
theorem putGrad_one {t : TensorEnt} {off : Nat} {bs : Bytes} (h : off + bs.length ≤ 4 * t.size) (hb : bs ≠ []) (s : State) :
    putGrad [t] off bs s = putPend (t.grad + off) bs s := by
  have inside : ¬ 4 * t.size ≤ off := by have := List.length_pos_iff.2 hb; omega
  have all : bs.take (4 * t.size - off) = bs := List.take_of_length_le (by omega)
  unfold putGrad
  dsimp only
  rw [if_neg inside, all]
  rfl

theorem exec_input {n : BitVec 64} {off : Nat} {data : Bytes} (ht : twinOn s = true) (hn : off + data.length < s.plan.plan.tw.ringBytes) :
    exec (.input n off data) s = .next (putPend off data s) := by
  show Host.Outcome.next (if twinOn s && decide (off + data.length ≤ s.plan.plan.tw.ringBytes) then
    (if off + data.length = s.plan.plan.tw.ringBytes then _ else putPend off data s) else s) = _
  rw [ht, decide_eq_true (Nat.le_of_lt hn), Bool.and_self, if_pos rfl, if_neg (Nat.ne_of_lt hn)]

theorem exec_grad {n : BitVec 64} {k off : Nat} {data : Bytes} {e : LayerEnt} (ht : twinOn s = true) (hn : n.toNat = s.led.running)
    (hk : layerEnt (partnerLt s) k = some e) : exec (.grad n k off data) s = .next (putGrad ((partnerLt s).tensorsOf e) off data
      { s with twin := { s.twin with shadowB := s.twin.shadowB + data.length } }) := by
  show execGrad n k off data s = _
  unfold execGrad
  rw [hk]
  dsimp only
  rw [ht, decide_eq_true hn, Bool.and_self, if_pos rfl]

theorem input_spec {n : BitVec 64} {off : Nat} {data : Bytes} (ht : twinOn s = true) (hn : off + data.length < s.plan.plan.tw.ringBytes)
    (hg : PondGood s (pondPend s off) data.length) : Completes (.input n off data) s fun t =>
      (∀ i, i < data.length → Sparse.get 0 t.mem.pend (off + i) = data.getD i 0) ∧
      (∀ k, k < off ∨ off + data.length ≤ k → Sparse.get 0 t.mem.pend k = Sparse.get 0 s.mem.pend k) ∧
      t = { s with mem := { s.mem with pend := t.mem.pend } } := by
  obtain ⟨inside, outside⟩ := get_putPend (s := s) (t := { s with mem := { s.mem with pend := Sparse.setMany 0 s.mem.pend off data } }) rfl
  exact ⟨_, (exec_input ht hn).trans (congrArg _ (putPend_good hg)), inside, outside, rfl⟩

theorem grad_spec {n : BitVec 64} {k off : Nat} {e : LayerEnt} {t0 : TensorEnt} {data : Bytes} (ht : twinOn s = true)
    (hn : n.toNat = s.led.running) (hk : layerEnt (partnerLt s) k = some e) (h1 : (partnerLt s).tensorsOf e = [t0])
    (hl : off + data.length ≤ 4 * t0.size) (hd : data ≠ []) (hg : PondGood s (pondPend s (t0.grad + off)) data.length) :
    Completes (.grad n k off data) s fun t =>
      (∀ i, i < data.length → Sparse.get 0 t.mem.pend (t0.grad + off + i) = data.getD i 0) ∧
      (∀ x, x < t0.grad + off ∨ t0.grad + off + data.length ≤ x → Sparse.get 0 t.mem.pend x = Sparse.get 0 s.mem.pend x) ∧
      t = { s with mem := { s.mem with pend := t.mem.pend }, twin := { s.twin with shadowB := s.twin.shadowB + data.length } } := by
  obtain ⟨u, hu⟩ : ∃ u : State, { s with twin := { s.twin with shadowB := s.twin.shadowB + data.length } } = u := ⟨_, rfl⟩
  have ex := exec_grad (off := off) (data := data) ht hn hk
  have good : PondGood u (pondPend u (t0.grad + off)) data.length := by
    rw [← hu]
    exact (pondGood_congr rfl rfl rfl rfl rfl ..).2 hg
  rw [h1, putGrad_one hl hd, hu, putPend_good good, ← hu] at ex
  obtain ⟨inside, outside⟩ := get_putPend (s := s) (t := { s with mem := { s.mem with pend := Sparse.setMany 0 s.mem.pend (t0.grad + off) data } }) rfl
  exact ⟨_, ex, inside, outside, rfl⟩

/-! ### GEND (R349, R350) -/

theorem heldBad_none {k : Nat} {e : LayerEnt} (hk : layerEnt (partnerLt s) k = some e) :
    heldBad s k = none ↔ ∀ x ∈ (partnerLt s).tensorsOf e, PondGood s (pondPend s x.grad) (4 * x.size) := by
  unfold heldBad
  rw [hk, Option.bind_some, List.findSome?_eq_none_iff]
  simp only [pondBad_none]

theorem heldDigest_good {k : Nat} {e : LayerEnt} (hk : layerEnt (partnerLt s) k = some e) (h : heldBad s k = none) :
    heldDigest k s = (s, (gradBytes true (partnerLt s) e s).map twinDigest) := by
  unfold heldDigest
  rw [h, hk]
  rfl

theorem heldDigest_bad {k cause : Nat} (h : heldBad s k = some cause) : heldDigest k s = (failPond cause s, none) := by
  unfold heldDigest
  rw [h]

/-- The run of a layer after its GEND, and the answer. -/
def gendAnswered (step k : Nat) (n cs : W32) (dg ds : BitVec 128) (ok : Bool) (s : State) : State :=
  toTwin (.gack step k ok) (setMirrorRun k { mirrorRun s k with n := n, cs := cs, dg := dg, ds := ds, gended := ok } s)

theorem exec_gend {st : BitVec 64} {k : Nat} {n cs : W32} {dg ds : BitVec 128} {e : LayerEnt} (ht : twinOn s = true)
    (hn : st.toNat = s.led.running) (hk : layerEnt (partnerLt s) k = some e) : exec (.gend st k n cs dg ds) s =
      .next (gendAnswered s.led.running k n cs dg ds (decide ((heldDigest k s).2 = some dg)) (heldDigest k s).1) := by
  show execGend st k n cs dg ds s = _
  unfold execGend
  rw [hk]
  dsimp only
  rw [ht, decide_eq_true hn, Bool.and_self, if_pos rfl, hn]
  rfl

/-- What GACK leaves, of a card on which only what a read of the pond leaves has changed. -/
theorem gendAnswered_spec {u : State} (step k : Nat) (n cs : W32) (dg ds : BitVec 128) (ok : Bool) (ht : u.twin = s.twin)
    (hc : u.mem.cells = s.mem.cells) (hp : u.mem.pend = s.mem.pend) (hu : u.units = s.units) :
    let t := gendAnswered step k n cs dg ds ok u
    mirrorRun t k = { mirrorRun s k with n := n, cs := cs, dg := dg, ds := ds, gended := ok } ∧
      .twin (.gack step k ok) ∈ t.out ∧ t.mem.cells = s.mem.cells ∧ t.mem.pend = s.mem.pend ∧ t.units = s.units := by
  dsimp only [gendAnswered]
  refine ⟨?_, ?_, ?_, ?_, ?_⟩
  · rw [mirrorRun_congr (toTwin_twin ..), mirrorRun_set, mirrorRun_congr ht]
  · rw [toTwin_out]
    exact List.mem_append_right _ List.mem_cons_self
  · rw [toTwin_mem]
    exact hc
  · rw [toTwin_mem]
    exact hp
  · rw [toTwin_units]
    exact hu

theorem gend_good {st : BitVec 64} {k : Nat} {n cs : W32} {dg ds : BitVec 128} {e : LayerEnt} (ht : twinOn s = true)
    (hn : st.toNat = s.led.running) (hk : layerEnt (partnerLt s) k = some e) (h : heldBad s k = none) : Completes (.gend st k n cs dg ds) s fun t =>
      (mirrorRun t k = { mirrorRun s k with n := n, cs := cs, dg := dg, ds := ds, gended := decide ((gradBytes true (partnerLt s) e s).map twinDigest = some dg) } ∧
      .twin (.gack s.led.running k (decide ((gradBytes true (partnerLt s) e s).map twinDigest = some dg))) ∈ t.out ∧
      t.mem.cells = s.mem.cells ∧ t.mem.pend = s.mem.pend ∧ t.units = s.units) ∧ t.mem = s.mem := by
  have ex := exec_gend (n := n) (cs := cs) (dg := dg) (ds := ds) ht hn hk
  rw [heldDigest_good hk h] at ex
  exact ⟨_, ex, gendAnswered_spec _ k n cs dg ds _ rfl rfl rfl rfl, by rw [gendAnswered, toTwin_mem]; rfl⟩

/-- A message to the twin is counted at its ports alone. -/
theorem grew_toTwin {u : State} (h : Grew s u 0x3012 3 1) (m : TwMsg) : Grew s (toTwin m u) 0x3012 3 1 := by
  have port : ∀ lane n p (s : State), lane < 5 →
      Sparse.get 0 (countPort lane n p s).stat.run (ekey 0x3012 3) = Sparse.get 0 s.stat.run (ekey 0x3012 3) := by
    intro lane n p s hl
    unfold countPort countRun
    dsimp only
    have h1 : ekey 0x3012 3 ≠ ekey 0x5084 (p + 1) := by unfold ekey; omega
    have h2 : ekey 0x3012 3 ≠ ekey 0x2820 (lane + 1) := by unfold ekey; omega
    rw [Sparse.get_modify, if_neg h1, Sparse.get_modify, if_neg h2]
  have lane : (twinPorts u).1 < 5 := by
    unfold twinPorts
    split
    · exact (by decide : 3 < 5)
    · exact (by decide : 4 < 5)
  unfold Grew at h ⊢
  rw [← h]
  unfold toTwin
  dsimp only [send]
  repeat' split
  all_goals exact foldl_same _ (fun s : State => Sparse.get 0 s.stat.run (ekey 0x3012 3)) (fun s a => port _ _ _ s lane) _ u

theorem gend_bad {st : BitVec 64} {k : Nat} {n cs : W32} {dg ds : BitVec 128} {e : LayerEnt} (ht : twinOn s = true)
    (hn : st.toNat = s.led.running) (hk : layerEnt (partnerLt s) k = some e) {cause : Nat} (h : heldBad s k = some cause) :
    Completes (.gend st k n cs dg ds) s fun t =>
      (mirrorRun t k = { mirrorRun s k with n := n, cs := cs, dg := dg, ds := ds, gended := false } ∧
      .twin (.gack s.led.running k false) ∈ t.out ∧ t.mem.cells = s.mem.cells ∧ t.mem.pend = s.mem.pend ∧ t.units = s.units) ∧
      Grew s t 0x3012 3 1 := by
  have ex := exec_gend (n := n) (cs := cs) (dg := dg) (ds := ds) ht hn hk
  rw [heldDigest_bad h] at ex
  obtain ⟨cells, pend, units, twin, -, -⟩ := failPond_frame cause s
  have grew := failPond_grew cause s
  generalize failPond cause s = u at ex cells pend units twin grew
  refine ⟨_, ex, gendAnswered_spec _ k n cs dg ds false twin cells pend units, ?_⟩
  exact grew_toTwin (by exact grew) _

/-! ### GACK (R350) -/

theorem exec_gack {st : BitVec 64} {k : Nat} {e : LayerEnt} (ht : twinOn s = true) (hn : st.toNat = s.led.running)
    (hk : layerEnt (ownLt s) k = some e) (ok : Bool) : exec (.gack st k ok) s = .next (takeGack k e ok s) := by
  show execGack st k ok s = _
  unfold execGack
  rw [hk]
  dsimp only
  rw [ht, decide_eq_true hn, Bool.and_self, if_pos rfl]

theorem takeGack_ok (k : Nat) (e : LayerEnt) (s : State) : takeGack k e true s = setLayerRun k { layerRun s k with gok := true } s := rfl

theorem takeGack_again {k : Nat} {e : LayerEnt} (h : (layerRun s k).gacks < 3) :
    takeGack k e false s = sendGrad k e (setLayerRun k { layerRun s k with gacks := (layerRun s k).gacks + 1 } s) :=
  by unfold takeGack; dsimp only; rw [if_neg Bool.false_ne_true, if_neg (Nat.not_le.2 h)]

theorem takeGack_lost {k : Nat} {e : LayerEnt} (h : 3 ≤ (layerRun s k).gacks) :
    takeGack k e false s = linkLost (partnerBeats (setLayerRun k { layerRun s k with gacks := (layerRun s k).gacks + 1 } s))
      (setLayerRun k { layerRun s k with gacks := (layerRun s k).gacks + 1 } s) :=
  by unfold takeGack; dsimp only; rw [if_neg Bool.false_ne_true, if_pos h]

/-- A gradient that can be read goes out, and its GEND. -/
theorem sendGrad_readable {k : Nat} {e : LayerEnt} (h : AllReadable s ((ownLt s).tensorsOf e |>.map fun x => (x.grad, 4 * x.size))) :
    ∃ r, sendGrad k e s = toTwin (.gend s.led.running k (layerRun s k).n (layerRun s k).csUse
        (twinDigest (rangeBytes s ((ownLt s).tensorsOf e |>.map fun x => (x.grad, 4 * x.size)))) (layerRun s k).ds)
      (toTwin (.grad s.led.running k (rangeBytes s ((ownLt s).tensorsOf e |>.map fun x => (x.grad, 4 * x.size))))
        { s with stat := { s.stat with run := r } }) := by
  have areas : ((ownLt s).tensorsOf e).map (fun t => gradArea false t 0 t.size) =
      ((ownLt s).tensorsOf e |>.map fun x => (x.grad, 4 * x.size)).map fun x => .dev x.1 x.2 := by
    rw [List.map_map]
    rfl
  obtain ⟨r, read⟩ := readAreas_readable h
  refine ⟨r, ?_⟩
  unfold sendGrad
  dsimp only
  rw [areas, read]
  dsimp only
  have bytes : (((ownLt s).tensorsOf e |>.map fun x => (x.grad, 4 * x.size)).map fun x => devBytes s x.1 x.2).flatten =
      rangeBytes s ((ownLt s).tensorsOf e |>.map fun x => (x.grad, 4 * x.size)) := by rw [rangeBytes, List.flatMap_def]
  rw [bytes, toTwin_led]

/-- A view that does not see what a pair that ends leaves: the twin's state, parts that then apply, and the answers to the commits that
waited. -/
structure SoloBlind {β : Type} (g : State → β) : Prop extends EventBlind g where
  twin : ∀ s t, g { s with twin := t } = g s
  applied : ∀ s o d f b, g { s with out := s.out ++ o, dict := d, fab := f, stat := { s.stat with boot := b } } = g s

section
variable {β : Type} {g : State → β}

theorem SoloBlind.put (h : SoloBlind g) (s : State) (d : DictSt) (f : FabricSt) : g { s with dict := d, fab := f } = g s := by
  have same := h.applied s [] d f s.stat.boot
  rw [List.append_nil] at same
  exact same

theorem SoloBlind.applyParts (h : SoloBlind g) (due : Part → Bool) (s : State) : g (applyParts due s) = g s := by
  have entry : ∀ (s : State) e, g (applyEntry e s) = g s := by
    intro s e
    have follow : ∀ old new (s : State), g (followNode old new s) = g s := fun old new s => by
      refine foldl_same _ g (fun s n => ?_) _ s
      dsimp only
      split
      · rfl
      · split
        · exact h.put s _ s.fab
        · rfl
    have val : ∀ (s : State) i k bs, g (putVal i k bs s) = g s := fun s i k bs => h.put s _ s.fab
    unfold applyEntry
    dsimp only
    split
    · exact (follow ..).trans (val ..)
    · split
      · exact (h.put _ (putVal _ _ _ s).dict _).trans (val ..)
      · split
        · exact (h.put _ (putVal _ _ _ s).dict _).trans (val ..)
        · exact val ..
  have settled : ∀ gens (s : State), g (settleGens gens s) = g s := fun gens s => by
    refine foldl_same _ g (fun s a => ?_) _ s
    dsimp only
    split
    · rfl
    · split
      · exact h.put s _ s.fab
      · rfl
  unfold Machine.applyParts
  dsimp only
  have entries : ∀ (s : State) (a : Part), g (applyEntries a.entries s) = g s := fun s a => foldl_same _ g entry a.entries s
  rw [settled, foldl_same _ g entries]
  exact h.put s _ s.fab

theorem SoloBlind.applyCan (h : SoloBlind g) (s : State) : g (applyCan s) = g s := by
  have ended : ∀ (s : State), g (endSessions .can s) = g s := fun s => h.put s _ s.fab
  have sent : ∀ (s : State) o, g (send o s) = g s := fun s o => h.applied s [o] s.dict s.fab s.stat.boot
  unfold Machine.applyCan
  dsimp only
  split
  · rfl
  · split
    · rw [sent, ended, h.applyParts]
    · rw [ended, h.applyParts]

theorem SoloBlind.answerWaits (h : SoloBlind g) (s : State) : g (answerWaits s) = g s := by
  have answered : ∀ (s : State) a, g (reply a [] s) = g s := by
    intro s a
    obtain ⟨o, b, e⟩ : ∃ o b, reply a [] s = _ := respond_frame s a 1 _
    rw [e]
    exact h.applied s o s.dict s.fab b
  unfold Machine.answerWaits
  rw [h.applyCan, foldl_same _ g fun s (x : BitVec 32 × Access) => answered s x.2]
  exact h.put s _ s.fab

theorem SoloBlind.setPair (h : SoloBlind g) (p : PairState) (cause : Nat) (s : State) : g (setPair p cause s) = g s := by
  have waits : g (if p = .inStep then s else Machine.answerWaits s) = g s := by
    split
    · rfl
    · exact h.answerWaits s
  unfold Machine.setPair
  dsimp only
  generalize (if p = .inStep then s else Machine.answerWaits s) = t at waits ⊢
  rw [← waits]
  split
  · exact h.twin t _
  · rw [h.raiseOpen]
    exact h.twin t _

theorem SoloBlind.enterSolo (h : SoloBlind g) (cause : Nat) (s : State) : g (enterSolo cause s) = g s := by
  unfold Machine.enterSolo
  dsimp only
  rw [h.twin, h.setPair]

end

theorem setPair_pair (p : PairState) (cause : Nat) (s : State) : (setPair p cause s).twin.pair = p ∧ (setPair p cause s).twin.cause = cause := by
  unfold setPair
  dsimp only
  generalize (if p = .inStep then s else answerWaits s) = t
  split
  · exact ⟨rfl, rfl⟩
  · rw [EventBlind.raiseOpen (g := State.twin) _ ⟨fun _ _ _ _ _ _ _ _ _ _ _ => rfl⟩]
    exact ⟨rfl, rfl⟩

theorem enterSolo_pair (cause : Nat) (s : State) : (enterSolo cause s).twin.pair = .solo ∧ (enterSolo cause s).twin.cause = cause := by
  unfold enterSolo
  have pair := setPair_pair .solo cause s
  generalize setPair .solo cause s = t at pair
  dsimp only
  split <;> exact pair

/-- The link is lost while the partner's keeper lives: the pair ends, with cause 1. -/
theorem linkLost_solo {beats : Bool} (hp : s.twin.pair = .inStep) (hs : partnerServes s = false) (ha : KeeperLives s beats) :
    linkLost beats s = twinFails (enterSolo 1 (sayUnpair s)) := by
  have alive : (s.twin.sideband && decide (s.twin.link ≠ 2) || beats) = true := by
    rcases ha with ⟨h1, h2⟩ | h
    · simp [h1, h2]
    · simp [h]
  unfold linkLost
  dsimp only
  rw [alive, hs, hp, if_neg (by simp), if_pos rfl]

theorem twinFails_unless (h : s.led.st ≠ .restoring) : twinFails s = s := if_neg h

theorem sayUnpair_view {β : Type} {g : State → β} (h : SentBlind g) (s : State) : g (sayUnpair s) = g s := by
  unfold sayUnpair
  dsimp only
  split
  · exact h.toTwin ..
  · exact (h.toCardId ..).trans (h.toTwin ..)

/-- Whether the partner's heartbeats continue depends on the fabric alone. -/
theorem SameNet.partnerBeats {t : State} (h : SameNet s t) (ha : t.fab.alive = s.fab.alive) : partnerBeats t = Machine.partnerBeats s := by
  have used : portUsed t = portUsed s := by
    funext p
    simp only [portUsed, h.portFitted, h.fourPort]
  have wanted : peerWanted t = peerWanted s := by
    funext p
    simp only [peerWanted, partner, h.plan, funext h.cardOf, h.neighbour, h.dirPorts]
  have ports : ∀ c, portsTo t c = portsTo s c := fun c => by simp only [portsTo, used, wanted, h.cardId]
  unfold Machine.partnerBeats partner
  rw [h.plan, funext h.cardOf, ha]
  simp only [ports]

/-- GACK of a layer whose gradient agrees; and of one that does not, three times (R350). -/
theorem gack_spec {st : BitVec 64} {k : Nat} {e : LayerEnt} (ht : twinOn s = true) (hn : st.toNat = s.led.running)
    (hk : layerEnt (ownLt s) k = some e) :
    (Completes (.gack st k true) s fun t => layerRun t k = { layerRun s k with gok := true } ∧
      (∀ j, j ≠ k → layerRun t j = layerRun s j) ∧ t = { s with led := { s.led with layers := t.led.layers } }) ∧
    (let r := layerRun s k
     let gs := (ownLt s).tensorsOf e |>.map fun x => (x.grad, 4 * x.size)
     r.gacks < 3 → AllReadable s gs → Completes (.gack st k false) s fun t => layerRun t k = { r with gacks := r.gacks + 1 } ∧
      t.out = s.out ++ [.twin (.grad s.led.running k (rangeBytes s gs)),
        .twin (.gend s.led.running k r.n r.csUse (twinDigest (rangeBytes s gs)) r.ds)] ∧ t.mem = s.mem ∧ t.units = s.units) ∧
    (3 ≤ (layerRun s k).gacks → s.led.st ≠ .restoring → partnerServes s = false → KeeperLives s (partnerBeats s) →
      Completes (.gack st k false) s fun t => t.twin.pair = .solo ∧ t.twin.cause = 1 ∧ t.mem = s.mem ∧ t.units = s.units) := by
  have ex := exec_gack ht hn hk
  refine ⟨⟨_, (ex true).trans (congrArg _ (takeGack_ok ..)), layerRun_set .., fun j hj => layerRun_set_ne hj .., rfl⟩, ?_, ?_⟩
  · dsimp only
    intro hr hg
    obtain ⟨u, hu⟩ : ∃ u, setLayerRun k { layerRun s k with gacks := (layerRun s k).gacks + 1 } s = u := ⟨_, rfl⟩
    have run : layerRun u k = { layerRun s k with gacks := (layerRun s k).gacks + 1 } := hu ▸ layerRun_set ..
    have mem : SameMem s u := hu ▸ ⟨rfl, rfl, rfl, rfl, rfl, rfl⟩
    obtain ⟨lt, running, out, hmem, units⟩ : ownLt u = ownLt s ∧ u.led.running = s.led.running ∧ u.out = s.out ∧ u.mem = s.mem ∧
      u.units = s.units := hu ▸ ⟨rfl, rfl, rfl, rfl, rfl⟩
    have readable : AllReadable u ((ownLt u).tensorsOf e |>.map fun x => (x.grad, 4 * x.size)) := mem.allReadable (lt ▸ hg)
    obtain ⟨x, sent⟩ := sendGrad_readable (k := k) readable
    refine ⟨_, (ex false).trans (congrArg _ ((takeGack_again hr).trans ((congrArg _ hu).trans sent))), ?_, ?_, ?_, ?_⟩
    · rw [layerRun_congr (toTwin_led ..), layerRun_congr (toTwin_led ..)]
      exact run
    · rw [toTwin_out, toTwin_out, mem.rangeBytes, run, running, lt, ← out, List.append_assoc]
      rfl
    · rw [toTwin_mem, toTwin_mem]
      exact hmem
    · rw [toTwin_units, toTwin_units]
      exact units
  · intro hr hst hs ha
    obtain ⟨u, hu⟩ : ∃ u, setLayerRun k { layerRun s k with gacks := (layerRun s k).gacks + 1 } s = u := ⟨_, rfl⟩
    have net : SameNet s u := hu ▸ ⟨rfl, rfl, rfl, rfl, rfl⟩
    obtain ⟨alive, twin, st, hmem, units, cause, card⟩ : u.fab.alive = s.fab.alive ∧ u.twin = s.twin ∧ u.led.st = s.led.st ∧ u.mem = s.mem ∧
      u.units = s.units ∧ u.led.abCause = s.led.abCause ∧ u.led.abCard = s.led.abCard := hu ▸ ⟨rfl, rfl, rfl, rfl, rfl, rfl, rfl⟩
    have beats : partnerBeats u = partnerBeats s := net.partnerBeats alive
    have serves : partnerServes u = false := by
      rw [← hs]
      unfold partnerServes partner
      rw [st, cause, card, net.plan]
    have pair : u.twin.pair = .inStep := by
      rw [twin]
      unfold twinOn at ht
      simpa using (Bool.and_eq_true_iff.1 ht).1
    have lives : KeeperLives u (partnerBeats u) := by
      unfold KeeperLives
      rw [twin, beats]
      exact ha
    have lost := linkLost_solo pair serves lives
    obtain ⟨v, hv⟩ : ∃ v, sayUnpair u = v := ⟨_, rfl⟩
    have said : (v.mem, v.units, v.led) = (u.mem, u.units, u.led) :=
      hv ▸ sayUnpair_view (g := fun s => (s.mem, s.units, s.led)) ⟨fun _ _ _ _ => rfl⟩ u
    have solo : ((enterSolo 1 v).mem, (enterSolo 1 v).units, (enterSolo 1 v).led) = (v.mem, v.units, v.led) :=
      SoloBlind.enterSolo (g := fun s => (s.mem, s.units, s.led))
        { raised := fun _ _ _ _ _ _ _ _ _ _ _ => rfl, twin := fun _ _ => rfl, applied := fun _ _ _ _ _ => rfl } 1 v
    have both := solo.trans said
    simp only [Prod.mk.injEq] at both
    obtain ⟨mem', units', led'⟩ := both
    have fails : twinFails (enterSolo 1 v) = enterSolo 1 v := twinFails_unless (by rw [led', st]; exact hst)
    obtain ⟨pair', cause'⟩ := enterSolo_pair 1 v
    rw [hv, fails] at lost
    exact ⟨_, (ex false).trans (congrArg _ ((takeGack_lost hr).trans (by rw [hu]; exact lost))), pair', cause', mem'.trans hmem, units'.trans units⟩

/-! ### STEPM, SACK, PART and PACK (R350, R351) -/

/-- What STEPM brings. -/
def stepmTaken (n : BitVec 64) (m : MeasBlock) (s : State) : State :=
  { s with twin := { s.twin with meas := some m, measStep := n.toNat, precord :=
    if n.toNat = s.twin.mirror + 1 then { s.twin.precord with repair := (StepRec.ofNat m.record.toNat).repair } else s.twin.precord } }

theorem exec_stepm (ht : twinOn s = true) (n : BitVec 64) (m : MeasBlock) : exec (.stepm n m) s = .next
    (if s.twin.inputStep = n.toNat ∨ s.plan.plan.tw.ringBytes = 0 then toTwin (.sack n.toNat) (stepmTaken n m s) else stepmTaken n m s) := by
  have sack : exec (.stepm n m) s = .next (trySack n.toNat (stepmTaken n m s)) := congrArg Host.Outcome.next (if_pos ht)
  have same : (stepmTaken n m s).twin.meas.isSome ∧ (stepmTaken n m s).twin.measStep = n.toNat ∧
      ((stepmTaken n m s).twin.inputStep = n.toNat ∨ (stepmTaken n m s).plan.plan.tw.ringBytes = 0) ↔
      s.twin.inputStep = n.toNat ∨ s.plan.plan.tw.ringBytes = 0 := ⟨fun h => h.2.2, fun h => ⟨rfl, rfl, h⟩⟩
  rw [sack, trySack, if_congr same rfl rfl]

theorem stepm_spec (ht : twinOn s = true) (n : BitVec 64) (m : MeasBlock) : Completes (.stepm n m) s fun t =>
    if s.twin.inputStep = n.toNat ∨ s.plan.plan.tw.ringBytes = 0 then TwinTold (stepmTaken n m s) t (.sack n.toNat) else t = stepmTaken n m s := by
  refine ⟨_, exec_stepm ht n m, ?_⟩
  by_cases h : s.twin.inputStep = n.toNat ∨ s.plan.plan.tw.ringBytes = 0
  · dsimp only
    rw [if_pos h, if_pos h]
    exact toTwin_told ..
  · dsimp only
    rw [if_neg h, if_neg h]

theorem exec_pack_none {gen : BitVec 32} (h : s.dict.packWait.find? (fun x => decide (x.1 = gen)) = none) : exec (.pack gen) s = .next s := by
  show execPack gen s = _
  unfold execPack
  rw [h]

theorem exec_pack {gen : BitVec 32} {x : BitVec 32 × Access} (h : s.dict.packWait.find? (fun x => decide (x.1 = gen)) = some x)
    (ha : s.dict.awaiting = []) : exec (.pack gen) s =
      .next (reply x.2 [] { s with dict := { s.dict with packWait := s.dict.packWait.erase x } }) := by
  have idle : NoNow (reply x.2 [] { s with dict := { s.dict with packWait := s.dict.packWait.erase x } }) := by
    unfold NoNow
    rw [reply_dict]
    exact noNow_of_idle ha
  show execPack gen s = _
  unfold execPack
  rw [h]
  dsimp only
  rw [applyCan_idle idle]

/-- The settings in force come from the values in force. -/
theorem num_of_vals {t : State} (hs : t.strap = s.strap) (hv : t.dict.vals = s.dict.vals) (idx sub : Nat) : num t idx sub = num s idx sub :=
  congrArg leNat (by simp only [valBytes, dfltBytes, dfltNum, nodeId, hs, hv])

theorem pack_spec {gen : BitVec 32} {x : BitVec 32 × Access} (h : s.dict.packWait.find? (fun x => decide (x.1 = gen)) = some x)
    (ha : s.dict.awaiting = []) (hr : RouteAnswers s x.2.path) : Completes (.pack gen) s fun t =>
      .usdo x.2 [] ∈ t.out ∧ t.dict.packWait = s.dict.packWait.erase x ∧ t.mem = s.mem ∧ t.units = s.units := by
  obtain ⟨u, hu⟩ : ∃ u : State, { s with dict := { s.dict with packWait := s.dict.packWait.erase x } } = u := ⟨_, rfl⟩
  have answered : answers u x.2.path = true := by
    have nums : ∀ k, num u 0x2022 k = num s 0x2022 k := fun k => num_of_vals (hu ▸ rfl) (hu ▸ rfl) ..
    have dev : u.keep.dev = s.keep.dev := hu ▸ rfl
    unfold answers
    rw [nums, dev]
    obtain ⟨on, can⟩ := hr
    generalize x.2.path = r at on can
    cases r with
    | can => exact Bool.and_eq_true_iff.2 ⟨decide_eq_true on, by simp [can rfl]⟩
    | mailbox => exact Bool.and_eq_true_iff.2 ⟨decide_eq_true on, rfl⟩
    | towpath => exact Bool.and_eq_true_iff.2 ⟨decide_eq_true on, rfl⟩
  have ex := exec_pack h ha
  rw [hu] at ex
  refine ⟨_, ex, ?_, ?_, ?_, ?_⟩
  · rw [reply_out, if_pos answered]
    exact List.mem_append_right _ List.mem_cons_self
  · rw [reply_dict, ← hu]
  · rw [reply_mem, ← hu]
  · rw [reply_units, ← hu]

/-! ### The shadow update (R352) -/

theorem twinBlind : MemBlind State.twin := ⟨fun _ _ _ _ _ _ _ _ _ _ _ _ _ _ _ _ _ => rfl⟩

theorem ledBlind : MemBlind State.led := ⟨fun _ _ _ _ _ _ _ _ _ _ _ _ _ _ _ _ _ => rfl⟩

theorem planBlind : MemBlind fun s => s.plan.plan := ⟨fun _ _ _ _ _ _ _ _ _ _ _ _ _ _ _ _ _ => rfl⟩

/-- What follows on a shadow update of a layer, by its digest. -/
def shadowEnd (k : Nat) (s : State) : Option (BitVec 128) → State
  | none => overwrite k s
  | some d =>
    let r := mirrorRun s k
    if d ≠ r.ds then disagree k d s
    else if r.fetched then settle k 4 d (setMirrorRun k { r with dc := d } s)
    else shadowCheck (setMirrorRun k { r with done := true, dc := d } (setMirrorRef k d s))

theorem shadowDone_clean {k : Nat} {e : LayerEnt} {m : MeasBlock} (hl : gradientLost s k .clean = false) {s1 : State} {o : Option (BitVec 128)}
    (h : shadowLayer k e m s = (s1, o)) : shadowDone k e m .clean s = shadowEnd k s1 o := by
  unfold shadowDone
  rw [hl]
  dsimp only [applyEcc]
  rw [h]
  cases o <;> rfl

theorem shadowDone_lost {k : Nat} {e : LayerEnt} {m : MeasBlock} {ecc : Ecc} (hl : gradientLost s k ecc = true) :
    shadowDone k e m ecc s = refetch k (failPond ((heldBad s k).getD 1) s) := if_pos hl

theorem exec_shadowLayerDone {k : Nat} {e : LayerEnt} {m : MeasBlock} (hk : layerEnt (partnerLt s) k = some e) (hm : s.twin.meas = some m)
    (hn : s.twin.shadowN ≠ 0) (hh : s.keep.dev ≠ .halted) (hg : (mirrorRun s k).gended = true) (hd : (mirrorRun s k).done = false)
    (hb : (mirrorRun s k).bad = false) (hr : (mirrorRun s k).refetch = false) (ecc : Ecc) :
    exec (.shadowLayerDone k ecc) s = .next (shadowDone k e m ecc s) := by
  show execShadowLayerDone k ecc s = _
  unfold execShadowLayerDone
  rw [hk, hm]
  dsimp only
  rw [if_pos ⟨hn, hh, by rw [hg, hd, hb, hr]; rfl⟩]

/-- While another layer is not done the shadow update goes on. -/
theorem shadowCheck_open {j : Nat} (hj : j ∈ layerNumbers (partnerLt s)) (hd : (mirrorRun s j).done = false) : shadowCheck s = s := by
  have open_ : (layerNumbers (partnerLt s)).all (shadowLayerDone s) = false := by
    rw [List.all_eq_false]
    exact ⟨j, hj, by simp [shadowLayerDone, hd]⟩
  unfold shadowCheck
  cases s.twin.meas with
  | none => rfl
  | some m =>
    dsimp only
    rw [open_, if_neg (by simp)]

theorem countDiffers_frame (k : Nat) (s : State) : ∃ b, countDiffers k s = { s with stat := { s.stat with boot := b } } := by
  unfold countDiffers
  split
  · exact ⟨s.stat.boot, rfl⟩
  · exact ⟨_, rfl⟩

/-- A layer in resolution, before its end is entered. -/
theorem overwrite_spec (k : Nat) (s : State) : (mirrorRun (overwrite k s) k) = { mirrorRun s k with overw := true, bad := true } ∧
    (overwrite k s).out = s.out ++ [.twin (.pull (.layer k true))] ∧ (overwrite k s).mem = s.mem := by
  obtain ⟨b, e⟩ := countDiffers_frame k (pullLayer k true (setMirrorRun k { mirrorRun s k with overw := true, bad := true } s))
  unfold overwrite
  rw [e]
  refine ⟨?_, toTwin_out .., toTwin_mem ..⟩
  exact (mirrorRun_congr (toTwin_twin ..) k).trans (mirrorRun_set ..)

theorem disagree_spec (k : Nat) (d : BitVec 128) (s : State) : mirrorRun (disagree k d s) k = { mirrorRun s k with dc := d, bad := true } ∧
    (disagree k d s).out = s.out ++ [.twin (.digreq k)] ∧ (disagree k d s).mem = s.mem := by
  obtain ⟨b, e⟩ := countDiffers_frame k (askDigest k (setMirrorRun k { mirrorRun s k with dc := d, bad := true } s))
  unfold disagree
  rw [e]
  refine ⟨?_, toTwin_out .., toTwin_mem ..⟩
  exact (mirrorRun_congr (toTwin_twin ..) k).trans (mirrorRun_set ..)

/-- A resolution that ends short of step 6. -/
theorem resolved_spec {outcome : Nat} (ho : outcome ≠ 6) (k role : Nat) (s : State) :
    (resolved k outcome role s).twin = { s.twin with resStep := s.led.committed, resLayer := k, resOut := outcome, resRole := role } ∧
    (resolved k outcome role s).mem = s.mem ∧ (resolved k outcome role s).plan = s.plan ∧
    Sparse.get 0 (resolved k outcome role s).stat.boot (ekey 0x2A04 (endSub outcome)) =
      Sparse.get 0 s.stat.boot (ekey 0x2A04 (endSub outcome)) + 1 := by
  unfold resolved
  dsimp only
  rw [if_neg ho]
  have same : ∀ {γ : Type} {g : State → γ}, EventBlind g → ∀ u : State, g (raiseOpen 0x11 noSource (pack [(16, k), (8, outcome), (8, role)]) u) = g u :=
    fun hg u => hg.raiseOpen ..
  refine ⟨same (g := State.twin) ⟨fun _ _ _ _ _ _ _ _ _ _ _ => rfl⟩ _, raiseOpen_mem .., raiseOpen_plan .., ?_⟩
  have other : ekey 0x2A04 (endSub outcome) ≠ ekey 0x2404 2 := by
    have small : endSub outcome < 256 := by unfold endSub; split <;> decide
    unfold ekey
    omega
  refine (same (g := fun s => Sparse.get 0 s.stat.boot (ekey 0x2A04 (endSub outcome))) ⟨fun s _ _ _ _ _ _ _ _ b h => h _ other⟩ _).trans ?_
  unfold countBoot
  dsimp only
  rw [Sparse.get_modify, if_pos rfl]

/-- A layer that ends its resolution while another is not done. -/
theorem settle_spec {k j : Nat} {outcome : Nat} (ho : outcome ≠ 6) (hn : s.twin.shadowN ≠ 0) (hj : j ∈ layerNumbers (partnerLt s)) (hjk : j ≠ k)
    (hd : (mirrorRun s j).done = false) (d : BitVec 128) :
    (mirrorRun (settle k outcome d s) k).done = true ∧ mirrorRef (settle k outcome d s) k = d ∧ (settle k outcome d s).twin.resLayer = k ∧
    (settle k outcome d s).twin.resOut = outcome ∧ (settle k outcome d s).mem = s.mem ∧
    Sparse.get 0 (settle k outcome d s).stat.boot (ekey 0x2A04 (endSub outcome)) =
      Sparse.get 0 s.stat.boot (ekey 0x2A04 (endSub outcome)) + 1 := by
  obtain ⟨u, hu⟩ : ∃ u, setMirrorRun k { mirrorRun s k with done := true, bad := false, overw := false, esc := decide (outcome = 6) }
    (setMirrorRef k d s) = u := ⟨_, rfl⟩
  obtain ⟨v, hv⟩ : ∃ v, resolved k outcome 1 u = v := ⟨_, rfl⟩
  have run : (mirrorRun u k).done = true := hu ▸ congrArg MirrorRun.done (mirrorRun_set ..)
  have other : mirrorRun u j = mirrorRun s j := hu ▸ mirrorRun_set_ne hjk ..
  have ref : mirrorRef u k = d := hu ▸ Sparse.get_set_self ..
  obtain ⟨shadow, plan, mem, boot⟩ : u.twin.shadowN = s.twin.shadowN ∧ u.plan = s.plan ∧ u.mem = s.mem ∧ u.stat = s.stat := hu ▸ ⟨rfl, rfl, rfl, rfl⟩
  obtain ⟨twin, mem', plan', boot'⟩ := resolved_spec ho k 1 u
  rw [hv] at twin mem' plan' boot'
  have same : ∀ i, mirrorRun v i = mirrorRun u i := fun i => by unfold mirrorRun; rw [twin]
  have stays : shadowCheck v = v := by
    refine shadowCheck_open (j := j) ?_ (by rw [same, other, hd])
    unfold partnerLt
    rw [plan', plan]
    exact hj
  have e : settle k outcome d s = v := by
    unfold settle
    dsimp only
    rw [hu, hv, if_pos (by rw [twin]; exact shadow ▸ hn), stays]
  rw [e]
  refine ⟨by rw [same, run], ?_, by rw [twin], by rw [twin], mem'.trans mem, by rw [boot', boot]⟩
  unfold mirrorRef
  rw [twin]
  exact ref

/-- A layer whose update has the digest of GEND, while another is not done. -/
theorem shadowEnd_agrees {k j : Nat} (hj : j ∈ layerNumbers (partnerLt s)) (hjk : j ≠ k) (hd : (mirrorRun s j).done = false)
    (hf : (mirrorRun s k).fetched = false) :
    mirrorRun (shadowEnd k s (some (mirrorRun s k).ds)) k = { mirrorRun s k with done := true, dc := (mirrorRun s k).ds } ∧
    mirrorRef (shadowEnd k s (some (mirrorRun s k).ds)) k = (mirrorRun s k).ds ∧ (shadowEnd k s (some (mirrorRun s k).ds)).mem = s.mem := by
  obtain ⟨u, hu⟩ : ∃ u, setMirrorRun k { mirrorRun s k with done := true, dc := (mirrorRun s k).ds } (setMirrorRef k (mirrorRun s k).ds s) = u := ⟨_, rfl⟩
  have run : mirrorRun u k = { mirrorRun s k with done := true, dc := (mirrorRun s k).ds } := hu ▸ mirrorRun_set ..
  have other : mirrorRun u j = mirrorRun s j := hu ▸ mirrorRun_set_ne hjk ..
  have ref : mirrorRef u k = (mirrorRun s k).ds := hu ▸ Sparse.get_set_self ..
  have stays : shadowCheck u = u := shadowCheck_open (j := j) (hu ▸ hj) (by rw [other, hd])
  have e : shadowEnd k s (some (mirrorRun s k).ds) = u := by
    unfold shadowEnd
    dsimp only
    rw [if_neg (not_not.2 rfl)]
    exact (if_neg (by simp [hf])).trans ((congrArg shadowCheck hu).trans stays)
  rw [e]
  exact ⟨run, ref, hu ▸ rfl⟩

/-- And where it was repeated with its gradient fetched again: it ends at step 4 of R356. -/
theorem shadowEnd_fetched {k j : Nat} (hn : s.twin.shadowN ≠ 0) (hj : j ∈ layerNumbers (partnerLt s)) (hjk : j ≠ k)
    (hd : (mirrorRun s j).done = false) (hf : (mirrorRun s k).fetched = true) {t : State} (ht : t = shadowEnd k s (some (mirrorRun s k).ds)) :
    (mirrorRun t k).done = true ∧ mirrorRef t k = (mirrorRun s k).ds ∧ t.twin.resLayer = k ∧ t.twin.resOut = 4 ∧
      Sparse.get 0 t.stat.boot (ekey 0x2A04 6) = Sparse.get 0 s.stat.boot (ekey 0x2A04 6) + 1 ∧ t.mem = s.mem := by
  obtain ⟨u, hu⟩ : ∃ u, setMirrorRun k { mirrorRun s k with dc := (mirrorRun s k).ds } s = u := ⟨_, rfl⟩
  have e : shadowEnd k s (some (mirrorRun s k).ds) = settle k 4 (mirrorRun s k).ds u := by
    unfold shadowEnd
    dsimp only
    rw [if_neg (not_not.2 rfl)]
    exact (if_pos hf).trans (congrArg (settle k 4 _) hu)
  have other : mirrorRun u j = mirrorRun s j := hu ▸ mirrorRun_set_ne hjk ..
  obtain ⟨done, ref, layer, out, mem, count⟩ := settle_spec (s := u) (k := k) (outcome := 4) (by decide) (hu ▸ hn) (hu ▸ hj) hjk (by rw [other, hd])
    (mirrorRun s k).ds
  rw [ht, e]
  refine ⟨done, ref, layer, out, ?_, mem.trans (hu ▸ rfl)⟩
  exact count.trans (hu ▸ rfl)

/-- A gradient that could not be read is fetched again. -/
theorem refetch_again {k : Nat} (hp : (mirrorRun s k).pulls < 3) : ∃ b, refetch k s = toTwin (.pull (.grad k)) (setMirrorRun k
    { mirrorRun s k with pulls := (mirrorRun s k).pulls + 1, refetch := true, fetched := true } { s with stat := { s.stat with boot := b } }) := by
  obtain ⟨b, e⟩ := countDiffers_frame k s
  refine ⟨b, ?_⟩
  unfold refetch
  dsimp only
  rw [if_neg (by omega), e]

theorem refetch_over {k : Nat} (hp : 3 ≤ (mirrorRun s k).pulls) : ∃ b, refetch k s = overwrite k (setMirrorRun k
    { mirrorRun s k with pulls := 0, fetched := true } { s with stat := { s.stat with boot := b } }) := by
  obtain ⟨b, e⟩ := countDiffers_frame k s
  refine ⟨b, ?_⟩
  unfold refetch
  dsimp only
  rw [if_pos hp, e]

/-- The end of the shadow update of a layer that is not yet done (R352, R356). -/
theorem shadowLayerDone_spec {k : Nat} {e : LayerEnt} {m : MeasBlock} (hk : layerEnt (partnerLt s) k = some e) (hm : s.twin.meas = some m)
    (hn : s.twin.shadowN ≠ 0) (hh : s.keep.dev ≠ .halted) :
    let r := mirrorRun s k
    r.gended = true → r.done = false → r.bad = false → r.refetch = false →
    let held : Prop := ∀ x ∈ (partnerLt s).tensorsOf e, PondGood s (pondPend s x.grad) (4 * x.size)
    let others : Prop := ∃ j ∈ layerNumbers (partnerLt s), j ≠ k ∧ (mirrorRun s j).done = false
    (∀ s1 d, held → shadowLayer k e m s = (s1, some d) →
      (d = r.ds → others → r.fetched = false → Completes (.shadowLayerDone k .clean) s fun t =>
        mirrorRun t k = { r with done := true, dc := d } ∧ mirrorRef t k = d ∧ t.mem = s1.mem) ∧
      (d = r.ds → others → r.fetched = true → Completes (.shadowLayerDone k .clean) s fun t =>
        (mirrorRun t k).done = true ∧ mirrorRef t k = d ∧ t.twin.resLayer = k ∧ t.twin.resOut = 4 ∧
        Sparse.get 0 t.stat.boot (ekey 0x2A04 6) = Sparse.get 0 s1.stat.boot (ekey 0x2A04 6) + 1 ∧ t.mem = s1.mem) ∧
      (d ≠ r.ds → Completes (.shadowLayerDone k .clean) s fun t => mirrorRun t k = { r with dc := d, bad := true } ∧
        t.out = s1.out ++ [.twin (.digreq k)] ∧ t.mem = s1.mem)) ∧
    (∀ s1, held → shadowLayer k e m s = (s1, none) → Completes (.shadowLayerDone k .clean) s fun t =>
      (mirrorRun t k).bad = true ∧ (mirrorRun t k).overw = true ∧ (mirrorRun t k).done = false ∧
      t.out = s1.out ++ [.twin (.pull (.layer k true))] ∧ t.mem = s1.mem) ∧
    (∀ ecc, gradientLost s k ecc = true → r.pulls < 3 → Completes (.shadowLayerDone k ecc) s fun t =>
      mirrorRun t k = { r with pulls := r.pulls + 1, refetch := true, fetched := true } ∧ .twin (.pull (.grad k)) ∈ t.out ∧
      t.mem.cells = s.mem.cells ∧ t.mem.pend = s.mem.pend ∧ Grew s t 0x3012 3 1) ∧
    (∀ ecc, gradientLost s k ecc = true → 3 ≤ r.pulls → Completes (.shadowLayerDone k ecc) s fun t =>
      (mirrorRun t k).bad = true ∧ (mirrorRun t k).overw = true ∧ (mirrorRun t k).done = false ∧
      .twin (.pull (.layer k true)) ∈ t.out ∧ t.mem.cells = s.mem.cells) := by
  dsimp only
  intro hg hd hb hr
  have ex := exec_shadowLayerDone hk hm hn hh hg hd hb hr
  have clean : (∀ x ∈ (partnerLt s).tensorsOf e, PondGood s (pondPend s x.grad) (4 * x.size)) → ∀ {s1 o}, shadowLayer k e m s = (s1, o) →
      exec (.shadowLayerDone k .clean) s = .next (shadowEnd k s1 o) ∧ s1.twin = s.twin ∧ partnerLt s1 = partnerLt s := by
    intro held s1 o h
    have lost : gradientLost s k .clean = false := by
      unfold gradientLost
      rw [(heldBad_none hk).2 held]
      rfl
    refine ⟨(ex .clean).trans (congrArg _ (shadowDone_clean lost h)), ?_, ?_⟩
    · exact (view_fst h).trans (twinBlind.shadowLayer s k e m)
    · exact congrArg (fun p : PlanSt => p.tw.ptab) ((view_fst (g := fun s => s.plan.plan) h).trans (planBlind.shadowLayer s k e m))
  refine ⟨fun s1 d held h => ?_, fun s1 held h => ?_, fun ecc hl hp => ?_, fun ecc hl hp => ?_⟩
  · obtain ⟨done, twin, lt⟩ := clean held h
    have run : ∀ j, mirrorRun s1 j = mirrorRun s j := mirrorRun_congr twin
    refine ⟨?_, ?_, fun hne => ?_⟩
    · rintro rfl ⟨j, hj, hjk, hjd⟩ hf
      have spec := shadowEnd_agrees (s := s1) (k := k) (lt ▸ hj) hjk (by rw [run, hjd]) (by rw [run, hf])
      rw [run] at spec
      exact ⟨_, done, spec⟩
    · rintro rfl ⟨j, hj, hjk, hjd⟩ hf
      have spec := shadowEnd_fetched (s := s1) (k := k) (twin ▸ hn) (lt ▸ hj) hjk (by rw [run, hjd]) (by rw [run, hf]) rfl
      rw [run] at spec
      exact ⟨_, done, spec⟩
    · have spec := disagree_spec k d s1
      rw [run] at spec
      have e' : shadowEnd k s1 (some d) = disagree k d s1 := if_pos (by rw [run]; exact hne)
      exact ⟨_, done.trans (congrArg _ e'), spec⟩
  · obtain ⟨done, twin, -⟩ := clean held h
    have run := mirrorRun_congr twin k
    obtain ⟨r', out, mem⟩ := overwrite_spec k s1
    rw [run] at r'
    exact ⟨_, done, by rw [shadowEnd, r'], by rw [shadowEnd, r'], by rw [shadowEnd, r']; exact hd, out, mem⟩
  · obtain ⟨cells, pend, -, twin, -, -⟩ := failPond_frame ((heldBad s k).getD 1) s
    have grew := failPond_grew ((heldBad s k).getD 1) s
    have ex' := (ex ecc).trans (congrArg _ (shadowDone_lost hl))
    generalize failPond ((heldBad s k).getD 1) s = u at cells pend twin grew ex'
    have run := mirrorRun_congr twin k
    obtain ⟨b, e'⟩ := refetch_again (s := u) (k := k) (by rw [run]; exact hp)
    rw [run] at e'
    refine ⟨_, ex'.trans (congrArg _ e'), ?_, ?_, ?_, ?_, ?_⟩
    · exact (mirrorRun_congr (toTwin_twin ..) k).trans (mirrorRun_set ..)
    · rw [toTwin_out]
      exact List.mem_append_right _ List.mem_cons_self
    · rw [toTwin_mem]
      exact cells
    · rw [toTwin_mem]
      exact pend
    · exact grew_toTwin (by exact grew) _
  · obtain ⟨cells, -, -, twin, -, -⟩ := failPond_frame ((heldBad s k).getD 1) s
    have ex' := (ex ecc).trans (congrArg _ (shadowDone_lost hl))
    generalize failPond ((heldBad s k).getD 1) s = u at cells twin ex'
    have run := mirrorRun_congr twin k
    obtain ⟨b, e'⟩ := refetch_over (s := u) (k := k) (by rw [run]; exact hp)
    rw [run] at e'
    generalize hv : setMirrorRun k { mirrorRun s k with pulls := 0, fetched := true } { u with stat := { u.stat with boot := b } } = v at e'
    have runv : mirrorRun v k = { mirrorRun s k with pulls := 0, fetched := true } := hv ▸ mirrorRun_set ..
    obtain ⟨r', out, mem⟩ := overwrite_spec k v
    rw [runv] at r'
    refine ⟨_, ex'.trans (congrArg _ e'), by rw [r'], by rw [r'], by rw [r']; exact hd, ?_, ?_⟩
    · rw [out]
      exact List.mem_append_right _ List.mem_cons_self
    · rw [mem, ← cells, ← hv]
      rfl

/-! ### DATA of a gradient that is fetched again (R352, R359) -/

theorem putGrad_whole {t : TensorEnt} {bs : Bytes} (h : bs.length = 4 * t.size) (hg : PondGood s (pondPend s t.grad) bs.length) :
    putGrad [t] 0 bs s = { s with mem := { s.mem with pend := Sparse.setMany 0 s.mem.pend t.grad bs } } := by
  by_cases hb : bs = []
  · have none : 4 * t.size ≤ 0 := by rw [← h, hb]; rfl
    unfold putGrad
    dsimp only
    rw [if_pos none, hb]
    rfl
  · rw [putGrad_one (by omega) hb]
    exact putPend_good hg

theorem gradCame_again {k : Nat} {e : LayerEnt} (bs : Bytes) (hk : layerEnt (partnerLt s) k = some e) (hr : (mirrorRun s k).refetch = true) :
    gradCame k bs s = putGrad ((partnerLt s).tensorsOf e) 0 bs (setMirrorRun k { mirrorRun s k with refetch := false } s) := by
  unfold gradCame
  dsimp only
  rw [hr, if_pos rfl, hk]

theorem gradData_spec {k : Nat} {e : LayerEnt} {t0 : TensorEnt} {bs : Bytes} (ref : BitVec 128) (hm : s.keep.mirror = false)
    (hk : layerEnt (partnerLt s) k = some e) (h1 : (partnerLt s).tensorsOf e = [t0]) (hl : bs.length = 4 * t0.size)
    (hr : (mirrorRun s k).refetch = true) (hg : PondGood s (pondPend s t0.grad) bs.length) : Completes (.data (.grad k) bs ref) s fun t =>
      mirrorRun t k = { mirrorRun s k with refetch := false } ∧ t.out = s.out ∧
      (∀ i, i < bs.length → Sparse.get 0 t.mem.pend (t0.grad + i) = bs.getD i 0) ∧
      (∀ x, x < t0.grad ∨ t0.grad + bs.length ≤ x → Sparse.get 0 t.mem.pend x = Sparse.get 0 s.mem.pend x) := by
  obtain ⟨u, hu⟩ : ∃ u, setMirrorRun k { mirrorRun s k with refetch := false } s = u := ⟨_, rfl⟩
  have run : mirrorRun u k = { mirrorRun s k with refetch := false } := hu ▸ mirrorRun_set ..
  have good : PondGood u (pondPend u t0.grad) bs.length := by
    rw [← hu]
    exact (pondGood_congr rfl rfl rfl rfl rfl ..).2 hg
  have came := gradCame_again bs hk hr
  rw [h1, hu, putGrad_whole hl good] at came
  have ex : exec (.data (.grad k) bs ref) s = .next (gradCame k bs s) := congrArg Host.Outcome.next (if_neg (by simp [hm]))
  obtain ⟨out, pend⟩ : u.out = s.out ∧ u.mem.pend = s.mem.pend := hu ▸ ⟨rfl, rfl⟩
  obtain ⟨inside, outside⟩ := get_putPend (s := s) (off := t0.grad) (bs := bs)
    (t := { u with mem := { u.mem with pend := Sparse.setMany 0 u.mem.pend t0.grad bs } }) (by rw [← pend])
  exact ⟨_, ex.trans (congrArg _ came), run, out, inside, outside⟩

/-! ### SDONE and DISCARD (R29, R353) -/

theorem sdone_spec {n : BitVec 64} (ht : twinOn s = true) (hs : s.led.st ≠ .restoring) (hc : compares (num s) n.toNat = false) :
    exec (.sdone n false) s = .next { s with led := { s.led with shadowOf := max s.led.shadowOf n.toNat },
                                             twin := { s.twin with compare := false, digFix := [] } } := by
  have nums : num { s with led := { s.led with shadowOf := max s.led.shadowOf n.toNat } } = num s := funext₂ (num_congr rfl rfl)
  have ex : exec (.sdone n false) s = .next (takeSdone n.toNat false s) := congrArg Host.Outcome.next (if_pos ht)
  rw [ex]
  unfold takeSdone
  dsimp only
  rw [if_neg Bool.false_ne_true, nums, hc, Bool.and_false, if_neg Bool.false_ne_true, if_neg hs]

theorem discard_spec {n : BitVec 64} (ht : twinOn s = true) (hs : s.twin.shadowN = 0) (hn : n.toNat = s.led.running) :
    exec (.discardMessage n) s = .next { s with twin := { s.twin with mruns := [], meas := none, shadowB := 0 } } :=
  congrArg Host.Outcome.next (if_pos (by rw [ht, decide_eq_true hs, decide_eq_true hn]; rfl))

/-! ### PULL and DATA of a layer (R358) -/

theorem pullLayer_spec {k : Nat} (hm : s.keep.mirror = false) (hr : AllReadable s (stateRanges (partnerLt s) k)) :
    Completes (.pull (.layer k false)) s fun t =>
      t.out = s.out ++ [.twin (.data (.layer k false) (rangeBytes s (stateRanges (partnerLt s) k)) (mirrorRef s k))] ∧
      t = { s with out := t.out, stat := { s.stat with boot := t.stat.boot, run := t.stat.run } } := by
  obtain ⟨r, read⟩ := fetchRanges_readable hr
  have ex : exec (.pull (.layer k false)) s = .next (countBoot 0x2A08 1 1 (countBoot 0x2A08 2
      (fetchRanges (stateRanges (partnerLt s) k) s).2.length (toTwin (.data (.layer k false) (fetchRanges (stateRanges (partnerLt s) k) s).2
        (mirrorRef (fetchRanges (stateRanges (partnerLt s) k) s).1 k)) (fetchRanges (stateRanges (partnerLt s) k) s).1))) :=
    congrArg Host.Outcome.next (if_neg (by simp [hm]))
  rw [read] at ex
  obtain ⟨r', told⟩ := toTwin_frame { s with stat := { s.stat with run := r } }
    (.data (.layer k false) (rangeBytes s (stateRanges (partnerLt s) k)) (mirrorRef s k))
  have ref : mirrorRef { s with stat := { s.stat with run := r } } k = mirrorRef s k := rfl
  dsimp only at ex
  rw [ref, told] at ex
  exact ⟨_, ex, rfl, rfl⟩

/-- A layer that is restored with the reference digest, while others are not. -/
theorem restoreLayer_agrees {k : Nat} {e : LayerEnt} {bs : Bytes} {ref : BitVec 128} (hj : s.fab.joining = false)
    (hl : s.twin.restore.filter (· ≠ k) ≠ []) (hd : (storedDigest (ownLt s) k (pokeRanges (stateRanges (ownLt s) k) bs s)).2 = ref) :
    (restoreLayer k e bs ref s).twin.restore = s.twin.restore.filter (· ≠ k) ∧ ownRef (restoreLayer k e bs ref s) k = ref ∧
      (restoreLayer k e bs ref s).led = s.led := by
  obtain ⟨x, hx⟩ : ∃ x, storedDigest (ownLt s) k (pokeRanges (stateRanges (ownLt s) k) bs s) = x := ⟨_, rfl⟩
  have same : ∀ {γ : Type} {g : State → γ}, MemBlind g → g x.1 = g s := fun hg => by
    rw [← hx]
    exact (hg.storedDigest ..).trans (hg.pokeRanges ..)
  have twin := same twinBlind
  have led := same ledBlind
  have fab := same (g := State.fab) ⟨fun _ _ _ _ _ _ _ _ _ _ _ _ _ _ _ _ _ => rfl⟩
  rw [hx] at hd
  obtain ⟨v, hv⟩ : ∃ v, rebuildWork (ownLt x.1) e (setOwnRef k ref x.1) = v := ⟨_, rfl⟩
  have built : ∀ {γ : Type} {g : State → γ}, MemBlind g → g v = g (setOwnRef k ref x.1) := fun hg => hv ▸ hg.rebuildWork ..
  have twin' : v.twin = { x.1.twin with refs := Sparse.set 0 x.1.twin.refs k ref } := built twinBlind
  have led' : v.led = x.1.led := built ledBlind
  have fab' : v.fab = x.1.fab := built (g := State.fab) ⟨fun _ _ _ _ _ _ _ _ _ _ _ _ _ _ _ _ _ => rfl⟩
  have left : v.twin.restore.filter (· ≠ k) = s.twin.restore.filter (· ≠ k) := by rw [twin', twin]
  have some : (s.twin.restore.filter (· ≠ k)).isEmpty = false := by simpa using hl
  have joins : v.fab.joining = false := by rw [fab', fab, hj]
  have done : ∃ b, restoreLayer k e bs ref s = { v with
      twin := { v.twin with restore := v.twin.restore.filter (· ≠ k) }, stat := { v.stat with boot := b } } := by
    unfold restoreLayer
    dsimp only
    rw [hx, if_pos hd, hv]
    rw [joins, if_neg Bool.false_ne_true]
    rw [if_neg (by
      show ¬ (v.twin.restore.filter (· ≠ k)).isEmpty = true
      rw [left, some]
      exact Bool.false_ne_true)]
    exact ⟨_, rfl⟩
  obtain ⟨b, e'⟩ := done
  rw [e']
  refine ⟨left, ?_, led'.trans led⟩
  show Sparse.get 0 v.twin.refs k = ref
  rw [twin']
  exact Sparse.get_set_self ..

theorem layerData_spec {k : Nat} {e : LayerEnt} {bs : Bytes} {ref : BitVec 128} (hm : s.keep.mirror = false) (hs : s.led.st = .restoring)
    (hj : s.fab.joining = false) (hk : layerEnt (ownLt s) k = some e) (hc : s.twin.restore.contains k = true)
    (hl : s.twin.restore.filter (· ≠ k) ≠ [])
    (hd : (storedDigest (ownLt s) k (pokeRanges (stateRanges (ownLt s) k) bs s)).2 = ref) :
    Completes (.data (.layer k false) bs ref) s fun t => t.twin.restore = s.twin.restore.filter (· ≠ k) ∧ ownRef t k = ref ∧ t.led = s.led := by
  have ex : exec (.data (.layer k false) bs ref) s = .next (takeData (.layer k false) bs ref s) :=
    congrArg Host.Outcome.next (if_neg (by simp [hm]))
  have taken : takeData (.layer k false) bs ref s = restoreLayer k e bs ref s := by
    unfold takeData
    dsimp only
    rw [hk]
    dsimp only
    rw [if_pos ⟨.inl hs, hc⟩]
  exact ⟨_, ex.trans (congrArg _ taken), restoreLayer_agrees hj hl hd⟩

/-! ### DIGREQ and DIGRSP (R356, R357) -/

/-- A layer is noted in resolution, once. -/
theorem noted_frame (k : Nat) (s : State) : ∃ b d, (if (s.twin.digFix.any fun x => decide (x.1 = k)) then s else countBoot 0x2A04 3 1 (noteFix k 1 s)) =
    { s with stat := { s.stat with boot := b }, twin := { s.twin with digFix := d } } ∧ ∃ x ∈ d, x.1 = k := by
  split
  · next h =>
    obtain ⟨x, hx, e⟩ := List.any_eq_true.1 h
    exact ⟨s.stat.boot, s.twin.digFix, rfl, x, hx, of_decide_eq_true e⟩
  · exact ⟨_, _, rfl, (k, 1), List.mem_append_right _ List.mem_cons_self, rfl⟩

theorem digreq_spec {k : Nat} {e : LayerEnt} (ht : twinOn s = true) (hk : layerEnt (ownLt s) k = some e)
    (hr : AllReadable s (layerRanges (ownLt s) k)) : Completes (.digreq k) s fun t =>
      t.out = s.out ++ [.twin (.digrsp k (twinDigest (rangeBytes s (layerRanges (ownLt s) k))) ((gradBytes false (ownLt s) e s).map twinDigest))] ∧
      (∃ x ∈ t.twin.digFix, x.1 = k) ∧ t.mem = s.mem ∧ t.units = s.units := by
  obtain ⟨b, d, e', fixed⟩ := noted_frame k s
  obtain ⟨u, hu⟩ : ∃ u : State, { s with stat := { s.stat with boot := b }, twin := { s.twin with digFix := d } } = u := ⟨_, rfl⟩
  have mem : SameMem s u := hu ▸ ⟨rfl, rfl, rfl, rfl, rfl, rfl⟩
  obtain ⟨lt, fix, out, hmem, units⟩ : ownLt u = ownLt s ∧ u.twin.digFix = d ∧ u.out = s.out ∧ u.mem = s.mem ∧ u.units = s.units :=
    hu ▸ ⟨rfl, rfl, rfl, rfl, rfl⟩
  obtain ⟨r, read⟩ := storedDigest_readable (s := u) (lt := ownLt u) (k := k) (by rw [lt]; exact mem.allReadable hr)
  obtain ⟨v, hv⟩ : ∃ v : State, { u with stat := { u.stat with run := r } } = v := ⟨_, rfl⟩
  have memv : SameMem s v := hv ▸ ⟨mem.strap, mem.recovery, mem.barges, mem.cells, mem.group, mem.badBlk⟩
  have ltv : ownLt v = ownLt s := hv ▸ lt
  have taken : takeDigreq k s = toTwin (.digrsp k (twinDigest (rangeBytes u (layerRanges (ownLt u) k)))
      ((gradBytes false (ownLt v) e v).map twinDigest)) v := by
    unfold takeDigreq
    rw [hk]
    dsimp only
    rw [e', hu, read, hv]
  rw [mem.rangeBytes, lt, ltv, memv.gradBytes] at taken
  have ex : exec (.digreq k) s = .next (takeDigreq k s) := congrArg Host.Outcome.next (if_pos ht)
  refine ⟨_, ex.trans (congrArg _ taken), ?_, ?_, ?_, ?_⟩
  · rw [toTwin_out, ← hv]
    exact congrArg (· ++ _) out
  · rw [toTwin_twin, ← hv]
    show ∃ x ∈ u.twin.digFix, x.1 = k
    rw [fix]
    exact fixed
  · rw [toTwin_mem, ← hv]
    exact hmem
  · rw [toTwin_units, ← hv]
    exact units

theorem digrsp_spec {k : Nat} {d : BitVec 128} (g : Option (BitVec 128)) (ht : twinOn s = true) (hk : k ≠ 0xFFFF) (hb : (mirrorRun s k).bad = false)
    (hc : s.twin.cmpLeft.contains k = true) (hr : AllReadable s (layerRanges (partnerLt s) k))
    (hd : d = twinDigest (rangeBytes s (layerRanges (partnerLt s) k))) : Completes (.digrsp k d g) s fun t =>
      t.twin = { s.twin with cmpLeft := s.twin.cmpLeft.filter (· ≠ k) } ∧ t.mem = s.mem ∧
      t.out = if s.twin.cmpLeft.filter (· ≠ k) = [] then s.out ++ [.twin (.sdone s.twin.mirror false)] else s.out := by
  obtain ⟨r, read⟩ := storedDigest_readable hr
  have ex : exec (.digrsp k d g) s = .next (takeDigrsp k d s) := congrArg Host.Outcome.next (if_pos ht)
  have taken : takeDigrsp k d s = compared k { s with stat := { s.stat with run := r } } := by
    unfold takeDigrsp
    rw [hb, if_neg Bool.false_ne_true, if_pos hc]
    unfold compareLayer
    rw [if_neg hk]
    dsimp only
    rw [read, hd, if_pos rfl]
  refine ⟨_, ex.trans (congrArg _ taken), ?_⟩
  unfold compared
  dsimp only
  by_cases hl : s.twin.cmpLeft.filter (· ≠ k) = []
  · rw [if_pos (by rw [hl]; rfl), if_pos hl]
    exact ⟨toTwin_twin .., toTwin_mem .., toTwin_out ..⟩
  · rw [if_neg (by simpa using hl), if_neg hl]
    exact ⟨rfl, rfl, rfl⟩

/-- Settles O53, message by message. -/
theorem twinStep : Obligations.TwinStep := by
  unfold Obligations.TwinStep
  refine ⟨fun s n off data => input_spec, fun s n k e t0 off data => grad_spec, fun s st k e n cs dg ds ht hn hk => ⟨fun h => ?_, fun h => ?_⟩,
    fun s st k e => gack_spec, fun s n m ht => ⟨stepm_spec ht n m, congrArg Host.Outcome.next (if_pos ht)⟩,
    fun s gen target es ht => ⟨_, congrArg Host.Outcome.next (if_pos ht), toTwin_told ..⟩,
    fun s gen => ⟨fun x => pack_spec, exec_pack_none⟩, fun s k e m => shadowLayerDone_spec, fun s k e t0 bs ref => gradData_spec ref,
    fun s n => sdone_spec, fun s n => discard_spec, fun s k => pullLayer_spec, fun s k e bs ref => layerData_spec,
    fun s k e => digreq_spec, fun s k d g => digrsp_spec g⟩
  · exact gend_good ht hn hk ((heldBad_none hk).2 h)
  · obtain ⟨cause, hc⟩ := Option.ne_none_iff_exists'.1 (mt (heldBad_none hk).1 h)
    exact gend_bad ht hn hk hc

end Sys2Proof.Machine
end

section
/-! SUPPORT. Side work at a boundary of a step: what leaves the ledger, the units, the repair map and the settings of the card as they
are, and takes back no output. -/

namespace Sys2Proof.Machine

open Sys2Proof.Claims

/-- What of a card, its units and its repair map apart, side work leaves. -/
structure Seen where
  strap    : Strap
  dict     : DictSt
  gates    : Sparse GateSt
  led      : LedgerSt
  active   : Option Nat
  declared : List Nat
  dev      : Dev
  mirror   : Bool
  inForce  : List Nat
  forced   : List Nat
  repGen   : Nat
  ringget  : Nat
  ringtake : Nat
  refresh  : BitVec 8
  slips    : Nat → Nat × Nat

/-- What retirements change: the units, the repair map and the counts of swaps (0x2C01). -/
structure MapSeen where
  units    : UnitsSt
  repair   : List Repair
  pendMap  : Bool
  swaps    : Nat
  unfilled : Nat

def seen (s : State) : Seen where
  strap := s.strap
  dict := s.dict
  gates := s.gates
  led := s.led
  active := s.plan.active
  declared := s.fab.declared
  dev := s.keep.dev
  mirror := s.keep.mirror
  inForce := s.keep.inForce
  forced := s.keep.forced
  repGen := s.boot.repGen
  ringget := s.host.ringget
  ringtake := s.host.ringtake
  refresh := s.mem.refresh
  slips p := (Sparse.get 0 s.stat.latch (ekey 0x5040 (p + 1)), Sparse.get 0 s.stat.latch (cyclesKey p))

def mapSeen (s : State) : MapSeen where
  units := s.units
  repair := s.boot.repair
  pendMap := s.boot.pendMap
  swaps := Sparse.get 0 s.stat.boot (ekey 0x2C01 1)
  unfilled := Sparse.get 0 s.stat.boot (ekey 0x2C01 3)

theorem mapSeen_congr {s t : State} (hu : t.units = s.units) (hr : t.boot.repair = s.boot.repair) (hp : t.boot.pendMap = s.boot.pendMap)
    (hs : Sparse.get 0 t.stat.boot (ekey 0x2C01 1) = Sparse.get 0 s.stat.boot (ekey 0x2C01 1))
    (hn : Sparse.get 0 t.stat.boot (ekey 0x2C01 3) = Sparse.get 0 s.stat.boot (ekey 0x2C01 3)) : mapSeen t = mapSeen s := by
  unfold mapSeen
  rw [hu, hr, hp, hs, hn]

/-- Side work since `s₀`. -/
structure Side (s₀ s : State) : Prop where
  seen : seen s = seen s₀
  map : mapSeen s = mapSeen s₀
  out : ∀ o ∈ s₀.out, o ∈ s.out

variable {s₀ s : State}

namespace Side

theorem refl (s : State) : Side s s := ⟨rfl, rfl, fun _ ho => ho⟩

theorem trans {t : State} (h : Side s₀ s) (h' : Side s t) : Side s₀ t :=
  ⟨h'.seen.trans h.seen, h'.map.trans h.map, fun o ho => h'.out o (h.out o ho)⟩

section
variable (h : Side s₀ s)
include h

theorem strap : s.strap = s₀.strap := congrArg Seen.strap h.seen
theorem dict : s.dict = s₀.dict := congrArg Seen.dict h.seen
theorem gates : s.gates = s₀.gates := congrArg Seen.gates h.seen
theorem led : s.led = s₀.led := congrArg Seen.led h.seen
theorem active : s.plan.active = s₀.plan.active := congrArg Seen.active h.seen
theorem declared : s.fab.declared = s₀.fab.declared := congrArg Seen.declared h.seen
theorem dev : s.keep.dev = s₀.keep.dev := congrArg Seen.dev h.seen
theorem mirror : s.keep.mirror = s₀.keep.mirror := congrArg Seen.mirror h.seen
theorem inForce : s.keep.inForce = s₀.keep.inForce := congrArg Seen.inForce h.seen
theorem forced : s.keep.forced = s₀.keep.forced := congrArg Seen.forced h.seen
theorem repGen : s.boot.repGen = s₀.boot.repGen := congrArg Seen.repGen h.seen
theorem ringget : s.host.ringget = s₀.host.ringget := congrArg Seen.ringget h.seen
theorem ringtake : s.host.ringtake = s₀.host.ringtake := congrArg Seen.ringtake h.seen
theorem refresh : s.mem.refresh = s₀.mem.refresh := congrArg Seen.refresh h.seen
theorem units : s.units = s₀.units := congrArg MapSeen.units h.map
theorem repair : s.boot.repair = s₀.boot.repair := congrArg MapSeen.repair h.map
theorem pendMap : s.boot.pendMap = s₀.boot.pendMap := congrArg MapSeen.pendMap h.map
theorem swaps : Sparse.get 0 s.stat.boot (ekey 0x2C01 1) = Sparse.get 0 s₀.stat.boot (ekey 0x2C01 1) := congrArg MapSeen.swaps h.map
theorem unfilled : Sparse.get 0 s.stat.boot (ekey 0x2C01 3) = Sparse.get 0 s₀.stat.boot (ekey 0x2C01 3) := congrArg MapSeen.unfilled h.map
theorem slip (p : Nat) : Sparse.get 0 s.stat.latch (ekey 0x5040 (p + 1)) = Sparse.get 0 s₀.stat.latch (ekey 0x5040 (p + 1)) :=
  congrArg (fun x => (x.slips p).1) h.seen
theorem cycles (p : Nat) : Sparse.get 0 s.stat.latch (cyclesKey p) = Sparse.get 0 s₀.stat.latch (cyclesKey p) :=
  congrArg (fun x => (x.slips p).2) h.seen

theorem num (idx sub : Nat) : num s idx sub = Machine.num s₀ idx sub := num_congr h.strap h.dict idx sub

/-- The ledger is changed alike on both sides. -/
theorem setLed (f : LedgerSt → LedgerSt) : Side { s₀ with led := f s₀.led } { s with led := f s.led } :=
  ⟨congrArg (fun x => { x with led := f x.led }) h.seen, h.map, h.out⟩

end

theorem ite {c : Prop} [Decidable c] {t : State} (hs : Side s₀ s) (ht : Side s₀ t) : Side s₀ (if c then s else t) := closed_ite hs ht

theorem foldl {α : Type} {f : State → α → State} (hf : ∀ s a, Side s₀ s → Side s₀ (f s a)) (xs : List α) (h : Side s₀ s) :
    Side s₀ (xs.foldl f s) := closed_foldl hf xs s h

/-- A write to device memory is side work. -/
theorem mem (s₀ : State) : MemClosed (Side s₀) where
  kept s o _ _ _ _ _ _ _ _ _ _ _ _ _ _ hm hb hs :=
    ⟨(congrArg (fun r => { Machine.seen s with refresh := r }) hm).trans hs.seen, Eq.trans (mapSeen_congr (s := s) rfl rfl rfl (hb _ (by decide)) (hb _ (by decide))) hs.map,
      fun x hx => List.mem_append_left o (hs.out x hx)⟩

end Side

end Sys2Proof.Machine
end

section
/-! SUPPORT. The parts of a boundary that are side work: events and messages, harvests and snapshots, migrations, readings and decisions
(R229 to R256, R289, R327 to R329, R371 to R375, R415). -/

namespace Sys2Proof.Machine

open Sys2Proof.Claims

variable {s₀ s : State}

/-- What an owner does is side work. -/
inductive Owner.Side (s₀ : State) : Owner → Prop
  | done {s : State} (h : Machine.Side s₀ s) : Owner.Side s₀ (.done s)
  | full : Owner.Side s₀ .full

theorem Owner.Side.ite {c : Prop} [Decidable c] {r q : Owner} (hr : r.Side s₀) (hq : q.Side s₀) : (if c then r else q).Side s₀ := by
  split
  · exact hr
  · exact hq

theorem Owner.Side.of_done {r : Owner} (h : r.Side s₀) (e : r = .done s) : Machine.Side s₀ s := by
  subst e
  cases h
  assumption

namespace Side

variable (h : Side s₀ s)
include h

/-! ### Events, interrupts and messages -/

/-- Output is added. -/
theorem added {t : State} (o : List Out) (ho : t.out = s.out ++ o) (hs : Machine.seen t = Machine.seen s) (hm : mapSeen t = mapSeen s) : Side s₀ t :=
  ⟨hs.trans h.seen, hm.trans h.map, fun x hx => ho ▸ List.mem_append_left o (h.out x hx)⟩

theorem raiseOpen {typ source detail : Nat} : Side s₀ (raiseOpen typ source detail s) := (mem s₀).raiseOpen h

theorem raiseVec {v : Nat} : Side s₀ (raiseVec v s) := by
  obtain ⟨o, p, e⟩ := raiseVec_pba s v
  rw [e]
  exact h.added o rfl rfl rfl

theorem lane0 {ps : List Nat} {d : Option Nat} {m : TpMsg} : Side s₀ (lane0 ps d m s) := by
  obtain ⟨r, e⟩ := lane0_frame s ps d m
  rw [e]
  exact h.added _ rfl rfl rfl

theorem toCardId {c : Nat} {m : TpMsg} : Side s₀ (toCardId c m s) := h.lane0

theorem toCard {l : Nat} {m : TpMsg} : Side s₀ (toCard l m s) := by
  cases hc : cardOf s l with
  | none => rw [toCard_none s m hc]; exact h
  | some c => rw [toCard_some s m hc]; exact h.toCardId

theorem toCards {ls : List Nat} {m : TpMsg} : Side s₀ (toCards ls m s) := foldl (fun _ _ h => h.toCard) ls h

theorem toTwin {m : TwMsg} : Side s₀ (toTwin m s) := by
  obtain ⟨r, e⟩ := toTwin_frame s m
  rw [e]
  exact h.added _ rfl rfl rfl

theorem reportAbort {cause layer : Nat} : Side s₀ (reportAbort cause layer s) := by
  obtain ⟨o, i, r, e⟩ := reportAbort_frame s cause layer
  rw [e]
  exact h.added o rfl rfl rfl

theorem askCard {c what : Nat} {m : UsdoMsg} : Side s₀ (askCard c what m s) :=
  have asked : Side s₀ { s with fab := { s.fab with recAsk := s.fab.recAsk ++ [(c, what)] } } := ⟨h.seen, h.map, h.out⟩
  (ite h asked).toCardId

theorem countRun {idx sub n : Nat} : Side s₀ (countRun idx sub n s) := (mem s₀).countRun h

theorem setMem {m : MemSt} (hm : m.refresh = s.mem.refresh := by rfl) : Side s₀ { s with mem := m } := (mem s₀).mem hm h

theorem setTwin {x : TwinSt} : Side s₀ { s with twin := x } := ⟨h.seen, h.map, h.out⟩

theorem setFab {f : FabricSt} (hf : f.declared = s.fab.declared := by rfl) : Side s₀ { s with fab := f } :=
  ⟨Eq.trans (congrArg (fun d => { Machine.seen s with declared := d }) hf) h.seen, h.map, h.out⟩

/-! ### Harvests and snapshots -/

theorem closeSnap {k : Nat} : Side s₀ (closeSnap k s) := ⟨h.seen, h.map, h.out⟩

theorem openSnaps : Side s₀ (openSnaps s) := by
  refine foldl (fun s k h => ?_) _ h
  have opened : Side s₀ { Machine.setSnap k { getSnap s k with state := 2, step := s.led.committed, order := s.mem.snapSeq } s with
      mem := { (Machine.setSnap k { getSnap s k with state := 2, step := s.led.committed, order := s.mem.snapSeq } s).mem with
        snapSeq := s.mem.snapSeq + 1 } } := ⟨h.seen, h.map, h.out⟩
  exact ite (ite ⟨opened.seen, opened.map, opened.out⟩ opened) h

theorem harvest {x : HarvestSt} : Side s₀ { s with harv := x } := ⟨h.seen, h.map, h.out⟩

theorem harvWrite {kind addr ref : Nat} {data : Bytes} : Side s₀ (harvWrite kind addr ref data s) := ⟨h.seen, h.map, h.out⟩

theorem setHarv {st : Nat} : Side s₀ (setHarv st s) :=
  ite h.harvest (raiseVec h.harvest)

theorem harvEnd : Side s₀ (harvEnd s) := by
  have closed : Side s₀ (match s.harv.snap with
      | none => s
      | some k => Machine.closeSnap k s) := by
    split
    · exact h
    · exact h.closeSnap
  exact ⟨closed.seen, closed.map, closed.out⟩

theorem harvFail {cause : Nat} : Side s₀ (harvFail cause s) :=
  ite (raiseOpen (setHarv (harvEnd h.harvest))) h

theorem harvStop : Side s₀ (harvStop s) := ite h.harvFail h

theorem harvStart {block : Bytes} : Side s₀ (harvStart block s) := by
  unfold Machine.harvStart
  extract_lets +onlyGivenNames _ s₁ n _ s₂
  have begun : Side s₀ s₁ := setHarv h.harvest
  have sized : Side s₀ s₂ := begun.harvest
  refine ite sized.harvFail (ite sized.harvFail (ite sized.harvFail ?_))
  split
  · exact sized.harvFail
  extract_lets +onlyGivenNames dir s₃ _ _ s₄
  have snapped : Side s₀ s₄ := ⟨sized.seen, sized.map, sized.out⟩
  refine ite (foldl (fun _ _ h => h.harvWrite) _ snapped.harvWrite) ?_
  split
  · exact snapped.harvFail
  · exact snapped.askCard

theorem harvAtCommit {n : Nat} {block : Bytes} : Side s₀ (harvAtCommit n block s) :=
  ite (ite h.harvStart h) (ite h (ite (harvStart h.harvest) h))

/-! ### The host -/

theorem hostWrite {kind addr ref : Nat} {data : Bytes} {vec : Option Nat} : Side s₀ (hostWrite kind addr ref data vec s) :=
  ite h ⟨h.seen, h.map, h.out⟩

theorem commitFlag : Side s₀ (commitFlag s) := ite h h.hostWrite

theorem commitTpdos : Side s₀ (commitTpdos s) := by
  refine foldl (fun s n h => ite ?_ h) _ h
  exact ite h (h.added [_] rfl rfl rfl)

/-! ### Migrations -/

theorem setBarge {b : Nat} {e : BargeEnt} : Side s₀ (setBarge b e s) := h.setMem

theorem startCopy {b region : Nat} {took : Bool} : Side s₀ (startCopy b region took s) := h.setMem

theorem tookResv {f : Nat} : Side s₀ (tookResv f s) := h.setMem

theorem ownerPromote {b : Nat} {la : Bool} : (ownerPromote b la s).Side s₀ := by
  generalize hf : Machine.ownerPromote = f
  delta Machine.ownerPromote at hf
  obtain ⟨free, e⟩ := exists_eq' (a' := freeBasin)
  rw [e] at hf
  subst hf
  beta_reduce
  extract_lets +onlyGivenNames e
  split
  · split
    · exact .done h.countRun
    extract_lets +onlyGivenNames s₁
    have counted : Side s₀ s₁ := ite h.countRun h
    exact .ite (.done (countRun counted.setBarge)) (.ite .full (.done (startCopy counted.setBarge)))
  · exact .done (countRun h.setBarge)
  · exact .done h

theorem ownerEvict {b : Nat} : (ownerEvict b s).Side s₀ := by
  conv => arg 2; delta Machine.ownerEvict
  extract_lets e cancel
  have cancelled : cancel.Side s₀ := .done h.countRun
  split
  · exact cancelled
  · refine .ite cancelled (.ite (.done (countRun h.setBarge)) ?_)
    split
    · exact cancelled
    extract_lets s₁ _
    have taken : Side s₀ s₁ := ite h h.tookResv
    exact .ite (.done (countRun taken.setBarge)) (.ite .full (.done (startCopy taken.setBarge)))
  · exact .done h

theorem takeRequest {r : MigReq} : Side s₀ (takeRequest r s) := by
  unfold Machine.takeRequest
  have tried : (ownerTry r s).Side s₀ := .ite h.ownerPromote h.ownerEvict
  dsimp only
  split
  · exact h.setMem
  split
  · next e => exact tried.of_done e
  · exact h.setMem

theorem request {r : MigReq} : Side s₀ (request r s) := ite h.setMem h.takeRequest

theorem registerUse {b ends : Nat} : Side s₀ (registerUse b ends s) := setBarge h.setMem

theorem endUse {b : Nat} : Side s₀ (endUse b s) := by
  unfold Machine.endUse
  exact ite (request (countRun h.setBarge)) h.setBarge

theorem endUses : Side s₀ (endUses s) := foldl (fun _ _ h => h.endUse) _ h.setMem

theorem lookahead {i : Nat} {e : SchedEnt} : Side s₀ (lookahead i e s) := by
  have read : Side s₀ (readDev e.vaddr (4 * e.nexp) .clean s).state := (mem s₀).readDev h
  conv => arg 2; delta Machine.lookahead
  refine ite h.setMem ?_
  split
  · next e => exact closed_out read e
  · next e => exact closed_out read e
  · next e =>
    refine foldl (fun _ _ h => ite h ?_) _ (closed_out read e)
    exact foldl (fun _ _ h => request (setBarge h.registerUse)) _ h

theorem issuePromote {i : Nat} {e : SchedEnt} {step : Nat} : Side s₀ (issuePromote i e step s) :=
  foldl (fun _ _ h => request h.registerUse) _ h.setMem

theorem judgeLate : Side s₀ (judgeLate s) := foldl (fun _ _ h => ite (countRun h.setMem) h) _ h

theorem beginSlot {k : Nat} : Side s₀ (beginSlot k s) := by
  have evicted : ∀ xs : List (SchedEnt × Nat), Side s₀ _ := fun xs => foldl (f := fun s e => (e.1.barges e.1.first).foldl (fun s b => raiseEvict b s) s)
    (fun _ _ h => foldl (fun _ _ h => h.request) _ h) xs
    (endUses (h.setMem (m := { s.mem with slot := k, epoch := (s.mem.epoch + 1) % 2 ^ 32 })))
  refine ite h (judgeLate (foldl (fun _ _ h => h.issuePromote) _ (foldl (fun _ _ h => h.lookahead) _ (evicted _))))

theorem moveBytes {src dst n : Nat} : Side s₀ (moveBytes src dst n s) := h.setMem

theorem moveOff {b : Nat} : Side s₀ (moveOff b s) := by
  unfold Machine.moveOff
  extract_lets e s₁ e₁
  have moved : Side s₀ s₁ := by
    refine ite ?_ h
    split
    · exact h
    · exact setBarge h.moveBytes
  refine ite ?_ moved
  split
  · exact moved
  · exact setBarge (moveBytes moved.tookResv)

theorem moveOffAll : Side s₀ (moveOffAll s) := by
  have moved : Side s₀ (s.mem.moveOff.foldl (fun s b => Machine.moveOff b s) s) := foldl (fun _ _ h => h.moveOff) _ h
  unfold Machine.moveOffAll
  dsimp only
  generalize s.mem.moveOff.foldl (fun s b => Machine.moveOff b s) s = t at moved ⊢
  exact moved.setMem

/-! ### Readings and decisions -/

/-- Statistics of the committed step other than the slips are set. -/
theorem setLatch {idx sub v : Nat} (hk : idx < 0x5040) (hsub : sub < 256) : Side s₀ (setLatch idx sub v s) := by
  have other : ∀ x, 0x5040 * 256 ≤ x → Sparse.get 0 (Machine.setLatch idx sub v s).stat.latch x = Sparse.get 0 s.stat.latch x := by
    intro x hx
    refine Sparse.get_set_ne _ _ _ ?_
    unfold ekey
    omega
  refine ⟨Eq.trans (congrArg (fun f => { Machine.seen s with slips := f }) (funext fun p => ?_)) h.seen, h.map, h.out⟩
  exact Prod.ext (other _ (by unfold ekey; omega)) (other _ (by unfold cyclesKey ekey; omega))

theorem latchReadings : Side s₀ (latchReadings s) := by
  unfold Machine.latchReadings
  extract_lets s₁ rows cycles s₂ slip s₃
  have perStack : Side s₀ s₁ := List.foldlRecOn (motive := Side s₀) _ _ h fun s hs k hk => by
    have low := List.mem_range.1 hk
    exact setLatch (setLatch hs (by decide) (by omega)) (by decide) (by omega)
  have share : Side s₀ s₂ := setLatch perStack (by decide) (by decide)
  have slips : Side s₀ s₃ := setLatch (setLatch (setLatch share (by decide) (by decide)) (by decide) (by decide)) (by decide) (by decide)
  exact ⟨slips.seen, slips.map, slips.out⟩

theorem commitEvents : Side s₀ (commitEvents s) := by
  unfold Machine.commitEvents
  extract_lets lost s₁ faults s₂ sum
  have first : Side s₀ s₁ := ite h.raiseOpen h
  have second : Side s₀ s₂ := ite first.raiseOpen first
  exact ite second.raiseOpen second

theorem sayCodes {old new logic stackT : List Nat} : Side s₀ (sayCodes old new logic stackT s) :=
  foldl (fun _ _ h => ite h h.raiseOpen) _ h

/-- A count since boot, other than those of swaps, is set. -/
theorem setBoot {idx sub v : Nat} (hs : ekey 0x2C01 1 ≠ ekey idx sub) (hn : ekey 0x2C01 3 ≠ ekey idx sub) : Side s₀ (setBoot idx sub v s) :=
  ⟨h.seen, Eq.trans (mapSeen_congr (s := s) rfl rfl rfl (Sparse.get_set_ne _ _ _ hs) (Sparse.get_set_ne _ _ _ hn)) h.map, h.out⟩

theorem judgeSlow : Side s₀ (judgeSlow s) :=
  ite (raiseOpen (setBoot (idx := 0x2C28) (sub := 2) h.setFab (by decide) (by decide))) h.setFab

theorem markMirror {b : Nat} : Side s₀ (markMirror s b) := ite (toTwin (setTwin h.setTwin)) h.setTwin

theorem commitLayers : Side s₀ (commitLayers s) := by
  unfold Machine.commitLayers
  refine foldl (fun s k h => ?_) _ h
  split
  · exact h
  · exact setTwin ((mem s₀).pokeDev h)

theorem mapHeld {f : Held → Held} {addr blocks : Nat} : Side s₀ (mapHeld f addr blocks s).1 := by
  generalize hp : Machine.mapHeld f addr blocks s = p
  generalize hf : Machine.mapHeld = g at hp
  delta Machine.mapHeld at hf
  subst hf
  beta_reduce at hp
  have read : Side s₀ (readDev addr (4 * blocks) .clean s).state := (mem s₀).readDev h
  split at hp
  · next e => exact hp ▸ closed_pair ((mem s₀).pokeDev (closed_out read e))
  · exact hp ▸ closed_pair read

theorem mapHelds {f : Held → Held} : Side s₀ (mapHelds f s).1 :=
  closed_foldlFst (fun _ _ hp => closed_pair (mapHeld hp)) _ _ h

theorem commitHeld : Side s₀ (commitHeld s) := setLatch (setLatch h.mapHelds (by decide) (by decide)) (by decide) (by decide)

theorem clearReadings : Side s₀ (clearReadings s) := ⟨h.seen, h.map, h.out⟩

theorem partnerParts {due : Part → Bool} : Side s₀ (partnerParts due s) := ite h h.setTwin

theorem commitTwin {n : Nat} : Side s₀ (commitTwin n s) := ite (partnerParts h.setTwin) h

theorem tellHandover : Side s₀ (tellHandover s) := by
  unfold Machine.tellHandover
  split
  · exact h
  · exact ite h (foldl (fun _ _ h => h.askCard) _ h.setFab)

theorem setRec {st : Nat} : Side s₀ (setRec st s) := ite h.setFab (raiseOpen h.setFab)

theorem recComplete : Side s₀ (recComplete s) := ite (setRec (setFab (setBoot (idx := 0x2C11) (sub := 4) h (by decide) (by decide)))) h

theorem retainInput {n slot : Nat} : Side s₀ (retainInput n slot s) := by
  unfold Machine.retainInput
  extract_lets p keep
  have kept : ∀ {s d}, Side s₀ s → Side s₀ (keep s d) := fun h => (mem s₀).pondWrite (fun _ h => h.setMem) h
  refine ite (kept h) ?_
  have read : Side s₀ (readDev (p.ringBase + slot * p.ringSlot) p.ringSlot .clean s).state := (mem s₀).readDev h
  split
  · next e => exact kept (closed_out read e)
  · exact (kept read).reportAbort

end Side

end Sys2Proof.Machine
end

section
/-! SUPPORT. Retirements and swaps of units at a boundary, the slip policy, and the repair map that is then written (R13, R14, R367,
R368, R443). -/

namespace Sys2Proof.Machine

open Sys2Proof.Claims

variable {s : State}

/-! ### The repair map is written -/

/-- The repair map of `s` has been written. -/
structure Written (s t : State) : Prop where
  seen : seen t = { seen s with repGen := nextGen s.boot.repGen }
  map : mapSeen t = { mapSeen s with pendMap := false }
  out : ∀ o ∈ s.out, o ∈ t.out
  wrote : .flashWrite 1 ∈ t.out

theorem writeMap_written (h : s.boot.pendMap = true) : Written s (writeMap s) := by
  unfold writeMap
  rw [if_pos h]
  dsimp only
  obtain ⟨u, hu⟩ : ∃ u, send (.flashWrite 1) { s with boot := { s.boot with
      pendMap := false, repGen := nextGen s.boot.repGen,
      flash := { s.boot.flash with maps := putCopy (·.gen) { gen := nextGen s.boot.repGen, recs := s.boot.repair } s.boot.flash.maps } } } = u :=
    ⟨_, rfl⟩
  have wrote : .flashWrite 1 ∈ u.out := hu ▸ List.mem_append_right _ List.mem_cons_self
  have out : ∀ o ∈ s.out, o ∈ u.out := fun o ho => hu ▸ List.mem_append_left _ ho
  have seen : seen u = { seen s with repGen := nextGen s.boot.repGen } := hu ▸ rfl
  have map : mapSeen u = { mapSeen s with pendMap := false } := hu ▸ rfl
  rw [hu]
  have side := (Side.mem u).raise (typ := 0x35) (sev := 0) (source := noSource) (detail := nextGen s.boot.repGen) (Side.refl u)
  exact ⟨side.seen.trans seen, side.map.trans map, fun o ho => side.out o (out o ho), side.out _ wrote⟩

/-! ### One retirement -/

/-- The repair map with the record of a unit's retirement, to be written. -/
def recordRetirement (p cond : Nat) (s : State) : State :=
  { s with boot := { s.boot with
    repair := s.boot.repair ++ [{ typ := 1, cause := cond, pos := p, step := s.led.committed }], pendMap := true } }

/-- The card whose unit `p` carries no logical unit any more. -/
def unitGone (p cond : Nat) (s : State) : State := setCond p cond (mapUnit p 0xFF (recordRetirement p cond s))

/-- The card whose spare `q` carries the logical unit `l` of `p`. -/
def unitSwapped (p q cond l : Nat) (s : State) : State :=
  let u := unitGone p cond s
  setCond q 0 (mapUnit q l (setUnit p {} (setUnit q (if u.plan.active.isSome then loadedUnit (getUnit u p) else {}) u)))

/-- The swap is counted, and the step of the latest swap noted (0x2C01). -/
def swapCounted (p q cond : Nat) (s : State) : State :=
  setBoot 0x2C01 2 s.led.committed (countBoot 0x2C01 1 1 (unitSwapped p q cond (logicalUnit s p) s))

/-- While a job runs a change of the map waits for the boundary. -/
theorem addRepair_running (h : jobRuns s = true) (r : Repair) :
    addRepair r s = { s with boot := { s.boot with repair := s.boot.repair ++ [r], pendMap := true } } := by
  unfold addRepair
  exact if_pos (by simp [show jobRuns { s with boot := { s.boot with repair := s.boot.repair ++ [r], pendMap := true } } = true from h])

/-- The spare that takes the logical unit of a unit that retires. -/
def takesOver (p cond : Nat) (s : State) : Option Nat :=
  if logicalUnit s p < 64 then spareOf (unitGone p cond s) (regionOf p) else none

theorem retireUnit_lost (h : jobRuns s = true) {p cond : Nat} (hq : takesOver p cond s = none) :
    retireUnit p cond s = setUnit p {} (unitGone p cond s) := by
  unfold takesOver at hq
  unfold retireUnit
  dsimp only
  rw [addRepair_running h]
  change (match (if logicalUnit s p < 64 then spareOf (unitGone p cond s) (regionOf p) else none) with
    | none => _
    | some q => _) = _
  rw [hq]
  rfl

theorem retireUnit_swap (h : jobRuns s = true) {p q cond : Nat} (hq : takesOver p cond s = some q) :
    retireUnit p cond s = raiseOpen 0x0F noSource (pack [(8, p), (8, q), (8, cond)]) (swapCounted p q cond s) := by
  unfold takesOver at hq
  unfold retireUnit
  dsimp only
  rw [addRepair_running h]
  change (match (if logicalUnit s p < 64 then spareOf (unitGone p cond s) (regionOf p) else none) with
    | none => _
    | some q => _) = _
  rw [hq]
  rfl

theorem logicalUnit_unitGone (p cond x : Nat) (s : State) :
    logicalUnit (unitGone p cond s) x = if x = p then 0xFF else logicalUnit s x := by
  show Sparse.get 0xFF (Sparse.set 0xFF s.units.map p 0xFF) x = _
  exact Sparse.get_set ..

theorem mem_regionUnits {x g : Nat} : x ∈ regionUnits g ↔ x / 9 = g := by
  simp only [regionUnits, List.mem_map, List.mem_range]
  constructor
  · rintro ⟨i, hi, rfl⟩
    omega
  · intro h
    exact ⟨x % 9, by omega, by omega⟩

/-- A standing spare after a unit has gone was one before. -/
theorem spare_of_gone {p cond x : Nat} (hx : logicalUnit (unitGone p cond s) x = 0xFE) : logicalUnit s x = 0xFE := by
  rw [logicalUnit_unitGone] at hx
  split at hx
  · cases hx
  · exact hx

section
variable {p : Nat} (hl : logicalUnit s p < 64) (cond : Nat)
include hl

theorem takesOver_none (hn : NoSpare s p) : takesOver p cond s = none := by
  unfold takesOver spareOf
  rw [if_pos hl, List.find?_eq_none]
  intro x hx
  have other := hn x (mem_regionUnits.1 hx)
  exact fun h => other (spare_of_gone (of_decide_eq_true h))

theorem takesOver_spare {q : Nat} (hq : SpareIs s p q) : takesOver p cond s = some q := by
  obtain ⟨-, region, spare, only⟩ := hq
  unfold takesOver spareOf
  rw [if_pos hl]
  cases hf : (regionUnits (regionOf p)).find? fun x => decide (logicalUnit (unitGone p cond s) x = 0xFE) with
  | none =>
    have none := List.find?_eq_none.1 hf q (mem_regionUnits.2 region)
    have differs : q ≠ p := fun e => by rw [e] at spare; omega
    rw [logicalUnit_unitGone, if_neg differs, spare] at none
    exact absurd rfl (of_decide_eq_false (Bool.eq_false_iff.2 none))
  | some x =>
    have found := List.find?_some hf
    have stands := spare_of_gone (of_decide_eq_true found)
    rw [only x (mem_regionUnits.1 (List.mem_of_find?_eq_some hf)) stands]

end

/-! ### What a retirement leaves -/

/-- What a retirement leaves, apart from the units, and how far it has come with the repair map. -/
structure Retires (s t : State) : Prop where
  seen : seen t = seen s
  repair : s.boot.repair <+: t.boot.repair
  owed : t.units.owed = s.units.owed
  pend : s.boot.pendMap = true → t.boot.pendMap = true
  out : ∀ o ∈ s.out, o ∈ t.out

namespace Retires

theorem refl (s : State) : Retires s s := ⟨rfl, List.prefix_rfl, rfl, id, fun _ ho => ho⟩

variable {t u : State} (h : Retires s t)
include h

theorem trans (h' : Retires t u) : Retires s u :=
  ⟨h'.seen.trans h.seen, h.repair.trans h'.repair, h'.owed.trans h.owed, h'.pend ∘ h.pend, fun o ho => h'.out o (h.out o ho)⟩

theorem jobRuns : jobRuns t = Machine.jobRuns s := by
  unfold Machine.jobRuns
  rw [show t.led = s.led from congrArg Seen.led h.seen]

theorem num (idx sub : Nat) : num t idx sub = Machine.num s idx sub :=
  num_congr (congrArg Seen.strap h.seen) (congrArg Seen.dict h.seen) idx sub

theorem setUnit (p : Nat) (x : UnitSt) : Retires s (setUnit p x t) := ⟨h.seen, h.repair, h.owed, h.pend, h.out⟩

theorem mapUnit (p l : Nat) : Retires s (mapUnit p l t) := ⟨h.seen, h.repair, h.owed, h.pend, h.out⟩

theorem setCond (p c : Nat) : Retires s (setCond p c t) := ⟨h.seen, h.repair, h.owed, h.pend, h.out⟩

theorem counts (b : Sparse Nat) : Retires s { t with stat := { t.stat with boot := b } } := ⟨h.seen, h.repair, h.owed, h.pend, h.out⟩

theorem slipRuns (m : Sparse Nat) : Retires s { t with units := { t.units with slipRun := m } } := ⟨h.seen, h.repair, h.owed, h.pend, h.out⟩

theorem record (p cond : Nat) : Retires s (recordRetirement p cond t) :=
  ⟨h.seen, h.repair.trans (List.prefix_append ..), h.owed, fun _ => rfl, h.out⟩

theorem side (h' : Side t u) : Retires s u :=
  ⟨h'.seen.trans h.seen, h'.repair ▸ h.repair, (congrArg UnitsSt.owed h'.units).trans h.owed, fun hp => h'.pendMap.trans (h.pend hp),
    fun o ho => h'.out o (h.out o ho)⟩

end Retires

theorem retires_unitGone (p cond : Nat) : Retires s (unitGone p cond s) := (((Retires.refl s).record p cond).mapUnit p 0xFF).setCond p cond

theorem retires_swapCounted (p q cond : Nat) : Retires s (swapCounted p q cond s) :=
  ((((((retires_unitGone p cond).setUnit q _).setUnit p {}).mapUnit q _).setCond q 0).counts _).counts _

/-- The repair map is to be written after a retirement. -/
theorem pendMap_swapCounted (p q cond : Nat) : (swapCounted p q cond s).boot.pendMap = true :=
  ((((((Retires.refl (unitGone p cond s)).setUnit q _).setUnit p {}).mapUnit q _).setCond q 0).counts _).counts _ |>.pend rfl

theorem retireUnit_retires (h : jobRuns s = true) (p cond : Nat) : Retires s (retireUnit p cond s) ∧ (retireUnit p cond s).boot.pendMap = true := by
  cases hq : takesOver p cond s with
  | none =>
    rw [retireUnit_lost h hq]
    exact ⟨(retires_unitGone p cond).setUnit p {}, rfl⟩
  | some q =>
    rw [retireUnit_swap h hq]
    have said := (Side.refl (swapCounted p q cond s)).raiseOpen (typ := 0x0F) (source := noSource) (detail := pack [(8, p), (8, q), (8, cond)])
    exact ⟨(retires_swapCounted p q cond).side said, said.pendMap.trans (pendMap_swapCounted p q cond)⟩

/-! ### A swap -/

/-- A unit's logical unit has gone to the spare. -/
structure SwapMade (s t : State) (p q cond : Nat) : Prop where
  retires : Retires s t
  spare : logicalUnit t q = logicalUnit s p
  gone : logicalUnit t p = 0xFF
  others : ∀ x, x ≠ p → x ≠ q → logicalUnit t x = logicalUnit s x
  retired : Sparse.get 0 t.units.cond p = cond
  spareCond : Sparse.get 0 t.units.cond q = 0
  empty : getUnit t p = {}
  loaded : s.plan.active ≠ none → getUnit t q = loadedUnit (getUnit s p)
  repair : t.boot.repair = s.boot.repair ++ [{ typ := 1, cause := cond, pos := p, step := s.led.committed }]
  pend : t.boot.pendMap = true
  swaps : Sparse.get 0 t.stat.boot (ekey 0x2C01 1) = Sparse.get 0 s.stat.boot (ekey 0x2C01 1) + 1

theorem SwapMade.side {t u : State} {p q cond : Nat} (h : SwapMade s t p q cond) (h' : Side t u) : SwapMade s u p q cond where
  retires := h.retires.side h'
  spare := by unfold logicalUnit; rw [h'.units]; exact h.spare
  gone := by unfold logicalUnit; rw [h'.units]; exact h.gone
  others := by unfold logicalUnit; rw [h'.units]; exact h.others
  retired := by rw [h'.units]; exact h.retired
  spareCond := by rw [h'.units]; exact h.spareCond
  empty := by unfold getUnit; rw [h'.units]; exact h.empty
  loaded := by unfold getUnit; rw [h'.units]; exact h.loaded
  repair := h'.repair.trans h.repair
  pend := h'.pendMap.trans h.pend
  swaps := h'.swaps.trans h.swaps

theorem units_setUnit (p : Nat) (x : UnitSt) (s : State) : (setUnit p x s).units = { s.units with phys := Sparse.set {} s.units.phys p x } := rfl

theorem units_mapUnit (p l : Nat) (s : State) : (mapUnit p l s).units = { s.units with map := Sparse.set 0xFF s.units.map p l } := rfl

theorem units_setCond (p c : Nat) (s : State) : (setCond p c s).units = { s.units with cond := Sparse.set 0 s.units.cond p c } := rfl

theorem units_unitGone (p cond : Nat) (s : State) : (unitGone p cond s).units =
    { s.units with map := Sparse.set 0xFF s.units.map p 0xFF, cond := Sparse.set 0 s.units.cond p cond } := rfl

theorem units_swapCounted (p q cond : Nat) (s : State) : (swapCounted p q cond s).units = { s.units with
    map := Sparse.set 0xFF (Sparse.set 0xFF s.units.map p 0xFF) q (logicalUnit s p)
    cond := Sparse.set 0 (Sparse.set 0 s.units.cond p cond) q 0
    phys := Sparse.set {} (Sparse.set {} s.units.phys q (if s.plan.active.isSome then loadedUnit (getUnit s p) else {})) p {} } := by
  have counted : (swapCounted p q cond s).units = (unitSwapped p q cond (logicalUnit s p) s).units := rfl
  rw [counted, unitSwapped, units_setCond, units_mapUnit, units_setUnit, units_setUnit, units_unitGone]
  rfl

theorem boot_unitSwapped (p q cond l : Nat) (s : State) : (unitSwapped p q cond l s).boot = { s.boot with
    repair := s.boot.repair ++ [{ typ := 1, cause := cond, pos := p, step := s.led.committed }], pendMap := true } := by
  have units : ∀ (p l c : Nat) (x : UnitSt) (s : State), (setCond p c s).boot = s.boot ∧ (mapUnit p l s).boot = s.boot ∧ (setUnit p x s).boot = s.boot :=
    fun _ _ _ _ _ => ⟨rfl, rfl, rfl⟩
  rw [unitSwapped, (units q 0 0 {} _).1, (units q l 0 {} _).2.1, (units p 0 0 {} _).2.2, (units q 0 0 _ _).2.2]
  rfl

theorem swaps_swapCounted (p q cond : Nat) (s : State) : Sparse.get 0 (swapCounted p q cond s).stat.boot (ekey 0x2C01 1) =
    Sparse.get 0 s.stat.boot (ekey 0x2C01 1) + 1 := by
  have units : ∀ (p l c : Nat) (x : UnitSt) (s : State), (setCond p c s).stat = s.stat ∧ (mapUnit p l s).stat = s.stat ∧ (setUnit p x s).stat = s.stat :=
    fun _ _ _ _ _ => ⟨rfl, rfl, rfl⟩
  have before : (unitSwapped p q cond (logicalUnit s p) s).stat = s.stat := by
    rw [unitSwapped, (units q 0 0 {} _).1, (units q _ 0 {} _).2.1, (units p 0 0 {} _).2.2, (units q 0 0 _ _).2.2]
    rfl
  have counted : (swapCounted p q cond s).stat.boot = Sparse.set 0
      (Sparse.modify 0 (unitSwapped p q cond (logicalUnit s p) s).stat.boot (ekey 0x2C01 1) (· + 1)) (ekey 0x2C01 2) s.led.committed := rfl
  rw [counted, before, Sparse.get_set_ne _ _ _ (by decide), Sparse.get_modify, if_pos rfl]

theorem swapMade_swapCounted {p q cond : Nat} (hq : q ≠ p) : SwapMade s (swapCounted p q cond s) p q cond := by
  have units := units_swapCounted p q cond s
  have boot : (swapCounted p q cond s).boot = (unitSwapped p q cond (logicalUnit s p) s).boot := rfl
  rw [boot_unitSwapped] at boot
  refine ⟨retires_swapCounted p q cond, ?_, ?_, fun x hp hx => ?_, ?_, ?_, ?_, fun ha => ?_, ?_, ?_, swaps_swapCounted p q cond s⟩
  · rw [logicalUnit, units, Sparse.get_set_self]
  · rw [logicalUnit, units, Sparse.get_set_ne _ _ _ hq.symm, Sparse.get_set_self]
  · rw [logicalUnit, units, Sparse.get_set_ne _ _ _ hx, Sparse.get_set_ne _ _ _ hp]
    rfl
  · rw [units, Sparse.get_set_ne _ _ _ hq.symm, Sparse.get_set_self]
  · rw [units, Sparse.get_set_self]
  · rw [getUnit, units, Sparse.get_set_self]
  · rw [getUnit, units, Sparse.get_set_ne _ _ _ hq, Sparse.get_set_self, if_pos (Option.isSome_iff_ne_none.2 ha)]
  · rw [boot]
  · rw [boot]

/-- A unit whose region has a standing spare is swapped with it. -/
theorem retireUnit_swapMade (h : jobRuns s = true) {p q cond : Nat} (hl : logicalUnit s p < 64) (hq : SpareIs s p q) :
    SwapMade s (retireUnit p cond s) p q cond := by
  have differs : q ≠ p := fun e => by
    have spare := hq.2.2.1
    rw [e] at spare
    omega
  rw [retireUnit_swap h (takesOver_spare hl cond hq)]
  exact (swapMade_swapCounted differs).side (Side.refl _).raiseOpen

/-- The unit of a region without a standing spare is retired, and none takes its logical unit. -/
theorem retireUnit_noSpare (h : jobRuns s = true) {p cond : Nat} (hl : logicalUnit s p < 64) (hn : NoSpare s p) :
    retireUnit p cond s = setUnit p {} (unitGone p cond s) := retireUnit_lost h (takesOver_none hl cond hn)

/-! ### The retirements that are owed -/

theorem retireOwed_retires (h : jobRuns s = true) :
    Retires { s with units := { s.units with owed := [] } } (retireOwed s) ∧ (s.units.owed ≠ [] → (retireOwed s).boot.pendMap = true) := by
  have fold : ∀ (xs : List (Nat × Nat)) (t : State), jobRuns t = true → Retires t (xs.foldl (fun s x => retireUnit x.1 x.2 s) t) ∧
      (xs ≠ [] → (xs.foldl (fun s x => retireUnit x.1 x.2 s) t).boot.pendMap = true) := by
    intro xs
    induction xs with
    | nil => exact fun t _ => ⟨.refl t, fun hx => absurd rfl hx⟩
    | cons x xs ih =>
      intro t ht
      obtain ⟨first, pend⟩ := retireUnit_retires ht x.1 x.2
      obtain ⟨rest, -⟩ := ih (retireUnit x.1 x.2 t) (first.jobRuns.trans ht)
      exact ⟨first.trans rest, fun _ => rest.pend pend⟩
  exact fold s.units.owed { s with units := { s.units with owed := [] } } h

/-- One retirement is owed, and made. -/
theorem retireOwed_one {p cond : Nat} (h : s.units.owed = [(p, cond)]) :
    retireOwed s = retireUnit p cond { s with units := { s.units with owed := [] } } := by
  unfold retireOwed
  rw [h]
  rfl

/-! ### The slip policy (R367) -/

/-- Steps above threshold of a unit, with the one that ends. -/
def slipRunOf (s : State) (p : Nat) : Nat :=
  if ((workUnits s).filter (aboveThreshold s (medianSlip2 ((workUnits s).map (slipOf s))))).contains p then
    min 65535 (Sparse.get 0 s.units.slipRun p + 1) else 0

/-- The slips judged, and noone swapped yet. -/
def judged (s : State) : State :=
  { s with units := { s.units with slipRun := (workUnits s).foldl (fun m p => Sparse.set 0 m p (slipRunOf s p)) s.units.slipRun } }

/-- What the policy does with one unit whose steps above threshold are `n`. -/
def judgeUnit (n p : Nat) (s : State) : State :=
  if num s 0x2C00 2 ≤ n ∧ num s 0x2C00 3 ≠ 0 then
    match spareOf s (regionOf p) with
    | some _ => retireUnit p 3 { s with units := { s.units with slipRun := Sparse.set 0 s.units.slipRun p 0 } }
    | none => raiseOpen 0x0E p 2 (countBoot 0x2C01 3 1 s)
  else s

theorem judgeSlip_eq (s : State) : judgeSlip s = (workUnits s).foldl (fun t p => judgeUnit (slipRunOf s p) p t) (judged s) := rfl

theorem mem_workUnits {p : Nat} : p ∈ workUnits s ↔ p < 72 ∧ logicalUnit s p < 64 := by
  simp only [workUnits, List.mem_filter, List.mem_range, decide_eq_true_eq]

theorem slipRun_judged {p : Nat} (hp : p ∈ workUnits s) : Sparse.get 0 (judged s).units.slipRun p = slipRunOf s p :=
  get_foldl_set 0 (fun _ => True) (slipRunOf s) trivial (workUnits s) s.units.slipRun (.inl hp)

theorem retires_judged (s : State) : Retires s (judged s) := (Retires.refl s).slipRuns _

theorem logicalUnit_judged (s : State) (p : Nat) : logicalUnit (judged s) p = logicalUnit s p := rfl

theorem judgeUnit_retires (h : jobRuns s = true) (n p : Nat) : Retires s (judgeUnit n p s) := by
  unfold judgeUnit
  split
  · split
    · obtain ⟨made, -⟩ := retireUnit_retires (s := { s with units := { s.units with slipRun := Sparse.set 0 s.units.slipRun p 0 } }) h p 3
      exact ((Retires.refl s).slipRuns _).trans made
    · have counted : Retires s (countBoot 0x2C01 3 1 s) := (Retires.refl s).counts _
      exact counted.side (Side.refl _).raiseOpen
  · exact .refl s

theorem judgeSlip_retires (h : jobRuns s = true) : Retires s (judgeSlip s) := by
  rw [judgeSlip_eq]
  refine List.foldlRecOn (motive := fun t => Retires s t) _ _ ((Retires.refl s).slipRuns _) fun t ht p _ => ?_
  exact ht.trans (judgeUnit_retires (ht.jobRuns.trans h) _ p)

/-- Below its limit, or with the policy off, nothing is done with a unit. -/
theorem judgeUnit_none {n p : Nat} (h : ¬ (num s 0x2C00 2 ≤ n ∧ num s 0x2C00 3 ≠ 0)) : judgeUnit n p s = s := if_neg h

/-- A fold whose steps do nothing does nothing. -/
theorem foldl_idle {α β : Type} {f : β → α → β} {b : β} {xs : List α} (h : ∀ x ∈ xs, f b x = b) : xs.foldl f b = b :=
  List.foldlRecOn (motive := (· = b)) xs f rfl fun _ hc x hx => by rw [hc, h x hx]

/-- A fold of which one step alone does something is that step. -/
theorem foldl_single {α β : Type} {f : β → α → β} {a : α} {b : β} {xs : List α} (hx : xs.Nodup) (ha : a ∈ xs)
    (before : ∀ x ∈ xs, x ≠ a → f b x = b) (after : ∀ x ∈ xs, x ≠ a → f (f b a) x = f b a) : xs.foldl f b = f b a := by
  obtain ⟨ys, zs, rfl⟩ := List.append_of_mem ha
  have other : ∀ x ∈ ys ++ zs, x ≠ a := fun x hx e => (List.nodup_cons.1 (List.nodup_middle.1 ‹_›)).1 (e ▸ hx)
  rw [List.foldl_append, List.foldl_cons, foldl_idle (b := b), foldl_idle]
  · exact fun x hx => after x (List.mem_append_right _ (List.mem_cons_of_mem _ hx)) (other x (List.mem_append_right _ hx))
  · exact fun x hx => before x (List.mem_append_left _ hx) (other x (List.mem_append_left _ hx))

/-- The slips of two cards are alike: those of the step committed on one, of the running step on the other. -/
structure SlipsOf (s e : State) : Prop where
  units : e.units = s.units
  num : ∀ idx sub, num e idx sub = Machine.num s idx sub
  slip : ∀ p, Sparse.get 0 e.stat.latch (ekey 0x5040 (p + 1)) = Sparse.get 0 s.stat.run (ekey 0x5040 (p + 1))
  cycles : ∀ p, Sparse.get 0 e.stat.latch (cyclesKey p) = Sparse.get 0 s.stat.run (cyclesKey p)

namespace SlipsOf

variable {e : State} (h : SlipsOf s e)
include h

theorem logicalUnit (p : Nat) : logicalUnit e p = Machine.logicalUnit s p := by rw [Machine.logicalUnit, h.units]; rfl

theorem num_judged (idx sub : Nat) : Machine.num (judged e) idx sub = Machine.num s idx sub := ((retires_judged e).num ..).trans (h.num ..)

theorem workUnits : workUnits e = Machine.workUnits s := by simp only [Machine.workUnits, h.logicalUnit]

theorem median {med2 : Nat} (hm : MedianIs s med2) : medianSlip2 ((Machine.workUnits e).map (slipOf e)) = med2 := by
  obtain ⟨ys, sorted, perm, rfl⟩ := hm
  have same : ((Machine.workUnits e).map (slipOf e)) = (Machine.workUnits s).map fun x => Sparse.get 0 s.stat.run (ekey 0x5040 (x + 1)) := by
    rw [h.workUnits]
    exact List.map_congr_left fun p _ => h.slip p
  have order : (((Machine.workUnits e).map (slipOf e)).mergeSort (· ≤ ·)) = ys := by
    rw [same]
    exact ((List.mergeSort_perm _ _).trans perm.symm).eq_of_pairwise' (List.pairwise_mergeSort' (· ≤ ·) _) sorted
  unfold medianSlip2
  rw [order]

theorem slipRunOf {med2 p : Nat} (hm : MedianIs s med2) (hp : p ∈ Machine.workUnits e) :
    (Above s med2 p → slipRunOf e p = min 65535 (Sparse.get 0 s.units.slipRun p + 1)) ∧ (¬ Above s med2 p → Machine.slipRunOf e p = 0) := by
  have above : aboveThreshold e med2 p = true ↔ Above s med2 p := by
    unfold aboveThreshold Above slipOf
    rw [h.num, h.cycles, h.slip, decide_eq_true_iff]
  unfold Machine.slipRunOf
  rw [h.median hm, h.units]
  constructor
  · intro ha
    rw [if_pos]
    simp [List.mem_filter, hp, above, ha]
  · intro ha
    rw [if_neg]
    simp [List.mem_filter, above, ha]

end SlipsOf

theorem spareOf_none {p : Nat} (h : NoSpare s p) : spareOf s (regionOf p) = none :=
  List.find?_eq_none.2 fun x hx => by simpa using h x (mem_regionUnits.1 hx)

theorem spareOf_spare {p q : Nat} (h : SpareIs s p q) : spareOf s (regionOf p) = some q := by
  obtain ⟨-, region, spare, only⟩ := h
  cases hf : spareOf s (regionOf p) with
  | none => exact absurd (decide_eq_true spare) (List.find?_eq_none.1 hf q (mem_regionUnits.2 region))
  | some x =>
    have found := List.find?_some hf
    rw [only x (mem_regionUnits.1 (List.mem_of_find?_eq_some hf)) (of_decide_eq_true found)]

section
variable {e : State} (h : SlipsOf s e)
include h

/-- With the policy off no unit is swapped for its slip. -/
theorem judgeSlip_off (hn : num s 0x2C00 3 = 0) : judgeSlip e = judged e := by
  rw [judgeSlip_eq]
  refine foldl_idle fun p _ => judgeUnit_none fun due => due.2 ?_
  exact (h.num_judged ..).trans hn

variable {med2 p : Nat} (hm : MedianIs s med2) (hp : p < 72) (hl : logicalUnit s p < 64) (ha : Above s med2 p)
  (hlim : num s 0x2C00 2 ≤ min 65535 (Sparse.get 0 s.units.slipRun p + 1))
  (hother : ∀ x, x ≠ p → Sparse.get 0 s.units.slipRun x + 1 < num s 0x2C00 2)
include hm hp hl ha

theorem slipRunOf_above : slipRunOf e p = min 65535 (Sparse.get 0 s.units.slipRun p + 1) :=
  (h.slipRunOf hm (h.workUnits ▸ mem_workUnits.2 ⟨hp, hl⟩)).1 ha

include hother

/-- Where one unit alone has reached the limit the policy deals with it alone. -/
theorem judgeSlip_one (hj : jobRuns e = true) : judgeSlip e = judgeUnit (min 65535 (Sparse.get 0 s.units.slipRun p + 1)) p (judged e) := by
  have work : p ∈ workUnits e := h.workUnits ▸ mem_workUnits.2 ⟨hp, hl⟩
  have below : ∀ x, x ≠ p → ∀ t, num t 0x2C00 2 = num s 0x2C00 2 → judgeUnit (slipRunOf e x) x t = t := by
    intro x hx t ht
    refine judgeUnit_none fun hj => ?_
    have low := hother x hx
    have run : slipRunOf e x ≤ Sparse.get 0 s.units.slipRun x + 1 := by
      unfold slipRunOf
      rw [h.units]
      split <;> omega
    omega
  have unit := judgeUnit_retires ((retires_judged e).jobRuns.trans hj) (slipRunOf e p) p
  rw [judgeSlip_eq, ← slipRunOf_above h hm hp hl ha]
  refine foldl_single (List.Nodup.filter _ List.nodup_range) work (fun x _ hx => below x hx _ ?_) fun x _ hx => below x hx _ ?_
  · exact h.num_judged ..
  · exact (unit.num ..).trans (h.num_judged ..)

include hlim

variable (hn : num s 0x2C00 3 ≠ 0) (hj : jobRuns e = true)
include hn hj

/-- The unit that has reached the limit is swapped with its spare. -/
theorem judgeSlip_swap {q : Nat} (hq : SpareIs s p q) : ∃ m, SwapMade { e with units := { e.units with slipRun := m } } (judgeSlip e) p q 3 := by
  have due : num (judged e) 0x2C00 2 ≤ min 65535 (Sparse.get 0 s.units.slipRun p + 1) ∧ num (judged e) 0x2C00 3 ≠ 0 := by
    rw [h.num_judged, h.num_judged]
    exact ⟨hlim, hn⟩
  have same : ∀ x, logicalUnit (judged e) x = logicalUnit s x := fun x => (logicalUnit_judged e x).trans (h.logicalUnit x)
  have spare : SpareIs (judged e) p q := by
    unfold SpareIs
    simp only [same]
    exact hq
  rw [judgeSlip_one h hm hp hl ha hother hj]
  unfold judgeUnit
  rw [if_pos due, spareOf_spare spare]
  obtain ⟨u, hu⟩ : ∃ u, { judged e with units := { (judged e).units with slipRun := Sparse.set 0 (judged e).units.slipRun p 0 } } = u := ⟨_, rfl⟩
  have base : u = { e with units := { e.units with slipRun := Sparse.set 0 (judged e).units.slipRun p 0 } } := hu ▸ rfl
  refine ⟨Sparse.set 0 (judged e).units.slipRun p 0, ?_⟩
  dsimp only
  rw [← base, hu]
  have runs : jobRuns u = true := hu ▸ hj
  have unit : ∀ x, logicalUnit u x = logicalUnit s x := hu ▸ same
  refine retireUnit_swapMade runs ((unit p).symm ▸ hl) ?_
  unfold SpareIs
  simp only [unit]
  exact hq

/-- Where its region has no spare that is counted. -/
theorem judgeSlip_noSpare (hq : NoSpare s p) : Retires (judged e) (judgeSlip e) ∧ (judgeSlip e).units = (judged e).units ∧
    Sparse.get 0 (judgeSlip e).stat.boot (ekey 0x2C01 3) = Sparse.get 0 e.stat.boot (ekey 0x2C01 3) + 1 := by
  have due : num (judged e) 0x2C00 2 ≤ min 65535 (Sparse.get 0 s.units.slipRun p + 1) ∧ num (judged e) 0x2C00 3 ≠ 0 := by
    rw [h.num_judged, h.num_judged]
    exact ⟨hlim, hn⟩
  have none : NoSpare (judged e) p := fun x hx => (((logicalUnit_judged e x).trans (h.logicalUnit x)).symm ▸ hq x hx)
  rw [judgeSlip_one h hm hp hl ha hother hj]
  unfold judgeUnit
  rw [if_pos due, spareOf_none none]
  have side := (Side.refl (countBoot 0x2C01 3 1 (judged e))).raiseOpen (typ := 0x0E) (source := p) (detail := 2)
  refine ⟨((Retires.refl (judged e)).counts _).side side, side.units, side.unfilled.trans ?_⟩
  have counted := Sparse.get_modify 0 (judged e).stat.boot (ekey 0x2C01 3) (ekey 0x2C01 3) (· + 1)
  rw [if_pos rfl] at counted
  exact counted

end

end Sys2Proof.Machine
end

section
/-! SUPPORT. A commit on a card: what it decides, and where it leaves the ledger, the units and the repair map (R289). -/

namespace Sys2Proof.Machine

open Sys2Proof.Claims

variable {s : State}

/-! ### The repair map at a boundary -/

/-- What the retirements of a boundary left stands, and the repair map has been written where it had changed. -/
structure Applied (f t : State) : Prop where
  units : t.units = f.units
  repair : t.boot.repair = f.boot.repair
  pend : t.boot.pendMap = false
  gen : f.boot.pendMap = true → t.boot.repGen = nextGen f.boot.repGen
  wrote : f.boot.pendMap = true → .flashWrite 1 ∈ t.out
  swaps : Sparse.get 0 t.stat.boot (ekey 0x2C01 1) = Sparse.get 0 f.stat.boot (ekey 0x2C01 1)
  unfilled : Sparse.get 0 t.stat.boot (ekey 0x2C01 3) = Sparse.get 0 f.stat.boot (ekey 0x2C01 3)

theorem Applied.side {f t u : State} (h : Applied f t) (h' : Side t u) : Applied f u where
  units := h'.units.trans h.units
  repair := h'.repair.trans h.repair
  pend := h'.pendMap.trans h.pend
  gen hp := h'.repGen.trans (h.gen hp)
  wrote hp := h'.out _ (h.wrote hp)
  swaps := h'.swaps.trans h.swaps
  unfilled := h'.unfilled.trans h.unfilled

/-- Writing the map where it has changed, and nothing else that is seen but its version. -/
theorem writeMap_applied (s : State) : Applied s (writeMap s) ∧ ∃ g, seen (writeMap s) = { seen s with repGen := g } := by
  cases h : s.boot.pendMap with
  | false =>
    rw [writeMap_idle h]
    exact ⟨⟨rfl, rfl, h, fun hp => Bool.noConfusion (h.symm.trans hp), fun hp => Bool.noConfusion (h.symm.trans hp), rfl, rfl⟩, s.boot.repGen, rfl⟩
  | true =>
    have w := writeMap_written h
    exact ⟨⟨congrArg MapSeen.units w.map, congrArg MapSeen.repair w.map, congrArg MapSeen.pendMap w.map,
      fun _ => congrArg Seen.repGen w.seen, fun _ => w.wrote, congrArg MapSeen.swaps w.map, congrArg MapSeen.unfilled w.map⟩, _, w.seen⟩

/-! ### The decisions (R289 step 4) -/

/-- The part of the decisions that follows them: units that are slow or owed go, frames are moved, the map is written. -/
def afterDecision (s : State) : State :=
  let s := writeMap (moveOffAll (retireOwed (judgeSlip s)))
  clearReadings { s with led := { s.led with run := { s.led.run with repair := s.boot.repGen } } }

theorem afterDecision_applied (s : State) : Applied (retireOwed (judgeSlip s)) (afterDecision s) := by
  have moved : Side (retireOwed (judgeSlip s)) (moveOffAll (retireOwed (judgeSlip s))) := (Side.refl _).moveOffAll
  obtain ⟨written, -⟩ := writeMap_applied (moveOffAll (retireOwed (judgeSlip s)))
  unfold afterDecision
  generalize moveOffAll (retireOwed (judgeSlip s)) = m at moved written
  have all : Applied (retireOwed (judgeSlip s)) (writeMap m) :=
    ⟨written.units.trans moved.units, written.repair.trans moved.repair, written.pend,
      fun hp => (written.gen (moved.pendMap.trans hp)).trans (congrArg nextGen moved.repGen), fun hp => written.wrote (moved.pendMap.trans hp),
      written.swaps.trans moved.swaps, written.unfilled.trans moved.unfilled⟩
  exact ⟨all.units, all.repair, all.pend, all.gen, all.wrote, all.swaps, all.unfilled⟩

/-- The decisions change of the ledger the records of steps alone. -/
theorem afterDecision_seen (h : jobRuns s = true) : ∃ g r, seen (afterDecision s) = { seen s with repGen := g, led := { s.led with run := r } } := by
  have judged := judgeSlip_retires h
  obtain ⟨owed, -⟩ := retireOwed_retires (s := judgeSlip s) (judged.jobRuns.trans h)
  have gone : seen (retireOwed (judgeSlip s)) = seen s := owed.seen.trans judged.seen
  have moved : Side (retireOwed (judgeSlip s)) (moveOffAll (retireOwed (judgeSlip s))) := (Side.refl _).moveOffAll
  obtain ⟨-, g, written⟩ := writeMap_applied (moveOffAll (retireOwed (judgeSlip s)))
  unfold afterDecision
  generalize moveOffAll (retireOwed (judgeSlip s)) = m at moved written
  have all : seen (writeMap m) = { seen s with repGen := g } := by rw [written, moved.seen, gone]
  generalize writeMap m = w at all
  have led : w.led = s.led := congrArg Seen.led all
  refine ⟨g, { w.led.run with repair := w.boot.repGen }, ?_⟩
  dsimp only
  rw [← led]
  exact congrArg (fun x => { x with led := { w.led with run := { w.led.run with repair := w.boot.repGen } } }) all

/-- The decisions, up to the units: nothing but the records of steps is decided on the ledger. -/
theorem decide4_eq (n : Nat) (m : Measured) (s : State) : ∃ e last next,
    Side { s with led := { s.led with last := last, run := next } } e ∧ decide4 n m s = afterDecision e := by
  unfold decide4
  extract_lets _ s₁ _ last s₂ next codes s₃ _ _ _ _ _ s₄ w
  have marked : Side s s₁ := Side.foldl (fun _ _ h => h.markMirror) _ (Side.refl s)
  have held : Side s s₂ := marked.commitLayers.commitHeld
  have said : Side s s₃ := held.sayCodes
  have decided : Side { s with led := { s.led with last := last, run := next } } s₄ :=
    have led := said.setLed fun l => { l with last := last, run := next }
    ⟨led.seen, led.map, led.out⟩
  refine ⟨judgeSlow s₄, last, next, decided.judgeSlow, ?_⟩
  have hw : writeMap (moveOffAll (retireOwed (judgeSlip (judgeSlow s₄)))) = w := rfl
  clear_value w s₄
  unfold afterDecision
  rw [hw]

/-! ### The commit (R289 steps 1 to 5) -/

/-- The ledger at the commit of the running step, with the records of the step and of the next. -/
def committedLed (s : State) (last run : StepRec) : LedgerSt :=
  { s.led with committed := s.led.running, touched := [], consec := 0, commitsN := s.led.commitsN + 1, last := last, run := run }

/-- The card with the statistics of the step that ends latched. -/
def latched (s : State) (last run : StepRec) : State := latchStats { s with led := committedLed s last run }

/-- Up to the decisions the commit is side work on the card whose statistics are latched. -/
theorem latched_side (h : Sound s) : Side (latched s s.led.last s.led.run) (mapApplied (applyParts (stepPartsDue (s.led.running + 1))
    (commitEvents (latchReadings (latched s s.led.last s.led.run))))) := by
  obtain ⟨awaiting, declared, -, works⟩ := h
  have read : Side (latched s s.led.last s.led.run) (commitEvents (latchReadings (latched s s.led.last s.led.run))) :=
    (Side.refl _).latchReadings.commitEvents
  generalize commitEvents (latchReadings (latched s s.led.last s.led.run)) = b at read ⊢
  have strap : b.strap = s.strap := read.strap
  have dict : b.dict = s.dict := read.dict
  have failed : (failedCards b).contains (cardId b) = false := by
    unfold failedCards cardId at works ⊢
    simp only [num_congr strap dict, valBytes_congr strap dict]
    exact works
  rw [applyParts_idle ((congrArg DictSt.awaiting dict).trans awaiting)]
  obtain ⟨fs, e⟩ := mapApplied_sound (read.declared.trans declared) failed
  rw [e]
  exact read.setFab

/-- The card with one ring slot released. -/
def slotReleased (s : State) : State := { s with host := { s.host with ringget := (s.host.ringget + 1) % 2 ^ 32 } }

theorem Applied.released {f t : State} (h : Applied f t) : Applied f (slotReleased t) :=
  ⟨h.units, h.repair, h.pend, h.gen, h.wrote, h.swaps, h.unfilled⟩

/-- The host is told of the release. -/
theorem ringRelease_side (s : State) : Side (slotReleased s) (ringRelease s) := by
  unfold ringRelease
  dsimp only
  exact Side.ite (Side.refl _).raiseVec (Side.refl _).hostWrite

/-- An abort that is sent is noted as decided. -/
theorem sendAbort_side (step att cause card layer action : Nat) (s : State) :
    Side { s with led := { s.led with decided := some (step, att), decCommit := false } } (sendAbort step att cause card layer action s) :=
  (Side.refl _).toCards

/-- The card without the reports that came early. -/
def forgotEarly (s : State) : State := { s with led := { s.led with early := [] } }

/-- Early reports are taken up: what the coordinator has decided changes with them, and no more of the ledger. -/
theorem takeEarly_side (s : State) : ∃ d c, Side { forgotEarly s with led := { (forgotEarly s).led with decided := d, decCommit := c } } (takeEarly s) := by
  have idle : Side { forgotEarly s with led := { (forgotEarly s).led with decided := s.led.decided, decCommit := s.led.decCommit } } (forgotEarly s) :=
    Side.refl _
  unfold takeEarly
  change ∃ d c, Side _ (match s.led.early.filter fun r => decide (r.1 = s.led.running) && decide (r.2.1 = attempt s) with
    | [] => forgotEarly s
    | (step, att, cause, card, layer, _) :: _ => if jobRuns (forgotEarly s) && amCoordinator (forgotEarly s) then
        sendAbort step att cause card layer (abortAction (forgotEarly s) cause att) (forgotEarly s) else forgotEarly s)
  split
  · exact ⟨_, _, idle⟩
  · next step att cause card layer _ _ _ =>
    split
    · exact ⟨_, _, sendAbort_side step att cause card layer _ (forgotEarly s)⟩
    · exact ⟨_, _, idle⟩

/-- The ledger after the end of a job. -/
def endedLed (l : LedgerSt) : LedgerSt :=
  { l with st := .nojob, stopPend := false, waiting := false, reopen := false, startGate := false, touched := [],
           layers := [], order := [], chkOrder := [], stale := [], readies := [], norms := [] }

/-- The card as a job ends on it. -/
def jobEnded (s : State) : State :=
  { s with led := endedLed s.led, keep := { s.keep with dev := .planLoaded }, host := { s.host with ringtake := s.host.ringget } }

theorem endJob_eq (s : State) : endJob s = writeMap (harvStop (openSnaps { jobEnded s with
    fab := { s.fab with edges := [], badEdges := [], badEdge := none } })) := rfl

/-- The end of a job, with the map written before it. -/
theorem endJob_side (h : s.boot.pendMap = false) : Side (jobEnded s) (endJob s) := by
  have side : Side (jobEnded s) (harvStop (openSnaps { jobEnded s with
    fab := { s.fab with edges := [], badEdges := [], badEdge := none } })) := (Side.refl (jobEnded s)).setFab.openSnaps.harvStop
  rw [endJob_eq, writeMap_idle (side.pendMap.trans h)]
  exact side

/-- The card that waits at the boundary after step `n`. -/
def nextWaits (n : Nat) (s : State) : State :=
  { s with led := { s.led with
    st := .opened, running := n + 1, waiting := true, reopen := false, slotHeld := false, layers := [], order := [],
    chkOrder := [], stale := [], readies := s.led.readies.filter fun r => decide (n < r.2.1), norms := [] } }

/-- How a commit ends: a card in MIRROR SERVICE runs no job, one with a stop pending ends it, and any other waits for the next step. -/
def endCommit (n : Nat) (s : State) : State :=
  if s.keep.mirror then s else if s.led.stopPend then endJob s else takeEarly (nextWaits n s)

/-- The release of the ring slot, the commit flag and the TPDOs. -/
theorem tellCommit_side (s : State) : Side (slotReleased s) (commitTpdos (commitFlag (ringRelease s))) := (ringRelease_side s).commitFlag.commitTpdos

/-- A commit goes by its decisions: what follows the retirements is side work, but for the ring slot that it releases. -/
theorem commitStep_eq (h : Sound s) (hr : jobRuns s = true) : ∃ e last next u, Side (latched s last next) e ∧
    Applied (retireOwed (judgeSlip e)) u ∧
    (∃ g r, seen u = { seen e with repGen := g, led := { e.led with run := r }, ringget := (s.host.ringget + 1) % 2 ^ 32 }) ∧
    commitStep s.led.running s = endCommit s.led.running u := by
  have start := latched_side h
  unfold commitStep
  extract_lets m _ s₁ s₂ s₃ s₄ s₅ s₆ s₇
  have parts : Side (latched s s.led.last s.led.run) s₃ := start
  obtain ⟨e, last, next, side, he⟩ := decide4_eq s.led.running m s₃
  have before : Side (latched s last next) e := (parts.setLed fun l => { l with last := last, run := next }).trans side
  have runs : jobRuns e = true := by
    unfold jobRuns at hr ⊢
    rw [before.led]
    exact hr
  have applied := afterDecision_applied e
  obtain ⟨g, r, shown⟩ := afterDecision_seen runs
  rw [← he] at applied shown
  have later : Side (decide4 s.led.running m s₃) s₆ := (Side.refl (decide4 s.led.running m s₃)).commitTwin.openSnaps.harvAtCommit
  have told : Side (slotReleased s₆) s₇ := tellCommit_side s₆
  clear_value s₇ s₆
  have applied₆ := applied.side later
  have seen₆ : seen s₆ = { seen e with repGen := g, led := { e.led with run := r } } := later.seen.trans shown
  have ringget : s₆.host.ringget = s.host.ringget := (congrArg Seen.ringget seen₆).trans before.ringget
  refine ⟨e, last, next, s₇, before, ?_, ⟨g, r, ?_⟩, ?_⟩
  · exact applied₆.released.side told
  · rw [told.seen, ← ringget]
    exact congrArg (fun x => { x with ringget := (s₆.host.ringget + 1) % 2 ^ 32 }) seen₆
  · rfl

/-- Where the commit of the running step leaves the ledger (R287 to R289, R389). -/
structure StepCommitted (s t : State) : Prop where
  committed : t.led.committed = s.led.running
  touched : t.led.touched = []
  consec : t.led.consec = 0
  ringget : t.host.ringget = (s.host.ringget + 1) % 2 ^ 32
  goes : s.led.stopPend = false → t.led.st = .opened ∧ t.led.running = s.led.running + 1 ∧ t.led.waiting = true ∧ t.keep.dev = s.keep.dev
  ends : s.led.stopPend = true → t.led.st = .nojob ∧ t.keep.dev = .planLoaded ∧ t.led.stopPend = false

theorem Applied.led {f t : State} (h : Applied f t) (l : LedgerSt) : Applied f { t with led := l } :=
  ⟨h.units, h.repair, h.pend, h.gen, h.wrote, h.swaps, h.unfilled⟩

theorem Applied.jobEnded {f t : State} (h : Applied f t) : Applied f (jobEnded t) :=
  ⟨h.units, h.repair, h.pend, h.gen, h.wrote, h.swaps, h.unfilled⟩

/-- The commit of the running step in a sound card. -/
theorem commitStep_spec (h : Sound s) (hr : jobRuns s = true) : ∃ e last next, Side (latched s last next) e ∧
    Applied (retireOwed (judgeSlip e)) (commitStep s.led.running s) ∧ StepCommitted s (commitStep s.led.running s) := by
  obtain ⟨e, last, next, u, before, applied, ⟨g, r, shown⟩, split⟩ := commitStep_eq h hr
  have led : u.led = { committedLed s last next with run := r } :=
    (congrArg Seen.led shown).trans (congrArg (fun l => { l with run := r }) before.led)
  have mirror : u.keep.mirror = false := (congrArg Seen.mirror shown).trans (before.mirror.trans h.2.2.1)
  have dev : u.keep.dev = s.keep.dev := (congrArg Seen.dev shown).trans before.dev
  have ringget : u.host.ringget = (s.host.ringget + 1) % 2 ^ 32 := congrArg Seen.ringget shown
  have stop : u.led.stopPend = s.led.stopPend := by rw [led]; rfl
  rw [split]
  refine ⟨e, last, next, before, ?_⟩
  unfold endCommit
  rw [if_neg (by simp [mirror]), stop]
  cases hs : s.led.stopPend with
  | true =>
    rw [if_pos rfl]
    have side := endJob_side applied.pend
    have ended : (endJob u).led = endedLed u.led := side.led
    refine ⟨applied.jobEnded.side side, ?_, ?_, ?_, side.ringget.trans ringget, fun hg => Bool.noConfusion (hs.symm.trans hg),
      fun _ => ⟨?_, side.dev, ?_⟩⟩
    · rw [ended, led]; rfl
    · rw [ended]; rfl
    · rw [ended, led]; rfl
    · rw [ended]; rfl
    · rw [ended]; rfl
  | false =>
    rw [if_neg Bool.false_ne_true]
    obtain ⟨d, c, side⟩ := takeEarly_side (nextWaits s.led.running u)
    have waits : (takeEarly (nextWaits s.led.running u)).led =
      { (forgotEarly (nextWaits s.led.running u)).led with decided := d, decCommit := c } := side.led
    refine ⟨(applied.led _).side side, ?_, ?_, ?_, side.ringget.trans ringget, fun _ => ⟨?_, ?_, ?_, side.dev.trans dev⟩,
      fun hg => Bool.noConfusion (hs.symm.trans hg)⟩
    · rw [waits]; exact congrArg LedgerSt.committed led
    · rw [waits]; exact congrArg LedgerSt.touched led
    · rw [waits]; exact congrArg LedgerSt.consec led
    · rw [waits]; rfl
    · rw [waits]; rfl
    · rw [waits]; rfl

end Sys2Proof.Machine
end

section
/-! SUPPORT. COMMIT_MESSAGE: the ledger, the retirements and the slip policy at a commit (R13, R14, R287 to R289, R367, R368). -/

namespace Sys2Proof.Machine

open Sys2Proof.Claims

variable {s : State}

/-! ### The message -/

theorem commitMessage_stale {h : TpHdr} (hf : ¬ Fresh s h 4) (n : BitVec 64) (att : Nat) : exec (.commitMessage h n att) s = .next s :=
  congrArg Host.Outcome.next (hear_stale hf _)

theorem commitMessage_other {h : TpHdr} (hf : Fresh s h 4) {n : BitVec 64} {att : Nat}
    (ho : s.led.st ≠ .ready ∨ n.toNat ≠ s.led.running ∨ att ≠ attempt s) : exec (.commitMessage h n att) s = .next (heard s h) := by
  refine congrArg Host.Outcome.next ((hear_fresh hf _).trans (if_neg ?_))
  rintro ⟨hr, hn, ha⟩
  rcases ho with ho | ho | ho
  · exact ho hr
  · exact ho hn
  · exact ho ha

/-- The commit of the attempt that the card has made ready. -/
theorem commitMessage_commits {h : TpHdr} (hf : Fresh s h 4) (hr : s.led.st = .ready) {n : BitVec 64} (hn : n.toNat = s.led.running) :
    exec (.commitMessage h n (attempt s)) s = .next (commitStep (heard s h).led.running (heard s h)) :=
  congrArg Host.Outcome.next ((hear_fresh hf _).trans (if_pos ⟨hr, hn, rfl⟩))

theorem sound_heard (hs : Sound s) (h : TpHdr) : Sound (heard s h) := by
  obtain ⟨awaiting, declared, mirror, works⟩ := hs
  have net := sameNet_heard s h
  refine ⟨awaiting, declared, mirror, ?_⟩
  rw [net.failedCards, net.cardId]
  exact works

/-- What of a card a swap starts from. -/
structure SwapBase (s u : State) : Prop where
  map : u.units.map = s.units.map
  phys : u.units.phys = s.units.phys
  active : u.plan.active = s.plan.active
  repair : u.boot.repair = s.boot.repair
  repGen : u.boot.repGen = s.boot.repGen
  swaps : Sparse.get 0 u.stat.boot (ekey 0x2C01 1) = Sparse.get 0 s.stat.boot (ekey 0x2C01 1)

theorem SwapBase.logicalUnit {u : State} (h : SwapBase s u) (x : Nat) : logicalUnit u x = Machine.logicalUnit s x := by
  unfold Machine.logicalUnit
  rw [h.map]

theorem SwapBase.getUnit {u : State} (h : SwapBase s u) (x : Nat) : getUnit u x = Machine.getUnit s x := by
  unfold Machine.getUnit
  rw [h.phys]

theorem SwapBase.spareIs {u : State} (h : SwapBase s u) {p q : Nat} (hq : SpareIs s p q) : SpareIs u p q := by
  unfold SpareIs
  simp only [h.logicalUnit]
  exact hq

theorem SwapBase.noSpare {u : State} (h : SwapBase s u) {p : Nat} (hq : NoSpare s p) : NoSpare u p := by
  unfold NoSpare
  simp only [h.logicalUnit]
  exact hq

/-- A swap that stands, with its map written. -/
theorem swapped_of {u f t : State} {p q cond : Nat} (base : SwapBase s u) (made : SwapMade u f p q cond) (owed : f.units.owed = [])
    (applied : Applied f t) : Swapped s t p q cond := by
  have unit : ∀ x, logicalUnit t x = logicalUnit f x := fun x => by unfold logicalUnit; rw [applied.units]
  have held : ∀ x, getUnit t x = getUnit f x := fun x => by unfold getUnit; rw [applied.units]
  refine ⟨?_, ?_, fun x hp hq => ?_, ?_, ?_, ?_, fun ha => ?_, ?_, ⟨u.led.committed, ?_⟩, applied.pend, ?_, applied.wrote made.pend, ?_⟩
  · rw [unit, made.spare, base.logicalUnit]
  · rw [unit, made.gone]
  · rw [unit, made.others x hp hq, base.logicalUnit]
  · rw [applied.units, made.retired]
  · rw [applied.units, made.spareCond]
  · rw [held, made.empty]
  · rw [held, made.loaded (base.active ▸ ha), base.getUnit]
  · rw [applied.units, owed]
  · rw [applied.repair, made.repair, base.repair]
  · rw [applied.gen made.pend, show f.boot.repGen = u.boot.repGen from congrArg Seen.repGen made.retires.seen, base.repGen]
  · rw [applied.swaps, made.swaps, base.swaps]

/-! ### Retirements at a commit -/

/-- The card whose retirements are decided, as the commit left it: its units, its map and its settings are as they were, and its slips
are those of the step that ends. -/
structure CommitDue (s e : State) : Prop where
  units : e.units = s.units
  repair : e.boot.repair = s.boot.repair
  pendMap : e.boot.pendMap = s.boot.pendMap
  repGen : e.boot.repGen = s.boot.repGen
  active : e.plan.active = s.plan.active
  swaps : Sparse.get 0 e.stat.boot (ekey 0x2C01 1) = Sparse.get 0 s.stat.boot (ekey 0x2C01 1)
  unfilled : Sparse.get 0 e.stat.boot (ekey 0x2C01 3) = Sparse.get 0 s.stat.boot (ekey 0x2C01 3)
  runs : jobRuns e = true
  slips : SlipsOf s e

theorem commitDue_of_side {e : State} {last next : StepRec} (hr : s.led.st = .ready) (h : TpHdr) (side : Side (latched (heard s h) last next) e) :
    CommitDue s e where
  units := side.units
  repair := side.repair
  pendMap := side.pendMap
  repGen := side.repGen
  active := side.active
  swaps := side.swaps
  unfilled := side.unfilled
  runs := by
    unfold jobRuns
    rw [side.led]
    show (match s.led.st with | .nojob => false | .lost => false | _ => true) = true
    rw [hr]
  slips := ⟨side.units, fun idx sub => side.num idx sub, side.slip, side.cycles⟩

/-- The commit of a card that is ready. -/
theorem commit_spec {h : TpHdr} (hf : Fresh s h 4) (hr : s.led.st = .ready) {n : BitVec 64} (hn : n.toNat = s.led.running) (hs : Sound s) :
    ∃ e t, exec (.commitMessage h n (attempt s)) s = .next t ∧ CommitDue s e ∧ Applied (retireOwed (judgeSlip e)) t ∧ StepCommitted s t := by
  have runs : jobRuns (heard s h) = true := by
    show (match s.led.st with | .nojob => false | .lost => false | _ => true) = true
    rw [hr]
  obtain ⟨e, last, next, side, applied, committed⟩ := commitStep_spec (sound_heard hs h) runs
  exact ⟨e, _, commitMessage_commits hf hr hn, commitDue_of_side hr h side, applied,
    ⟨committed.committed, committed.touched, committed.consec, committed.ringget, committed.goes, committed.ends⟩⟩

namespace CommitDue

variable {e t : State} (h : CommitDue s e)
include h

/-- What was owed has been made, and the map with its records written. -/
theorem written (ha : Applied (retireOwed (judgeSlip e)) t) (hp : s.boot.pendMap = true ∨ s.units.owed ≠ []) :
    t.boot.pendMap = false ∧ t.units.owed = [] ∧ t.boot.repGen = nextGen s.boot.repGen ∧ .flashWrite 1 ∈ t.out ∧ s.boot.repair <+: t.boot.repair := by
  have judged := judgeSlip_retires h.runs
  obtain ⟨made, pend⟩ := retireOwed_retires (s := judgeSlip e) (judged.jobRuns.trans h.runs)
  have due : (retireOwed (judgeSlip e)).boot.pendMap = true := by
    rcases hp with hp | hp
    · exact made.pend (judged.pend (h.pendMap.trans hp))
    · exact pend (by rw [judged.owed, h.units]; exact hp)
  have gen : (retireOwed (judgeSlip e)).boot.repGen = s.boot.repGen :=
    (congrArg Seen.repGen made.seen).trans ((congrArg Seen.repGen judged.seen).trans h.repGen)
  refine ⟨ha.pend, ?_, ?_, ha.wrote due, ?_⟩
  · rw [ha.units]; exact made.owed
  · rw [ha.gen due, gen]
  · rw [ha.repair, ← h.repair]; exact judged.repair.trans made.repair

/-- A swap starts from the units, the map and the counts as they were; steps above threshold are counted apart. -/
theorem swapBase (m : Sparse Nat) (owed : List (Nat × Nat)) : SwapBase s { e with units := { e.units with slipRun := m, owed := owed } } where
  map := by show e.units.map = _; rw [h.units]
  phys := by show e.units.phys = _; rw [h.units]
  active := h.active
  repair := h.repair
  repGen := h.repGen
  swaps := h.swaps

/-- Judging the slips leaves the map of the units as it was. -/
theorem map_judged : (judged e).units.map = s.units.map := by
  show e.units.map = _
  rw [h.units]

section
variable {p cond : Nat} (hn : num s 0x2C00 3 = 0) (ho : s.units.owed = [(p, cond)]) (hl : logicalUnit s p < 64)
include hn ho

/-- With the slip policy off, one retirement that is owed is what is made. -/
theorem retires_one : retireOwed (judgeSlip e) =
    retireUnit p cond { e with units := { e.units with slipRun := (judged e).units.slipRun, owed := [] } } := by
  have owed : (judged e).units.owed = [(p, cond)] := (congrArg UnitsSt.owed h.units).trans ho
  rw [judgeSlip_off h.slips hn, retireOwed_one owed]
  rfl

include hl

/-- The unit whose retirement is owed is swapped with its spare. -/
theorem owed_swapped {q : Nat} (ha : Applied (retireOwed (judgeSlip e)) t) (hq : SpareIs s p q) : Swapped s t p q cond := by
  have base := h.swapBase (judged e).units.slipRun []
  rw [h.retires_one hn ho] at ha
  obtain ⟨u, hu⟩ : ∃ u, { e with units := { e.units with slipRun := (judged e).units.slipRun, owed := [] } } = u := ⟨_, rfl⟩
  have owed : u.units.owed = [] := hu ▸ rfl
  have runs : jobRuns u = true := hu ▸ h.runs
  rw [hu] at base ha
  have made := retireUnit_swapMade (cond := cond) runs ((base.logicalUnit p).symm ▸ hl) (base.spareIs hq)
  exact swapped_of base made (made.retires.owed.trans owed) ha

/-- The unit whose retirement is owed is retired, and no unit takes its logical unit. -/
theorem owed_noSpare (ha : Applied (retireOwed (judgeSlip e)) t) (hq : NoSpare s p) :
    logicalUnit t p = 0xFF ∧ (∀ x, x ≠ p → logicalUnit t x = logicalUnit s x) ∧ Sparse.get 0 t.units.cond p = cond ∧
      getUnit t p = {} ∧ t.units.owed = [] := by
  have base := h.swapBase (judged e).units.slipRun []
  rw [h.retires_one hn ho] at ha
  obtain ⟨u, hu⟩ : ∃ u, { e with units := { e.units with slipRun := (judged e).units.slipRun, owed := [] } } = u := ⟨_, rfl⟩
  have owed : u.units.owed = [] := hu ▸ rfl
  have runs : jobRuns u = true := hu ▸ h.runs
  rw [hu] at base ha
  have units := ha.units
  rw [retireUnit_noSpare runs ((base.logicalUnit p).symm ▸ hl) (base.noSpare hq), units_setUnit, units_unitGone] at units
  refine ⟨?_, fun x hx => ?_, ?_, ?_, ?_⟩
  · rw [logicalUnit, units, Sparse.get_set_self]
  · rw [logicalUnit, units, Sparse.get_set_ne _ _ _ hx]
    exact base.logicalUnit x
  · rw [units, Sparse.get_set_self]
  · rw [getUnit, units, Sparse.get_set_self]
  · rw [units]
    exact owed

end

section
variable (ho : s.units.owed = [])
include ho

/-- Nothing is owed once the slips are judged. -/
theorem owed_none : (judgeSlip e).units.owed = [] := (judgeSlip_retires h.runs).owed.trans ((congrArg UnitsSt.owed h.units).trans ho)

variable {med2 : Nat} (hm : MedianIs s med2)
include hm

/-- With the policy off the steps above threshold are counted. -/
theorem slip_counted (hn : num s 0x2C00 3 = 0) (ha : Applied (retireOwed (judgeSlip e)) t) : t.units.map = s.units.map ∧
    ∀ p < 72, logicalUnit s p < 64 →
      (Above s med2 p → Sparse.get 0 t.units.slipRun p = min 65535 (Sparse.get 0 s.units.slipRun p + 1)) ∧
      (¬ Above s med2 p → Sparse.get 0 t.units.slipRun p = 0) := by
  rw [retireOwed_idle (h.owed_none ho), judgeSlip_off h.slips hn] at ha
  refine ⟨(congrArg UnitsSt.map ha.units).trans h.map_judged, fun p hp hl => ?_⟩
  have work : p ∈ workUnits e := h.slips.workUnits ▸ mem_workUnits.2 ⟨hp, hl⟩
  obtain ⟨above, below⟩ := h.slips.slipRunOf hm work
  rw [ha.units, slipRun_judged work]
  exact ⟨above, below⟩

variable {p : Nat} (hp : p < 72) (hn : num s 0x2C00 3 ≠ 0) (hl : logicalUnit s p < 64) (hab : Above s med2 p)
  (hlim : num s 0x2C00 2 ≤ min 65535 (Sparse.get 0 s.units.slipRun p + 1))
  (hother : ∀ x, x ≠ p → Sparse.get 0 s.units.slipRun x + 1 < num s 0x2C00 2)
  (ha : Applied (retireOwed (judgeSlip e)) t)
include hp hn hl hab hlim hother ha

/-- The unit that has reached the limit is swapped with its spare. -/
theorem slip_swapped {q : Nat} (hq : SpareIs s p q) : Swapped s t p q 3 := by
  have owed := h.owed_none ho
  rw [retireOwed_idle owed] at ha
  obtain ⟨m, made⟩ := judgeSlip_swap h.slips hm hp hl hab hlim hother hn h.runs hq
  exact swapped_of (h.swapBase m e.units.owed) made owed ha

/-- Where its region has no spare, that is counted. -/
theorem slip_unfilled (hq : NoSpare s p) : t.units.map = s.units.map ∧
    Sparse.get 0 t.stat.boot (ekey 0x2C01 3) = Sparse.get 0 s.stat.boot (ekey 0x2C01 3) + 1 := by
  rw [retireOwed_idle (h.owed_none ho)] at ha
  obtain ⟨-, units, unfilled⟩ := judgeSlip_noSpare h.slips hm hp hl hab hlim hother hn h.runs hq
  refine ⟨?_, ?_⟩
  · rw [ha.units, units, h.map_judged]
  · rw [ha.unfilled, unfilled, h.unfilled]

end

end CommitDue

end Sys2Proof.Machine
end

section
/-! SUPPORT. STEP_OPEN: the batch, the parts and the retirements of the boundary, and the attempt that opens (R30, R289 step 6). -/

namespace Sys2Proof.Machine

open Sys2Proof.Claims

variable {s₀ s : State} {slot take : Nat}

/-! ### The attempt -/

/-- The ledger of the attempt that opens on a ring slot. -/
def attemptLed (slot : Nat) (s : State) : LedgerSt :=
  let r : StepRec := { s.led.run with step := s.led.running, ring := slot, gen := if s.led.reopen then s.led.run.gen else s.dict.genForce }
  { s.led with
    run := r, openRec := r, waiting := false, reopen := false, layers := [], order := [], chkOrder := [],
    stale := [], refreshed := false, normSent := false, applyCs := none, lossRead := false, engStop := [],
    slotHeld := true, solocs := decide (s.twin.pair = .solo) && decide (num s 0x2A00 2 = 0) }

/-- Every unit reset (R188). -/
def unitsReset (u : UnitsSt) : UnitsSt := { u with phys := u.phys.map fun pu => (pu.1, resetUnit pu.2) }

/-- The card with its units and gates reset, and the clocks and the refresh rate of the step in force. -/
def freshened (s : State) : State :=
  { s with
    units := unitsReset s.units
    gates := []
    keep := { s.keep with inForce := clockCodes s.led.run.clocks, forced := [] }
    mem := { s.mem with refresh := s.led.run.refresh } }

/-- The reset at the opening of a step whose record is `r`, with the routes that the ports in service fix. -/
def restarted (r : StepRec) (s : State) : State :=
  let s := resetUnits s
  { s with
    keep := { s.keep with inForce := clockCodes r.clocks, forced := [] }
    fab := { s.fab with routeUp := (List.range 20).filter (portUp s) }
    mem := { s.mem with refresh := r.refresh, lateEnt := [] }
    twin := { s.twin with stepmSent := false } }

/-- A card that runs solo may have a stop asked of it as it opens a step. -/
def askStop (s : State) : State :=
  if s.twin.pair = .solo ∧ num s 0x2A00 2 = 2 then { s with led := { s.led with stopPend := true } } else s

/-- The input of the ring slot read, and the step constants written. -/
def readAttempt (slot : Nat) (s : State) : State :=
  let s := retainInput s.led.running slot s
  pokeDev (ownLt s).stepConst (stepConstants s) s

/-- The twin and the coordinator are told of the attempt. -/
def tellAttempt (n slot : Nat) (s : State) : State := tellHandover (if s.twin.pair = .inStep then toTwin (.input n slot) s else s)

theorem openAttempt_eq (slot : Nat) (s : State) : openAttempt slot s = tellAttempt s.led.running slot (askStop (beginSlot 0 (clearReadings
    (restarted (attemptLed slot s).run (readAttempt slot { s with led := attemptLed slot s }))))) := by
  unfold openAttempt
  extract_lets n gen _ r _ s₁ s₂ s₃ _ _ _ _ _ s₄ s₅ _ s₆
  have began : s₁ = { s with led := attemptLed slot s } := rfl
  have same : r = (attemptLed slot s).run := rfl
  have read : s₃ = readAttempt slot s₁ := rfl
  clear_value s₃ s₁ r
  have again : s₄ = restarted r s₃ := rfl
  have first : s₅ = beginSlot 0 (clearReadings s₄) := rfl
  clear_value s₄ s₅
  have asked : s₆ = askStop s₅ := rfl
  clear_value s₆
  rw [← began, ← same, ← read, ← again, ← first, ← asked]
  rfl

namespace Side

variable (h : Side s₀ s)
include h

theorem restarted : Side (freshened s₀) (restarted s₀.led.run s) where
  seen := congrArg (fun x => { x with gates := [], inForce := clockCodes s₀.led.run.clocks, forced := [], refresh := s₀.led.run.refresh }) h.seen
  map := congrArg (fun x => { x with units := unitsReset x.units }) h.map
  out := h.out

theorem askStop : ∃ stop, Side { s₀ with led := { s₀.led with stopPend := stop } } (askStop s) := by
  unfold Machine.askStop
  split
  · exact ⟨true, h.setLed fun l => { l with stopPend := true }⟩
  · exact ⟨s₀.led.stopPend, h⟩

theorem readAttempt : Side s₀ (readAttempt slot s) := (mem s₀).pokeDev h.retainInput

theorem tellAttempt {n : Nat} : Side s₀ (tellAttempt n slot s) := (ite h.toTwin h).tellHandover

end Side

/-- The card whose attempt opens, up to side work. -/
def attemptCard (slot : Nat) (stop : Bool) (s : State) : State :=
  { freshened { s with led := attemptLed slot s } with led := { attemptLed slot s with stopPend := stop } }

theorem openAttempt_side (slot : Nat) (s : State) : ∃ stop, Side (attemptCard slot stop s) (openAttempt slot s) := by
  rw [openAttempt_eq]
  obtain ⟨u, hu⟩ : ∃ u, { s with led := attemptLed slot s } = u := ⟨_, rfl⟩
  have led : u.led = attemptLed slot s := hu ▸ rfl
  have start := (Side.refl u).readAttempt (slot := slot)
  have begun := (Side.restarted start).clearReadings.beginSlot (k := 0)
  obtain ⟨stop, asked⟩ := begun.askStop
  unfold attemptCard
  rw [hu, ← led]
  exact ⟨stop, asked.tellAttempt⟩

/-! ### The boundary -/

/-- The parts due at the boundary apply, and a handover that was told of is over. -/
def boundaryParts (s : State) : State :=
  let due := openPartsDue s.led.reopen s.led.running
  let s := partnerParts due (mapApplied (applyParts due s))
  if s.fab.handTold then { s with fab := { s.fab with handover := none, handTold := false } } else s

/-- In a sound card no part awaits: of the fabric and of the pair alone something changes. -/
theorem boundaryParts_sound (h : Sound s) : ∃ f x, boundaryParts s = { s with fab := f, twin := x } ∧ f.declared = s.fab.declared := by
  obtain ⟨awaiting, declared, -, works⟩ := h
  obtain ⟨fs, map⟩ := mapApplied_sound declared works
  unfold boundaryParts
  dsimp only
  rw [applyParts_idle awaiting, map]
  obtain ⟨pg, ps, pp, e⟩ := partnerParts_frame (openPartsDue s.led.reopen s.led.running) { s with fab := { s.fab with recFs := fs } }
  rw [e]
  dsimp only
  split
  · exact ⟨_, _, rfl, rfl⟩
  · exact ⟨_, _, rfl, rfl⟩

/-- The card with the boundary's retirements made and its map written. -/
def boundaryDone (s : State) : State := writeMap (retireOwed (boundaryParts s))

/-- The card that has taken its ring slot. -/
def slotTaken (take : Nat) (s : State) : State :=
  { s with host := { s.host with ringtake := take }, led := { s.led with run := { s.led.run with repair := s.boot.repGen } } }

theorem exec_stepOpen (hw : s.led.waiting = true) (ho : s.led.st = .opened) (hd : s.keep.dev = .running) : exec .stepOpen s = .next (stepOpen s) :=
  congrArg Host.Outcome.next (if_pos ⟨hw, ho, hd⟩)

/-- A card that does not wait at a boundary, or does not run, opens no step. -/
theorem stepOpen_idle (h : s.led.waiting = false ∨ s.keep.dev ≠ .running) : exec .stepOpen s = .next s := by
  refine congrArg Host.Outcome.next (if_neg ?_)
  rintro ⟨hw, -, hd⟩
  rcases h with h | h
  · exact Bool.noConfusion (h.symm.trans hw)
  · exact h hd

section
variable (hh : openHeld s = false)
include hh

theorem stepOpen_noBatch (ht : takeSlot s = none) :
    stepOpen s = if s.led.waitSaid = s.led.running then s else raiseOpen 0x05 noSource 0 { s with led := { s.led with waitSaid := s.led.running } } := by
  unfold stepOpen
  rw [hh, ht]
  exact if_neg Bool.false_ne_true

theorem stepOpen_opens (ht : takeSlot s = some (slot, take)) (hs : anyShort (boundaryDone s) = false) (hm : (boundaryDone s).keep.mirror = false) :
    stepOpen s = recComplete (openAttempt slot (slotTaken take (boundaryDone s))) := by
  unfold stepOpen
  rw [hh, ht, if_neg Bool.false_ne_true]
  dsimp -zeta only
  extract_lets due s₁ _ s₂ s₃
  have parts : s₂ = boundaryParts s := by unfold boundaryParts; rfl
  clear_value s₂
  have done : s₃ = boundaryDone s := congrArg (fun u => writeMap (retireOwed u)) parts
  clear_value s₃
  subst done
  have taken := slotTaken.eq_1 take (boundaryDone s)
  generalize slotTaken take (boundaryDone s) = u at taken
  subst taken
  rw [if_neg (by simp [hs]), if_neg (by simp [hm])]

end

section
variable (hw : s.led.waiting = true) (ho : s.led.st = .opened) (hd : s.keep.dev = .running) (hh : openHeld s = false) (ht : takeSlot s = none)
include hw ho hd hh ht

/-- A card that waits for its batch and has said so. -/
theorem stepOpen_waitSaid (hs : s.led.waitSaid = s.led.running) : exec .stepOpen s = .next s := by
  rw [exec_stepOpen hw ho hd, stepOpen_noBatch hh ht, if_pos hs]

/-- A card that waits for its batch says so once for the step number. -/
theorem stepOpen_saysWait (hs : s.led.waitSaid ≠ s.led.running) : Completes .stepOpen s fun t =>
    t.led = { s.led with waitSaid := s.led.running } ∧ Raised 0x05 0xFFFF 0 s t ∧ t.units = s.units ∧ t.mem = s.mem := by
  have e := exec_stepOpen hw ho hd
  rw [stepOpen_noBatch hh ht, if_neg hs] at e
  refine ⟨_, e, ?_, raised_raiseOpen .., raiseOpen_units .., raiseOpen_mem ..⟩
  exact EventBlind.raiseOpen (g := State.led) _ ⟨fun _ _ _ _ _ _ _ _ _ _ _ => rfl⟩ ..

end

/-! ### What opens -/

/-- A step has opened on a card whose boundary left `w`: the ledger, the clocks and the units of the attempt, and the map of the
boundary (R289 step 6). -/
structure StepOpened (slot take : Nat) (s w t : State) : Prop where
  st : t.led.st = s.led.st
  waiting : t.led.waiting = false
  running : t.led.running = s.led.running
  committed : t.led.committed = s.led.committed
  step : t.led.run.step = s.led.running
  ring : t.led.run.ring = slot
  gen : t.led.run.gen = if s.led.reopen then s.led.run.gen else s.dict.genForce
  attempts : t.led.run.attempts = s.led.run.attempts
  ringtake : t.host.ringtake = take
  gates : t.gates = []
  inForce : t.keep.inForce = clockCodes s.led.run.clocks
  forced : t.keep.forced = []
  refresh : t.mem.refresh = s.led.run.refresh
  map : mapSeen t = { mapSeen w with units := unitsReset w.units }
  repGen : t.boot.repGen = w.boot.repGen
  out : ∀ o ∈ w.out, o ∈ t.out

theorem stepOpened_of_side {w t : State} {stop : Bool} (hl : w.led = s.led) (hg : w.dict = s.dict)
    (h : Side (attemptCard slot stop (slotTaken take w)) t) : StepOpened slot take s w t := by
  have led : t.led = { attemptLed slot (slotTaken take w) with stopPend := stop } := h.led
  have run : t.led.run = { (slotTaken take w).led.run with step := s.led.running, ring := slot, gen := if s.led.reopen then s.led.run.gen else s.dict.genForce } := by
    rw [led, ← hl, ← hg]
    rfl
  refine ⟨?_, ?_, ?_, ?_, ?_, ?_, ?_, ?_, h.ringtake, h.gates, ?_, h.forced, ?_, h.map, h.repGen, h.out⟩
  · rw [led, ← hl]; rfl
  · rw [led]; rfl
  · rw [led, ← hl]; rfl
  · rw [led, ← hl]; rfl
  · rw [run]
  · rw [run]
  · rw [run]
  · rw [run, ← hl]; rfl
  · rw [h.inForce, ← hl]; rfl
  · rw [h.refresh, ← hl]; rfl

/-- A map with each value changed, the default to itself. -/
theorem get_map_val {α : Type} {d : α} {f : α → α} (hf : f d = d) (m : Sparse α) (x : Nat) :
    Sparse.get d (m.map fun kv => (kv.1, f kv.2)) x = f (Sparse.get d m x) := by
  induction m with
  | nil => exact hf.symm
  | cons kv m ih =>
    show (if kv.1 = x then _ else _) = f (if kv.1 = x then _ else _)
    split
    · rfl
    · exact ih

theorem loadedUnit_loaded (u : UnitSt) : resetUnit (loadedUnit u) = loadedUnit u := by
  simp [resetUnit, loadedUnit]

theorem resetUnit_empty : resetUnit {} = {} := rfl

namespace StepOpened

variable {w t : State} (h : StepOpened slot take s w t)
include h

theorem units : t.units = unitsReset w.units := congrArg MapSeen.units h.map

theorem getUnit (p : Nat) : getUnit t p = resetUnit (Machine.getUnit w p) := by
  unfold Machine.getUnit
  rw [h.units]
  exact get_map_val resetUnit_empty ..

theorem logicalUnit (p : Nat) : logicalUnit t p = Machine.logicalUnit w p := by
  unfold Machine.logicalUnit
  rw [h.units]
  rfl

/-- A swap made at the boundary stands in the step that opens. -/
theorem swapped {p q cond : Nat} (hw : Swapped s w p q cond) : Swapped s t p q cond := by
  obtain ⟨spare, gone, others, retired, fit, empty, loaded, owed, repair, pend, gen, wrote, swaps⟩ := hw
  refine ⟨?_, ?_, fun x hp hq => ?_, ?_, ?_, ?_, fun ha => ?_, ?_, ?_, ?_, h.repGen.trans gen, h.out _ wrote, ?_⟩
  · rw [h.logicalUnit]; exact spare
  · rw [h.logicalUnit]; exact gone
  · rw [h.logicalUnit]; exact others x hp hq
  · rw [h.units]; exact retired
  · rw [h.units]; exact fit
  · rw [h.getUnit, empty, resetUnit_empty]
  · rw [h.getUnit, loaded ha, loadedUnit_loaded]
  · rw [h.units]; exact owed
  · obtain ⟨step, hr⟩ := repair
    exact ⟨step, (congrArg MapSeen.repair h.map).trans hr⟩
  · exact (congrArg MapSeen.pendMap h.map).trans pend
  · exact (congrArg MapSeen.swaps h.map).trans swaps

end StepOpened

/-! ### Short regions (R15) -/

theorem anyShort_congr {t : State} (hb : t.mem.stackBad = s.mem.stackBad) (hr : ∀ g, ((regionUnits g).filter fun p => decide (logicalUnit t p < 64)).length =
    ((regionUnits g).filter fun p => decide (logicalUnit s p < 64)).length) : anyShort t = anyShort s := by
  unfold anyShort regionShort
  simp only [hb, hr]

/-- A swap leaves as many units of each region with a logical unit as it found. -/
theorem working_swapped {w : State} {p q cond : Nat} (hq : SpareIs s p q) (hw : Swapped s w p q cond) (g : Nat) :
    ((regionUnits g).filter fun p => decide (logicalUnit w p < 64)).length =
      ((regionUnits g).filter fun p => decide (logicalUnit s p < 64)).length := by
  obtain ⟨spare, gone, others, -⟩ := hw
  obtain ⟨-, region, stood, -⟩ := hq
  have exchanged : ∀ x, decide (logicalUnit w x < 64) = decide (logicalUnit s (Equiv.swap p q x) < 64) := by
    intro x
    by_cases hp : x = p
    · rw [hp, Equiv.swap_apply_left, gone, stood]; rfl
    by_cases hx : x = q
    · rw [hx, Equiv.swap_apply_right, spare]
    · rw [Equiv.swap_apply_of_ne_of_ne hp hx, others x hp hx]
  have within : ∀ x, Equiv.swap p q x / 9 = x / 9 := by
    intro x
    by_cases hp : x = p
    · rw [hp, Equiv.swap_apply_left, region]
    by_cases hx : x = q
    · rw [hx, Equiv.swap_apply_right, region]
    · rw [Equiv.swap_apply_of_ne_of_ne hp hx]
  have nodup : (regionUnits g).Nodup := List.Nodup.map (fun _ _ h => Nat.add_left_cancel h) List.nodup_range
  have perm : ((regionUnits g).map (Equiv.swap p q)).Perm (regionUnits g) := by
    refine (List.perm_ext_iff_of_nodup (nodup.map (Equiv.injective _)) nodup).2 fun x => ?_
    rw [List.mem_map, mem_regionUnits]
    constructor
    · rintro ⟨y, hy, rfl⟩
      exact (within y).trans (mem_regionUnits.1 hy)
    · intro hx
      exact ⟨Equiv.swap p q x, mem_regionUnits.2 ((within x).trans hx), Equiv.swap_apply_self ..⟩
  rw [← List.countP_eq_length_filter, ← List.countP_eq_length_filter, ← perm.countP_eq, List.countP_map]
  refine List.countP_congr fun x _ => ?_
  show decide (logicalUnit w (Equiv.swap p q x) < 64) = true ↔ _
  rw [exchanged, Equiv.swap_apply_self]

/-! ### STEP_OPEN -/

theorem mem_retireUnit_swap (h : jobRuns s = true) {p q cond : Nat} (hl : logicalUnit s p < 64) (hq : SpareIs s p q) :
    (retireUnit p cond s).mem = s.mem := by
  have kept : ∀ (p l c : Nat) (x : UnitSt) (s : State), (setCond p c s).mem = s.mem ∧ (mapUnit p l s).mem = s.mem ∧ (setUnit p x s).mem = s.mem :=
    fun _ _ _ _ _ => ⟨rfl, rfl, rfl⟩
  have counted : (swapCounted p q cond s).mem = (unitSwapped p q cond (logicalUnit s p) s).mem := rfl
  rw [retireUnit_swap h (takesOver_spare hl cond hq), raiseOpen_mem, counted, unitSwapped, (kept q 0 0 {} _).1, (kept q _ 0 {} _).2.1,
    (kept p 0 0 {} _).2.2, (kept q 0 0 _ _).2.2]
  rfl

section
variable (hw : s.led.waiting = true) (ho : s.led.st = .opened) (hd : s.keep.dev = .running) (hh : openHeld s = false)
  (ht : takeSlot s = some (slot, take))
include hw ho hd hh ht

/-- A boundary at which nothing but the step waits. -/
theorem step_opens {w : State} (hb : boundaryDone s = w) (hl : w.led = s.led) (hg : w.dict = s.dict) (hm : w.keep.mirror = false)
    (hs : anyShort w = false) : ∃ t, exec .stepOpen s = .next t ∧ StepOpened slot take s w t := by
  subst hb
  obtain ⟨stop, side⟩ := openAttempt_side slot (slotTaken take (boundaryDone s))
  refine ⟨_, exec_stepOpen hw ho hd, ?_⟩
  rw [stepOpen_opens hh ht hs hm]
  exact stepOpened_of_side hl hg side.recComplete

theorem stepOpen_quiet (hq : Quiet s) (hs : anyShort s = false) : ∃ w t, exec .stepOpen s = .next t ∧ StepOpened slot take s w t ∧ w.units = s.units := by
  obtain ⟨sound, owed, pend⟩ := hq
  obtain ⟨f, x, parts, -⟩ := boundaryParts_sound sound
  have done : boundaryDone s = { s with fab := f, twin := x } := by
    unfold boundaryDone
    rw [parts, retireOwed_idle (s := { s with fab := f, twin := x }) owed, writeMap_idle (s := { s with fab := f, twin := x }) pend]
  obtain ⟨t, e, opened⟩ := step_opens hw ho hd hh ht done rfl rfl sound.2.2.1 hs
  exact ⟨_, t, e, opened, rfl⟩

/-- The one retirement that is owed is made at the boundary, and the step opens. -/
theorem stepOpen_swaps {p q cond : Nat} (sound : Sound s) (owed : s.units.owed = [(p, cond)]) (hl : logicalUnit s p < 64) (hq : SpareIs s p q)
    (hs : anyShort s = false) : ∃ t, exec .stepOpen s = .next t ∧ t.led.waiting = false ∧ Swapped s t p q cond := by
  obtain ⟨f, x, parts, -⟩ := boundaryParts_sound sound
  obtain ⟨u, hu⟩ : ∃ u, { s with fab := f, twin := x, units := { s.units with owed := [] } } = u := ⟨_, rfl⟩
  have none : u.units.owed = [] := hu ▸ rfl
  have base : SwapBase s u := hu ▸ ⟨rfl, rfl, rfl, rfl, rfl, rfl⟩
  have runs : jobRuns u = true := by
    unfold jobRuns
    rw [show u.led = s.led from hu ▸ rfl, ho]
  have made := retireUnit_swapMade (cond := cond) runs ((base.logicalUnit p).symm ▸ hl) (base.spareIs hq)
  have mem := mem_retireUnit_swap (cond := cond) runs ((base.logicalUnit p).symm ▸ hl) (base.spareIs hq)
  have done : boundaryDone s = writeMap (retireUnit p cond u) := by
    unfold boundaryDone
    rw [parts, retireOwed_one (s := { s with fab := f, twin := x }) owed, ← hu]
  obtain ⟨applied, g, seen⟩ := writeMap_applied (retireUnit p cond u)
  have swapped := swapped_of base made (made.retires.owed.trans none) applied
  have all := seen.trans (congrArg (fun x => { x with repGen := g }) made.retires.seen)
  have short : anyShort (writeMap (retireUnit p cond u)) = false :=
    (anyShort_congr (by rw [writeMap_mem, mem, ← hu]) (working_swapped hq swapped)).trans hs
  obtain ⟨t, e, opened⟩ := step_opens hw ho hd hh ht done ((congrArg Seen.led all).trans (hu ▸ rfl)) ((congrArg Seen.dict all).trans (hu ▸ rfl))
    ((congrArg Seen.mirror all).trans (hu ▸ sound.2.2.1)) short
  exact ⟨t, e, opened.waiting, opened.swapped swapped⟩

end

end Sys2Proof.Machine
end

section
/-! SUPPORT. An abort on a card, to the stop of its engines (R288, R291 to R294). -/

namespace Sys2Proof.Machine

open Sys2Proof.Claims

variable {s : State}

/-! ### ABORT_MESSAGE (R288) -/

/-- The abort of the running attempt is taken. -/
theorem abortMessage_taken {h : TpHdr} (hf : Fresh s h 5) (ho : s.led.st = .opened ∨ s.led.st = .updating ∨ s.led.st = .ready) {n : BitVec 64}
    (hn : n.toNat = s.led.running) (cause : BitVec 8) (card layer : BitVec 16) (act : BitVec 8) :
    exec (.abortMessage h n (attempt s) cause card layer act) s =
      .next (takeAbort n.toNat cause.toNat card.toNat layer.toNat act.toNat (heard s h)) := by
  refine congrArg Host.Outcome.next ((hear_fresh hf _).trans (if_pos ?_))
  have opened : (decide (s.led.st = .opened) || decide (s.led.st = .updating) || decide (s.led.st = .ready)) = true := by
    simpa only [Bool.or_eq_true, decide_eq_true_eq, or_assoc] using ho
  show ((decide (s.led.st = .opened) || decide (s.led.st = .updating) || decide (s.led.st = .ready)) && decide (n.toNat = s.led.running) &&
    decide (attempt s = attempt s)) = true
  rw [opened, decide_eq_true hn, decide_eq_true rfl]
  rfl

theorem abortMessage_stale {h : TpHdr} (hf : ¬ Fresh s h 5) (n : BitVec 64) (att : Nat) (cause : BitVec 8) (card layer : BitVec 16) (act : BitVec 8) :
    exec (.abortMessage h n att cause card layer act) s = .next s := congrArg Host.Outcome.next (hear_stale hf _)

/-- An abort for another step or attempt, or a second one, is only noted. -/
theorem abortMessage_other {h : TpHdr} (hf : Fresh s h 5) {n : BitVec 64} {att : Nat} (cause : BitVec 8) (card layer : BitVec 16) (act : BitVec 8)
    (ho : n.toNat ≠ s.led.running ∨ att ≠ attempt s ∨ s.led.st = .aborting) :
    exec (.abortMessage h n att cause card layer act) s = .next (heard s h) := by
  refine congrArg Host.Outcome.next ((hear_fresh hf _).trans (if_neg ?_))
  simp only [Bool.and_eq_true, Bool.or_eq_true, decide_eq_true_eq, not_and]
  rintro ⟨opened, hn⟩ ha
  rcases ho with ho | ho | ho
  · exact ho hn
  · exact ho ha
  · have aborting : (heard s h).led.st = .aborting := ho
    rw [aborting] at opened
    rcases opened with (h | h) | h <;> cases h

/-- The ledger of a card that takes an abort. -/
def abortLed (step cause card layer action : Nat) (s : State) : LedgerSt :=
  { s.led with
    st := .aborting, waiting := false, abCause := cause, abStep := step, abCard := card, abLayer := layer, abAction := action,
    abJob := s.led.abJob + 1, consec := min 255 (s.led.consec + 1),
    run := { s.led.run with lrun := 0 }, engStop := if s.keep.dev = .halted then s.led.engStop else [] }

/-- Units stopped and the statistics of the attempt dropped. -/
def attemptDropped (step : Nat) (s : State) : State :=
  let s := stopUnits (dropStats s)
  { s with
    led := { s.led with stale := [], normSent := false }
    mem := { s.mem with issued := s.mem.issued.filter fun x => decide (x.2 ≠ step), lateEnt := [] } }

/-- A twin in step is told to drop what it holds of the step. -/
def discardTold (step : Nat) (s : State) : State := if s.twin.pair = .inStep then toTwin (.discard step) s else s

theorem discardTold_frame (step : Nat) (s : State) : ∃ o r, discardTold step s = { s with out := s.out ++ o, stat := { s.stat with run := r } } ∧
    (s.twin.pair ≠ .inStep → r = s.stat.run) := by
  unfold discardTold
  split
  · next hp =>
    obtain ⟨r, e⟩ := toTwin_frame s (.discard step)
    exact ⟨_, r, e, fun h => absurd hp h⟩
  · exact ⟨[], s.stat.run, by rw [List.append_nil], fun _ => rfl⟩

/-- An abort of another cause than the failure of a card. -/
theorem takeAbort_eq {cause : Nat} (hc : cause ≠ 6) (step card layer action : Nat) (s : State) : takeAbort step cause card layer action s =
    discardTold step (attemptDropped step (raiseOpen 0x03 noSource (pack [(8, cause), (16, card), (16, layer), (8, action)])
      { s with led := abortLed step cause card layer action s })) := if_neg hc

theorem stopUnits_stopped {pu : Nat × UnitSt} (h : pu ∈ (stopUnits s).units.phys) : pu.2.stopped = true ∧ pu.2.hold = none := by
  obtain ⟨x, -, rfl⟩ := List.mem_map.1 h
  exact ⟨rfl, rfl⟩

/-- What an abort leaves of a card. -/
structure AbortTaken (led : LedgerSt) (s t : State) : Prop where
  led : t.led = { led with stale := [], normSent := false }
  run : s.twin.pair ≠ .inStep → t.stat.run = []
  tRun : t.stat.tRun = []
  units : t.units = (stopUnits s).units
  cells : t.mem.cells = s.mem.cells

theorem takeAbort_taken {cause : Nat} (hc : cause ≠ 6) (step card layer action : Nat) (s : State) :
    AbortTaken (abortLed step cause card layer action s) s (takeAbort step cause card layer action s) := by
  obtain ⟨o, hs, l, n, b, e⟩ : ∃ o h l n b, raiseOpen 0x03 noSource (pack [(8, cause), (16, card), (16, layer), (8, action)])
    { s with led := abortLed step cause card layer action s } = _ := raise_frame ..
  rw [takeAbort_eq hc, e]
  obtain ⟨o', r, e', hr⟩ := discardTold_frame step (attemptDropped step { s with
    led := abortLed step cause card layer action s, out := s.out ++ o, host := hs, boot := { s.boot with log := l, logSeq := n },
    stat := { s.stat with eseq := s.stat.eseq + 1, boot := b } })
  rw [e']
  exact ⟨rfl, hr, rfl, rfl, rfl⟩

/-! ### ENGINES_STOPPED (R288, R292 to R294) -/

/-- A unit whose engines have stopped, with no context in flight. -/
def idleUnit (u : UnitSt) : UnitSt := stopUnit { u with ctxs := u.ctxs.map fun kc => (kc.1, { kc.2 with flight := none }) }

/-- The card whose units and engines have stopped. -/
def enginesIdle (s : State) : State :=
  { dropStats s with
    units := { s.units with phys := s.units.phys.map fun pu => (pu.1, idleUnit pu.2) }
    fab := { s.fab with remotes := s.fab.remotes.filter fun r => decide (r.unit = harvUnit), trees := [] } }

/-- How an abort goes on: the attempt ends, or the touched layers are restored, or they are lost. -/
def abortGoes (s : State) : State :=
  if s.led.abCause = 10 ∧ some s.led.abCard = myLogical s ∧ s.led.abLayer < (ownLt s).layers.length then enterLost s
  else if s.led.touched.isEmpty then finishAbort s
  else if s.twin.pair = .inStep then beginRestore s
  else enterLost s

theorem abortHeld_none (h : s.plan.plan.held = []) : abortHeld s = s := by
  unfold abortHeld mapHelds heldTables
  rw [h]
  rfl

theorem handleDamage_none (h : s.mem.dmgRun = []) : handleDamage s = s := by
  unfold handleDamage
  rw [h]
  show { s with mem := { s.mem with dmgRun := [] } } = s
  rw [← h]

/-- With nothing damaged and no held scales. -/
theorem enginesStopped_eq (hd : s.mem.dmgRun = []) (hh : s.plan.plan.held = []) : enginesStopped s = abortGoes (enginesIdle s) := by
  have held : abortHeld (enginesIdle s) = enginesIdle s := abortHeld_none hh
  have undamaged : handleDamage (enginesIdle s) = enginesIdle s := handleDamage_none hd
  show abortGoes (handleDamage (abortHeld (enginesIdle s))) = _
  rw [held, undamaged]

theorem enginesStopped_aborting (h : s.led.st = .aborting) : exec .enginesStopped s = .next (enginesStopped s) := congrArg Host.Outcome.next (if_pos h)

theorem enginesStopped_idle (h : s.led.st ≠ .aborting) : exec .enginesStopped s = .next s := congrArg Host.Outcome.next (if_neg h)

/-! ### The next attempt (R294) -/

theorem sendAbort_mem (step att cause card layer action : Nat) (s : State) : (sendAbort step att cause card layer action s).mem = s.mem :=
  SentBlind.toCards (g := State.mem) _ ⟨fun _ _ _ _ => rfl⟩ ..

theorem takeEarly_mem (s : State) : (takeEarly s).mem = s.mem := by
  unfold takeEarly
  change State.mem (match s.led.early.filter fun r => decide (r.1 = s.led.running) && decide (r.2.1 = attempt s) with
    | [] => forgotEarly s
    | (step, att, cause, card, layer, _) :: _ => if jobRuns (forgotEarly s) && amCoordinator (forgotEarly s) then
        sendAbort step att cause card layer (abortAction (forgotEarly s) cause att) (forgotEarly s) else forgotEarly s) = _
  split
  · rfl
  · split
    · exact sendAbort_mem ..
    · rfl

/-- The card that waits at the boundary of the step that it aborted, with one more attempt. -/
def attemptWaits (s : State) : State :=
  let s := setBoot 0x2C08 3 s.led.abCause (setBoot 0x2C08 2 s.led.running (countBoot 0x2C08 1 1 s))
  { s with led := { s.led with
    st := .opened, touched := [], waiting := true, reopen := true, run := { s.led.run with attempts := s.led.run.attempts + 1 }, norms := [],
    slotHeld := s.led.slotHeld && true } }

/-- Early reports are taken up or, where a card is lost, the job is stopped: of the ledger what the coordinator has decided changes. -/
structure Decided (s t : State) : Prop where
  led : ∃ e d c, t.led = { s.led with early := e, decided := d, decCommit := c }
  units : t.units = s.units
  mem : t.mem = s.mem

theorem decided_sendAbort (step att cause card layer action : Nat) (s : State) : Decided s (sendAbort step att cause card layer action s) :=
  have side := sendAbort_side step att cause card layer action s
  ⟨⟨_, _, _, side.led⟩, side.units, sendAbort_mem ..⟩

theorem decided_takeEarly (s : State) : Decided s (takeEarly s) := by
  obtain ⟨d, c, side⟩ := takeEarly_side s
  exact ⟨⟨[], d, c, side.led⟩, side.units, takeEarly_mem s⟩

/-- An abort without touched layers that neither skips the batch nor stops the job. -/
theorem finishAbort_retries (hc : s.led.abCause ≠ 6) (ha : s.led.abAction ≤ 1) (hs : s.led.stopPend = false) :
    Decided (attemptWaits s) (finishAbort s) := by
  unfold finishAbort
  extract_lets act lost _ s₁ s₂ _ _ s₃ _ _ _ s₄
  have kept : s₂ = s₁ := if_neg fun h => hc h.1
  have skips : act ≠ 2 := fun h => absurd (h ▸ ha : 2 ≤ 1) (by decide)
  have goes : ¬ (act = 3 ∨ s₂.led.stopPend = true) := by
    rw [kept]
    rintro (h | h)
    · exact absurd (h ▸ ha : 3 ≤ 1) (by decide)
    · exact Bool.noConfusion (hs.symm.trans h)
  rw [if_neg goes]
  have counted : s₃ = setBoot 0x2C08 3 s₁.led.abCause (setBoot 0x2C08 2 s₁.led.running (countBoot 0x2C08 1 1 s₁)) := (if_neg skips).trans (by rw [kept])
  have waits : s₄ = attemptWaits s := by
    show { s₃ with led := { s₃.led with
      st := .opened, waiting := true, reopen := true, norms := [], slotHeld := s₃.led.slotHeld && decide (act ≠ 2)
      run := { s₃.led.run with attempts := s₃.led.run.attempts + 1, l := if act = 2 then skipL (num s₃) s₃.led.run.l else s₃.led.run.l } } } = _
    rw [if_neg skips, decide_eq_true skips, counted]
    rfl
  rw [waits]
  split
  · exact decided_sendAbort ..
  · exact decided_takeEarly _

/-! ### Units whose engines have stopped -/

/-- What a change of every unit leaves of each is left of each that is read. -/
theorem get_map_view {α β : Type} {d : α} {f : α → α} {g : α → β} (hg : ∀ u, g (f u) = g u) (m : Sparse α) (x : Nat) :
    g (Sparse.get d (m.map fun kv => (kv.1, f kv.2)) x) = g (Sparse.get d m x) := by
  induction m with
  | nil => rfl
  | cons kv m ih =>
    show g (if kv.1 = x then f kv.2 else _) = g (if kv.1 = x then kv.2 else _)
    split
    · exact hg _
    · exact ih

theorem stopCtx_flight {c : Ctx} (h : c.flight = none) : (stopCtx c).flight = none := by
  unfold stopCtx
  rw [if_neg (by rw [h]; decide)]
  cases c.st <;> exact h

theorem idleUnit_stopped (u : UnitSt) : (idleUnit u).stopped = true ∧ (idleUnit u).slots = [] ∧ ∀ kc ∈ (idleUnit u).ctxs, kc.2.flight = none := by
  refine ⟨rfl, rfl, fun kc hkc => ?_⟩
  obtain ⟨x, hx, rfl⟩ := List.mem_map.1 hkc
  obtain ⟨y, -, rfl⟩ := List.mem_map.1 hx
  exact stopCtx_flight rfl

theorem enginesIdle_units {pu : Nat × UnitSt} (h : pu ∈ (enginesIdle s).units.phys) :
    pu.2.stopped = true ∧ pu.2.slots = [] ∧ ∀ kc ∈ pu.2.ctxs, kc.2.flight = none := by
  obtain ⟨x, -, rfl⟩ := List.mem_map.1 h
  exact idleUnit_stopped x.2

/-- Stopped units keep their registers and pans. -/
theorem getUnit_enginesIdle (s : State) (p : Nat) :
    (getUnit (enginesIdle s) p).cur = (getUnit s p).cur ∧ (getUnit (enginesIdle s) p).pans = (getUnit s p).pans :=
  ⟨get_map_view (g := UnitSt.cur) (f := idleUnit) (fun _ => rfl) .., get_map_view (g := UnitSt.pans) (f := idleUnit) (fun _ => rfl) ..⟩

/-! ### Restore and loss (R288, R293) -/

theorem beginRestore_spec (s : State) : (beginRestore s).led = { s.led with st := .restoring } ∧ (beginRestore s).mem = s.mem ∧
    (beginRestore s).twin.restore = (layerNumbers (ownLt s)).filter fun k => s.led.touched.contains k := by
  have view : ∀ {β : Type} {g : State → β}, SentBlind g → ∀ (ks : List Nat) (s : State), g (ks.foldl (fun s k => pullLayer k false s) s) = g s :=
    fun hg ks s => foldl_same _ _ (fun s k => hg.toTwin s (.pull (.layer k false))) ks s
  unfold beginRestore
  dsimp only
  split
  · refine ⟨view (g := State.led) ⟨fun _ _ _ _ => rfl⟩ .., view (g := State.mem) ⟨fun _ _ _ _ => rfl⟩ .., ?_⟩
    exact view (g := fun s => s.twin.restore) ⟨fun _ _ _ _ => rfl⟩ ..
  · exact ⟨rfl, rfl, rfl⟩

theorem openSnaps_cells (s : State) : (openSnaps s).mem.cells = s.mem.cells := by
  unfold openSnaps
  refine foldl_cells (fun s k => ?_) _ s
  dsimp only
  split
  · split <;> rfl
  · rfl

theorem harvEnd_cells (s : State) : (harvEnd s).mem.cells = s.mem.cells := by
  unfold harvEnd
  cases s.harv.snap <;> rfl

theorem raiseVec_mem (v : Nat) (s : State) : (raiseVec v s).mem = s.mem :=
  EventBlind.raiseVec (g := State.mem) s ⟨fun _ _ _ _ _ _ _ _ _ _ _ => rfl⟩ v

theorem setHarv_mem (st : Nat) (s : State) : (setHarv st s).mem = s.mem := by
  unfold setHarv
  dsimp only
  split
  · rfl
  · exact raiseVec_mem ..

theorem harvStop_cells (s : State) : (harvStop s).mem.cells = s.mem.cells := by
  unfold harvStop harvFail
  split
  · split
    · rw [sayHarvest, raiseOpen_mem, setHarv_mem, harvEnd_cells]
    · rfl
  · rfl

theorem enterLost_spec (s : State) : (enterLost s).led.st = .lost ∧ (enterLost s).keep.dev = .planLoaded ∧ (enterLost s).mem.cells = s.mem.cells := by
  have led : (reportLost s).led = { s.led with st := .lost } := SentBlind.toCard (g := State.led) _ ⟨fun _ _ _ _ => rfl⟩ ..
  have mem : (reportLost s).mem = s.mem := SentBlind.toCard (g := State.mem) _ ⟨fun _ _ _ _ => rfl⟩ ..
  have lost : enterLost s = harvStop (openSnaps { reportLost s with
    led := { (reportLost s).led with waiting := false }, keep := { (reportLost s).keep with dev := .planLoaded } }) := rfl
  obtain ⟨u, hu⟩ : ∃ u, { reportLost s with
    led := { (reportLost s).led with waiting := false }, keep := { (reportLost s).keep with dev := .planLoaded } } = u := ⟨_, rfl⟩
  have side := (Side.refl u).openSnaps.harvStop
  rw [lost, hu]
  refine ⟨?_, side.dev.trans (hu ▸ rfl), ?_⟩
  · rw [side.led, ← hu, led]
  · rw [harvStop_cells, openSnaps_cells, ← hu, mem]

/-! ### The ends of an abort -/

section
variable (ha : s.led.st = .aborting) (hd : s.mem.dmgRun = []) (hh : s.plan.plan.held = []) (h10 : s.led.abCause ≠ 10)
include ha hd hh h10

theorem enginesStopped_goes : exec .enginesStopped s = .next (
    if s.led.touched.isEmpty then finishAbort (enginesIdle s) else if s.twin.pair = .inStep then beginRestore (enginesIdle s) else enterLost (enginesIdle s)) := by
  rw [enginesStopped_aborting ha, enginesStopped_eq hd hh]
  exact congrArg Host.Outcome.next (if_neg fun h => h10 h.1)

theorem enginesStopped_retries (h6 : s.led.abCause ≠ 6) (ht : s.led.touched = []) (hact : s.led.abAction ≤ 1) (hs : s.led.stopPend = false) :
    Completes .enginesStopped s fun t =>
      t.led.st = .opened ∧ t.led.waiting = true ∧ t.led.reopen = true ∧ t.led.running = s.led.running ∧
      t.led.committed = s.led.committed ∧ t.led.run.attempts = s.led.run.attempts + 1 ∧ t.led.run.l = s.led.run.l ∧
      t.led.slotHeld = s.led.slotHeld ∧ t.mem = s.mem ∧
      (∀ pu ∈ t.units.phys, pu.2.stopped = true ∧ pu.2.slots = [] ∧ ∀ kc ∈ pu.2.ctxs, kc.2.flight = none) ∧
      (∀ p, (getUnit t p).cur = (getUnit s p).cur ∧ (getUnit t p).pans = (getUnit s p).pans) := by
  have e := enginesStopped_goes ha hd hh h10
  rw [if_pos (by rw [ht]; rfl)] at e
  obtain ⟨⟨_, d, c, led⟩, units, mem⟩ : Decided (attemptWaits (enginesIdle s)) (finishAbort (enginesIdle s)) := finishAbort_retries h6 hact hs
  have same : (finishAbort (enginesIdle s)).units = (enginesIdle s).units := units
  refine ⟨_, e, ?_, ?_, ?_, ?_, ?_, ?_, ?_, ?_, mem, fun pu hpu => ?_, fun p => ?_⟩
  · rw [led]; rfl
  · rw [led]; rfl
  · rw [led]; rfl
  · rw [led]; rfl
  · rw [led]; rfl
  · rw [led]; rfl
  · rw [led]; rfl
  · rw [led]
    exact Bool.and_true _
  · rw [same] at hpu
    exact enginesIdle_units hpu
  · rw [getUnit, same]
    exact getUnit_enginesIdle s p

theorem enginesStopped_restores (ht : s.led.touched ≠ []) (hp : s.twin.pair = .inStep) : Completes .enginesStopped s fun t =>
    t.led.st = .restoring ∧ t.led.touched = s.led.touched ∧ t.mem = s.mem ∧
    t.twin.restore = (layerNumbers (ownLt s)).filter fun k => s.led.touched.contains k := by
  have e := enginesStopped_goes ha hd hh h10
  rw [if_neg (by simpa using ht), if_pos hp] at e
  obtain ⟨led, mem, restore⟩ := beginRestore_spec (enginesIdle s)
  refine ⟨_, e, ?_, ?_, mem, restore⟩
  · rw [led]
  · rw [led]; rfl

theorem enginesStopped_loses (ht : s.led.touched ≠ []) (hp : s.twin.pair ≠ .inStep) : Completes .enginesStopped s fun t =>
    t.led.st = .lost ∧ t.keep.dev = .planLoaded ∧ t.mem.cells = s.mem.cells := by
  have e := enginesStopped_goes ha hd hh h10
  rw [if_neg (by simpa using ht), if_neg hp] at e
  exact ⟨_, e, enterLost_spec (enginesIdle s)⟩

end

/-! ### APPLY_MESSAGE (R282) -/

theorem applyMessage_stale {h : TpHdr} (hf : ¬ Fresh s h 6) (n : BitVec 64) (att : Nat) (cs : W32) : exec (.applyMessage h n att cs) s = .next s :=
  congrArg Host.Outcome.next (hear_stale hf _)

section
variable {h : TpHdr} (hf : Fresh s h 6) (ho : s.led.st = .opened ∨ s.led.st = .updating) {n : BitVec 64} (hn : n.toNat = s.led.running) (cs : W32)
include hf

include ho hn in
/-- The first factor for the attempt is taken. -/
theorem applyMessage_first (hc : s.led.applyCs = none) :
    exec (.applyMessage h n (attempt s) cs) s = .next { heard s h with led := { s.led with applyCs := some cs } } :=
  congrArg Host.Outcome.next ((hear_fresh hf _).trans (if_pos ⟨ho, hn, rfl, hc⟩))

/-- Another is only noted. -/
theorem applyMessage_again (hc : s.led.applyCs ≠ none) : exec (.applyMessage h n (attempt s) cs) s = .next (heard s h) :=
  congrArg Host.Outcome.next ((hear_fresh hf _).trans (if_neg fun ⟨_, _, _, hs⟩ => hc hs))

end

end Sys2Proof.Machine
end

section
/-! PROOF. The messages and boundaries that move the ledger of a card (O43). -/

namespace Sys2Proof.Machine

open Sys2Proof.Claims

variable {s : State}

/-! ### CARD_READY (R25, R351) -/

theorem readyTold_told (s : State) :
    Told { s with led := { s.led with st := .ready } } (readyTold s) (coordinator s) (.ready s.led.running (attempt s)) :=
  toCard_told _ _ fun _ => TpMsg.noConfusion

theorem stepmTold_eq (s : State) (bs : Bytes) : stepmTold s bs =
    { s with twin := { s.twin with stepmSent := true, sacked := 0 }, stat := { s.stat with run := (stepmTold s bs).stat.run },
             out := s.out ++ [.twin (.stepm s.led.running (measBlock (heldOf bs) s))] } := by
  obtain ⟨r, e⟩ : ∃ r, stepmTold s bs = _ := toTwin_frame { s with twin := { s.twin with stepmSent := true, sacked := 0 } }
    (.stepm s.led.running (measBlock (heldOf bs) s))
  rw [e]

theorem cardReady_sendsStepm (h : isReady s = true) (hp : s.twin.pair = .inStep) (ha : allAcked s = true) (hm : s.twin.stepmSent = false)
    {s1 : State} {bs : Bytes} (hr : readRanges (heldRanges s) .clean s = (s1, some bs)) : Completes .cardReady s fun t =>
      t = { s1 with twin := { s1.twin with stepmSent := true, sacked := 0 }, stat := { s1.stat with run := t.stat.run },
                    out := s1.out ++ [.twin (.stepm s.led.running (measBlock (heldOf bs) s1))] } := by
  refine ⟨_, cardReady_stepm h hp ha hm hr, ?_⟩
  rw [← readRanges_led hr]
  exact stepmTold_eq s1 bs

/-! ### COMMIT_MESSAGE (R287 to R289, R367, R368) -/

section
variable {h : TpHdr} (hf : Fresh s h 4) (hr : s.led.st = .ready) {n : BitVec 64} (hn : n.toNat = s.led.running) (hs : Sound s)
include hf hr hn hs

/-- What holds of every card that a commit leaves holds of this one. -/
theorem commit_completes {P : State → Prop}
    (hP : ∀ e t, CommitDue s e → Applied (retireOwed (judgeSlip e)) t → StepCommitted s t → P t) : Completes (.commitMessage h n (attempt s)) s P := by
  obtain ⟨e, t, run, due, applied, committed⟩ := commit_spec hf hr hn hs
  exact ⟨t, run, hP e t due applied committed⟩

end

/-! ### STEP_OPEN (R289 step 6) -/

theorem stepOpen_attempt {slot take : Nat} (hw : s.led.waiting = true) (ho : s.led.st = .opened) (hd : s.keep.dev = .running)
    (hh : openHeld s = false) (ht : takeSlot s = some (slot, take)) (hq : Quiet s) (hs : anyShort s = false) : Completes .stepOpen s fun t =>
      t.led.st = .opened ∧ t.led.waiting = false ∧ t.led.running = s.led.running ∧ t.led.committed = s.led.committed ∧
      t.led.run.step = s.led.running ∧ t.led.run.ring = slot ∧
      t.led.run.gen = (if s.led.reopen then s.led.run.gen else s.dict.genForce) ∧ t.led.run.attempts = s.led.run.attempts ∧
      t.host.ringtake = take ∧ t.gates = [] ∧ (∀ p, getUnit t p = resetUnit (getUnit s p)) ∧
      t.keep.inForce = clockCodes s.led.run.clocks ∧ t.keep.forced = [] ∧ t.mem.refresh = s.led.run.refresh := by
  obtain ⟨w, t, e, h, units⟩ := stepOpen_quiet hw ho hd hh ht hq hs
  have unit : ∀ p, getUnit w p = getUnit s p := fun p => by unfold getUnit; rw [units]
  exact ⟨t, e, h.st.trans ho, h.waiting, h.running, h.committed, h.step, h.ring, h.gen, h.attempts, h.ringtake, h.gates,
    fun p => (h.getUnit p).trans (congrArg resetUnit (unit p)), h.inForce, h.forced, h.refresh⟩

/-! ### ABORT_MESSAGE (R288) -/

theorem abortMessage_aborts {h : TpHdr} (hf : Fresh s h 5) (ho : s.led.st = .opened ∨ s.led.st = .updating ∨ s.led.st = .ready) {n : BitVec 64}
    (hn : n.toNat = s.led.running) {cause : BitVec 8} (hc : cause ≠ 6) (card layer : BitVec 16) (act : BitVec 8) :
    Completes (.abortMessage h n (attempt s) cause card layer act) s fun t =>
      t.led.st = .aborting ∧ t.led.waiting = false ∧ t.led.abCause = cause.toNat ∧ t.led.abStep = n.toNat ∧
      t.led.abCard = card.toNat ∧ t.led.abLayer = layer.toNat ∧ t.led.abAction = act.toNat ∧
      t.led.abJob = s.led.abJob + 1 ∧ t.led.committed = s.led.committed ∧ t.led.running = s.led.running ∧
      (s.twin.pair ≠ .inStep → t.stat.run = []) ∧ t.stat.tRun = [] ∧ (∀ pu ∈ t.units.phys, pu.2.stopped = true ∧ pu.2.hold = none) ∧
      t.mem.cells = s.mem.cells := by
  have cause6 : cause.toNat ≠ 6 := fun e => hc (BitVec.eq_of_toNat_eq e)
  obtain ⟨led, run, tRun, units, cells⟩ := takeAbort_taken cause6 n.toNat card.toNat layer.toNat act.toNat (heard s h)
  refine ⟨_, abortMessage_taken hf ho hn cause card layer act, ?_⟩
  generalize takeAbort n.toNat cause.toNat card.toNat layer.toNat act.toNat (heard s h) = t at led run tRun units cells
  rw [led]
  refine ⟨rfl, rfl, rfl, rfl, rfl, rfl, rfl, rfl, rfl, rfl, run, tRun, fun pu hpu => ?_, cells⟩
  rw [units] at hpu
  exact stopUnits_stopped hpu

/-- Settles O43: each message and each boundary by the lemma that says where it leaves the ledger; the retirements and the slip policy
by what a commit owes once its side work is done. -/
theorem ledgerOfACard : Obligations.LedgerOfACard := by
  unfold Obligations.LedgerOfACard
  refine ⟨?_, ?_, fun s => cardReady_unready, ?_, ?_, ?_, ?_, ?_, ?_, ?_, fun s => stepOpen_idle, ?_, ?_, ?_, fun s => enginesStopped_idle, ?_, ?_⟩
  · exact fun s h hp => ⟨_, cardReady_apart h hp, readyTold_told s⟩
  · exact fun s h hp ha => ⟨fun s1 bs hm hr => cardReady_sendsStepm h hp ha hm hr,
      fun hm hs => ⟨_, cardReady_sacked h hp ha hs hm, readyTold_told s⟩⟩
  · exact fun s h n hf hr hn hs => commit_completes hf hr hn hs fun e t due applied step =>
      ⟨step.committed, step.touched, step.consec, step.ringget, step.goes, step.ends, due.written applied⟩
  · exact fun s h n p q cond hf hr hn hs hslip ho hl =>
      ⟨fun hq => commit_completes hf hr hn hs fun e t due applied _ => due.owed_swapped hslip ho hl applied hq,
        fun hq => commit_completes hf hr hn hs fun e t due applied _ => due.owed_noSpare hslip ho hl applied hq⟩
  · exact fun s h n med2 hf hr hn hs ho hm =>
      ⟨fun hslip => commit_completes hf hr hn hs fun e t due applied _ => due.slip_counted ho hm hslip applied,
        fun p hp hslip hl hab hlim hother =>
        ⟨fun q hq => commit_completes hf hr hn hs fun e t due applied _ => due.slip_swapped ho hm hp hslip hl hab hlim hother applied hq,
          fun hq => commit_completes hf hr hn hs fun e t due applied _ => due.slip_unfilled ho hm hp hslip hl hab hlim hother applied hq⟩⟩
  · exact fun s h n att => ⟨fun hf => commitMessage_stale hf n att, fun hf => commitMessage_other hf⟩
  · exact fun s hw ho hd hh ht => ⟨stepOpen_waitSaid hw ho hd hh ht, stepOpen_saysWait hw ho hd hh ht⟩
  · exact fun s slot take hw ho hd hh ht hq hs => stepOpen_attempt hw ho hd hh ht hq hs
  · exact fun s slot take p q cond hw ho hd hh ht sound owed hl hq hs => stepOpen_swaps hw ho hd hh ht sound owed hl hq hs
  · exact fun s h n cause card layer act hf ho hn hc => abortMessage_aborts hf ho hn hc card layer act
  · exact fun s h n att cause card layer act =>
      ⟨fun hf => abortMessage_stale hf n att cause card layer act, fun hf => abortMessage_other hf cause card layer act⟩
  · exact fun s ha hd hh h6 h10 => ⟨enginesStopped_retries ha hd hh h10 h6, enginesStopped_restores ha hd hh h10,
      fun ht hp _ => enginesStopped_loses ha hd hh h10 ht hp⟩
  · exact fun s h n cs hf ho hn => ⟨applyMessage_first hf ho hn cs, applyMessage_again hf cs⟩
  · exact fun s h n att cs hf => applyMessage_stale hf n att cs

end Sys2Proof.Machine
end

section
/-! PROOF. What every step keeps of the ledger and of the sets of the dictionary (O5). Most operations are calm: they leave the ledger as it
was, or leave the card without a job, of which nothing is said. Each such function of the model has one rule here, `f_calm`, that cites
the rules of those it calls. The few that move the ledger or let more parts await have a rule `f_ledger` that says what they keep. -/

namespace Sys2Proof.Machine

open Sys2Proof.Claims

/-- What the invariants say of the ledger, and of the mode of the plan and the mirror that bound it. -/
def ledView (s : State) : LState × Nat × Nat × Bool × List Nat × Option W32 × Bool × Bool :=
  (s.led.st, s.led.running, s.led.committed, s.led.waiting, s.led.touched, s.led.applyCs, s.keep.mirror, s.plan.plan.lt.mode)

/-- What they say of the dictionary, and whether the card is a spare that a recovery loads. -/
def setView (s : State) : BitVec 32 × List EntryVal × List Part × Bool := (s.dict.gen, s.dict.pset, s.dict.awaiting, s.fab.joining)

/-- The ledger is as it was, or has no job any more; the sets of the dictionary keep their bounds, no part awaits that did not, and the card
is no spare that it was not. -/
structure LedgerCalm (s t : State) : Prop where
  sets : SetBounds s → SetBounds t
  await : t.dict.awaiting.Sublist s.dict.awaiting
  joins : s.fab.joining = false → t.fab.joining = false
  led : ledView t = ledView s ∨ jobRuns t = false

variable {s₀ s t : State}

theorem jobRuns_of_led (e : ledView t = ledView s) : jobRuns t = jobRuns s := by
  have hst : t.led.st = s.led.st := congrArg (·.1) e
  simp only [jobRuns, hst]

theorem LedgerCalm.refl (s : State) : LedgerCalm s s := ⟨id, List.Sublist.refl _, id, .inl rfl⟩

theorem LedgerCalm.trans {u : State} (h : LedgerCalm s t) (k : LedgerCalm t u) : LedgerCalm s u := by
  refine ⟨k.sets ∘ h.sets, k.await.trans h.await, k.joins ∘ h.joins, ?_⟩
  rcases k.led with e | e
  · exact h.led.imp e.trans (jobRuns_of_led e).trans
  · exact .inr e

theorem setBounds_of_view (e : setView t = setView s) : SetBounds s → SetBounds t := by
  simp only [setView, Prod.mk.injEq] at e
  obtain ⟨hgen, hpset, -, -⟩ := e
  simp only [SetBounds, hgen, hpset, imp_self]

theorem awaiting_of_view (e : setView t = setView s) : t.dict.awaiting.Sublist s.dict.awaiting :=
  (congrArg (·.2.2.1) e : t.dict.awaiting = s.dict.awaiting) ▸ List.Sublist.refl _

theorem joining_of_view (e : setView t = setView s) : t.fab.joining = s.fab.joining := congrArg (·.2.2.2) e

/-- An update of what the invariants do not speak of. -/
theorem LedgerCalm.update (h : LedgerCalm s₀ s) (e : (setView t, ledView t) = (setView s, ledView s)) : LedgerCalm s₀ t :=
  have es := congrArg Prod.fst e
  h.trans ⟨setBounds_of_view es, awaiting_of_view es, (joining_of_view es).trans, .inl (congrArg Prod.snd e)⟩

/-- An update that leaves the card without a job. -/
theorem LedgerCalm.noJob (h : LedgerCalm s₀ s) (e : setView t = setView s) (hj : jobRuns t = false) : LedgerCalm s₀ t :=
  h.trans ⟨setBounds_of_view e, awaiting_of_view e, (joining_of_view e).trans, .inr hj⟩

theorem LedgerCalm.withMem {m : MemSt} (h : LedgerCalm s₀ s) : LedgerCalm s₀ { s with mem := m } := h.update rfl

theorem LedgerCalm.withHost {x : HostSt} (h : LedgerCalm s₀ s) : LedgerCalm s₀ { s with host := x } := h.update rfl

theorem LedgerCalm.withFab {x : FabricSt} (h : LedgerCalm s₀ s) (e : x.joining = s.fab.joining) : LedgerCalm s₀ { s with fab := x } :=
  h.update (by simp only [setView, ledView, e])

theorem LedgerCalm.withTwin {x : TwinSt} (h : LedgerCalm s₀ s) : LedgerCalm s₀ { s with twin := x } := h.update rfl

/-! ### A step (R43, R47, R286, R287, R293) -/

/-- What a step keeps. -/
structure LedgerStep (s t : State) : Prop where
  sets : SetBounds s → SetBounds t
  await : FewAwait s → FewAwait t
  runs : RunsNext s → s.fab.joining = false → RunsNext t
  touches : TouchesInTurn s → TouchesInTurn t

/-! ### Generations with awaiting parts (R47) -/

/-- The generations of a list of parts, each once. -/
theorem gensAwaiting_toFinset (s : State) : (gensAwaiting s).Nodup ∧ ∀ g, g ∈ gensAwaiting s ↔ g ∈ s.dict.awaiting.map (·.gen) := by
  have key : ∀ (ps : List Part) (gs : List (BitVec 32)), gs.Nodup →
      (ps.foldl (fun (gs : List (BitVec 32)) a => if gs.contains a.gen then gs else gs ++ [a.gen]) gs).Nodup ∧
      ∀ g, g ∈ ps.foldl (fun (gs : List (BitVec 32)) a => if gs.contains a.gen then gs else gs ++ [a.gen]) gs ↔
        g ∈ gs ∨ g ∈ ps.map (·.gen) := by
    intro ps
    induction ps with
    | nil => intro gs hgs; simp [hgs]
    | cons p ps ih =>
      intro gs hgs
      rw [List.foldl_cons]
      by_cases hp : p.gen ∈ gs
      · rw [if_pos (List.contains_iff_mem.mpr hp)]
        obtain ⟨h1, h2⟩ := ih gs hgs
        refine ⟨h1, fun g => (h2 g).trans ?_⟩
        rw [List.map_cons, List.mem_cons]
        exact ⟨fun h => h.imp_right .inr, fun h => h.elim .inl fun h => h.elim (fun e => .inl (e ▸ hp)) .inr⟩
      · rw [if_neg (mt List.contains_iff_mem.mp hp)]
        obtain ⟨h1, h2⟩ := ih (gs ++ [p.gen]) (List.nodup_append.mpr ⟨hgs, List.nodup_singleton _, by
          intro a ha b hb e; rw [List.mem_singleton] at hb; subst e hb; exact hp ha⟩)
        refine ⟨h1, fun g => (h2 g).trans ?_⟩
        rw [List.mem_append, List.mem_singleton, List.map_cons, List.mem_cons, or_assoc]
  obtain ⟨h1, h2⟩ := key s.dict.awaiting [] List.nodup_nil
  exact ⟨h1, fun g => (h2 g).trans (by simp)⟩

/-- Where every generation with awaiting parts had some already, no more have. -/
theorem gensAwaiting_length_le (h : ∀ g ∈ t.dict.awaiting.map (·.gen), g ∈ s.dict.awaiting.map (·.gen)) :
    (gensAwaiting t).length ≤ (gensAwaiting s).length := by
  obtain ⟨ht, mt⟩ := gensAwaiting_toFinset t
  obtain ⟨-, ms⟩ := gensAwaiting_toFinset s
  exact (List.subperm_of_subset ht fun g hg => (ms g).mpr (h g ((mt g).mp hg))).length_le

theorem gens_length_le_of_sublist (h : t.dict.awaiting.Sublist s.dict.awaiting) : (gensAwaiting t).length ≤ (gensAwaiting s).length :=
  gensAwaiting_length_le fun _ hg => (h.map _).subset hg


theorem fewAwait_of_sublist (h : t.dict.awaiting.Sublist s.dict.awaiting) : FewAwait s → FewAwait t :=
  fun hs => (gens_length_le_of_sublist h).trans hs

/-! ### Calm steps -/

/-- A card without a job meets what is said of one. -/
theorem runsNext_idle (hj : jobRuns t = false) : RunsNext t := ⟨fun h => absurd (hj.symm.trans h) (by decide), fun _ => hj⟩

theorem touchesInTurn_idle (hj : jobRuns t = false) : TouchesInTurn t := by
  unfold jobRuns at hj
  constructor
  · intro ho
    rw [ho] at hj
    cases hj
  · rintro - - (ho | ho | ho) <;> rw [ho] at hj <;> cases hj

theorem touchesInTurn_of_nil (h : t.led.touched = []) : TouchesInTurn t := ⟨fun _ _ => h, fun _ _ _ => h⟩

theorem touchesInTurn_of_view (e : ledView t = ledView s) : TouchesInTurn s → TouchesInTurn t := by
  simp only [ledView, Prod.mk.injEq] at e
  obtain ⟨hst, -, -, hwait, htouched, happly, -, hmode⟩ := e
  simp only [TouchesInTurn, hst, hwait, htouched, happly, hmode, imp_self]

theorem runsNext_of_view (e : ledView t = ledView s) : RunsNext s → RunsNext t := by
  have hj := jobRuns_of_led e
  simp only [ledView, Prod.mk.injEq] at e
  obtain ⟨-, hrun, hcom, -, -, -, hmir, -⟩ := e
  simp only [RunsNext, hj, hrun, hcom, hmir, imp_self]

theorem LedgerCalm.runs (h : LedgerCalm s t) : RunsNext s → RunsNext t :=
  h.led.elim runsNext_of_view fun hj _ => runsNext_idle hj

theorem LedgerCalm.touches (h : LedgerCalm s t) : TouchesInTurn s → TouchesInTurn t :=
  h.led.elim touchesInTurn_of_view fun hj _ => touchesInTurn_idle hj

/-- A card without a job stays without one. -/
theorem LedgerCalm.idle (h : LedgerCalm s t) (hj : jobRuns s = false) : jobRuns t = false :=
  h.led.elim (fun e => (jobRuns_of_led e).trans hj) id

theorem LedgerCalm.toStep (h : LedgerCalm s t) : LedgerStep s t :=
  ⟨h.sets, fewAwait_of_sublist h.await, fun hr _ => h.runs hr, h.touches⟩

theorem LedgerCalm.step {u : State} (h : LedgerCalm s t) (k : LedgerStep t u) : LedgerStep s u :=
  ⟨k.sets ∘ h.sets, k.await ∘ fewAwait_of_sublist h.await, fun hr hf => k.runs (h.runs hr) (h.joins hf), k.touches ∘ h.touches⟩

theorem LedgerStep.calm {u : State} (h : LedgerStep s t) (k : LedgerCalm t u) : LedgerStep s u :=
  ⟨k.sets ∘ h.sets, fewAwait_of_sublist k.await ∘ h.await, fun hr hf => k.runs (h.runs hr hf), k.touches ∘ h.touches⟩

/-- Two steps, where the first leaves the card no spare that it was not. -/
theorem LedgerStep.trans {u : State} (h : LedgerStep s t) (hj : s.fab.joining = false → t.fab.joining = false) (k : LedgerStep t u) :
    LedgerStep s u :=
  ⟨k.sets ∘ h.sets, k.await ∘ h.await, fun hr hf => k.runs (h.runs hr hf) (hj hf), k.touches ∘ h.touches⟩

/-- The ledger is set behind calm work. -/
theorem LedgerStep.made {u : State} (h : LedgerCalm s u) (e : t.dict = u.dict) (hr : RunsNext s → s.fab.joining = false → RunsNext t)
    (ht : TouchesInTurn s → TouchesInTurn t) : LedgerStep s t := by
  have sets : SetBounds s → SetBounds t := fun hs => by have := h.sets hs; simpa only [SetBounds, e] using this
  exact ⟨sets, fewAwait_of_sublist (e ▸ h.await), hr, ht⟩

theorem LedgerStep.ite {c : Prop} [Decidable c] {u : State} (hs : LedgerStep s t) (ht : LedgerStep s u) : LedgerStep s (if c then t else u) := by
  split
  · exact hs
  · exact ht

theorem LedgerCalm.ite {c : Prop} [Decidable c] (hs : LedgerCalm s₀ s) (ht : LedgerCalm s₀ t) : LedgerCalm s₀ (if c then s else t) := by
  split
  · exact hs
  · exact ht

theorem LedgerCalm.when {c : Prop} [Decidable c] (ht : LedgerCalm s₀ s → LedgerCalm s₀ t) (h : LedgerCalm s₀ s) :
    LedgerCalm s₀ (if c then t else s) := .ite (ht h) h

theorem LedgerCalm.unless {c : Prop} [Decidable c] (ht : LedgerCalm s₀ s → LedgerCalm s₀ t) (h : LedgerCalm s₀ s) :
    LedgerCalm s₀ (if c then s else t) := .ite h (ht h)

theorem LedgerCalm.foldl {α : Type} {f : State → α → State} {xs : List α} (hf : ∀ s a, LedgerCalm s₀ s → LedgerCalm s₀ (f s a))
    (h : LedgerCalm s₀ s) : LedgerCalm s₀ (xs.foldl f s) := foldl_keeps hf xs s h

theorem LedgerCalm.pair {α : Type} {x : α} (h : LedgerCalm s₀ s) : LedgerCalm s₀ (s, x).1 := h

theorem LedgerCalm.ok {bs : Bytes} (h : LedgerCalm s₀ s) : LedgerCalm s₀ (MemOut.ok s bs).state := h

theorem LedgerCalm.notBacked (h : LedgerCalm s₀ s) : LedgerCalm s₀ (MemOut.notBacked s).state := h

theorem LedgerCalm.failed (h : LedgerCalm s₀ s) : LedgerCalm s₀ (MemOut.failed s).state := h

/-- Calm through a call that answers with a state and a value, once the answer is named. -/
theorem LedgerCalm.fst {α : Type} {p : State × α} {x : α} (h : LedgerCalm s₀ p.1) (e : p = (s, x)) : LedgerCalm s₀ s := by
  subst e
  exact h

/-- Calm through an answer of memory, once the answer is named. -/
theorem LedgerCalm.out {r r' : MemOut} (h : LedgerCalm s₀ r.state) (e : r = r') : LedgerCalm s₀ r'.state := e ▸ h

theorem LedgerCalm.iteFst {α : Type} {c : Prop} [Decidable c] {p q : State × α} (hp : LedgerCalm s₀ p.1) (hq : LedgerCalm s₀ q.1) :
    LedgerCalm s₀ (if c then p else q).1 := by
  split
  · exact hp
  · exact hq

theorem LedgerCalm.iteOut {c : Prop} [Decidable c] {r q : MemOut} (hr : LedgerCalm s₀ r.state) (hq : LedgerCalm s₀ q.state) :
    LedgerCalm s₀ (if c then r else q).state := by
  split
  · exact hr
  · exact hq

theorem LedgerCalm.foldlFst {α β : Type} {f : State × β → α → State × β} {xs : List α} {p : State × β}
    (hf : ∀ p a, LedgerCalm s₀ p.1 → LedgerCalm s₀ (f p a).1) (h : LedgerCalm s₀ p.1) : LedgerCalm s₀ (xs.foldl f p).1 := by
  induction xs generalizing p with
  | nil => exact h
  | cons x xs ih => exact ih (hf p x h)

/-- An operation is calm, where it leaves a state. -/
inductive OpRes.Calm (s₀ : State) : OpRes → Prop
  | ok {s : State} (h : LedgerCalm s₀ s) : Calm s₀ (.ok s)
  | arrived {s : State} {x : Hold} (h : LedgerCalm s₀ s) : Calm s₀ (.arrived s x)
  | wait {x : Hold} : Calm s₀ (.wait x)
  | fault {n : Nat} : Calm s₀ (.fault n)

theorem OpRes.Calm.ite {c : Prop} [Decidable c] {r q : OpRes} (hr : r.Calm s₀) (hq : q.Calm s₀) : (if c then r else q).Calm s₀ := by
  split
  · exact hr
  · exact hq

theorem OpRes.Calm.of_ok {r : OpRes} (h : r.Calm s₀) (e : r = .ok s) : LedgerCalm s₀ s := by
  subst e
  cases h
  assumption

theorem OpRes.Calm.of_arrived {r : OpRes} {x : Hold} (h : r.Calm s₀) (e : r = .arrived s x) : LedgerCalm s₀ s := by
  subst e
  cases h
  assumption

/-- The same of a core's step. -/
inductive Rv.Calm (s₀ : State) : Rv → Prop
  | done {s : State} {c : CoreSt} (h : LedgerCalm s₀ s) : Calm s₀ (.done s c)
  | wait : Calm s₀ .wait
  | trap {n : Nat} : Calm s₀ (.trap n)
  | unitFault : Calm s₀ .unitFault

theorem Rv.Calm.ite {c : Prop} [Decidable c] {r q : Rv} (hr : r.Calm s₀) (hq : q.Calm s₀) : (if c then r else q).Calm s₀ := by
  split
  · exact hr
  · exact hq

theorem Rv.Calm.of_done {r : Rv} {c : CoreSt} (h : r.Calm s₀) (e : r = .done s c) : LedgerCalm s₀ s := by
  subst e
  cases h
  assumption

/-- The same of an order to the owner of memory. -/
inductive Owner.Calm (s₀ : State) : Owner → Prop
  | done {s : State} (h : LedgerCalm s₀ s) : Calm s₀ (.done s)
  | full : Calm s₀ .full

theorem Owner.Calm.ite {c : Prop} [Decidable c] {r q : Owner} (hr : r.Calm s₀) (hq : q.Calm s₀) : (if c then r else q).Calm s₀ := by
  split
  · exact hr
  · exact hq

theorem Owner.Calm.of_done {r : Owner} (h : r.Calm s₀) (e : r = .done s) : LedgerCalm s₀ s := by
  subst e
  cases h
  assumption

/-- The same of a read or write in runs. -/
inductive Runs.Calm (s₀ : State) : Runs → Prop
  | ok {s : State} {bs : Bytes} (h : LedgerCalm s₀ s) : Calm s₀ (.ok s bs)
  | bad {s : State} {cause addr : Nat} (h : LedgerCalm s₀ s) : Calm s₀ (.bad s cause addr)

theorem Runs.Calm.ite {c : Prop} [Decidable c] {r q : Runs} (hr : r.Calm s₀) (hq : q.Calm s₀) : (if c then r else q).Calm s₀ := by
  split
  · exact hr
  · exact hq

theorem Runs.Calm.of_ok {r : Runs} {bs : Bytes} (h : r.Calm s₀) (e : r = .ok s bs) : LedgerCalm s₀ s := by
  subst e
  cases h
  assumption

theorem Runs.Calm.of_bad {r : Runs} {cause addr : Nat} (h : r.Calm s₀) (e : r = .bad s cause addr) : LedgerCalm s₀ s := by
  subst e
  cases h
  assumption

/-- A command's meaning answers a next state with what a step keeps. -/
def LedgerAnswers (s₀ : State) (r : Res) : Prop := ∃ t, r = .next t ∧ LedgerStep s₀ t

theorem LedgerAnswers.next (h : LedgerCalm s₀ s) : LedgerAnswers s₀ (.next s) := ⟨s, rfl, h.toStep⟩

theorem LedgerAnswers.steps (h : LedgerStep s₀ s) : LedgerAnswers s₀ (.next s) := ⟨s, rfl, h⟩

/-! ### Counters, events and the state's own operations -/

theorem putVal_calm {idx sub : Nat} {bs : Bytes} (h : LedgerCalm s₀ s) : LedgerCalm s₀ (putVal idx sub bs s) := h.update rfl

theorem countBoot_calm {idx sub n : Nat} (h : LedgerCalm s₀ s) : LedgerCalm s₀ (countBoot idx sub n s) := h.update rfl

theorem countRun_calm {idx sub n : Nat} (h : LedgerCalm s₀ s) : LedgerCalm s₀ (countRun idx sub n s) := h.update rfl

theorem maxRun_calm {idx sub n : Nat} (h : LedgerCalm s₀ s) : LedgerCalm s₀ (maxRun idx sub n s) := h.update rfl

theorem send_calm {o : Out} (h : LedgerCalm s₀ s) : LedgerCalm s₀ (send o s) := h.update rfl

theorem raiseVec_calm {v : Nat} (h : LedgerCalm s₀ s) : LedgerCalm s₀ (raiseVec v s) := .ite h (.ite (h.update rfl) (send_calm h))

theorem flushVecs_calm (h : LedgerCalm s₀ s) : LedgerCalm s₀ (flushVecs s) :=
  .foldl (fun _ _ h => .ite (send_calm (h.update rfl)) h) h

theorem logEvent_calm {e : Event} (h : LedgerCalm s₀ s) : LedgerCalm s₀ (logEvent e s) := h.update rfl

theorem pushEvent_calm {e : Event} (h : LedgerCalm s₀ s) : LedgerCalm s₀ (pushEvent e s) := h.update rfl

theorem enqueue_calm {e : Event} (h : LedgerCalm s₀ s) : LedgerCalm s₀ (enqueue e s) := .when raiseVec_calm (pushEvent_calm h)

theorem noteEvent_calm {e : Event} (h : LedgerCalm s₀ s) : LedgerCalm s₀ (noteEvent e s) := .when logEvent_calm (h.update rfl)

theorem postEvent_calm {e : Event} (h : LedgerCalm s₀ s) : LedgerCalm s₀ (postEvent e s) := .ite (h.update rfl) (.ite (h.update rfl) (enqueue_calm h))

theorem raise_calm {typ sev source detail : Nat} (h : LedgerCalm s₀ s) : LedgerCalm s₀ (raise typ sev source detail s) :=
  postEvent_calm (noteEvent_calm h)

theorem raiseOpen_calm {typ source detail : Nat} (h : LedgerCalm s₀ s) : LedgerCalm s₀ (raiseOpen typ source detail s) :=
  raise_calm h

theorem enterError_calm {bits code detail : Nat} (h : LedgerCalm s₀ s) : LedgerCalm s₀ (enterError bits code detail s) :=
  (h.update rfl)

theorem setPort_calm {p : Nat} {x : PortSt} (h : LedgerCalm s₀ s) : LedgerCalm s₀ (setPort p x s) := h.update rfl

theorem countPort_calm {lane n p : Nat} (h : LedgerCalm s₀ s) : LedgerCalm s₀ (countPort lane n p s) :=
  countRun_calm (countRun_calm h)

theorem lane0_calm {ports : List Nat} {dst : Option Nat} {m : TpMsg} (h : LedgerCalm s₀ s) : LedgerCalm s₀ (lane0 ports dst m s) :=
  send_calm ((.update (.foldl (fun _ _ => countPort_calm) h) rfl))

theorem toCardId_calm {c : Nat} {m : TpMsg} (h : LedgerCalm s₀ s) : LedgerCalm s₀ (toCardId c m s) := lane0_calm h

theorem toCard_calm {l : Nat} {m : TpMsg} (h : LedgerCalm s₀ s) : LedgerCalm s₀ (toCard l m s) := by
  unfold toCard
  split
  exacts [h, toCardId_calm h]

theorem toCards_calm {ls : List Nat} {m : TpMsg} (h : LedgerCalm s₀ s) : LedgerCalm s₀ (toCards ls m s) :=
  .foldl (fun _ _ => toCard_calm) h

theorem flood_calm {m : TpMsg} (h : LedgerCalm s₀ s) : LedgerCalm s₀ (flood m s) := lane0_calm h

theorem noteSeen_calm {src msgid : Nat} (h : LedgerCalm s₀ s) : LedgerCalm s₀ (noteSeen src msgid s) := h.update rfl

theorem hear_calm {hd : TpHdr} {kind : Nat} {f : State → State} (hf : ∀ s, LedgerCalm s₀ s → LedgerCalm s₀ (f s))
    (h : LedgerCalm s₀ s) :
    LedgerCalm s₀ (hear hd kind f s) :=
  .ite (hf _ (noteSeen_calm h)) h

theorem toTwin_calm {m : TwMsg} (h : LedgerCalm s₀ s) : LedgerCalm s₀ (toTwin m s) :=
  send_calm (.ite (.foldl (fun _ _ => countPort_calm) h) (.ite (.foldl (fun _ _ => countPort_calm) h)
    (.foldl (fun _ _ => countPort_calm) h)))

theorem askCard_calm {c what : Nat} {m : UsdoMsg} (h : LedgerCalm s₀ s) : LedgerCalm s₀ (askCard c what m s) :=
  toCardId_calm (.ite h (h.update rfl))

theorem reportAbort_calm {cause layer : Nat} (h : LedgerCalm s₀ s) : LedgerCalm s₀ (reportAbort cause layer s) := by
  unfold reportAbort
  split
  exacts [toCard_calm h, toCard_calm h, toCard_calm h, h]

theorem reportLost_calm (h : LedgerCalm s₀ s) : LedgerCalm s₀ (reportLost s) := toCard_calm (h.noJob rfl rfl)

theorem hostWrite_calm {kind addr ref : Nat} {data : Bytes} {vec : Option Nat} (h : LedgerCalm s₀ s) :
    LedgerCalm s₀ (hostWrite kind addr ref data vec s) :=
  .ite h (h.update rfl)

theorem commitFlag_calm (h : LedgerCalm s₀ s) : LedgerCalm s₀ (commitFlag s) := .ite h (hostWrite_calm h)

theorem ringRelease_calm (h : LedgerCalm s₀ s) : LedgerCalm s₀ (ringRelease s) :=
  .ite (raiseVec_calm (h.update rfl)) (hostWrite_calm (h.update rfl))

theorem setUnit_calm {p : Nat} {u : UnitSt} (h : LedgerCalm s₀ s) : LedgerCalm s₀ (setUnit p u s) := h.update rfl

theorem modUnit_calm {p : Nat} {f : UnitSt → UnitSt} (h : LedgerCalm s₀ s) : LedgerCalm s₀ (modUnit p f s) := setUnit_calm h

theorem unitFaultAt_calm {p cause : Nat} (h : LedgerCalm s₀ s) : LedgerCalm s₀ (unitFaultAt p cause s) :=
  reportAbort_calm (.unless (fun h => (.update h rfl)) (.unless (.update · rfl) (modUnit_calm h)))

/-! ### Device memory: reads, writes and what they count -/

theorem setBarge_calm {b : Nat} {e : BargeEnt} (h : LedgerCalm s₀ s) : LedgerCalm s₀ (setBarge b e s) := h.update rfl

theorem modBarge_calm {b : Nat} {f : BargeEnt → BargeEnt} (h : LedgerCalm s₀ s) : LedgerCalm s₀ (modBarge b f s) :=
  setBarge_calm h

theorem recordDamage_calm {addr : Nat} {resv : Bool} {cause : Nat} {pond : Bool} (h : LedgerCalm s₀ s) :
    LedgerCalm s₀ (recordDamage addr resv cause pond s) :=
  raiseOpen_calm (countBoot_calm (h.update rfl))

theorem writeMap_calm (h : LedgerCalm s₀ s) : LedgerCalm s₀ (writeMap s) := .ite (raise_calm (send_calm (h.update rfl))) h

theorem addRepair_calm {r : Repair} (h : LedgerCalm s₀ s) : LedgerCalm s₀ (addRepair r s) := .unless writeMap_calm (h.update rfl)

theorem retireFrame_calm {resv : Bool} {frame : Nat} (h : LedgerCalm s₀ s) : LedgerCalm s₀ (retireFrame resv frame s) :=
  .ite h (addRepair_calm (h.update rfl))

theorem corrected_calm {resv : Bool} {frame key : Nat} (h : LedgerCalm s₀ s) : LedgerCalm s₀ (corrected resv frame key s) :=
  .when retireFrame_calm ((.update (.unless countBoot_calm (countBoot_calm h)) rfl))

theorem uncorrectable_calm {resv : Bool} {frame key : Nat} (h : LedgerCalm s₀ s) : LedgerCalm s₀ (uncorrectable resv frame key s) :=
  retireFrame_calm (h.update rfl)

theorem applyEcc_calm {ecc : Ecc} (h : LedgerCalm s₀ s) : LedgerCalm s₀ (applyEcc ecc s) := by
  unfold applyEcc
  dsimp only
  split
  exacts [h, corrected_calm h, uncorrectable_calm h]

theorem failRequest_calm {a cause : Nat} (h : LedgerCalm s₀ s) : LedgerCalm s₀ (failRequest a cause s) :=
  recordDamage_calm (countRun_calm h)

theorem readDev_calm {addr n : Nat} {ecc : Ecc} (h : LedgerCalm s₀ s) : LedgerCalm s₀ (readDev addr n ecc s).state := by
  unfold readDev
  dsimp only
  split
  · exact .notBacked (countRun_calm h)
  split
  · exact .failed (failRequest_calm h)
  split
  · exact .failed (failRequest_calm (applyEcc_calm h))
  · exact .ok (.unless countRun_calm (applyEcc_calm h))

/-- `readDev` as a function of which only its rule is known, to stand in its place where a recursion matches on the call. -/
theorem readDev_calmSealed (s₀ : State) : ∃ f, readDev = f ∧
    ∀ {addr n ecc s}, LedgerCalm s₀ s → LedgerCalm s₀ (f addr n ecc s).state := ⟨_, rfl, readDev_calm⟩

theorem readRanges_calm {rs : List (Nat × Nat)} {ecc : Ecc} (h : LedgerCalm s₀ s) : LedgerCalm s₀ (readRanges rs ecc s).1 := by
  generalize hf : readRanges = f
  delta readRanges readRanges._f at hf
  obtain ⟨rd, e, hr⟩ := readDev_calmSealed s₀
  rw [e] at hf
  subst hf
  induction rs generalizing s ecc with
  | nil => exact h
  | cons r rs ih =>
    dsimp only
    split
    · next e =>
      have h := (hr h).out e
      split
      · next e => exact (ih h).fst e
      · next e => exact (ih h).fst e
    · next e => exact (hr h).out e
    · next e => exact (hr h).out e

theorem fetchRanges_calm {rs : List (Nat × Nat)} (h : LedgerCalm s₀ s) : LedgerCalm s₀ (fetchRanges rs s).1 := by
  unfold fetchRanges
  split
  · next e => exact .pair ((readRanges_calm h).fst e)
  · next e => exact .pair ((readRanges_calm h).fst e)

theorem failPond_calm {cause : Nat} (h : LedgerCalm s₀ s) : LedgerCalm s₀ (failPond cause s) :=
  recordDamage_calm (countRun_calm h)

theorem pondWrite_calm {off n : Nat} {put : State → State} (hf : ∀ s, LedgerCalm s₀ s → LedgerCalm s₀ (put s)) (h : LedgerCalm s₀ s) :
    LedgerCalm s₀ (pondWrite off n put s) :=
  .ite (failPond_calm h) (.ite (hf _ h) (.ite (hf _ (h.update rfl)) (failPond_calm h)))

theorem setSnap_calm {k : Nat} {x : Snap} (h : LedgerCalm s₀ s) : LedgerCalm s₀ (setSnap k x s) := h.update rfl

theorem dropSnapCopies_calm {k : Nat} (h : LedgerCalm s₀ s) : LedgerCalm s₀ (dropSnapCopies k s) := h.update rfl

theorem breakSnap_calm {k : Nat} (h : LedgerCalm s₀ s) : LedgerCalm s₀ (breakSnap k s) :=
  raiseOpen_calm (countBoot_calm (.when (.update · rfl) (dropSnapCopies_calm (setSnap_calm h))))

theorem makeRoom_calm {n : Nat} (h : LedgerCalm s₀ s) : LedgerCalm s₀ (makeRoom n s) := by
  fun_induction makeRoom n s with
  | case1 => exact h
  | case2 => exact h
  | case3 _ _ _ _ _ ih => exact ih (breakSnap_calm h)
  | case4 => exact h

theorem placeCopy_calm {page slot : Nat} {ks : List Nat} (h : LedgerCalm s₀ s) : LedgerCalm s₀ (placeCopy page slot ks s) := by
  unfold placeCopy
  dsimp only
  have hw : LedgerCalm s₀ (pondWrite (pondCow s slot 0) 65536 id s) := pondWrite_calm (fun _ h => h) h
  split
  exacts [(hw.update rfl), ((recordDamage_calm hw).update rfl)]

theorem cowPage_calm {page : Nat} (h : LedgerCalm s₀ s) : LedgerCalm s₀ (cowPage s page) :=
  .ite h (.ite h (.unless (fun h => placeCopy_calm (countRun_calm h)) (makeRoom_calm h)))

theorem snapPart_calm {k addr n : Nat} {ecc : Ecc} (h : LedgerCalm s₀ s) : LedgerCalm s₀ (snapPart k addr n ecc s).state := by
  unfold snapPart
  dsimp only
  split
  · split
    exacts [.failed (failPond_calm h), .iteOut (.failed (failPond_calm h)) (.ok h)]
  · exact readDev_calm h

theorem snapParts_calm {k fuel addr n : Nat} {ecc : Ecc} (h : LedgerCalm s₀ s) :
    LedgerCalm s₀ (snapParts k fuel addr n ecc s).state := by
  induction fuel generalizing addr n ecc s with
  | zero => exact snapPart_calm h
  | succ fuel ih =>
    unfold snapParts
    dsimp only
    split
    · next e =>
      have h := (snapPart_calm h).out e
      split
      · exact .ok h
      split
      · next e => exact .ok ((ih h).out e)
      · exact ih h
    · exact snapPart_calm h

theorem snapRead_calm {k addr n : Nat} {ecc : Ecc} (h : LedgerCalm s₀ s) : LedgerCalm s₀ (snapRead k addr n ecc s).state := by
  unfold snapRead
  dsimp only
  refine .iteOut (.failed h) (.iteOut (.failed h) ?_)
  split
  · next e =>
    have h := (snapParts_calm h).out e
    exact .ok (.ite (setSnap_calm h) h)
  · exact snapParts_calm h

theorem zeroFill_calm {b : Nat} (h : LedgerCalm s₀ s) : LedgerCalm s₀ (zeroFill s b) := by
  unfold zeroFill
  exact .ite (setBarge_calm h.withMem) h

theorem moveBytes_calm {src dst n : Nat} (h : LedgerCalm s₀ s) : LedgerCalm s₀ (moveBytes src dst n s) := h.update rfl

theorem copyChunks_calm {src dst n k : Nat} (h : LedgerCalm s₀ s) : LedgerCalm s₀ (copyChunks src dst n k s).2 := by
  fun_induction copyChunks src dst n k s with
  | case1 => exact h
  | case2 => exact h
  | case3 _ _ _ _ ih => exact ih (countRun_calm (moveBytes_calm h))

theorem copyTo_calm {b k : Nat} (h : LedgerCalm s₀ s) : LedgerCalm s₀ (copyTo b k s) := by
  unfold copyTo
  dsimp only
  split
  exacts [h, ((copyChunks_calm h).update rfl)]

theorem meetCopy_calm {addr n b : Nat} (h : LedgerCalm s₀ s) : LedgerCalm s₀ (meetCopy addr n b s) := by
  unfold meetCopy
  dsimp only
  split
  exacts [h, copyTo_calm (h.update rfl)]

theorem touchDirty_calm {addr n : Nat} {b : Nat} (h : LedgerCalm s₀ s) : LedgerCalm s₀ (touchDirty addr n s b) := by
  unfold touchDirty
  exact .ite (setBarge_calm h) h

theorem storeByte_calm {addr : Nat} {b : Byte} (h : LedgerCalm s₀ s) : LedgerCalm s₀ (storeByte s addr b) := h.update rfl

theorem storeBytes_calm {a : Nat} {bs : Bytes} (h : LedgerCalm s₀ s) : LedgerCalm s₀ (storeBytes a bs s) := by
  fun_induction storeBytes a bs s with
  | case1 => exact h
  | case2 _ _ _ _ ih => exact ih (storeByte_calm h)

theorem setArea_calm {area st : Nat} (h : LedgerCalm s₀ s) : LedgerCalm s₀ (setArea area st s) := by
  refine h.update ?_
  unfold setArea
  split <;> rfl

theorem storePart_calm {addr : Nat} {bs : Bytes} (h : LedgerCalm s₀ s) : LedgerCalm s₀ (storePart addr bs s) := by
  unfold storePart
  extract_lets n s₁ s₂ s₃
  have h₃ : LedgerCalm s₀ s₃ := .foldl (fun _ _ => meetCopy_calm) (.foldl (fun _ _ => zeroFill_calm) (.foldl (fun _ _ => cowPage_calm) h))
  exact .foldl (fun _ _ => touchDirty_calm) (storeBytes_calm h₃.withMem)

theorem writeFrames_calm {addr : Nat} {bs : Bytes} (h : LedgerCalm s₀ s) : LedgerCalm s₀ (writeFrames addr bs s).state := by
  unfold writeFrames
  dsimp only
  split
  · exact .failed (failRequest_calm h)
  · split
    exacts [.failed (failRequest_calm h), .ok (storePart_calm h)]

theorem writePart_calm {addr : Nat} {bs : Bytes} (h : LedgerCalm s₀ s) : LedgerCalm s₀ (writePart addr bs s).state := by
  unfold writePart
  refine .iteOut (.ok h) (.iteOut (.notBacked (countRun_calm h)) ?_)
  split
  · refine .iteOut (.ok (raiseOpen_calm (countBoot_calm h))) ?_
    split
    · next e => exact .ok (setArea_calm ((writeFrames_calm h).out e))
    · exact writeFrames_calm h
  · exact writeFrames_calm h

theorem writeCuts_calm {cs : List Nat} {a : Nat} {bs : Bytes}
    (h : LedgerCalm s₀ s) : LedgerCalm s₀ (writeCuts cs a bs s).state := by
  fun_induction writeCuts cs a bs s with
  | case1 => exact writePart_calm h
  | case2 _ _ _ _ _ _ _ _ e ih => exact ih ((writePart_calm h).out e)
  | case3 => exact writePart_calm h
  | case4 _ _ _ _ _ _ ih => exact ih h

theorem writeDev_calm {addr : Nat} {bs : Bytes} (h : LedgerCalm s₀ s) : LedgerCalm s₀ (writeDev addr bs s).state :=
  writeCuts_calm h

theorem writeDev_calmSealed (s₀ : State) : ∃ f, writeDev = f ∧
    ∀ {addr bs s}, LedgerCalm s₀ s → LedgerCalm s₀ (f addr bs s).state := ⟨_, rfl, writeDev_calm⟩

theorem pokeDev_calm {addr : Nat} {bs : Bytes} (h : LedgerCalm s₀ s) : LedgerCalm s₀ (pokeDev addr bs s) := writeDev_calm h

/-! ### The tally of flags -/

theorem chargeTally_calm {tag : Nat} {t : Tally} (h : LedgerCalm s₀ s) : LedgerCalm s₀ (chargeTally tag t s) := h.update rfl

/-! ### The end of a bundle -/

theorem finishBundle_calm {p : Nat} (h : LedgerCalm s₀ s) : LedgerCalm s₀ (finishBundle p s) := countRun_calm (modUnit_calm h)

theorem onRec_calm {rix : BitVec 11} {isel : Fin 8} {f : List Nat → SlotFn} {p : Nat}
    (hf : ∀ w p s, LedgerCalm s₀ s → OpRes.Calm s₀ (f w p s)) (h : LedgerCalm s₀ s) :
    OpRes.Calm s₀ (onRec rix isel f p s) := by
  unfold onRec
  split
  exacts [.fault, hf _ _ _ h]

theorem onUnit_calm {f : UnitSt → UnitSt} {p : Nat} (h : LedgerCalm s₀ s) : OpRes.Calm s₀ (onUnit f p s) :=
  .ok (modUnit_calm h)

/-! ### Arrays and batchers -/

theorem doAld_calm {w : List Nat} {p : Nat} (h : LedgerCalm s₀ s) : OpRes.Calm s₀ (doAld w p s) := by
  unfold doAld
  dsimp only
  split
  · exact .fault
  split
  · exact .wait
  split
  · exact .wait
  split
  · split
    · exact .fault
    · split
      exacts [.ok (setUnit_calm h), .wait, .fault]
  · exact .ok (setUnit_calm h)
  · exact .fault

theorem doAbc_calm {w : List Nat} {p : Nat} (h : LedgerCalm s₀ s) : OpRes.Calm s₀ (doAbc w p s) := by
  unfold doAbc
  dsimp only
  split
  · exact .fault
  split
  · exact .fault
  split
  · exact .wait
  split
  · exact .wait
  · split
    exacts [.wait, .ok (countRun_calm (setUnit_calm h))]

theorem closeBuf_calm {p : Nat} {stat : Nat} (h : LedgerCalm s₀ s) : LedgerCalm s₀ (closeBuf p stat s) :=
  countRun_calm (setUnit_calm h)

theorem batchPush_calm {p : Nat} {row : Bytes} {tag : BitVec 32} (h : LedgerCalm s₀ s) : LedgerCalm s₀ (batchPush p row tag s) :=
  .ite h (.when closeBuf_calm (setUnit_calm h))

theorem setCore_calm {p k : Nat} {c : CoreSt} (h : LedgerCalm s₀ s) : LedgerCalm s₀ (setCore p k c s) := modUnit_calm h

theorem drainOut_calm {p k fuel : Nat} (h : LedgerCalm s₀ s) : LedgerCalm s₀ (drainOut p k fuel s) := by
  fun_induction drainOut p k fuel s with
  | case1 => exact h
  | case2 => exact h
  | case3 => exact h
  | case4 _ _ _ _ _ _ _ _ _ ih => exact ih (batchPush_calm (setCore_calm h))

theorem drainAll_calm {p : Nat} (h : LedgerCalm s₀ s) : LedgerCalm s₀ (drainAll p s) := .foldl (fun _ _ => drainOut_calm) h

theorem countIssue_calm {p mask cycles : Nat} (h : LedgerCalm s₀ s) : LedgerCalm s₀ (countIssue p mask cycles s) := h.update rfl

theorem doAps_calm {w : List Nat} {p : Nat} (h : LedgerCalm s₀ s) : OpRes.Calm s₀ (doAps w p s) := by
  unfold doAps
  extract_lets +onlyGivenNames u c mask n af wf epman
  refine .ite .fault (.ite .wait ?_)
  extract_lets +onlyGivenNames ops
  refine .ite .fault ?_
  extract_lets +onlyGivenNames ops'
  split
  · exact .wait
  · exact .fault
  extract_lets +onlyGivenNames freed s₁ s₂ s₃
  have h₁ : LedgerCalm s₀ s₁ := by
    clear_value freed
    unfold s₁
    cases freed with
    | none => exact setUnit_calm h
    | some b => exact drainAll_calm (setUnit_calm h)
  have h₃ : LedgerCalm s₀ s₃ := countRun_calm (countRun_calm (countRun_calm (countIssue_calm h₁)))
  exact .ok (.when countRun_calm h₃)

theorem convBlock_calm {f tag : Nat} {held : Bool} {xs : List ConvIn} (h : LedgerCalm s₀ s) :
    LedgerCalm s₀ (convBlock f tag held xs s).1 := by
  generalize hp : convBlock f tag held xs s = p
  conv at hp => lhs; delta convBlock
  obtain ⟨rd, e, hr⟩ := readDev_calmSealed s₀
  rw [e] at hp
  extract_lets vals idx at hp
  split at hp
  · split at hp
    · exact hp ▸ h
    extract_lets a at hp
    split at hp
    · next e =>
      have h := (hr h).out e
      exact hp ▸ .ite (pokeDev_calm h) h
    · exact hp ▸ reportAbort_calm (hr h)
  · exact hp ▸ h

theorem convElems_calm {f tag : Nat} {sat held : Bool} {xs : List ConvIn} (h : LedgerCalm s₀ s) :
    LedgerCalm s₀ (convElems f tag sat held xs s).1 :=
  .iteFst (.foldlFst (fun _ _ h => .pair (convBlock_calm h)) (.pair h)) (.pair h)

theorem drainRow_calm {u : UnitSt} {a row i : Nat} {f : Nat} {stoch sat held port : Bool} {e : Int} {tag b st : Nat}
    (h : LedgerCalm s₀ s) :
    LedgerCalm s₀ (drainRow u a row i f stoch sat held port e tag b st s).1 :=
  .iteFst (.pair h) (.pair (convElems_calm h))

theorem drainRows_calm {u : UnitSt} {a base n f : Nat} {stoch sat held port : Bool} {e : Int} {tag b st : Nat}
    (h : LedgerCalm s₀ s) :
    LedgerCalm s₀ (drainRows u a base n f stoch sat held port e tag b st s).1 :=
  .foldlFst (fun _ _ h => .pair (drainRow_calm h)) (.pair h)

theorem doAdr_calm {w : List Nat} {p : Nat} (h : LedgerCalm s₀ s) : OpRes.Calm s₀ (doAdr w p s) := by
  unfold doAdr
  dsimp only
  split
  · exact .fault
  split
  · exact .wait
  · split
    exacts [.wait, .fault, .ok (chargeTally_calm (setUnit_calm (drainRows_calm h)))]

theorem doAfl_calm {w : List Nat} {p : Nat} (h : LedgerCalm s₀ s) : OpRes.Calm s₀ (doAfl w p s) := by
  unfold doAfl
  dsimp only
  split
  · exact .fault
  split
  · exact .wait
  split
  · split
    exacts [.wait, .fault, .ok (setUnit_calm h)]
  · exact .fault

theorem execBatchRowArrival_calm {unit : Fin 64} {row : Bytes} {tag : BitVec 32} (h : LedgerCalm s₀ s) :
    LedgerAnswers s₀ (execBatchRowArrival unit row tag s) := by
  unfold execBatchRowArrival
  refine .next ?_
  split
  exacts [batchPush_calm h, h]

theorem execBatchWaitExpiry_calm {unit : Fin 64} (h : LedgerCalm s₀ s) : LedgerAnswers s₀ (execBatchWaitExpiry unit s) := by
  unfold execBatchWaitExpiry
  dsimp only
  refine .next ?_
  split
  exacts [.ite h (closeBuf_calm h), h]

/-! ### Scalar cores -/

theorem rvStore_calm {p k : Nat} {c : CoreSt} {a n v : Nat} (h : LedgerCalm s₀ s) : Rv.Calm s₀ (rvStore p k s c a n v) := by
  unfold rvStore
  dsimp only
  split
  · exact .done h
  split
  · split
    · exact .trap
    split
    · exact .trap
    · split
      exacts [.trap, .done (setUnit_calm h)]
  · exact .trap

theorem postOut_calm {p k : Nat} {v : W64} {c : CoreSt} (h : LedgerCalm s₀ s) :
    Holds (fun x => LedgerCalm s₀ x.1) (postOut p k v s c) := by
  unfold postOut
  dsimp only
  split
  exacts [.none, .some (.pair (drainOut_calm (setCore_calm h)))]

theorem chmark_calm {p : Nat} {v : W64} (h : LedgerCalm s₀ s) : Holds (LedgerCalm s₀) (chmark p v s) := by
  unfold chmark
  dsimp only
  split
  · exact .none
  generalize (if v.toNat.testBit 8 then _ else _ : Option UnitSt) = o
  cases o with
  | none => exact .none
  | some u => exact .some (setUnit_calm h)

theorem csrWrite_calm {p k : Nat} {c : CoreSt} {n v : Nat} (h : LedgerCalm s₀ s) : Rv.Calm s₀ (csrWrite p k s c n v) := by
  unfold csrWrite
  split
  · exact .done h
  · exact .done h
  · exact .done h
  · exact .done h
  · exact .done h
  · split
    · next e => exact .done ((postOut_calm h).of_some e)
    · exact .wait
  · split
    · next e => exact .done ((chmark_calm h).of_some e)
    · exact .unitFault
  · exact .done h
  · exact .done h
  split
  · exact .done h
  · split
    exacts [.done h, .trap]

theorem rvCsr_calm {p k : Nat} {c : CoreSt} {w pc' : Nat} (h : LedgerCalm s₀ s) : Rv.Calm s₀ (rvCsr p k s c w pc') := by
  unfold rvCsr
  dsimp only
  split
  · split
    · next e => exact .done ((csrWrite_calm h).of_done e)
    · exact csrWrite_calm h
  split
  · exact .trap
  · exact .wait
  split
  · exact .done h
  split
  · next e => exact .done ((csrWrite_calm h).of_done e)
  · exact csrWrite_calm h

theorem rvAmo_calm {p k : Nat} {c : CoreSt} {w pc' : Nat} (h : LedgerCalm s₀ s) : Rv.Calm s₀ (rvAmo p k s c w pc') := by
  unfold rvAmo
  extract_lets
  have load {s₁ c₁} {a b d : Prop} [Decidable a] [Decidable b] [Decidable d] (h : LedgerCalm s₀ s₁) :
      Rv.Calm s₀ (if a then .trap 2 else if b then .trap 4 else if d then .trap 5 else .done s₁ c₁) :=
    .ite .trap (.ite .trap (.ite .trap (.done h)))
  refine .ite .trap (.ite (load h) (.ite (.ite .trap (.ite .trap (.ite ?_ (.done h)))) ?_))
  · split
    · next e => exact .done ((rvStore_calm h).of_done e)
    · exact rvStore_calm h
  split
  · exact .trap
  refine .ite .trap (.ite .trap ?_)
  split
  · next e => exact .done ((rvStore_calm h).of_done e)
  · exact rvStore_calm h

theorem rvSystem_calm {p k : Nat} {c : CoreSt} {w pc' : Nat} (h : LedgerCalm s₀ s) : Rv.Calm s₀ (rvSystem p k s c w pc') :=
  .ite (.ite .trap (.ite .trap (.ite .wait (.ite (.done h) .trap)))) (.ite .trap (rvCsr_calm h))

theorem rvExec_calm {p k : Nat} {c : CoreSt} {w pc pc' : Nat} (h : LedgerCalm s₀ s) :
    Rv.Calm s₀ (rvExec p k s c w pc pc') := by
  unfold rvExec
  extract_lets _ rd _ _ _ _ next _ put putO fpO
  have hput (v : Nat) : Rv.Calm s₀ (put v) := .done h
  have hputO (v : Option Nat) : Rv.Calm s₀ (putO v) := by
    cases v with
    | none => exact .trap
    | some v => exact hput v
  have hfpO (v : Option CoreSt) : Rv.Calm s₀ (fpO v) := by
    cases v with
    | none => exact .trap
    | some v => exact .done h
  split
  · exact hput _
  · exact hput _
  · exact .done h
  · exact .ite .trap (.done h)
  · split
    exacts [.trap, .done h]
  · refine .ite .trap ?_
    split
    exacts [hput _, .wait, .trap]
  · refine .ite .trap ?_
    split
    · next e => exact .done ((rvStore_calm h).of_done e)
    · exact rvStore_calm h
  · exact .ite .trap (.ite .trap (hput _))
  · exact .ite .trap (.ite .trap (hputO _))
  · exact .ite (hput _) (.ite (hput _) .trap)
  · exact .ite (hputO _) (.ite (hputO _) .trap)
  · exact .ite (.done h) .trap
  · exact rvSystem_calm h
  · exact rvAmo_calm h
  · refine .ite .trap ?_
    split
    exacts [.done h, .wait, .trap]
  · refine .ite .trap ?_
    split
    · next e => exact .done ((rvStore_calm h).of_done e)
    · exact rvStore_calm h
  · exact hfpO _
  · exact hfpO _
  · exact hfpO _
  · exact hfpO _
  · exact hfpO _
  · exact .trap

theorem rvStep_calm {p k : Nat} {c : CoreSt} (h : LedgerCalm s₀ s) : Rv.Calm s₀ (rvStep p k s c) := by
  unfold rvStep
  dsimp only
  split
  · exact .trap
  split
  · split
    exacts [.trap, rvExec_calm h]
  · split
    exacts [rvExec_calm h, .trap]

theorem scalarTrap_calm {p k code : Nat} (h : LedgerCalm s₀ s) : LedgerCalm s₀ (scalarTrap p k code s) := unitFaultAt_calm (h.update rfl)

theorem execScalarInstruction_calm {unit : Fin 64} {core : Fin 4} (h : LedgerCalm s₀ s) :
    LedgerAnswers s₀ (execScalarInstruction unit core s) := by
  unfold execScalarInstruction
  refine .next ?_
  split
  · exact h
  split
  · next e => exact setCore_calm ((rvStep_calm h).of_done e)
  · exact h
  · exact scalarTrap_calm h
  · exact unitFaultAt_calm h

theorem execMbxoutWrite_calm {unit : Fin 64} {core : Fin 4} {v : W64} (h : LedgerCalm s₀ s) :
    LedgerAnswers s₀ (execMbxoutWrite unit core v s) := by
  unfold execMbxoutWrite
  refine .next ?_
  split
  · exact h
  split
  · next e => exact setCore_calm ((postOut_calm h).of_some e)
  · exact h

theorem execMbxinRead_calm {unit : Fin 64} {core : Fin 4} {rd : Fin 32} (h : LedgerCalm s₀ s) :
    LedgerAnswers s₀ (execMbxinRead unit core rd s) := by
  unfold execMbxinRead
  refine .next ?_
  split
  · exact h
  · split
    exacts [setCore_calm h, h]

theorem execChmarkWrite_calm {unit : Fin 64} {core : Fin 4} {v : W64} (h : LedgerCalm s₀ s) :
    LedgerAnswers s₀ (execChmarkWrite unit core v s) := by
  unfold execChmarkWrite
  refine .next ?_
  split
  · exact h
  split
  · next e => exact (chmark_calm h).of_some e
  · exact unitFaultAt_calm h

/-! ### Flits -/

theorem oweCredit_calm {p vl : Nat} {f : Nat → Nat} (h : LedgerCalm s₀ s) : LedgerCalm s₀ (oweCredit p vl f s) := setPort_calm h

theorem giveBack_calm {frm : Option Nat} {vl : Nat} (h : LedgerCalm s₀ s) : LedgerCalm s₀ (giveBack frm vl s) := by
  unfold giveBack
  split
  exacts [h, oweCredit_calm h]

theorem emitFlit_calm {p : Nat} {hd : Hdr} {payload : Bytes} {nak : Bool} (h : LedgerCalm s₀ s) :
    LedgerCalm s₀ (emitFlit p hd payload nak s) :=
  send_calm (.unless (fun h => countRun_calm (countRun_calm h)) (setPort_calm h))

theorem drainQueue_calm {p n : Nat} (h : LedgerCalm s₀ s) : LedgerCalm s₀ (drainQueue p n s) := by
  fun_induction drainQueue p n s with
  | case1 => exact h
  | case2 => exact h
  | case3 _ _ _ _ _ _ _ _ _ ih => exact ih (giveBack_calm (emitFlit_calm (setPort_calm h)))

theorem sendOn_calm {frm : Option Nat} {p : Nat} {hd : Hdr} {payload : Bytes} (h : LedgerCalm s₀ s) :
    LedgerCalm s₀ (sendOn frm p hd payload s) :=
  .ite (giveBack_calm h) (drainQueue_calm (setPort_calm h))

theorem sendFlit_calm {p : Nat} {hd : Hdr} {payload : Bytes} (h : LedgerCalm s₀ s) : LedgerCalm s₀ (sendFlit p hd payload s) :=
  sendOn_calm h

theorem freeQueue_calm {p : Nat} (h : LedgerCalm s₀ s) : LedgerCalm s₀ (freeQueue p s) :=
  .foldl (fun _ _ => giveBack_calm) (setPort_calm h)

theorem sendNull_calm {p : Nat} {nak : Bool} (h : LedgerCalm s₀ s) : LedgerCalm s₀ (sendNull p nak s) := emitFlit_calm h

theorem countRetry_calm {p : Nat} (h : LedgerCalm s₀ s) : LedgerCalm s₀ (countRetry p s) := countBoot_calm (countRun_calm h)

theorem resend_calm {p : Nat} (h : LedgerCalm s₀ s) : LedgerCalm s₀ (resend p s) := .foldl (fun _ _ => send_calm) h

theorem takeAck_calm {p : Nat} {x : Nat} (h : LedgerCalm s₀ s) : LedgerCalm s₀ (takeAck p x s) :=
  drainQueue_calm (.when (fun h => resend_calm (countRetry_calm h)) (setPort_calm h))

theorem recvFlit_calm {p : Nat} {f : Flit} (h : LedgerCalm s₀ s) : LedgerCalm s₀ (recvFlit p f s).1 :=
  have h₁ := sendNull_calm (setPort_calm h)
  have h₂ := takeAck_calm (setPort_calm h)
  .iteFst (.pair h) (.iteFst (.pair h₁) (.iteFst (.pair (takeAck_calm h)) (.iteFst (.pair (.ite h h₁))
    (.iteFst (.pair (countRetry_calm h₂)) (.pair h₂)))))

theorem freshTxn_calm (h : LedgerCalm s₀ s) : LedgerCalm s₀ (freshTxn s).2 := h.update rfl

theorem modRemote_calm {txn : Nat} {f : Remote → Remote} (h : LedgerCalm s₀ s) : LedgerCalm s₀ (modRemote txn f s) := h.update rfl

theorem dropRemotes_calm {txns : List Nat} (h : LedgerCalm s₀ s) : LedgerCalm s₀ (dropRemotes txns s) := h.update rfl

theorem sendRun_calm {port : Nat} {hd : Hdr} {addr : Nat} {bs : Bytes} {last : Bool} (h : LedgerCalm s₀ s) :
    LedgerCalm s₀ (sendRun port hd addr bs last s) :=
  .foldl (fun _ _ => sendFlit_calm) h

/-! ### Trees of a reduction -/

theorem setTree_calm {tree : Nat} {x : TreeRun} (h : LedgerCalm s₀ s) : LedgerCalm s₀ (setTree tree x s) := h.update rfl

theorem toChild_calm {tree child : Nat} {typ : Nat} {hd : Hdr} {payload : Bytes} (h : LedgerCalm s₀ s) :
    LedgerCalm s₀ (toChild tree child typ hd payload s) := by
  unfold toChild
  split
  · exact h
  · split
    exacts [h, sendFlit_calm h]

theorem treeControl_calm {tree child kind : Nat} {r : TreeRun} {landed : Nat} (h : LedgerCalm s₀ s) :
    LedgerCalm s₀ (treeControl tree child kind r landed s) :=
  toChild_calm h

theorem treeCheck_calm {tree : Nat} (h : LedgerCalm s₀ s) : LedgerCalm s₀ (treeCheck tree s) := by
  unfold treeCheck
  dsimp only
  split
  · exact h
  split
  · split
    · exact h.update rfl
    split
    · exact h
    · split
      exacts [h, sendFlit_calm h]
  · exact h

theorem dropBranch_calm {port tree card : Nat} (h : LedgerCalm s₀ s) : LedgerCalm s₀ (dropBranch port tree card s) :=
  setPort_calm h

theorem detachChild_calm {t : TreeRec} {child port at' : Nat} (h : LedgerCalm s₀ s) :
    LedgerCalm s₀ (detachChild t child port at' s) :=
  treeCheck_calm (treeControl_calm (countRun_calm (.unless (.update · rfl) (setTree_calm (dropBranch_calm h)))))

theorem treeForward_calm {t : TreeRec} {at' : Nat} {hd : Hdr} {payload : Bytes} (h : LedgerCalm s₀ s) :
    LedgerCalm s₀ (treeForward t at' hd payload s) := by
  unfold treeForward
  refine .foldl (fun s a h => ?_) h
  split
  · exact h
  · split
    exacts [h, .ite (detachChild_calm h) (toChild_calm h)]

theorem treeStart_calm {t : TreeRec} {r : TreeRun} (h : LedgerCalm s₀ s) : LedgerCalm s₀ (treeStart t r s) :=
  .foldl (fun _ _ h => .when treeControl_calm (treeControl_calm h)) (setTree_calm h)

/-! ### Streams and their bursts -/

theorem setCtx_calm {p k : Nat} {c : Ctx} (h : LedgerCalm s₀ s) : LedgerCalm s₀ (setCtx p k c s) := modUnit_calm h

theorem startCtx_calm {p k : Nat} {d : Nat} {num : Nat} (h : LedgerCalm s₀ s) : LedgerCalm s₀ (startCtx p k d num s) :=
  modUnit_calm h

theorem land_calm {p k : Nat} {bs : Bytes} {ended : Bool} (h : LedgerCalm s₀ s) :
    Holds (LedgerCalm s₀) (land p k bs ended s) := by
  unfold land
  dsimp only
  split
  · split
    exacts [.some (setUnit_calm h), .some (setUnit_calm h), .some (setUnit_calm h)]
  · exact .some (setUnit_calm h)
  · exact .some (setUnit_calm h)
  · exact .some (setUnit_calm h)
  · exact .some (setUnit_calm h)
  split
  · exact .some (setUnit_calm h)
  · split
    exacts [.none, .some (batchPush_calm (setUnit_calm h))]

theorem endBatch_calm {p k : Nat} (h : LedgerCalm s₀ s) : Holds (LedgerCalm s₀) (endBatch p k s) := by
  unfold endBatch
  dsimp only
  split
  · exact .some (.ite h (closeBuf_calm h))
  split
  · exact .none
  · exact .some (.when closeBuf_calm (batchPush_calm (setUnit_calm h)))

theorem endMark_calm {p k : Nat} {left : Bool} (h : LedgerCalm s₀ s) : Holds (LedgerCalm s₀) (endMark p k left s) := by
  unfold endMark
  dsimp only
  split
  · split
    · split
      · exact .some h
      · split
        exacts [.none, .some (setUnit_calm h)]
    · exact .some (setUnit_calm h)
    split
    · split
      exacts [.some (setUnit_calm h), .none]
    · exact .none
  · exact .some (setUnit_calm h)
  · exact .some (setUnit_calm h)
  · exact .some (setUnit_calm h)
  · split
    · exact .some h
    · split
      exacts [.none, .some (setUnit_calm h)]
  · exact endBatch_calm h
  · exact .some h

theorem waitEnd_calm {p k : Nat} (h : LedgerCalm s₀ s) : LedgerCalm s₀ (waitEnd p k s) := setUnit_calm h

theorem endStream_calm {p k : Nat} {left : Bool} (h : LedgerCalm s₀ s) : LedgerCalm s₀ (endStream p k left s) := by
  unfold endStream
  dsimp only
  split
  · exact waitEnd_calm h
  · next e => exact setCtx_calm ((endMark_calm h).of_some e)

theorem recordStreamFault_calm {unit ctx dnum stag cause addr : Nat} (h : LedgerCalm s₀ s) :
    LedgerCalm s₀ (recordStreamFault unit ctx dnum stag cause addr s) :=
  reportAbort_calm (raiseOpen_calm (countBoot_calm (h.update rfl)))

theorem streamFault_calm {p k cause addr : Nat} (h : LedgerCalm s₀ s) : LedgerCalm s₀ (streamFault p k cause addr s) := by
  unfold streamFault
  dsimp only
  refine recordStreamFault_calm ?_
  split
  exacts [dropRemotes_calm (setUnit_calm h), setUnit_calm h]

theorem readRuns_calm {ecc : Ecc} {rs : List (Nat × Nat)} (h : LedgerCalm s₀ s) : Runs.Calm s₀ (readRuns ecc rs s) := by
  generalize hf : readRuns = f
  delta readRuns readRuns._f at hf
  obtain ⟨rd, e, hr⟩ := readDev_calmSealed s₀
  rw [e] at hf
  subst hf
  induction rs generalizing s ecc with
  | nil => exact .ok h
  | cons r rs ih =>
    dsimp only
    split
    · next e => exact .bad ((hr h).out e)
    · next e => exact .bad ((hr h).out e)
    · next e =>
      have h := (hr h).out e
      split
      · next e => exact .ok ((ih h).of_ok e)
      · next e => exact .bad ((ih h).of_bad e)

theorem writeRuns_calm {rs : List (Nat × Nat)} {bs : Bytes} (h : LedgerCalm s₀ s) : Runs.Calm s₀ (writeRuns rs bs s) := by
  generalize hf : writeRuns = f
  delta writeRuns writeRuns._f at hf
  obtain ⟨wr, e, hw⟩ := writeDev_calmSealed s₀
  rw [e] at hf
  subst hf
  induction rs generalizing bs s with
  | nil => exact .ok h
  | cons r rs ih =>
    dsimp only
    split
    · next e => exact .bad ((hw h).out e)
    · next e => exact .bad ((hw h).out e)
    · next e => exact ih ((hw h).out e)

theorem cRowBytes_calm {d o : Nat} {ecc : Ecc} (h : LedgerCalm s₀ s) : Runs.Calm s₀ (cRowBytes d o ecc s) := by
  unfold cRowBytes
  dsimp only
  split
  · exact .ok h
  split
  · next e => exact .bad ((readRuns_calm h).of_bad e)
  rename_i e
  have h := (readRuns_calm h).of_ok e
  split
  · split
    · next e => exact .bad ((readRuns_calm h).of_bad e)
    · next e => exact .ok ((readRuns_calm h).of_ok e)
  · exact .ok h

theorem cRows_calm {d n r : Nat} {ecc : Ecc} (h : LedgerCalm s₀ s) : Runs.Calm s₀ (cRows d n r ecc s) := by
  fun_induction cRows d n r ecc s with
  | case1 => exact .ok h
  | case2 _ _ _ _ _ _ _ e => exact .bad ((cRowBytes_calm h).of_bad e)
  | case3 _ _ _ _ _ _ e _ _ _ e₂ ih => exact .bad ((ih ((cRowBytes_calm h).of_ok e)).of_bad e₂)
  | case4 _ _ _ _ _ _ e _ _ e₂ ih => exact .ok ((ih ((cRowBytes_calm h).of_ok e)).of_ok e₂)

theorem fetchBurst_calm {d : Nat} {f : Flight} {ecc : Ecc} (h : LedgerCalm s₀ s) : Runs.Calm s₀ (fetchBurst d f ecc s) := by
  unfold fetchBurst
  dsimp only
  split
  · exact .ok h
  split
  · split
    · next e => exact .bad ((cRows_calm h).of_bad e)
    · next e => exact .ok ((cRows_calm h).of_ok e)
  · exact readRuns_calm h

theorem countRemoteFail_calm (h : LedgerCalm s₀ s) : LedgerCalm s₀ (countRemoteFail s) := countBoot_calm h

theorem sendRead_calm {p k : Nat} {lane g n : Nat} {tree : Option Nat} (h : LedgerCalm s₀ s) :
    Holds (fun x => LedgerCalm s₀ x.1) (sendRead p k lane g n tree s) := by
  unfold sendRead
  dsimp only
  split
  · exact .none
  split
  · exact .none
  · split
    exacts [.none, .some (.pair (sendFlit_calm (((freshTxn_calm h).update rfl))))]

theorem sendReads_calm {p k lane : Nat} {rs : List (Nat × Nat)} {ts : List Nat} (h : LedgerCalm s₀ s) :
    Holds (fun x => LedgerCalm s₀ x.1) (sendReads p k lane rs s ts) := by
  fun_induction sendReads p k lane rs s ts with
  | case1 => exact .some (.pair h)
  | case2 => exact .none
  | case3 _ _ _ _ _ _ _ e ih => exact ih ((sendRead_calm h).of_some e)

theorem sendWrites_calm {p k lane : Nat} {rs : List (Nat × Nat)} {bs : Bytes} (h : LedgerCalm s₀ s) :
    Holds (fun x => LedgerCalm s₀ x.1) (sendWrites p k lane rs bs s) := by
  unfold sendWrites
  dsimp only
  split
  · exact .some (.pair h)
  split
  · exact .none
  split
  · exact .none
  split
  · exact .none
  · exact .some (.pair (.foldlFst (fun _ _ h => .pair (sendRun_calm h)) (.pair ((freshTxn_calm h).update rfl))))

theorem mcSend_calm {t : TreeRec} {d pos : Nat} {bs : Bytes} {last : Bool} {txn unit ctx : Nat} (h : LedgerCalm s₀ s) :
    LedgerCalm s₀ (mcSend t d pos bs last txn unit ctx s) :=
  setTree_calm (.foldl (fun _ _ => treeForward_calm) h)

theorem fly_calm {p k : Nat} {f : Flight} (h : LedgerCalm s₀ s) : LedgerCalm s₀ (fly p k f s) := modUnit_calm h

theorem issueRead_calm {p k n : Nat} {hole : Bool} {x : Nat} (h : LedgerCalm s₀ s) :
    LedgerCalm s₀ (issueRead p k n hole x s) := by
  unfold issueRead
  dsimp only
  split
  · split
    · exact streamFault_calm (countRemoteFail_calm h)
    · next e => exact fly_calm ((sendReads_calm h).of_some e)
  · exact fly_calm h

theorem issueTree_calm {p k : Nat} {bs : Bytes} {last : Bool} (h : LedgerCalm s₀ s) :
    LedgerCalm s₀ (issueTree p k bs last s) := by
  unfold issueTree
  extract_lets c d lu tx
  split
  · exact streamFault_calm (countRemoteFail_calm h)
  refine .ite (streamFault_calm (countRemoteFail_calm h)) (.ite (setCtx_calm h) ?_)
  extract_lets s₁ r f q _ s₂ s₃ _ s₄
  have h₁ : LedgerCalm s₀ s₁ := .ite (treeStart_calm (freshTxn_calm h)) h
  have h₂ : LedgerCalm s₀ s₂ := .ite (h₁.update rfl) h₁
  have h₄ : LedgerCalm s₀ s₄ := setCtx_calm (fly_calm (mcSend_calm h₂))
  exact .when treeCheck_calm h₄

theorem issueWrite_calm {p k : Nat} {bs : Bytes} {x : Index} (h : LedgerCalm s₀ s) : LedgerCalm s₀ (issueWrite p k bs x s) := by
  unfold issueWrite
  extract_lets
  split
  · exact issueTree_calm h
  · refine .ite (fly_calm h) ?_
    split
    · exact streamFault_calm (countRemoteFail_calm h)
    · next e => exact fly_calm ((sendWrites_calm h).of_some e)
  · exact fly_calm h

theorem endEarly_calm {p k : Nat} (h : LedgerCalm s₀ s) : LedgerCalm s₀ (endEarly p k s) :=
  .ite (issueTree_calm (setCtx_calm h)) (endStream_calm h)

theorem needIndex_calm {p k : Nat} (h : LedgerCalm s₀ s) : LedgerCalm s₀ (needIndex p k s).1 := by
  unfold needIndex
  dsimp only
  split
  · exact .pair h
  split
  · exact .pair h
  split
  · exact .pair (setCtx_calm h)
  · exact .pair (setUnit_calm h)
  · exact .pair (endEarly_calm (setUnit_calm h))
  · exact .pair (.when countRun_calm (setUnit_calm h))

theorem poolBurst_calm {p k n : Nat} {x : Index} (h : LedgerCalm s₀ s) : LedgerCalm s₀ (poolBurst p k n x s) := by
  unfold poolBurst
  extract_lets u c d ch n _ _ _ _ _ s₁ _
  have h₁ : LedgerCalm s₀ s₁ := by
    unfold s₁
    split
    exacts [h, setUnit_calm h]
  split
  · exact h₁
  · exact .ite (setCtx_calm h₁) (.ite (setCtx_calm h₁) (issueRead_calm h₁))

theorem burst_calm {p k : Nat} (h : LedgerCalm s₀ s) : LedgerCalm s₀ (burst p k s) := by
  unfold burst
  extract_lets +onlyGivenNames u c d
  refine .ite (endStream_calm h) (.ite (endEarly_calm h) ?_)
  extract_lets +onlyGivenNames r
  have hr : LedgerCalm s₀ r.1 := needIndex_calm h
  split
  · exact hr
  extract_lets +onlyGivenNames s₁ u c want hole xi
  have h₁ : LedgerCalm s₀ s₁ := hr
  refine .ite (.ite (poolBurst_calm h₁) ?_) (.ite (.ite (setCtx_calm h₁) ?_) (.ite (setCtx_calm h₁) ?_))
  · split
    · exact unitFaultAt_calm h₁
    · exact setCtx_calm h₁
    · exact .ite (setCtx_calm h₁) (issueRead_calm h₁)
  · extract_lets +onlyGivenNames f
    split
    · next e => exact streamFault_calm ((fetchBurst_calm h₁).of_bad e)
    · next e => exact issueWrite_calm ((fetchBurst_calm h₁).of_ok e)
  · split
    · exact setCtx_calm h₁
    · exact setUnit_calm h₁
    · exact endEarly_calm (setUnit_calm h₁)
    · exact
        have h₂ := setUnit_calm h₁
        .ite (setCtx_calm h₁) (.ite (issueWrite_calm (.when countRun_calm h₂)) (issueWrite_calm h₂))

theorem burstDone_calm {p k : Nat} {f : Flight} {left : Bool} (h : LedgerCalm s₀ s) : LedgerCalm s₀ (burstDone p k f left s) :=
  .when endStream_calm (countRun_calm (dropRemotes_calm (setUnit_calm h)))

theorem complete_calm {p k : Nat} {ecc : Ecc} (h : LedgerCalm s₀ s) : LedgerCalm s₀ (complete p k ecc s) := by
  unfold complete
  extract_lets +onlyGivenNames u c d
  split
  · exact h
  rename_i f _
  extract_lets +onlyGivenNames waits
  refine .ite h ?_
  extract_lets +onlyGivenNames last
  refine .ite ?_ (.ite (burstDone_calm h) ?_)
  · extract_lets +onlyGivenNames got
    have hg : Runs.Calm s₀ got := .ite (.ok h) (.ite (readRuns_calm h) (fetchBurst_calm h))
    have hf : Runs.Calm s₀ (if f.hole then .ok s (zeros f.len) else got) := .ite (.ok h) hg
    split
    · next e => exact streamFault_calm (hf.of_bad e)
    · next e =>
      have h := hf.of_ok e
      split
      · exact h
      · next e => exact burstDone_calm ((land_calm h).of_some e)
  · extract_lets +onlyGivenNames rs
    split
    · next e => exact streamFault_calm ((writeRuns_calm (applyEcc_calm h)).of_bad e)
    · next e => exact burstDone_calm ((writeRuns_calm (applyEcc_calm h)).of_ok e)

theorem lockBreak_calm {p k : Nat} (h : LedgerCalm s₀ s) : LedgerCalm s₀ (lockBreak p k s) :=
  .ite h (countRun_calm (countRun_calm (setUnit_calm h)))

theorem streamLate_calm {p k : Nat} (h : LedgerCalm s₀ s) : LedgerCalm s₀ (streamLate p k s) := by
  unfold streamLate
  dsimp only
  split
  exacts [h, .ite (streamFault_calm h) (countRun_calm (setCtx_calm h))]

theorem opSarm_calm {ctx desc : Nat} {p : Nat} (h : LedgerCalm s₀ s) : OpRes.Calm s₀ (opSarm ctx desc p s) := by
  unfold opSarm
  dsimp only
  split
  exacts [.ok (startCtx_calm h), .ok (startCtx_calm h), .wait]

theorem opSrearm_calm {ctx : Nat} {field : RearmField} {src : RearmSrc} {hold : Bool} {p : Nat} (h : LedgerCalm s₀ s) :
    OpRes.Calm s₀ (opSrearm ctx field src hold p s) :=
  .ite .wait (.ite (.ok (setCtx_calm h)) (.ok (startCtx_calm h)))

theorem opSstop_calm {ctx : Nat} {p : Nat} (h : LedgerCalm s₀ s) : OpRes.Calm s₀ (opSstop ctx p s) := by
  unfold opSstop
  dsimp only
  split
  exacts [.ok (setCtx_calm h), .ok (setCtx_calm h), .ok (setCtx_calm h), .ok h]

theorem opSwait_calm {ctx : Nat} {p : Nat} (h : LedgerCalm s₀ s) : OpRes.Calm s₀ (opSwait ctx p s) := by
  unfold opSwait
  split
  exacts [.ok h, .ok h, .wait]

theorem opCmark_calm {ch isel : Nat} {p : Nat} (h : LedgerCalm s₀ s) : OpRes.Calm s₀ (opCmark ch isel p s) := by
  unfold opCmark
  dsimp only
  split
  · exact .fault
  split
  · exact .fault
  · split
    exacts [.fault, .ok (setUnit_calm h)]

theorem opCrel_calm {ch isel : Nat} {p : Nat} (h : LedgerCalm s₀ s) : OpRes.Calm s₀ (opCrel ch isel p s) := by
  unfold opCrel
  dsimp only
  split
  · exact .fault
  split
  · exact .fault
  · split
    exacts [.fault, .ok (setUnit_calm h)]

theorem execStreamBurst_calm {unit : Fin 64} {ctx : Fin 512} (h : LedgerCalm s₀ s) :
    LedgerAnswers s₀ (execStreamBurst unit ctx s) := by
  unfold execStreamBurst
  dsimp only
  refine .next ?_
  split
  · exact h
  split
  · exact h
  · split
    exacts [burst_calm h, burst_calm h, burst_calm h, h]

theorem execMemoryRequestComplete_calm {unit : Fin 64} {ctx : Fin 512} {ecc : Ecc} (h : LedgerCalm s₀ s) :
    LedgerAnswers s₀ (execMemoryRequestComplete unit ctx ecc s) := by
  unfold execMemoryRequestComplete
  refine .next ?_
  split
  exacts [h, complete_calm h]

theorem execLockBreak_calm {unit : Fin 64} {pool : Fin 64} (h : LedgerCalm s₀ s) :
    LedgerAnswers s₀ (execLockBreak unit pool s) := by
  unfold execLockBreak
  refine .next ?_
  split
  exacts [h, lockBreak_calm h]

/-! ### Barges -/

theorem tookResv_calm {f : Nat} (h : LedgerCalm s₀ s) : LedgerCalm s₀ (tookResv f s) := h.update rfl

theorem startCopy_calm {b region : Nat} {took : Bool} (h : LedgerCalm s₀ s) : LedgerCalm s₀ (startCopy b region took s) :=
  (h.update rfl)

theorem ownerPromote_calm {b : Nat} {la : Bool} (h : LedgerCalm s₀ s) : Owner.Calm s₀ (ownerPromote b la s) := by
  generalize hf : ownerPromote = f
  delta ownerPromote at hf
  obtain ⟨free, e⟩ := exists_eq' (a' := freeBasin)
  rw [e] at hf
  subst hf
  beta_reduce
  extract_lets +onlyGivenNames e
  split
  · split
    · exact .done (countRun_calm h)
    extract_lets +onlyGivenNames s₁
    have h₁ : LedgerCalm s₀ s₁ := .ite (countRun_calm h) h
    exact .ite (.done (countRun_calm (setBarge_calm h₁))) (.ite .full (.done (startCopy_calm (setBarge_calm h₁))))
  · exact .done (countRun_calm (setBarge_calm h))
  · exact .done h

theorem ownerEvict_calm {b : Nat} (h : LedgerCalm s₀ s) : Owner.Calm s₀ (ownerEvict b s) := by
  conv => rhs; delta ownerEvict
  extract_lets e cancel
  have hc : Owner.Calm s₀ cancel := .done (countRun_calm h)
  split
  · exact hc
  · refine .ite hc (.ite (.done (countRun_calm (setBarge_calm h))) ?_)
    split
    · exact hc
    extract_lets s₁ _
    have h₁ : LedgerCalm s₀ s₁ := .ite h (tookResv_calm h)
    exact .ite (.done (countRun_calm (setBarge_calm h₁))) (.ite .full (.done (startCopy_calm (setBarge_calm h₁))))
  · exact .done h

theorem ownerTry_calm {r : MigReq} (h : LedgerCalm s₀ s) : Owner.Calm s₀ (ownerTry r s) :=
  .ite (ownerPromote_calm h) (ownerEvict_calm h)

theorem takeRequest_calm {r : MigReq} (h : LedgerCalm s₀ s) : LedgerCalm s₀ (takeRequest r s) := by
  unfold takeRequest
  dsimp only
  split
  · exact h.update rfl
  split
  · next e => exact (ownerTry_calm h).of_done e
  · exact h.update rfl

theorem request_calm {r : MigReq} (h : LedgerCalm s₀ s) : LedgerCalm s₀ (request r s) := .ite (h.update rfl) (takeRequest_calm h)

theorem takeRaised_calm {n : Nat} (h : LedgerCalm s₀ s) : LedgerCalm s₀ (takeRaised n s) := by
  fun_induction takeRaised n s with
  | case1 => exact h
  | case2 => exact h
  | case3 => exact h
  | case4 _ _ _ _ _ _ ih => exact ih (takeRequest_calm (h.update rfl))

theorem raisePromote_calm {b : Nat} {la : Bool} (h : LedgerCalm s₀ s) : LedgerCalm s₀ (raisePromote b la s) := request_calm h

theorem raiseEvict_calm {b : Nat} (h : LedgerCalm s₀ s) : LedgerCalm s₀ (raiseEvict b s) := request_calm h

theorem pumpEngine_calm {region n : Nat} (h : LedgerCalm s₀ s) : LedgerCalm s₀ (pumpEngine region n s) := by
  fun_induction pumpEngine region n s with
  | case1 => exact h
  | case2 => exact h
  | case3 => exact h
  | case4 _ _ _ _ _ e ih => exact ih (((ownerTry_calm h).of_done e).update rfl)

theorem pumpQueue_calm {region : Nat} (h : LedgerCalm s₀ s) : LedgerCalm s₀ (pumpQueue region s) :=
  takeRaised_calm (pumpEngine_calm h)

theorem endCopy_calm {b : Nat} (h : LedgerCalm s₀ s) : LedgerCalm s₀ (endCopy b s) := h.update rfl

theorem copyFails_calm {b : Nat} (h : LedgerCalm s₀ s) : LedgerCalm s₀ (copyFails b s) := by
  unfold copyFails
  split
  · exact h
  extract_lets e s₁
  have h₁ : LedgerCalm s₀ s₁ := countRun_calm (endCopy_calm h)
  exact pumpQueue_calm (.ite (setBarge_calm h₁) (.ite (setBarge_calm h₁) (setBarge_calm h₁)))

theorem copySwitch_calm {b : Nat} {c : MigCopy} (h : LedgerCalm s₀ s) : LedgerCalm s₀ (copySwitch b c s) :=
  have set {e : BargeEnt} {sub : Nat} : LedgerCalm s₀ (countRun 0x3010 sub 1 (setBarge b e (endCopy b s))) :=
    countRun_calm (setBarge_calm (endCopy_calm h))
  pumpQueue_calm (.ite set (.ite set set))

theorem copyDone_calm {b : Nat} (h : LedgerCalm s₀ s) : LedgerCalm s₀ (copyDone b s) := by
  unfold copyDone
  dsimp only
  split
  · exact h
  split
  · exact copyFails_calm (recordDamage_calm h)
  · split
    exacts [copyFails_calm (recordDamage_calm h), copySwitch_calm (copyTo_calm h)]

theorem registerUse_calm {b ends : Nat} (h : LedgerCalm s₀ s) : LedgerCalm s₀ (registerUse b ends s) := setBarge_calm (h.update rfl)

theorem endUse_calm {b : Nat} (h : LedgerCalm s₀ s) : LedgerCalm s₀ (endUse b s) := by
  unfold endUse
  exact .ite (raiseEvict_calm (countRun_calm (setBarge_calm h))) (setBarge_calm h)

theorem endUses_calm (h : LedgerCalm s₀ s) : LedgerCalm s₀ (endUses s) := .foldl (fun _ _ => endUse_calm) (h.update rfl)

theorem lookahead_calm {i : Nat} {e : SchedEnt} (h : LedgerCalm s₀ s) : LedgerCalm s₀ (lookahead i e s) := by
  conv => rhs; delta lookahead
  refine .ite (h.update rfl) ?_
  split
  · next e => exact (readDev_calm h).out e
  · next e => exact (readDev_calm h).out e
  · next e =>
    refine .foldl (fun _ _ h => .ite h ?_) ((readDev_calm h).out e)
    exact .foldl (fun _ _ h => raisePromote_calm (modBarge_calm (registerUse_calm h))) h

theorem issuePromote_calm {i : Nat} {e : SchedEnt} {step : Nat} (h : LedgerCalm s₀ s) : LedgerCalm s₀ (issuePromote i e step s) :=
  .foldl (fun _ _ h => raisePromote_calm (registerUse_calm h)) (h.update rfl)

theorem judgeLate_calm (h : LedgerCalm s₀ s) : LedgerCalm s₀ (judgeLate s) :=
  .foldl (fun _ _ h => .ite (countRun_calm (h.update rfl)) h) h

theorem beginSlot_calm {k : Nat} (h : LedgerCalm s₀ s) : LedgerCalm s₀ (beginSlot k s) :=
  .ite h (judgeLate_calm (.foldl (fun _ _ => issuePromote_calm) (.foldl (fun _ _ => lookahead_calm)
    (.foldl (fun _ _ => .foldl (fun _ _ => raiseEvict_calm)) (endUses_calm (h.update rfl))))))

theorem nextSlot_calm (h : LedgerCalm s₀ s) : LedgerCalm s₀ (nextSlot s) := beginSlot_calm h

theorem moveOff_calm {b : Nat} (h : LedgerCalm s₀ s) : LedgerCalm s₀ (moveOff b s) := by
  unfold moveOff
  extract_lets e s₁ e₁
  have h₁ : LedgerCalm s₀ s₁ := by
    refine .ite ?_ h
    split
    exacts [h, setBarge_calm (moveBytes_calm h)]
  refine .ite ?_ h₁
  split
  exacts [h₁, setBarge_calm (moveBytes_calm (tookResv_calm h₁))]

theorem moveOffAll_calm (h : LedgerCalm s₀ s) : LedgerCalm s₀ (moveOffAll s) := (.update (.foldl (fun _ _ => moveOff_calm) h) rfl)

/-! ### Domains -/

theorem wakePath_calm (h : LedgerCalm s₀ s) : LedgerCalm s₀ (wakePath s) := .ite (countBoot_calm (h.update rfl)) h

/-! ### The units' load -/

theorem loadUnits_calm {area : Nat} (h : LedgerCalm s₀ s) : LedgerCalm s₀ (loadUnits area s) := h.update rfl

theorem reloadUnits_calm (h : LedgerCalm s₀ s) : LedgerCalm s₀ (reloadUnits s) := by
  conv => rhs; delta reloadUnits
  obtain ⟨bad, e⟩ := exists_eq' (a' := @firstBad)
  rw [e]
  split
  · exact h
  extract_lets xs
  split
  exacts [loadUnits_calm h, (h.update rfl)]

theorem unitsOff_calm (h : LedgerCalm s₀ s) : LedgerCalm s₀ (unitsOff s) := h.update rfl

/-! ### What a commit applies -/

theorem followNode_calm {old new : Nat} (h : LedgerCalm s₀ s) : LedgerCalm s₀ (followNode old new s) := by
  unfold followNode
  dsimp only
  refine .foldl (fun s a h => ?_) h
  split
  exacts [h, .ite (putVal_calm h) h]

theorem endSessions_calm {r : Route} (h : LedgerCalm s₀ s) : LedgerCalm s₀ (endSessions r s) := h.update rfl

theorem topologyApplies_calm (h : LedgerCalm s₀ s) : LedgerCalm s₀ (topologyApplies s) := h.update rfl

theorem applyEntry_calm {e : EntryVal} (h : LedgerCalm s₀ s) : LedgerCalm s₀ (applyEntry e s) :=
  .ite (followNode_calm (putVal_calm h)) (.ite (topologyApplies_calm (putVal_calm h)) (.when (.update · rfl) (putVal_calm h)))

theorem applyEntries_calm {es : List EntryVal} (h : LedgerCalm s₀ s) : LedgerCalm s₀ (applyEntries es s) :=
  .foldl (fun _ _ => applyEntry_calm) h

theorem settleGens_calm {gens : List (BitVec 32)} (h : LedgerCalm s₀ s) : LedgerCalm s₀ (settleGens gens s) :=
  .foldl (fun _ _ h => .ite h (.ite (h.update rfl) h)) h

theorem applyParts_calm {due : Part → Bool} (h : LedgerCalm s₀ s) : LedgerCalm s₀ (applyParts due s) :=
  settleGens_calm (.foldl (fun _ _ => applyEntries_calm) (h.trans ⟨id, List.filter_sublist, id, .inl rfl⟩))

theorem applyCan_calm (h : LedgerCalm s₀ s) : LedgerCalm s₀ (applyCan s) :=
  .ite h (.when send_calm (endSessions_calm (applyParts_calm h)))

theorem applyIdleParts_calm (h : LedgerCalm s₀ s) : LedgerCalm s₀ (applyIdleParts s) := .ite (applyParts_calm h) h

theorem applyPlanParts_calm (h : LedgerCalm s₀ s) : LedgerCalm s₀ (applyPlanParts s) := applyParts_calm h

theorem setLatch_calm {idx sub v : Nat} (h : LedgerCalm s₀ s) : LedgerCalm s₀ (setLatch idx sub v s) := h.update rfl

theorem latchStats_calm (h : LedgerCalm s₀ s) : LedgerCalm s₀ (latchStats s) := h.update rfl

theorem dropStats_calm (h : LedgerCalm s₀ s) : LedgerCalm s₀ (dropStats s) := h.update rfl

theorem sendTpdo_calm {n : Nat} (h : LedgerCalm s₀ s) : LedgerCalm s₀ (sendTpdo n s) := .ite h (send_calm (h.update rfl))

theorem commitTpdos_calm (h : LedgerCalm s₀ s) : LedgerCalm s₀ (commitTpdos s) :=
  .foldl (fun _ _ h => .ite (sendTpdo_calm h) h) h

/-! ### Vector operations -/

theorem vecDone_calm {r : VRec} {dst : Option Operand} {x : Elems} {t : Tally} {cycles p : Nat} {u : UnitSt}
    (h : LedgerCalm s₀ s) :
    OpRes.Calm s₀ (vecDone r dst x t cycles p u s) := by
  unfold vecDone
  dsimp only
  split
  · exact .fault
  · split
    exacts [.wait, .fault, .ok (countRun_calm (chargeTally_calm (setUnit_calm h)))]

theorem vecElems_calm {ar mul : Nat} {packed : VRec → Bool} {inF outF : VRec → Nat}
    {f : VRec → State → UnitSt → Nat → List Nat → Nat × Tally} {w : List Nat} {p : Nat} (h : LedgerCalm s₀ s) :
    OpRes.Calm s₀ (vecElems ar mul packed inF outF f w p s) := by
  unfold vecElems
  dsimp only
  split
  · exact .fault
  split
  · exact .wait
  · split
    exacts [.wait, .fault, vecDone_calm h]

theorem vecFloat_calm {ar mul : Nat} {f : List Num → Num × Tally} {w : List Nat} {p : Nat} (h : LedgerCalm s₀ s) :
    OpRes.Calm s₀ (vecFloat ar mul f w p s) := by
  unfold vecFloat
  split
  · exact .fault
  · split
    exacts [.fault, vecElems_calm h]

theorem vecTrans_calm {f : Num → Nat × Tally} {w : List Nat} {p : Nat} (h : LedgerCalm s₀ s) :
    OpRes.Calm s₀ (vecTrans f w p s) := by
  unfold vecTrans
  dsimp only
  split
  · exact .fault
  · split
    exacts [.fault, vecElems_calm h]

theorem vecInt_calm {f : W32 → W32 → W32} {w : List Nat} {p : Nat} (h : LedgerCalm s₀ s) : OpRes.Calm s₀ (vecInt f w p s) :=
  vecElems_calm h

theorem maskDone_calm {r : VRec} {dst : Option Operand} {vals : Nat → Bool} {cycles p : Nat} {u : UnitSt} (h : LedgerCalm s₀ s) :
    OpRes.Calm s₀ (maskDone r dst vals cycles p u s) := by
  unfold maskDone
  dsimp only
  split
  exacts [.ok (countRun_calm (setUnit_calm h)), .fault]

theorem vecCompare_calm {int : Bool} {w : List Nat} {p : Nat} (h : LedgerCalm s₀ s) :
    OpRes.Calm s₀ (vecCompare int w p s) := by
  unfold vecCompare
  dsimp only
  split
  · exact .fault
  split
  · exact .fault
  split
  · exact .wait
  · split
    exacts [.wait, .fault, maskDone_calm h]

theorem vecMask_calm {ar : Nat} {f : Bool → Bool → Bool} {w : List Nat} {p : Nat} (h : LedgerCalm s₀ s) :
    OpRes.Calm s₀ (vecMask ar f w p s) := by
  unfold vecMask
  dsimp only
  split
  · exact .fault
  split
  · exact .wait
  · split
    exacts [.fault, maskDone_calm h]

theorem vecKidx_calm {w : List Nat} {p : Nat} (h : LedgerCalm s₀ s) : OpRes.Calm s₀ (vecKidx w p s) := by
  unfold vecKidx
  dsimp only
  split
  · split
    · exact .wait
    · split
      exacts [.wait, .fault, .ok (countRun_calm (setUnit_calm h))]
  · exact .fault

theorem vecMov_calm {w : List Nat} {p : Nat} (h : LedgerCalm s₀ s) : OpRes.Calm s₀ (vecMov w p s) := by
  unfold vecMov
  dsimp only
  split
  · exact .fault
  split
  · exact .fault
  split
  · exact .wait
  · split
    exacts [.wait, .fault, vecDone_calm h]

theorem vecSel_calm {w : List Nat} {p : Nat} (h : LedgerCalm s₀ s) : OpRes.Calm s₀ (vecSel w p s) := by
  unfold vecSel
  dsimp only
  split
  · exact .fault
  split
  · exact .fault
  split
  · exact .wait
  · split
    exacts [.wait, .fault, vecDone_calm h]

theorem vecCvt_calm {w : List Nat} {p : Nat} (h : LedgerCalm s₀ s) : OpRes.Calm s₀ (vecCvt w p s) := by
  unfold vecCvt
  dsimp only
  split
  · exact .fault
  split
  · exact .fault
  split
  · exact .wait
  · split
    exacts [.wait, .fault, vecDone_calm (convElems_calm h)]

theorem vecVtag_calm {w : List Nat} {p : Nat} (h : LedgerCalm s₀ s) : OpRes.Calm s₀ (vecVtag w p s) :=
  .ite .wait (.ok (setUnit_calm h))

theorem vecFcps_calm {w : List Nat} {p : Nat} (h : LedgerCalm s₀ s) : OpRes.Calm s₀ (vecFcps w p s) := by
  unfold vecFcps
  split
  · exact .fault
  · split
    exacts [.fault, vecElems_calm h]

/-! ### Engine operations -/

theorem readAreas_calm {xs : List Area} {ecc : Ecc} (h : LedgerCalm s₀ s) : LedgerCalm s₀ (readAreas xs ecc s).1 := by
  generalize hf : readAreas = f
  delta readAreas readAreas._f at hf
  obtain ⟨rd, e, hr⟩ := readDev_calmSealed s₀
  rw [e] at hf
  subst hf
  induction xs generalizing s ecc with
  | nil => exact h
  | cons x xs ih =>
    cases x with
    | pend a n =>
      dsimp only
      split
      · exact failPond_calm h
      split
      · next e => exact (ih h).fst e
      · next e => exact (ih h).fst e
    | dev a n =>
      dsimp only
      split
      · next e =>
        have h := (hr h).out e
        split
        · next e => exact (ih h).fst e
        · next e => exact (ih h).fst e
      · next e => exact (hr h).out e
      · next e => exact (hr h).out e

theorem readAreas_calmSealed (s₀ : State) : ∃ f, readAreas = f ∧
    ∀ {xs ecc s}, LedgerCalm s₀ s → LedgerCalm s₀ (f xs ecc s).1 := ⟨_, rfl, readAreas_calm⟩

theorem writeAreas_calm {xs : List (Nat × Bytes)} (h : LedgerCalm s₀ s) : LedgerCalm s₀ (writeAreas xs s).1 := by
  generalize hf : writeAreas = f
  delta writeAreas writeAreas._f at hf
  obtain ⟨wr, e, hw⟩ := writeDev_calmSealed s₀
  rw [e] at hf
  subst hf
  induction xs generalizing s with
  | nil => exact h
  | cons x xs ih =>
    dsimp only
    split
    · next e => exact ih ((hw h).out e)
    · next e => exact (hw h).out e
    · next e => exact (hw h).out e

theorem writeAreas_calmSealed (s₀ : State) : ∃ f, writeAreas = f ∧
    ∀ {xs s}, LedgerCalm s₀ s → LedgerCalm s₀ (f xs s).1 := ⟨_, rfl, writeAreas_calm⟩

theorem sumTensors_calm {shadow : Bool} {l : Int} {ts : List TensorEnt} {g : GradSum} {ecc : Ecc} (h : LedgerCalm s₀ s) :
    LedgerCalm s₀ (sumTensors shadow l ts g ecc s).1 := by
  fun_induction sumTensors shadow l ts g ecc s with
  | case1 => exact h
  | case2 _ _ _ _ _ _ e => exact (readAreas_calm h).fst e
  | case3 _ _ _ _ _ _ _ e _ _ _ _ _ e₂ => exact (writeAreas_calm ((readAreas_calm h).fst e)).fst e₂
  | case4 _ _ _ _ _ _ _ e _ _ _ _ _ e₂ ih => exact ih ((writeAreas_calm ((readAreas_calm h).fst e)).fst e₂)

theorem updateFactors_calm {c : UpdC} {t : TensorEnt} (h : LedgerCalm s₀ s) : LedgerCalm s₀ (updateFactors c t s).1 := by
  generalize hp : updateFactors c t s = p
  generalize hf : updateFactors = f at hp
  delta updateFactors at hf
  subst hf
  beta_reduce at hp
  split at hp
  · next e =>
    have h := (readAreas_calm h).fst e
    extract_lets a b w at hp
    have hw : LedgerCalm s₀ w.1 := writeAreas_calm h
    exact hp ▸ LedgerCalm.pair hw
  · next e => exact hp ▸ LedgerCalm.pair ((readAreas_calm h).fst e)

theorem updateFactors_calmSealed (s₀ : State) : ∃ f, updateFactors = f ∧
    ∀ {c t s}, LedgerCalm s₀ s → LedgerCalm s₀ (f c t s).1 := ⟨_, rfl, updateFactors_calm⟩

theorem stageFactors_calm {c : UpdC} {ts : List TensorEnt} (h : LedgerCalm s₀ s) : LedgerCalm s₀ (stageFactors c ts s).1 := by
  generalize hf : stageFactors = f
  delta stageFactors stageFactors._f at hf
  obtain ⟨uf, e, hu⟩ := updateFactors_calmSealed s₀
  rw [e] at hf
  subst hf
  induction ts generalizing s with
  | nil => exact h
  | cons t ts ih => exact .iteFst (ih h) (.iteFst (.pair (hu h)) (.pair (ih (hu h))))

theorem stageFactors_calmSealed (s₀ : State) : ∃ f, stageFactors = f ∧
    ∀ {c ts s}, LedgerCalm s₀ s → LedgerCalm s₀ (f c ts s).1 := ⟨_, rfl, stageFactors_calm⟩

theorem updatePiece_calm {shadow : Bool} {c : UpdC} {t : TensorEnt} {piece : Nat} {ecc : Ecc} (h : LedgerCalm s₀ s) :
    LedgerCalm s₀ (updatePiece shadow c t piece ecc s).1 := by
  generalize hp : updatePiece shadow c t piece ecc s = p
  generalize hf : updatePiece = f at hp
  delta updatePiece at hf
  obtain ⟨rd, e₁, hr⟩ := readAreas_calmSealed s₀
  obtain ⟨wr, e₂, hw⟩ := writeAreas_calmSealed s₀
  rw [e₁, e₂] at hf
  subst hf
  beta_reduce at hp
  extract_lets +onlyGivenNames lo n fail fact plainV areas at hp
  split at hp
  · next e =>
    have h := (hr h).fst e
    extract_lets +onlyGivenNames ps gs sv tt one rs outs at hp
    split at hp
    · next e => exact hp ▸ (hw h).fst e
    · next e => exact hp ▸ LedgerCalm.pair ((hw h).fst e)
  · next e => exact hp ▸ (hr h).fst e

theorem updatePiece_calmSealed (s₀ : State) : ∃ f, updatePiece = f ∧
    ∀ {shadow c t piece ecc s}, LedgerCalm s₀ s → LedgerCalm s₀ (f shadow c t piece ecc s).1 := ⟨_, rfl, updatePiece_calm⟩

theorem readRec_calm {lt : LayerTab} {k : Nat} (h : LedgerCalm s₀ s) : LedgerCalm s₀ (readRec lt k s).1 := by
  generalize hp : readRec lt k s = p
  generalize hf : readRec = f at hp
  delta readRec at hf
  subst hf
  beta_reduce at hp
  split at hp
  · next e => exact hp ▸ (readAreas_calm h).fst e
  · next e => exact hp ▸ (readAreas_calm h).fst e

theorem sumTensors_calmSealed (s₀ : State) : ∃ f, sumTensors = f ∧
    ∀ {shadow l ts g ecc s}, LedgerCalm s₀ s → LedgerCalm s₀ (f shadow l ts g ecc s).1 := ⟨_, rfl, sumTensors_calm⟩

theorem readRec_calmSealed (s₀ : State) : ∃ f, readRec = f ∧
    ∀ {lt k s}, LedgerCalm s₀ s → LedgerCalm s₀ (f lt k s).1 := ⟨_, rfl, readRec_calm⟩

theorem rebuildWork_calm {lt : LayerTab} {e : LayerEnt} (h : LedgerCalm s₀ s) : LedgerCalm s₀ (rebuildWork lt e s) := by
  unfold rebuildWork
  refine .foldl (fun s a h => ?_) h
  split
  · next e => exact (readDev_calm h).out e
  · next e => exact (readDev_calm h).out e
  · next e => exact pokeDev_calm ((readDev_calm h).out e)

/-! ### Pieces of the update -/

theorem setLayerRun_calm {k : Nat} {r : LayerRun} (h : LedgerCalm s₀ s) : LedgerCalm s₀ (setLayerRun k r s) := h.update rfl

theorem sendNorm_calm (h : LedgerCalm s₀ s) : LedgerCalm s₀ (sendNorm s) := .ite (toCard_calm (h.update rfl)) h

theorem engineFails_calm {layer : Nat} (h : LedgerCalm s₀ s) : LedgerCalm s₀ (engineFails layer s) := reportAbort_calm h

theorem checkEnds_calm {k : Nat} {e : LayerEnt} {r : LayerRec} {g : GradSum} (h : LedgerCalm s₀ s) :
    LedgerCalm s₀ (checkEnds k e r g s) :=
  have h := LedgerCalm.foldl (fun _ _ => chargeTally_calm) h
  .ite (reportAbort_calm h) (sendNorm_calm (.when countRun_calm (.when countRun_calm (maxRun_calm (h.update rfl)))))

theorem checkDone_calm {k : Nat} {e : LayerEnt} {ecc : Ecc} (h : LedgerCalm s₀ s) : LedgerCalm s₀ (checkDone k e ecc s) := by
  generalize hf : checkDone = f
  delta checkDone at hf
  obtain ⟨su, e₁, hs⟩ := sumTensors_calmSealed s₀
  obtain ⟨rr, e₂, hr⟩ := readRec_calmSealed s₀
  rw [e₁, e₂] at hf
  subst hf
  beta_reduce
  extract_lets +onlyGivenNames lt _ s₁
  have h₁ : LedgerCalm s₀ s₁ := setLayerRun_calm h
  split
  · next e => exact engineFails_calm ((hs h₁).fst e)
  · next e =>
    have h := (hs h₁).fst e
    split
    · next e => exact engineFails_calm ((hr h).fst e)
    · next e => exact checkEnds_calm ((hr h).fst e)

theorem workCopy_calm {k j piece : Nat} {t : TensorEnt} {far : Bool} {work : Bytes} (h : LedgerCalm s₀ s) :
    LedgerCalm s₀ (workCopy k j piece t far work s).1 :=
  .iteFst (.pair (h.update rfl)) (writeAreas_calm h)

theorem sendGrad_calm {k : Nat} {e : LayerEnt} (h : LedgerCalm s₀ s) : LedgerCalm s₀ (sendGrad k e s) := by
  unfold sendGrad
  dsimp only
  split
  · next e => exact engineFails_calm ((readAreas_calm h).fst e)
  · next e => exact toTwin_calm (toTwin_calm ((readAreas_calm h).fst e))

theorem layerUpdated_calm {k : Nat} {e : LayerEnt} (h : LedgerCalm s₀ s) : LedgerCalm s₀ (layerUpdated k e s) := by
  unfold layerUpdated
  dsimp only
  split
  exacts [engineFails_calm h, .ite (sendGrad_calm (setLayerRun_calm h)) (setLayerRun_calm h)]

theorem pieceDone_calm {k j piece : Nat} {e : LayerEnt} {t : TensorEnt} {ecc : Ecc} (h : LedgerCalm s₀ s) :
    LedgerCalm s₀ (pieceDone k j piece e t ecc s) := by
  generalize hf : pieceDone = f
  delta pieceDone at hf
  subst hf
  beta_reduce
  extract_lets +onlyGivenNames lt run c far
  split
  next e =>
  have h := (updatePiece_calm h).fst e
  refine .ite (engineFails_calm h) ?_
  extract_lets +onlyGivenNames _ s₁ s₂
  have h₂ : LedgerCalm s₀ s₂ := countRun_calm (chargeTally_calm (setLayerRun_calm h))
  split
  · next e => exact engineFails_calm ((workCopy_calm h₂).fst e)
  · next e =>
    have h := (workCopy_calm h₂).fst e
    exact .ite (reportAbort_calm h) (.ite (layerUpdated_calm h) h)

theorem refreshOne_calm {x : Nat × Nat × Nat} (h : LedgerCalm s₀ s) : LedgerCalm s₀ (refreshOne s x) := by
  generalize hf : refreshOne = f
  delta refreshOne at hf
  obtain ⟨rd, e, hr⟩ := readDev_calmSealed s₀
  obtain ⟨wr, e', hw⟩ := writeAreas_calmSealed s₀
  rw [e, e'] at hf
  subst hf
  beta_reduce
  extract_lets +onlyGivenNames lt
  split
  · exact h
  split
  · exact h
  extract_lets +onlyGivenNames r
  split
  · next e => exact engineFails_calm ((hr h).out e)
  · next e => exact engineFails_calm ((hr h).out e)
  · next e =>
    have h := (hr h).out e
    split
    · next e => exact engineFails_calm ((hw h).fst e)
    · next e => exact countRun_calm ((hw h).fst e)

theorem execLayerCheckDone_calm {layer : Nat} {ecc : Ecc} (h : LedgerCalm s₀ s) :
    LedgerAnswers s₀ (execLayerCheckDone layer ecc s) := by
  unfold execLayerCheckDone
  refine .next ?_
  split
  exacts [h, .ite (checkDone_calm h) h]

theorem stopEngine_calm {g : Nat} (h : LedgerCalm s₀ s) : LedgerCalm s₀ (stopEngine g s) := .ite h (h.update rfl)

theorem execUpdatePieceDone_calm {layer tensor piece : Nat} {ecc : Ecc} (h : LedgerCalm s₀ s) :
    LedgerAnswers s₀ (execUpdatePieceDone layer tensor piece ecc s) := by
  unfold execUpdatePieceDone
  dsimp only
  refine .next ?_
  split
  · exact h
  · split
    exacts [h, .ite (pieceDone_calm (stopEngine_calm h)) h]

/-! ### The step boundary -/

theorem setBoot_calm {idx sub v : Nat} (h : LedgerCalm s₀ s) : LedgerCalm s₀ (setBoot idx sub v s) := h.update rfl

theorem clearReadings_calm (h : LedgerCalm s₀ s) : LedgerCalm s₀ (clearReadings s) := h.update rfl

theorem mapHeld_calm {f : Held → Held} {addr blocks : Nat} (h : LedgerCalm s₀ s) :
    LedgerCalm s₀ (mapHeld f addr blocks s).1 := by
  generalize hp : mapHeld f addr blocks s = p
  generalize hf : mapHeld = g at hp
  delta mapHeld at hf
  subst hf
  beta_reduce at hp
  split at hp
  · next e => exact hp ▸ LedgerCalm.pair (pokeDev_calm ((readDev_calm h).out e))
  · exact hp ▸ LedgerCalm.pair (readDev_calm h)

theorem mapHelds_calm {f : Held → Held} (h : LedgerCalm s₀ s) : LedgerCalm s₀ (mapHelds f s).1 :=
  .foldlFst (fun _ _ h => .pair (mapHeld_calm h)) (.pair h)

theorem commitHeld_calm (h : LedgerCalm s₀ s) : LedgerCalm s₀ (commitHeld s) := setLatch_calm (setLatch_calm (mapHelds_calm h))

theorem abortHeld_calm (h : LedgerCalm s₀ s) : LedgerCalm s₀ (abortHeld s) := mapHelds_calm h

theorem judgeSlow_calm (h : LedgerCalm s₀ s) : LedgerCalm s₀ (judgeSlow s) :=
  .ite (raiseOpen_calm (countBoot_calm (h.update rfl))) (h.update rfl)

theorem mapUnit_calm {p l : Nat} (h : LedgerCalm s₀ s) : LedgerCalm s₀ (mapUnit p l s) := h.update rfl

theorem setCond_calm {p c : Nat} (h : LedgerCalm s₀ s) : LedgerCalm s₀ (setCond p c s) := h.update rfl

theorem retireUnit_calm {p cond : Nat} (h : LedgerCalm s₀ s) : LedgerCalm s₀ (retireUnit p cond s) := by
  unfold retireUnit
  extract_lets l s₁ s₂
  have h₂ : LedgerCalm s₀ s₂ := setCond_calm (mapUnit_calm (addRepair_calm h))
  split
  · exact setUnit_calm h₂
  extract_lets s₃ s₄ s₅
  have h₄ : LedgerCalm s₀ s₄ := setCond_calm (mapUnit_calm (setUnit_calm (setUnit_calm h₂)))
  exact raiseOpen_calm (setBoot_calm (countBoot_calm h₄))

theorem retireOwed_calm (h : LedgerCalm s₀ s) : LedgerCalm s₀ (retireOwed s) := .foldl (fun _ _ => retireUnit_calm) (h.update rfl)

theorem judgeSlip_calm (h : LedgerCalm s₀ s) : LedgerCalm s₀ (judgeSlip s) := by
  unfold judgeSlip
  extract_lets ps med2 above run s₁
  refine .foldl (fun s p h => .ite ?_ h) (h.update rfl)
  split
  exacts [retireUnit_calm (h.update rfl), raiseOpen_calm (countBoot_calm h)]

theorem sayCodes_calm {old new logic stackT : List Nat} (h : LedgerCalm s₀ s) : LedgerCalm s₀ (sayCodes old new logic stackT s) :=
  .foldl (fun _ _ h => .ite h (raiseOpen_calm h)) h

theorem openSnaps_calm (h : LedgerCalm s₀ s) : LedgerCalm s₀ (openSnaps s) := .foldl (fun _ _ h => .ite (.ite (h.update rfl) (h.update rfl)) h) h

theorem resetUnits_calm (h : LedgerCalm s₀ s) : LedgerCalm s₀ (resetUnits s) := h.update rfl

/-! ### Harvest -/

theorem harvWrite_calm {kind addr ref : Nat} {data : Bytes}
    (h : LedgerCalm s₀ s) : LedgerCalm s₀ (harvWrite kind addr ref data s) :=
  (h.update rfl)

theorem setHarv_calm {st : Nat} (h : LedgerCalm s₀ s) : LedgerCalm s₀ (setHarv st s) := .unless raiseVec_calm (h.update rfl)

theorem sayHarvest_calm (h : LedgerCalm s₀ s) : LedgerCalm s₀ (sayHarvest s) := raiseOpen_calm h

theorem closeSnap_calm {k : Nat} (h : LedgerCalm s₀ s) : LedgerCalm s₀ (closeSnap k s) := dropSnapCopies_calm (setSnap_calm h)

theorem harvEnd_calm (h : LedgerCalm s₀ s) : LedgerCalm s₀ (harvEnd s) := by
  unfold harvEnd
  dsimp only
  split
  exacts [(h.update rfl), ((closeSnap_calm h).update rfl)]

theorem harvFail_calm {cause : Nat} (h : LedgerCalm s₀ s) : LedgerCalm s₀ (harvFail cause s) :=
  .ite (sayHarvest_calm (setHarv_calm (harvEnd_calm (h.update rfl)))) h

theorem toGateway_calm {off : Nat} {bs : Bytes} (h : LedgerCalm s₀ s) : LedgerCalm s₀ (toGateway off bs s) := by
  unfold toGateway
  dsimp only
  split
  · exact h
  · split
    exacts [harvFail_calm (countBoot_calm h), sendRun_calm (((freshTxn_calm h).update rfl))]

theorem harvDone_calm (h : LedgerCalm s₀ s) : LedgerCalm s₀ (harvDone s) :=
  sayHarvest_calm (setHarv_calm (harvEnd_calm (h.update rfl)))

theorem harvStop_calm (h : LedgerCalm s₀ s) : LedgerCalm s₀ (harvStop s) := .ite (harvFail_calm h) h

theorem harvStart_calm {block : Bytes} (h : LedgerCalm s₀ s) : LedgerCalm s₀ (harvStart block s) := by
  unfold harvStart
  extract_lets +onlyGivenNames _ s₁ n _ s₂
  have h₁ : LedgerCalm s₀ s₁ := setHarv_calm (h.update rfl)
  have h₂ : LedgerCalm s₀ s₂ := h₁.update rfl
  refine .ite (harvFail_calm h₂) (.ite (harvFail_calm h₂) (.ite (harvFail_calm h₂) ?_))
  split
  · exact harvFail_calm h₂
  extract_lets +onlyGivenNames dir s₃ _ _ s₄
  have h₄ : LedgerCalm s₀ s₄ := h₂.update rfl
  refine .ite (.foldl (fun _ _ => harvWrite_calm) (harvWrite_calm h₄)) ?_
  split
  exacts [harvFail_calm h₄, askCard_calm h₄]

theorem gatewayTable_calm {ans : Option Bytes} (h : LedgerCalm s₀ s) : LedgerCalm s₀ (gatewayTable ans s) := by
  unfold gatewayTable
  split
  · exact h
  split
  · exact harvFail_calm h
  · split
    exacts [harvFail_calm h, .ite (harvFail_calm h) (toGateway_calm h)]

theorem snapRanges_calm {k : Nat} {rs : List (Nat × Nat)} (h : LedgerCalm s₀ s) : LedgerCalm s₀ (snapRanges k rs s).state := by
  induction rs generalizing s with
  | nil => exact h
  | cons x xs ih =>
    unfold snapRanges
    split
    · next e =>
      have h := (snapRead_calm h).out e
      split
      · next e => exact .ok ((ih h).out e)
      · exact ih h
    · exact snapRead_calm h

theorem readSection_calm {i : Nat} (h : LedgerCalm s₀ s) : LedgerCalm s₀ (readSection i s).state := by
  unfold readSection
  split
  exacts [.iteOut (.ok h) (snapRanges_calm h), .failed h]

theorem takeSection_calm {i : Nat} (h : LedgerCalm s₀ s) : LedgerCalm s₀ (takeSection i s).1 := by
  unfold takeSection
  dsimp only
  split
  · next e => exact .pair (harvFail_calm ((readSection_calm h).out e))
  · next e => exact .pair (harvFail_calm ((readSection_calm h).out e))
  · next e => exact .pair (((readSection_calm h).out e).update rfl)

theorem harvAtCommit_calm {t : Nat} {block : Bytes} (h : LedgerCalm s₀ s) : LedgerCalm s₀ (harvAtCommit t block s) :=
  .ite (.ite (harvStart_calm h) h) (.ite h (.ite (harvStart_calm (h.update rfl)) h))

theorem pokeRanges_calm {rs : List (Nat × Nat)} {bs : Bytes} (h : LedgerCalm s₀ s) : LedgerCalm s₀ (pokeRanges rs bs s) := by
  fun_induction pokeRanges rs bs s with
  | case1 => exact h
  | case2 _ _ _ _ ih => exact ih (pokeDev_calm h)

theorem storedDigest_calm {lt : LayerTab} {k : Nat} (h : LedgerCalm s₀ s) : LedgerCalm s₀ (storedDigest lt k s).1 :=
  .pair (fetchRanges_calm h)

theorem digestOwn_calm (h : LedgerCalm s₀ s) : LedgerCalm s₀ (digestOwn s) := by
  refine .foldl (fun u k h => ?_) (h.update rfl)
  have hd : LedgerCalm s₀ (storedDigest s.plan.plan.lt k u).1 := storedDigest_calm h
  exact hd.withTwin

theorem rebuildAll_calm (h : LedgerCalm s₀ s) : LedgerCalm s₀ (rebuildAll s) := .foldl (fun _ _ => rebuildWork_calm) h

/-! ### Reply -/

theorem respond_calm {a : Access} {sub : Nat} {o : Out} (h : LedgerCalm s₀ s) : LedgerCalm s₀ (respond a sub o s) :=
  .ite (countBoot_calm (send_calm h)) h

theorem reply_calm {a : Access} {body : Bytes} (h : LedgerCalm s₀ s) : LedgerCalm s₀ (reply a body s) := respond_calm h

theorem refuse_calm {a : Access} {idx sub code : Nat} (h : LedgerCalm s₀ s) : LedgerCalm s₀ (refuse a idx sub code s) :=
  respond_calm h

theorem serve_calm {a : Access} {idx sub : Nat} {f : State → State} (hf : ∀ s, LedgerCalm s₀ s → LedgerCalm s₀ (f s))
    (h : LedgerCalm s₀ s) :
    LedgerCalm s₀ (serve a idx sub f s) :=
  .ite (.ite (hf _ h) (refuse_calm h)) h

theorem wake_calm {cause : Nat} (h : LedgerCalm s₀ s) : LedgerCalm s₀ (wake cause s) :=
  .ite (applyIdleParts_calm (reloadUnits_calm (raiseOpen_calm (h.update rfl)))) h

theorem actWrite_calm {a : Access} {idx sub : Nat} {f : State → State} (hf : ∀ s, LedgerCalm s₀ s → LedgerCalm s₀ (f s))
    (h : LedgerCalm s₀ s) :
    LedgerCalm s₀ (actWrite a idx sub f s) :=
  serve_calm (fun _ h => .ite (refuse_calm h) (.ite (wake_calm (refuse_calm h)) (hf _ h))) h

theorem noteRead_calm {idx : Nat} {sub : Option Nat} (h : LedgerCalm s₀ s) : LedgerCalm s₀ (noteRead idx sub s) :=
  .ite (h.update rfl) h

theorem serveRead_calm {a : Access} {idx : Nat} {sub : Option Nat} {f : Bytes → State → State}
    (hf : ∀ x0 s, LedgerCalm s₀ s → LedgerCalm s₀ (f x0 s)) (h : LedgerCalm s₀ s) :
    LedgerCalm s₀ (serveRead a idx sub f s) := by
  unfold serveRead
  refine serve_calm (fun _ h => ?_) h
  split
  exacts [refuse_calm h, noteRead_calm (hf _ _ h)]

theorem answerRead_calm {a : Access} {idx sub : Nat} (h : LedgerCalm s₀ s) : LedgerCalm s₀ (answerRead a idx sub s) :=
  serveRead_calm (fun _ _ => reply_calm) h

theorem answerAll_calm {a : Access} {idx : Nat} (h : LedgerCalm s₀ s) : LedgerCalm s₀ (answerAll a idx s) :=
  serveRead_calm (fun _ _ => reply_calm) h

/-! ### Pair -/

theorem answerWaits_calm (h : LedgerCalm s₀ s) : LedgerCalm s₀ (answerWaits s) :=
  applyCan_calm (.foldl (fun _ _ => reply_calm) (h.update rfl))

theorem setPair_calm {p : PairState} {cause : Nat} (h : LedgerCalm s₀ s) : LedgerCalm s₀ (setPair p cause s) :=
  .unless raiseOpen_calm ((.update (.ite h (answerWaits_calm h)) rfl))

theorem enterSolo_calm {cause : Nat} (h : LedgerCalm s₀ s) : LedgerCalm s₀ (enterSolo cause s) := (setPair_calm h).update rfl

theorem stopUnits_calm (h : LedgerCalm s₀ s) : LedgerCalm s₀ (stopUnits s) := h.update rfl

theorem mirrorService_calm (h : LedgerCalm s₀ s) : LedgerCalm s₀ (mirrorService s) :=
  LedgerCalm.noJob (s := if _ then _ else _) (.when setPair_calm (stopUnits_calm h)) rfl rfl

theorem cardFails_calm (h : LedgerCalm s₀ s) : LedgerCalm s₀ (cardFails s) := .ite h (mirrorService_calm (toCard_calm h))

theorem pullLayer_calm {k : Nat} {withRec : Bool} (h : LedgerCalm s₀ s) : LedgerCalm s₀ (pullLayer k withRec s) := toTwin_calm h

theorem markMirror_calm {b : Nat} (h : LedgerCalm s₀ s) : LedgerCalm s₀ (markMirror s b) :=
  .ite (toTwin_calm (h.update rfl)) (h.update rfl)

theorem pondDamaged_calm {off : Nat} (h : LedgerCalm s₀ s) : LedgerCalm s₀ (pondDamaged off s) := by
  unfold pondDamaged
  dsimp only
  split
  · exact h
  split
  · exact toTwin_calm h
  · split
    exacts [h, toTwin_calm h]

theorem damageFound_calm (h : LedgerCalm s₀ t) : LedgerCalm s₀ (damageFound s t) := by
  unfold damageFound
  extract_lets _ s₁
  have h₁ : LedgerCalm s₀ s₁ := .foldl (fun _ _ => markMirror_calm) h
  exact .when reportAbort_calm h₁

/-! ### Remote writes and reads -/

theorem markLanding_calm {t : TreeRec} {fault : Bool} (h : LedgerCalm s₀ s) : LedgerCalm s₀ (markLanding t fault s) := by
  unfold markLanding
  dsimp only
  split
  exacts [h, modUnit_calm h]

theorem treeFault_calm {tree cause addr : Nat} (h : LedgerCalm s₀ s) : LedgerCalm s₀ (treeFault tree cause addr s) := by
  unfold treeFault
  dsimp only
  refine recordStreamFault_calm ?_
  split
  exacts [h, markLanding_calm h]

theorem failRemote_calm {r : Remote} (h : LedgerCalm s₀ s) : LedgerCalm s₀ (failRemote r s) :=
  have h := countRemoteFail_calm (dropRemotes_calm h)
  .ite (harvFail_calm h) (.ite (treeFault_calm h) (.unless (fun h => .when streamFault_calm h) h))

theorem failWhere_calm {f : Remote → Bool} (h : LedgerCalm s₀ s) : LedgerCalm s₀ (failWhere f s) :=
  .foldl (fun _ _ => failRemote_calm) h

theorem failPort_calm {p : Nat} (h : LedgerCalm s₀ s) : LedgerCalm s₀ (failPort p s) := failWhere_calm h

theorem failCard_calm {card : Nat} (h : LedgerCalm s₀ s) : LedgerCalm s₀ (failCard card s) := failWhere_calm h

theorem portDown_calm {p : Nat} {x : PortSt} (h : LedgerCalm s₀ s) : LedgerCalm s₀ (portDown p x s) :=
  failPort_calm (setPort_calm (freeQueue_calm h))

/-! ### Recovery -/

theorem sendAbort_calm {step attempt cause card layer action : Nat} (h : LedgerCalm s₀ s) :
    LedgerCalm s₀ (sendAbort step attempt cause card layer action s) :=
  toCards_calm (h.update rfl)

theorem setRec_calm {st : Nat} (h : LedgerCalm s₀ s) : LedgerCalm s₀ (setRec st s) := .unless raiseOpen_calm (h.update rfl)

theorem recFail_calm {cause : Nat} (h : LedgerCalm s₀ s) : LedgerCalm s₀ (recFail cause s) :=
  .unless (fun h => .when sendAbort_calm h) (setRec_calm (h.update rfl))

theorem recLost_calm (h : LedgerCalm s₀ s) : LedgerCalm s₀ (recLost s) := .ite (recFail_calm h) h

theorem recruitNext_calm (h : LedgerCalm s₀ s) : LedgerCalm s₀ (recruitNext s) := by
  unfold recruitNext
  dsimp only
  split
  · exact .foldl (fun _ _ => askCard_calm) (setRec_calm h)
  · split
    exacts [recFail_calm (h.update rfl), askCard_calm (setRec_calm (h.update rfl))]

theorem askPartners_calm (h : LedgerCalm s₀ s) : LedgerCalm s₀ (askPartners s) := .foldl (fun _ _ => askCard_calm) h

theorem recruitAll_calm (h : LedgerCalm s₀ s) : LedgerCalm s₀ (recruitAll s) := recruitNext_calm (askPartners_calm h)

theorem recruitLate_calm (h : LedgerCalm s₀ s) : LedgerCalm s₀ (recruitLate s) := by
  unfold recruitLate
  dsimp only
  split
  exacts [h, .ite (recruitNext_calm (h.update rfl)) h]

theorem tellHandover_calm (h : LedgerCalm s₀ s) : LedgerCalm s₀ (tellHandover s) := by
  unfold tellHandover
  dsimp only
  split
  exacts [h, .ite h (.foldl (fun _ _ h => askCard_calm h) (h.update rfl))]

theorem stageMap_calm {c gen : Nat} (h : LedgerCalm s₀ s) : LedgerCalm s₀ (stageMap c gen s) :=
  askCard_calm (askCard_calm (askCard_calm h))

theorem recComplete_calm (h : LedgerCalm s₀ s) : LedgerCalm s₀ (recComplete s) := .ite (setRec_calm (h.update rfl)) h

theorem recBegin_calm {f : Nat} (h : LedgerCalm s₀ s) : LedgerCalm s₀ (recBegin f s) := countBoot_calm (setRec_calm (h.update rfl))

theorem abortFailed_calm {f : Nat} (h : LedgerCalm s₀ s) : LedgerCalm s₀ (abortFailed f s) :=
  .ite h (.ite (sendAbort_calm h) (.ite (sendAbort_calm h) (sendAbort_calm h)))

theorem endTakeover_calm (h : LedgerCalm s₀ s) : LedgerCalm s₀ (endTakeover s) :=
  .ite (abortFailed_calm (toCards_calm (h.update rfl))) (abortFailed_calm (toCards_calm (h.update rfl)))

theorem declareFailed_calm {card : Nat} (h : LedgerCalm s₀ s) : LedgerCalm s₀ (declareFailed card s) := by
  unfold declareFailed
  refine .ite h ?_
  extract_lets coord s₁ _ s₂
  have h₂ : LedgerCalm s₀ s₂ := (failCard_calm h).update rfl
  split
  · exact h₂
  extract_lets s₃ others
  have h₃ : LedgerCalm s₀ s₃ := recBegin_calm h₂
  exact .ite (.ite (endTakeover_calm h₃) (.foldl (fun _ _ => askCard_calm) (h₃.update rfl))) (abortFailed_calm h₃)

theorem cardDeclared_calm {l : Nat} (h : LedgerCalm s₀ s) : LedgerCalm s₀ (cardDeclared l s) := by
  unfold cardDeclared
  extract_lets +onlyGivenNames s₁ _ s₂
  have h₁ : LedgerCalm s₀ s₁ := by
    unfold s₁
    split
    exacts [h, .ite (failCard_calm h) ((failCard_calm h).update rfl)]
  have h₂ : LedgerCalm s₀ s₂ := h₁.update rfl
  exact .ite (mirrorService_calm h₂) (.when recruitAll_calm h₂)

theorem mapApplied_calm (h : LedgerCalm s₀ s) : LedgerCalm s₀ (mapApplied s) := .when mirrorService_calm (h.update rfl)

theorem twinNamed_calm {c : Nat} {ans : Option Bytes} (h : LedgerCalm s₀ s) : LedgerCalm s₀ (twinNamed c ans s) :=
  .when recFail_calm (.ite (.when askCard_calm (askCard_calm (h.update rfl))) (h.update rfl))

theorem mirrorTold_calm {c : Nat} {ans : Option Bytes} (h : LedgerCalm s₀ s) : LedgerCalm s₀ (mirrorTold c ans s) :=
  .ite h (.ite (recruitNext_calm h) (askCard_calm h))

theorem custodyTold_calm {ans : Option Bytes} (h : LedgerCalm s₀ s) : LedgerCalm s₀ (custodyTold ans s) :=
  .ite (recFail_calm h) h

theorem recAnswer_calm {c : Nat} {ans : Option Bytes} (h : LedgerCalm s₀ s) : LedgerCalm s₀ (recAnswer c ans s) := by
  unfold recAnswer
  split
  · exact h
  extract_lets +onlyGivenNames _ s₁
  have h₁ : LedgerCalm s₀ s₁ := h.update rfl
  split
  · exact .ite h₁ (recruitNext_calm (h₁.update rfl))
  · exact .unless recruitNext_calm h₁
  · exact stageMap_calm h₁
  · exact twinNamed_calm h₁
  · exact custodyTold_calm h₁
  · exact mirrorTold_calm h₁
  · refine .ite h₁ ?_
    extract_lets +onlyGivenNames _ s₂
    have h₂ : LedgerCalm s₀ s₂ := by
      unfold s₂
      split
      exacts [(h₁.update rfl), h₁]
    exact .unless endTakeover_calm h₂
  · exact h₁


end Sys2Proof.Machine
end

section
/-! PROOF. The rules of the step ledger, of gates and reductions, of the plan, of boot and power (O5). -/

namespace Sys2Proof.Machine

open Sys2Proof.Claims

variable {s₀ s t : State}

/-! ### Ledger -/

theorem ledView_mem : MemBlind ledView := ⟨fun _ _ _ _ _ _ _ _ _ _ _ _ _ _ _ _ _ => rfl⟩

theorem joining_mem : MemBlind fun s => s.fab.joining := ⟨fun _ _ _ _ _ _ _ _ _ _ _ _ _ _ _ _ _ => rfl⟩

theorem ledView_solo : SoloBlind ledView where
  raised _ _ _ _ _ _ _ _ _ _ _ := rfl
  twin _ _ := rfl
  applied _ _ _ _ _ := rfl

/-- A layer is touched in its turn: not while a deferred step waits for apply(N). -/
theorem touch_ledger {k : Nat} (h : s.plan.plan.lt.mode = true → s.led.applyCs ≠ none) : LedgerStep s (touch k s) := by
  have hj : jobRuns (touch k s) = jobRuns s := by
    by_cases ho : s.led.st = .opened <;> simp only [touch, jobRuns, ho, reduceIte]
  refine .made (.refl s) rfl (fun hr _ => ⟨fun hjt => hr.1 (hj.symm.trans hjt), fun hm => hj.trans (hr.2 hm)⟩) fun _ => ⟨fun ho => ?_, fun hm ha _ => ?_⟩
  · unfold touch at ho
    dsimp only at ho
    split at ho
    · cases ho
    next hne => exact absurd ho hne
  · exact absurd ha (h hm)

theorem stageBegins_ledger {k : Nat} {e : LayerEnt} {r : LayerRec} (h : s.plan.plan.lt.mode = true → s.led.applyCs ≠ none) :
    LedgerStep s (stageBegins k e r s) := by
  unfold stageBegins
  extract_lets lt cs c _ s₁ _ s₂ s₃ x s₄
  have h₁ : LedgerStep s s₁ := LedgerCalm.step (setLayerRun_calm (.refl s)) (touch_ledger h)
  clear_value s₁
  have h₂ : LedgerCalm s₁ s₂ := (LedgerCalm.refl s₁).update rfl
  clear_value s₂
  have h₄ : LedgerCalm s₁ s₄ := .foldl (fun _ _ => chargeTally_calm) (stageFactors_calm (chargeTally_calm h₂))
  exact h₁.calm (.ite (engineFails_calm h₄) (.when reportAbort_calm h₄))

/-- The layer that is next waits for apply(N) in deferred mode. -/
theorem nextStage_applied {k : Nat} (h : nextStage s = some k) (hm : s.plan.plan.lt.mode = true) : s.led.applyCs ≠ none := by
  unfold nextStage at h
  extract_lets ks at h
  split at h
  · cases h
  split at h
  · cases h
  have waits : waitsApply s = true := by
    have mode : (ownLt s).mode = true := hm
    rw [waitsApply, mode, Bool.true_or]
  rw [if_pos waits] at h
  intro none
  rw [none, Option.isNone_none, Bool.true_or, if_pos rfl] at h
  cases h

theorem stageStart_ledger {k : Nat} {e : LayerEnt} (h : s.plan.plan.lt.mode = true → s.led.applyCs ≠ none) : LedgerStep s (stageStart k e s) := by
  generalize hf : stageStart = f
  delta stageStart at hf
  subst hf
  beta_reduce
  split
  · next e => exact LedgerCalm.toStep (engineFails_calm ((readRec_calm (.refl s)).fst e))
  · next u r e =>
    have view : ledView u = ledView s := (view_fst e).trans (ledView_mem.readRec ..)
    have mode : u.plan.plan.lt.mode = s.plan.plan.lt.mode := congrArg (fun v => v.2.2.2.2.2.2.2) view
    have applied : u.led.applyCs = s.led.applyCs := congrArg (fun v => v.2.2.2.2.2.1) view
    exact LedgerCalm.step ((readRec_calm (.refl s)).fst e) (stageBegins_ledger fun hm => applied ▸ h (mode ▸ hm))

theorem execUpdateStageStart_ledger {layer : Nat} (h : LedgerCalm s₀ s) : LedgerAnswers s₀ (execUpdateStageStart layer s) := by
  unfold execUpdateStageStart
  split
  · exact .next h
  refine .steps ?_
  split
  next hc =>
    rw [Bool.and_eq_true, decide_eq_true_eq] at hc
    exact h.step (stageStart_ledger (nextStage_applied hc.2))
  next => exact h.toStep

/-- What a boundary writes of the ledger before its side work. -/
def boundView (s : State) : Nat × List Nat := (s.led.committed, s.led.touched)

theorem boundView_solo : SoloBlind boundView where
  raised _ _ _ _ _ _ _ _ _ _ _ := rfl
  twin _ _ := rfl
  applied _ _ _ _ _ := rfl

theorem boundView_of_led (e : ledView t = ledView s) : boundView t = boundView s := congrArg (fun v => (v.2.2.1, v.2.2.2.2.1)) e

theorem mirror_of_led (e : ledView t = ledView s) : t.keep.mirror = s.keep.mirror := congrArg (fun v => v.2.2.2.2.2.2.1) e

theorem ledView_writeMap (s : State) : ledView (writeMap s) = ledView s := by
  unfold writeMap
  split
  · exact ledView_solo.raise _ ..
  · rfl

theorem ledView_addRepair (r : Repair) (s : State) : ledView (addRepair r s) = ledView s := by
  unfold addRepair
  dsimp only
  split
  · rfl
  · exact ledView_writeMap _

/-- A unit that is retired changes nothing of the ledger. -/
theorem ledView_retireUnit (p cond : Nat) (s : State) : ledView (retireUnit p cond s) = ledView s := by
  unfold retireUnit
  extract_lets l s₁ s₂
  have e₁ : ledView s₁ = ledView s := ledView_addRepair _ s
  have e₂ : ledView s₂ = ledView s := e₁
  clear_value s₂
  split
  · exact e₂
  · rw [ledView_solo.raiseOpen]
    simpa only [ledView, setBoot, countBoot, setCond, mapUnit, setUnit] using e₂

theorem ledView_retireOwed (s : State) : ledView (retireOwed s) = ledView s :=
  foldl_same (fun s (x : Nat × Nat) => retireUnit x.1 x.2 s) ledView (fun s x => ledView_retireUnit x.1 x.2 s) _ _

theorem ledView_judgeUnit (n p : Nat) (s : State) : ledView (judgeUnit n p s) = ledView s := by
  unfold judgeUnit
  split
  · split
    · exact ledView_retireUnit ..
    · exact ledView_solo.raiseOpen ..
  · rfl

theorem ledView_judgeSlip (s : State) : ledView (judgeSlip s) = ledView s := by
  rw [judgeSlip_eq]
  exact foldl_same (fun t p => judgeUnit (slipRunOf s p) p t) ledView (fun t p => ledView_judgeUnit _ p t) _ _

theorem boundView_mapApplied (s : State) : boundView (mapApplied s) = boundView s := by
  unfold mapApplied
  extract_lets _ s₁ _ s₂
  have e₂ : boundView s₂ = boundView s := rfl
  clear_value s₂
  rw [← e₂]
  split
  · unfold mirrorService
    extract_lets ok s₃ s₄
    have e₄ : boundView s₄ = boundView s₃ := by
      unfold s₄
      split
      · exact boundView_solo.setPair ..
      · rfl
    exact e₄
  · rfl

theorem endJob_calm (h : LedgerCalm s₀ s) : LedgerCalm s₀ (endJob s) := writeMap_calm (harvStop_calm (openSnaps_calm (h.noJob rfl rfl)))

theorem endJob_idle (s : State) : jobRuns (endJob s) = false :=
  (writeMap_calm (harvStop_calm (openSnaps_calm (.refl _)))).idle rfl

theorem jobRuns_reportLost (s : State) : jobRuns (reportLost s) = false := by
  have led : (reportLost s).led = { s.led with st := .lost } := SentBlind.toCard (g := State.led) _ ⟨fun _ _ _ _ => rfl⟩ ..
  simp only [jobRuns, led]

theorem enterLost_calm (h : LedgerCalm s₀ s) : LedgerCalm s₀ (enterLost s) := by
  have lost := jobRuns_reportLost s
  have hr : LedgerCalm s₀ (reportLost s) := reportLost_calm h
  unfold enterLost
  generalize reportLost s = u at hr lost
  exact harvStop_calm (openSnaps_calm (hr.noJob rfl lost))

theorem latchReadings_calm (h : LedgerCalm s₀ s) : LedgerCalm s₀ (latchReadings s) := by
  unfold latchReadings
  extract_lets s₁ _ _ s₂ slip s₃
  have h₁ : LedgerCalm s₀ s₁ := .foldl (fun _ _ h => setLatch_calm (setLatch_calm h)) h
  have h₃ : LedgerCalm s₀ s₃ := setLatch_calm (setLatch_calm (setLatch_calm (setLatch_calm h₁)))
  clear_value s₃
  exact h₃.update rfl

theorem commitEvents_calm (h : LedgerCalm s₀ s) : LedgerCalm s₀ (commitEvents s) :=
  .when raiseOpen_calm (.when raiseOpen_calm (.when raiseOpen_calm h))

theorem commitLayers_calm (h : LedgerCalm s₀ s) : LedgerCalm s₀ (commitLayers s) := by
  unfold commitLayers
  dsimp only
  refine .foldl (fun s a h => ?_) h
  split
  exacts [h, (pokeDev_calm h).withTwin]

theorem partnerParts_calm {due : Part → Bool} (h : LedgerCalm s₀ s) : LedgerCalm s₀ (partnerParts due s) := .ite h (h.update rfl)

theorem commitTwin_calm {n : Nat} (h : LedgerCalm s₀ s) : LedgerCalm s₀ (commitTwin n s) := .ite (partnerParts_calm (h.update rfl)) h

theorem decide4_calm {n : Nat} {m : Measured} (h : LedgerCalm s₀ s) : LedgerCalm s₀ (decide4 n m s) := by
  unfold decide4
  extract_lets s₁ _ last s₂ next codes s₃ _ _ _ _ _ s₄ w
  have h₃ : LedgerCalm s₀ s₃ := sayCodes_calm (commitHeld_calm (commitLayers_calm (.foldl (fun _ _ => markMirror_calm) h)))
  clear_value s₃
  have h₄ : LedgerCalm s₀ s₄ := h₃.update rfl
  have hw : LedgerCalm s₀ w := writeMap_calm (moveOffAll_calm (retireOwed_calm (judgeSlip_calm (judgeSlow_calm h₄))))
  clear_value w
  exact clearReadings_calm (hw.update rfl)

theorem takeEarly_calm (h : LedgerCalm s₀ s) : LedgerCalm s₀ (takeEarly s) := by
  unfold takeEarly
  dsimp only
  split
  exacts [(h.update rfl), .ite (sendAbort_calm (h.update rfl)) (h.update rfl)]

/-! Where the ledger moves, each function that moves it by what it leaves (R286 to R289, R293). -/

/-- The ledger is set on a card that serves no mirror. -/
theorem runsNext_of_next (hr : s.led.running = s.led.committed + 1) (hm : s.keep.mirror = false) : RunsNext s :=
  ⟨fun _ => hr, fun h => absurd (hm.symm.trans h) (by decide)⟩

theorem runsNext_iff_of_runs (hj : jobRuns s = true) : RunsNext s ↔ s.led.running = s.led.committed + 1 ∧ s.keep.mirror = false := by
  refine ⟨fun h => ⟨h.1 hj, ?_⟩, fun h => runsNext_of_next h.1 h.2⟩
  cases hm : s.keep.mirror with
  | false => rfl
  | true => exact hj.symm.trans (h.2 hm)

theorem boundView_afterDecision (s : State) : boundView (afterDecision s) = boundView s := by
  have owed : boundView (retireOwed (judgeSlip s)) = boundView s :=
    (boundView_of_led (ledView_retireOwed _)).trans (boundView_of_led (ledView_judgeSlip s))
  unfold afterDecision
  generalize retireOwed (judgeSlip s) = u at owed
  have moved : Side u (moveOffAll u) := (Side.refl u).moveOffAll
  have written : boundView (writeMap (moveOffAll u)) = boundView u :=
    (boundView_of_led (ledView_writeMap _)).trans (by unfold boundView; rw [moved.led])
  generalize writeMap (moveOffAll u) = w at written
  exact Eq.trans rfl (written.trans owed)

theorem boundView_decide4 (n : Nat) (m : Measured) (s : State) : boundView (decide4 n m s) = boundView s := by
  obtain ⟨e, last, next, side, eq⟩ := decide4_eq n m s
  rw [eq, boundView_afterDecision, boundView, side.led]
  rfl

theorem Side.boundView (h : Side s t) : boundView t = Machine.boundView s := by unfold Machine.boundView; rw [h.led]

theorem boundView_latchStats (s : State) : boundView (latchStats s) = boundView s := rfl

theorem boundView_slotReleased (s : State) : boundView (slotReleased s) = boundView s := rfl

theorem commitStep_ledger (h : s.led.st = .ready) : LedgerStep s (commitStep s.led.running s) := by
  have hj : jobRuns s = true := by rw [jobRuns, h]
  unfold commitStep
  extract_lets m _ s₁ s₂ s₃ s₄ s₅ s₆ s₇
  -- the steps of the boundary leave what it wrote of the ledger
  have read : boundView s₂ = boundView s₁ := by
    have side : Side (latchStats s₁) s₂ := (Side.refl _).latchReadings.commitEvents
    rw [side.boundView, boundView_latchStats]
  have applied : boundView s₃ = boundView s₂ := (boundView_mapApplied _).trans (boundView_solo.applyParts _ s₂)
  have decided : boundView s₄ = boundView s₃ := ((Side.refl _).commitTwin).boundView.trans (boundView_decide4 _ m s₃)
  have ended : boundView s₆ = boundView s₄ := ((Side.refl s₄).openSnaps.harvAtCommit).boundView
  have told : boundView s₇ = boundView s₆ := (tellCommit_side s₆).boundView.trans (boundView_slotReleased s₆)
  have kept : boundView s₇ = (s.led.running, []) := told.trans (ended.trans (decided.trans (applied.trans read)))
  -- and the card is calm behind it
  have h₂ : LedgerCalm s₁ s₂ := commitEvents_calm (latchReadings_calm (latchStats_calm (.refl s₁)))
  have h₄ : LedgerCalm s₁ s₄ := commitTwin_calm (decide4_calm (mapApplied_calm (applyParts_calm h₂)))
  have h₇ : LedgerCalm s₁ s₇ := commitTpdos_calm (commitFlag_calm (ringRelease_calm (harvAtCommit_calm (openSnaps_calm h₄))))
  have mirror : ledView s₇ = ledView s₁ → s₇.keep.mirror = s.keep.mirror := fun e =>
    (mirror_of_led e : s₇.keep.mirror = s₁.keep.mirror)
  have await : s₇.dict.awaiting.Sublist s.dict.awaiting := h₇.await
  have sets : SetBounds s → SetBounds s₇ := h₇.sets
  have led := h₇.led
  clear_value s₇
  obtain ⟨committed, touched⟩ := Prod.mk.inj kept
  have ends : RunsNext s → s₇.keep.mirror = true → RunsNext s₇ := fun hr hm => by
    rcases led with e | e
    · exact absurd ((mirror e).symm.trans hm) (by rw [((runsNext_iff_of_runs hj).mp hr).2]; decide)
    · exact runsNext_idle e
  split
  next hm => exact ⟨sets, fewAwait_of_sublist await, fun hr _ => ends hr hm, fun _ => touchesInTurn_of_nil touched⟩
  next hm =>
  rw [Bool.not_eq_true] at hm
  split
  · have he : LedgerCalm s₇ (endJob s₇) := endJob_calm (.refl _)
    exact ⟨he.sets ∘ sets, fewAwait_of_sublist (he.await.trans await), fun _ _ => runsNext_idle (endJob_idle _),
      fun _ => touchesInTurn_idle (endJob_idle _)⟩
  · refine LedgerStep.calm ?_ (takeEarly_calm (.refl _))
    exact ⟨sets, fewAwait_of_sublist await, fun _ _ => runsNext_of_next (congrArg (· + 1) committed.symm) hm, fun _ => touchesInTurn_of_nil touched⟩

theorem retainInput_calm {n slot : Nat} (h : LedgerCalm s₀ s) : LedgerCalm s₀ (retainInput n slot s) := by
  unfold retainInput
  extract_lets p keep
  have hk {s d} (h : LedgerCalm s₀ s) : LedgerCalm s₀ (keep s d) := pondWrite_calm (fun _ h => (h.update rfl)) h
  refine .ite (hk h) ?_
  split
  · next e => exact hk ((readDev_calm h).out e)
  · exact reportAbort_calm (hk (readDev_calm h))

theorem setBounds_of_dict (e : t.dict = s.dict) : SetBounds s → SetBounds t := by simp only [SetBounds, e, imp_self]

theorem fewAwait_of_dict (e : t.dict = s.dict) : FewAwait s → FewAwait t := by simp only [FewAwait, gensAwaiting, e, imp_self]

theorem attemptCard_ledger {slot : Nat} {stop : Bool} (h : s.led.st = .opened ∧ s.led.waiting = true ∨ jobRuns s = false)
    (side : Side (attemptCard slot stop s) t) : LedgerStep s t := by
  have led : t.led = { attemptLed slot s with stopPend := stop } := side.led
  have dict : t.dict = s.dict := side.dict
  have mirror : t.keep.mirror = s.keep.mirror := side.mirror
  have hj : jobRuns t = jobRuns s := by rw [jobRuns, led]; rfl
  refine ⟨setBounds_of_dict dict, fewAwait_of_dict dict, fun hr _ => ?_, fun ht => ?_⟩
  · refine ⟨fun hjt => ?_, fun hm => hj.trans (hr.2 (mirror.symm.trans hm))⟩
    rw [led]
    exact hr.1 (hj.symm.trans hjt)
  · rcases h with ⟨ho, hw⟩ | idle
    · refine touchesInTurn_of_nil ?_
      rw [led]
      exact ht.1 ho hw
    · exact touchesInTurn_idle (hj.trans idle)

theorem openAttempt_ledger {slot : Nat} (h : s.led.st = .opened ∧ s.led.waiting = true ∨ jobRuns s = false) :
    LedgerStep s (openAttempt slot s) := by
  obtain ⟨stop, side⟩ := openAttempt_side slot s
  exact attemptCard_ledger h side

theorem stepOpen_ledger (ho : s.led.st = .opened) (hw : s.led.waiting = true) : LedgerStep s (stepOpen s) := by
  generalize hf : stepOpen = f
  delta stepOpen at hf
  subst hf
  beta_reduce
  refine .ite (LedgerCalm.toStep (.ite ((LedgerCalm.refl s).update rfl) (.refl s))) ?_
  split
  · exact LedgerCalm.toStep (.ite (.refl s) (raiseOpen_calm ((LedgerCalm.refl s).update rfl)))
  extract_lets due s₁ _ s₂ s₃
  have h₁ : LedgerCalm s s₁ := partnerParts_calm (mapApplied_calm (applyParts_calm (.refl s)))
  clear_value s₁
  have h₃ : LedgerCalm s s₃ := writeMap_calm (retireOwed_calm (.ite (h₁.update rfl) h₁))
  clear_value s₃
  refine .ite (cardFails_calm h₃).toStep (.ite h₃.toStep (LedgerStep.calm ?_ (recComplete_calm (.refl _))))
  refine LedgerCalm.step ?_ (openAttempt_ledger ?_)
  · exact h₃.update rfl
  refine h₃.led.imp (fun e => ?_) id
  have hst : s₃.led.st = s.led.st := congrArg (·.1) e
  have hwait : s₃.led.waiting = s.led.waiting := congrArg (·.2.2.2.1) e
  exact ⟨hst.trans ho, hwait.trans hw⟩

theorem takeAbort_ledger {step cause card layer action : Nat} (hj : jobRuns s = true) : LedgerStep s (takeAbort step cause card layer action s) := by
  unfold takeAbort
  extract_lets _ _ s₁ s₂ s₃ _ _ s₄ s₅
  have first : LedgerStep s s₁ := by
    refine .made (.refl s) rfl (fun hr _ => ?_) fun _ => ⟨fun e => (nomatch e), fun _ _ e => ?_⟩
    · exact runsNext_of_next ((runsNext_iff_of_runs hj).mp hr).1 ((runsNext_iff_of_runs hj).mp hr).2
    · rcases e with e | e | e <;> nomatch e
  clear_value s₁
  have h₃ : LedgerCalm s₁ s₃ := stopUnits_calm (dropStats_calm (raiseOpen_calm (.refl s₁)))
  clear_value s₃
  have h₄ : LedgerCalm s₁ s₄ := h₃.update rfl
  have h₅ : LedgerCalm s₁ s₅ := .when toTwin_calm h₄
  exact first.calm (.when cardDeclared_calm h₅)

/-- What the runs of steps show of the ledger. -/
def runView (s : State) : LState × Nat × Nat × Bool := (s.led.st, s.led.running, s.led.committed, s.keep.mirror)

theorem runView_solo : SoloBlind runView where
  raised _ _ _ _ _ _ _ _ _ _ _ := rfl
  twin _ _ := rfl
  applied _ _ _ _ _ := rfl

theorem Side.runView (h : Side s t) : runView t = Machine.runView s := by
  unfold Machine.runView
  rw [h.led, h.mirror]

theorem runView_slotReleased (s : State) : runView (slotReleased s) = runView s := rfl

theorem boundView_sent : SentBlind boundView := ⟨fun _ _ _ _ => rfl⟩

theorem runView_sent : SentBlind runView := ⟨fun _ _ _ _ => rfl⟩

theorem runView_mem : MemBlind runView := ⟨fun _ _ _ _ _ _ _ _ _ _ _ _ _ _ _ _ _ => rfl⟩

theorem jobRuns_of_runs (e : runView t = runView s) : jobRuns t = jobRuns s := by
  have hst : t.led.st = s.led.st := congrArg (·.1) e
  simp only [jobRuns, hst]

/-- A step is to be tried again: the running step is as it was. -/
theorem runsNext_again {u : State} (hj : jobRuns s = true) (e : runView u = runView s) (hr : t.led.running = u.led.running)
    (hc : t.led.committed = u.led.committed) (hm : t.keep.mirror = u.keep.mirror) (h : RunsNext s) : RunsNext t := by
  obtain ⟨run, mirror⟩ := (runsNext_iff_of_runs hj).mp h
  simp only [runView, Prod.mk.injEq] at e
  obtain ⟨-, erun, ecom, emir⟩ := e
  exact runsNext_of_next (by rw [hr, hc, erun, ecom, run]) (hm.trans (emir.trans mirror))

theorem finishAbort_ledger (hj : jobRuns s = true) : LedgerStep s (finishAbort s) := by
  unfold finishAbort
  extract_lets act lost _ s₁ s₂ _ _ s₃ r _ _ s₄
  have first : LedgerStep s s₁ := .made (.refl s) rfl (fun hr _ => hr) fun _ => touchesInTurn_of_nil rfl
  have h₁ : SetBounds s → SetBounds s₁ := id
  have w₁ : s₁.dict.awaiting = s.dict.awaiting := rfl
  have e₁ : runView s₁ = runView s := rfl
  have touched₁ : s₁.led.touched = [] := rfl
  clear_value s₁
  have h₂ : LedgerCalm s₁ s₂ := .ite (enterSolo_calm (.refl s₁)) (.refl s₁)
  have e₂ : runView s₂ = runView s₁ ∧ boundView s₂ = boundView s₁ := by
    unfold s₂
    split
    · exact ⟨runView_solo.enterSolo .., boundView_solo.enterSolo ..⟩
    · exact ⟨rfl, rfl⟩
  clear_value s₂
  refine .ite (first.calm (h₂.trans (endJob_calm ((LedgerCalm.refl s₂).update rfl)))) ?_
  have e₃ : runView s₃ = runView s₂ ∧ boundView s₃ = boundView s₂ := by
    unfold s₃
    split
    · split
      · exact ⟨(ringRelease_side s₂).runView.trans (runView_slotReleased s₂), (ringRelease_side s₂).boundView.trans (boundView_slotReleased s₂)⟩
      · exact ⟨rfl, rfl⟩
    · exact ⟨rfl, rfl⟩
  have h₃ : LedgerCalm s₁ s₃ :=
    h₂.trans (.ite (.ite (ringRelease_calm (.refl s₂)) (.refl s₂)) (setBoot_calm (setBoot_calm (countBoot_calm (.refl s₂)))))
  clear_value s₃
  have e : runView s₃ = runView s := e₃.1.trans (e₂.1.trans e₁)
  have touched : s₃.led.touched = [] := (congrArg (·.2) (e₃.2.trans e₂.2)).trans touched₁
  have again : LedgerStep s s₄ :=
    ⟨h₃.sets ∘ h₁, fewAwait_of_sublist (w₁ ▸ h₃.await), fun hr _ => runsNext_again hj e rfl rfl rfl hr, fun _ => touchesInTurn_of_nil touched⟩
  exact .ite (again.calm (sendAbort_calm (.refl s₄))) (again.calm (takeEarly_calm (.refl s₄)))

theorem beginRestore_ledger (hj : jobRuns s = true) : LedgerStep s (beginRestore s) := by
  unfold beginRestore
  extract_lets ks _ _ s₁
  have first : LedgerStep s s₁ := by
    refine .made (.refl s) rfl (fun hr _ => runsNext_again hj rfl rfl rfl rfl hr) fun _ => ⟨fun e => (nomatch e), fun _ _ e => ?_⟩
    rcases e with e | e | e <;> nomatch e
  clear_value s₁
  exact .ite (first.calm (.foldl (fun _ _ => pullLayer_calm) (.refl s₁))) first

/-- The sets of the dictionary keep their bounds, and the card is no spare that it was not. -/
structure SetsCalm (s t : State) : Prop where
  sets : SetBounds s → SetBounds t
  await : t.dict.awaiting.Sublist s.dict.awaiting
  joins : s.fab.joining = false → t.fab.joining = false

theorem SetsCalm.calm {u : State} (h : SetsCalm s t) (k : LedgerCalm t u) : SetsCalm s u := ⟨k.sets ∘ h.sets, k.await.trans h.await, k.joins ∘ h.joins⟩

/-- Damage in layers of an attempt that is given up is noted in the layers touched alone. -/
theorem handleDamage_sets (s : State) : SetsCalm s (handleDamage s) := by
  unfold handleDamage
  extract_lets lt bs _ s₁
  refine closed_foldl (P := SetsCalm s) (fun u b h => ?_) _ _ ⟨id, List.Sublist.refl _, id⟩
  extract_lets own _ u₁ u₂ u₃
  have h₁ : SetsCalm s u₁ := ⟨h.sets, h.await, h.joins⟩
  clear_value u₁
  have h₂ : LedgerCalm u₁ u₂ := .when (fun h => .foldl (fun _ _ => toTwin_calm) h) (.refl u₁)
  have h₃ : LedgerCalm u₁ u₃ := .foldl (fun _ _ h => by split; exacts [h, rebuildWork_calm h]) h₂
  exact h₁.calm (markMirror_calm h₃)

theorem runView_handleDamage (s : State) : runView (handleDamage s) = runView s := by
  unfold handleDamage
  extract_lets lt bs _ s₁
  refine (foldl_same _ runView (fun u b => ?_) bs s₁).trans rfl
  extract_lets own _ u₁ u₂ u₃
  have e₂ : runView u₂ = runView u₁ := by
    unfold u₂
    split
    · exact foldl_same _ runView (fun v r => runView_sent.toTwin ..) _ _
    · rfl
  have e₃ : runView u₃ = runView u₂ := foldl_same _ runView (fun v k => by split; exacts [rfl, runView_mem.rebuildWork ..]) _ _
  exact (Side.refl u₃).markMirror.runView.trans (e₃.trans e₂)

theorem runView_abortHeld (s : State) : runView (abortHeld s) = runView s := (Side.refl s).mapHelds.runView

theorem enginesStopped_ledger (h : s.led.st = .aborting) : LedgerStep s (enginesStopped s) := by
  have hj : jobRuns s = true := by rw [jobRuns, h]
  unfold enginesStopped
  extract_lets idle _ _ _ s₁ s₂
  have h₁ : LedgerCalm s s₁ := (dropStats_calm (.refl s)).update rfl
  have e₁ : runView s₁ = runView s := rfl
  clear_value s₁
  have sets : SetsCalm s s₂ := by
    have held : LedgerCalm s (abortHeld s₁) := h₁.trans (abortHeld_calm (.refl s₁))
    have damage := handleDamage_sets (abortHeld s₁)
    exact ⟨damage.sets ∘ held.sets, damage.await.trans held.await, damage.joins ∘ held.joins⟩
  have e₂ : runView s₂ = runView s := (runView_handleDamage _).trans ((runView_abortHeld s₁).trans e₁)
  clear_value s₂
  have st : s₂.led.st = .aborting := (congrArg (·.1) e₂ : s₂.led.st = s.led.st).trans h
  have hj₂ : jobRuns s₂ = true := (jobRuns_of_runs e₂).trans hj
  have step : LedgerStep s s₂ := by
    refine ⟨sets.sets, fewAwait_of_sublist sets.await, fun hr _ => runsNext_again hj e₂ rfl rfl rfl hr, fun _ => ⟨fun e => ?_, fun _ _ e => ?_⟩⟩
    · exact absurd (st.symm.trans e) (by decide)
    · rw [st] at e
      rcases e with e | e | e <;> nomatch e
  refine .ite (step.calm (enterLost_calm (.refl s₂))) (.ite (step.trans sets.joins (finishAbort_ledger hj₂))
    (.ite (step.trans sets.joins (beginRestore_ledger hj₂)) (step.calm (enterLost_calm (.refl s₂)))))

theorem holdApply_calm {step att : Nat} (h : LedgerCalm s₀ s) : LedgerCalm s₀ (holdApply step att s) :=
  .ite (toCards_calm (h.update rfl)) h

theorem takeReady_calm {card step att : Nat} (h : LedgerCalm s₀ s) : LedgerCalm s₀ (takeReady card step att s) :=
  .ite h (.when (fun h => toCards_calm (h.update rfl)) (holdApply_calm (.ite h (h.update rfl))))

theorem takeNorm_calm {card step att sumA : Nat} {l : Int} {hold : Bool} (h : LedgerCalm s₀ s) :
    LedgerCalm s₀ (takeNorm card step att sumA l hold s) :=
  .ite h (.ite (.when (fun h => toCards_calm ((maxRun_calm h).update rfl)) (.ite h (h.update rfl))) (holdApply_calm (.ite h (h.update rfl))))

theorem takeReport_calm {step att cause card layer : Nat} {lost : Bool} (h : LedgerCalm s₀ s) :
    LedgerCalm s₀ (takeReport step att cause card layer lost s) := by
  unfold takeReport
  refine .ite h (.ite (h.update rfl) (.ite h ?_))
  extract_lets _ s₁ late
  have h₁ : LedgerCalm s₀ s₁ := .ite (recLost_calm (h.update rfl)) h
  exact .ite (sendAbort_calm h₁) (.when sendAbort_calm h₁)

theorem badEdge_calm {child : Nat} (h : LedgerCalm s₀ s) : LedgerCalm s₀ (badEdge child s) := h.update rfl

theorem answerEdge_calm {e : Nat × Nat × Nat} (h : LedgerCalm s₀ s) : LedgerCalm s₀ (answerEdge e s) :=
  .ite h (toCard_calm (toCard_calm h))

theorem arriveStart_calm (h : LedgerCalm s₀ s) : LedgerCalm s₀ (arriveStart s) := .ite (toCard_calm (h.update rfl)) h

/-- What `f` does behind a message that a card hears. -/
theorem hear_ledger {hd : TpHdr} {kind : Nat} {f : State → State} (hf : ∀ s, LedgerCalm s₀ s → LedgerStep s₀ (f s)) (h : LedgerCalm s₀ s) :
    LedgerStep s₀ (hear hd kind f s) :=
  .ite (hf _ (noteSeen_calm h)) h.toStep

theorem serve_ledger {a : Access} {idx sub : Nat} {f : State → State} (hf : ∀ s, LedgerCalm s₀ s → LedgerStep s₀ (f s))
    (h : LedgerCalm s₀ s) : LedgerStep s₀ (serve a idx sub f s) :=
  .ite (.ite (hf _ h) (refuse_calm h).toStep) h.toStep

theorem actWrite_ledger {a : Access} {idx sub : Nat} {f : State → State} (hf : ∀ s, LedgerCalm s₀ s → LedgerStep s₀ (f s))
    (h : LedgerCalm s₀ s) : LedgerStep s₀ (actWrite a idx sub f s) :=
  serve_ledger (fun _ h => .ite (refuse_calm h).toStep (.ite (wake_calm (refuse_calm h)).toStep (hf _ h))) h

theorem startJob_ledger : LedgerStep s (startJob s) := by
  unfold startJob
  extract_lets n s₁ s₂ g _ r _ _ _ _ _ s₃ s₄ s₅
  have h₁ : LedgerCalm s s₁ := partnerParts_calm (mapApplied_calm (applyParts_calm (.refl s)))
  have e₁ : boundView s₁ = boundView s :=
    (Side.refl _).partnerParts.boundView.trans ((boundView_mapApplied _).trans (boundView_solo.applyParts _ s))
  clear_value s₁
  split
  · exact h₁.toStep
  next hm =>
  have h₂ : LedgerCalm s s₂ := writeMap_calm (retireOwed_calm h₁)
  have led₂ : ledView s₂ = ledView s₁ := (ledView_writeMap _).trans (ledView_retireOwed s₁)
  have committed : s₂.led.committed = s.led.committed := congrArg (·.1) ((boundView_of_led led₂).trans e₁)
  have mirror : s₂.keep.mirror = false := (mirror_of_led led₂).trans (Bool.not_eq_true _ ▸ hm)
  clear_value s₂
  have begun : LedgerStep s s₃ :=
    ⟨h₂.sets, fewAwait_of_sublist h₂.await, fun _ _ => runsNext_of_next (congrArg (· + 1) committed.symm) mirror, fun _ => touchesInTurn_of_nil rfl⟩
  clear_value s₃
  have h₄ : LedgerCalm s₃ s₄ := .ite (enterSolo_calm (.refl s₃)) (.refl s₃)
  have h₅ : LedgerCalm s₃ s₅ := .foldl (fun _ _ => toCard_calm) h₄
  exact begun.calm (arriveStart_calm (.foldl (fun _ _ => answerEdge_calm) h₅))

theorem execCommitMessage_ledger {hd : TpHdr} {n : BitVec 64} {att : Nat} (h : LedgerCalm s₀ s) : LedgerAnswers s₀ (execCommitMessage hd n att s) := by
  refine .steps (hear_ledger (fun s h => ?_) h)
  split
  next hc => exact h.step (commitStep_ledger hc.1)
  next => exact h.toStep

theorem execStepOpen_ledger (h : LedgerCalm s₀ s) : LedgerAnswers s₀ (execStepOpen s) := by
  unfold execStepOpen
  split
  next hc => exact .steps (h.step (stepOpen_ledger hc.2.1 hc.1))
  next => exact .next h

theorem jobRuns_of_open (h : s.led.st = .opened ∨ s.led.st = .updating ∨ s.led.st = .ready) : jobRuns s = true := by
  rcases h with h | h | h <;> rw [jobRuns, h]

theorem execAbortMessage_ledger {hd : TpHdr} {n : BitVec 64} {att : Nat} {cause : BitVec 8} {card layer : BitVec 16} {act : BitVec 8}
    (h : LedgerCalm s₀ s) : LedgerAnswers s₀ (execAbortMessage hd n att cause card layer act s) := by
  refine .steps (hear_ledger (fun s h => ?_) h)
  dsimp only
  split
  next hc =>
    simp only [Bool.and_eq_true, Bool.or_eq_true, decide_eq_true_eq] at hc
    exact h.step (takeAbort_ledger (jobRuns_of_open (or_assoc.mp hc.1.1)))
  next => exact h.toStep

theorem execEnginesStopped_ledger (h : LedgerCalm s₀ s) : LedgerAnswers s₀ (execEnginesStopped s) := by
  unfold execEnginesStopped
  split
  next hc => exact .steps (h.step (enginesStopped_ledger hc))
  next => exact .next h

/-- The message apply(N) lets a deferred step touch its layers. -/
theorem execApplyMessage_ledger {hd : TpHdr} {n : BitVec 64} {att : Nat} {cs : W32} (h : LedgerCalm s₀ s) :
    LedgerAnswers s₀ (execApplyMessage hd n att cs s) := by
  refine .steps (hear_ledger (fun s h => ?_) h)
  split
  · exact h.step (.made (.refl s) rfl (fun hr _ => hr) fun ht => ⟨ht.1, fun _ ha => nomatch ha⟩)
  · exact h.toStep

/-- A card that reports ready is one whose engines run. -/
theorem readied_ledger (h : enginesRun s = true) : LedgerStep s { s with led := { s.led with st := .ready } } := by
  simp only [enginesRun, Bool.and_eq_true, Bool.or_eq_true, decide_eq_true_eq] at h
  obtain ⟨⟨ho, -⟩, -⟩ := h
  have hj : jobRuns s = true := jobRuns_of_open (ho.imp_right .inl)
  refine .made (.refl s) rfl (fun hr _ => runsNext_again hj rfl rfl rfl rfl hr) fun ht => ⟨fun e => (nomatch e), fun hm ha _ => ?_⟩
  exact ht.2 hm ha (ho.imp_right .inl)

theorem execCardReady_ledger (h : LedgerCalm s₀ s) : LedgerAnswers s₀ (execCardReady s) := by
  unfold execCardReady
  refine .steps ?_
  extract_lets go
  have hgo (hr : enginesRun s = true) : LedgerStep s₀ (go s) := h.step ((readied_ledger hr).calm (toCard_calm (.refl _)))
  split
  · exact h.toStep
  next hr =>
  have hr : enginesRun s = true := by
    simp only [isReady, Bool.not_eq_true, Bool.not_eq_false', Bool.and_eq_true] at hr
    exact hr.1.1.1.1
  split
  · split
    · exact h.toStep
    split
    · exact hgo hr
    split
    · exact h.toStep
    split
    · next e => exact LedgerCalm.toStep ((readRanges_calm h).fst e)
    · next e => exact LedgerCalm.toStep (toTwin_calm (LedgerCalm.withTwin ((readRanges_calm h).fst e)))
  · exact hgo hr

theorem jobWrite_calm {a : Access} {sub : Nat} {v : BitVec 8} {f : State → State} (hf : ∀ s, LedgerCalm s₀ s → LedgerCalm s₀ (f s))
    (h : LedgerCalm s₀ s) :
    LedgerCalm s₀ (jobWrite a sub v f s) :=
  .ite (actWrite_calm (fun _ => hf _) h) (.ite (refuse_calm h) h)

theorem jobWrite_ledger {a : Access} {sub : Nat} {v : BitVec 8} {f : State → State} (hf : ∀ s, LedgerCalm s₀ s → LedgerStep s₀ (f s))
    (h : LedgerCalm s₀ s) : LedgerStep s₀ (jobWrite a sub v f s) :=
  .ite (actWrite_ledger (fun _ => hf _) h) (LedgerCalm.toStep (.ite (refuse_calm h) h))

theorem execStartJob_calm {a : Access} {v : BitVec 8} (h : LedgerCalm s₀ s) : LedgerAnswers s₀ (execStartJob a v s) :=
  .steps (jobWrite_ledger (fun _ h => .ite (h.step (startJob_ledger.calm (reply_calm (.refl _)))) (refuse_calm h).toStep) h)

theorem execStopJob_calm {a : Access} {v : BitVec 8} (h : LedgerCalm s₀ s) : LedgerAnswers s₀ (execStopJob a v s) :=
  .next (jobWrite_calm (fun _ h => .ite (reply_calm (h.update rfl)) (refuse_calm h)) h)

/-! ### Gates -/

theorem setGate_calm {k : Nat} {g : GateSt} (h : LedgerCalm s₀ s) : LedgerCalm s₀ (setGate k g s) := h.update rfl

theorem readLoss_calm (h : LedgerCalm s₀ s) : LedgerCalm s₀ (readLoss s) := by
  generalize hf : readLoss = f
  delta readLoss at hf
  subst hf
  beta_reduce
  split
  · next e =>
    have h := (readDev_calm h).out e
    exact .unless reportAbort_calm (h.update rfl)
  · next e => exact engineFails_calm ((readDev_calm h).out e)
  · next e => exact engineFails_calm ((readDev_calm h).out e)

theorem cardGateOpens_calm {num phase : Nat} (h : LedgerCalm s₀ s) : LedgerCalm s₀ (cardGateOpens num phase s) := by
  unfold cardGateOpens
  extract_lets lt s₁ ks s₂
  have h₁ : LedgerCalm s₀ s₁ := .ite (readLoss_calm h) h
  have h₂ : LedgerCalm s₀ s₂ := by
    unfold s₂
    split
    exacts [h₁, setLayerRun_calm h₁]
  exact .when nextSlot_calm h₂

theorem openGate_calm {k : Nat} {d : GateDef} (h : LedgerCalm s₀ s) : LedgerCalm s₀ (openGate k d s) :=
  .when cardGateOpens_calm (setGate_calm h)

theorem releaseGate_calm {k home num : Nat} {d : Option GateDef} (h : LedgerCalm s₀ s) :
    LedgerCalm s₀ (releaseGate k home num d s) := by
  unfold releaseGate
  dsimp only
  split
  · exact openGate_calm (.foldl (fun _ _ => toCardId_calm) h)
  · exact setGate_calm (.foldl (fun _ _ => toCardId_calm) h)

theorem systemGate_calm {home num : Nat} (h : LedgerCalm s₀ s) : LedgerCalm s₀ (systemGate home num s) := by
  unfold systemGate
  extract_lets k g d own
  refine .ite h (.ite ?_ (.ite (.ite (releaseGate_calm h) h) (toCard_calm (setGate_calm h))))
  split
  · exact h
  refine .ite (.ite (releaseGate_calm h) ?_) h
  split
  exacts [h, toCardId_calm (setGate_calm h)]

theorem arrive_calm {l : Nat} {d : GateDef} (h : LedgerCalm s₀ s) : LedgerCalm s₀ (arrive l d s) := by
  unfold arrive
  extract_lets k g g' s₁
  have h₁ : LedgerCalm s₀ s₁ := setGate_calm h
  clear_value s₁
  exact .ite (.ite (systemGate_calm h₁) (openGate_calm h₁)) h₁

theorem startGateOpens_calm {differs : Option Nat} (h : LedgerCalm s₀ s) : LedgerCalm s₀ (startGateOpens differs s) := by
  unfold startGateOpens
  dsimp only
  split
  · exact h
  · split
    exacts [(h.update rfl), endJob_calm (h.update rfl)]

theorem startArrival_calm {card sysid cards committed : Nat} {bad : Option Nat} (h : LedgerCalm s₀ s) :
    LedgerCalm s₀ (startArrival card sysid cards committed bad s) := by
  unfold startArrival
  refine .ite h ?_
  extract_lets +onlyGivenNames s₁ xs live
  have h₁ : LedgerCalm s₀ s₁ := by
    unfold s₁
    split
    exacts [h, badEdge_calm h]
  exact .ite (toCards_calm (h₁.update rfl)) (h₁.update rfl)

theorem opGarr_calm {g l : Nat} {p : Nat} (h : LedgerCalm s₀ s) : OpRes.Calm s₀ (opGarr g l p s) :=
  .ite .wait (.ok (arrive_calm h))

theorem opGwait_calm {g l : Nat} {p : Nat} (h : LedgerCalm s₀ s) : OpRes.Calm s₀ (opGwait g l p s) := .ite (.ok h) .wait

theorem opGsync_calm {g l : Nat} {p : Nat} (h : LedgerCalm s₀ s) : OpRes.Calm s₀ (opGsync g l p s) :=
  .ite (.ite (.ok h) (.arrived h)) (.ite .wait (.ite (.ok (arrive_calm h)) (.arrived (arrive_calm h))))

theorem gateArrived_calm {src : BitVec 14} {g : GateMsg} (h : LedgerCalm s₀ s) : LedgerCalm s₀ (gateArrived src g s) := by
  unfold gateArrived
  dsimp only
  split
  · exact systemGate_calm (setGate_calm h)
  · split
    exacts [h, startArrival_calm h]
  · exact h

theorem gateReleased_calm {g : GateMsg} (h : LedgerCalm s₀ s) : LedgerCalm s₀ (gateReleased g s) := by
  unfold gateReleased
  dsimp only
  split
  exacts [.ite (releaseGate_calm h) h, startGateOpens_calm h, h]

theorem gateMessage_calm {e : GateEv} {f : State → State} (hf : ∀ s, LedgerCalm s₀ s → LedgerCalm s₀ (f s)) (h : LedgerCalm s₀ s) :
    LedgerCalm s₀ (gateMessage e f s) :=
  .ite (h.update rfl) (hf _ h)

/-! ### Reduction -/

theorem redBusy_calm {p cycles : Nat} (h : LedgerCalm s₀ s) : LedgerCalm s₀ (redBusy p cycles s) := countRun_calm h

theorem redAll_calm {f : RRec → List (Num × Bool) → Eng → Eng} {w : List Nat} {p : Nat} (h : LedgerCalm s₀ s) :
    OpRes.Calm s₀ (redAll f w p s) := by
  unfold redAll
  dsimp only
  split
  · exact .fault
  split
  · exact .wait
  · split
    exacts [.wait, .fault, .ok (redBusy_calm (setUnit_calm h))]

theorem redSeg_calm {outF : RRec → Nat} {f : RRec → List (Num × Bool) → Nat × Tally} {w : List Nat} {p : Nat}
    (h : LedgerCalm s₀ s) :
    OpRes.Calm s₀ (redSeg outF f w p s) := by
  unfold redSeg
  dsimp only
  split
  · exact .fault
  split
  · exact .wait
  split
  · exact .wait
  · exact .fault
  · exact .fault
  · split
    exacts [.wait, .fault, .ok (redBusy_calm (chargeTally_calm (setUnit_calm h)))]

theorem redAddRaw_calm {w : List Nat} {p : Nat} (h : LedgerCalm s₀ s) : OpRes.Calm s₀ (redAddRaw w p s) := by
  unfold redAddRaw
  dsimp only
  split
  · split
    · exact .wait
    · split
      exacts [.wait, .fault, .ok (redBusy_calm (setUnit_calm h))]
  · exact .fault

theorem redRrd_calm {w : List Nat} {p : Nat} (h : LedgerCalm s₀ s) : OpRes.Calm s₀ (redRrd w p s) := by
  unfold redRrd
  dsimp only
  split
  · split
    · exact .fault
    split
    · exact .wait
    · split
      exacts [.wait, .fault, .ok (redBusy_calm (chargeTally_calm (setUnit_calm h)))]
  · exact .fault

theorem redClr_calm {w : List Nat} {p : Nat} (h : LedgerCalm s₀ s) : OpRes.Calm s₀ (redClr w p s) := by
  unfold redClr
  dsimp only
  split
  · exact .fault
  · split
    exacts [.wait, .ok (redBusy_calm (setUnit_calm h))]

theorem redTag_calm {w : List Nat} {p : Nat} (h : LedgerCalm s₀ s) : OpRes.Calm s₀ (redTag w p s) := by
  unfold redTag
  dsimp only
  split
  · exact .fault
  · split
    exacts [.wait, .ok (redBusy_calm (setUnit_calm h))]

/-! ### Sequencer -/

theorem countTiming_calm {p : Nat} {t : UnitTiming} (h : LedgerCalm s₀ s) : LedgerCalm s₀ (countTiming p t s) := by
  unfold countTiming
  extract_lets k s₁ s₂ active _ s₃ s₄ s₅ s₆
  have h₂ : LedgerCalm s₀ s₂ := countBoot_calm (countBoot_calm (countBoot_calm (countBoot_calm h)))
  clear_value s₂
  have h₃ : LedgerCalm s₀ s₃ := countRun_calm (h₂.update rfl)
  have h₄ : LedgerCalm s₀ s₄ := countRun_calm (countRun_calm (countRun_calm h₃))
  have h₅ : LedgerCalm s₀ s₅ := countRun_calm (countRun_calm (countRun_calm (countRun_calm h₄)))
  have h₆ : LedgerCalm s₀ s₆ := countRun_calm (countRun_calm (countRun_calm h₅))
  exact countRun_calm (countRun_calm (countRun_calm h₆))

theorem opBcnz_calm {l target : Nat} {p : Nat} (h : LedgerCalm s₀ s) : OpRes.Calm s₀ (opBcnz l target p s) := onUnit_calm h

theorem opIlen_calm {u0 : UnitSt} {r ch : Nat} {p : Nat} (h : LedgerCalm s₀ s) : OpRes.Calm s₀ (opIlen u0 r ch p s) :=
  .ite (.ok (modUnit_calm h)) .wait

theorem opBcond_calm {u0 : UnitSt} {c : Cond} {target : Nat} {invert : Bool} {p : Nat} (h : LedgerCalm s₀ s) :
    OpRes.Calm s₀ (opBcond u0 c target invert p s) := by
  unfold opBcond
  split
  exacts [.wait, .ok (.ite (modUnit_calm h) h)]

theorem opSrecv_calm {core : Nat} {r : CtlReg} {p : Nat} (h : LedgerCalm s₀ s) : OpRes.Calm s₀ (opSrecv core r p s) := by
  unfold opSrecv
  dsimp only
  split
  · exact .wait
  · split
    exacts [.wait, .ok (drainOut_calm (modUnit_calm (setCore_calm (drainOut_calm h))))]

theorem opSsend_calm {core : Nat} {r : CtlReg} {p : Nat} (h : LedgerCalm s₀ s) : OpRes.Calm s₀ (opSsend core r p s) :=
  .ite .wait (.ok (setCore_calm h))

theorem opBwait_calm {u0 : UnitSt} {p : Nat} (h : LedgerCalm s₀ s) : OpRes.Calm s₀ (opBwait u0 p s) := .ite (.ok h) .wait

theorem opNap_calm {array vec : Bool} {p : Nat} (h : LedgerCalm s₀ s) : OpRes.Calm s₀ (opNap array vec p s) :=
  .ok (countRun_calm (modUnit_calm h))

theorem opStepend_calm {t : UnitTiming} {p : Nat} (h : LedgerCalm s₀ s) : OpRes.Calm s₀ (opStepend t p s) :=
  .ite (.ok (countTiming_calm (modUnit_calm h))) .wait

theorem execSequencerWatchdog_calm {unit : Fin 64} (h : LedgerCalm s₀ s) : LedgerAnswers s₀ (execSequencerWatchdog unit s) := by
  unfold execSequencerWatchdog
  refine .next ?_
  split
  exacts [h, .ite (unitFaultAt_calm h) h]

theorem execGateLimitExpiry_calm {unit : Fin 64} (h : LedgerCalm s₀ s) : LedgerAnswers s₀ (execGateLimitExpiry unit s) := by
  unfold execGateLimitExpiry
  refine .next ?_
  split
  exacts [h, .ite (unitFaultAt_calm h) h]

/-! ### Plan -/

theorem freshBarge_calm {e : PlaceEnt} {b : Nat} (h : LedgerCalm s₀ s) : LedgerCalm s₀ (freshBarge e s b) := by
  unfold freshBarge
  dsimp only
  split
  · split
    exacts [h, setBarge_calm (tookResv_calm h)]
  · split
    exacts [h, setBarge_calm h]

theorem placeBarges_calm {ps : List PlaceEnt} (h : LedgerCalm s₀ s) : LedgerCalm s₀ (placeBarges ps s) :=
  .foldl (fun _ _ h => .ite h (.foldl (fun _ _ => freshBarge_calm) h)) (h.update rfl)

theorem initHeld_calm {p : PlanSt} (h : LedgerCalm s₀ s) : LedgerCalm s₀ (initHeld p s) :=
  .foldl (fun _ _ h => .ite h (pokeDev_calm h)) h

theorem enterPlan_calm {area : Nat} {p : PlanSt} (h : LedgerCalm s₀ s) : LedgerCalm s₀ (enterPlan area p s) := by
  unfold enterPlan
  extract_lets other s₁ s₂ s₃
  have h₂ : LedgerCalm s₀ s₂ := setArea_calm (.ite (setArea_calm h) h)
  clear_value s₂
  exact h₂.noJob rfl rfl

theorem pumpAll_calm (h : LedgerCalm s₀ s) : LedgerCalm s₀ (pumpAll s) := .foldl (fun _ _ => pumpQueue_calm) h

theorem pairForPlan_calm (h : LedgerCalm s₀ s) : LedgerCalm s₀ (pairForPlan s) := setPair_calm h

theorem activated_calm {area : Nat} (h : LedgerCalm s₀ s) : LedgerCalm s₀ (activated area s) :=
  pairForPlan_calm (applyPlanParts_calm (countBoot_calm (initHeld_calm (pumpAll_calm (placeBarges_calm
    (enterPlan_calm (loadUnits_calm h)))))))

theorem planResult_calm {area : Nat} {e : PlanErr} (h : LedgerCalm s₀ s) : LedgerCalm s₀ (planResult area e s) :=
  raiseOpen_calm (h.update rfl)

theorem checkRead_calm {area : Nat} {e : PlanErr} (h : LedgerCalm s₀ s) : LedgerCalm s₀ (checkRead area e s) := by
  unfold checkRead
  split
  exacts [h, failRequest_calm h]

theorem activationDone_calm {area : Nat} (h : LedgerCalm s₀ s) : LedgerCalm s₀ (activationDone area s) := by
  generalize hf : activationDone = f
  delta activationDone at hf
  subst hf
  beta_reduce
  extract_lets s₁
  have h₁ : LedgerCalm s₀ s₁ := .ite (writeMap_calm (retireOwed_calm h)) h
  split
  · exact planResult_calm (setArea_calm (checkRead_calm h₁))
  · exact planResult_calm (activated_calm h₁)

/-- A released plan leaves no job. -/
theorem releasePlan_idles (h : LedgerCalm s₀ s) : LedgerCalm s₀ (releasePlan s) ∧ jobRuns (releasePlan s) = false := by
  unfold releasePlan
  extract_lets gone s₁ _ _ _ _ s₂ s₃
  have h₁ : LedgerCalm s₀ s₁ := by
    unfold s₁
    split
    exacts [h, setArea_calm h]
  clear_value s₁
  have h₂ : LedgerCalm s₀ s₂ := h₁.trans ⟨id, List.filter_sublist, id, .inr rfl⟩
  have off : jobRuns s₂ = false := rfl
  clear_value s₂
  have rest : LedgerCalm s₂ (applyIdleParts (harvStop (setPair .none 0 (unitsOff s₃)))) :=
    applyIdleParts_calm (harvStop_calm (setPair_calm (unitsOff_calm (.foldl (fun _ _ => raiseOpen_calm) (.refl s₂)))))
  exact ⟨h₂.trans rest, rest.idle off⟩

theorem releasePlan_calm (h : LedgerCalm s₀ s) : LedgerCalm s₀ (releasePlan s) := (releasePlan_idles h).1

theorem startCheck_calm {area : Nat} (h : LedgerCalm s₀ s) : LedgerCalm s₀ (startCheck area s) := (setArea_calm h).update rfl

theorem execActivate_calm {a : Access} {area : BitVec 8} (h : LedgerCalm s₀ s) : LedgerAnswers s₀ (execActivate a area s) :=
  .next (actWrite_calm (fun _ h => .ite (refuse_calm h) (.ite (reply_calm (startCheck_calm h)) (refuse_calm h))) h)

theorem execActivationDone_calm (h : LedgerCalm s₀ s) : LedgerAnswers s₀ (execActivationDone s) := by
  unfold execActivationDone
  refine .next ?_
  split
  exacts [h, activationDone_calm h]

theorem execRelease_calm {a : Access} {v : BitVec 8} (h : LedgerCalm s₀ s) : LedgerAnswers s₀ (execRelease a v s) :=
  .next (actWrite_calm (fun _ h => .ite (refuse_calm h) (.ite (reply_calm (releasePlan_calm h)) (refuse_calm h))) h)

/-! ### Stored -/

theorem putStored_calm {vals : Sparse (Option Bytes)} (h : LedgerCalm s₀ s) : LedgerCalm s₀ (putStored vals s) :=
  send_calm (h.update rfl)

theorem finishStore_calm (h : LedgerCalm s₀ s) : LedgerCalm s₀ (finishStore s) := by
  unfold finishStore
  dsimp only
  split
  exacts [h, reply_calm (putStored_calm (h.update rfl))]

theorem loadEntry_calm {e : Nat × Nat} (h : LedgerCalm s₀ s) : LedgerCalm s₀ (loadEntry e s) := h.update rfl

theorem defaultGroup_calm {k : Nat} (h : LedgerCalm s₀ s) : LedgerCalm s₀ (defaultGroup k s) :=
  .ite h (raiseOpen_calm (enterError_calm (h.update rfl)))

theorem loadStored_calm {es : List (Nat × Nat)} (h : LedgerCalm s₀ s) : LedgerCalm s₀ (loadStored es s) :=
  topologyApplies_calm (.foldl (fun _ _ => defaultGroup_calm) (.foldl (fun _ _ => loadEntry_calm) h))

theorem nextGen_ne_zero (n : Nat) : BitVec.ofNat 32 (nextGen n) ≠ 0 := by
  intro e
  have e' := congrArg BitVec.toNat e
  rw [BitVec.toNat_ofNat] at e'
  unfold nextGen at e'
  have zero : (0 : BitVec 32).toNat = 0 := rfl
  split at e' <;> omega

theorem setBounds_empty (hg : t.dict.gen ≠ 0) (hp : t.dict.pset = []) : SetBounds t := by
  refine ⟨hg, ?_, ?_⟩ <;> simp [hp]

theorem clearPending_calm (h : LedgerCalm s₀ s) : LedgerCalm s₀ (clearPending s) :=
  h.trans ⟨fun _ => setBounds_empty (nextGen_ne_zero _) rfl, List.Sublist.refl _, id, .inl rfl⟩

theorem writeHeader_calm (h : LedgerCalm s₀ s) : LedgerCalm s₀ (writeHeader s) := send_calm (h.update rfl)

/-! ### Power -/

theorem portsDown_calm (h : LedgerCalm s₀ s) : LedgerCalm s₀ (portsDown s) := h.update rfl

theorem domainsOff_calm (h : LedgerCalm s₀ s) : LedgerCalm s₀ (domainsOff s) := by
  have hp : LedgerCalm s₀ (portsDown s) := portsDown_calm h
  unfold domainsOff
  generalize portsDown s = u at hp
  exact hp.trans ⟨id, List.Sublist.refl _, fun _ => rfl, .inr rfl⟩

/-- An empty dictionary keeps its bounds. -/
theorem LedgerCalm.fresh (h : LedgerCalm s₀ s) (hg : t.dict.gen = 1) (hp : t.dict.pset = [])
    (ha : t.dict.awaiting = []) (hf : t.fab.joining = s.fab.joining) (hj : jobRuns t = false) : LedgerCalm s₀ t :=
  h.trans ⟨fun _ => setBounds_empty (hg ▸ by decide) hp, ha ▸ List.nil_sublist _, hf.trans, .inr hj⟩

theorem jobRuns_domainsOff (s : State) : jobRuns (domainsOff s) = false := rfl

theorem startBoot_calm (h : LedgerCalm s₀ s) : LedgerCalm s₀ (startBoot s) := by
  have hd : LedgerCalm s₀ (domainsOff s) := domainsOff_calm h
  have off := jobRuns_domainsOff s
  unfold startBoot
  generalize domainsOff s = u at hd off
  exact hd.fresh rfl rfl rfl rfl off

theorem forceDrop_calm {d typ detail : Nat} (h : LedgerCalm s₀ s) : LedgerCalm s₀ (forceDrop d typ detail s) :=
  .ite h (raiseOpen_calm (countBoot_calm (countBoot_calm (countRun_calm (h.update rfl)))))

theorem trip_calm {source reading : Nat} (h : LedgerCalm s₀ s) : LedgerCalm s₀ (trip source reading s) := by
  unfold trip
  refine .ite h ?_
  extract_lets _ s₁ s₂ s₃
  have h₁ : LedgerCalm s₀ s₁ := raiseOpen_calm (h.update rfl)
  clear_value s₁
  have h₃ : LedgerCalm s₀ s₃ := enterError_calm (domainsOff_calm (.when toCard_calm h₁))
  clear_value s₃
  exact h₃.update rfl

theorem forceRefresh_calm {k v : Nat} (h : LedgerCalm s₀ s) : LedgerCalm s₀ (forceRefresh k v s) :=
  .ite h (.when (.update · rfl) (countBoot_calm (h.update rfl)))

theorem takeSample_calm {x : Sensor} {v : Nat} (h : LedgerCalm s₀ s) : LedgerCalm s₀ (takeSample x v s) := by
  unfold takeSample
  split
  · extract_lets _ s₁
    have h₁ : LedgerCalm s₀ s₁ := h.update rfl
    exact .ite (trip_calm h₁) (.when forceDrop_calm h₁)
  · exact .when forceDrop_calm (forceRefresh_calm (h.update rfl))
  · exact .when trip_calm (h.update rfl)

theorem coolant_calm {inlet : Nat} (h : LedgerCalm s₀ s) : LedgerCalm s₀ (coolant inlet s) :=
  .ite (h.update rfl) (raiseOpen_calm (h.update rfl))

theorem sampleAll_ledgerCalm {r : Readings} (h : LedgerCalm s₀ s) : LedgerCalm s₀ (sampleAll r s) := by
  unfold sampleAll
  extract_lets s₁ s₂ s₃
  have h₁ : LedgerCalm s₀ s₁ := .foldl (fun s a h => by split; exacts [takeSample_calm h, h]) h
  have h₂ : LedgerCalm s₀ s₂ := .foldl (fun s a h => by split; exacts [takeSample_calm h, h]) h₁
  have h₃ : LedgerCalm s₀ s₃ := takeSample_calm h₂
  clear_value s₃
  exact coolant_calm (h₃.update rfl)

theorem scrubPeriod_calm (h : LedgerCalm s₀ s) : LedgerCalm s₀ (scrubPeriod s) := h.update rfl

theorem execThermalTrip_calm {x : Sensor} {reading : BitVec 8} (h : LedgerCalm s₀ s) :
    LedgerAnswers s₀ (execThermalTrip x reading s) := by
  unfold execThermalTrip
  refine .next ?_
  split
  · exact h
  · split
    exacts [h, takeSample_calm h]

theorem execPowerAverage_calm {watts : BitVec 16} (h : LedgerCalm s₀ s) : LedgerAnswers s₀ (execPowerAverage watts s) := by
  unfold execPowerAverage
  extract_lets w _ s₁ s₂
  have h₂ : LedgerCalm s₀ s₂ := .ite (countRun_calm (h.update rfl)) (h.update rfl)
  refine .next (.ite h (.ite ?_ h₂))
  split
  exacts [forceDrop_calm h₂, h₂]

theorem enterSleep_calm {cause : Nat} (h : LedgerCalm s₀ s) : LedgerCalm s₀ (enterSleep cause s) :=
  raiseOpen_calm (countBoot_calm ((unitsOff_calm (portsDown_calm (.foldl (fun _ _ => finishStore_calm) h))).update rfl))

theorem execSleepRequest_calm {a : Access} {v : BitVec 8} (h : LedgerCalm s₀ s) : LedgerAnswers s₀ (execSleepRequest a v s) :=
  .next (actWrite_calm (fun _ h => .ite (refuse_calm h) (.ite (enterSleep_calm (reply_calm h)) (refuse_calm h))) h)

theorem execWakeRequest_calm {a : Access} {v : BitVec 8} (h : LedgerCalm s₀ s) : LedgerAnswers s₀ (execWakeRequest a v s) :=
  .next (actWrite_calm (fun _ h => .ite (refuse_calm h) (wake_calm (reply_calm h))) h)

theorem serveOnVaux_calm (h : LedgerCalm s₀ s) : LedgerCalm s₀ (serveOnVaux s) :=
  send_calm ((.update (.ite h (loadStored_calm h)) rfl))

theorem lose48_calm {volts : Nat} (h : LedgerCalm s₀ s) : LedgerCalm s₀ (lose48 volts s) := by
  unfold lose48
  refine .ite h ?_
  extract_lets _ s₁ s₂ _ s₃
  have h₂ : LedgerCalm s₀ s₂ := domainsOff_calm (raiseOpen_calm (h.update rfl))
  have off : jobRuns s₂ = false := jobRuns_domainsOff _
  clear_value s₂
  have h₃ : LedgerCalm s₀ s₃ := h₂.update rfl
  exact .ite (serveOnVaux_calm (enterError_calm h₃)) (h₃.fresh rfl rfl rfl rfl off)

/-! ### Boot -/

theorem putSlot_calm {k : Nat} {x : SlotSt} (h : LedgerCalm s₀ s) : LedgerCalm s₀ (putSlot k x s) := h.update rfl

theorem setSlotState_calm {k st : Nat} (h : LedgerCalm s₀ s) : LedgerCalm s₀ (setSlotState k st s) := putSlot_calm h

theorem raiseFuses_calm {img : Bytes} (h : LedgerCalm s₀ s) : LedgerCalm s₀ (raiseFuses img s) := .ite h (raise_calm (h.update rfl))

theorem enterRecovery_calm (h : LedgerCalm s₀ s) : LedgerCalm s₀ (enterRecovery s) := raise_calm (h.update rfl)

theorem fallback_calm {k cause : Nat} (h : LedgerCalm s₀ s) : LedgerCalm s₀ (fallback k cause s) := raise_calm (h.update rfl)

theorem bootSlot_calm {k : Nat} (h : LedgerCalm s₀ s) : LedgerCalm s₀ (bootSlot k s) :=
  (.update (.ite (setSlotState_calm h) (raiseFuses_calm h)) rfl)

theorem selectSlot_calm {k n : Nat} (h : LedgerCalm s₀ s) : LedgerCalm s₀ (selectSlot k n s) := by
  induction n generalizing k s with
  | zero => exact enterRecovery_calm h
  | succ n ih =>
    unfold selectSlot
    extract_lets +onlyGivenNames x c
    refine .ite (ih (fallback_calm (setSlotState_calm (h.update rfl)))) (.ite (ih h) ?_)
    extract_lets +onlyGivenNames c s₁ s₂
    have h₁ : LedgerCalm s₀ s₁ := setSlotState_calm h
    exact .ite (bootSlot_calm h) (ih (fallback_calm (.ite (raise_calm h₁) (raise_calm h₁))))

theorem confirmSlot_calm {k : Nat} (h : LedgerCalm s₀ s) : LedgerCalm s₀ (confirmSlot k s) :=
  .when (fun h => writeHeader_calm (setSlotState_calm h)) (raiseFuses_calm (writeHeader_calm (setSlotState_calm h)))

theorem convertFrame_calm {x : Bool × Nat × List (BitVec 32)} (h : LedgerCalm s₀ s) : LedgerCalm s₀ (convertFrame x s) :=
  .ite h (h.update rfl)

theorem bootMemory_calm {r : BootReport} (h : LedgerCalm s₀ s) : LedgerCalm s₀ (bootMemory r s) :=
  (.update (.foldl (fun _ _ => convertFrame_calm) h) rfl)

theorem bootRegion_calm {g : Nat} (h : LedgerCalm s₀ s) : LedgerCalm s₀ (bootRegion g s) := by
  have put {s p l c} (h : LedgerCalm s₀ s) : LedgerCalm s₀ (setCond p c (mapUnit p l s)) := setCond_calm (mapUnit_calm h)
  unfold bootRegion
  extract_lets ps spare s₁
  have h₁ : LedgerCalm s₀ s₁ := by
    refine .foldl (fun s p h => ?_) h
    split
    exacts [put h, put h]
  split
  · exact put h₁
  split
  exacts [put h₁, put h₁]

theorem bootUnits_calm {r : BootReport} (h : LedgerCalm s₀ s) : LedgerCalm s₀ (bootUnits r s) := by
  unfold bootUnits
  extract_lets s₁ _ s₂ back keepRec _ s₃ s₄ s₅
  have h₁ : LedgerCalm s₀ s₁ := .foldl (fun _ _ h => .ite h (addRepair_calm h)) h
  clear_value s₁
  have h₂ : LedgerCalm s₀ s₂ := h₁.update rfl
  have h₃ : LedgerCalm s₀ s₃ := h₂.update rfl
  clear_value s₃
  have h₅ : LedgerCalm s₀ s₅ := .foldl (fun _ _ => bootRegion_calm) (.foldl (fun _ _ h => .ite h (raise_calm (addRepair_calm h))) h₃)
  clear_value s₅
  exact writeMap_calm (h₅.update rfl)

theorem bootIdle_calm {r : BootReport} (h : LedgerCalm s₀ s) : LedgerCalm s₀ (bootIdle r s) := by
  unfold bootIdle
  dsimp only
  split
  · exact .when confirmSlot_calm (send_calm (raise_calm (h.update rfl)))
  · exact send_calm (raise_calm (h.update rfl))

theorem restartBoot_calm (h : LedgerCalm s₀ s) : LedgerCalm s₀ (restartBoot s) := (startBoot_calm h).update rfl

theorem loadFails_calm (h : LedgerCalm s₀ s) : LedgerCalm s₀ (loadFails s) := by
  unfold loadFails
  split
  exacts [h, restartBoot_calm (writeHeader_calm (fallback_calm (raise_calm (setSlotState_calm h))))]

theorem flashFault_calm {what offset : Nat} (h : LedgerCalm s₀ s) : LedgerCalm s₀ (flashFault what offset s) :=
  raise_calm (countBoot_calm h)

theorem chooseHeader_calm {r : BootReport} (h : LedgerCalm s₀ s) : LedgerCalm s₀ (chooseHeader r s) :=
  .ite (h.update rfl) (.when flashFault_calm (h.update rfl))

theorem chooseMap_calm {r : BootReport} (h : LedgerCalm s₀ s) : LedgerCalm s₀ (chooseMap r s) :=
  .when (fun h => flashFault_calm (.update h rfl)) (.unless (.update · rfl) (h.update rfl))

theorem bootStored_calm {r : BootReport} (h : LedgerCalm s₀ s) : LedgerCalm s₀ (bootStored r s) :=
  loadStored_calm (.when (fun h => flashFault_calm (.update h rfl)) (.unless (.update · rfl) (h.update rfl)))

theorem phaseWork_calm {phase : Nat} {r : BootReport} (h : LedgerCalm s₀ s) : LedgerCalm s₀ (phaseWork phase r s) := by
  unfold phaseWork
  dsimp only
  split
  · exact .ite h (enterRecovery_calm (flashFault_calm h))
  · exact .unless (fun h => bootStored_calm (h.update rfl)) (writeHeader_calm (selectSlot_calm (chooseHeader_calm h)))
  · exact chooseMap_calm h
  · exact bootMemory_calm h
  · exact bootUnits_calm h
  · exact bootIdle_calm h
  · exact h

theorem execReboot_calm {a : Access} {v : BitVec 8} (h : LedgerCalm s₀ s) : LedgerAnswers s₀ (execReboot a v s) :=
  .next (actWrite_calm (fun _ h => .ite (refuse_calm h) (.ite (startBoot_calm (reply_calm h)) (refuse_calm h))) h)

theorem readImage_calm {addr n : Nat} (h : LedgerCalm s₀ s) : LedgerCalm s₀ (readImage addr n s).state :=
  .iteOut (.notBacked (countRun_calm h)) (readDev_calm h)

theorem stageFails_calm {c : Nat} (h : LedgerCalm s₀ s) : LedgerCalm s₀ (stageFails c s) := h.update rfl

theorem stageBytes_calm {img : Bytes} (h : LedgerCalm s₀ s) : LedgerCalm s₀ (stageBytes img s) :=
  .ite (stageFails_calm h) (writeHeader_calm (putSlot_calm (h.update rfl)))

theorem beginStage_calm {addr : Nat} (h : LedgerCalm s₀ s) : LedgerCalm s₀ (beginStage addr s) := by
  unfold beginStage
  split
  · next e =>
    have h := (readImage_calm h).out e
    refine .ite (stageFails_calm h) ?_
    split
    · next e => exact stageBytes_calm ((readImage_calm h).out e)
    · exact stageFails_calm (readImage_calm h)
  · exact stageFails_calm (readImage_calm h)

theorem execStageImage_calm {a : Access} {addr : BitVec 64} (h : LedgerCalm s₀ s) : LedgerAnswers s₀ (execStageImage a addr s) :=
  .next (actWrite_calm (fun _ h => .ite (refuse_calm h) (beginStage_calm (wakePath_calm (reply_calm h)))) h)

theorem execStagingDone_calm {o : StageOutcome} (h : LedgerCalm s₀ s) : LedgerAnswers s₀ (execStagingDone o s) := by
  unfold execStagingDone
  refine .next ?_
  split
  · exact h
  extract_lets _ s₁
  have h₁ : LedgerCalm s₀ s₁ := h.update rfl
  split
  · exact .ite (raise_calm (writeHeader_calm (putSlot_calm (h₁.update rfl)))) (writeHeader_calm (putSlot_calm (h₁.update rfl)))
  · exact writeHeader_calm (putSlot_calm (flashFault_calm (h₁.update rfl)))

theorem execNextSlot_calm {a : Access} {v : BitVec 8} (h : LedgerCalm s₀ s) : LedgerAnswers s₀ (execNextSlot a v s) :=
  .next (actWrite_calm (fun _ h => .ite (refuse_calm h) (.ite (reply_calm (writeHeader_calm (h.update rfl))) (refuse_calm h))) h)

theorem execConfirm_calm {a : Access} {v : BitVec 8} (h : LedgerCalm s₀ s) : LedgerAnswers s₀ (execConfirm a v s) := by
  unfold execConfirm
  refine .next ?_
  refine actWrite_calm (fun _ h => ?_) h
  split
  · exact refuse_calm h
  · split
    exacts [refuse_calm h, reply_calm (confirmSlot_calm h)]

/-! ### Issue of a bundle -/

theorem onEng_calm {rix : BitVec 11} {isel : Fin 8} {f : List Nat → Nat → State → OpRes} {p : Nat}
    (hf : ∀ w p s, LedgerCalm s₀ s → OpRes.Calm s₀ (f w p s)) (h : LedgerCalm s₀ s) :
    OpRes.Calm s₀ (onEng rix isel f p s) := by
  refine onRec_calm (fun w p s h => ?_) h
  split
  · next e =>
    have h := (hf _ _ _ h).of_ok e
    exact .ok (.ite (drainAll_calm h) h)
  · exact hf _ _ _ h

theorem slotOp_calm {u0 : UnitSt} {c : Instr} :
    Holds (fun o => ∀ {p s}, LedgerCalm s₀ s → OpRes.Calm s₀ (o.run p s)) (slotOp u0 c) := by
  cases c with
  | ald => exact .some (onRec_calm fun _ _ _ => doAld_calm)
  | abc => exact .some (onRec_calm fun _ _ _ => doAbc_calm)
  | aps => exact .some (onRec_calm fun _ _ _ => doAps_calm)
  | adr => exact .some (onRec_calm fun _ _ _ => doAdr_calm)
  | afl => exact .some (onRec_calm fun _ _ _ => doAfl_calm)
  | anop | quiet => exact .some .ok
  | fadd | fsub | fmul | fma | fneg | fabs | fmax | fmin | div | sqrt => exact .some (onEng_calm fun _ _ _ => vecFloat_calm)
  | fcps => exact .some (onEng_calm fun _ _ _ => vecFcps_calm)
  | fcmp | icmp => exact .some (onEng_calm fun _ _ _ => vecCompare_calm)
  | sel => exact .some (onEng_calm fun _ _ _ => vecSel_calm)
  | mov => exact .some (onEng_calm fun _ _ _ => vecMov_calm)
  | iadd | isub | imul | shl | shr | sar | and | or | xor | imax | imin => exact .some (onEng_calm fun _ _ _ => vecInt_calm)
  | cvt => exact .some (onEng_calm fun _ _ _ => vecCvt_calm)
  | exp2 | log2 | rcp | rsqrt => exact .some (onEng_calm fun _ _ _ => vecTrans_calm)
  | kand | kor | kxor | knot | kset => exact .some (onEng_calm fun _ _ _ => vecMask_calm)
  | kidx => exact .some (onEng_calm fun _ _ _ => vecKidx_calm)
  | vtag => exact .some (onEng_calm fun _ _ _ => vecVtag_calm)
  | rsum | rmax | rmin | rarg => exact .some (onEng_calm fun _ _ _ => redAll_calm)
  | rssum | rsmax | rsmin | rsarg => exact .some (onEng_calm fun _ _ _ => redSeg_calm)
  | raddraw => exact .some (onEng_calm fun _ _ _ => redAddRaw_calm)
  | rrd => exact .some (onEng_calm fun _ _ _ => redRrd_calm)
  | rclr => exact .some (onEng_calm fun _ _ _ => redClr_calm)
  | rtag => exact .some (onEng_calm fun _ _ _ => redTag_calm)
  | sarm => exact .some opSarm_calm
  | srearm => exact .some opSrearm_calm
  | sstop => exact .some opSstop_calm
  | swait => exact .some opSwait_calm
  | cmark => exact .some opCmark_calm
  | crel => exact .some opCrel_calm
  | garr => exact .some opGarr_calm
  | gwait => exact .some opGwait_calm
  | gsync => exact .some opGsync_calm
  | lset | ladd | iset | iaddi | ixor | hset | br | wake => exact .some onUnit_calm
  | ilen => exact .some opIlen_calm
  | bcnz => exact .some opBcnz_calm
  | bcond => exact .some opBcond_calm
  | srecv => exact .some opSrecv_calm
  | ssend => exact .some opSsend_calm
  | bwait => exact .some fun {p _} h => opBwait_calm (p := p) h
  | nap => exact .some opNap_calm
  | stepend => exact .some opStepend_calm
  | _ => exact .none

theorem runSlots_calm {u0 : UnitSt} {p : Nat} {cs : List Instr} (h : LedgerCalm s₀ s) : OpRes.Calm s₀ (runSlots u0 p cs s) := by
  induction cs generalizing s with
  | nil => exact .ok h
  | cons c cs ih =>
    unfold runSlots
    split
    · exact ih h
    · next e =>
      have hr := slotOp_calm.of_some e (p := p) h
      split
      · next e => exact ih (hr.of_ok e)
      · exact hr

theorem holdUnit_calm {p : Nat} {cs : List Instr} {hd : Hold} (h : LedgerCalm s₀ s) : LedgerCalm s₀ (holdUnit p cs hd s) :=
  modUnit_calm h

theorem issueBundle_calm {p : Nat} {cs : List Instr} (h : LedgerCalm s₀ s) : LedgerCalm s₀ (issueBundle p cs s) := by
  unfold issueBundle
  split
  · next e => exact finishBundle_calm ((runSlots_calm h).of_ok e)
  · exact holdUnit_calm h
  · exact unitFaultAt_calm h
  · split
    · exact h
    · next e =>
      obtain ⟨c, -, e⟩ := Option.bind_eq_some_iff.mp e
      split
      · next e' => exact holdUnit_calm ((slotOp_calm.of_some e h).of_arrived e')
      · exact holdUnit_calm h

theorem giveOp_calm {c : Instr} {i : Issue} (h : LedgerCalm s₀ s) : LedgerCalm s₀ (giveOp c i s) := by
  unfold giveOp
  dsimp only
  split
  exacts [h, .ite (issueBundle_calm h) (modUnit_calm h)]

end Sys2Proof.Machine
end

section
/-! PROOF. The rules of the fabric, of twins and recoveries, of harvests and of the host link (O5). -/

namespace Sys2Proof.Machine

open Sys2Proof.Claims

variable {s₀ s t : State}

/-! ### Fabric -/

theorem enterPort_calm {p cond : Nat} {i : PeerInfo} (h : LedgerCalm s₀ s) : LedgerCalm s₀ (enterPort p cond i s) :=
  setPort_calm h

theorem leavePort_calm {p cond : Nat} {i : PeerInfo} (h : LedgerCalm s₀ s) : LedgerCalm s₀ (leavePort p cond i s) :=
  enterPort_calm (.ite (portDown_calm h) h)

theorem mismatch_calm {p : Nat} {i : PeerInfo} (h : LedgerCalm s₀ s) : LedgerCalm s₀ (mismatch p i s) :=
  raiseOpen_calm (leavePort_calm h)

theorem tellPeer_calm {p : Nat} (h : LedgerCalm s₀ s) : LedgerCalm s₀ (tellPeer p s) := emitFlit_calm h

theorem retrained_calm {p : Nat} (h : LedgerCalm s₀ s) : LedgerCalm s₀ (retrained p s) :=
  drainQueue_calm (resend_calm (setPort_calm h))

theorem dropLanes_calm {p : Nat} {lanes : BitVec 4} (h : LedgerCalm s₀ s) : LedgerCalm s₀ (dropLanes p lanes s) :=
  .foldl (fun _ _ h => .ite h (addRepair_calm h)) h

theorem trained_calm {p : Nat} {lanes : BitVec 4} {i : PeerInfo} (h : LedgerCalm s₀ s) : LedgerCalm s₀ (trained p lanes i s) :=
  have h₁ := tellPeer_calm (dropLanes_calm h)
  .ite h (.ite (leavePort_calm (dropLanes_calm h)) (.ite (mismatch_calm h₁) (.ite (retrained_calm (setPort_calm h₁))
    (enterPort_calm h₁))))

theorem startRetrain_calm {p : Nat} (h : LedgerCalm s₀ s) : LedgerCalm s₀ (startRetrain p s) :=
  .ite h (countBoot_calm (countBoot_calm (setPort_calm h)))

theorem retryCheck_calm {p : Nat} (h : LedgerCalm s₀ s) : LedgerCalm s₀ (retryCheck p s) := .ite (startRetrain_calm h) h

theorem transit_calm {p : Nat} {hd : Hdr} {pl : Bytes} (h : LedgerCalm s₀ s) : LedgerCalm s₀ (transit p hd pl s) := by
  unfold transit
  split
  exacts [h, sendOn_calm (oweCredit_calm h)]

theorem sendAck_calm {hd : Hdr} (h : LedgerCalm s₀ s) : LedgerCalm s₀ (sendAck hd s) := by
  unfold sendAck
  dsimp only
  split
  exacts [h, sendFlit_calm h]

theorem gatewayOut_calm {g : GwIn} {base : Nat} (h : LedgerCalm s₀ s) : LedgerCalm s₀ (gatewayOut g base s) :=
  .ite (hostWrite_calm (.ite h (h.update rfl))) (hostWrite_calm h)

theorem gatewayWrite_calm {hd : Hdr} {pl : Bytes} (h : LedgerCalm s₀ s) : Holds (LedgerCalm s₀) (gatewayWrite hd pl s) := by
  unfold gatewayWrite
  dsimp only
  split
  · exact .none
  split
  · exact .none
  · split
    exacts [.some (gatewayOut_calm (h.update rfl)), .some (h.update rfl)]

theorem landWrite_calm {hd : Hdr} {pl : Bytes} (h : LedgerCalm s₀ s) : LedgerCalm s₀ (landWrite hd pl s).1 := by
  unfold landWrite
  split
  · split
    · next e => exact .pair ((gatewayWrite_calm h).of_some e)
    · exact .pair h
  split
  · next e => exact .pair ((writeDev_calm h).out e)
  · next e => exact .pair ((writeDev_calm h).out e)
  · next e => exact .pair ((writeDev_calm h).out e)

theorem onWrite_calm {hd : Hdr} {pl : Bytes} (h : LedgerCalm s₀ s) : LedgerCalm s₀ (onWrite hd pl s) :=
  have h := LedgerCalm.iteFst (.pair h) (landWrite_calm h)
  .ite (.when sendAck_calm ((.update h rfl))) (.unless (fun h => (.update h rfl)) h)

theorem onRead_calm {hd : Hdr} {pl : Bytes} {ecc : Ecc} (h : LedgerCalm s₀ s) : LedgerCalm s₀ (onRead hd pl ecc s) := by
  unfold onRead
  refine .ite h ?_
  split
  · next e => exact (readDev_calm h).out e
  · next e => exact damageFound_calm ((readDev_calm h).out e)
  · next e =>
    have h := (readDev_calm h).out e
    split
    exacts [h, sendRun_calm h]

theorem replayNext_calm {tree : Nat} (h : LedgerCalm s₀ s) : LedgerCalm s₀ (replayNext tree s) := by
  unfold replayNext
  dsimp only
  split
  · exact h
  split
  · exact markLanding_calm (setTree_calm h)
  · split
    exacts [treeFault_calm (countRemoteFail_calm h), sendFlit_calm (((freshTxn_calm h).update rfl))]

theorem landTree_calm {t : TreeRec} {pos : Nat} {pl : Bytes} {last : Bool} (h : LedgerCalm s₀ s) :
    LedgerCalm s₀ (landTree t pos pl last s) := by
  generalize hf : landTree = f
  delta landTree at hf
  subst hf
  beta_reduce
  extract_lets +onlyGivenNames r out
  split
  · next e => exact treeForward_calm (setTree_calm ((writeDev_calm h).out e))
  · next e => exact treeFault_calm ((writeDev_calm h).out e)
  · next e => exact treeFault_calm ((writeDev_calm h).out e)

theorem acceptData_calm {t : TreeRec} {hd : Hdr} {pl : Bytes} (h : LedgerCalm s₀ s) : LedgerCalm s₀ (acceptData t hd pl s) :=
  .when (fun h => treeCheck_calm (markLanding_calm h)) (landTree_calm h)

theorem onTreeData_calm {p : Nat} {hd : Hdr} {pl : Bytes} (h : LedgerCalm s₀ s) : LedgerCalm s₀ (onTreeData p hd pl s) := by
  unfold onTreeData
  dsimp only
  split
  exacts [h, .ite h (.ite (oweCredit_calm (setTree_calm h)) (acceptData_calm h))]

theorem acceptHeld_calm {t : TreeRec} {n : Nat} (h : LedgerCalm s₀ s) : LedgerCalm s₀ (acceptHeld t n s) := by
  fun_induction acceptHeld t n s with
  | case1 => exact h
  | case2 => exact h
  | case3 => exact h
  | case4 _ _ _ _ _ _ _ _ _ ih => exact ih (acceptData_calm (oweCredit_calm (setTree_calm h)))

theorem acceptAll_calm (h : LedgerCalm s₀ s) : LedgerCalm s₀ (acceptAll s) := .foldl (fun _ _ => acceptHeld_calm) h

theorem onTreeStart_calm {hd : Hdr} {pl : Bytes} (h : LedgerCalm s₀ s) : LedgerCalm s₀ (onTreeStart hd pl s) := by
  unfold onTreeStart
  split
  exacts [h, .ite h (treeStart_calm h)]

theorem onDetach_calm {tree root src len landed : Nat}
    (h : LedgerCalm s₀ s) : LedgerCalm s₀ (onDetach tree root src len landed s) :=
  .ite h (replayNext_calm (h.update rfl))

theorem onReplay_calm {m : Remote} {hd : Hdr} {pl : Bytes} (h : LedgerCalm s₀ s) : LedgerCalm s₀ (onReplay m hd pl s) := by
  unfold onReplay
  dsimp only
  split
  · exact h
  · exact .when (fun h => replayNext_calm (dropRemotes_calm h)) (landTree_calm (countRun_calm h))

theorem onResponse_calm {hd : Hdr} {pl : Bytes} (h : LedgerCalm s₀ s) : LedgerCalm s₀ (onResponse hd pl s) := by
  unfold onResponse
  split
  exacts [h, .ite h (.ite (onReplay_calm h) (modRemote_calm h))]

theorem gatewayNext_calm (h : LedgerCalm s₀ s) : LedgerCalm s₀ (gatewayNext s) := by
  unfold gatewayNext
  dsimp only
  split
  · exact h
  split
  · exact .ite (harvDone_calm h) h
  split
  · next e => exact (takeSection_calm h).fst e
  · next e => exact toGateway_calm ((takeSection_calm h).fst e)

theorem imageLoaded_calm (h : LedgerCalm s₀ s) : LedgerCalm s₀ (imageLoaded s) := by
  unfold imageLoaded
  split
  exacts [h, .ite h (askCard_calm h)]

theorem onAck_calm {hd : Hdr} (h : LedgerCalm s₀ s) : LedgerCalm s₀ (onAck hd s) := by
  unfold onAck
  dsimp only
  split
  · split
    exacts [treeCheck_calm (setTree_calm h), h]
  split
  · exact h
  · exact
      have h₁ := dropRemotes_calm h
      .ite h (.ite (gatewayNext_calm h₁) (.ite (imageLoaded_calm h₁) (modRemote_calm h)))

theorem takeEdge_calm {e : Nat × Nat × Nat} {confirmed : Bool} (h : LedgerCalm s₀ s) : LedgerCalm s₀ (takeEdge e confirmed s) := by
  unfold takeEdge
  refine .ite ?_ (arriveStart_calm ?_)
  · extract_lets _ s₁
    have h₁ : LedgerCalm s₀ s₁ := .ite h (h.update rfl)
    exact arriveStart_calm (.when answerEdge_calm h₁)
  · have hb : LedgerCalm s₀ (badEdge e.2.2 s) := badEdge_calm h
    generalize badEdge e.2.2 s = u at hb ⊢
    exact hb.update rfl

theorem suspectCard_calm {card : Nat} (h : LedgerCalm s₀ s) : LedgerCalm s₀ (suspectCard card s) := toCard_calm h

theorem takeSuspect_calm {sender card : Nat} (h : LedgerCalm s₀ s) : LedgerCalm s₀ (takeSuspect sender card s) :=
  .ite h (.ite (declareFailed_calm h) (.ite h (toCardId_calm (h.update rfl))))

theorem actHalt_calm {serial origin : Nat} (h : LedgerCalm s₀ s) : LedgerCalm s₀ (actHalt serial origin s) :=
  .when (fun h => countBoot_calm (h.update rfl)) (flood_calm (h.update rfl))

theorem raiseHalt_calm (h : LedgerCalm s₀ s) : LedgerCalm s₀ (raiseHalt s) := actHalt_calm h

theorem takeRecorded_calm (h : LedgerCalm s₀ s) : LedgerCalm s₀ (takeRecorded s) := by
  unfold takeRecorded
  dsimp only
  refine .foldl (fun s a h => ?_) (h.update rfl)
  split
  exacts [gateArrived_calm h, gateReleased_calm h]

theorem actResume_calm {serial origin : Nat} (h : LedgerCalm s₀ s) : LedgerCalm s₀ (actResume serial origin s) :=
  .when (fun h => takeRecorded_calm (h.update rfl)) (flood_calm (h.update rfl))

theorem ownHalt_calm (h : LedgerCalm s₀ s) : LedgerCalm s₀ (ownHalt s) := send_calm (raiseHalt_calm h)

theorem idleLink_calm {p seq : Nat} (h : LedgerCalm s₀ s) : LedgerCalm s₀ (idleLink p seq s) := .ite (sendNull_calm h) h

theorem idleOthers_calm {p : Nat} (h : LedgerCalm s₀ s) : LedgerCalm s₀ (idleOthers p s) :=
  .foldl (fun _ _ h => .ite (sendNull_calm h) h) h

theorem onFlit_calm {p : Nat} {f : Flit} {types : List Nat} {act : Hdr → Bytes → State → State}
    (hf : ∀ hd pl s, LedgerCalm s₀ s → LedgerCalm s₀ (act hd pl s)) (h : LedgerCalm s₀ s) :
    LedgerCalm s₀ (onFlit p f types act s) := by
  unfold onFlit
  extract_lets +onlyGivenNames seq
  split
  · next e => exact retryCheck_calm ((recvFlit_calm h).fst e)
  · next e =>
    extract_lets +onlyGivenNames hd s₁ s₂ s₃
    have h₁ : LedgerCalm s₀ s₁ := retryCheck_calm ((recvFlit_calm h).fst e)
    have h₃ : LedgerCalm s₀ s₃ := acceptAll_calm (.ite h₁ (.ite (transit_calm h₁) (hf _ _ _ h₁)))
    exact idleOthers_calm (.unless idleLink_calm h₃)

theorem execLinkControl_calm {p : Fin 20} {f : Flit} {peer : PeerInfo} (h : LedgerCalm s₀ s) :
    LedgerAnswers s₀ (execLinkControl p f peer s) := by
  unfold execLinkControl
  extract_lets s₁
  have h₁ : LedgerCalm s₀ s₁ := .ite (onFlit_calm (fun _ _ _ h => h) h) h
  exact .next (.ite h₁ (.ite (.when setPort_calm h₁) (.unless mismatch_calm h₁)))

theorem execRemoteRequestTimeout_calm {txn : BitVec 16} (h : LedgerCalm s₀ s) :
    LedgerAnswers s₀ (execRemoteRequestTimeout txn s) := by
  unfold execRemoteRequestTimeout
  refine .next ?_
  split
  exacts [h, .ite h (failRemote_calm h)]

theorem execHalt_calm {a : Access} {v : BitVec 8} (h : LedgerCalm s₀ s) : LedgerAnswers s₀ (execHalt a v s) :=
  .next (actWrite_calm (fun _ h => .ite (refuse_calm h) (ownHalt_calm (reply_calm h))) h)

theorem execResume_calm {a : Access} {v : BitVec 8} (h : LedgerCalm s₀ s) : LedgerAnswers s₀ (execResume a v s) :=
  .next (actWrite_calm (fun _ h => .ite (refuse_calm h) (reply_calm (actResume_calm h))) h)

/-! ### Shadow -/

theorem setMirrorRun_calm {k : Nat} {r : MirrorRun} (h : LedgerCalm s₀ s) : LedgerCalm s₀ (setMirrorRun k r s) := h.update rfl

theorem setMirrorRef_calm {k : Nat} {d : BitVec 128} (h : LedgerCalm s₀ s) : LedgerCalm s₀ (setMirrorRef k d s) := h.update rfl

theorem setOwnRef_calm {k : Nat} {d : BitVec 128} (h : LedgerCalm s₀ s) : LedgerCalm s₀ (setOwnRef k d s) := h.update rfl

theorem heldBytes_calm (h : LedgerCalm s₀ s) : LedgerCalm s₀ (heldBytes s).1 := fetchRanges_calm h

theorem boundaryData_calm (h : LedgerCalm s₀ s) : LedgerCalm s₀ (boundaryData s).1 := .pair (heldBytes_calm h)

theorem mirrorScales_calm (h : LedgerCalm s₀ s) : LedgerCalm s₀ (mirrorScales s).1 := fetchRanges_calm h

theorem mirrorBoundaryDigest_calm (h : LedgerCalm s₀ s) : LedgerCalm s₀ (mirrorBoundaryDigest s).1 :=
  .pair (mirrorScales_calm h)

theorem putMirrorBlock_calm {bs : Bytes} (h : LedgerCalm s₀ s) : LedgerCalm s₀ (putMirrorBlock bs s) := pokeDev_calm (h.update rfl)

theorem pondServe_calm {off n : Nat} {bs : Bytes} (h : LedgerCalm s₀ s) : LedgerCalm s₀ (pondServe off n bs s).1 := by
  unfold pondServe
  split
  exacts [.pair (failPond_calm h), .pair h]

theorem rangeServe_calm {a n : Nat} (h : LedgerCalm s₀ s) : LedgerCalm s₀ (rangeServe a n s).1 :=
  .iteFst (fetchRanges_calm h) (.iteFst (.pair (boundaryData_calm h)) (.iteFst (fetchRanges_calm h)
    (.iteFst (.pair h) (.iteFst (pondServe_calm h) (.iteFst (pondServe_calm h) (.pair h))))))

theorem resolved_calm {k outcome role : Nat} (h : LedgerCalm s₀ s) : LedgerCalm s₀ (resolved k outcome role s) :=
  .when (.update · rfl) (raiseOpen_calm (countBoot_calm (h.update rfl)))

theorem shadowPieces_calm {c : UpdC} {ps : List (TensorEnt × Nat)} {amax : Nat} (h : LedgerCalm s₀ s) :
    LedgerCalm s₀ (shadowPieces c ps amax s).1 := by
  generalize hf : shadowPieces = f
  delta shadowPieces shadowPieces._f at hf
  obtain ⟨up, e, hu⟩ := updatePiece_calmSealed s₀
  rw [e] at hf
  subst hf
  induction ps generalizing amax s with
  | nil => exact h
  | cons x ps ih => exact .iteFst (hu h) (.iteFst (hu h) (ih (hu h)))

theorem shadowPieces_calmSealed (s₀ : State) : ∃ f, shadowPieces = f ∧
    ∀ {c ps amax s}, LedgerCalm s₀ s → LedgerCalm s₀ (f c ps amax s).1 := ⟨_, rfl, shadowPieces_calm⟩

theorem shadowLayer_calm {k : Nat} {e : LayerEnt} {m : MeasBlock} (h : LedgerCalm s₀ s) :
    LedgerCalm s₀ (shadowLayer k e m s).1 := by
  generalize hp : shadowLayer k e m s = p
  generalize hf : shadowLayer = f at hp
  delta shadowLayer at hf
  obtain ⟨su, e₁, hs⟩ := sumTensors_calmSealed s₀
  obtain ⟨rr, e₂, hr⟩ := readRec_calmSealed s₀
  obtain ⟨sf, e₃, hf'⟩ := stageFactors_calmSealed s₀
  obtain ⟨sp, e₄, hp'⟩ := shadowPieces_calmSealed s₀
  rw [e₁, e₂, e₃, e₄] at hf
  subst hf
  beta_reduce at hp
  extract_lets +onlyGivenNames lt cin at hp
  split at hp
  · exact hp ▸ failRequest_calm h
  split at hp
  · next e => exact hp ▸ (hs h).fst e
  next e =>
  have h := (hs h).fst e
  split at hp
  · next e => exact hp ▸ (hr h).fst e
  next e =>
  have h := (hr h).fst e
  extract_lets +onlyGivenNames c at hp
  split at hp
  · exact hp ▸ h
  extract_lets +onlyGivenNames cs u f at hp
  have h₁ : LedgerCalm s₀ f.1 := hf' h
  split at hp
  · exact hp ▸ h
  extract_lets +onlyGivenNames ps at hp
  split at hp
  · next e => exact hp ▸ LedgerCalm.pair (storedDigest_calm (pokeDev_calm ((hp' h₁).fst e)))
  · exact hp ▸ h

theorem shadowEnds_calm {m : MeasBlock} (h : LedgerCalm s₀ s) : LedgerCalm s₀ (shadowEnds m s) :=
  .foldl (fun _ _ => pullLayer_calm) (toTwin_calm (setBoot_calm (pokeDev_calm (pokeDev_calm (mirrorScales_calm
    h)).withTwin)).withTwin)

theorem shadowCheck_calm (h : LedgerCalm s₀ s) : LedgerCalm s₀ (shadowCheck s) := by
  unfold shadowCheck
  split
  exacts [h, .ite (shadowEnds_calm h) h]

theorem settle_calm {k outcome : Nat} {d : BitVec 128} (h : LedgerCalm s₀ s) : LedgerCalm s₀ (settle k outcome d s) :=
  have h := resolved_calm (setMirrorRun_calm (setMirrorRef_calm h))
  .ite (shadowCheck_calm h) (.ite (toTwin_calm (h.update rfl)) (.when toTwin_calm (h.update rfl)))

theorem askDigest_calm {k : Nat} (h : LedgerCalm s₀ s) : LedgerCalm s₀ (askDigest k s) := toTwin_calm h

theorem again_calm {k fix : Nat} (h : LedgerCalm s₀ s) : LedgerCalm s₀ (again k fix s) :=
  .ite (settle_calm h) (askDigest_calm (setMirrorRun_calm h))

theorem sendMirror_calm {k : Nat} (h : LedgerCalm s₀ s) : LedgerCalm s₀ (sendMirror k s) :=
  toTwin_calm (fetchRanges_calm (toTwin_calm (fetchRanges_calm h)))

theorem heldDigest_calm {k : Nat} (h : LedgerCalm s₀ s) : LedgerCalm s₀ (heldDigest k s).1 := by
  unfold heldDigest
  split
  exacts [.pair (failPond_calm h), .pair h]

theorem judge_calm {k : Nat} {sp : BitVec 128} (h : LedgerCalm s₀ s) : LedgerCalm s₀ (judge k sp s) := by
  unfold judge
  dsimp only
  split
  · exact settle_calm (toTwin_calm (storedDigest_calm h))
  split
  · exact again_calm (sendMirror_calm (toTwin_calm (storedDigest_calm h)))
  split
  · exact pullLayer_calm (setMirrorRun_calm (toTwin_calm (storedDigest_calm h)))
  · exact
      have h₁ := heldDigest_calm (toTwin_calm (storedDigest_calm h))
      .ite (settle_calm (toTwin_calm (storedDigest_calm h))) (.ite (settle_calm h₁) (toTwin_calm h₁))

theorem countDiffers_calm {k : Nat} (h : LedgerCalm s₀ s) : LedgerCalm s₀ (countDiffers k s) := .ite h (countBoot_calm h)

theorem disagree_calm {k : Nat} {dc : BitVec 128} (h : LedgerCalm s₀ s) : LedgerCalm s₀ (disagree k dc s) :=
  countDiffers_calm (askDigest_calm (setMirrorRun_calm h))

theorem overwrite_calm {k : Nat} (h : LedgerCalm s₀ s) : LedgerCalm s₀ (overwrite k s) :=
  countDiffers_calm (pullLayer_calm (setMirrorRun_calm h))

theorem refetch_calm {k : Nat} (h : LedgerCalm s₀ s) : LedgerCalm s₀ (refetch k s) := by
  unfold refetch
  extract_lets r s₁
  have h₁ : LedgerCalm s₀ s₁ := countDiffers_calm h
  exact .ite (overwrite_calm (setMirrorRun_calm h₁)) (toTwin_calm (setMirrorRun_calm h₁))

theorem shadowDone_calm {k : Nat} {e : LayerEnt} {m : MeasBlock} {ecc : Ecc} (h : LedgerCalm s₀ s) :
    LedgerCalm s₀ (shadowDone k e m ecc s) := by
  unfold shadowDone
  dsimp only
  split
  · exact refetch_calm (failPond_calm h)
  split
  · next e => exact overwrite_calm ((shadowLayer_calm (applyEcc_calm h)).fst e)
  · next e =>
      have h := (shadowLayer_calm (applyEcc_calm h)).fst e
      exact .ite (disagree_calm h) (.ite (settle_calm (setMirrorRun_calm h)) (shadowCheck_calm (setMirrorRun_calm
        (setMirrorRef_calm h))))

theorem compared_calm {k : Nat} (h : LedgerCalm s₀ s) : LedgerCalm s₀ (compared k s) := .when toTwin_calm (h.update rfl)

theorem compareLayer_calm {k : Nat} {sp : BitVec 128} (h : LedgerCalm s₀ s) : LedgerCalm s₀ (compareLayer k sp s) :=
  have h₁ := mirrorBoundaryDigest_calm h
  have h := storedDigest_calm h
  .ite (.ite (compared_calm h₁) (toTwin_calm h₁)) (.ite (compared_calm h) (disagree_calm (setMirrorRun_calm h)))

/-! ### Twin -/

theorem askJoin_calm (h : LedgerCalm s₀ s) : LedgerCalm s₀ (askJoin s) :=
  .foldl (fun _ _ => pullLayer_calm) (toTwin_calm (toTwin_calm (toTwin_calm (toTwin_calm (h.update rfl)))))

theorem sendSeed_calm (h : LedgerCalm s₀ s) : LedgerCalm s₀ (sendSeed s) :=
  toTwin_calm (toTwin_calm (heldBytes_calm (.foldl (fun _ _ h => toTwin_calm (fetchRanges_calm h))
    (setBoot_calm (setBoot_calm (setBoot_calm (digestOwn_calm h)))))))

theorem sendPair_calm (h : LedgerCalm s₀ s) : LedgerCalm s₀ (sendPair s) := toTwin_calm (h.update rfl)

theorem trySeed_calm (h : LedgerCalm s₀ s) : LedgerCalm s₀ (trySeed s) := by
  unfold trySeed
  extract_lets _ _ s₁
  have h₁ : LedgerCalm s₀ s₁ := setPair_calm (sendPair_calm h).withTwin
  exact .ite (.ite (askJoin_calm h₁) (sendSeed_calm h₁)) h

theorem seedEnds_calm (h : LedgerCalm s₀ s) : LedgerCalm s₀ (seedEnds s) := setPair_calm (h.update rfl)

theorem takePair_calm {m : PairMsg} (h : LedgerCalm s₀ s) : LedgerCalm s₀ (takePair m s) :=
  have h := LedgerCalm.ite (seedEnds_calm h) h
  .when (fun h => .ite (trySeed_calm ((.update h rfl))) (.unless sendPair_calm ((.update h rfl)))) h

theorem sendCustody_calm (h : LedgerCalm s₀ s) : LedgerCalm s₀ (sendCustody s) := by
  unfold sendCustody
  dsimp only
  split
  exacts [h, .ite (toTwin_calm (h.update rfl)) h]

/-- A card that joins is a spare that a recovery loads: nothing is said of its running step before. -/
theorem joinJob_ledger (hj : s.fab.joining = true) (h : LedgerCalm s t) : LedgerStep s (joinJob t) :=
  ⟨h.sets, fewAwait_of_sublist h.await, fun _ hf => absurd (hj.symm.trans hf) (by decide), fun _ => touchesInTurn_of_nil rfl⟩

theorem tryInStep_ledger (h : LedgerCalm s₀ s) : LedgerStep s₀ (tryInStep s) := by
  refine h.step ?_
  unfold tryInStep
  extract_lets sent got join _ _ s₁
  have h₁ : LedgerCalm s s₁ := setPair_calm ((LedgerCalm.refl s).update rfl)
  clear_value s₁
  split
  · split
    next hj => exact (joinJob_ledger hj h₁).calm (sendCustody_calm (.refl _))
    next => exact LedgerCalm.toStep (sendCustody_calm h₁)
  · exact LedgerCalm.toStep (.refl s)

theorem seedFails_calm (h : LedgerCalm s₀ s) : LedgerCalm s₀ (seedFails s) := sendPair_calm (raiseOpen_calm (seedEnds_calm h))

theorem seedAgain_calm {k : Nat} (h : LedgerCalm s₀ s) : LedgerCalm s₀ (seedAgain k s) := by
  unfold seedAgain
  extract_lets n _ s₁
  have h₁ : LedgerCalm s₀ s₁ := countBoot_calm h.withTwin
  exact .ite (seedFails_calm h) (.ite (toTwin_calm h₁) (pullLayer_calm h₁))

theorem seedAgrees_calm {k : Nat} (h : LedgerCalm s₀ s) : LedgerCalm s₀ (seedAgrees k s).1 :=
  .pair (.iteFst (mirrorBoundaryDigest_calm h) (storedDigest_calm h))

theorem seedDone_ledger (h : LedgerCalm s₀ s) : LedgerStep s₀ (seedDone s) := by
  unfold seedDone
  exact .ite (tryInStep_ledger (toTwin_calm h.withTwin)) h.toStep

theorem takeSeedEnd_ledger {n : Nat} {ds : List (BitVec 128)} {bd : BitVec 128} {block : Bytes} (h : LedgerCalm s₀ s) :
    LedgerStep s₀ (takeSeedEnd n ds bd block s) := by
  unfold takeSeedEnd
  extract_lets _ s₁ refs _ s₂ x bad _ _ s₃
  have h₁ : LedgerCalm s₀ s₁ := putMirrorBlock_calm h.withTwin
  clear_value s₁
  have h₂ : LedgerCalm s₀ s₂ := h₁.withTwin
  clear_value s₂
  have hx : LedgerCalm s₀ x.1 := .foldlFst (fun _ _ h => .pair (seedAgrees_calm h)) (.pair h₂)
  clear_value x
  have h₃ : LedgerCalm s₀ s₃ := hx.withTwin
  clear_value s₃
  exact .ite (seedDone_ledger h₃) (LedgerCalm.toStep (.foldl (fun _ _ h => .ite (seedAgain_calm h) h) h₃))

theorem seedRepaired_ledger {k : Nat} (h : LedgerCalm s₀ s) : LedgerStep s₀ (seedRepaired k s) := by
  unfold seedRepaired
  extract_lets x s₁
  have h₁ : LedgerCalm s₀ s₁ := seedAgrees_calm h
  clear_value s₁
  exact .ite (seedDone_ledger h₁.withTwin) (seedAgain_calm h₁).toStep

theorem trySack_calm {step : Nat} (h : LedgerCalm s₀ s) : LedgerCalm s₀ (trySack step s) := .ite (toTwin_calm h) h

theorem putPend_calm {off : Nat} {bs : Bytes} (h : LedgerCalm s₀ s) : LedgerCalm s₀ (putPend off bs s) :=
  pondWrite_calm (fun _ h => (h.update rfl)) h

theorem putGrad_calm {ts : List TensorEnt} {off : Nat} {bs : Bytes}
    (h : LedgerCalm s₀ s) : LedgerCalm s₀ (putGrad ts off bs s) := by
  fun_induction putGrad ts off bs s with
  | case1 => exact h
  | case2 _ _ _ _ _ _ _ ih => exact ih h
  | case3 _ _ _ _ _ _ _ _ ih => exact ih (putPend_calm h)

theorem takeGend_calm {step k : Nat} {n cs : W32} {dg ds : BitVec 128} (h : LedgerCalm s₀ s) :
    LedgerCalm s₀ (takeGend step k n cs dg ds s) :=
  toTwin_calm (setMirrorRun_calm (heldDigest_calm h))

theorem twinFails_calm (h : LedgerCalm s₀ s) : LedgerCalm s₀ (twinFails s) := .ite (enterLost_calm h) h

theorem sayUnpair_calm (h : LedgerCalm s₀ s) : LedgerCalm s₀ (sayUnpair s) := by
  unfold sayUnpair
  dsimp only
  split
  exacts [toTwin_calm h, toCardId_calm (toTwin_calm h)]

theorem linkLost_calm {alive : Bool} (h : LedgerCalm s₀ s) : LedgerCalm s₀ (linkLost alive s) := by
  unfold linkLost
  dsimp only
  split
  · exact h
  split
  · exact twinFails_calm (enterSolo_calm (sayUnpair_calm h))
  refine twinFails_calm ?_
  split
  exacts [h, suspectCard_calm h]

theorem takeGack_calm {k : Nat} {e : LayerEnt} {ok : Bool} (h : LedgerCalm s₀ s) : LedgerCalm s₀ (takeGack k e ok s) := by
  unfold takeGack
  refine .ite (setLayerRun_calm h) ?_
  extract_lets s₁
  have h₁ : LedgerCalm s₀ s₁ := setLayerRun_calm h
  exact .ite (linkLost_calm h₁) (sendGrad_calm h₁)

theorem startCompare_calm (h : LedgerCalm s₀ s) : LedgerCalm s₀ (startCompare s) :=
  toTwin_calm (boundaryData_calm (.foldl (fun _ _ h => toTwin_calm (storedDigest_calm h)) (countBoot_calm (h.update rfl))))

theorem takeSdone_calm {n : Nat} {esc : Bool} (h : LedgerCalm s₀ s) : LedgerCalm s₀ (takeSdone n esc s) :=
  .ite (reportAbort_calm (resolved_calm (h.update rfl)))
    (.ite (startCompare_calm (h.update rfl)) (.when (fun h => .foldl (fun _ _ => pullLayer_calm) h) (h.update rfl)))

theorem noteFix_calm {k fix : Nat} (h : LedgerCalm s₀ s) : LedgerCalm s₀ (noteFix k fix s) := h.update rfl

theorem takeDigreq_calm {k : Nat} (h : LedgerCalm s₀ s) : LedgerCalm s₀ (takeDigreq k s) := by
  unfold takeDigreq
  dsimp only
  split
  exacts [h, toTwin_calm (storedDigest_calm (.ite h (countBoot_calm (noteFix_calm h))))]

theorem takeDigrsp_calm {k : Nat} {d : BitVec 128} (h : LedgerCalm s₀ s) : LedgerCalm s₀ (takeDigrsp k d s) := by
  unfold takeDigrsp
  dsimp only
  split
  · exact judge_calm h
  split
  · exact compareLayer_calm h
  · split
    exacts [h, .ite (resolved_calm (setOwnRef_calm (((storedDigest_calm h).update rfl)))) (storedDigest_calm h)]

theorem servePull_calm {w : PullWhat} (h : LedgerCalm s₀ s) : LedgerCalm s₀ (servePull w s) := by
  unfold servePull
  dsimp only
  split
  · exact .ite h (countBoot_calm (countBoot_calm (toTwin_calm (fetchRanges_calm h))))
  · exact .ite h (toTwin_calm (fetchRanges_calm (.ite (noteFix_calm h) (.ite (countBoot_calm (noteFix_calm h)) h))))
  · split
    · exact h
    · split
      exacts [h, toTwin_calm (.ite (noteFix_calm h) h)]
  · exact .ite (.ite h (sendCustody_calm h)) (.ite h (toTwin_calm (rangeServe_calm h)))

theorem applyBoundary_ledger {bs : Bytes} (hj : s.fab.joining = true) : LedgerStep s (applyBoundary bs s) := by
  unfold applyBoundary
  extract_lets b s₁ st
  have h₁ : LedgerCalm s s₁ := applyEntries_calm (.refl s)
  clear_value s₁
  refine ⟨h₁.sets, fewAwait_of_sublist h₁.await, fun _ hf => absurd (hj.symm.trans hf) (by decide), fun ht => ?_⟩
  have ht₁ := h₁.touches ht
  exact ⟨ht₁.1, ht₁.2⟩

/-- A layer that lands while its job restores, or on a card that joins. -/
theorem restoreLayer_ledger {k : Nat} {e : LayerEnt} {bs : Bytes} {ref : BitVec 128} (hg : s.led.st = .restoring ∨ s.fab.joining = true) :
    LedgerStep s (restoreLayer k e bs ref s) := by
  unfold restoreLayer
  extract_lets x s₁ s₂ _ s₃ params s₄ n _
  have h₁ : LedgerCalm s s₁ := storedDigest_calm (pokeRanges_calm (.refl s))
  have e₁ : (runView s₁, s₁.fab.joining) = (runView s, s.fab.joining) :=
    Prod.ext ((runView_mem.storedDigest ..).trans (runView_mem.pokeRanges ..)) ((joining_mem.storedDigest ..).trans (joining_mem.pokeRanges ..))
  clear_value s₁
  have h₂ : LedgerCalm s₁ s₂ := rebuildWork_calm (setOwnRef_calm (.refl s₁))
  have e₂ : (runView s₂, s₂.fab.joining) = (runView s₁, s₁.fab.joining) :=
    Prod.ext ((runView_mem.rebuildWork ..).trans rfl) ((joining_mem.rebuildWork ..).trans rfl)
  clear_value s₂
  have h₃ : LedgerCalm s s₃ := (h₁.trans h₂).withTwin
  have e₃ : (runView s₃, s₃.fab.joining) = (runView s, s.fab.joining) := Eq.trans rfl (e₂.trans e₁)
  clear_value s₃
  have h₄ : LedgerCalm s₃ s₄ := countBoot_calm (countBoot_calm (.refl s₃))
  have e₄ : runView s₄ = runView s₃ := rfl
  clear_value s₄
  obtain ⟨runs, joins⟩ := Prod.mk.inj e₃
  refine .ite ?_ (LedgerCalm.toStep (.ite (enterLost_calm h₁) (pullLayer_calm h₁.withTwin)))
  split
  · exact tryInStep_ledger h₃
  next hj =>
  have st : s.led.st = .restoring := hg.resolve_right fun h => hj (joins.trans h)
  have runs₄ : jobRuns s₄ = true := (jobRuns_of_runs (e₄.trans runs)).trans (by rw [jobRuns, st])
  exact .ite ((h₃.trans h₄).step (finishAbort_ledger runs₄)) (h₃.trans h₄).toStep

theorem mirrorLayer_ledger {k : Nat} {bs : Bytes} {ref : BitVec 128} (h : LedgerCalm s₀ s) :
    LedgerStep s₀ (mirrorLayer k bs ref s) := by
  unfold mirrorLayer
  extract_lets r lt x s₁ d _
  have h₁ : LedgerCalm s₀ s₁ := storedDigest_calm (pokeRanges_calm h)
  clear_value s₁
  refine .ite (LedgerCalm.toStep ?_) (.ite (again_calm h₁).toStep (.ite (seedRepaired_ledger h₁)
    (LedgerCalm.toStep (.ite (setMirrorRef_calm h₁.withTwin) h₁))))
  exact .ite (toTwin_calm (settle_calm h₁)) (.ite (settle_calm h₁) (pullLayer_calm (setMirrorRun_calm h₁)))

theorem joined_ledger {what : Nat} (h : LedgerCalm s₀ s) : LedgerStep s₀ (joined what s) := by
  unfold joined
  exact tryInStep_ledger h.withTwin

theorem joinInputs_ledger {bs : Bytes} (h : LedgerCalm s₀ s) : LedgerStep s₀ (joinInputs bs s) := by
  unfold joinInputs
  refine .ite (joined_ledger h) ?_
  extract_lets s₁
  have h₁ : LedgerCalm s₀ s₁ := pokeDev_calm h
  clear_value s₁
  exact joined_ledger h₁.withHost

theorem pokeFrom_calm {off : Nat} {bs : Bytes} {rs : List (Nat × Nat)}
    (h : LedgerCalm s₀ s) : LedgerCalm s₀ (pokeFrom off bs rs s) := by
  fun_induction pokeFrom off bs rs s with
  | case1 => exact h
  | case2 _ _ _ _ _ ih => exact ih h
  | case3 => exact pokeRanges_calm h

theorem landRange_ledger {a : Nat} {bs : Bytes} (h : LedgerCalm s₀ s) : LedgerStep s₀ (landRange a bs s) := by
  unfold landRange
  extract_lets n s₁ left was _ s₂ s₃
  have h₁ : LedgerCalm s₀ s₁ := putMirrorBlock_calm (pokeDev_calm h)
  clear_value s₁
  have h₃ : LedgerCalm s₀ s₃ := pokeDev_calm h
  clear_value s₃
  refine .ite (pokeFrom_calm h).toStep (.ite (.ite (seedRepaired_ledger h₁) ?_) (.ite ?_ (.ite ?_ ?_)))
  · exact LedgerCalm.toStep (.when toTwin_calm h₁.withTwin)
  · exact .ite (joined_ledger h₃) h₃.toStep
  · split
    next hj => exact h.step ((applyBoundary_ledger hj).trans (fun hf => absurd (hj.symm.trans hf) (by decide)) (joined_ledger (.refl _)))
    next => exact h.toStep
  · exact .ite (putPend_calm h).toStep (.ite (joinInputs_ledger h) h.toStep)

theorem gradCame_calm {k : Nat} {bs : Bytes} (h : LedgerCalm s₀ s) : LedgerCalm s₀ (gradCame k bs s) := by
  unfold gradCame
  dsimp only
  split
  · split
    exacts [h, putGrad_calm (setMirrorRun_calm h)]
  split
  · split
    exacts [h, .ite (putGrad_calm h) h]
  · exact .ite (pullLayer_calm (setMirrorRun_calm h)) (settle_calm h)

theorem takeData_ledger {w : PullWhat} {bs : Bytes} {ref : BitVec 128} (h : LedgerCalm s₀ s) :
    LedgerStep s₀ (takeData w bs ref s) := by
  unfold takeData
  split
  · split
    · exact h.toStep
    split
    next hg => exact h.step (restoreLayer_ledger hg.1)
    next => exact LedgerCalm.toStep (.ite (rebuildWork_calm (noteFix_calm (pokeRanges_calm h))) h)
  · exact mirrorLayer_ledger h
  · exact (gradCame_calm h).toStep
  · exact landRange_ledger h

theorem beginLoad_calm (h : LedgerCalm s₀ s) : LedgerCalm s₀ (beginLoad s) := by
  unfold beginLoad
  dsimp only
  split
  exacts [h, .ite h (askCard_calm ((.update (.ite (enterSolo_calm h) h) rfl)))]

theorem LedgerCalm.addRemote {r : Remote} (h : LedgerCalm s₀ s) :
    LedgerCalm s₀ { s with fab := { s.fab with remotes := s.fab.remotes ++ [r] } } := h.update rfl

theorem sendImage_calm {c base : Nat} (h : LedgerCalm s₀ s) : LedgerCalm s₀ (sendImage c base s) := by
  unfold sendImage
  dsimp only
  refine .ite h ?_
  split
  · exact h
  · exact sendRun_calm (freshTxn_calm (fetchRanges_calm (fetchRanges_calm h))).addRemote

theorem ownAnswer_calm {c : Nat} {ans : Option Bytes} (h : LedgerCalm s₀ s) : LedgerCalm s₀ (ownAnswer c ans s) := by
  unfold ownAnswer
  dsimp only
  split
  · exact h
  split
  · split
    exacts [.ite (sendImage_calm (h.update rfl)) (h.update rfl), (h.update rfl)]
  · exact .ite (gatewayTable_calm (h.update rfl)) (recAnswer_calm h)

theorem execGrad_calm {step : BitVec 64} {layer off : Nat} {data : Bytes} (h : LedgerCalm s₀ s) :
    LedgerAnswers s₀ (execGrad step layer off data s) := by
  unfold execGrad
  dsimp only
  refine .next ?_
  split
  exacts [h, .ite (putGrad_calm (h.update rfl)) h]

theorem execGend_calm {step : BitVec 64} {layer : Nat} {n cs : W32} {dg ds : BitVec 128} (h : LedgerCalm s₀ s) :
    LedgerAnswers s₀ (execGend step layer n cs dg ds s) := by
  unfold execGend
  refine .next ?_
  split
  exacts [h, .ite (takeGend_calm h) h]

theorem execGack_calm {step : BitVec 64} {layer : Nat} {ok : Bool} (h : LedgerCalm s₀ s) :
    LedgerAnswers s₀ (execGack step layer ok s) := by
  unfold execGack
  refine .next ?_
  split
  exacts [h, .ite (takeGack_calm h) h]

theorem execPack_calm {gen : BitVec 32} (h : LedgerCalm s₀ s) : LedgerAnswers s₀ (execPack gen s) := by
  unfold execPack
  dsimp only
  refine .next ?_
  split
  exacts [h, applyCan_calm (reply_calm (h.update rfl))]

theorem execShadowLayerDone_calm {layer : Nat} {ecc : Ecc} (h : LedgerCalm s₀ s) :
    LedgerAnswers s₀ (execShadowLayerDone layer ecc s) := by
  unfold execShadowLayerDone
  dsimp only
  refine .next ?_
  split
  exacts [.ite (shadowDone_calm h) h, h]

theorem execRecruit_calm {a : Access} {f : BitVec 16} (h : LedgerCalm s₀ s) : LedgerAnswers s₀ (execRecruit a f s) := by
  refine .steps (actWrite_ledger (fun s h => .ite (refuse_calm h).toStep ?_) h)
  extract_lets u
  have hu : LedgerCalm s₀ u := .ite (releasePlan_calm h) h
  clear_value u
  refine LedgerStep.calm ?_ (reply_calm (.refl _))
  exact LedgerStep.made hu rfl (fun hr _ => hu.runs hr) hu.touches

theorem execReplaceCard_calm {a : Access} {f : BitVec 16} (h : LedgerCalm s₀ s) : LedgerAnswers s₀ (execReplaceCard a f s) :=
  .next (actWrite_calm (fun _ h => .ite (refuse_calm h)
    (.ite (refuse_calm h) (.ite (reply_calm (tellHandover_calm (h.update rfl))) (.ite (reply_calm (h.update rfl))
      (reply_calm (toCard_calm h)))))) h)

theorem execPlannedHandover_calm (h : LedgerCalm s₀ s) : LedgerAnswers s₀ (execPlannedHandover s) := by
  unfold execPlannedHandover
  refine .next ?_
  split
  exacts [h, .ite (askPartners_calm (recBegin_calm h)) h]

/-! ### The card's own commands -/

theorem execIdentify_calm {a : Access} {v : BitVec 16} (h : LedgerCalm s₀ s) : LedgerAnswers s₀ (execIdentify a v s) :=
  .next (actWrite_calm (fun _ h => .ite (refuse_calm h) (reply_calm (h.update rfl))) h)

theorem cablePort_calm {p : Nat} {present : Bool} (h : LedgerCalm s₀ s) : LedgerCalm s₀ (cablePort p present s) :=
  .ite (setPort_calm h) (portDown_calm h)

theorem execCopyFailed_calm {b : Nat} {ecc : Ecc} (h : LedgerCalm s₀ s) : LedgerAnswers s₀ (execCopyFailed b ecc s) := by
  unfold execCopyFailed
  refine .next ?_
  split
  · refine copyFails_calm ?_
    split
    exacts [damageFound_calm (recordDamage_calm (applyEcc_calm h)), applyEcc_calm h]
  · exact h

theorem execPatrolScrubRead_calm {w : ScrubAt} {f : ScrubFound} (h : LedgerCalm s₀ s) :
    LedgerAnswers s₀ (execPatrolScrubRead w f s) := by
  unfold execPatrolScrubRead
  dsimp only
  refine .next ?_
  split
  · exact h
  · exact corrected_calm h
  split
  · exact damageFound_calm (recordDamage_calm (uncorrectable_calm h))
  · exact pondDamaged_calm (damageFound_calm (recordDamage_calm (uncorrectable_calm h)))

/-! ### Commands of harvest -/

theorem harvRequest_calm {t : Nat} (h : LedgerCalm s₀ s) : LedgerCalm s₀ (harvRequest t s) :=
  .ite (harvStart_calm (h.update rfl)) (setHarv_calm (h.update rfl))

theorem execHarvestStep_calm {a : Access} {t : BitVec 64} (h : LedgerCalm s₀ s) : LedgerAnswers s₀ (execHarvestStep a t s) :=
  .next (actWrite_calm (fun _ h => .ite (refuse_calm h) (reply_calm (harvRequest_calm h))) h)

theorem emitHost_calm {w : HostWr} (h : LedgerCalm s₀ s) : LedgerCalm s₀ (emitHost w s) := by
  unfold emitHost
  dsimp only
  split
  exacts [send_calm (h.update rfl), raiseVec_calm (send_calm (h.update rfl))]

theorem sendHeader_calm (h : LedgerCalm s₀ s) : LedgerCalm s₀ (sendHeader s) :=
  .ite (.ite h (harvDone_calm (emitHost_calm h))) (.ite h (toGateway_calm (h.update rfl)))

theorem execHarvestCancel_calm {a : Access} {v : BitVec 8} (h : LedgerCalm s₀ s) : LedgerAnswers s₀ (execHarvestCancel a v s) :=
  .next (actWrite_calm (fun _ h => .ite (refuse_calm h) (reply_calm (harvFail_calm h))) h)

/-- A boundary block that lands on a card without a job. -/
theorem loadSection_calm {x : Nat × Nat × Bytes × Nat} (h : LedgerCalm s₀ s ∧ jobRuns s = false) :
    LedgerCalm s₀ (loadSection x s) ∧ jobRuns (loadSection x s) = false := by
  suffices hs : LedgerCalm s (loadSection x s) from ⟨h.1.trans hs, hs.idle h.2⟩
  unfold loadSection
  split
  · exact pokeRanges_calm (.refl s)
  · split
    exacts [.refl s, pokeDev_calm (.refl s)]
  · unfold applyBoundary
    extract_lets b s₁ st
    have h₁ : LedgerCalm s s₁ := applyEntries_calm (.refl s)
    have off : jobRuns s₁ = false := h₁.idle h.2
    clear_value s₁
    exact h₁.noJob rfl off
  · exact .refl s

theorem loadImage_calm {buf : Bytes} (hj : jobRuns s = false) (h : LedgerCalm s₀ s) : LedgerCalm s₀ (loadImage buf s) := by
  unfold loadImage
  extract_lets code _ s₁ s₂ s₃ t' _ _ s₄ _
  have h₁ : LedgerCalm s₀ s₁ := h.update rfl
  have off₁ : jobRuns s₁ = false := hj
  clear_value s₁
  obtain ⟨h₂, off₂⟩ : LedgerCalm s₀ s₂ ∧ jobRuns s₂ = false :=
    closed_foldl (P := fun u => LedgerCalm s₀ u ∧ jobRuns u = false) (fun _ _ h => loadSection_calm h) _ _ ⟨h₁, off₁⟩
  clear_value s₂
  have h₃ : LedgerCalm s₂ s₃ := digestOwn_calm (rebuildAll_calm (.refl s₂))
  have off₃ : jobRuns s₃ = false := h₃.idle off₂
  clear_value s₃
  have h₄ : LedgerCalm s₀ s₄ := (h₂.trans h₃).noJob rfl off₃
  clear_value s₄
  exact .ite h₁ (.ite (setPair_calm h₄.withTwin) h₄)

theorem execHarvestLoad_calm {a : Access} {v : BitVec 8} {buffer : Bytes} (h : LedgerCalm s₀ s) :
    LedgerAnswers s₀ (execHarvestLoad a v buffer s) := by
  refine .next (actWrite_calm (fun s h => .ite (refuse_calm h) ?_) h)
  split
  next hc => exact reply_calm (loadImage_calm (by rw [jobRuns, hc.2]) h)
  next => exact refuse_calm h

/-! ### The host link -/

theorem modHost_calm {f : HostSt → HostSt} (h : LedgerCalm s₀ s) : LedgerCalm s₀ (modHost f s) := h.update rfl

theorem setWinbase_calm {v : Nat} (h : LedgerCalm s₀ s) : LedgerCalm s₀ (setWinbase v s) := .ite (modHost_calm h) (modHost_calm h)

theorem openWindow_calm (h : LedgerCalm s₀ s) : LedgerCalm s₀ (openWindow s) := by
  unfold openWindow
  dsimp only
  split
  · exact h
  · split
    exacts [modHost_calm h, .ite (openSnaps_calm (modHost_calm (setSnap_calm h))) (modHost_calm (setSnap_calm h))]

theorem closeWindow_calm (h : LedgerCalm s₀ s) : LedgerCalm s₀ (closeWindow s) := by
  unfold closeWindow
  dsimp only
  refine modHost_calm ?_
  split
  exacts [h, closeSnap_calm h]

theorem setCqbase_calm {v : Nat} (h : LedgerCalm s₀ s) : LedgerCalm s₀ (setCqbase v s) := .ite (modHost_calm h) h

theorem setCqsize_calm {v : Nat} (h : LedgerCalm s₀ s) : LedgerCalm s₀ (setCqsize v s) := .ite (modHost_calm h) h

theorem setCqtail_calm {v : Nat} (h : LedgerCalm s₀ s) : LedgerCalm s₀ (setCqtail v s) :=
  .ite (countBoot_calm h) (wakePath_calm (modHost_calm h))

theorem setRingput_calm {v : Nat} (h : LedgerCalm s₀ s) : LedgerCalm s₀ (setRingput v s) :=
  .ite (modHost_calm h) (countBoot_calm h)

theorem setHostseq_calm {v : Nat} (h : LedgerCalm s₀ s) : LedgerCalm s₀ (setHostseq v s) :=
  .ite (modHost_calm h) (countBoot_calm h)

theorem writeMsix_calm {off : Nat} {bs : Bytes} (h : LedgerCalm s₀ s) : LedgerCalm s₀ (writeMsix off bs s) :=
  flushVecs_calm (modHost_calm h)

theorem writeReg_calm {w : RegWrite} (h : LedgerCalm s₀ s) : LedgerCalm s₀ (writeReg w s) := by
  unfold writeReg
  dsimp only
  split
  · exact setWinbase_calm h
  · exact .ite (openWindow_calm h) (.ite (closeWindow_calm h) h)
  · exact setCqbase_calm h
  · exact .ite (setCqsize_calm h) h
  · exact .ite (setCqtail_calm h) h
  · exact .ite (setRingput_calm h) h
  · exact .ite (modHost_calm h) h
  · exact .ite (modHost_calm h) h
  · exact setHostseq_calm h
  · exact .ite (modHost_calm h) h
  · exact h

theorem regWrite_calm {w : RegWrite} (h : LedgerCalm s₀ s) : LedgerCalm s₀ (regWrite w s) :=
  .ite (.ite (modHost_calm h) h) (.ite (.ite (writeMsix_calm h) h) (.ite (writeReg_calm h) h))

theorem unserved_calm {n : Nat} (h : LedgerCalm s₀ s) : LedgerCalm s₀ (unserved n s) :=
  countBoot_calm (send_calm (modHost_calm h))

theorem winRead_calm {off n : Nat} {ecc : Ecc} (h : LedgerCalm s₀ s) : LedgerCalm s₀ (winRead off n ecc s) := by
  unfold winRead
  extract_lets +onlyGivenNames addr
  refine .ite (unserved_calm h) ?_
  extract_lets +onlyGivenNames s₁ r
  have h₁ : LedgerCalm s₀ s₁ := wakePath_calm h
  have hr : LedgerCalm s₀ r.state := by
    refine .iteOut ?_ (readDev_calm h₁)
    split
    exacts [.iteOut (snapRead_calm h₁) h₁.failed, h₁.failed]
  clear_value r
  cases r with
  | ok => exact send_calm hr
  | notBacked | failed => exact unserved_calm (damageFound_calm hr)

theorem dropWrite_calm (h : LedgerCalm s₀ s) : LedgerCalm s₀ (dropWrite s) := countBoot_calm h

theorem startCmd_calm {op : Nat} {entry : BitVec 512} {f : Cmd → State → State × Nat}
    (hf : ∀ x0 s, LedgerCalm s₀ s → LedgerCalm s₀ (f x0 s).1) (h : LedgerCalm s₀ s) :
    LedgerCalm s₀ (startCmd op entry f s) :=
  .ite h (modHost_calm (.iteFst (hf _ _ (wakePath_calm h)) (.pair h)))

theorem copyIn_calm {a n : Nat} {bs : List Bytes} (h : LedgerCalm s₀ s) : LedgerCalm s₀ (copyIn a bs n s).1 := by
  generalize hf : copyIn = f
  delta copyIn copyIn._f at hf
  obtain ⟨wr, e₁, hw⟩ := writeDev_calmSealed s₀
  obtain ⟨area, e₂⟩ := exists_eq' (a' := planArea)
  rw [e₁, e₂] at hf
  induction bs generalizing a n s with
  | nil =>
    subst hf
    exact h
  | cons b bs ih =>
    generalize hp : f a (b :: bs) n s = p
    rw [← hf] at hp
    dsimp only at hp
    subst hf hp
    refine .iteFst h (.iteFst (.pair (pokeDev_calm h)) ?_)
    split
    · next e => exact ih ((hw h).out e)
    · next e => exact (hw h).out e
    · next e => exact (hw h).out e

theorem hostToDevice_calm {data : Bytes} {hostError : Bool} {c : Cmd} (h : LedgerCalm s₀ s) :
    LedgerCalm s₀ (hostToDevice data hostError c s).1 :=
  .pair (countBoot_calm (copyIn_calm h))

theorem copyOut_calm {rd : Nat → State → MemOut} {n a : Nat} {acc : Bytes}
    (hf : ∀ a s, LedgerCalm s₀ s → LedgerCalm s₀ (rd a s).state) (h : LedgerCalm s₀ s) : LedgerCalm s₀ (copyOut rd n a acc s).1 := by
  fun_induction copyOut rd n a acc s with
  | case1 => exact h
  | case2 => exact h
  | case3 _ _ _ _ _ _ _ e ih => exact ih ((hf _ _ h).out e)
  | case4 _ _ _ _ _ _ e => exact (hf _ _ h).out e
  | case5 _ _ _ _ _ _ e => exact (hf _ _ h).out e

theorem deviceToHost_calm {snapSrc : Bool} {ecc : Ecc} {c : Cmd} (h : LedgerCalm s₀ s) :
    LedgerCalm s₀ (deviceToHost snapSrc ecc c s).1 := by
  unfold deviceToHost
  extract_lets +onlyGivenNames go s₁
  have h₁ : LedgerCalm s₀ s₁ := applyEcc_calm h
  have hgo {rd s} (hr : ∀ a s, LedgerCalm s₀ s → LedgerCalm s₀ (rd a s).state) (h : LedgerCalm s₀ s) : LedgerCalm s₀ (go rd s).1 :=
    .pair (.ite (countBoot_calm (copyOut_calm hr h)) (hostWrite_calm (countBoot_calm (copyOut_calm hr h))))
  refine .iteFst ?_ (hgo (fun _ _ => readDev_calm) h₁)
  split
  · exact .iteFst (hgo (fun _ _ => snapRead_calm) h₁) h₁
  · exact h₁

theorem completeCmd_calm {c : Cmd} {cs : List Cmd} (h : LedgerCalm s₀ s) : LedgerCalm s₀ (completeCmd c cs s) :=
  have h := .unless countBoot_calm (countBoot_calm (modHost_calm h))
  .ite (hostWrite_calm h) (.when raiseVec_calm h)

theorem execCommandComplete_calm (h : LedgerCalm s₀ s) : LedgerAnswers s₀ (execCommandComplete s) := by
  unfold execCommandComplete
  refine .next ?_
  split
  exacts [h, .ite h (completeCmd_calm h)]

theorem writeOldest_calm (h : LedgerCalm s₀ s) : LedgerCalm s₀ (writeOldest s) := by
  unfold writeOldest
  dsimp only
  split
  · exact h
  split
  · split
    · next e => exact (takeSection_calm (modHost_calm h)).fst e
    · next e => exact emitHost_calm ((takeSection_calm (modHost_calm h)).fst e)
  · exact emitHost_calm (modHost_calm h)

theorem gapMarker_calm (h : LedgerCalm s₀ s) : LedgerCalm s₀ (gapMarker s) := .ite h (enqueue_calm (modHost_calm h))

theorem execEvpopRead_calm {off : Fin 32} {n : Nat} (h : LedgerCalm s₀ s) : LedgerAnswers s₀ (execEvpopRead off n s) := by
  unfold execEvpopRead
  refine .next ?_
  split
  · exact h
  · split
    exacts [send_calm h, gapMarker_calm (send_calm (modHost_calm h))]

theorem unknownBytes_calm {n : Nat} (h : LedgerCalm s₀ s) : LedgerCalm s₀ (unknownBytes n s).1 := .pair (h.update rfl)

theorem loseCopy_calm {c : Cmd} (h : LedgerCalm s₀ s) : LedgerCalm s₀ (loseCopy c s) := by
  unfold loseCopy
  split
  · split
    · next e => exact copyIn_calm ((unknownBytes_calm h).fst e)
  · exact h

theorem hostReset_calm {cause : Nat} {linkStays : Bool} (h : LedgerCalm s₀ s) : LedgerCalm s₀ (hostReset cause linkStays s) :=
  .ite h (.when harvFail_calm (modHost_calm (endSessions_calm (closeWindow_calm (.foldl (fun _ _ => loseCopy_calm) h)))))

end Sys2Proof.Machine
end

section
/-! PROOF. The rules of the object dictionary and of the mailbox, and of every command (O5). -/

namespace Sys2Proof.Machine

open Sys2Proof.Claims

variable {s₀ s t : State}

/-! ### The object dictionary -/

theorem resState_ledger {r : Res} (hr : LedgerAnswers s₀ r) : LedgerStep s₀ (resState r s) := by
  obtain ⟨t, rfl, ht⟩ := hr
  exact ht

theorem stageEntry_calm {a : Access} {idx sub : Nat} {bs : Bytes}
    (h : LedgerCalm s₀ s) : LedgerCalm s₀ (stageEntry a idx sub bs s) := by
  unfold stageEntry
  extract_lets ps
  split
  · exact refuse_calm h
  split
  · exact refuse_calm h
  next full => exact reply_calm (h.trans ⟨fun hs => ⟨hs.1, by dsimp only; omega, by dsimp only; omega⟩, List.Sublist.refl _, id, .inl rfl⟩)

theorem mem_partsOf {gen : BitVec 32} {target : Option Nat} {es : List EntryVal} {p : Part} (h : p ∈ partsOf gen target es) :
    p.gen = gen ∧ p.entries ≠ [] := by
  unfold partsOf at h
  obtain ⟨hm, hne⟩ := List.mem_filter.mp h
  obtain ⟨pt, -, rfl⟩ := List.mem_map.mp hm
  refine ⟨rfl, fun e => ?_⟩
  rw [e] at hne
  cases hne

/-- What still awaits when the parts with the routes of CAN have been applied. -/
theorem mem_applyCan {p : Part} (h : p ∈ (applyCan s).dict.awaiting) : p ∈ s.dict.awaiting ∧ (p.point = .now → p.entries = []) := by
  unfold applyCan at h
  extract_lets es u at h
  split at h
  next none =>
    refine ⟨h, fun now => ?_⟩
    have all : es = [] := List.isEmpty_iff.mp none
    exact List.flatMap_eq_nil_iff.mp all p (List.mem_filter.mpr ⟨h, decide_eq_true now⟩)
  next =>
    have hu : p ∈ u.dict.awaiting := by
      split at h <;> exact h
    have kept : u.dict.awaiting = s.dict.awaiting.filter fun p => !decide (p.point = .now) := applyParts_awaiting _ s
    rw [kept] at hu
    obtain ⟨hm, hp⟩ := List.mem_filter.mp hu
    refine ⟨hm, fun now => ?_⟩
    rw [now] at hp
    cases hp

/-- The generations with awaiting parts, once the parts of one more may have joined them. -/
theorem gensAwaiting_join_le {gen : BitVec 32} (h : ∀ p ∈ t.dict.awaiting, p ∈ s.dict.awaiting ∨ p.gen = gen) :
    (gensAwaiting t).length ≤ (gensAwaiting s).length + 1 := by
  obtain ⟨ht, mt⟩ := gensAwaiting_toFinset t
  obtain ⟨-, ms⟩ := gensAwaiting_toFinset s
  refine (List.subperm_of_subset (l₂ := gen :: gensAwaiting s) ht fun g hg => ?_).length_le
  obtain ⟨p, hp, rfl⟩ := List.mem_map.mp ((mt g).mp hg)
  exact (h p hp).elim (fun hs => .tail _ ((ms _).mpr (List.mem_map_of_mem hs))) fun e => e ▸ List.mem_cons_self

/-- A commit has room for its parts, where nothing refuses it. -/
theorem commitError_room {a : Access} {gen : BitVec 32} {target : Option Nat} (h : commitError a gen target s = none) :
    (gensAwaiting s).length < 4 ∨ ∀ p ∈ partsOf gen target s.dict.pset, p.point = .now := by
  unfold commitError at h
  extract_lets parts past at h
  split at h
  · cases h
  split at h
  · cases h
  split at h
  · cases h
  split at h
  · cases h
  split at h
  · cases h
  next room =>
  by_cases full : 4 ≤ (gensAwaiting s).length
  · refine .inr fun p hp => ?_
    have none : parts = [] := by
      cases hparts : parts with
      | nil => rfl
      | cons q qs => exact absurd ⟨full, by rw [hparts]; rfl⟩ room
    by_contra hne
    have : p ∈ parts := List.mem_filter.mpr ⟨hp, decide_eq_true hne⟩
    rw [none] at this
    cases this
  · exact .inl (Nat.lt_of_not_le full)

/-- A commit that nothing refuses leaves parts of at most 4 generations. -/
theorem commitApply_ledger {a : Access} {gen : BitVec 32} {target : Option Nat}
    (room : (gensAwaiting s).length < 4 ∨ ∀ p ∈ partsOf gen target s.dict.pset, p.point = .now) : LedgerStep s (commitApply a gen target s) := by
  unfold commitApply
  extract_lets es parts s₁ s₂ _ s₃ s₄ _
  have h₂ : LedgerCalm s s₂ := applyEntries_calm (clearPending_calm (.refl s))
  clear_value s₂
  have sets₃ : SetBounds s₂ → SetBounds s₃ := id
  have runs₃ : RunsNext s₂ → RunsNext s₃ := id
  have touches₃ : TouchesInTurn s₂ → TouchesInTurn s₃ := id
  have joins₃ : s₃.fab.joining = s₂.fab.joining := rfl
  have await₃ : s₃.dict.awaiting = s₂.dict.awaiting ++ parts := rfl
  clear_value s₃
  have h₄ : LedgerCalm s₃ s₄ := beginLoad_calm (applyIdleParts_calm (settleGens_calm (.refl s₃)))
  clear_value s₄
  have joined {u : State} (hu : LedgerCalm s₃ u) {p : Part} (hp : p ∈ u.dict.awaiting) : p ∈ s.dict.awaiting ∨ p ∈ parts :=
    (List.mem_append.mp (await₃ ▸ hu.await.subset hp)).imp_left fun h => h₂.await.subset h
  have step {u : State} (hu : LedgerCalm s₃ u) (await : FewAwait s → FewAwait u) : LedgerStep s u :=
    ⟨fun hs => hu.sets (sets₃ (h₂.sets hs)), await, fun hr _ => hu.runs (runs₃ (h₂.runs hr)), fun ht => hu.touches (touches₃ (h₂.touches ht))⟩
  have few {u : State} (hu : LedgerCalm s₃ u) (lt : (gensAwaiting s).length < 4) : LedgerStep s u :=
    step hu fun _ => (gensAwaiting_join_le fun p hp => (joined hu hp).imp_right fun h => (mem_partsOf h).1).trans lt
  have can : LedgerStep s (applyCan (reply a [] s₄)) := by
    have hc : LedgerCalm s₃ (applyCan (reply a [] s₄)) := applyCan_calm (reply_calm h₄)
    refine room.elim (few hc) fun now => step hc fun hs => Nat.le_trans (gensAwaiting_length_le fun g hg => ?_) hs
    obtain ⟨p, hp, rfl⟩ := List.mem_map.mp hg
    refine List.mem_map_of_mem ((joined hc hp).resolve_right fun hm => (mem_partsOf hm).2 ((mem_applyCan hp).2 (now p hm)))
  split
  next p hp =>
    refine .ite ?_ can
    have lt : (gensAwaiting s).length < 4 := room.resolve_right fun now => by
      have step := List.find?_some hp
      rw [now p (List.mem_of_find?_eq_some hp)] at step
      cases step
    exact few (toTwin_calm (h₄.update rfl)) lt
  next => exact can

theorem noteResult_calm {r g f c : BitVec 32} (h : LedgerCalm s₀ s) :
    LedgerCalm s₀ { s with dict := { s.dict with lastRes := r, lastGen := g, failing := f, conflict := c } } := h.update rfl

theorem commitWith_ledger {a : Access} {sub : Nat} {gen : BitVec 32} {target : Option Nat} (h : LedgerCalm s₀ s) :
    LedgerStep s₀ (commitWith a sub gen target s) := by
  unfold commitWith
  dsimp only
  split
  · exact LedgerCalm.toStep (refuse_calm (noteResult_calm h))
  next hc =>
    refine (noteResult_calm h).step (commitApply_ledger ?_)
    simpa only [gensAwaiting] using commitError_room hc

theorem execCommit_calm {a : Access} {gen : BitVec 32} (h : LedgerCalm s₀ s) : LedgerAnswers s₀ (execCommit a gen s) :=
  .steps (actWrite_ledger (fun _ => commitWith_ledger) h)

theorem execCommitAtStep_calm {a : Access} {gen : BitVec 32} {step : BitVec 64} (h : LedgerCalm s₀ s) :
    LedgerAnswers s₀ (execCommitAtStep a gen step s) :=
  .steps (actWrite_ledger (fun _ => commitWith_ledger) h)

theorem execDiscard_calm {a : Access} {gen : BitVec 32} (h : LedgerCalm s₀ s) : LedgerAnswers s₀ (execDiscard a gen s) :=
  .next (actWrite_calm (fun _ h => .ite (refuse_calm h) (.ite (refuse_calm h) (reply_calm (clearPending_calm h)))) h)

theorem execErrorFieldClear_calm {a : Access} {v : BitVec 8} (h : LedgerCalm s₀ s) : LedgerAnswers s₀ (execErrorFieldClear a v s) :=
  .next (actWrite_calm (fun _ h => .ite (refuse_calm h) (reply_calm (h.update rfl))) h)

theorem execStore_calm {a : Access} {cls : Fin 3} {sig : BitVec 32} (h : LedgerCalm s₀ s) : LedgerAnswers s₀ (execStore a cls sig s) :=
  .next (actWrite_calm (fun _ h => .ite (refuse_calm h) (h.update rfl)) h)

theorem execRestoreDefaults_calm {a : Access} {cls : Fin 3} {sig : BitVec 32} (h : LedgerCalm s₀ s) :
    LedgerAnswers s₀ (execRestoreDefaults a cls sig s) :=
  .next (actWrite_calm (fun _ h => .ite (refuse_calm h) (reply_calm (putStored_calm h))) h)

theorem specialWrite_calm {a : Access} {idx sub : Nat} {bs : Bytes} (h : LedgerCalm s₀ s) :
    Holds (LedgerAnswers s₀) (specialWrite a idx sub bs s) := by
  unfold specialWrite
  dsimp only
  split
  · exact .some (execErrorFieldClear_calm h)
  · split
    exacts [.none, .some (execStore_calm h)]
  · split
    exacts [.none, .some (execRestoreDefaults_calm h)]
  · exact .some (execStartJob_calm h)
  · exact .some (execStopJob_calm h)
  · exact .some (execCommit_calm h)
  · exact .some (execCommitAtStep_calm h)
  · exact .some (execDiscard_calm h)
  · refine .some ?_
    split
    exacts [execWakeRequest_calm h, execSleepRequest_calm h]
  · exact .some (execIdentify_calm h)
  · exact .some (execReboot_calm h)
  · exact .some (execStageImage_calm h)
  · exact .some (execNextSlot_calm h)
  · exact .some (execConfirm_calm h)
  · exact .some (execHalt_calm h)
  · exact .some (execResume_calm h)
  · exact .some (execHarvestStep_calm h)
  · exact .some (execHarvestCancel_calm h)
  · split
    exacts [.some (execHarvestLoad_calm (unknownBytes_calm h)), .some (execHarvestLoad_calm h)]
  · exact .some (execRecruit_calm h)
  · exact .some (execReplaceCard_calm h)
  · exact .some (execActivate_calm h)
  · exact .some (execRelease_calm h)
  · exact .none

theorem applyNow_calm {idx sub : Nat} {bs : Bytes} (h : LedgerCalm s₀ s) : LedgerCalm s₀ (applyNow idx sub bs s) := by
  unfold applyNow
  dsimp only
  split
  exacts [writeHeader_calm (h.update rfl), writeHeader_calm (h.update rfl), putVal_calm h]

theorem writeEntry_ledger {a : Access} {idx sub : Nat} {bs : Bytes}
    (h : LedgerCalm s₀ s) : LedgerStep s₀ (writeEntry a idx sub bs s) := by
  unfold writeEntry
  refine .ite (jobWrite_calm (fun _ h => h) h).toStep (serve_ledger (fun s h => ?_) h)
  split
  · exact (refuse_calm h).toStep
  refine .ite (refuse_calm h).toStep (.ite (refuse_calm h).toStep ?_)
  split
  · next e => exact resState_ledger ((specialWrite_calm h).of_some e)
  · exact LedgerCalm.toStep (.ite (refuse_calm h) (.ite (reply_calm (applyNow_calm h)) (stageEntry_calm h)))

theorem writeObject_calm {a : Access} {idx : Nat} {bs : Bytes} (h : LedgerCalm s₀ s) :
    LedgerCalm s₀ (writeObject a idx bs s) := by
  unfold writeObject
  refine serve_calm (fun u h => ?_) h
  extract_lets ps vs new staged w _
  refine .ite (refuse_calm h) (.ite (refuse_calm h) (.ite (refuse_calm h) ?_))
  split
  · exact refuse_calm h
  refine .ite (refuse_calm h) ?_
  split
  · exact refuse_calm h
  next full =>
    have hw : LedgerCalm s₀ w := .foldl (fun _ _ => applyNow_calm) h
    clear_value w
    exact reply_calm (.ite (hw.trans ⟨fun hs => ⟨hs.1, by dsimp only; omega, by dsimp only; omega⟩, List.Sublist.refl _, id, .inl rfl⟩) hw)

theorem dropSession_calm {r : Route} {sid : Nat} (h : LedgerCalm s₀ s) : LedgerCalm s₀ (dropSession r sid s) := h.update rfl

theorem invalid_calm {a : Access} {idx sub : Nat} (h : LedgerCalm s₀ s) : LedgerCalm s₀ (invalid a idx sub s) :=
  .ite (refuse_calm h) h

theorem writeSession_ledger {a : Access} {x : Session} {last : Bool} (h : LedgerCalm s₀ s) :
    LedgerStep s₀ (writeSession a x last s) := by
  unfold writeSession
  extract_lets u _
  have hu : LedgerCalm s₀ u := dropSession_calm h
  clear_value u
  split
  · split
    exacts [writeEntry_ledger hu, (writeObject_calm hu).toStep]
  · exact LedgerCalm.toStep (send_calm (hu.update rfl))

theorem readSession_calm {a : Access} {x : Session} (h : LedgerCalm s₀ s) : LedgerCalm s₀ (readSession a x s) :=
  have h := dropSession_calm h
  .ite (reply_calm h) (send_calm (h.update rfl))

theorem openSession_calm {a : Access} {idx sub : Nat} {f : State → State} (hf : ∀ s, LedgerCalm s₀ s → LedgerCalm s₀ (f s))
    (h : LedgerCalm s₀ s) :
    LedgerCalm s₀ (openSession a idx sub f s) :=
  .ite (refuse_calm h) (hf _ h)

theorem openSession_ledger {a : Access} {idx sub : Nat} {f : State → State} (hf : ∀ s, LedgerCalm s₀ s → LedgerStep s₀ (f s))
    (h : LedgerCalm s₀ s) : LedgerStep s₀ (openSession a idx sub f s) :=
  .ite (refuse_calm h).toStep (hf _ h)

theorem segment_ledger {a : Access} {sid : Nat} {m : SegMsg} {data : Bytes} {last : Bool} (h : LedgerCalm s₀ s) :
    LedgerStep s₀ (segment a sid m data last s) := by
  unfold segment
  split
  · exact openSession_ledger (fun _ => writeSession_ledger) h
  · exact LedgerCalm.toStep (openSession_calm (fun _ => serveRead_calm (fun _ _ => readSession_calm)) h)
  · exact LedgerCalm.toStep (invalid_calm (dropSession_calm h))
  · exact LedgerCalm.toStep (invalid_calm (dropSession_calm h))
  · exact .ite (readSession_calm h).toStep (writeSession_ledger h)
  · exact (invalid_calm h).toStep

theorem execInvalidUsdoMessage_calm {a : Access} {carried : Option (BitVec 16 × BitVec 8)} {sid : Option Nat}
    (h : LedgerCalm s₀ s) :
    LedgerAnswers s₀ (execInvalidUsdoMessage a carried sid s) := by
  unfold execInvalidUsdoMessage
  dsimp only
  refine .next ?_
  split
  · exact h
  split
  · refine refuse_calm ?_
    split
    exacts [h, dropSession_calm h]
  refine refuse_calm ?_
  split
  exacts [h, dropSession_calm h]

theorem execUsdoSessionTimeout_calm {path : Route} {sid : Nat} (h : LedgerCalm s₀ s) :
    LedgerAnswers s₀ (execUsdoSessionTimeout path sid s) := by
  unfold execUsdoSessionTimeout
  refine .next ?_
  split
  exacts [h, refuse_calm (dropSession_calm h)]

theorem nmtIgnored_calm {c : Nat} (h : LedgerCalm s₀ s) : LedgerCalm s₀ (nmtIgnored c s) := raiseOpen_calm h

theorem bootUp_calm {old : List Nat} (h : LedgerCalm s₀ s) : LedgerCalm s₀ (bootUp old s) :=
  send_calm (.ite h (endSessions_calm h))

theorem resetComm_calm (h : LedgerCalm s₀ s) : LedgerCalm s₀ (resetComm s) :=
  bootUp_calm (followNode_calm (defaultGroup_calm (.foldl (fun _ _ => loadEntry_calm) h)))

theorem resetIdle_calm (h : LedgerCalm s₀ s) : LedgerCalm s₀ (resetIdle s) := by
  unfold resetIdle
  extract_lets old u _ w
  have hu : LedgerCalm s₀ u := loadStored_calm h
  clear_value u
  have hw : LedgerCalm s₀ w := clearPending_calm (hu.trans ⟨id, List.nil_sublist _, id, .inl rfl⟩)
  exact bootUp_calm hw

theorem nmtBoot_calm {c : Nat} (h : LedgerCalm s₀ s) : LedgerCalm s₀ (nmtBoot c s) :=
  .ite (resetComm_calm h) (.ite (startBoot_calm h) (nmtIgnored_calm h))

theorem nmt_calm {c : Nat} {f : State → State} (hf : ∀ s, LedgerCalm s₀ s → LedgerCalm s₀ (f s)) (h : LedgerCalm s₀ s) :
    LedgerCalm s₀ (nmt c f s) :=
  .ite h (.ite (nmtBoot_calm h) (hf _ (.ite h (wake_calm h))))

theorem nmt_ledger {c : Nat} {f : State → State} (hf : ∀ s, LedgerCalm s₀ s → LedgerStep s₀ (f s)) (h : LedgerCalm s₀ s) :
    LedgerStep s₀ (nmt c f s) :=
  .ite h.toStep (.ite (nmtBoot_calm h).toStep (hf _ (.ite h (wake_calm h))))

theorem execStartRemoteNode_calm (h : LedgerCalm s₀ s) : LedgerAnswers s₀ (execStartRemoteNode s) := by
  unfold execStartRemoteNode
  refine .steps (nmt_ledger (fun _ h => ?_) h)
  split
  · exact (nmtIgnored_calm h).toStep
  · split
    exacts [.ite (h.step startJob_ledger) (nmtIgnored_calm h).toStep, (actResume_calm h).toStep, h.toStep, (nmtIgnored_calm h).toStep]

theorem execStopRemoteNode_calm (h : LedgerCalm s₀ s) : LedgerAnswers s₀ (execStopRemoteNode s) := by
  unfold execStopRemoteNode
  refine .next ?_
  refine nmt_calm (fun _ h => ?_) h
  split
  · exact nmtIgnored_calm h
  · split
    exacts [raiseHalt_calm h, h, nmtIgnored_calm h]

theorem execEnterPreOperational_calm (h : LedgerCalm s₀ s) : LedgerAnswers s₀ (execEnterPreOperational s) := by
  unfold execEnterPreOperational
  dsimp only
  refine .next ?_
  refine nmt_calm (fun _ h => ?_) h
  split
  · exact nmtIgnored_calm h
  · split
    exacts [(h.update rfl), reportAbort_calm h, h]

theorem execResetNode_calm (h : LedgerCalm s₀ s) : LedgerAnswers s₀ (execResetNode s) := by
  unfold execResetNode
  refine .next (nmt_calm (fun s h => .ite ?_ ?_) h)
  · obtain ⟨hu, off⟩ := releasePlan_idles h
    generalize releasePlan s = u at hu off
    exact resetIdle_calm (hu.noJob rfl off)
  · split
    exacts [resetIdle_calm h, resetIdle_calm (releasePlan_calm h), nmtIgnored_calm h]

/-! ### Mailbox -/

theorem serveUsdo_ledger {a : Access} {m : UsdoMsg} (h : LedgerCalm s₀ s) : LedgerStep s₀ (serveUsdo a m s) := by
  unfold serveUsdo
  split
  · exact (answerRead_calm h).toStep
  · exact (answerAll_calm h).toStep
  · exact writeEntry_ledger h
  · exact (writeObject_calm h).toStep
  · exact .ite (segment_ledger h) h.toStep
  · exact h.toStep
  · exact h.toStep

theorem mbxRequest_ledger {dst len : Nat} {m : MbxMsg} (h : LedgerCalm s₀ s) : LedgerStep s₀ (mbxRequest dst len m s) := by
  unfold mbxRequest
  extract_lets +onlyGivenNames a mine _ go
  have hgo {idx sub u} : LedgerStep s₀ (go idx sub u) :=
    .ite (invalid_calm h).toStep (.ite (serveUsdo_ledger h)
      (LedgerCalm.toStep (.ite h (.ite (refuse_calm h) (toCardId_calm (h.update rfl))))))
  cases m with
  | read | readAll | write | writeAll | segment => exact hgo
  | invalid => exact (invalid_calm h).toStep

theorem execForwardTimeout_calm (h : LedgerCalm s₀ s) : LedgerAnswers s₀ (execForwardTimeout s) := by
  unfold execForwardTimeout
  refine .next ?_
  split
  exacts [h, refuse_calm (modHost_calm h)]

theorem passOn_calm {o : Out} (h : LedgerCalm s₀ s) : LedgerCalm s₀ (passOn s o) := .ite (send_calm h) h

theorem takeAnswer_calm {src : Nat} {s0 : Source} {ans : Option Bytes} {code : Nat} (h : LedgerCalm s₀ s) :
    LedgerCalm s₀ (takeAnswer src s0 ans code s) := by
  unfold takeAnswer
  dsimp only
  split
  · split
    exacts [passOn_calm (modHost_calm h), passOn_calm (modHost_calm h)]
  · exact ownAnswer_calm h

theorem takeUsdo_ledger {src : Nat} {s0 : Source} {m : UsdoMsg} (h : LedgerCalm s₀ s) : LedgerStep s₀ (takeUsdo src s0 m s) := by
  unfold takeUsdo
  split
  exacts [(takeAnswer_calm h).toStep, (takeAnswer_calm h).toStep, serveUsdo_ledger h]

theorem engineLate_calm {layer again : Nat} (h : LedgerCalm s₀ s) : LedgerCalm s₀ (engineLate layer again s) :=
  .ite (reportAbort_calm h) h

theorem lateAt_calm {r : Requester} {again : Nat} (h : LedgerCalm s₀ s) : LedgerCalm s₀ (lateAt r again s) := by
  unfold lateAt
  dsimp only
  split
  · split
    exacts [h, streamLate_calm h]
  · exact engineLate_calm h
  · exact engineLate_calm h
  · exact .ite (h.update rfl) h
  · exact h
  · exact .ite (copyFails_calm h) h
  · exact .ite (overwrite_calm h) h

/-! ### Every command -/

theorem execSensorSample_calm {r : Readings} (h : LedgerCalm s₀ s) : LedgerAnswers s₀ (execSensorSample r s) := by
  unfold execSensorSample
  refine .next (.ite h ?_)
  extract_lets u _ w
  have hu : LedgerCalm s₀ u := countRun_calm (countBoot_calm (countBoot_calm h))
  clear_value u
  have hw : LedgerCalm s₀ w := recruitLate_calm (hu.update rfl)
  clear_value w
  exact .ite (sampleAll_ledgerCalm (scrubPeriod_calm hw)) (hw.update rfl)

/-- Without power the card forgets all but what is stored. -/
theorem keeperOff_ledger : LedgerStep s (keeperOff s) :=
  ⟨fun _ => setBounds_empty (show (1 : BitVec 32) ≠ 0 by decide) rfl, fun _ => by simp [FewAwait, gensAwaiting, keeperOff], fun hr _ => ⟨hr.1, fun hm => nomatch hm⟩, id⟩

theorem execVauxLoss_ledger (h : LedgerCalm s₀ s) : LedgerAnswers s₀ (execVauxLoss s) := by
  unfold execVauxLoss
  extract_lets _ u
  have hu : LedgerCalm s₀ u := h.update rfl
  exact .steps (.ite hu.toStep (hu.step keeperOff_ledger))

/-- A command behind calm work answers a state with all that a step keeps. -/
theorem exec_ledger (c : Instr) (h : LedgerCalm s₀ s) : LedgerAnswers s₀ (exec c s) := by
  cases c with
  -- the operations of a bundle
  | ald | abc | aps | adr | afl | anop | fadd | fsub | fmul | fma | fneg | fabs | fcps | fmax | fmin | fcmp | sel
  | mov | iadd | isub | imul | shl | shr | sar | and | or | xor | imax | imin | icmp | cvt | exp2 | log2 | rcp | rsqrt
  | div | sqrt | kand | kor | kxor | knot | kset | kidx | vtag | rsum | rssum | rmax | rmin | rarg | rsmax | rsmin
  | rsarg | raddraw | rrd | rclr | rtag | sarm | srearm | sstop | swait | cmark | crel | garr | gwait | gsync | lset
  | ladd | iset | iaddi | ixor | ilen | hset | br | bcnz | bcond | srecv | ssend | bwait | nap | wake | quiet
  | stepend => exact .next (giveOp_calm h)
  -- the object dictionary and the towpath
  | entryWrite => exact .steps (writeEntry_ledger h)
  | usdoSegment => exact .steps (.ite (segment_ledger h) h.toStep)
  | invalidUsdoMessage => exact execInvalidUsdoMessage_calm h
  | usdoSessionTimeout => exact execUsdoSessionTimeout_calm h
  | forwardTimeout => exact execForwardTimeout_calm h
  | commit => exact execCommit_calm h
  | commitAtStep => exact execCommitAtStep_calm h
  | discard => exact execDiscard_calm h
  | pendingOwnerTimeout => exact .next (.ite (raiseOpen_calm (clearPending_calm h)) h)
  | errorFieldClear => exact execErrorFieldClear_calm h
  | store => exact execStore_calm h
  | storeDone => exact .next (finishStore_calm h)
  | restoreDefaults => exact execRestoreDefaults_calm h
  | startRemoteNode => exact execStartRemoteNode_calm h
  | stopRemoteNode => exact execStopRemoteNode_calm h
  | enterPreOperational => exact execEnterPreOperational_calm h
  | resetNode => exact execResetNode_calm h
  | resetCommunication => exact .next (nmt_calm (fun _ => resetComm_calm) h)
  | producerHeartbeatTimer => exact .next (.ite (send_calm h) h)
  | tpdoEventTimer => exact .next (.ite (sendTpdo_calm h) h)
  -- matrix arrays
  | batchRowArrival => exact execBatchRowArrival_calm h
  | batchWaitExpiry => exact execBatchWaitExpiry_calm h
  -- scalar cores
  | scalarInstruction => exact execScalarInstruction_calm h
  | mbxoutWrite => exact execMbxoutWrite_calm h
  | mbxinRead => exact execMbxinRead_calm h
  | chmarkWrite => exact execChmarkWrite_calm h
  -- streams
  | streamBurst => exact execStreamBurst_calm h
  | memoryRequestComplete => exact execMemoryRequestComplete_calm h
  | lockBreak => exact execLockBreak_calm h
  -- sequencer: gates, registers, branches, mailboxes, naps
  | sequencerWatchdog => exact execSequencerWatchdog_calm h
  | gateLimitExpiry => exact execGateLimitExpiry_calm h
  | unitFault => exact .next (.ite (unitFaultAt_calm h) h)
  -- the plan image
  | activate => exact execActivate_calm h
  | activationDone => exact execActivationDone_calm h
  | release => exact execRelease_calm h
  -- basin, reservoir and barges
  | promote => exact .next (raisePromote_calm (.ite (modBarge_calm h) h))
  | evict => exact .next (raiseEvict_calm h)
  | copyDone => exact .next (damageFound_calm (copyDone_calm h))
  | copyFailed => exact execCopyFailed_calm h
  | lateRequest => exact .next (lateAt_calm (countRun_calm h))
  | reservoirGroupFailure => exact .next (.ite h (cardFails_calm (recordDamage_calm (h.update rfl))))
  | patrolScrubRead => exact execPatrolScrubRead_calm h
  -- the update engine and the step ledger
  | layerCheckDone => exact execLayerCheckDone_calm h
  | updateStageStart => exact execUpdateStageStart_ledger h
  | updatePieceDone => exact execUpdatePieceDone_calm h
  | refreshPass => exact .next (.ite (.foldl (fun _ _ => refreshOne_calm) (h.update rfl)) h)
  | cardReady => exact execCardReady_ledger h
  | readyMessage => exact .next (hear_calm (fun _ => takeReady_calm) h)
  | commitMessage => exact execCommitMessage_ledger h
  | stepOpen => exact execStepOpen_ledger h
  | abortReport => exact .next (hear_calm (fun _ => takeReport_calm) h)
  | abortMessage => exact execAbortMessage_ledger h
  | enginesStopped => exact execEnginesStopped_ledger h
  | normMessage => exact .next (hear_calm (fun _ => takeNorm_calm) h)
  | applyMessage => exact execApplyMessage_ledger h
  | startJob => exact execStartJob_calm h
  | stopJob => exact execStopJob_calm h
  -- fabric, collectives and the towpath lane
  | portTrained => exact .next (trained_calm h)
  | lossOfLock => exact .next (.ite (startRetrain_calm h) h)
  | retrainDone => exact .next (.ite (retrained_calm h) h)
  | retrainTimeout => exact .next (.ite (portDown_calm h) h)
  | nullFlit => exact .next (onFlit_calm (fun _ _ _ h => h) h)
  | writeFlit => exact .next (onFlit_calm (fun _ _ _ => onWrite_calm) h)
  | readRequest => exact .next (onFlit_calm (fun _ _ _ => onRead_calm) h)
  | readResponse => exact .next (onFlit_calm (fun _ _ _ => onResponse_calm) h)
  | writeAcknowledge => exact .next (onFlit_calm (fun _ _ _ => onAck_calm) h)
  | linkControl => exact execLinkControl_calm h
  | multicastData => exact .next (onFlit_calm (fun _ _ _ h => .ite (onTreeData_calm h) (.ite (onTreeStart_calm h) h)) h)
  | detachMessage => exact .next (.ite h (onDetach_calm h))
  | remoteRequestTimeout => exact execRemoteRequestTimeout_calm h
  | towpathUsdo => exact .steps (hear_ledger (fun _ => takeUsdo_ledger) h)
  | gateArrival => exact .next (hear_calm (fun _ => gateMessage_calm (fun _ => gateArrived_calm)) h)
  | gateRelease => exact .next (hear_calm (fun _ => gateMessage_calm (fun _ => gateReleased_calm)) h)
  | treeEdgeConfirmation => exact .next (hear_calm (fun _ => takeEdge_calm) h)
  | heartbeatMessage => exact .next (hear_calm (fun _ h => .ite h (h.update rfl)) h)
  | fabricHeartbeatTimer => exact .next (.when flood_calm (h.update rfl))
  | suspicionTimeout => exact .next (.when suspectCard_calm (h.update rfl))
  | suspect => exact .next (hear_calm (fun _ => takeSuspect_calm) h)
  | probe => exact .next (hear_calm (fun _ h => .ite h (toCardId_calm h)) h)
  | probeAnswer => exact .next (hear_calm (fun _ h => (h.update rfl)) h)
  | probeTimeout => exact .next (.ite (declareFailed_calm h) h)
  | halt => exact execHalt_calm h
  | haltMessage => exact .next (hear_calm (fun _ h => .ite h (actHalt_calm h)) h)
  | resume => exact execResume_calm h
  | resumeMessage => exact .next (hear_calm (fun _ h => .ite (actResume_calm h) h) h)
  -- twins, spares, replay and harvest
  | pairTimer => exact .next (.ite (.ite (trySeed_calm h) (sendPair_calm h)) h)
  | pair => exact .next (.ite h (takePair_calm h))
  | seed => exact .next (.ite (pokeDev_calm (h.update rfl)) h)
  | seedEnd => exact .steps (.ite (takeSeedEnd_ledger h) h.toStep)
  | seedOk => exact .steps (.ite (tryInStep_ledger (h.update rfl)) h.toStep)
  | image => exact .next (.ite (pokeDev_calm h).withTwin h)
  | input => exact .next (.ite (.ite (trySack_calm (((putPend_calm h).update rfl))) (putPend_calm h)) h)
  | grad => exact execGrad_calm h
  | gend => exact execGend_calm h
  | gack => exact execGack_calm h
  | stepm => exact .next (.ite (trySack_calm (h.update rfl)) h)
  | sack => exact .next (.ite (h.update rfl) h)
  | part => exact .next (.ite (toTwin_calm (h.update rfl)) h)
  | pack => exact execPack_calm h
  | shadowLayerDone => exact execShadowLayerDone_calm h
  | sdone => exact .next (.ite (takeSdone_calm h) h)
  | discardMessage => exact .next (.ite (h.update rfl) h)
  | pull => exact .next (servePull_calm h)
  | data => exact .steps (.ite h.toStep (takeData_ledger h))
  | digreq => exact .next (.ite (takeDigreq_calm h) h)
  | digrsp => exact .next (.ite (takeDigrsp_calm h) h)
  | hb => exact .next (h.update rfl)
  | twinHbTimer => exact .next (.ite (toTwin_calm h) h)
  | twinLinkLost => exact .next (.unless linkLost_calm (h.update rfl))
  | unpair => exact .next (.ite (twinFails_calm (enterSolo_calm h)) h)
  | sidebandTimeout => exact .next (h.update rfl)
  | cardLevelFault => exact .next (cardFails_calm h)
  | recruit => exact execRecruit_calm h
  | replaceCard => exact execReplaceCard_calm h
  | plannedHandover => exact execPlannedHandover_calm h
  | harvestStep => exact execHarvestStep_calm h
  | harvestComplete => exact .next (.ite (sendHeader_calm h) h)
  | harvestCancel => exact execHarvestCancel_calm h
  | harvestLoad => exact execHarvestLoad_calm h
  -- the host link
  | mbxctlDoorbell => exact .steps (.ite h.toStep (.ite (modHost_calm h).toStep (mbxRequest_ledger (modHost_calm h))))
  | mailboxResponse => exact .next (.ite (raiseVec_calm (modHost_calm h)) h)
  | registerWrite => exact .next (.ite (regWrite_calm h) h)
  | winbaseWrite => exact .next (.ite (writeReg_calm h) h)
  | windowOpenSnapshot => exact .next (.ite (openWindow_calm h) h)
  | windowCloseSnapshot => exact .next (.ite (closeWindow_calm h) h)
  | windowRead => exact .next (.ite (winRead_calm h) h)
  | windowWrite => exact .next (.ite h (.ite (dropWrite_calm h) (pokeDev_calm (wakePath_calm h))))
  | windowReadTimeout => exact .next (.ite (unserved_calm h) h)
  | cqtailWrite => exact .next (.ite (setCqtail_calm h) h)
  | noOpCommand => exact .next (startCmd_calm (fun _ _ => .pair) h)
  | hostToDevice => exact .next (startCmd_calm (fun _ _ => hostToDevice_calm) h)
  | deviceToHost => exact .next (startCmd_calm (fun _ _ h => .pair (damageFound_calm (deviceToHost_calm h))) h)
  | fence => exact .next (startCmd_calm (fun _ _ => .pair) h)
  | flagOnly => exact .next (startCmd_calm (fun _ _ => .pair) h)
  | commandComplete => exact execCommandComplete_calm h
  | ringputWrite => exact .next (.ite (setRingput_calm h) h)
  | hostseqWrite => exact .next (.ite (setHostseq_calm h) h)
  | outboundWrite => exact .next (.ite (writeOldest_calm h) h)
  | evpopRead => exact execEvpopRead_calm h
  | dataLinkDown => exact .next (hostReset_calm h)
  | perst => exact .next (hostReset_calm h)
  | hotReset => exact .next (hostReset_calm h)
  | flr => exact .next (hostReset_calm h)
  | linkReturn => exact .next (.ite h (.when enqueue_calm (modHost_calm h)))
  | pciPowerStateChange => exact .next (.ite (flushVecs_calm (modHost_calm h)) h)
  -- keeper, clocks and power
  | sensorSample => exact execSensorSample_calm h
  | thermalTrip => exact execThermalTrip_calm h
  | powerAverage => exact execPowerAverage_calm h
  | idleEvaluation => exact .next (.ite h (clearReadings_calm ((sayCodes_calm h).update rfl)))
  | sleepRequest => exact execSleepRequest_calm h
  | wakeRequest => exact execWakeRequest_calm h
  | autoSleepTimer => exact .next (.ite (enterSleep_calm h) h)
  | wakeIn => exact .next (wake_calm h)
  | memoryWakeHoldExpiry => exact .next (.ite (h.update rfl) h)
  | v48Loss => exact .next (.ite (lose48_calm h) h)
  | v48Return => exact .next (.ite (raiseOpen_calm (startBoot_calm (h.update rfl))) h)
  | presentOpen => exact .next ((lose48_calm h).update rfl)
  | presentClose => exact .next (h.update rfl)
  -- boot, flash and trust
  | bootPhaseDone => exact .next (.ite h (.when loadFails_calm (phaseWork_calm (h.update rfl))))
  | bootWatchdog => exact .next (.ite (restartBoot_calm h) h)
  | reboot => exact execReboot_calm h
  | stageImage => exact execStageImage_calm h
  | stagingDone => exact execStagingDone_calm h
  | nextSlot => exact execNextSlot_calm h
  | confirm => exact execConfirm_calm h
  | attestationReport => exact .next (answerRead_calm h)
  | testDraw => exact .next (answerRead_calm h)
  -- the card
  | identify => exact execIdentify_calm h
  | identifyExpiry => exact .next (h.update rfl)
  | vauxReturn => exact .next (.ite h (.unless serveOnVaux_calm (h.update rfl)))
  | vauxLoss => exact execVauxLoss_ledger h
  | cablePresenceChange => exact .next (.foldl (fun _ _ => cablePort_calm) h)
  | hbRxEdge => exact .next (.ite (h.update rfl) h)
  | limitCrossing => exact .next (.ite (takeSample_calm h) h)
  | awaitingPartsRead => exact .next (answerRead_calm h)

/-- Settles O5: a step runs one command, and every command keeps what is said of the ledger and of the sets, by one rule for each operation
of the model: most are calm, and those that move the ledger are taken by what they leave. -/
theorem ledgerInvariants : Obligations.LedgerInvariants := by
  unfold Obligations.LedgerInvariants
  intro s t e
  unfold step at e
  split at e
  · cases e
    exact ⟨id, id, fun hr _ => hr, id⟩
  · next c cs _ =>
    obtain ⟨u, hu, sets, await, runs, touches⟩ := exec_ledger c (LedgerCalm.refl { s with pending := cs })
    rw [hu] at e
    cases e
    exact ⟨sets, await, runs, touches⟩

end Sys2Proof.Machine
end

section
/-! SUPPORT. Exchanges of the object dictionary: what a response leaves, and what a write of an entry comes to (R33 to R39, R51). -/

namespace Sys2Proof.Machine

open Sys2Proof.Claims

variable {s t : State} {a : Access}

/-! ### Responses (R51, R57) -/

/-- Whether a route carries responses is a matter of the values in force, and for the CAN route of the device state. -/
theorem answers_of_vals (hs : t.strap = s.strap) (hv : t.dict.vals = s.dict.vals) (hk : t.keep.dev = s.keep.dev) (r : Route) :
    answers t r = answers s r := by
  unfold answers
  rw [num_of_vals hs hv, hk]

theorem answers_iff (r : Route) : answers s r = true ↔ RouteAnswers s r := by
  unfold answers RouteAnswers
  rw [Bool.and_eq_true, Bool.or_eq_true, decide_eq_true_iff, decide_eq_true_iff, decide_eq_true_iff]
  cases r <;> simp [pathNum]

theorem reply_answered (h : answers s a.path = true) (body : Bytes) : (reply a body s).out = s.out ++ [.usdo a body] := by
  rw [reply_out, if_pos h]

theorem refuse_answered (h : answers s a.path = true) (idx sub code : Nat) :
    (refuse a idx sub code s).out = s.out ++ [.usdoAbort a idx sub code] := by
  rw [refuse_out, if_pos h]

theorem refuse_unanswered (h : ¬ answers s a.path = true) (idx sub code : Nat) : (refuse a idx sub code s).out = s.out := by
  rw [refuse_out, if_neg h]

/-- A response changes what is sent and the counts since boot, and no more. -/
theorem onlyDict_respond (h : OnlyDict s t) (k : Nat) (o : Out) : OnlyDict s (respond a k o t) := by
  obtain ⟨os, b, e⟩ := respond_frame t a k o
  rw [e]
  unfold OnlyDict at h
  rw [h]
  rfl

/-- A change of the dictionary that keeps the values in force, answered on a route that serves. -/
theorem replied (hp : pathServes s a.path = true) {d : DictSt} (hv : d.vals = s.dict.vals) (body : Bytes) :
    (reply a body { s with dict := d }).dict = d ∧ (reply a body { s with dict := d }).out = s.out ++ [.usdo a body] ∧
      OnlyDict s (reply a body { s with dict := d }) := by
  have may : answers { s with dict := d } a.path = true := (answers_of_vals (s := s) (t := { s with dict := d }) rfl hv rfl _).trans (answers_of_serves s hp)
  exact ⟨reply_dict .., reply_answered may body, onlyDict_respond (t := { s with dict := d }) rfl 1 _⟩

/-- The same with an abort code as the response. -/
theorem aborted (hp : pathServes s a.path = true) {d : DictSt} (hv : d.vals = s.dict.vals) (idx sub code : Nat) :
    (refuse a idx sub code { s with dict := d }).dict = d ∧
      (refuse a idx sub code { s with dict := d }).out = s.out ++ [.usdoAbort a idx sub code] ∧
      OnlyDict s (refuse a idx sub code { s with dict := d }) := by
  have may : answers { s with dict := d } a.path = true := (answers_of_vals (s := s) (t := { s with dict := d }) rfl hv rfl _).trans (answers_of_serves s hp)
  exact ⟨refuse_dict .., refuse_answered may .., onlyDict_respond (t := { s with dict := d }) rfl 4 _⟩

/-! ### Owner and generation of the pending set (R43, R44) -/

theorem foreign_iff : foreign a s = true ↔ ¬ Owns s a := by
  unfold foreign Owns
  cases s.dict.owner <;> simp

theorem foreign_owned (h : Owns s a) : foreign a s = false := Bool.eq_false_iff.2 fun hf => foreign_iff.1 hf h

theorem nextGen_eq (g : BitVec 32) : BitVec.ofNat 32 (nextGen g.toNat) = genAfter g := by
  unfold nextGen genAfter
  by_cases h : g = 0xFFFFFFFF#32
  · rw [if_pos h, h]
    rfl
  · have below : ¬ 0xFFFFFFFF ≤ g.toNat := fun hg => h (BitVec.eq_of_toNat_eq (by have := g.isLt; simp; omega))
    rw [if_neg h, if_neg below]
    exact BitVec.eq_of_toNat_eq (by simp [BitVec.toNat_add])

theorem clearPending_eq (s : State) : clearPending s =
    { s with dict := { s.dict with pset := [], owner := none, gen := genAfter s.dict.gen } } := by
  unfold clearPending
  rw [nextGen_eq]

/-! ### Values in force -/

variable {idx sub : Nat} {bs : Bytes} {o : ObjDef}

/-- A value in force depends on what the map of values holds of it, on the strap, and for a default of a TPDO on the node-ID. -/
theorem valBytes_of_get {i k : Nat} (hs : t.strap = s.strap) (hn : nodeId t = nodeId s)
    (hv : Sparse.get none t.dict.vals (ekey i k) = Sparse.get none s.dict.vals (ekey i k)) : valBytes t i k = valBytes s i k := by
  have dflt : ∀ o, dfltBytes t o = dfltBytes s o := fun o => by simp only [dfltBytes, dfltNum, hs, hn]
  unfold valBytes
  simp only [hv, dflt]

theorem nodeId_putVal (h : idx ≠ 0x2020) (hs : sub < 256) (bs : Bytes) (s : State) : nodeId (putVal idx sub bs s) = nodeId s := by
  have key : ekey 0x2020 1 ≠ ekey idx sub := fun e => h ((ekey_inj (by omega) hs).1 e).1.symm
  unfold nodeId putVal
  dsimp only
  rw [Sparse.get_set, if_neg key]

/-- A value other than the node-ID that is put in force changes no other. -/
theorem valBytes_putVal_ne (h : idx ≠ 0x2020) (hs : sub < 256) {i k : Nat} (hk : k < 256) (hne : (i, k) ≠ (idx, sub)) (bs : Bytes) (s : State) :
    valBytes (putVal idx sub bs s) i k = valBytes s i k := by
  have key : ekey i k ≠ ekey idx sub := fun e => hne (Prod.ext_iff.2 ((ekey_inj hk hs).1 e))
  refine valBytes_of_get (t := putVal idx sub bs s) rfl (nodeId_putVal h hs bs s) ?_
  unfold putVal
  dsimp only
  rw [Sparse.get_set, if_neg key]

/-! ### The table (R32 to R35) -/

theorem findObj_mem (h : findObj idx sub = some o) : o ∈ objects ∧ o.idx = idx ∧ o.lo ≤ sub ∧ sub ≤ o.hi := by
  have hp := List.find?_some h
  simp only [Bool.and_eq_true, beq_iff_eq, decide_eq_true_eq] at hp
  exact ⟨List.mem_of_find?_eq_some h, hp.1.1, hp.1.2, hp.2⟩

theorem findObj_none_of_undefined (h : indexDefined idx = false) (sub : Nat) : findObj idx sub = none := by
  cases hf : findObj idx sub with
  | none => rfl
  | some o =>
    obtain ⟨hm, hi, -⟩ := findObj_mem hf
    have found : indexDefined idx = true := List.any_eq_true.2 ⟨o, hm, beq_iff_eq.2 hi⟩
    rw [h] at found
    cases found

/-- The settings of a CAN node-ID and of the routes are not written in force directly. -/
theorem rw_not_route (h : findObj idx sub = some o) (ha : o.acc = .rw) : idx ≠ 0x2020 ∧ idx ≠ 0x2022 := by
  have all : objects.all (fun o => decide (o.acc = .rw → o.idx ≠ 0x2020 ∧ o.idx ≠ 0x2022)) = true := by decide +kernel
  obtain ⟨hm, hi, -⟩ := findObj_mem h
  exact hi ▸ of_decide_eq_true (List.all_eq_true.1 all o hm) ha

/-- The two commands of 0x2001 are write-only bytes. -/
theorem findObj_job (h : findObj 0x2001 sub = some o) (hs : sub = 1 ∨ sub = 2) : o.acc = .wo ∧ o.ty.size = some 1 := by
  have all : ([1, 2] : List Nat).all (fun k => (findObj 0x2001 k).all fun o => decide (o.acc = .wo ∧ o.ty.size = some 1)) = true := by
    decide +kernel
  have row := List.all_eq_true.1 all sub (by simpa using hs)
  rw [h] at row
  exact of_decide_eq_true row

theorem lengthOk_sized {n : Nat} (hn : o.ty.size = some n) : lengthOk o bs = decide (bs.length = n) := by
  unfold lengthOk
  rw [hn]

/-! ### A write of an entry (R33, R35, R39) -/

/-- The write is one of 0x2001 that is refused by its value, before the table is looked at (R296). -/
abbrev JobValue (idx sub : Nat) (bs : Bytes) : Prop := idx = 0x2001 ∧ (sub = 1 ∨ sub = 2) ∧ bs.length = 1 ∧ bs ≠ [1]

theorem leNat_byte (b : Byte) : BitVec.ofNat 8 (leNat [b]) = b := BitVec.eq_of_toNat_eq (by simp [leNat])

/-- Such a value is refused, by the command and by the write alike. -/
theorem jobValue_refused (hp : pathServes s a.path = true) (h : JobValue idx sub bs) :
    specialWrite a idx sub bs s = some (.next (writeEntry a idx sub bs s)) ∧ writeEntry a idx sub bs s = refuse a 0x2001 sub abRange s := by
  obtain ⟨rfl, h2, h3, h4⟩ := h
  obtain ⟨b, rfl⟩ := List.length_eq_one_iff.1 h3
  have other : BitVec.ofNat 8 (leNat [b]) ≠ 1 := by
    rw [leNat_byte]
    exact fun hb => h4 (by rw [hb])
  have refused : writeEntry a 0x2001 sub [b] s = refuse a 0x2001 sub abRange s :=
    (if_pos ⟨rfl, h2, h3, h4⟩).trans (jobWrite_refused other hp sub id)
  refine ⟨?_, refused⟩
  rw [refused]
  rcases h2 with rfl | rfl
  · exact congrArg (fun t => some (Host.Outcome.next t)) (jobWrite_refused other hp 1 _)
  · exact congrArg (fun t => some (Host.Outcome.next t)) (jobWrite_refused other hp 2 _)

section
variable (hp : pathServes s a.path = true) (hi : idxServed s a.path idx = true)
include hp hi

theorem writeEntry_unknown (hf : findObj idx sub = none) : writeEntry a idx sub bs s =
    refuse a idx sub (if indexDefined idx then abNoSub else abNoObject) s := by
  have job : ¬ JobValue idx sub bs := fun ⟨h1, h2, _⟩ => by
    subst h1
    have known : (findObj 0x2001 1).isSome = true ∧ (findObj 0x2001 2).isSome = true := by decide +kernel
    rcases h2 with rfl | rfl <;> simp [hf] at known
  unfold writeEntry
  rw [if_neg job, serve_served s hp hi, hf]

theorem writeEntry_readOnly (hf : findObj idx sub = some o) (ha : o.acc = .const ∨ o.acc = .ro) :
    writeEntry a idx sub bs s = refuse a idx sub abReadOnly s := by
  have job : ¬ JobValue idx sub bs := fun ⟨h1, h2, _⟩ => by
    subst h1
    rw [(findObj_job hf h2).1] at ha
    simp at ha
  unfold writeEntry
  rw [if_neg job, serve_served s hp hi, hf]
  dsimp only
  rw [if_pos ha]

variable (hf : findObj idx sub = some o) (ha : ¬ (o.acc = .const ∨ o.acc = .ro))
include hf ha

theorem writeEntry_length (hl : lengthOk o bs = false) : writeEntry a idx sub bs s = refuse a idx sub abLength s := by
  have job : ¬ JobValue idx sub bs := fun ⟨h1, h2, h3, _⟩ => by
    subst h1
    rw [lengthOk_sized (findObj_job hf h2).2, h3] at hl
    simp at hl
  unfold writeEntry
  rw [if_neg job, serve_served s hp hi, hf]
  dsimp only
  rw [if_neg ha, hl]
  rfl

/-- A write of an entry with a command of its own is that command. -/
theorem writeEntry_special (hl : lengthOk o bs = true) (hs : specialWrite a idx sub bs s = some (.next t)) : writeEntry a idx sub bs s = t := by
  by_cases job : JobValue idx sub bs
  · exact Host.Outcome.next.inj (Option.some.inj ((jobValue_refused hp job).1.symm.trans hs))
  · unfold writeEntry
    rw [if_neg job, serve_served s hp hi, hf]
    dsimp only
    rw [if_neg ha, hl, if_neg (by simp), hs]
    rfl

variable (hl : lengthOk o bs = true) (hs : specialWrite a idx sub bs s = none)
include hl hs

theorem writeEntry_plain : writeEntry a idx sub bs s = if valueOk s o sub bs = false then refuse a idx sub abRange s
    else if o.acc = .rw then reply a [] (applyNow idx sub bs s) else stageEntry a idx sub bs s := by
  have job : ¬ JobValue idx sub bs := fun ⟨h1, h2, _⟩ => by
    subst h1
    rcases h2 with rfl | rfl <;> exact absurd hs (Option.some_ne_none _)
  unfold writeEntry
  rw [if_neg job, serve_served s hp hi, hf]
  dsimp only
  rw [if_neg ha, hl, if_neg (by simp), hs]
  simp only [Bool.not_eq_true']

end

end Sys2Proof.Machine
end

section
/-! PROOF. A write of a rw entry (O7), of a rwst entry (O8), and discards of the pending set (O10). -/

namespace Sys2Proof.Machine

open Sys2Proof.Claims

variable {s : State} {a : Access}

/-! ### A rw entry (R37, R434) -/

theorem applyNow_putVal {idx : Nat} (h1 : idx ≠ 0x2208) (h2 : idx ≠ 0x2210) (sub : Nat) (bs : Bytes) (s : State) :
    applyNow idx sub bs s = putVal idx sub bs s := by
  unfold applyNow
  split
  · exact absurd rfl h1
  · exact absurd rfl h2
  · rfl

theorem answers_putVal {idx sub : Nat} (h : idx ≠ 0x2020) (h' : idx ≠ 0x2022) (hs : sub < 256) (bs : Bytes) (s : State) (r : Route) :
    answers (putVal idx sub bs s) r = answers s r := by
  have same : num (putVal idx sub bs s) 0x2022 (1 + pathNum r) = num s 0x2022 (1 + pathNum r) :=
    congrArg leNat (valBytes_putVal_ne h hs (by cases r <;> decide) (fun e => h' (Prod.ext_iff.1 e).1.symm) bs s)
  unfold answers
  rw [same]
  rfl

/-- What a write of a rw entry comes to. -/
theorem writeEntry_rw {idx sub : Nat} {bs : Bytes} {o : ObjDef} (hp : pathServes s a.path = true) (hi : idxServed s a.path idx = true)
    (hf : findObj idx sub = some o) (ha : o.acc = .rw) (hl : lengthOk o bs = true) (hv : valueOk s o sub bs = true)
    (hs : specialWrite a idx sub bs s = none) : writeEntry a idx sub bs s = reply a [] (applyNow idx sub bs s) := by
  rw [writeEntry_plain hp hi hf (by simp [ha]) hl hs, hv, if_neg (by simp), if_pos ha]

theorem bool_byte {v : Byte} : decide (leNat [v] = 1) = decide (v = 1) := by
  refine decide_eq_decide.2 ⟨fun h => BitVec.eq_of_toNat_eq (by simpa [leNat] using h), fun h => by rw [h]; rfl⟩

/-- Both flags are served in device state boot alike (R58). -/
theorem idxServed_header (r : Route) : idxServed s r 0x2210 = idxServed s r 0x2208 := by cases r <;> rfl

/-- Settles O7: the value alone changes, for a rw entry is neither the node-ID nor the enable of a route. -/
theorem entryWriteApplies : Obligations.EntryWriteApplies := by
  unfold Obligations.EntryWriteApplies
  refine ⟨fun s a idx sub data o hp hi hf ha hl hv hs h1 h2 => ?value, fun s a v hp hi hv => ⟨?retest, ?autoconf⟩,
    fun s a idx sub data o t hp hi hf h1 h2 hl hs => ?special⟩
  case value =>
    obtain ⟨node, route⟩ := rw_not_route hf ha
    have no1 : idx.toNat ≠ 0x2208 := fun h => h1 (BitVec.eq_of_toNat_eq h)
    have no2 : idx.toNat ≠ 0x2210 := fun h => h2 (BitVec.eq_of_toNat_eq h)
    have small : sub.toNat < 256 := sub.isLt
    have may : answers (putVal idx.toNat sub.toNat data s) a.path = true :=
      (answers_putVal node route small data s _).trans (answers_of_serves s hp)
    have vals : ∀ (d : State) i k, valBytes (reply a [] d) i k = valBytes d i k := fun d => valBytes_congr (reply_strap ..) (reply_dict ..)
    refine ⟨_, congrArg Host.Outcome.next (writeEntry_rw hp hi hf ha hl hv hs), ?_⟩
    rw [applyNow_putVal no1 no2]
    refine ⟨(vals ..).trans (valBytes_putVal_self s ..), fun i k hk hne => (vals ..).trans (valBytes_putVal_ne node small hk hne data s), ?_, reply_answered may [], onlyDict_respond (t := putVal idx.toNat sub.toNat data s) rfl 1 _⟩
    rw [reply_dict]
    rfl
  case retest =>
    have hf : findObj 0x2208 1 = some ⟨0x2208, 1, 1, .bool, .rw, true, .now, false, 0⟩ := by decide +kernel
    refine ⟨_, congrArg Host.Outcome.next (writeEntry_rw hp hi hf rfl rfl ?_ rfl), ?_, reply_dict .., reply_mem ..⟩
    · simpa [valueOk, leNat] using hv
    · rw [reply_boot]
      exact bool_byte
  case autoconf =>
    have hf : findObj 0x2210 5 = some ⟨0x2210, 5, 5, .bool, .rw, true, .now, false, 1⟩ := by decide +kernel
    refine ⟨_, congrArg Host.Outcome.next (writeEntry_rw hp ((idxServed_header _).trans hi) hf rfl rfl ?_ rfl), ?_, reply_dict .., reply_mem ..⟩
    · simpa [valueOk, leNat] using hv
    · rw [reply_boot]
      exact bool_byte
  case special => exact congrArg Host.Outcome.next (writeEntry_special hp hi hf (by simp [h1, h2]) hl hs)

/-! ### A rwst entry (R43, R44) -/

theorem mem_putPending {e x : EntryVal} {ps : List EntryVal} :
    x ∈ putPending e ps ↔ x = e ∨ (x ∈ ps ∧ ¬ (x.idx = e.idx ∧ x.sub = e.sub)) := by
  unfold putPending
  split
  next held =>
    obtain ⟨p, hp, same⟩ := List.any_eq_true.1 held
    simp only [Bool.and_eq_true, decide_eq_true_eq] at same
    rw [List.mem_map]
    constructor
    · rintro ⟨q, hq, rfl⟩
      split
      · exact .inl rfl
      next other => exact .inr ⟨hq, other⟩
    · rintro (rfl | ⟨hx, other⟩)
      · exact ⟨p, hp, if_pos same⟩
      · exact ⟨x, hx, if_neg other⟩
  next absent =>
    simp only [List.any_eq_true, Bool.and_eq_true, decide_eq_true_eq, not_exists, not_and] at absent
    rw [List.mem_append, List.mem_singleton]
    constructor
    · rintro (hx | rfl)
      · exact .inr ⟨hx, fun h => absent x hx h.1 h.2⟩
      · exact .inl rfl
    · rintro (rfl | ⟨hx, -⟩)
      · exact .inr rfl
      · exact .inl hx

/-- Staging with room, by the owner or into a set that nobody owns. -/
theorem stageEntry_room (ho : Owns s a) {idx : BitVec 16} {sub : BitVec 8} {bs : Bytes} (hn : (putPending ⟨idx, sub, bs⟩ s.dict.pset).length ≤ 256)
    (hb : ((putPending ⟨idx, sub, bs⟩ s.dict.pset).map (·.val.length)).sum ≤ 16384) : stageEntry a idx.toNat sub.toNat bs s =
      reply a [] { s with dict := { s.dict with pset := putPending ⟨idx, sub, bs⟩ s.dict.pset, owner := some a.src } } := by
  unfold stageEntry
  dsimp only
  rw [foreign_owned ho, if_neg (by simp), BitVec.ofNat_toNat, BitVec.ofNat_toNat, BitVec.setWidth_eq, BitVec.setWidth_eq,
    if_neg (by omega)]

/-- Settles O8. -/
theorem entryWriteStages : Obligations.EntryWriteStages := by
  unfold Obligations.EntryWriteStages
  intro s a idx sub data o hp hi hf ha hl hv hs ho hn hb
  have staged : writeEntry a idx.toNat sub.toNat data s = _ := writeEntry_plain hp hi hf (by simp [ha]) hl hs
  rw [hv, if_neg (by simp), if_neg (by simp [ha]), stageEntry_room ho hn hb] at staged
  refine ⟨_, congrArg Host.Outcome.next staged, ?_⟩
  obtain ⟨hd, hout, only⟩ := replied hp (d := { s.dict with pset := putPending ⟨idx, sub, data⟩ s.dict.pset, owner := some a.src }) rfl []
  rw [hd]
  exact ⟨fun e => mem_putPending, rfl, rfl, hout, only⟩

/-! ### Discards (R43, R44) -/

theorem exec_discard {gen : BitVec 32} (h : Takes s a 0x2012 4) (ho : Owns s a) : exec (.discard a gen) s =
    .next (if gen ≠ s.dict.gen then refuse a 0x2012 4 abGen s else reply a [] (clearPending s)) := by
  show execDiscard a gen s = _
  rw [execDiscard, actWrite_takes s h, foreign_owned ho]
  rfl

theorem exec_pendingOwnerTimeout (h : s.dict.owner ≠ none) :
    exec .pendingOwnerTimeout s = .next (raiseOpen 0x06 noSource s.dict.gen.toNat (clearPending s)) :=
  congrArg Host.Outcome.next (if_pos (Option.isSome_iff_ne_none.2 h))

/-- An event changes its queue, the log and the interrupt, and no more. -/
theorem onlyDictEvent_raiseOpen {d : DictSt} (typ source detail : Nat) :
    OnlyDictEvent s (raiseOpen typ source detail { s with dict := d }) := by
  obtain ⟨o, ev, pba, lost, rst, l, n, b, -, e⟩ := raise_eq { s with dict := d } typ (openSev typ detail) source detail
  unfold raiseOpen
  rw [e]
  rfl

/-- Settles O10. -/
theorem discardEmptiesPendingSet : Obligations.DiscardEmptiesPendingSet := by
  unfold Obligations.DiscardEmptiesPendingSet
  refine ⟨fun s a gen h ho => ⟨fun hg => ?discards, fun hg => ?refused⟩, fun s h => ?timeout⟩
  case discards =>
    refine ⟨_, by rw [exec_discard h ho, if_neg (not_not.2 hg), clearPending_eq], ?_⟩
    exact replied h.1 (d := { s.dict with pset := [], owner := none, gen := genAfter s.dict.gen }) rfl []
  case refused =>
    refine ⟨_, by rw [exec_discard h ho, if_pos hg], ?_⟩
    exact aborted h.1 (d := s.dict) rfl 0x2012 4 abGen
  case timeout =>
    refine ⟨_, exec_pendingOwnerTimeout h, ?_⟩
    rw [clearPending_eq]
    exact ⟨raiseOpen_dict .., raised_raiseOpen .., onlyDictEvent_raiseOpen ..⟩

end Sys2Proof.Machine
end

section
/-! PROOF. What the dictionary refuses: accesses (O9) and commits (O12). -/

namespace Sys2Proof.Machine

open Sys2Proof.Claims

variable {s : State} {a : Access}

/-! ### Values out of range (R39) -/

theorem leNat_lt (bs : Bytes) : leNat bs < 256 ^ bs.length := by
  induction bs with
  | nil => decide
  | cons b bs ih =>
    have := b.isLt
    simp only [leNat, List.length_cons, Nat.pow_succ]
    omega

/-- The entries whose write acts as a command with a range, each with the length of its value. -/
def rangedCommands : List (Nat × Nat × Nat) := [(0x1003, 0, 1), (0x2100, 1, 1), (0x2140, 2, 2), (0x2210, 3, 1), (0x3880, 1, 1),
  (0x2001, 1, 1), (0x2001, 2, 1), (0x2200, 6, 1), (0x2210, 4, 1), (0x2804, 1, 1), (0x2804, 2, 1), (0x2A10, 6, 1), (0x2A1C, 1, 1),
  (0x3880, 2, 1)]

theorem mem_rangedCommands {idx sub v : Nat} (h : commandRange idx sub v = false) : ∃ n, (idx, sub, n) ∈ rangedCommands := by
  unfold commandRange at h
  split at h
  case h_15 => cases h
  all_goals simp [rangedCommands]

/-- The table gives each of them as an entry that can be written, of that length. -/
theorem rangedCommand_row {idx sub n : Nat} {o : ObjDef} (h : (idx, sub, n) ∈ rangedCommands) (hf : findObj idx sub = some o) :
    ¬ (o.acc = .const ∨ o.acc = .ro) ∧ o.ty.size = some n := by
  have all : rangedCommands.all (fun c => (findObj c.1 c.2.1).all fun o =>
      decide (¬ (o.acc = .const ∨ o.acc = .ro) ∧ o.ty.size = some c.2.2)) = true := by decide +kernel
  have row := List.all_eq_true.1 all _ h
  dsimp only at row
  rw [hf] at row
  exact of_decide_eq_true row

/-- A command refuses a value out of its range before it looks at the card. -/
theorem specialWrite_range {idx sub : Nat} {bs : Bytes} (ht : Takes s a idx sub) (hc : (idx, sub, bs.length) ∈ rangedCommands)
    (hr : commandRange idx sub (leNat bs) = false) : specialWrite a idx sub bs s = some (.next (refuse a idx sub abRange s)) := by
  have refused : ∀ {x : State}, x = refuse a idx sub abRange s → (some (Host.Outcome.next x) : Option Res) = some (.next (refuse a idx sub abRange s)) :=
    fun h => congrArg (fun t => some (Host.Outcome.next t)) h
  have byte : bs.length = 1 → (BitVec.ofNat 8 (leNat bs)).toNat = leNat bs := fun hl => by
    have small := leNat_lt bs
    rw [hl] at small
    rw [BitVec.toNat_ofNat, Nat.mod_eq_of_lt (by omega)]
  have zero : bs.length = 1 → ¬ leNat bs = 0 → BitVec.ofNat 8 (leNat bs) ≠ 0 := fun hl hn e => hn (by rw [← byte hl, e]; rfl)
  have one : bs.length = 1 → ¬ leNat bs = 1 → BitVec.ofNat 8 (leNat bs) ≠ 1 := fun hl hn e => hn (by rw [← byte hl, e]; rfl)
  simp only [rangedCommands, List.mem_cons, Prod.mk.injEq, List.not_mem_nil, or_false] at hc
  rcases hc with ⟨rfl, rfl, hl⟩ | ⟨rfl, rfl, hl⟩ | ⟨rfl, rfl, hl⟩ | ⟨rfl, rfl, hl⟩ | ⟨rfl, rfl, hl⟩ | ⟨rfl, rfl, hl⟩ | ⟨rfl, rfl, hl⟩ |
    ⟨rfl, rfl, hl⟩ | ⟨rfl, rfl, hl⟩ | ⟨rfl, rfl, hl⟩ | ⟨rfl, rfl, hl⟩ | ⟨rfl, rfl, hl⟩ | ⟨rfl, rfl, hl⟩ | ⟨rfl, rfl, hl⟩
  all_goals simp only [commandRange, decide_eq_false_iff_not] at hr
  · exact refused ((actWrite_takes s ht _).trans (if_pos (zero hl hr)))
  · refine (congrArg some (if_neg (zero hl (by omega)))).trans ?_
    exact refused ((actWrite_takes s ht _).trans (if_pos (one hl (by omega))))
  · have small := leNat_lt bs
    rw [hl] at small
    have word : (BitVec.ofNat 16 (leNat bs)).toNat = leNat bs := by rw [BitVec.toNat_ofNat, Nat.mod_eq_of_lt (by omega)]
    exact refused ((actWrite_takes s ht _).trans (if_pos (by rw [word]; omega)))
  · exact refused ((actWrite_takes s ht _).trans (if_pos (by rw [byte hl]; omega)))
  · exact refused ((actWrite_takes s ht _).trans (if_pos (by rw [byte hl]; omega)))
  · exact refused (jobWrite_refused (one hl hr) ht.1 1 _)
  · exact refused (jobWrite_refused (one hl hr) ht.1 2 _)
  · exact refused ((actWrite_takes s ht _).trans (if_pos (one hl hr)))
  · exact refused ((actWrite_takes s ht _).trans (if_pos (one hl hr)))
  · exact refused ((actWrite_takes s ht _).trans (if_pos (one hl hr)))
  · exact refused ((actWrite_takes s ht _).trans (if_pos (one hl hr)))
  · exact refused ((actWrite_takes s ht _).trans (if_pos (one hl hr)))
  · refine (if_neg fun h => one hl hr h.1).trans ?_
    exact refused ((actWrite_takes s ht _).trans (if_pos (one hl hr)))
  · exact refused ((actWrite_takes s ht _).trans (if_pos (one hl hr)))

/-! ### The statement on accesses -/

/-- An access that comes to an abort code is refused, and changes nothing of the card. -/
theorem completes_refused {u : State} {c : Instr} {idx sub code : Nat} (hp : pathServes s a.path = true)
    (h : exec c u = .next (refuse a idx sub code s)) :
    Completes c u fun t => t.out = s.out ++ [.usdoAbort a idx sub code] ∧ t.dict = s.dict ∧ OnlyDict s t :=
  ⟨_, h, refuse_served s hp .., refuse_dict .., onlyDict_refuse ..⟩

/-- A read of an entry that the table does not hold. -/
theorem answerRead_unknown {idx sub : Nat} (hp : pathServes s a.path = true) (hi : idxServed s a.path idx = true)
    (hf : findObj idx sub = none) : answerRead a idx sub s = refuse a idx sub (if indexDefined idx then abNoSub else abNoObject) s := by
  have value : readValue s idx (some sub) = .error (if indexDefined idx then abNoSub else abNoObject) := by
    unfold readValue readEntry
    dsimp only
    rw [hf]
    rfl
  unfold answerRead serveRead
  rw [Option.getD_some, serve_served s hp hi, value]

theorem pathServes_heard (h : TpHdr) (r : Route) : pathServes (heard s h) r = pathServes s r := by cases r <;> rfl

/-- Settles O9. -/
theorem entryWriteRefusals : Obligations.EntryWriteRefusals := by
  unfold Obligations.EntryWriteRefusals
  refine ⟨fun s a idx sub data hp hi => ⟨fun hd => ?noIndex, fun hd hf => ?noSub, fun o hf => ⟨fun ha => ?readOnly, fun ha hl => ?length,
    fun ha hl hs hv => ?value, fun ht hl hr => ?command⟩⟩, fun s h s0 idx sub hp hi hh => ⟨fun hd => ?readNoIndex, fun hd hf => ?readNoSub⟩⟩
  case noIndex =>
    have e := writeEntry_unknown hp hi (bs := data) (findObj_none_of_undefined hd sub.toNat)
    rw [hd] at e
    exact completes_refused hp (congrArg Host.Outcome.next e)
  case noSub =>
    have e := writeEntry_unknown hp hi (bs := data) hf
    rw [hd] at e
    exact completes_refused hp (congrArg Host.Outcome.next e)
  case readOnly => exact completes_refused hp (congrArg Host.Outcome.next (writeEntry_readOnly hp hi hf ha))
  case length =>
    have may : ¬ (o.acc = .const ∨ o.acc = .ro) := by rcases ha with ha | ha | ha <;> simp [ha]
    exact completes_refused hp (congrArg Host.Outcome.next (writeEntry_length hp hi hf may hl))
  case value =>
    have may : ¬ (o.acc = .const ∨ o.acc = .ro) := by rcases ha with ha | ha <;> simp [ha]
    exact completes_refused hp (congrArg Host.Outcome.next ((writeEntry_plain hp hi hf may hl hs).trans (if_pos hv)))
  case command =>
    obtain ⟨n, hc⟩ := mem_rangedCommands hr
    obtain ⟨may, size⟩ := rangedCommand_row hc hf
    rw [lengthOk_sized size, decide_eq_true_eq] at hl
    have e := writeEntry_special hp hi hf may ((lengthOk_sized size).trans (decide_eq_true hl)) (specialWrite_range ht (hl ▸ hc) hr)
    exact completes_refused hp (congrArg Host.Outcome.next e)
  case readNoIndex =>
    have e := answerRead_unknown (a := ⟨.towpath, s0⟩) ((pathServes_heard h .towpath).trans hp) hi (findObj_none_of_undefined hd sub.toNat)
    rw [hd] at e
    exact completes_refused (a := ⟨.towpath, s0⟩) (s := heard s h) ((pathServes_heard h .towpath).trans hp)
      (congrArg Host.Outcome.next ((hear_fresh hh _).trans e))
  case readNoSub =>
    have e := answerRead_unknown (a := ⟨.towpath, s0⟩) ((pathServes_heard h .towpath).trans hp) hi hf
    rw [hd] at e
    exact completes_refused (a := ⟨.towpath, s0⟩) (s := heard s h) ((pathServes_heard h .towpath).trans hp)
      (congrArg Host.Outcome.next ((hear_fresh hh _).trans e))

/-! ### Commits (R44 to R49) -/

/-- The command of a commit, with or without a target step, and the sub-index that carries it. -/
def commitCmd (a : Access) (gen : BitVec 32) : Option (BitVec 64) → Instr
  | none => .commit a gen
  | some n => .commitAtStep a gen n

def commitSub (target : Option (BitVec 64)) : Nat := if target = none then 1 else 2

theorem exec_commit {gen : BitVec 32} {target : Option (BitVec 64)} (h : Takes s a 0x2010 (commitSub target)) :
    exec (commitCmd a gen target) s = .next (commitWith a (commitSub target) gen (target.map (·.toNat)) s) := by
  cases target with
  | none => exact congrArg Host.Outcome.next (actWrite_takes s h _)
  | some n => exact congrArg Host.Outcome.next (actWrite_takes s h _)

/-- A refused commit leaves its outcome in 0x2011, and all else as it was (R64). -/
theorem commitWith_refused {sub code : Nat} {gen : BitVec 32} {target : Option Nat} {es : List (Nat × Nat)} (hp : pathServes s a.path = true)
    (h : commitError a gen target s = some (code, es)) :
    (commitWith a sub gen target s).out = s.out ++ [.usdoAbort a 0x2010 sub code] ∧ OnlyDict s (commitWith a sub gen target s) ∧
      (commitWith a sub gen target s).dict.lastRes = BitVec.ofNat 32 code ∧
      (commitWith a sub gen target s).dict = { s.dict with
        lastRes := (commitWith a sub gen target s).dict.lastRes, lastGen := gen,
        failing := (commitWith a sub gen target s).dict.failing, conflict := (commitWith a sub gen target s).dict.conflict } := by
  unfold commitWith
  rw [h]
  dsimp only
  generalize (if es.isEmpty = true then (0, 0) else failPair s es) = f
  obtain ⟨hd, hout, only⟩ := aborted hp (d := { s.dict with lastRes := BitVec.ofNat 32 code, lastGen := gen, failing := f.1, conflict := f.2 })
    rfl 0x2010 sub code
  rw [hd]
  exact ⟨hout, only, rfl, rfl⟩

/-- A part that does not apply at once, of the entries of one point. -/
theorem part_of_point {e : EntryVal} (gen : BitVec 32) (target : Option Nat) {es : List EntryVal} (he : e ∈ es) (hn : pointOf e ≠ .now) :
    ∃ p ∈ partsOf gen target es, p.point = pointOf e ∧ e ∈ p.entries := by
  have mem : e ∈ es.filter fun x => decide (pointOf x = pointOf e) && (decide (pointOf e ≠ .now) || isCanRoute x) :=
    List.mem_filter.2 ⟨he, by simp [hn]⟩
  refine ⟨_, List.mem_filter.2 ⟨List.mem_map.2 ⟨pointOf e, by cases pointOf e <;> simp, rfl⟩, ?_⟩, rfl, mem⟩
  simpa using List.ne_nil_of_mem mem

/-- Only a set with entries has parts. -/
theorem isEmpty_of_part {gen : BitVec 32} {target : Option Nat} {es : List EntryVal} {p : Part} (h : p ∈ partsOf gen target es) :
    es.isEmpty = false := by
  cases es with
  | nil => cases h
  | cons e es => rfl

section
variable {gen : BitVec 32} {target : Option Nat}

theorem commitError_foreign (h : ¬ Owns s a) : commitError a gen target s = some (abState, []) := by
  unfold commitError
  dsimp only
  rw [if_pos (foreign_iff.2 h)]

variable (ho : Owns s a)
include ho

theorem commitError_gen (hg : gen ≠ s.dict.gen) : commitError a gen target s = some (abGen, []) := by
  unfold commitError
  dsimp only
  rw [foreign_owned ho, if_neg (by simp), if_pos hg]

variable (hg : gen = s.dict.gen)
include hg

theorem commitError_empty (h : s.dict.pset = []) : commitError a gen target s = some (abState, []) := by
  unfold commitError
  dsimp only
  rw [foreign_owned ho, if_neg (by simp), if_neg (not_not.2 hg), h]
  rfl

theorem commitError_past {n : Nat} {p : Part} (hp : p ∈ partsOf gen (some n) s.dict.pset) (hs : p.point = .step)
    (h : hasOpened a s n p = true) : commitError a gen (some n) s = some (abState, []) := by
  have past : (some n).any (fun t => ((partsOf gen (some n) s.dict.pset).filter fun p => decide (p.point ≠ .now)).any
      fun p => decide (p.point = .step) && hasOpened a s t p) = true :=
    List.any_eq_true.2 ⟨p, List.mem_filter.2 ⟨hp, by simp [hs]⟩, by simp [hs, h]⟩
  unfold commitError
  dsimp only
  rw [foreign_owned ho, if_neg (by simp), if_neg (not_not.2 hg), isEmpty_of_part hp, if_neg (by simp), if_pos past]

theorem commitError_room_none {p : Part} (hp : p ∈ partsOf gen target s.dict.pset) (hn : p.point ≠ .now) (h : 4 ≤ (gensAwaiting s).length) :
    commitError a gen target s = some (abState, []) := by
  have some_part : ((partsOf gen target s.dict.pset).filter fun p => decide (p.point ≠ .now)).isEmpty = false := by
    refine List.isEmpty_eq_false_iff.2 (List.ne_nil_of_mem (List.mem_filter.2 ⟨hp, by simp [hn]⟩))
  unfold commitError
  dsimp only
  rw [foreign_owned ho, if_neg (by simp), if_neg (not_not.2 hg), isEmpty_of_part hp, if_neg (by simp)]
  split
  · rfl
  · rw [if_pos ⟨h, some_part⟩]

end

/-- A step that has been committed has opened, where the running one lies above it. -/
theorem hasOpened_committed {n : Nat} (p : Part) (h : n ≤ s.led.committed) (hr : s.led.committed < s.led.running) : hasOpened a s n p = true := by
  have now : decide (n = s.led.running) = false := decide_eq_false (by omega)
  unfold hasOpened
  dsimp only
  rw [now]
  simp [h]

/-- The running step of a job has opened for every part that is no map part. -/
theorem hasOpened_running {p : Part} (h1 : s.led.st ≠ .nojob) (h2 : s.led.st ≠ .lost) (hm : isMapPart p = false) :
    hasOpened a s s.led.running p = true := by
  have runs : jobRuns s = true := by
    unfold jobRuns
    cases hst : s.led.st <;> simp_all
  unfold hasOpened
  dsimp only
  rw [runs, hm]
  simp

/-- A part with an entry outside the map is no map part. -/
theorem not_mapPart {p : Part} {e : EntryVal} (he : e ∈ p.entries) (h1 : e.idx ≠ 0x2810#16) (h2 : e.idx ≠ 0x2811#16) : isMapPart p = false := by
  unfold isMapPart
  refine Bool.and_eq_false_iff.2 (.inr (List.all_eq_false.2 ⟨e, he, by simp [h1, h2]⟩))

/-- Settles O12. -/
theorem commitRefusals : Obligations.CommitRefusals := by
  unfold Obligations.CommitRefusals
  intro s a gen target c sub refused ht
  have refuses : ∀ {code es}, commitError a gen (target.map (·.toNat)) s = some (code, es) → refused code := fun h =>
    ⟨_, exec_commit ht, commitWith_refused ht.1 h⟩
  refine ⟨fun ho => refuses (commitError_foreign ho), fun ho hg => refuses (commitError_gen ho hg),
    fun ho hg he => refuses (commitError_empty ho hg he), ?past, ?running, ?full, fun es h => refuses h⟩
  case past =>
    rintro n rfl ho hg ⟨e, he, hs⟩ hc hr
    obtain ⟨p, hp, point, -⟩ := part_of_point gen (some n.toNat) he (by simp [hs])
    exact refuses (commitError_past ho hg hp (point.trans hs) (hasOpened_committed p hc hr))
  case running =>
    rintro n rfl ho hg h1 h2 hn ⟨e, he, hs, m1, m2⟩
    obtain ⟨p, hp, point, mem⟩ := part_of_point gen (some n.toNat) he (by simp [hs])
    exact refuses (commitError_past (n := n.toNat) ho hg hp (point.trans hs) (by rw [hn]; exact hasOpened_running h1 h2 (not_mapPart mem m1 m2)))
  case full =>
    rintro ho hg hroom ⟨e, he, hn⟩
    obtain ⟨p, hp, point, -⟩ := part_of_point gen (target.map (·.toNat)) he hn
    exact refuses (commitError_room_none ho hg hp (point ▸ hn) hroom)

end Sys2Proof.Machine
end

section
/-! PROOF. The error field, stores and restores (O13), and sessions of USDO (O14). -/

namespace Sys2Proof.Machine

open Sys2Proof.Claims

variable {s : State} {a : Access}

/-! ### Stored values (R63) -/

/-- Writes to a map of values that agree on a key leave what they agree on. -/
theorem get_foldl_put {α β : Type} [DecidableEq α] (d : α) (f : β → Nat) (v : β → α) {k : Nat} {x : α} (ys : List β) :
    ∀ m : Sparse α, ((∃ y ∈ ys, f y = k) ∨ Sparse.get d m k = x) → (∀ y ∈ ys, f y = k → v y = x) →
      Sparse.get d (ys.foldl (fun m y => Sparse.set d m (f y) (v y)) m) k = x := by
  induction ys with
  | nil => exact fun m h _ => h.resolve_left fun ⟨_, hy, _⟩ => absurd hy List.not_mem_nil
  | cons y ys ih =>
    intro m h hv
    refine ih _ (or_iff_not_imp_left.2 fun hn => ?_) fun z hz => hv z (.tail _ hz)
    dsimp only
    by_cases hk : f y = k
    · rw [hk, Sparse.get_set_self, hv y List.mem_cons_self hk]
    · rw [Sparse.get_set_ne _ _ _ (Ne.symm hk)]
      exact h.resolve_left fun ⟨z, hz, e⟩ => (List.mem_cons.1 hz).elim (fun hzy => hk (hzy ▸ e)) fun hz => hn ⟨z, hz, e⟩

theorem storedEntries_sub {e : Nat × Nat} (h : e ∈ storedEntries) : e.2 < 256 := by
  have all : storedEntries.all (fun e => decide (e.2 < 256)) = true := by decide +kernel
  exact of_decide_eq_true (List.all_eq_true.1 all e h)

theorem mem_of_get {α : Type} {d : α} {k : Nat} (m : Sparse α) (h : Sparse.get d m k ≠ d) : ∃ kv ∈ m, kv.1 = k := by
  induction m with
  | nil => exact absurd rfl h
  | cons kv m ih =>
    obtain ⟨j, v⟩ := kv
    by_cases hk : j = k
    · exact ⟨(j, v), List.mem_cons_self, hk⟩
    · rw [Sparse.get_cons, if_neg hk] at h
      obtain ⟨x, hx, e⟩ := ih h
      exact ⟨x, .tail _ hx, e⟩

/-- What a snapshot holds are values in force of entries of its class. -/
theorem mem_snapshotClass {cls : Nat} {kv : Nat × Option Bytes} (h : kv ∈ snapshotClass s cls) :
    ∃ e ∈ storedEntries, kv = (ekey e.1 e.2, some (valBytes s e.1 e.2)) := by
  have fold : ∀ (es : List (Nat × Nat)) (m : Sparse (Option Bytes)),
      kv ∈ es.foldl (fun m e => Sparse.set none m (ekey e.1 e.2) (some (valBytes s e.1 e.2))) m →
      kv ∈ m ∨ ∃ e ∈ es, kv = (ekey e.1 e.2, some (valBytes s e.1 e.2)) := by
    intro es
    induction es with
    | nil => exact fun m h => .inl h
    | cons e es ih =>
      intro m h
      rcases ih _ h with h | ⟨x, hx, e'⟩
      · dsimp only at h
        unfold Sparse.set at h
        rw [if_neg (Option.some_ne_none _)] at h
        exact (Sparse.mem_ins _ _ _ kv h).elim (fun h => .inr ⟨e, List.mem_cons_self, h⟩) .inl
      · exact .inr ⟨x, .tail _ hx, e'⟩
  obtain ⟨e, he, hkv⟩ := (fold _ _ h).resolve_left List.not_mem_nil
  exact ⟨e, (List.mem_filter.1 he).1, hkv⟩

/-- Once a snapshot is stored, every entry of its class has the value that it had in force. -/
theorem get_stored {cls : Nat} {e : Nat × Nat} (he : e ∈ storedEntries) (hc : inClass cls e.1 = true) (st : Sparse (Option Bytes)) :
    Sparse.get none ((snapshotClass s cls).foldl (fun m kv => Sparse.set none m kv.1 kv.2) st) (ekey e.1 e.2) =
      some (valBytes s e.1 e.2) := by
  have agree : ∀ x ∈ storedEntries, ekey x.1 x.2 = ekey e.1 e.2 → some (valBytes s x.1 x.2) = some (valBytes s e.1 e.2) := by
    intro x hx hk
    obtain ⟨h1, h2⟩ := (ekey_inj (storedEntries_sub hx) (storedEntries_sub he)).1 hk
    rw [h1, h2]
  have taken : Sparse.get none (snapshotClass s cls) (ekey e.1 e.2) = some (valBytes s e.1 e.2) :=
    get_foldl_put none (fun e : Nat × Nat => ekey e.1 e.2) (fun e => some (valBytes s e.1 e.2)) _ _
      (.inl ⟨e, List.mem_filter.2 ⟨he, hc⟩, rfl⟩) fun x hx => agree x (List.mem_filter.1 hx).1
  refine get_foldl_put none Prod.fst Prod.snd _ _ (.inl (mem_of_get _ (by rw [taken]; exact Option.some_ne_none _))) fun kv hkv hk => ?_
  obtain ⟨x, hx, rfl⟩ := mem_snapshotClass hkv
  exact agree x hx hk

theorem finishStore_cons {x : Access × Sparse (Option Bytes)} {xs : List (Access × Sparse (Option Bytes))} (h : s.dict.storing = x :: xs) :
    finishStore s = reply x.1 [] (putStored (x.2.foldl (fun m kv => Sparse.set none m kv.1 kv.2) s.dict.stored)
      { s with dict := { s.dict with storing := xs } }) := by
  unfold finishStore
  rw [h]

theorem answers_putStored (vals : Sparse (Option Bytes)) (d : DictSt) (hd : d.vals = s.dict.vals) (r : Route) :
    answers (putStored vals { s with dict := d }) r = answers s r :=
  answers_of_vals (s := s) (t := putStored vals { s with dict := d }) rfl hd rfl r

/-- What a write of the stored dictionary, answered, leaves. -/
theorem stored_replied (hp : pathServes s a.path = true) {d : DictSt} (hd : d.vals = s.dict.vals) (vals : Sparse (Option Bytes)) :
    (reply a [] (putStored vals { s with dict := d })).dict = { d with stored := vals } ∧
      (reply a [] (putStored vals { s with dict := d })).out = s.out ++ [.flashWrite 2, .usdo a []] ∧
      OnlyStored s (reply a [] (putStored vals { s with dict := d })) := by
  refine ⟨reply_dict .., ?_, ?_⟩
  · rw [reply_answered ((answers_putStored vals d hd _).trans (answers_of_serves s hp))]
    exact List.append_assoc ..
  · obtain ⟨os, b, e⟩ : ∃ os b, reply a [] (putStored vals { s with dict := d }) = _ := respond_frame _ a 1 _
    rw [e]
    rfl

theorem exec_store {cls : Fin 3} {sig : BitVec 32} (h : Takes s a 0x1010 (cls.val + 1)) : exec (.store a cls sig) s =
    .next (if sig ≠ 0x65766173#32 then refuse a 0x1010 (cls.val + 1) abGen s
      else { s with dict := { s.dict with storing := s.dict.storing ++ [(a, snapshotClass s cls.val)] } }) :=
  congrArg Host.Outcome.next (actWrite_takes s h _)

/-- Settles O13. -/
theorem storesAndErrorField : Obligations.StoresAndErrorField := by
  unfold Obligations.StoresAndErrorField
  refine ⟨fun s a h => ?clears, fun s a cls h hs => ?stores, fun s a cls h => ?restores, fun s x xs hs hr => ?silent,
    fun s a cls sig h hsig => ?signature⟩
  case clears =>
    exact ⟨_, congrArg Host.Outcome.next (actWrite_takes s h _), replied h.1 (d := { s.dict with errField := [] }) rfl []⟩
  case stores =>
    refine ⟨_, (exec_store h).trans (congrArg Host.Outcome.next (if_neg (not_not.2 rfl))), rfl, rfl, rfl, _, rfl, ?_⟩
    rw [finishStore_cons (x := (a, snapshotClass s cls.val)) (xs := []) (by dsimp only; rw [hs]; rfl)]
    obtain ⟨hd, hout, only⟩ := stored_replied h.1 (d := { s.dict with storing := [] }) rfl
      ((snapshotClass s cls.val).foldl (fun m kv => Sparse.set none m kv.1 kv.2) s.dict.stored)
    refine ⟨hout, ?_, only, fun e he hc => ?_⟩
    · refine hd.trans ?_
      dsimp only
      rw [hd, ← hs]
    · refine (congrArg (fun d : DictSt => Sparse.get none d.stored (ekey e.1 e.2)) hd).trans ?_
      exact get_stored he hc _
  case restores =>
    refine ⟨_, congrArg Host.Outcome.next ((actWrite_takes s h _).trans (if_neg (not_not.2 rfl))), fun k => ?_, ?_⟩
    · rw [reply_dict]
      refine (Sparse.get_filter none s.dict.stored (fun k => !inClass cls.val (k / 256)) k).trans ?_
      cases inClass cls.val (k / 256) <;> rfl
    · obtain ⟨hd, rest⟩ := stored_replied h.1 (d := s.dict) rfl (s.dict.stored.filter fun kv => !inClass cls.val (kv.1 / 256))
      refine ⟨hd.trans ?_, rest⟩
      rw [hd]
  case silent =>
    have none : ¬ answers s x.1.path = true := fun h => hr ((answers_iff _).1 h)
    refine ⟨_, congrArg Host.Outcome.next (finishStore_cons hs), ?_, by rw [reply_dict]; rfl⟩
    rw [reply_out, answers_putStored _ { s.dict with storing := xs } rfl, if_neg none]
    rfl
  case signature =>
    refine ⟨_, (exec_store h).trans (congrArg Host.Outcome.next (if_pos hsig)), ?_⟩
    exact aborted h.1 (d := s.dict) rfl 0x1010 (cls.val + 1) abGen

/-! ### Sessions (R55) -/

variable {r : Route} {sid : Nat} {x : Session}

theorem findSession_some (h : findSession s r sid = some x) : x.path = r ∧ x.sid = sid := by
  have found := List.find?_some h
  simpa only [Bool.and_eq_true, decide_eq_true_eq] using found

theorem dropSession_none (h : findSession s r sid = none) : dropSession r sid s = s := by
  have all : (s.dict.sessions.filter fun x => !(decide (x.path = r) && decide (x.sid = sid))) = s.dict.sessions :=
    List.filter_eq_self.2 fun x hx => by
      have no := List.find?_eq_none.1 h x hx
      simpa only [Bool.not_eq_true, Bool.not_eq_true'] using no
  unfold dropSession
  rw [all]

theorem findSession_dropSession (s : State) (r : Route) (sid : Nat) : findSession (dropSession r sid s) r sid = none := by
  refine List.find?_eq_none.2 fun x hx => ?_
  have kept := (List.mem_filter.1 hx).2
  simpa only [Bool.not_eq_true, Bool.not_eq_true'] using kept

theorem exec_usdoSegment (hp : pathServes s a.path = true) (m : SegMsg) (data : Bytes) (last : Bool) :
    exec (.usdoSegment a sid m data last) s = .next (segment a sid m data last s) := congrArg Host.Outcome.next (if_pos hp)

/-- An initiate of a session that does not stand yet. -/
theorem segment_write (h : findSession s a.path sid = none) (idx : BitVec 16) (sub : Option (BitVec 8)) (data : Bytes) (last : Bool) :
    segment a sid (.write idx sub) data last s = openSession a idx.toNat ((sub.map (·.toNat)).getD 0)
      (writeSession a { path := a.path, sid := sid, acc := a, idx := idx, sub := sub, data := data, read := false } last) s := by
  unfold segment
  rw [h]
  rfl

theorem segment_read (h : findSession s a.path sid = none) (idx : BitVec 16) (sub : Option (BitVec 8)) (data : Bytes) (last : Bool) :
    segment a sid (.read idx sub) data last s = openSession a idx.toNat ((sub.map (·.toNat)).getD 0)
      (serveRead a idx.toNat (sub.map (·.toNat)) fun bs =>
        readSession a { path := a.path, sid := sid, acc := a, idx := idx, sub := sub, data := bs, read := true }) s := by
  unfold segment
  rw [h]
  rfl

theorem segment_more (h : findSession s a.path sid = some x) (data : Bytes) (last : Bool) : segment a sid .more data last s =
    if x.read then readSession a x s else writeSession a { x with data := x.data ++ data } last s := by
  unfold segment
  rw [h]

theorem openSession_room (h : (sessionsOf s a.path).length < 8) (idx sub : Nat) (f : State → State) : openSession a idx sub f s = f s :=
  if_neg (by omega)

/-! ### Reads (R40) -/

/-- The bytes that a response on the route of a session carries. -/
def pieceLen (a : Access) : Nat := max 1 (Config.uploadBytes (pathNum a.path))

/-- A session of a read sends its next bytes, and stands on while bytes are left. -/
theorem readSession_spec (ha : answers s a.path = true) (hx : x.path = a.path) :
    (readSession a x s).out = s.out ++ [.usdo a (x.data.take (pieceLen a))] ∧ OnlyDict s (readSession a x s) ∧
      (x.data.length ≤ pieceLen a → findSession (readSession a x s) a.path x.sid = none) ∧
      (pieceLen a < x.data.length →
        findSession (readSession a x s) a.path x.sid = some { x with data := x.data.drop (pieceLen a) }) := by
  have may : answers (dropSession a.path x.sid s) a.path = true :=
    (answers_of_vals (s := s) (t := dropSession a.path x.sid s) rfl rfl rfl _).trans ha
  have none := findSession_dropSession s a.path x.sid
  by_cases hl : x.data.length ≤ pieceLen a
  · have e : readSession a x s = reply a x.data (dropSession a.path x.sid s) := if_pos hl
    rw [e]
    refine ⟨?_, onlyDict_respond (t := dropSession a.path x.sid s) rfl 1 _, fun _ => ?_, fun h => by omega⟩
    · rw [List.take_of_length_le hl]
      exact reply_answered may _
    · unfold findSession
      rw [reply_dict]
      exact none
  · have e : readSession a x s = send (.usdo a (x.data.take (pieceLen a))) { dropSession a.path x.sid s with dict :=
        { (dropSession a.path x.sid s).dict with sessions := (dropSession a.path x.sid s).dict.sessions ++ [{ x with data := x.data.drop (pieceLen a) }] } } :=
      if_neg hl
    rw [e]
    refine ⟨rfl, rfl, fun h => absurd h hl, fun _ => ?_⟩
    refine (List.find?_append ..).trans ?_
    rw [show ((dropSession a.path x.sid s).dict.sessions.find? fun y => decide (y.path = a.path) && decide (y.sid = x.sid)) = Option.none from none]
    simp [hx]

/-- A read that is served does what it does with the value. -/
theorem serveRead_served {idx : Nat} {sub : Option Nat} {bs : Bytes} (hp : pathServes s a.path = true) (hi : idxServed s a.path idx = true)
    (hv : readValue s idx sub = .ok bs) (f : Bytes → State → State) : serveRead a idx sub f s = noteRead idx sub (f bs s) := by
  unfold serveRead
  rw [serve_served s hp hi, hv]

theorem noteRead_frame (idx : Nat) (sub : Option Nat) (s : State) :
    ∃ b, noteRead idx sub s = { s with dict := { s.dict with discarded := b } } := by
  unfold noteRead
  split
  exacts [⟨false, rfl⟩, ⟨s.dict.discarded, rfl⟩]

/-! ### A write by complete access (R52) -/

/-- The bytes of an object, one value after another, come to the entries that take part. -/
theorem objectValues_flatten (ps : List (Nat × ObjDef × Nat)) : ∀ vs : List Bytes, vs.map List.length = ps.map (fun x => x.2.2) →
    objectValues a s vs.flatten ps =
      ((ps.zip vs).filter fun x => partakes a x.1.2.1 x.1.1 s).map fun x => (x.1.1, x.1.2.1, x.2) := by
  induction ps with
  | nil => exact fun vs _ => rfl
  | cons p ps ih =>
    intro vs h
    obtain ⟨k, o, n⟩ := p
    cases vs with
    | nil => cases h
    | cons v vs =>
      obtain ⟨hn, hrest⟩ := List.cons.inj h
      dsimp only at hn
      rw [objectValues, List.flatten_cons, ← hn, List.drop_left, List.take_left, ih vs hrest, List.zip_cons_cons, List.filter_cons]
      dsimp only
      split <;> rfl

/-- A complete write of which every entry that takes part is staged, by the owner or into a set that nobody owns. -/
theorem writeObject_staged {idx : BitVec 16} {bs : Bytes} {vs : List (Nat × ObjDef × Bytes)} {new : List EntryVal}
    (hp : pathServes s a.path = true) (hi : idxServed s a.path idx.toNat = true) (hd : indexDefined idx.toNat = true) (ho : Owns s a)
    (hvs : objectValues a s bs (objectParts s idx.toNat) = vs) (hne : vs ≠ [])
    (hl : bs.length = ((objectParts s idx.toNat).map fun x => x.2.2).sum)
    (hall : ∀ v ∈ vs, v.2.1.acc = .rwst ∧ valueOk s v.2.1 v.1 v.2.2 = true)
    (hnew : vs.foldl (fun q v => putPending ⟨idx, BitVec.ofNat 8 v.1, v.2.2⟩ q) s.dict.pset = new)
    (h1 : new.length ≤ 256) (h2 : (new.map (·.val.length)).sum ≤ 16384) :
    writeObject a idx.toNat bs s = reply a [] { s with dict := { s.dict with pset := new, owner := some a.src } } := by
  have rwst : vs.filter (fun v => decide (v.2.1.acc = .rwst)) = vs := List.filter_eq_self.2 fun v hv => decide_eq_true (hall v hv).1
  have rw_ : vs.filter (fun v => decide (v.2.1.acc = .rw)) = [] := List.filter_eq_nil_iff.2 fun v hv => by simp [(hall v hv).1]
  have good : vs.find? (fun v => !valueOk s v.2.1 v.1 v.2.2) = none := List.find?_eq_none.2 fun v hv => by simp [(hall v hv).2]
  have staged : vs.any (fun v => decide (v.2.1.acc = .rwst)) = true := by
    obtain ⟨v, hv⟩ := List.exists_mem_of_ne_nil vs hne
    exact List.any_eq_true.2 ⟨v, hv, decide_eq_true (hall v hv).1⟩
  have filled : vs.isEmpty = false := List.isEmpty_eq_false_iff.2 hne
  unfold writeObject
  rw [serve_served s hp hi]
  dsimp only
  rw [hvs, rwst, rw_, good, staged, filled, BitVec.ofNat_toNat, BitVec.setWidth_eq, hnew, hd, if_neg (by simp), if_neg (by simp),
    if_neg (not_not.2 hl), foreign_owned ho, if_neg (by simp)]
  dsimp only
  rw [if_neg (by omega)]
  rfl

/-! ### The statement on sessions -/

/-- Settles O14. -/
theorem usdoSessions : Obligations.UsdoSessions := by
  unfold Obligations.UsdoSessions
  refine ⟨fun s a sid e data hp hf => ⟨fun hn => ?opens, fun hn => ?full⟩, fun s a sid x k data hp hf hr hk => ?last,
    fun s a sid idx vs hp hi hf hn hd ho => ?complete, fun s a sid idx sub bs data last hp hi hf hn hv => ?read,
    fun s a sid x data last hp hf hr => ?more, fun s a e sid hp => ?invalid, fun s a hp => ?bare, fun s r sid x hf => ?timeout⟩
  case opens =>
    have opened : segment a sid (.write e.1 e.2) data false s = send (.usdo a []) { s with dict := { s.dict with
        sessions := s.dict.sessions ++ [⟨a.path, sid, a, e.1, e.2, data, false⟩] } } := by
      rw [segment_write hf, openSession_room hn]
      unfold writeSession
      rw [dropSession_none hf, if_neg (by simp)]
    exact ⟨_, (exec_usdoSegment hp ..).trans (congrArg Host.Outcome.next opened), rfl, rfl, rfl⟩
  case full =>
    refine ⟨_, (exec_usdoSegment hp ..).trans (congrArg Host.Outcome.next ((segment_write hf ..).trans (if_pos hn))), ?_⟩
    exact aborted hp (d := s.dict) rfl ..
  case last =>
    obtain ⟨-, hsid⟩ := findSession_some hf
    rw [exec_usdoSegment hp, segment_more hf, hr, if_neg (by simp)]
    unfold writeSession
    dsimp only
    rw [if_pos rfl, hk, hsid]
    rfl
  case complete =>
    intro ps ws new hlen hne hall h1 h2
    have lens : vs.flatten.length = (ps.map fun x => x.2.2).sum := by rw [List.length_flatten, hlen]
    have written := writeObject_staged (bs := vs.flatten) (new := new) hp hi hd ho (objectValues_flatten ps vs hlen) (fun h => hne (List.map_eq_nil_iff.1 h)) lens
      (fun v hv => by
        obtain ⟨w, hw, rfl⟩ := List.mem_map.1 hv
        exact hall w hw) (by rw [List.foldl_map]) h1 h2
    have whole : segment a sid (.write idx none) vs.flatten true s = writeObject a idx.toNat vs.flatten s := by
      rw [segment_write hf, openSession_room hn]
      unfold writeSession
      rw [dropSession_none hf, if_pos rfl]
    exact ⟨_, (exec_usdoSegment hp ..).trans (congrArg Host.Outcome.next (whole.trans written)),
      replied hp (d := { s.dict with pset := new, owner := some a.src }) rfl []⟩
  case read =>
    intro n
    obtain ⟨x, hx⟩ : ∃ x : Session, x = { path := a.path, sid := sid, acc := a, idx := idx, sub := sub, data := bs, read := true } := ⟨_, rfl⟩
    have spec := readSession_spec (x := x) (answers_of_serves s hp) (by rw [hx])
    have served : segment a sid (.read idx sub) data last s = noteRead idx.toNat (sub.map (·.toNat)) (readSession a x s) := by
      rw [segment_read hf, openSession_room hn, serveRead_served hp hi hv, hx]
    generalize readSession a x s = u at spec served
    subst hx
    obtain ⟨hout, only, short, long⟩ := spec
    obtain ⟨b, hb⟩ := noteRead_frame idx.toNat (sub.map (·.toNat)) u
    refine ⟨_, (exec_usdoSegment hp ..).trans (congrArg Host.Outcome.next (served.trans hb)), hout, ?_, short,
      fun hl => ⟨_, long hl, rfl, rfl⟩⟩
    unfold OnlyDict at only ⊢
    rw [only]
  case more =>
    intro n
    obtain ⟨hpath, hsid⟩ := findSession_some hf
    obtain ⟨hout, only, short, -⟩ := readSession_spec (answers_of_serves s hp) hpath
    refine ⟨_, (exec_usdoSegment hp ..).trans (congrArg Host.Outcome.next ((segment_more hf ..).trans (if_pos hr))), hout, only, ?_⟩
    rw [← hsid]
    exact short
  case invalid =>
    refine ⟨_, congrArg Host.Outcome.next (if_neg (by simp [hp])), ?_⟩
    exact aborted hp (d := (dropSession a.path sid s).dict) rfl ..
  case bare =>
    refine ⟨_, congrArg Host.Outcome.next (if_neg (by simp [hp])), ?_⟩
    exact aborted hp (d := s.dict) rfl ..
  case timeout =>
    have ended : exec (.usdoSessionTimeout r sid) s =
        .next (refuse x.acc x.idx.toNat ((x.sub.map (·.toNat)).getD 0) abTimeout (dropSession r sid s)) := by
      show execUsdoSessionTimeout r sid s = _
      unfold execUsdoSessionTimeout
      rw [hf]
    have same : answers (dropSession r sid s) x.acc.path = answers s x.acc.path :=
      answers_of_vals (s := s) (t := dropSession r sid s) rfl rfl rfl _
    refine ⟨_, ended, ?_, ?_, onlyDict_respond (t := dropSession r sid s) rfl 4 _, fun h => ?_, fun h => ?_⟩
    · unfold findSession
      rw [refuse_dict]
      exact findSession_dropSession s r sid
    · rw [refuse_dict]
      rfl
    · exact refuse_answered (same.trans ((answers_iff _).2 h)) ..
    · exact refuse_unanswered (fun h' => h ((answers_iff _).1 (same.symm.trans h'))) ..

end Sys2Proof.Machine
end

section
/-! PROOF. The values that a boundary leaves to await (O11): refuted where the map that applies there names the card, which then leaves
its pair and lets go the CAN route settings that waited for its partner. -/

namespace Sys2Proof.Machine

open Sys2Proof.Claims Sys2Proof.Tests

variable {s : State} {p : Part}

/-- What waits for the twin and is let go leaves no CAN route settings (R37, R350). -/
theorem answerWaits_now (h : p ∈ (answerWaits s).dict.awaiting) : p.point = .now → p.entries = [] := by
  unfold answerWaits at h
  exact (mem_applyCan h).2

theorem setPair_now {q : PairState} {cause : Nat} (hq : q ≠ .inStep) (h : p ∈ (setPair q cause s).dict.awaiting) :
    p.point = .now → p.entries = [] := by
  refine answerWaits_now (s := s) ?_
  unfold setPair at h
  dsimp only at h
  rw [if_neg hq] at h
  split at h
  · exact h
  · rw [raiseOpen_dict] at h
    exact h

/-- A card that the map in force names as failed leaves at the boundary where the map applies (R360, R366). -/
theorem mapApplied_leaves (hf : (failedCards s).contains (cardId s) = true) (hm : s.keep.mirror = false) (hs : canServeMirror s = true) :
    (mapApplied s).keep.mirror = true ∧ ∀ p ∈ (mapApplied s).dict.awaiting, p.point = .now → p.entries = [] := by
  have leaves : ∀ v : State, canServeMirror v = true →
      (mirrorService v).keep.mirror = true ∧ ∀ p ∈ (mirrorService v).dict.awaiting, p.point = .now → p.entries = [] := by
    intro v hv
    refine ⟨rfl, fun p hp => ?_⟩
    unfold mirrorService at hp
    dsimp only at hp
    rw [hv, if_pos rfl] at hp
    exact setPair_now (by simp) hp
  unfold mapApplied
  dsimp only
  rw [if_pos]
  · exact leaves _ hs
  · exact Bool.and_eq_true_iff.2 ⟨hf, by rw [hm]; rfl⟩

/-- A plan-loaded card in step: a map part that names the card itself awaits the next step, and CAN bit rates await the twin's PACK. -/
def leavingCard : State :=
  { planned with
    dict := { planned.dict with
      awaiting := [⟨1, .step, none, [⟨0x2811, 0, [0, 0]⟩]⟩, ⟨2, .now, none, canRate⟩], packWait := [(2, acc)] }
    twin := { planned.twin with pair := .inStep }
    fab := { planned.fab with ports := [(16, { cond := 2 })] } }

/-- A job does not begin on a card that leaves at the boundary of its first step. -/
theorem startJob_leaves {u : State} (h : partnerParts (stepPartsDue (s.led.committed + 1))
    (mapApplied (applyParts (stepPartsDue (s.led.committed + 1)) s)) = u) (hm : u.keep.mirror = true) : startJob s = u := by
  unfold startJob
  dsimp only
  rw [h, hm, if_pos rfl]

theorem leavingCard_startJob (h : p ∈ (startJob leavingCard).dict.awaiting) : p.point = .now → p.entries = [] := by
  obtain ⟨left, now⟩ := mapApplied_leaves (s := applyParts (stepPartsDue (leavingCard.led.committed + 1)) leavingCard)
    (by decide +kernel) (by decide +kernel) (by decide +kernel)
  obtain ⟨pg, ps, pp, e⟩ := partnerParts_frame (stepPartsDue (leavingCard.led.committed + 1))
    (mapApplied (applyParts (stepPartsDue (leavingCard.led.committed + 1)) leavingCard))
  rw [startJob_leaves e left] at h
  exact now p h

/-- Refutes O11: at a job start the map part that names this card applies, the card leaves its pair, and with that the CAN bit rates
that awaited PACK apply as well, though they are no step part that is due. -/
theorem not_commitTakesPendingSet : ¬ Obligations.CommitTakesPendingSet := by
  unfold Obligations.CommitTakesPendingSet
  rintro ⟨-, -, starts⟩
  have takes : Takes leavingCard acc 0x2001 1 := by unfold Takes; decide +kernel
  have may : mayStart leavingCard = true := by decide +kernel
  have noCan : NoCan ((leavingCard.dict.awaiting.filter (dueAt (leavingCard.led.committed + 1))).flatMap (·.entries)) := by
    unfold NoCan
    decide +kernel
  obtain ⟨t, ht, awaiting, -⟩ := starts leavingCard acc takes may noCan
  rw [exec_startJob takes, if_pos may] at ht
  obtain rfl := Host.Outcome.next.inj ht
  rw [reply_dict] at awaiting
  have kept : (⟨2, .now, none, canRate⟩ : Part) ∈ leavingCard.dict.awaiting.filter fun p => !dueAt (leavingCard.led.committed + 1) p := by
    decide +kernel
  have none : canRate = [] := leavingCard_startJob (awaiting ▸ kept) rfl
  cases none

end Sys2Proof.Machine
end

section
/-! SUPPORT. Reads of the dictionary do not see the flags of the mailbox, nor which messages the card has heard (R33, R381). -/

namespace Sys2Proof.Machine

open Sys2Proof.Claims

/-- The card with other flags of its mailbox, and other messages heard. -/
def withMbx (busy rdy ovr : Bool) (fwd : Option Nat) (heard : List (Nat × Nat)) (s : State) : State :=
  { s with host := { s.host with busy := busy, respRdy := rdy, overrun := ovr, fwd := fwd }, fab := { s.fab with seen := heard } }

variable (busy rdy ovr : Bool) (fwd : Option Nat) (heard : List (Nat × Nat)) (s : State) (idx sub : Nat)

theorem sameNet_withMbx : SameNet s (withMbx busy rdy ovr fwd heard s) := ⟨rfl, rfl, rfl, rfl, rfl⟩

theorem readB_withMbx : readB (withMbx busy rdy ovr fwd heard s) idx sub = readB s idx sub := by
  have net := sameNet_withMbx busy rdy ovr fwd heard s
  have fitted : fittedPorts (withMbx busy rdy ovr fwd heard s) = fittedPorts s := by simp only [fittedPorts, funext net.portFitted]
  have cards : torusCards (withMbx busy rdy ovr fwd heard s) = torusCards s := by simp only [torusCards, net.num]
  have states : fabricState (withMbx busy rdy ovr fwd heard s) = fabricState s := by
    simp only [fabricState, cards, fitted, funext net.portUp, net.portCond]
  have spare : eligibleSpare (withMbx busy rdy ovr fwd heard s) = eligibleSpare s := by
    simp only [eligibleSpare, net.myLogical, net.failedCards, net.cardId, net.fabricTrained]
    rfl
  have ups : (List.range 4).filter (fun k => portUp (withMbx busy rdy ovr fwd heard s) (16 + k)) = (List.range 4).filter fun k => portUp s (16 + k) := by
    simp only [net.portUp]
  have torus : (fittedPorts s).filter (portUp (withMbx busy rdy ovr fwd heard s)) = (fittedPorts s).filter (portUp s) := by
    rw [funext net.portUp]
  have now : planNow (withMbx busy rdy ovr fwd heard s) = planNow s := rfl
  have pairs : paired (withMbx busy rdy ovr fwd heard s) = paired s := rfl
  have ports : getPort (withMbx busy rdy ovr fwd heard s) = getPort s := rfl
  unfold readB
  simp only [fitted, cards, states, spare, ups, torus, now, pairs, ports, net.cardId, net.myLogical, net.coordinator, net.portCond]
  rfl

theorem readA_withMbx : readA (withMbx busy rdy ovr fwd heard s) idx sub = readA s idx sub := by
  obtain ⟨t, ht⟩ : ∃ t, t = withMbx busy rdy ovr fwd heard s := ⟨_, rfl⟩
  have strap : t.strap = s.strap := ht ▸ rfl
  have dict : t.dict = s.dict := ht ▸ rfl
  have stat : t.stat = s.stat := ht ▸ rfl
  have led : t.led = s.led := ht ▸ rfl
  have keep : t.keep = s.keep := ht ▸ rfl
  have boot : t.boot = s.boot := ht ▸ rfl
  have barred : reopenBarred t = reopenBarred s := ht ▸ rfl
  have bits : awaitingBits t = awaitingBits s := ht ▸ rfl
  have target : awaitingTarget t = awaitingTarget s := ht ▸ rfl
  have gens : gensAwaiting t = gensAwaiting s := ht ▸ rfl
  have identify : identifyLeft t = identifyLeft s := ht ▸ rfl
  have slot : runningSlot t = runningSlot s := ht ▸ rfl
  have leds : ledState t = ledState s := ht ▸ rfl
  have port : getPort t = getPort s := ht ▸ rfl
  rw [← ht]
  unfold readA
  rw [barred, bits, target, gens, identify, slot, leds, port, strap, dict, stat, led, keep, boot]

theorem readC_withMbx : readC (withMbx busy rdy ovr fwd heard s) idx sub = readC s idx sub := by
  obtain ⟨t, ht⟩ : ∃ t, t = withMbx busy rdy ovr fwd heard s := ⟨_, rfl⟩
  have strap : t.strap = s.strap := ht ▸ rfl
  have stat : t.stat = s.stat := ht ▸ rfl
  have units : t.units = s.units := ht ▸ rfl
  have plan : t.plan = s.plan := ht ▸ rfl
  have mem : t.mem = s.mem := ht ▸ rfl
  have led : t.led = s.led := ht ▸ rfl
  have now : planNow t = planNow s := ht ▸ rfl
  have retained : retainedBytes t = retainedBytes s := ht ▸ rfl
  have nums : num t = num s := ht ▸ rfl
  have logical : logicalUnit t = logicalUnit s := ht ▸ rfl
  have cond : condReport t = condReport s := ht ▸ rfl
  rw [← ht]
  unfold readC
  rw [now, retained, nums, logical, cond, strap, stat, units, plan, mem, led]

theorem readD_withMbx : readD (withMbx busy rdy ovr fwd heard s) idx sub = readD s idx sub := by
  obtain ⟨t, ht⟩ : ∃ t, t = withMbx busy rdy ovr fwd heard s := ⟨_, rfl⟩
  have strap : t.strap = s.strap := ht ▸ rfl
  have dict : t.dict = s.dict := ht ▸ rfl
  have boot : t.boot = s.boot := ht ▸ rfl
  have led : t.led = s.led := ht ▸ rfl
  have stat : t.stat = s.stat := ht ▸ rfl
  have touched : touchedMap t = touchedMap s := ht ▸ rfl
  have vals : valBytes t = valBytes s := ht ▸ rfl
  have logical : myLogical t = myLogical s := ht ▸ (sameNet_withMbx busy rdy ovr fwd heard s).myLogical
  have slot : runningSlot t = runningSlot s := ht ▸ rfl
  have slots : getSlot t = getSlot s := ht ▸ rfl
  have plan : t.plan = s.plan := ht ▸ rfl
  have attests : attestation t = attestation s := by
    unfold attestation
    rw [vals, logical, slot, slots, plan, strap, boot, led]
  have standing : standingSet t = standingSet s := ht ▸ rfl
  have barges : barge t = barge s := ht ▸ rfl
  have nums : num t = num s := ht ▸ rfl
  have logs : logFrom t = logFrom s := by
    unfold logFrom
    rw [nums, boot]
  have snaps : getSnap t = getSnap s := ht ▸ rfl
  have now : planNow t = planNow s := ht ▸ rfl
  have tallies : tallyLine t = tallyLine s := ht ▸ rfl
  have devs : devBytes t = devBytes s := ht ▸ rfl
  rw [← ht]
  unfold readD
  rw [touched, vals, attests, logs, standing, barges, nums, snaps, now, tallies, devs, strap, dict, boot, led, stat]

theorem readT_withMbx : readT (withMbx busy rdy ovr fwd heard s) idx sub = readT s idx sub := by
  obtain ⟨t, ht⟩ : ∃ t, t = withMbx busy rdy ovr fwd heard s := ⟨_, rfl⟩
  have stat : t.stat = s.stat := ht ▸ rfl
  have led : t.led = s.led := ht ▸ rfl
  have keep : t.keep = s.keep := ht ▸ rfl
  have twin : t.twin = s.twin := ht ▸ rfl
  have harv : t.harv = s.harv := ht ▸ rfl
  rw [← ht]
  unfold readT
  rw [stat, led, keep, twin, harv]

theorem readEntry_withMbx : readEntry (withMbx busy rdy ovr fwd heard s) idx sub = readEntry s idx sub := by
  have bytes : ∀ o, entryBytes (withMbx busy rdy ovr fwd heard s) o sub = entryBytes s o sub := by
    intro o
    have a := readA_withMbx busy rdy ovr fwd heard s o.idx sub
    have b := readB_withMbx busy rdy ovr fwd heard s o.idx sub
    have c := readC_withMbx busy rdy ovr fwd heard s o.idx sub
    have d := readD_withMbx busy rdy ovr fwd heard s o.idx sub
    have t := readT_withMbx busy rdy ovr fwd heard s o.idx sub
    have stat : statNum (withMbx busy rdy ovr fwd heard s) o sub = statNum s o sub := rfl
    have vals : valBytes (withMbx busy rdy ovr fwd heard s) o.idx sub = valBytes s o.idx sub := rfl
    unfold entryBytes
    rw [a, b, c, d, t, stat, vals]
  have phases : (withMbx busy rdy ovr fwd heard s).boot = s.boot := rfl
  unfold readEntry
  simp only [bytes, phases]

theorem readValue_withMbx (sub : Option Nat) : readValue (withMbx busy rdy ovr fwd heard s) idx sub = readValue s idx sub := by
  have entry : readEntry (withMbx busy rdy ovr fwd heard s) = readEntry s := by
    funext i k
    exact readEntry_withMbx ..
  cases sub with
  | some k => exact readEntry_withMbx ..
  | none =>
    show readObject _ idx = readObject s idx
    unfold readObject
    rw [entry]

end Sys2Proof.Machine
end

section
/-! PROOF. Timers, the mailbox, the towpath lane and 0x2011:05 (O55). -/

namespace Sys2Proof.Machine

open Sys2Proof.Claims

variable {s : State}

/-! ### The timers (R57, R58) -/

theorem exec_producerHeartbeatTimer (s : State) : exec .producerHeartbeatTimer s = .next (
    if num s 0x1017 0 ≠ 0 ∧ keeperOn s = true ∧ s.keep.dev ≠ .boot then
      { s with out := s.out ++ [.heartbeat (if s.keep.dev = .running then 0x05 else if s.keep.dev = .halted then 0x04 else 0x7F)] }
    else s) := by
  have byte : s.keep.dev ≠ .boot →
      nmtByte s.keep.dev = if s.keep.dev = .running then 0x05 else if s.keep.dev = .halted then 0x04 else 0x7F := by
    cases s.keep.dev <;> simp [nmtByte]
  refine congrArg Host.Outcome.next ?_
  split
  case isTrue h => rw [← byte h.2.2, send]
  case isFalse => rfl

theorem tpdoEventTimer_sent {n : Fin 8} (hm : TpdoMay s n.val) (ht : num s (0x1800 + n.val) 2 = 0xFF) (hp : num s (0x1800 + n.val) 5 ≠ 0)
    (hd : s.keep.dev ≠ .boot) : Completes (.tpdoEventTimer n) s fun t =>
      t = { s with out := s.out ++ [.tpdo n.val (num s (0x1800 + n.val) 1 % 2048) (tpdoData s n.val)],
                   keep := { s.keep with tpdoSent := t.keep.tpdoSent } } := by
  obtain ⟨cob, maps, can, -⟩ := hm
  have valid : ¬ 2 ^ 31 ≤ num s (0x1800 + n.val) 1 := by omega
  refine ⟨_, congrArg Host.Outcome.next (if_pos ⟨ht, hp, hd⟩), ?_⟩
  unfold sendTpdo
  dsimp only
  rw [if_neg]
  · rfl
  · simp only [valid, maps, can, ht, false_or]
    simp

/-! ### The mailbox (R53, R54, R381) -/

/-- The card whose mailbox has just taken a request. -/
def rung (s : State) : State := withMbx true false false none s.fab.seen s

theorem exec_mbxctlDoorbell {v : W32} (m : MbxMsg) (ho : barOpen s = true) (hb : s.host.busy = false) :
    exec (.mbxctlDoorbell v m) s = .next (mbxRequest (bits v.toNat 15 0) (bits v.toNat 22 16) m (rung s)) := by
  show Host.Outcome.next (if (!barOpen s) = true then s else if s.host.busy = true then _ else _) = _
  rw [ho, hb]
  rfl

theorem pathServes_rung (r : Route) : pathServes (rung s) r = pathServes s r := by cases r <;> rfl

theorem cardId_rung : cardId (rung s) = cardId s := (sameNet_withMbx ..).cardId

theorem mbxAccess_rung : mbxAccess (rung s) = mbxAccess s := by rw [mbxAccess, mbxSource, cardId_rung]; rfl

theorem fabricTrained_rung : fabricTrained (rung s) = fabricTrained s := (sameNet_withMbx ..).fabricTrained

/-- A message of a length that no mailbox message has, and one that is no request. -/
theorem invalid_rung (hp : pathServes s .mailbox = true) (idx sub : Nat) :
    (invalid (mbxAccess s) idx sub (rung s)).dict = s.dict ∧
      (invalid (mbxAccess s) idx sub (rung s)).out = s.out ++ [.usdoAbort (mbxAccess s) idx sub 0x05040001] := by
  have serves : pathServes (rung s) (mbxAccess s).path = true := (pathServes_rung _).trans hp
  rw [invalid, if_pos serves]
  exact ⟨refuse_dict .., refuse_served (rung s) serves ..⟩

theorem mbxRequest_length {dst len : Nat} (hl : len = 0 ∨ 64 < len) (idx : BitVec 16) (sub : BitVec 8) (data : Bytes) :
    mbxRequest dst len (.write idx sub data) s = invalid (mbxAccess s) idx.toNat sub.toNat s := if_pos hl

/-- A request to this card is served as one of its mailbox. -/
theorem mbxRequest_mine {dst len : Nat} (h1 : 1 ≤ len) (h2 : len ≤ 64) (hd : dst = 0xFFFF ∨ dst = cardId s) {m : MbxMsg} {u : UsdoMsg}
    (hu : laneForm m = some u) : mbxRequest dst len m s = serveUsdo (mbxAccess s) u s := by
  have fits : ¬ (len = 0 ∨ 64 < len) := by omega
  have mine : (decide (dst = 0xFFFF) || decide (dst = cardId s)) = true := by simpa using hd
  cases m <;> cases hu <;> exact (if_neg fits).trans (if_pos mine)

/-- A request to another card goes out on the towpath lane. -/
theorem mbxRequest_forward {dst len : Nat} (h1 : 1 ≤ len) (h2 : len ≤ 64) (hx : dst ≠ 0xFFFF) (hc : dst ≠ cardId s)
    (hp : pathServes s .mailbox = true) (hd : s.keep.dev ≠ .boot) (hf : fabricTrained s = true) {m : MbxMsg} {u : UsdoMsg}
    (hu : laneForm m = some u) : mbxRequest dst len m s =
      toCardId dst (.usdo (mbxSource s) u) { s with host := { s.host with fwd := some dst } } := by
  have fits : ¬ (len = 0 ∨ 64 < len) := by omega
  have other : ¬ (decide (dst = 0xFFFF) || decide (dst = cardId s)) = true := by simp [hx, hc]
  have serves : ¬ (!pathServes s .mailbox) = true := by simp [hp]
  have up : ¬ (s.keep.dev = .boot ∨ fabricTrained s = false) := by simp [hd, hf]
  cases m <;> cases hu <;> exact (if_neg fits).trans ((if_neg other).trans ((if_neg serves).trans (if_neg up)))

theorem mailboxDoorbell (s : State) (v : W32) (idx : BitVec 16) (sub : BitVec 8) (data : Bytes) (ho : barOpen s = true) :
    (s.host.busy = true → exec (.mbxctlDoorbell v (.write idx sub data)) s = .next { s with host := { s.host with overrun := true } }) ∧
    (s.host.busy = false → 1 ≤ bits v.toNat 22 16 → bits v.toNat 22 16 ≤ 64 →
      (bits v.toNat 15 0 = 0xFFFF ∨ bits v.toNat 15 0 = cardId s →
        exec (.mbxctlDoorbell v (.write idx sub data)) s = exec (.entryWrite (mbxAccess s) idx sub data) (rung s)) ∧
      (bits v.toNat 15 0 ≠ 0xFFFF → bits v.toNat 15 0 ≠ cardId s → pathServes s .mailbox = true → s.keep.dev ≠ .boot →
        fabricTrained s = true → ∀ m u, laneForm m = some u → Completes (.mbxctlDoorbell v m) s fun t =>
          ToldId { rung s with host := { (rung s).host with fwd := some (bits v.toNat 15 0) } } t (bits v.toNat 15 0) none
            (.usdo (mbxSource s) u))) ∧
    (s.host.busy = false → pathServes s .mailbox = true → (bits v.toNat 22 16 = 0 ∨ 64 < bits v.toNat 22 16) →
      Completes (.mbxctlDoorbell v (.write idx sub data)) s fun t => t.dict = s.dict ∧
        t.out = s.out ++ [.usdoAbort (mbxAccess s) idx.toNat sub.toNat 0x05040001]) ∧
    (s.host.busy = false → pathServes s .mailbox = true → Completes (.mbxctlDoorbell v .invalid) s fun t => t.dict = s.dict ∧
        t.out = s.out ++ [.usdoAbort (mbxAccess s) 0 0 0x05040001]) := by
  refine ⟨fun hb => ?_, fun hb h1 h2 => ⟨fun hd => ?_, fun hx hc hp hn hf m u hu => ?_⟩, fun hb hp hl => ?_, fun hb hp => ?_⟩
  · show Host.Outcome.next (if (!barOpen s) = true then s else if s.host.busy = true then _ else _) = _
    rw [ho, hb]
    rfl
  · rw [exec_mbxctlDoorbell _ ho hb, mbxRequest_mine h1 h2 (cardId_rung (s := s) ▸ hd) rfl, mbxAccess_rung]
    rfl
  · refine ⟨_, exec_mbxctlDoorbell _ ho hb, ?_⟩
    rw [mbxRequest_forward h1 h2 hx (cardId_rung (s := s) ▸ hc) ((pathServes_rung _).trans hp) hn (fabricTrained_rung.trans hf) hu]
    have who : mbxSource (rung s) = mbxSource s := congrArg Access.src mbxAccess_rung
    rw [who]
    exact toCardId_told _ _ fun _ => TpMsg.noConfusion
  · refine ⟨_, exec_mbxctlDoorbell _ ho hb, ?_⟩
    rw [mbxRequest_length hl, mbxAccess_rung]
    exact invalid_rung hp ..
  · refine ⟨_, exec_mbxctlDoorbell _ ho hb, ?_⟩
    show (invalid (mbxAccess (rung s)) 0 0 (rung s)).dict = _ ∧ _
    rw [mbxAccess_rung]
    exact invalid_rung hp ..

/-- A complete read of an object by a route that serves it, where the read sees the card as it was. -/
theorem answerAll_served {u : State} {a : Access} {idx : Nat} {bs : Bytes} (hp : pathServes u a.path = true)
    (hi : idxServed u a.path idx = true) (hv : readValue u idx none = .ok bs) :
    (answerAll a idx u).out = u.out ++ [.usdo a bs] ∧ (answerAll a idx u).mem = u.mem ∧ (answerAll a idx u).units = u.units := by
  obtain ⟨-, sent, only⟩ := replied (s := u) hp (d := u.dict) rfl bs
  have mem : (reply a bs u).mem = u.mem := (congrArg State.mem (show _ = _ from only) :)
  have units : (reply a bs u).units = u.units := (congrArg State.units (show _ = _ from only) :)
  obtain ⟨b, e⟩ := noteRead_frame idx none (reply a bs u)
  have served : answerAll a idx u = noteRead idx none (reply a bs u) := serveRead_served hp hi hv _
  rw [served, e]
  exact ⟨sent, mem, units⟩

theorem mailboxReadAll (v : W32) (idx : BitVec 16) (ho : barOpen s = true) (hb : s.host.busy = false) (h1 : 1 ≤ bits v.toNat 22 16)
    (h2 : bits v.toNat 22 16 ≤ 64) (hd : bits v.toNat 15 0 = 0xFFFF) (hp : pathServes s .mailbox = true)
    (hi : idxServed s .mailbox idx.toNat = true) {bs : Bytes} (hv : readValue s idx.toNat none = .ok bs) :
    Completes (.mbxctlDoorbell v (.readAll idx)) s fun t =>
      t.out = s.out ++ [.usdo (mbxAccess s) bs] ∧ t.mem = s.mem ∧ t.units = s.units := by
  refine ⟨_, exec_mbxctlDoorbell _ ho hb, ?_⟩
  rw [mbxRequest_mine h1 h2 (.inl hd) rfl, mbxAccess_rung]
  exact answerAll_served (u := rung s) ((pathServes_rung _).trans hp) hi ((readValue_withMbx ..).trans hv)

theorem mailboxResponse_stands (card : BitVec 16) (body : Bytes) (hb : s.host.busy = true) : Completes (.mailboxResponse card body) s fun t =>
      t.host.mbxrsp = takePad 64 (body.take 64) ∧ t.host.respLen = min 64 body.length ∧ t.host.respCard = card.toNat ∧
      t.host.busy = false ∧ t.host.respRdy = true ∧ t.host.fwd = none ∧ t = { s with host := t.host, out := t.out } := by
  refine ⟨_, congrArg Host.Outcome.next (if_pos hb), ?_⟩
  obtain ⟨o, p, e⟩ := raiseVec_frame (s := modHost (fun h => { h with
        mbxrsp := takePad 64 (body.take 64), busy := false, respRdy := true, respLen := min 64 body.length, respCard := card.toNat, fwd := none }) s) 1
  rw [e]
  exact ⟨rfl, rfl, rfl, rfl, rfl, rfl, rfl⟩

/-- The frame of an answer or an abort message: the outputs, the counts since boot and the part `host` that was set before. -/
theorem onlyHost_respond {h : HostSt} (a : Access) (k : Nat) (o : Out) : OnlyHost s (respond a k o { s with host := h }) := by
  unfold respond
  split <;> rfl

theorem answers_setHost (h : HostSt) : answers { s with host := h } .mailbox = true ↔ RouteAnswers s .mailbox := answers_iff (s := s) .mailbox

theorem forwardTimeout_idle (h : s.host.fwd = none) : exec .forwardTimeout s = .next s := by
  show Host.Outcome.next (match s.host.fwd with | none => s | some _ => _) = _
  rw [h]

theorem forwardTimeout_ends (h : s.host.fwd ≠ none) : Completes .forwardTimeout s fun t =>
    t.host = { s.host with fwd := none } ∧ OnlyHost s t ∧
      (RouteAnswers s .mailbox → t.out = s.out ++ [.usdoAbort (mbxAccess s) 0 0 0x05040000]) ∧
      (¬ RouteAnswers s .mailbox → t.out = s.out) := by
  obtain ⟨c, hc⟩ := Option.ne_none_iff_exists'.1 h
  have ends : exec .forwardTimeout s = .next (refuse (mbxAccess s) 0 0 abTimeout { s with host := { s.host with fwd := none } }) := by
    show Host.Outcome.next (match s.host.fwd with | none => s | some _ => _) = _
    rw [hc]
    rfl
  refine ⟨_, ends, ?_, onlyHost_respond .., fun ha => ?_, fun ha => ?_⟩
  · unfold refuse respond
    split <;> rfl
  · exact refuse_answered (s := { s with host := { s.host with fwd := none } }) ((answers_setHost _).2 ha) ..
  · exact refuse_unanswered (s := { s with host := { s.host with fwd := none } }) (fun hs => ha ((answers_setHost _).1 hs)) ..

/-! ### The towpath lane (R332) -/

theorem towpathWrite {h : TpHdr} (hf : Fresh s h 1) (s0 : Source) (idx : BitVec 16) (sub : BitVec 8) (data : Bytes) :
    exec (.towpathUsdo h s0 (.write idx sub data)) s = exec (.entryWrite ⟨.towpath, s0⟩ idx sub data) (heard s h) :=
  congrArg Host.Outcome.next (hear_fresh hf _)

theorem towpathReadAll {h : TpHdr} (hf : Fresh s h 1) (s0 : Source) (idx : BitVec 16) (hp : pathServes s .towpath = true) {bs : Bytes}
    (hv : readValue s idx.toNat none = .ok bs) : Completes (.towpathUsdo h s0 (.readAll idx)) s fun t =>
      t.out = s.out ++ [.usdo ⟨.towpath, s0⟩ bs] ∧ t.mem = s.mem ∧ t.units = s.units := by
  have awake : s.keep.dev ≠ .boot := by
    intro hd
    simp [pathServes, hd] at hp
  have same : heard s h = withMbx s.host.busy s.host.respRdy s.host.overrun s.host.fwd (s.fab.seen ++ [(h.src.toNat, h.msgid.toNat)]) s := rfl
  refine ⟨_, congrArg Host.Outcome.next (hear_fresh hf _), ?_⟩
  refine answerAll_served (u := heard s h) ((pathServes_heard ..).trans hp) ?_ ?_
  · unfold idxServed
    rw [decide_eq_true (show (heard s h).keep.dev ≠ .boot from awake)]
    rfl
  · rw [same, readValue_withMbx, hv]

theorem passOn_silent (h : ¬ answers s .mailbox = true) (o : Out) : passOn s o = s := if_neg h

theorem towpathResponse {h : TpHdr} (hf : Fresh s h 1) {s0 : Source} (hr : s0.route = .mailbox) (hw : s.host.fwd = some h.src.toNat)
    (body : Bytes) : Completes (.towpathUsdo h s0 (.response body)) s fun t =>
      t = { heard s h with host := { s.host with fwd := none }, out := t.out } ∧
      (RouteAnswers s .mailbox → t.out = s.out ++ [.usdo (mbxAccess s) body]) ∧ (¬ RouteAnswers s .mailbox → t.out = s.out) := by
  have passes : exec (.towpathUsdo h s0 (.response body)) s =
      .next (passOn { heard s h with host := { s.host with fwd := none } } (.usdo (mbxAccess s) body)) :=
    congrArg Host.Outcome.next ((hear_fresh hf _).trans (if_pos ⟨hr, hw⟩))
  refine ⟨_, passes, ?_, fun ha => ?_, fun ha => ?_⟩
  · unfold passOn
    split <;> rfl
  · exact congrArg State.out (if_pos ((answers_iff (s := s) .mailbox).2 ha))
  · have silent : ¬ answers { heard s h with host := { s.host with fwd := none } } .mailbox = true :=
      fun hs => ha ((answers_iff (s := s) .mailbox).1 hs)
    rw [passOn_silent silent]
    rfl

/-! ### The points with awaiting parts (R45) -/

theorem leNat_leBytes (n : Nat) : ∀ x, leNat (leBytes n x) = x % 256 ^ n := by
  induction n with
  | zero => exact fun x => (Nat.mod_one x).symm
  | succ n ih =>
    intro x
    rw [leBytes, leNat, ih, BitVec.toNat_ofNat, show 256 ^ (n + 1) = 256 * 256 ^ n from Nat.pow_succ']
    exact Nat.mod_mul.symm

theorem awaitingBits_bit (s : State) :
    (bit (awaitingBits s) 0 = s.dict.awaiting.any fun p => decide (p.point = .idle)) ∧
    (bit (awaitingBits s) 1 = s.dict.awaiting.any fun p => decide (p.point = .step)) ∧
    (bit (awaitingBits s) 2 = s.dict.awaiting.any fun p => decide (p.point = .plan)) ∧
    bit (awaitingBits s) 8 = s.dict.discarded ∧ awaitingBits s < 2 ^ 32 := by
  have packed : ∀ a b c d : Bool, bit (pack [(1, b01 a), (1, b01 b), (1, b01 c), (5, 0), (1, b01 d)]) 0 = a ∧
      bit (pack [(1, b01 a), (1, b01 b), (1, b01 c), (5, 0), (1, b01 d)]) 1 = b ∧
      bit (pack [(1, b01 a), (1, b01 b), (1, b01 c), (5, 0), (1, b01 d)]) 2 = c ∧
      bit (pack [(1, b01 a), (1, b01 b), (1, b01 c), (5, 0), (1, b01 d)]) 8 = d ∧
      pack [(1, b01 a), (1, b01 b), (1, b01 c), (5, 0), (1, b01 d)] < 2 ^ 32 := by decide
  exact packed _ _ _ _

theorem awaitingPartsRead_answers {a : Access} (hp : pathServes s a.path = true) (hi : idxServed s a.path 0x2011 = true) :
    Completes (.awaitingPartsRead a) s fun t =>
      t.dict = { s.dict with discarded := false } ∧ OnlyDict s t ∧
      ∃ bs, t.out = s.out ++ [.usdo a bs] ∧ bs.length = 4 ∧
        (bit (leNat bs) 0 = s.dict.awaiting.any fun p => decide (p.point = .idle)) ∧
        (bit (leNat bs) 1 = s.dict.awaiting.any fun p => decide (p.point = .step)) ∧
        (bit (leNat bs) 2 = s.dict.awaiting.any fun p => decide (p.point = .plan)) ∧
        bit (leNat bs) 8 = s.dict.discarded := by
  obtain ⟨idle, step, plan, gone, small⟩ := awaitingBits_bit s
  obtain ⟨dict, sent, only⟩ := replied (s := s) hp (d := s.dict) rfl (leBytes 4 (awaitingBits s))
  have told : leNat (leBytes 4 (awaitingBits s)) = awaitingBits s := by rw [leNat_leBytes]; exact Nat.mod_eq_of_lt small
  have served : exec (.awaitingPartsRead a) s = .next (noteRead 0x2011 (some 5) (reply a (leBytes 4 (awaitingBits s)) s)) :=
    congrArg Host.Outcome.next (serveRead_served hp hi rfl _)
  refine ⟨_, served, ?_, ?_, leBytes 4 (awaitingBits s), sent, rfl, ?_⟩
  · exact congrArg (fun d : DictSt => { d with discarded := false }) dict
  · exact congrArg (fun t : State => { t with dict := { t.dict with discarded := false } }) only
  · rw [told]
    exact ⟨idle, step, plan, gone⟩

end Sys2Proof.Machine
end

section
/-! PROOF. RESET COMMUNICATION loads the CAN route settings and leaves the rest of the card (O55, R59). -/

namespace Sys2Proof.Machine

open Sys2Proof.Claims

variable {β : Type} {g : State → β} {s : State}

/-- Boot-up is sent last; sessions of the CAN route may end with it. -/
theorem bootUp_eq (old : List Nat) (s : State) : ∃ xs, bootUp old s =
    send (.heartbeat 0) { s with dict := { s.dict with sessions := xs } } := by
  unfold bootUp
  split
  exacts [⟨s.dict.sessions, rfl⟩, ⟨_, rfl⟩]

theorem bootUp_heartbeat (old : List Nat) (s : State) : (bootUp old s).out.getLast? = some (.heartbeat 0) := List.getLast?_concat

/-- The COB-ID of one TPDO follows the node-ID. -/
def followCob (old new : Nat) (s : State) (n : Nat) : State :=
  match Sparse.get none s.dict.vals (ekey (0x1800 + n) 1) with
  | none => s
  | some bs =>
    if leNat bs % 2048 = cobBase n + old then putVal (0x1800 + n) 1 (leBytes 4 (leNat bs - leNat bs % 2048 + cobBase n + new)) s else s

theorem followNode_def (old new : Nat) (s : State) : followNode old new s = (List.range 4).foldl (followCob old new) s := rfl

/-- A value in force other than the COB-IDs of the first TPDOs. -/
def NoCob (key : Nat) : Prop := ∀ n < 4, key ≠ ekey (0x1800 + n) 1

/-- The second card is the first with other COB-IDs in force. -/
def Follows (s t : State) : Prop :=
  ∃ vals, t = { s with dict := { s.dict with vals := vals } } ∧ ∀ key, NoCob key → Sparse.get none vals key = Sparse.get none s.dict.vals key

theorem Follows.refl (s : State) : Follows s s := ⟨s.dict.vals, rfl, fun _ _ => rfl⟩

theorem Follows.trans {u t : State} (h : Follows s t) (h' : Follows t u) : Follows s u := by
  obtain ⟨vals, rfl, same⟩ := h
  obtain ⟨vals', rfl, same'⟩ := h'
  exact ⟨vals', rfl, fun key hk => (same' key hk).trans (same key hk)⟩

theorem followCob_follows (old new : Nat) (s : State) {n : Nat} (hn : n < 4) : Follows s (followCob old new s n) := by
  unfold followCob
  split
  · exact .refl s
  · split
    · exact ⟨_, rfl, fun key hk => Sparse.get_set_ne _ _ _ (hk n hn)⟩
    · exact .refl s

theorem followNode_follows (old new : Nat) (s : State) : Follows s (followNode old new s) := by
  have fold : ∀ ns : List Nat, (∀ n ∈ ns, n < 4) → ∀ s : State, Follows s (ns.foldl (followCob old new) s) := by
    intro ns
    induction ns with
    | nil => exact fun _ s => .refl s
    | cons n ns ih =>
      exact fun hn s => (followCob_follows old new s (hn n List.mem_cons_self)).trans (ih (fun x hx => hn x (List.mem_cons_of_mem _ hx)) _)
  rw [followNode_def]
  exact fold _ (fun n hn => List.mem_range.1 hn) s

theorem defaultGroup_passes {k : Nat} (h : groupCheck s k = []) : defaultGroup k s = s := by
  unfold defaultGroup
  rw [h]
  rfl

theorem LoadBlind.defaultGroup (h : LoadBlind g) (k : Nat) (s : State) : g (defaultGroup k s) = g s := by
  unfold Machine.defaultGroup
  split
  · rfl
  · exact (h.raiseOpen ..).trans (h.load s _ _ _ s.fab.ports)

/-- The bit rates that fail their check go to their defaults, and no other value changes. -/
theorem defaultGroup_rates (s : State) {key : Nat} (h : ∀ k < 256, key ≠ ekey 0x2021 k) :
    Sparse.get none (defaultGroup 8 s).dict.vals key = Sparse.get none s.dict.vals key := by
  unfold defaultGroup
  split
  · rfl
  · rw [raiseOpen_dict]
    show Sparse.get none (Sparse.del (ekey 0x2021 2) (Sparse.del (ekey 0x2021 1) s.dict.vals)) key = _
    rw [Sparse.get_del, if_neg (h 2 (by omega)), Sparse.get_del, if_neg (h 1 (by omega))]

/-- A default follows the node-ID only where it is the COB-ID of one of the first TPDOs. -/
theorem valBytes_settled {t : State} {i k : Nat} (hs : t.strap = s.strap) (hi : i ∉ [0x1800, 0x1801, 0x1802, 0x1803])
    (hv : Sparse.get none t.dict.vals (ekey i k) = Sparse.get none s.dict.vals (ekey i k)) : valBytes t i k = valBytes s i k := by
  unfold valBytes
  rw [hv]
  split
  · rfl
  · split
    case h_2 => rfl
    case h_1 o ho =>
      obtain ⟨-, idx, -, -⟩ := findObj_mem ho
      have late : 0x1800 ≤ o.idx ∧ o.idx ≤ 0x1807 ∧ o.lo = 1 → ¬ o.idx < 0x1804 := by
        intro _ _
        simp only [List.mem_cons, List.not_mem_nil, or_false, not_or] at hi
        omega
      have num : dfltNum t o = dfltNum s o := by
        unfold dfltNum
        rw [hs]
        by_cases hc : 0x1800 ≤ o.idx ∧ o.idx ≤ 0x1807 ∧ o.lo = 1
        · simp only [if_neg (late hc)]
        · simp only [if_neg hc]
      unfold dfltBytes
      rw [num]

/-- The card with its CAN route settings loaded. -/
def canLoaded (s : State) : State := canEntries.foldl (fun s e => loadEntry e s) s

/-- What RESET COMMUNICATION leaves: the settings loaded and checked, COB-IDs that follow the node-ID, boot-up. -/
theorem resetComm_eq (s : State) : ∃ vals xs, resetComm s = send (.heartbeat 0)
      { defaultGroup 8 (canLoaded s) with dict := { (defaultGroup 8 (canLoaded s)).dict with vals := vals, sessions := xs } } ∧
    ∀ key, NoCob key → Sparse.get none vals key = Sparse.get none (defaultGroup 8 (canLoaded s)).dict.vals key := by
  obtain ⟨vals, follow, same⟩ := followNode_follows (nodeId s) (nodeId (canLoaded s)) (defaultGroup 8 (canLoaded s))
  obtain ⟨xs, boot⟩ := bootUp_eq (canSettings s) (followNode (nodeId s) (nodeId (canLoaded s)) (defaultGroup 8 (canLoaded s)))
  have made : resetComm s = bootUp (canSettings s) (followNode (nodeId s) (nodeId (canLoaded s)) (defaultGroup 8 (canLoaded s))) := rfl
  exact ⟨vals, xs, by rw [made, boot, follow], same⟩

/-- A value of no entry that is loaded stays. -/
theorem get_foldl_loadVal_ne (st : Sparse (Option Bytes)) {key : Nat} (es : List (Nat × Nat)) (h : ∀ e ∈ es, ekey e.1 e.2 ≠ key) :
    ∀ vals, Sparse.get none (es.foldl (loadVal st) vals) key = Sparse.get none vals key := by
  induction es with
  | nil => exact fun _ => rfl
  | cons e es ih =>
    intro vals
    rw [List.foldl_cons, ih fun x hx => h x (List.mem_cons_of_mem _ hx)]
    exact Sparse.get_set_ne _ _ _ (h e List.mem_cons_self).symm

theorem canEntry_noCob {e : Nat × Nat} (h : e ∈ canEntries) : NoCob (ekey e.1 e.2) := by
  have away : ∀ e ∈ canEntries, ∀ n < 4, ekey e.1 e.2 ≠ ekey (0x1800 + n) 1 := by decide
  exact away e h

/-- What RESET COMMUNICATION leaves of a card, whatever the card was doing. -/
theorem resetsComm_of (h : exec .resetCommunication s = .next (resetComm s)) : ResetsComm s := by
  obtain ⟨vals, xs, e, same⟩ := resetComm_eq s
  have blind : LoadBlind fun s => (s.dict.pset, s.dict.gen, s.dict.awaiting, s.mem, s.units, s.led, s.keep, s.strap) :=
    { raised := fun _ _ _ _ _ _ _ _ _ _ _ => rfl, load := fun _ _ _ _ _ => rfl }
  have kept := blind.defaultGroup 8 (canLoaded s)
  have loaded : canLoaded s = { s with dict := { s.dict with vals := canEntries.foldl (loadVal s.dict.stored) s.dict.vals } } := foldl_loadEntry _ s
  have same₀ := congrArg (fun s : State => (s.dict.pset, s.dict.gen, s.dict.awaiting, s.mem, s.units, s.led, s.keep, s.strap)) loaded
  have all := kept.trans same₀
  simp only [Prod.mk.injEq] at all
  obtain ⟨pset, gen, awaiting, mem, units, led, keep, strap⟩ := all
  refine ⟨_, h, fun hg x hx => ?_, fun i k hk hi => ?_, ?_⟩
  · rw [e]
    show Sparse.get none vals _ = _
    have passes : defaultGroup 8 (canLoaded s) = canLoaded s := defaultGroup_passes hg
    rw [same _ (canEntry_noCob hx), passes, loaded]
    exact get_foldl_loadVal _ _ canEntries _ (.inl ⟨x, hx, rfl⟩)
  · have away : ∀ j ∈ [0x2020, 0x2021, 0x1800, 0x1801, 0x1802, 0x1803], ∀ n < 256, ekey i k ≠ ekey j n :=
      fun j hj n hn he => hi (((ekey_inj hk hn).1 he).1 ▸ hj)
    have cob : NoCob (ekey i k) := by
      intro n hn
      interval_cases n <;> exact away _ (by decide) 1 (by omega)
    have can : ∀ x ∈ canEntries, ekey x.1 x.2 ≠ ekey i k := by
      simp only [canEntries, List.forall_mem_cons, List.not_mem_nil, false_implies, implies_true, and_true]
      exact ⟨(away 0x2020 (by decide) 1 (by omega)).symm, (away 0x2021 (by decide) 1 (by omega)).symm, (away 0x2021 (by decide) 2 (by omega)).symm⟩
    refine valBytes_settled ?_ (fun hm => hi (List.mem_cons_of_mem _ (List.mem_cons_of_mem _ hm))) ?_
    · rw [e]
      exact strap
    · rw [e]
      show Sparse.get none vals _ = _
      rw [same _ cob, defaultGroup_rates _ (away 0x2021 (by decide)), loaded]
      exact get_foldl_loadVal_ne _ canEntries can _
  · rw [e]
    exact ⟨List.getLast?_concat, pset, gen, awaiting, mem, units, led, keep⟩

end Sys2Proof.Machine
end

section
/-! SUPPORT. What applies, and what waits for the twin, changes the dictionary and the ports alone (R37, R45); the release of a plan (R217). -/

namespace Sys2Proof.Machine

open Sys2Proof.Claims

variable {s : State}

/-- The second card is the first with another dictionary, and other ports and counts of the fabric. -/
def Applies (s t : State) : Prop := ∃ d f, t = { s with dict := d, fab := f }

theorem Applies.refl (s : State) : Applies s s := ⟨s.dict, s.fab, rfl⟩

theorem Applies.trans {t u : State} (h : Applies s t) (h' : Applies t u) : Applies s u := by
  obtain ⟨d, f, rfl⟩ := h
  obtain ⟨d', f', rfl⟩ := h'
  exact ⟨d', f', rfl⟩

theorem Applies.foldl {α : Type} {f : State → α → State} (h : ∀ s a, Applies s (f s a)) (xs : List α) : ∀ s, Applies s (xs.foldl f s) := by
  induction xs with
  | nil => exact .refl
  | cons a xs ih => exact fun s => (h s a).trans (ih (f s a))

theorem applyEntry_applies (e : EntryVal) (s : State) : Applies s (applyEntry e s) := by
  have put : Applies s (putVal e.idx.toNat e.sub.toNat e.val s) := ⟨_, s.fab, rfl⟩
  refine put.trans ?_
  unfold applyEntry
  dsimp only
  split
  · obtain ⟨vals, follows, -⟩ := followNode_follows (nodeId s) (nodeId (putVal e.idx.toNat e.sub.toNat e.val s)) (putVal e.idx.toNat e.sub.toNat e.val s)
    exact ⟨_, _, follows⟩
  · split
    · exact ⟨(putVal e.idx.toNat e.sub.toNat e.val s).dict, _, rfl⟩
    · split
      · exact ⟨(putVal e.idx.toNat e.sub.toNat e.val s).dict, _, rfl⟩
      · exact .refl _

theorem settleGens_applies (gens : List (BitVec 32)) (s : State) : Applies s (settleGens gens s) := by
  refine Applies.foldl (fun s g => ?_) gens s
  split
  · exact .refl s
  · split
    · exact ⟨_, s.fab, rfl⟩
    · exact .refl s

theorem applyParts_applies (due : Part → Bool) (s : State) : Applies s (applyParts due s) := by
  have left : Applies s { s with dict := { s.dict with awaiting := s.dict.awaiting.filter fun a => !due a } } := ⟨_, s.fab, rfl⟩
  exact (left.trans (Applies.foldl (fun s (a : Part) => Applies.foldl (fun s e => applyEntry_applies e s) a.entries s) _ _)).trans (settleGens_applies _ _)

theorem applyIdleParts_applies (s : State) : Applies s (applyIdleParts s) := by
  unfold applyIdleParts
  split
  exacts [applyParts_applies _ s, .refl s]

/-- A view of the card that does not see its dictionary, its ports, its twin, nor what is sent or raised. -/
structure PartBlind {β : Type} (g : State → β) : Prop extends EventBlind g where
  parts : ∀ (s : State) o d st f, g { s with out := o, dict := d, stat := st, fab := f } = g s
  twin : ∀ s t, g { s with twin := t } = g s

variable {β : Type} {g : State → β}

theorem PartBlind.applies (h : PartBlind g) {t : State} (ha : Applies s t) : g t = g s := by
  obtain ⟨d, f, rfl⟩ := ha
  exact h.parts s s.out d s.stat f

theorem PartBlind.applyCan (h : PartBlind g) (s : State) : g (applyCan s) = g s := by
  unfold Machine.applyCan
  dsimp only
  split
  · rfl
  · have ended : g (endSessions .can (applyParts (fun a => decide (a.point = .now)) s)) = g s :=
      (h.parts (applyParts (fun a => decide (a.point = .now)) s) _ _ _ (applyParts (fun a => decide (a.point = .now)) s).fab).trans
        (h.applies (applyParts_applies _ s))
    split
    · exact (h.parts (endSessions .can (applyParts (fun a => decide (a.point = .now)) s)) _ _ _ _).trans ended
    · exact ended

theorem PartBlind.reply (h : PartBlind g) (a : Access) (body : Bytes) (s : State) : g (reply a body s) = g s := by
  obtain ⟨o, b, e⟩ : ∃ o b, Machine.reply a body s = _ := respond_frame s a 1 _
  rw [e]
  exact h.parts s _ s.dict _ s.fab

theorem PartBlind.setPair (h : PartBlind g) (p : PairState) (cause : Nat) (s : State) : g (setPair p cause s) = g s := by
  have waits : g (answerWaits s) = g s := by
    unfold answerWaits
    rw [h.applyCan, foldl_same _ g fun s (x : BitVec 32 × Access) => h.reply x.2 [] s]
    exact h.parts s s.out _ s.stat s.fab
  have before : g (if p = .inStep then s else answerWaits s) = g s := by
    split
    exacts [rfl, waits]
  unfold Machine.setPair
  dsimp only
  generalize (if p = .inStep then s else answerWaits s) = t at before ⊢
  rw [← before]
  split
  · exact h.twin t _
  · rw [h.raiseOpen]
    exact h.twin t _

/-! ### The end of a harvest (R366) -/

/-- A view of the card that does not see a harvest, nor what it holds. -/
structure HarvBlind (g : State → β) : Prop extends EventBlind g where
  ends : ∀ (s : State) h sn cow w r, g { s with
    harv := h, mem := { s.mem with snaps := sn, cow := cow }, host := { s.host with waitWr := w }, fab := { s.fab with remotes := r } } = g s

theorem HarvBlind.harvest (h : HarvBlind g) (s : State) (x : HarvestSt) : g { s with harv := x } = g s :=
  h.ends s x s.mem.snaps s.mem.cow s.host.waitWr s.fab.remotes

theorem HarvBlind.harvEnd (h : HarvBlind g) (s : State) : g (harvEnd s) = g s := by
  unfold Machine.harvEnd
  cases s.harv.snap with
  | none => exact h.ends s _ s.mem.snaps s.mem.cow _ _
  | some k => exact h.ends s _ _ _ _ _

theorem HarvBlind.setHarv (h : HarvBlind g) (st : Nat) (s : State) : g (setHarv st s) = g s := by
  unfold Machine.setHarv
  dsimp only
  split
  · exact h.harvest s _
  · exact (h.raiseVec ..).trans (h.harvest s _)

theorem HarvBlind.harvStop (h : HarvBlind g) (s : State) : g (harvStop s) = g s := by
  unfold Machine.harvStop harvFail
  split
  · split
    · unfold sayHarvest
      rw [h.raiseOpen, h.setHarv, h.harvEnd]
      exact h.harvest s _
    · rfl
  · rfl

/-! ### The release (R217) -/

/-- The area of the active plan holds an image that may be erased. -/
def areaFreed (s : State) : State :=
  match s.plan.active with
  | none => s
  | some k => setArea k 1 s

/-- The parts that a release discards: those that await a step of a job. -/
def jobParts (s : State) : List Part := s.dict.awaiting.filter fun a => decide (a.point = .step) && a.target.isSome

/-- No plan is active, and the parts that waited for a step of its job are gone. -/
def planCleared (s : State) : State :=
  { areaFreed s with
    plan := { (areaFreed s).plan with active := none }
    keep := { (areaFreed s).keep with dev := .idle }
    led := { (areaFreed s).led with st := .nojob }
    dict := { (areaFreed s).dict with
      awaiting := (areaFreed s).dict.awaiting.filter fun a => !(decide (a.point = .step) && a.target.isSome),
      discarded := (areaFreed s).dict.discarded || !(jobParts s).isEmpty } }

theorem releasePlan_eq (s : State) : releasePlan s = applyIdleParts (harvStop (setPair .none 0 (unitsOff
    ((jobParts s).foldl (fun s a => raiseOpen 0x06 noSource (pack [(32, a.gen.toNat)]) s) (planCleared s))))) := rfl

/-- What a release is said to leave: all but what is sent and raised, the twin, a harvest, and commits that waited for the twin. -/
def releaseView (s : State) : Strap × DictSt × PlanCtl × KeeperSt × LedgerSt × UnitsSt × Sparse GateSt × List Host.Cell :=
  (s.strap, { s.dict with packWait := [] }, s.plan, s.keep, s.led, s.units, s.gates, s.mem.cells)

theorem releasePlan_view (ha : s.dict.awaiting = []) : releaseView (releasePlan s) = releaseView (unitsOff (planCleared s)) := by
  have pair : PairBlind releaseView := { raised := fun _ _ _ _ _ _ _ _ _ _ _ => rfl, twin := fun _ _ => rfl, waits := fun _ _ _ _ => rfl }
  have harv : HarvBlind releaseView := { raised := fun _ _ _ _ _ _ _ _ _ _ _ => rfl, ends := fun _ _ _ _ _ _ => rfl }
  have none : jobParts s = [] := by rw [jobParts, ha]; rfl
  have clear : (planCleared s).dict.awaiting = [] := by
    have freed : (areaFreed s).dict = s.dict := by
      unfold areaFreed
      split <;> rfl
    show (areaFreed s).dict.awaiting.filter _ = []
    rw [freed, ha]
    rfl
  have ended : releaseView (harvStop (setPair .none 0 (unitsOff (planCleared s)))) = releaseView (unitsOff (planCleared s)) :=
    (harv.harvStop _).trans (pair.setPair (s := unitsOff (planCleared s)) (noNow_of_idle clear) .none 0)
  have awaits : (harvStop (setPair .none 0 (unitsOff (planCleared s)))).dict.awaiting = [] := by
    simp only [releaseView, Prod.mk.injEq] at ended
    obtain ⟨-, dict, -⟩ := ended
    exact (congrArg DictSt.awaiting dict).trans clear
  rw [releasePlan_eq, none]
  exact (congrArg releaseView (applyIdleParts_idle awaits)).trans ended

/-- Whatever awaits, a release leaves no plan active and the units off. -/
theorem releasePlan_off (s : State) : (releasePlan s).plan.active = none ∧ (releasePlan s).units.phys = [] := by
  have parts : PartBlind fun s => (s.plan.active, s.units.phys) :=
    { raised := fun _ _ _ _ _ _ _ _ _ _ _ => rfl, parts := fun _ _ _ _ _ => rfl, twin := fun _ _ => rfl }
  have harv : HarvBlind fun s => (s.plan.active, s.units.phys) :=
    { raised := fun _ _ _ _ _ _ _ _ _ _ _ => rfl, ends := fun _ _ _ _ _ _ => rfl }
  obtain ⟨u, hu⟩ : ∃ u, (jobParts s).foldl (fun s a => raiseOpen 0x06 noSource (pack [(32, a.gen.toNat)]) s) (planCleared s) = u := ⟨_, rfl⟩
  have plan : u.plan.active = none := by
    rw [← hu]
    exact foldl_same _ (fun s : State => s.plan.active) (fun s (a : Part) => congrArg PlanCtl.active (raiseOpen_plan ..)) (jobParts s) (planCleared s)
  have ended := (parts.applies (applyIdleParts_applies _)).trans ((harv.harvStop _).trans (parts.setPair .none 0 (unitsOff u)))
  rw [releasePlan_eq, hu]
  simp only [Prod.mk.injEq] at ended
  exact ⟨ended.1.trans plan, ended.2⟩

end Sys2Proof.Machine
end

section
/-! PROOF. RESET NODE loads the stored values (O55, R59). -/

namespace Sys2Proof.Machine

open Sys2Proof.Claims

variable {β : Type} {g : State → β} {s : State}

/-- What RESET NODE leaves on an idle card: the stored values, no pending set and nothing that awaits, boot-up. -/
theorem resetIdle_eq (s : State) : ∃ gone xs, resetIdle s = send (.heartbeat 0) { loadStored storedEntries s with
    dict := { (loadStored storedEntries s).dict with
      pset := [], owner := none, gen := genAfter s.dict.gen, awaiting := [], discarded := gone, sessions := xs } } := by
  have gen : (loadStored storedEntries s).dict.gen = s.dict.gen :=
    LoadBlind.loadStored (g := fun s => s.dict.gen) { raised := fun _ _ _ _ _ _ _ _ _ _ _ => rfl, load := fun _ _ _ _ _ => rfl } _ s
  unfold resetIdle
  dsimp only
  rw [clearPending_eq]
  dsimp only
  rw [gen]
  generalize loadStored storedEntries s = u
  obtain ⟨xs, e⟩ := bootUp_eq (canSettings s) { u with dict := { u.dict with
    pset := [], owner := none, gen := genAfter s.dict.gen, awaiting := [],
    discarded := u.dict.discarded || u.dict.awaiting.any fun p => p.target.isSome } }
  exact ⟨_, xs, e⟩

theorem resetIdle_view (h : LoadBlind g) (hd : ∀ (s : State) o d, g { s with out := o, dict := d } = g s) (s : State) : g (resetIdle s) = g s := by
  obtain ⟨gone, xs, e⟩ := resetIdle_eq s
  have loaded := h.loadStored storedEntries s
  rw [e]
  generalize loadStored storedEntries s = u at loaded ⊢
  exact (hd u _ _).trans loaded

/-- What RESET NODE leaves of the dictionary, and the boot-up that it sends. -/
theorem resetIdle_dict (s : State) : (resetIdle s).dict.pset = [] ∧ (resetIdle s).dict.owner = none ∧ (resetIdle s).dict.awaiting = [] ∧
    (resetIdle s).dict.gen = genAfter s.dict.gen ∧ (resetIdle s).out.getLast? = some (.heartbeat 0) := by
  obtain ⟨gone, xs, e⟩ := resetIdle_eq s
  rw [e]
  exact ⟨rfl, rfl, rfl, rfl, List.getLast?_concat⟩

theorem resetIdle_loads (s : State) : LoadsStored s (resetIdle s) := by
  obtain ⟨gone, xs, e⟩ := resetIdle_eq s
  unfold LoadsStored
  rw [e]
  generalize storedEntries = es
  intro hg x hx
  have vals := loadStored_vals hg x hx
  generalize loadStored es s = u at vals ⊢
  exact vals

/-- The checks of the groups without an active plan see the settings in force alone. -/
theorem groupCheck_released {t : State} (hs : t.strap = s.strap) (hv : t.dict.vals = s.dict.vals) (hp : t.plan.active = none) {k : Nat}
    (h : groupCheck s k = []) : groupCheck t k = [] := by
  have nums : num t = num s := funext₂ (num_of_vals hs hv)
  have node : nodeId t = nodeId s := by rw [nodeId, hv]; rfl
  have vals : valBytes t = valBytes s := funext₂ fun i k => valBytes_of_get hs node (by rw [hv])
  have coord : coordOf t = coordOf s := by
    funext a d
    simp only [coordOf, nums]
  have ring : ringDistance t = ringDistance s := by
    funext a b
    simp only [ringDistance, nums, coord]
  have far : ∀ xs, farApart t xs = farApart s xs := by
    intro xs
    induction xs with
    | nil => rfl
    | cons x xs ih => simp only [farApart, ring, ih]
  have failed : failedCards t = failedCards s := by rw [failedCards, vals]; rfl
  by_cases hk : k = 15
  · subst hk
    show firstFail [(t.plan.active.isNone || gatewayOk t, [(0x2A10, 4), (0x2A10, 3)])] = []
    rw [hp]
    rfl
  · rw [← h]
    unfold groupCheck
    split
    case h_8 => exact absurd rfl hk
    case h_7 =>
      simp only [checkMap, torusCards, fourPort, nums, vals, far, failed]
      rfl
    all_goals simp only [checkTopology, checkTpdo, nums, hs]

/-- The values that are loaded once the plan is released are those that would be loaded before. -/
theorem loadsStored_released {r t : State} (hs : r.strap = s.strap) (hv : r.dict.vals = s.dict.vals) (hd : r.dict.stored = s.dict.stored)
    (hp : r.plan.active = none) (h : LoadsStored r t) : LoadsStored s t := by
  unfold LoadsStored at h ⊢
  generalize storedEntries = es at h ⊢
  intro hg e he
  rw [← hd]
  refine h (fun k hk => ?_) e he
  refine groupCheck_released (s := es.foldl (fun s e => loadEntry e s) s) ?_ ?_ ?_ (hg k hk)
  · rw [foldl_loadEntry, foldl_loadEntry]
    exact hs
  · rw [foldl_loadEntry, foldl_loadEntry]
    show es.foldl (loadVal r.dict.stored) r.dict.vals = es.foldl (loadVal s.dict.stored) s.dict.vals
    rw [hv, hd]
  · rw [foldl_loadEntry]
    exact hp

end Sys2Proof.Machine
end

section
/-! PROOF. The NMT commands in each device state (O55, R59, R60, R360, R423). -/

namespace Sys2Proof.Machine

open Sys2Proof.Claims

variable {β : Type} {g : State → β} {s : State} {c : Nat} {f : State → State}

/-! ### Where a command is taken -/

theorem nmt_off (h : keeperOn s = false) : nmt c f s = s := if_pos (by rw [h]; rfl)

theorem nmt_on (h : keeperOn s = true) : nmt c f s = if s.keep.dev = .boot then nmtBoot c s else f (if c = 0x82 then s else wake 3 s) :=
  if_neg (by rw [h]; exact Bool.false_ne_true)

theorem nmt_boot (h : keeperOn s = true) (hd : s.keep.dev = .boot) : nmt c f s = nmtBoot c s := (nmt_on h).trans (if_pos hd)

/-- RESET COMMUNICATION does not wake a sleeping card. -/
theorem nmt_resetComm (h : keeperOn s = true) (hd : s.keep.dev ≠ .boot) : nmt 0x82 f s = f s := (nmt_on h).trans (if_neg hd)

theorem nmt_wakes (h : keeperOn s = true) (hd : s.keep.dev ≠ .boot) (hc : c ≠ 0x82) : nmt c f s = f (wake 3 s) := by
  rw [nmt_on h, if_neg hd, if_neg hc]

theorem nmt_awake (h : keeperOn s = true) (hd : s.keep.dev ≠ .boot) (ha : s.keep.dev ≠ .asleep) (hc : c ≠ 0x82) : nmt c f s = f s := by
  rw [nmt_wakes h hd hc, wake_awake ha]

/-- What an ignored command leaves: its event, and what an event changes. -/
theorem nmtIgnored_of {i : Instr} {byte : Nat} (h : exec i s = .next (nmtIgnored byte s)) : NmtIgnored i byte s :=
  ⟨_, h, raised_raiseOpen .., raiseOpen_dict .., onlyDictEvent_raiseOpen (d := s.dict) ..⟩

/-! ### On a card that is awake and no mirror -/

/-- START as each device state takes it. -/
def startNode (s : State) : State :=
  match s.keep.dev with
  | .planLoaded => if mayStart s then startJob s else nmtIgnored 0x01 s
  | .halted => actResume s.fab.haltSer s.fab.haltOrg s
  | .running => s
  | _ => nmtIgnored 0x01 s

/-- STOP as each device state takes it. -/
def stopNode (s : State) : State :=
  match s.keep.dev with
  | .running => raiseHalt s
  | .halted => s
  | _ => nmtIgnored 0x02 s

/-- ENTER PRE-OPERATIONAL as each device state takes it. -/
def preOperational (s : State) : State :=
  match s.keep.dev with
  | .running => { s with led := { s.led with stopPend := true } }
  | .halted => reportAbort 8 0xFFFF s
  | _ => s

/-- RESET NODE as each device state takes it. -/
def resetNode (s : State) : State :=
  match s.keep.dev with
  | .idle => resetIdle s
  | .planLoaded => resetIdle (releasePlan s)
  | _ => nmtIgnored 0x81 s

/-- RESET NODE on a card that serves its partner as a mirror (R360). -/
def resetMirror (s : State) : State :=
  resetIdle { releasePlan s with
    keep := { (releasePlan s).keep with mirror := false, dev := .idle }
    twin := { ({} : TwinSt) with sideband := (releasePlan s).twin.sideband } }

section Awake

variable (h : keeperOn s = true) (hd : s.keep.dev ≠ .boot) (ha : s.keep.dev ≠ .asleep)
include h hd ha

theorem exec_startRemoteNode : exec .startRemoteNode s = .next (if s.keep.mirror then nmtIgnored 0x01 s else startNode s) :=
  congrArg Host.Outcome.next (nmt_awake h hd ha (by decide))

theorem exec_stopRemoteNode : exec .stopRemoteNode s = .next (if s.keep.mirror then nmtIgnored 0x02 s else stopNode s) :=
  congrArg Host.Outcome.next (nmt_awake h hd ha (by decide))

theorem exec_enterPreOperational : exec .enterPreOperational s = .next (if s.keep.mirror then nmtIgnored 0x80 s else preOperational s) :=
  congrArg Host.Outcome.next (nmt_awake h hd ha (by decide))

theorem exec_resetNode : exec .resetNode s = .next (if s.keep.mirror then resetMirror s else resetNode s) :=
  congrArg Host.Outcome.next (nmt_awake h hd ha (by decide))

end Awake

theorem exec_resetCommunication (h : keeperOn s = true) (hd : s.keep.dev ≠ .boot) : exec .resetCommunication s = .next (resetComm s) :=
  congrArg Host.Outcome.next (nmt_resetComm h hd)

end Sys2Proof.Machine
end

section
/-! PROOF. What the NMT commands do in each device state, and O55. -/

namespace Sys2Proof.Machine

open Sys2Proof.Claims

variable {s : State}

section Taken

variable (h : NmtTaken s) (ha : s.keep.dev ≠ .asleep)
include h ha

theorem start_taken : exec .startRemoteNode s = .next (startNode s) := by
  obtain ⟨on, up, own⟩ := h
  rw [exec_startRemoteNode on up ha, own, if_neg Bool.false_ne_true]

theorem stop_taken : exec .stopRemoteNode s = .next (stopNode s) := by
  obtain ⟨on, up, own⟩ := h
  rw [exec_stopRemoteNode on up ha, own, if_neg Bool.false_ne_true]

theorem preOperational_taken : exec .enterPreOperational s = .next (preOperational s) := by
  obtain ⟨on, up, own⟩ := h
  rw [exec_enterPreOperational on up ha, own, if_neg Bool.false_ne_true]

theorem reset_taken : exec .resetNode s = .next (resetNode s) := by
  obtain ⟨on, up, own⟩ := h
  rw [exec_resetNode on up ha, own, if_neg Bool.false_ne_true]

end Taken

/-! ### Idle -/

theorem resetNode_idle (hd : s.keep.dev = .idle) : resetNode s = resetIdle s := by rw [resetNode, hd]

/-- RESET NODE on an idle card. -/
theorem idle_reset (h : NmtTaken s) (hd : s.keep.dev = .idle) : Completes .resetNode s fun t => LoadsStored s t ∧
    t.dict.pset = [] ∧ t.dict.owner = none ∧ t.dict.awaiting = [] ∧ t.dict.gen = genAfter s.dict.gen ∧
    t.out.getLast? = some (.heartbeat 0) ∧ t.keep = s.keep ∧ t.mem = s.mem ∧ t.units = s.units := by
  obtain ⟨pset, owner, awaiting, gen, sent⟩ := resetIdle_dict s
  have kept := resetIdle_view (g := fun s => (s.keep, s.mem, s.units))
    { raised := fun _ _ _ _ _ _ _ _ _ _ _ => rfl, load := fun _ _ _ _ _ => rfl } (fun _ _ _ => rfl) s
  simp only [Prod.mk.injEq] at kept
  refine ⟨_, (reset_taken h (by simp [hd])).trans (congrArg _ (resetNode_idle hd)), resetIdle_loads s, pset, owner, awaiting, gen, sent, kept⟩

/-! ### Plan-loaded -/

/-- RESET NODE releases the plan of a card on which nothing awaits. -/
theorem planLoaded_reset {k : Nat} (h : NmtTaken s) (hd : s.keep.dev = .planLoaded) (hk : s.plan.active = some k)
    (ha : s.dict.awaiting = []) : Completes .resetNode s fun t =>
      LoadsStored s t ∧ t.plan.active = none ∧ areaState t k = 1 ∧ t.keep.dev = .idle ∧ t.led.st = .nojob ∧
      t.led.committed = s.led.committed ∧ t.units.phys = [] ∧ t.gates = [] ∧ t.dict.pset = [] ∧ t.dict.owner = none ∧
      t.dict.awaiting = [] ∧ t.dict.gen = genAfter s.dict.gen ∧ t.out.getLast? = some (.heartbeat 0) ∧ t.mem.cells = s.mem.cells := by
  have freed : areaFreed s = setArea k 1 s := by rw [areaFreed, hk]
  have area : areaState (planCleared s) k = 1 := by
    unfold areaState planCleared
    rw [freed, setArea]
    split
    · rfl
    · rfl
  have view := releasePlan_view ha
  obtain ⟨r, hr⟩ : ∃ r, releasePlan s = r := ⟨_, rfl⟩
  rw [hr] at view
  simp only [releaseView, Prod.mk.injEq] at view
  obtain ⟨strap, dict, plan, keep, led, units, gates, cells⟩ := view
  have same : (planCleared s).strap = s.strap ∧ (planCleared s).dict.vals = s.dict.vals ∧ (planCleared s).dict.stored = s.dict.stored ∧
      (planCleared s).dict.gen = s.dict.gen ∧ (planCleared s).led.committed = s.led.committed ∧ (planCleared s).mem.cells = s.mem.cells := by
    unfold planCleared
    rw [freed]
    exact ⟨rfl, rfl, rfl, rfl, rfl, rfl⟩
  obtain ⟨strap', vals', stored', gen', committed', cells'⟩ := same
  have vals : r.dict.vals = s.dict.vals := (congrArg DictSt.vals dict :).trans vals'
  have stored : r.dict.stored = s.dict.stored := (congrArg DictSt.stored dict :).trans stored'
  have gen : r.dict.gen = s.dict.gen := (congrArg DictSt.gen dict :).trans gen'
  have none : r.plan.active = none := (congrArg PlanCtl.active plan :)
  obtain ⟨pset, owner, awaiting, gen2, sent⟩ := resetIdle_dict r
  have kept := resetIdle_view (g := fun s => (s.plan, s.keep, s.led, s.units, s.gates, s.mem))
    { raised := fun _ _ _ _ _ _ _ _ _ _ _ => rfl, load := fun _ _ _ _ _ => rfl } (fun _ _ _ => rfl) r
  simp only [Prod.mk.injEq] at kept
  obtain ⟨plan2, keep2, led2, units2, gates2, mem2⟩ := kept
  have resets : resetNode s = resetIdle r := by rw [resetNode, hd, ← hr]
  refine ⟨_, (reset_taken h (by simp [hd])).trans (congrArg _ resets),
    loadsStored_released (strap.trans strap') vals stored none (resetIdle_loads r), ?_, ?_, ?_, ?_, ?_, ?_, ?_, pset, owner, awaiting, ?_, sent, ?_⟩
  · rw [plan2, none]
  · rw [areaState, plan2, plan]
    exact area
  · rw [keep2, keep]
    rfl
  · rw [led2, led]
    rfl
  · rw [led2, led]
    exact committed'
  · rw [units2, units]
    rfl
  · rw [gates2, gates]
    rfl
  · rw [gen2, gen]
  · rw [mem2, cells]
    exact cells'

/-- START opens the first step of the job. -/
theorem planLoaded_start (h : NmtTaken s) (hd : s.keep.dev = .planLoaded) (hm : mayStart s = true) (hq : Quiet s) :
    Completes .startRemoteNode s fun t =>
      t.keep.dev = .running ∧ t.led.st = .opened ∧ t.led.running = s.led.committed + 1 ∧ t.led.committed = s.led.committed ∧
      t.led.waiting = true ∧ t.mem = s.mem ∧ t.units = s.units := by
  have starts : startNode s = startJob s := by
    unfold startNode
    rw [hd]
    exact if_pos hm
  have view := startView_startJob hq
  simp only [startView, jobOpened, Prod.mk.injEq, LedgerSt.mk.injEq] at view
  refine ⟨_, (start_taken h (by simp [hd])).trans (congrArg _ starts), ?_⟩
  simp only [view, and_self]

/-! ### Halted and running -/

theorem laterHalt_irrefl (x : Nat × Nat) : laterHalt x x = false := by simp [laterHalt]

/-- START resumes a halted card, whose gate messages then act: here none was recorded. -/
theorem halted_start (h : NmtTaken s) (hd : s.keep.dev = .halted) (hr : s.fab.recorded = []) :
    Completes .startRemoteNode s fun t => t.keep.dev = .running ∧
      t.out = s.out ++ [toNeighbours s (.resume s.fab.haltSer s.fab.haltOrg)] ∧ t.mem = s.mem ∧ t.units = s.units ∧
      t.led.st = s.led.st ∧ t.led.running = s.led.running ∧ t.led.layers = s.led.layers := by
  obtain ⟨u, hu⟩ : ∃ u : State, { s with fab := { s.fab with
      resSer := s.fab.haltSer, resOrg := s.fab.haltOrg, seenSer := max s.fab.seenSer s.fab.haltSer } } = u := ⟨_, rfl⟩
  have net : SameNet s u := by subst hu; exact ⟨rfl, rfl, rfl, rfl, rfl⟩
  have told : toNeighbours u (.resume s.fab.haltSer s.fab.haltOrg) = toNeighbours s (.resume s.fab.haltSer s.fab.haltOrg) :=
    net.toNeighbours (by subst hu; rfl) _
  obtain ⟨r, e⟩ := flood_frame u (.resume s.fab.haltSer s.fab.haltOrg)
  have may : mayResume s.fab.haltSer s.fab.haltOrg s = true := by
    obtain ⟨-, -, own⟩ := h
    simp [mayResume, hd, own, laterHalt_irrefl]
  have recorded : u.fab.recorded = [] := by subst hu; exact hr
  have resumes : startNode s = takeRecorded { flood (.resume s.fab.haltSer s.fab.haltOrg) u with
      keep := { (flood (.resume s.fab.haltSer s.fab.haltOrg) u).keep with dev := .running }
      led := { (flood (.resume s.fab.haltSer s.fab.haltOrg) u).led with
        engStop := if (flood (.resume s.fab.haltSer s.fab.haltOrg) u).led.st = .aborting
          then (flood (.resume s.fab.haltSer s.fab.haltOrg) u).led.engStop else [] } } := by
    rw [startNode, hd]
    dsimp only
    rw [actResume, may, hu]
    rfl
  refine ⟨_, (start_taken h (by simp [hd])).trans (congrArg _ resumes), ?_⟩
  unfold takeRecorded
  rw [e]
  dsimp only
  rw [recorded, told]
  subst hu
  exact ⟨rfl, rfl, rfl, rfl, rfl, rfl, rfl⟩

/-- A halt that the card raises is noted among those it has acted on, and goes to its neighbours. -/
theorem raiseHalt_eq (s : State) : ∃ u, SameNet s u ∧ (∃ x y z w, u = { s with fab := { s.fab with haltSer := x, haltOrg := y, acted := z, seenSer := w } }) ∧
    raiseHalt s = if (flood (.halt (s.fab.seenSer + 1) (cardId s)) u).keep.dev = .running then
      countBoot 0x2820 0xB 1 { flood (.halt (s.fab.seenSer + 1) (cardId s)) u with
        keep := { (flood (.halt (s.fab.seenSer + 1) (cardId s)) u).keep with dev := .halted } }
    else flood (.halt (s.fab.seenSer + 1) (cardId s)) u := by
  refine ⟨_, ?_, ⟨_, _, _, _, rfl⟩, rfl⟩
  exact ⟨rfl, rfl, rfl, rfl, rfl⟩

/-- STOP halts a running card, which tells its neighbours. -/
theorem running_stop (h : NmtTaken s) (hd : s.keep.dev = .running) : Completes .stopRemoteNode s fun t => t.keep.dev = .halted ∧
    t.out = s.out ++ [toNeighbours s (.halt (s.fab.seenSer + 1) (cardId s))] ∧ t.mem = s.mem ∧ t.units = s.units ∧ t.led = s.led := by
  obtain ⟨u, net, ⟨x, y, z, w, kept⟩, e⟩ := raiseHalt_eq s
  have told : toNeighbours u (.halt (s.fab.seenSer + 1) (cardId s)) = toNeighbours s (.halt (s.fab.seenSer + 1) (cardId s)) :=
    net.toNeighbours (by subst kept; rfl) _
  obtain ⟨r, sent⟩ := flood_frame u (.halt (s.fab.seenSer + 1) (cardId s))
  have stops : stopNode s = raiseHalt s := by rw [stopNode, hd]
  have halts : raiseHalt s = countBoot 0x2820 0xB 1 { flood (.halt (s.fab.seenSer + 1) (cardId s)) u with
      keep := { (flood (.halt (s.fab.seenSer + 1) (cardId s)) u).keep with dev := .halted } } := by
    have up : (flood (.halt (s.fab.seenSer + 1) (cardId s)) u).keep.dev = .running := by
      rw [sent, kept]
      exact hd
    rw [e, if_pos up]
  refine ⟨_, (stop_taken h (by simp [hd])).trans (congrArg _ (stops.trans halts)), ?_⟩
  rw [sent, told]
  subst kept
  exact ⟨rfl, rfl, rfl, rfl, rfl⟩

/-- ENTER PRE-OPERATIONAL on a halted card asks the coordinator for the end of the open step. -/
theorem halted_preOperational (h : NmtTaken s) (hd : s.keep.dev = .halted) (hst : s.led.st = .opened ∨ s.led.st = .updating ∨ s.led.st = .ready) :
    Completes .enterPreOperational s fun t => Told s t (coordinator s)
      (.abortRep s.led.running (attempt s) 8 ((myLogical s).getD 0xFFFF) 0xFFFF false) := by
  have asks : preOperational s = reportAbort 8 0xFFFF s := by rw [preOperational, hd]
  exact ⟨_, (preOperational_taken h (by simp [hd])).trans (congrArg _ asks), reportAbort_sent s 8 0xFFFF hst⟩

/-! ### All device states of a card that takes the commands -/

theorem nmt_idle (h : NmtTaken s) (hd : s.keep.dev = .idle) :
    NmtIgnored .startRemoteNode 1 s ∧ NmtIgnored .stopRemoteNode 2 s ∧ exec .enterPreOperational s = .next s := by
  have awake : s.keep.dev ≠ .asleep := by simp [hd]
  refine ⟨nmtIgnored_of ((start_taken h awake).trans ?_), nmtIgnored_of ((stop_taken h awake).trans ?_), (preOperational_taken h awake).trans ?_⟩
  · rw [startNode, hd]
  · rw [stopNode, hd]
  · rw [preOperational, hd]

theorem nmt_planLoaded (h : NmtTaken s) (hd : s.keep.dev = .planLoaded) : NmtIgnored .stopRemoteNode 2 s ∧
    exec .enterPreOperational s = .next s ∧ (mayStart s = false → NmtIgnored .startRemoteNode 1 s) := by
  have awake : s.keep.dev ≠ .asleep := by simp [hd]
  refine ⟨nmtIgnored_of ((stop_taken h awake).trans ?_), (preOperational_taken h awake).trans ?_,
    fun hm => nmtIgnored_of ((start_taken h awake).trans ?_)⟩
  · rw [stopNode, hd]
  · rw [preOperational, hd]
  · unfold startNode
    rw [hd]
    exact congrArg _ (if_neg (Bool.eq_false_iff.1 hm))

theorem nmt_halted (h : NmtTaken s) (hd : s.keep.dev = .halted) :
    exec .stopRemoteNode s = .next s ∧ NmtIgnored .resetNode 0x81 s := by
  have awake : s.keep.dev ≠ .asleep := by simp [hd]
  refine ⟨(stop_taken h awake).trans ?_, nmtIgnored_of ((reset_taken h awake).trans ?_)⟩
  · rw [stopNode, hd]
  · rw [resetNode, hd]

theorem nmt_running (h : NmtTaken s) (hd : s.keep.dev = .running) : exec .startRemoteNode s = .next s ∧
    exec .enterPreOperational s = .next { s with led := { s.led with stopPend := true } } ∧ NmtIgnored .resetNode 0x81 s := by
  have awake : s.keep.dev ≠ .asleep := by simp [hd]
  refine ⟨(start_taken h awake).trans ?_, (preOperational_taken h awake).trans ?_, nmtIgnored_of ((reset_taken h awake).trans ?_)⟩
  · rw [startNode, hd]
  · rw [preOperational, hd]
  · rw [resetNode, hd]

/-! ### MIRROR SERVICE (R360) -/

/-- The card out of MIRROR SERVICE, idle and without a partner. -/
def unmirrored (r : State) : State :=
  { r with keep := { r.keep with mirror := false, dev := .idle }, twin := { ({} : TwinSt) with sideband := r.twin.sideband } }

theorem resetMirror_leaves (s : State) : (resetMirror s).keep.mirror = false ∧ (resetMirror s).keep.dev = .idle ∧
    (resetMirror s).plan.active = none ∧ (resetMirror s).twin.pair = .none ∧ (resetMirror s).units.phys = [] ∧
    (resetMirror s).dict.pset = [] ∧ (resetMirror s).dict.awaiting = [] ∧ (resetMirror s).out.getLast? = some (.heartbeat 0) := by
  have resets : resetMirror s = resetIdle (unmirrored (releasePlan s)) := rfl
  obtain ⟨plan, units⟩ := releasePlan_off s
  rw [resets]
  generalize releasePlan s = r at plan units ⊢
  have kept := resetIdle_view (g := fun s => (s.keep, s.plan, s.twin, s.units))
    { raised := fun _ _ _ _ _ _ _ _ _ _ _ => rfl, load := fun _ _ _ _ _ => rfl } (fun _ _ _ => rfl) (unmirrored r)
  simp only [Prod.mk.injEq] at kept
  obtain ⟨keep', plan', twin', units'⟩ := kept
  obtain ⟨pset, -, awaiting, -, sent⟩ := resetIdle_dict (unmirrored r)
  rw [keep', plan', twin', units']
  exact ⟨rfl, rfl, plan, rfl, units, pset, awaiting, sent⟩

theorem nmt_mirror (h : keeperOn s = true) (hm : s.keep.mirror = true) (hd : s.keep.dev = .halted) :
    NmtIgnored .startRemoteNode 1 s ∧ NmtIgnored .stopRemoteNode 2 s ∧ NmtIgnored .enterPreOperational 0x80 s ∧ ResetsComm s ∧
    Completes .resetNode s fun t => t.keep.mirror = false ∧ t.keep.dev = .idle ∧ t.plan.active = none ∧ t.twin.pair = .none ∧
      t.units.phys = [] ∧ t.dict.pset = [] ∧ t.dict.awaiting = [] ∧ t.out.getLast? = some (.heartbeat 0) := by
  have up : s.keep.dev ≠ .boot := by simp [hd]
  have awake : s.keep.dev ≠ .asleep := by simp [hd]
  refine ⟨nmtIgnored_of ((exec_startRemoteNode h up awake).trans (by rw [if_pos hm])),
    nmtIgnored_of ((exec_stopRemoteNode h up awake).trans (by rw [if_pos hm])),
    nmtIgnored_of ((exec_enterPreOperational h up awake).trans (by rw [if_pos hm])), resetsComm_of (exec_resetCommunication h up),
    resetMirror s, (exec_resetNode h up awake).trans (by rw [if_pos hm]), resetMirror_leaves s⟩

/-! ### Asleep (R423) -/

theorem wake_keep (hd : s.keep.dev = .asleep) (cause : Nat) : (wake cause s).keep = { s.keep with dev := s.keep.sleptFrom } := by
  obtain ⟨d, f, e⟩ := applyIdleParts_applies (reloadUnits (woken cause s))
  rw [wake_asleep hd, e]
  show (reloadUnits (woken cause s)).keep = _
  rw [reloadUnits_view (g := State.keep) fun _ _ _ => ⟨rfl, rfl⟩]
  exact raiseOpen_keep ..

/-- A sleeping card takes a command as the card that it wakes into. -/
theorem nmt_asleep (h : keeperOn s = true) (hd : s.keep.dev = .asleep) (hf : s.keep.sleptFrom = .idle ∨ s.keep.sleptFrom = .planLoaded) :
    ∀ c ∈ [Instr.startRemoteNode, .stopRemoteNode, .enterPreOperational, .resetNode],
      (wake 3 s).keep.dev = s.keep.sleptFrom ∧ exec c s = exec c (wake 3 s) := by
  have keep := wake_keep hd 3
  have dev : (wake 3 s).keep.dev = s.keep.sleptFrom := congrArg KeeperSt.dev keep
  have on : keeperOn (wake 3 s) = true := by rw [keeperOn, keep]; exact h
  have up : (wake 3 s).keep.dev ≠ .boot := by rw [dev]; rcases hf with e | e <;> simp [e]
  have awake : (wake 3 s).keep.dev ≠ .asleep := by rw [dev]; rcases hf with e | e <;> simp [e]
  have wakes : ∀ {c : Nat} (f : State → State), c ≠ 0x82 → nmt c f s = nmt c f (wake 3 s) := by
    intro c f hc
    rw [nmt_wakes h (by simp [hd]) hc, nmt_awake on up awake hc]
  simp only [List.forall_mem_cons, List.not_mem_nil, false_implies, implies_true, and_true]
  refine ⟨⟨dev, ?_⟩, ⟨dev, ?_⟩, ⟨dev, ?_⟩, dev, ?_⟩ <;> exact congrArg Host.Outcome.next (wakes _ (by decide))

/-! ### Boot (R60) -/

theorem heldInBoot_iff : HeldInBoot s ↔ (!s.boot.booting && (s.keep.tripped || s.boot.recovery || vauxOnly s)) = true := by
  simp [HeldInBoot, vauxOnly, or_assoc]

theorem nmtBoot_ignored {c : Nat} (h1 : c = 0x82 → ¬ HeldInBoot s) (h2 : c = 0x81 → ¬ (HeldInBoot s ∧ s.keep.v48 = true)) :
    nmtBoot c s = nmtIgnored c s := by
  unfold nmtBoot
  dsimp only
  rw [if_neg fun h => h1 h.1 (heldInBoot_iff.2 h.2), if_neg fun h => h2 h.1 ⟨heldInBoot_iff.2 h.2.1, h.2.2⟩]

theorem nmtBoot_restarts (h : HeldInBoot s) (hv : s.keep.v48 = true) : nmtBoot 0x81 s = startBoot s := by
  unfold nmtBoot
  dsimp only
  rw [if_neg fun hx => absurd hx.1 (by decide), if_pos ⟨rfl, heldInBoot_iff.1 h, hv⟩]

theorem nmt_inBoot (h : keeperOn s = true) (hd : s.keep.dev = .boot) :
    NmtIgnored .startRemoteNode 1 s ∧ NmtIgnored .stopRemoteNode 2 s ∧ NmtIgnored .enterPreOperational 0x80 s ∧
    (HeldInBoot s → ResetsComm s ∧ (s.keep.v48 = true → Completes .resetNode s (BootBegun s)) ∧
      (s.keep.v48 = false → NmtIgnored .resetNode 0x81 s)) ∧
    (¬ HeldInBoot s → NmtIgnored .resetCommunication 0x82 s ∧ NmtIgnored .resetNode 0x81 s) := by
  have boots : ∀ {c : Nat} (f : State → State), Host.Outcome.next (nmt c f s) = (.next (nmtBoot c s) : Res) :=
    fun f => congrArg _ (nmt_boot h hd)
  have ignored : ∀ {c : Nat} (f : State → State), (c = 0x82 → ¬ HeldInBoot s) → (c = 0x81 → ¬ (HeldInBoot s ∧ s.keep.v48 = true)) →
      Host.Outcome.next (nmt c f s) = (.next (nmtIgnored c s) : Res) := fun f h1 h2 => (boots f).trans (congrArg _ (nmtBoot_ignored h1 h2))
  refine ⟨nmtIgnored_of (ignored _ (absurd · (by decide)) (absurd · (by decide))), nmtIgnored_of (ignored _ (absurd · (by decide)) (absurd · (by decide))),
    nmtIgnored_of (ignored _ (absurd · (by decide)) (absurd · (by decide))), fun held => ⟨resetsComm_of ((boots _).trans ?_), fun hv =>
      ⟨startBoot s, (boots _).trans ?_, bootBegun_startBoot s⟩, fun hv => nmtIgnored_of (ignored _ (absurd · (by decide)) fun _ hx => ?_)⟩,
    fun free => ⟨nmtIgnored_of (ignored _ (fun _ => free) (absurd · (by decide))), nmtIgnored_of (ignored _ (absurd · (by decide)) fun _ hx => free hx.1)⟩⟩
  · exact congrArg _ (if_pos ⟨rfl, heldInBoot_iff.1 held⟩)
  · exact congrArg _ (nmtBoot_restarts held hv)
  · simp [hv] at hx

/-- Settles O55: by the device state for the NMT commands, by the reads that no mailbox flag changes for the requests. -/
theorem nmtMailboxAndTowpath : Obligations.NmtMailboxAndTowpath := by
  unfold Obligations.NmtMailboxAndTowpath
  refine ⟨fun s h => ?taken, fun s => nmt_mirror, fun s h hd hf => ⟨?asleep, nmt_asleep h hd hf⟩,
    fun s => nmt_inBoot, fun s h => ?off, exec_producerHeartbeatTimer, fun s n => tpdoEventTimer_sent,
    fun s v idx sub data => mailboxDoorbell s v idx sub data, fun s v idx ho hb h1 h2 hd hp hi bs hv => mailboxReadAll v idx ho hb h1 h2 hd hp hi hv,
    fun s card body => ⟨mailboxResponse_stands card body, fun hb => ?free⟩, fun s => ⟨forwardTimeout_idle, forwardTimeout_ends⟩,
    fun s h s0 m hf => congrArg Host.Outcome.next (hear_stale hf _), fun s h s0 idx sub data hf => towpathWrite hf s0 idx sub data,
    fun s h s0 idx hf hp bs hv => towpathReadAll hf s0 idx hp hv, fun s h s0 body hf hr hw => towpathResponse hf hr hw body,
    fun s a => awaitingPartsRead_answers⟩
  case taken =>
    obtain ⟨on, up, -⟩ := id h
    exact ⟨resetsComm_of (exec_resetCommunication on up), fun hd => (nmt_running h hd).1, nmt_idle h, nmt_planLoaded h,
      fun k hd hk _ ha => planLoaded_reset h hd hk ha, planLoaded_start h, halted_start h,
      fun hd => ⟨(nmt_halted h hd).1, (nmt_halted h hd).2, halted_preOperational h hd⟩,
      fun hd => ⟨running_stop h hd, (nmt_running h hd).2⟩, idle_reset h⟩
  case asleep => exact resetsComm_of (exec_resetCommunication h (by simp [hd]))
  case off =>
    refine ⟨?_, ?_, ?_, ?_, ?_⟩ <;> exact congrArg Host.Outcome.next (nmt_off h)
  case free => exact congrArg Host.Outcome.next (if_neg (Bool.eq_false_iff.1 hb))

end Sys2Proof.Machine
end
